-- ==== Sys2Proof/Word.lean ====
section
/-! DEFINITION. The word types of the machine (R14, R17, R32): a byte, a lane register word, a scalar register
word, and a lane mask of the YL960's W = 32 lanes. -/

namespace Sys2Proof

/-- A byte of memory. -/
abbrev Byte := BitVec 8
/-- A 32-bit word: an instruction word, a lane of a vector register, MODE. -/
abbrev W32 := BitVec 32
/-- A 64-bit word: a scalar register, an address, a CSR. -/
abbrev W64 := BitVec 64
/-- A set of lanes of one warp: bit l is lane l (W = 32 on the YL960, R2, R10). -/
abbrev Mask := BitVec 32

/-- What an access that arrives over the fabric asks of its target (R182, R212, R385): a read, a write, an atomic that gives the
old value, or a RED, the last two with their AOP, their type and their second operand. -/
inductive FabricOp where
  | read
  | write
  | atomic (aop ty : Nat) (y : W64)
  | reduce (aop ty : Nat) (y : W64)
deriving DecidableEq, Repr

/-- What a Yarrow reading takes beside the delays (R393): the powered hours since the last one, and the temperature of each
physical cluster. -/
structure Reading where
  hours : Nat := 0
  temps : List Nat := []
deriving DecidableEq, Repr

/-- What a recovery brings: the firmware image of the mailbox, and what the reset that follows it finds: the pairs that fail
their self-test and the capacities behind the memory ports (R394, R396). -/
structure Recovery where
  bytes : List (BitVec 8) := []
  failed : BitVec 128 := 0
  expanders : List Nat := []
deriving DecidableEq, Repr

end Sys2Proof
end

