-- ==== Sys2Proof/Config.lean ====
section
/-! DEFINITION. What the YL960 fixes among the implementation parameters of R10, and the free values: constants
with no body, which stand for every value that the manual leaves open. -/

namespace Sys2Proof.Config

/-- W, the warp width of the YL960 (R2, R10). -/
def warpWidth : Nat := 32
/-- Vector registers of one scheduler's share at W = 32 (R26). -/
def schedRegs : Nat := 1024
/-- Bytes of scratch of one core (R2, R10). -/
def coreScratch : Nat := 524288
/-- TXL sets of one scheduler's share (R244). -/
def txlSetsPerSched : Nat := 4
/-- Cores of a core pair map with nothing retired (R2). -/
def physicalPairs : Nat := 128

/-- RM, modulo 5, of a path that takes its MODE from a record in which a handler has stored 5 to 7, by that MODE: R79 says
only that RM is never held at these values (R53). -/
opaque restoredRm : W32 → Nat
/-- How many primitives a cluster's VAM queue holds beyond the first (R313 gives no capacity). -/
opaque vamQueueExtra : Nat
/-- NDC position of a sample outside its warp grid, for an axis position in half samples (R311 maps only the grid). -/
opaque outsideGrid : Nat → W32
/-- A barycentric of a sample at which Σ λ_m q_m is 0, by the primitive word of the polygon (R317 divides by the sum). -/
opaque baryFree : W32 → BitVec 16
/-- λ in 256ths where an operand of it is a NaN or an infinite difference, by the lane's operands (R332). -/
opaque lodFree : Nat → Int
/-- The texel coordinate X, or its integer part, of an infinite coordinate of a level's size (R332). -/
opaque texCoordFree : W32 → Nat → Int
/-- REV of DEVINFO (R368): fixed by the silicon, not stated by the manual. -/
opaque silicon_rev : BitVec 8
/-- The amount by which a loop of the management controller changes a cluster's BUDGET at its n-th action
(R392 states that it lowers BUDGET, and not by how much). -/
opaque budgetStep : Nat → Nat
/-- The CCR_BUDGET that the management controller sets in a cluster at reset (R391). -/
opaque budgetReset : Nat → BitVec 24
/-- YARROW.BASE, the delay at first power-on of a physical pair's replica, in 0.1 ps (R391, R393). -/
opaque yarrowBase : Nat → Nat
/-- GUARD's value fused at manufacture, in mV: R393 says only that it is at least 20. -/
opaque guardFusedExtra : Nat → Nat
/-- Whether an image passes the LMS check of R396 against the fused key hash, and meets the minimum version. -/
opaque firmwareAccepted : List Byte → Bool
/-- The payload of the n-th SPDM answer of a kind (R397): SPDM 1.3, ECDSA P-384, the device key and the
measured contents are not given by the manual. -/
opaque spdmPayload : Nat → Nat → BitVec 384
/-- The bytes that image n takes beyond its header, in units of 256, up to the bound of R353, which fixes no size. -/
opaque imageUnits : Nat → Nat
/-- GXN, GYN, GI and GJ of an image of a gang's context (R353 does not say where the device has them from): byte k of
gang g. -/
opaque gangShape : Nat → Nat → Nat
/-- The opaque bytes of a context image (R353): byte k of the image with number n. -/
opaque imageByte : Nat → Nat → Byte
/-- The weighted powered hours that a Yarrow reading adds to STRESS, by the cluster's GUARD in mV, the steps by which its
supply is lowered, the temperature and the hours (R393 does not state the weights). -/
opaque stressWeight : Nat → Nat → Nat → Nat → Nat
/-- Whether a commit finds 8 locked commits at a slice's validator, at its n-th chance of it: R198 does not give the slice of
a line, and which commits overlap is timing (R254). -/
opaque sliceBusy : Nat → Bool
/-- Whether a target device performs the n-th access that this device sends it, or refuses it (R385). -/
opaque fabricAccepted : Nat → Bool
/-- The register of the management mailbox at an offset of its window: 1 the power cap, 2 the link error log, 3 the memory
error log, 4 SPDM transport status, 5 firmware recovery status, 6 requests of retirement (R394), and otherwise none (R367 gives
no offsets). -/
opaque mailboxReg : Nat → Nat
/-- What the mailbox's SPDM transport status (kind 4) and firmware recovery status (kind 5) read as (R367 gives no fields). -/
opaque mailboxStatus : Nat → Nat → BitVec 64
/-- The boot ROM, the fuse configuration and the bytes of the memory-port map, as R397 measures them. -/
opaque bootRom : List Byte
opaque fuses : List Byte
opaque portMapBytes : List Nat → List Byte
/-- The value that a strip of a view whose record changed within the frame shows (R307 calls it
unpredictable): pixel n (view, row, column) of the k-th such event. -/
opaque unpredictablePixel : Nat → Nat → W32

end Sys2Proof.Config
end

