-- ==== Sys2Proof/Syntax.lean ====
section
/-! DEFINITION. The instructions of the Eusen YL960: one constructor for every row of the opcode table
(R88, R91-R98), and one for every row that names a step of another agent (an EVENT: a copy row, a dispatch
step, a host command, the opening of a strip window). An instruction's arguments are the fields of its word
at their encoded widths; an event's arguments name the agent and carry the input that comes from outside. -/

namespace Sys2Proof

inductive Instr where
  /-- R88. No operation; only PC advances and AGE resets. -/
  | nop
  /-- R151. Scalar add, 64-bit or 32-bit. -/
  | sadd (d : BitVec 6) (a : BitVec 6) (b : BitVec 6) (g : Bool) (t : Bool)
  /-- R151. Scalar subtract. -/
  | ssub (d : BitVec 6) (a : BitVec 6) (b : BitVec 6) (g : Bool) (t : Bool)
  /-- R151. Scalar multiply, low bits. -/
  | smul (d : BitVec 6) (a : BitVec 6) (b : BitVec 6) (g : Bool) (t : Bool)
  /-- R151. Scalar signed multiply, high bits. -/
  | smulh (d : BitVec 6) (a : BitVec 6) (b : BitVec 6) (g : Bool) (t : Bool)
  /-- R151. Scalar bitwise AND. -/
  | sand (d : BitVec 6) (a : BitVec 6) (b : BitVec 6) (g : Bool) (t : Bool)
  /-- R151. Scalar bitwise OR. -/
  | sor (d : BitVec 6) (a : BitVec 6) (b : BitVec 6) (g : Bool) (t : Bool)
  /-- R151. Scalar bitwise XOR. -/
  | sxor (d : BitVec 6) (a : BitVec 6) (b : BitVec 6) (g : Bool) (t : Bool)
  /-- R151. Scalar shift left. -/
  | sshl (d : BitVec 6) (a : BitVec 6) (b : BitVec 6) (g : Bool) (t : Bool)
  /-- R151. Scalar logical shift right. -/
  | sshr (d : BitVec 6) (a : BitVec 6) (b : BitVec 6) (g : Bool) (t : Bool)
  /-- R151. Scalar arithmetic shift right. -/
  | ssar (d : BitVec 6) (a : BitVec 6) (b : BitVec 6) (g : Bool) (t : Bool)
  /-- R151. Scalar signed minimum. -/
  | smin (d : BitVec 6) (a : BitVec 6) (b : BitVec 6) (g : Bool) (t : Bool)
  /-- R151. Scalar signed maximum. -/
  | smax (d : BitVec 6) (a : BitVec 6) (b : BitVec 6) (g : Bool) (t : Bool)
  /-- R151. Scalar unsigned minimum. -/
  | sminu (d : BitVec 6) (a : BitVec 6) (b : BitVec 6) (g : Bool) (t : Bool)
  /-- R151. Scalar unsigned maximum. -/
  | smaxu (d : BitVec 6) (a : BitVec 6) (b : BitVec 6) (g : Bool) (t : Bool)
  /-- R151. Scalar leading zero count. -/
  | sclz (d : BitVec 6) (a : BitVec 6) (g : Bool) (t : Bool)
  /-- R151. Scalar population count. -/
  | spop (d : BitVec 6) (a : BitVec 6) (g : Bool) (t : Bool)
  /-- R152. Scalar add of a sign-extended 12-bit immediate. -/
  | saddi (d : BitVec 6) (a : BitVec 6) (imm : BitVec 12) (g : Bool)
  /-- R153. Scalar compare equal into a predicate. -/
  | scmpeq (d : BitVec 3) (a : BitVec 6) (b : BitVec 6) (g : Bool) (t : Bool)
  /-- R153. Scalar compare not equal. -/
  | scmpne (d : BitVec 3) (a : BitVec 6) (b : BitVec 6) (g : Bool) (t : Bool)
  /-- R153. Scalar compare signed less than. -/
  | scmplt (d : BitVec 3) (a : BitVec 6) (b : BitVec 6) (g : Bool) (t : Bool)
  /-- R153. Scalar compare signed less or equal. -/
  | scmple (d : BitVec 3) (a : BitVec 6) (b : BitVec 6) (g : Bool) (t : Bool)
  /-- R153. Scalar compare unsigned less than. -/
  | scmpltu (d : BitVec 3) (a : BitVec 6) (b : BitVec 6) (g : Bool) (t : Bool)
  /-- R153. Scalar compare unsigned less or equal. -/
  | scmpleu (d : BitVec 3) (a : BitVec 6) (b : BitVec 6) (g : Bool) (t : Bool)
  /-- R153. Scalar compare signed greater than. -/
  | scmpgt (d : BitVec 3) (a : BitVec 6) (b : BitVec 6) (g : Bool) (t : Bool)
  /-- R153. Scalar compare signed greater or equal. -/
  | scmpge (d : BitVec 3) (a : BitVec 6) (b : BitVec 6) (g : Bool) (t : Bool)
  /-- R153. Scalar compare unsigned greater than. -/
  | scmpgtu (d : BitVec 3) (a : BitVec 6) (b : BitVec 6) (g : Bool) (t : Bool)
  /-- R153. Scalar compare unsigned greater or equal. -/
  | scmpgeu (d : BitVec 3) (a : BitVec 6) (b : BitVec 6) (g : Bool) (t : Bool)
  /-- R154. Move a sign-extended 16-bit immediate to a scalar. -/
  | smovi (d : BitVec 6) (imm : BitVec 16)
  /-- R154. Insert 16 bits at bit 16 of a scalar. -/
  | sins16 (d : BitVec 6) (imm : BitVec 16)
  /-- R154. Insert 16 bits at bit 32 of a scalar. -/
  | sins32 (d : BitVec 6) (imm : BitVec 16)
  /-- R154. Insert 16 bits at bit 48 of a scalar. -/
  | sins48 (d : BitVec 6) (imm : BitVec 16)
  /-- R155. Move a sign-extended 32-bit literal to a scalar (two words). -/
  | smovl (d : BitVec 6) (g : Bool) (lit : BitVec 32)
  /-- R155. Move a zero-extended 32-bit literal to a scalar (two words). -/
  | smovlz (d : BitVec 6) (g : Bool) (lit : BitVec 32)
  /-- R155. Insert a 32-bit literal into bits 63:32 of a scalar (two words). -/
  | smovlh (d : BitVec 6) (g : Bool) (lit : BitVec 32)
  /-- R156. Scalar select on a non-zero scalar condition. -/
  | ssel (d : BitVec 6) (a : BitVec 6) (b : BitVec 6) (c : BitVec 6) (g : Bool)
  /-- R157. Scalar signed divide, optional divide-by-zero trap. -/
  | sdiv (d : BitVec 6) (a : BitVec 6) (b : BitVec 6) (g : Bool) (t : Bool)
  /-- R157. Scalar unsigned divide. -/
  | sdivu (d : BitVec 6) (a : BitVec 6) (b : BitVec 6) (g : Bool) (t : Bool)
  /-- R157. Scalar signed remainder. -/
  | srem (d : BitVec 6) (a : BitVec 6) (b : BitVec 6) (g : Bool) (t : Bool)
  /-- R157. Scalar unsigned remainder. -/
  | sremu (d : BitVec 6) (a : BitVec 6) (b : BitVec 6) (g : Bool) (t : Bool)
  /-- R158. Predicate AND. -/
  | pand (d : BitVec 3) (a : BitVec 3) (b : BitVec 3) (g : Bool)
  /-- R158. Predicate OR. -/
  | por (d : BitVec 3) (a : BitVec 3) (b : BitVec 3) (g : Bool)
  /-- R158. Predicate XOR. -/
  | pxor (d : BitVec 3) (a : BitVec 3) (b : BitVec 3) (g : Bool)
  /-- R158. Predicate AND NOT. -/
  | pandn (d : BitVec 3) (a : BitVec 3) (b : BitVec 3) (g : Bool)
  /-- R158. Predicate NOT. -/
  | pnot (d : BitVec 3) (a : BitVec 3) (g : Bool)
  /-- R158. Predicate move. -/
  | pmov (d : BitVec 3) (a : BitVec 3) (g : Bool)
  /-- R158. Predicate set to 1 in active lanes. -/
  | pset (d : BitVec 3) (g : Bool)
  /-- R158. Predicate clear in active lanes. -/
  | pclr (d : BitVec 3) (g : Bool)
  /-- R159. Scalar gets 1 if any active lane's predicate is set. -/
  | pany (d : BitVec 6) (a : BitVec 3) (g : Bool)
  /-- R159. Scalar gets 1 if every active lane's predicate is set. -/
  | pall (d : BitVec 6) (a : BitVec 3) (g : Bool)
  /-- R159. Scalar gets the count of active lanes with the predicate set. -/
  | ppop (d : BitVec 6) (a : BitVec 3) (g : Bool)
  /-- R160. Copy a whole predicate register into a scalar. -/
  | ptos (d : BitVec 6) (a : BitVec 3) (g : Bool)
  /-- R160. Copy scalar bits into a predicate in active lanes. -/
  | stop (d : BitVec 3) (a : BitVec 6) (g : Bool)
  /-- R161. Uniform branch of the whole path. -/
  | br (off : BitVec 22)
  /-- R162. Uniform branch on a scalar condition. -/
  | brs (a : BitVec 6) (n : Bool) (off : BitVec 18)
  /-- R163. Divergent branch on a predicate with reconvergence address; may split the path. -/
  | brc (p : BitVec 3) (n : Bool) (tgt : BitVec 13) (rcd : BitVec 8)
  /-- R163. Divergent branch with a 32-bit literal reconvergence offset (two words). -/
  | brcl (p : BitVec 3) (n : Bool) (tgt : BitVec 13) (lit : BitVec 32)
  /-- R165. Call with window slide, pushing a CALL record. -/
  | call (k : BitVec 3) (off : BitVec 22)
  /-- R165. Call through a scalar register target. -/
  | callr (a : BitVec 6) (k : BitVec 3)
  /-- R169. Return from a call, restoring caller state from the CALL record. -/
  | ret
  /-- R168. Set the callee frame size and zero registers the caller never held. -/
  | enter (f : BitVec 4)
  /-- R170. Start a hardware loop with an immediate count. -/
  | loop (last : BitVec 8) (count : BitVec 16)
  /-- R170. Start a hardware loop with a scalar count. -/
  | loopr (last : BitVec 8) (sc : BitVec 6)
  /-- R172. Leave the innermost hardware loop. -/
  | lbrk
  /-- R173. Retire active lanes; retire the warp when no lane is live. -/
  | exit (g : Bool)
  /-- R80. Write MODE guard fields from the immediate. -/
  | setmg (imm : BitVec 4)
  /-- R80. Write MODE type fields from the immediate. -/
  | setmt (imm : BitVec 10)
  /-- R80. Write MODE rounding and control fields from the immediate. -/
  | setmr (imm : BitVec 7)
  /-- R80. Write the whole MODE from a scalar. -/
  | setm (d : BitVec 6)
  /-- R175. Read the issuing path's MODE into a scalar. -/
  | getm (d : BitVec 6)
  /-- R117. Vector integer add. -/
  | vadd (d : BitVec 6) (a : BitVec 6) (b : BitVec 6) (g : Bool) (t : Bool)
  /-- R117. Vector integer subtract. -/
  | vsub (d : BitVec 6) (a : BitVec 6) (b : BitVec 6) (g : Bool) (t : Bool)
  /-- R117. Vector integer multiply. -/
  | vmul (d : BitVec 6) (a : BitVec 6) (b : BitVec 6) (g : Bool) (t : Bool)
  /-- R117. Vector signed multiply high. -/
  | vmulh (d : BitVec 6) (a : BitVec 6) (b : BitVec 6) (g : Bool) (t : Bool)
  /-- R117. Vector unsigned multiply high. -/
  | vmulhu (d : BitVec 6) (a : BitVec 6) (b : BitVec 6) (g : Bool) (t : Bool)
  /-- R117. Vector integer minimum. -/
  | vmin (d : BitVec 6) (a : BitVec 6) (b : BitVec 6) (g : Bool) (t : Bool)
  /-- R117. Vector integer maximum. -/
  | vmax (d : BitVec 6) (a : BitVec 6) (b : BitVec 6) (g : Bool) (t : Bool)
  /-- R117. Vector integer absolute value. -/
  | vabs (d : BitVec 6) (a : BitVec 6) (g : Bool) (t : Bool)
  /-- R117. Vector integer negate. -/
  | vneg (d : BitVec 6) (a : BitVec 6) (g : Bool) (t : Bool)
  /-- R117. Vector absolute difference. -/
  | vabsdiff (d : BitVec 6) (a : BitVec 6) (b : BitVec 6) (g : Bool) (t : Bool)
  /-- R117. Vector rounding average. -/
  | vavg (d : BitVec 6) (a : BitVec 6) (b : BitVec 6) (g : Bool) (t : Bool)
  /-- R118. Vector bitwise AND. -/
  | vand (d : BitVec 6) (a : BitVec 6) (b : BitVec 6) (g : Bool) (t : Bool)
  /-- R118. Vector bitwise OR. -/
  | vor (d : BitVec 6) (a : BitVec 6) (b : BitVec 6) (g : Bool) (t : Bool)
  /-- R118. Vector bitwise XOR. -/
  | vxor (d : BitVec 6) (a : BitVec 6) (b : BitVec 6) (g : Bool) (t : Bool)
  /-- R118. Vector AND NOT. -/
  | vandn (d : BitVec 6) (a : BitVec 6) (b : BitVec 6) (g : Bool) (t : Bool)
  /-- R118. Vector bitwise NOT. -/
  | vnot (d : BitVec 6) (a : BitVec 6) (g : Bool) (t : Bool)
  /-- R118. Vector shift left. -/
  | vshl (d : BitVec 6) (a : BitVec 6) (b : BitVec 6) (g : Bool) (t : Bool)
  /-- R118. Vector logical shift right. -/
  | vshr (d : BitVec 6) (a : BitVec 6) (b : BitVec 6) (g : Bool) (t : Bool)
  /-- R118. Vector arithmetic shift right. -/
  | vsar (d : BitVec 6) (a : BitVec 6) (b : BitVec 6) (g : Bool) (t : Bool)
  /-- R118. Vector rotate left. -/
  | vrol (d : BitVec 6) (a : BitVec 6) (b : BitVec 6) (g : Bool) (t : Bool)
  /-- R118. Vector rotate right. -/
  | vror (d : BitVec 6) (a : BitVec 6) (b : BitVec 6) (g : Bool) (t : Bool)
  /-- R118. Vector leading zero count. -/
  | vclz (d : BitVec 6) (a : BitVec 6) (g : Bool) (t : Bool)
  /-- R118. Vector population count. -/
  | vpop (d : BitVec 6) (a : BitVec 6) (g : Bool) (t : Bool)
  /-- R118. Vector bit reverse. -/
  | vbrev (d : BitVec 6) (a : BitVec 6) (g : Bool) (t : Bool)
  /-- R119. Vector integer multiply-add. -/
  | vimad (d : BitVec 6) (a : BitVec 6) (b : BitVec 6) (c : BitVec 6) (g : Bool)
  /-- R120. Vector bit-field extract, zero-extended. -/
  | vbfe (d : BitVec 6) (a : BitVec 6) (b : BitVec 6) (g : Bool) (t : Bool)
  /-- R120. Vector bit-field extract, sign-extended. -/
  | vbfes (d : BitVec 6) (a : BitVec 6) (b : BitVec 6) (g : Bool) (t : Bool)
  /-- R120. Vector bit-field insert. -/
  | vbfi (d : BitVec 6) (a : BitVec 6) (b : BitVec 6) (c : BitVec 6) (g : Bool)
  /-- R121. Vector integer compare equal into a predicate. -/
  | vcmpeq (d : BitVec 3) (a : BitVec 6) (b : BitVec 6) (g : Bool) (t : Bool)
  /-- R121. Vector compare not equal. -/
  | vcmpne (d : BitVec 3) (a : BitVec 6) (b : BitVec 6) (g : Bool) (t : Bool)
  /-- R121. Vector compare signed less than. -/
  | vcmplt (d : BitVec 3) (a : BitVec 6) (b : BitVec 6) (g : Bool) (t : Bool)
  /-- R121. Vector compare signed less or equal. -/
  | vcmple (d : BitVec 3) (a : BitVec 6) (b : BitVec 6) (g : Bool) (t : Bool)
  /-- R121. Vector compare unsigned less than. -/
  | vcmpltu (d : BitVec 3) (a : BitVec 6) (b : BitVec 6) (g : Bool) (t : Bool)
  /-- R121. Vector compare unsigned less or equal. -/
  | vcmpleu (d : BitVec 3) (a : BitVec 6) (b : BitVec 6) (g : Bool) (t : Bool)
  /-- R121. Vector compare signed greater than. -/
  | vcmpgt (d : BitVec 3) (a : BitVec 6) (b : BitVec 6) (g : Bool) (t : Bool)
  /-- R121. Vector compare signed greater or equal. -/
  | vcmpge (d : BitVec 3) (a : BitVec 6) (b : BitVec 6) (g : Bool) (t : Bool)
  /-- R121. Vector compare unsigned greater than. -/
  | vcmpgtu (d : BitVec 3) (a : BitVec 6) (b : BitVec 6) (g : Bool) (t : Bool)
  /-- R121. Vector compare unsigned greater or equal. -/
  | vcmpgeu (d : BitVec 3) (a : BitVec 6) (b : BitVec 6) (g : Bool) (t : Bool)
  /-- R122. Vector select by predicate. -/
  | vsel (d : BitVec 6) (a : BitVec 6) (b : BitVec 6) (c : BitVec 3) (g : Bool)
  /-- R124. Vector register move. -/
  | vmov (d : BitVec 6) (a : BitVec 6) (g : Bool) (t : Bool)
  /-- R124. Broadcast a scalar to active lanes. -/
  | vbcast (d : BitVec 6) (a : BitVec 6) (g : Bool) (t : Bool)
  /-- R124. Read one lane of a vector register into a scalar. -/
  | vtos (d : BitVec 6) (a : BitVec 6) (b : BitVec 6) (g : Bool) (t : Bool)
  /-- R124. Write a scalar into one lane of a vector register. -/
  | stov (d : BitVec 6) (a : BitVec 6) (b : BitVec 6) (g : Bool) (t : Bool)
  /-- R124. Handler reads an outer-frame register. -/
  | vrdout (d : BitVec 6) (n : BitVec 6) (g : Bool) (t : Bool)
  /-- R124. Handler writes an outer-frame register. -/
  | vwrout (n : BitVec 6) (a : BitVec 6) (g : Bool) (t : Bool)
  /-- R125. Move a sign-extended 12-bit immediate into active lanes. -/
  | vmovi (d : BitVec 6) (imm : BitVec 12) (g : Bool)
  /-- R125. Move a 32-bit literal into active lanes (two words). -/
  | vmovl (d : BitVec 6) (g : Bool) (lit : BitVec 32)
  /-- R123. Vector integer divide. -/
  | vdiv (d : BitVec 6) (a : BitVec 6) (b : BitVec 6) (g : Bool) (t : Bool)
  /-- R123. Vector integer remainder. -/
  | vrem (d : BitVec 6) (a : BitVec 6) (b : BitVec 6) (g : Bool) (t : Bool)
  /-- R135. Convert from type TB to type TA. -/
  | vcvt (d : BitVec 6) (a : BitVec 6) (g : Bool)
  /-- R135. Round a float to an integral value. -/
  | vrndi (d : BitVec 6) (a : BitVec 6) (g : Bool)
  /-- R135. Convert two values into a packed type. -/
  | vpack (d : BitVec 6) (a : BitVec 6) (b : BitVec 6) (g : Bool)
  /-- R135. Convert element 0 of a packed value. -/
  | vunpkl (d : BitVec 6) (a : BitVec 6) (g : Bool)
  /-- R135. Convert element 1 of a packed value. -/
  | vunpkh (d : BitVec 6) (a : BitVec 6) (g : Bool)
  /-- R126. Floating-point add. -/
  | fadd (d : BitVec 6) (a : BitVec 6) (b : BitVec 6) (g : Bool) (t : Bool)
  /-- R126. Floating-point subtract. -/
  | fsub (d : BitVec 6) (a : BitVec 6) (b : BitVec 6) (g : Bool) (t : Bool)
  /-- R126. Floating-point multiply. -/
  | fmul (d : BitVec 6) (a : BitVec 6) (b : BitVec 6) (g : Bool) (t : Bool)
  /-- R127. Floating-point minimum. -/
  | fmin (d : BitVec 6) (a : BitVec 6) (b : BitVec 6) (g : Bool) (t : Bool)
  /-- R127. Floating-point maximum. -/
  | fmax (d : BitVec 6) (a : BitVec 6) (b : BitVec 6) (g : Bool) (t : Bool)
  /-- R126. Floating-point absolute value. -/
  | fabs (d : BitVec 6) (a : BitVec 6) (g : Bool) (t : Bool)
  /-- R126. Floating-point negate. -/
  | fneg (d : BitVec 6) (a : BitVec 6) (g : Bool) (t : Bool)
  /-- R126. Magnitude of a with sign of b. -/
  | fcopysign (d : BitVec 6) (a : BitVec 6) (b : BitVec 6) (g : Bool) (t : Bool)
  /-- R126. Multiply by a power of two. -/
  | fscale (d : BitVec 6) (a : BitVec 6) (b : BitVec 6) (g : Bool) (t : Bool)
  /-- R128. Fused multiply-add with one rounding. -/
  | ffma (d : BitVec 6) (a : BitVec 6) (b : BitVec 6) (c : BitVec 6) (g : Bool)
  /-- R130. Float compare equal into a predicate. -/
  | fcmpeq (d : BitVec 3) (a : BitVec 6) (b : BitVec 6) (g : Bool) (t : Bool)
  /-- R130. Float compare ordered not equal. -/
  | fcmpne (d : BitVec 3) (a : BitVec 6) (b : BitVec 6) (g : Bool) (t : Bool)
  /-- R130. Float compare less than. -/
  | fcmplt (d : BitVec 3) (a : BitVec 6) (b : BitVec 6) (g : Bool) (t : Bool)
  /-- R130. Float compare less or equal. -/
  | fcmple (d : BitVec 3) (a : BitVec 6) (b : BitVec 6) (g : Bool) (t : Bool)
  /-- R130. Float compare greater than. -/
  | fcmpgt (d : BitVec 3) (a : BitVec 6) (b : BitVec 6) (g : Bool) (t : Bool)
  /-- R130. Float compare greater or equal. -/
  | fcmpge (d : BitVec 3) (a : BitVec 6) (b : BitVec 6) (g : Bool) (t : Bool)
  /-- R130. Float compare unordered or equal. -/
  | fcmpueq (d : BitVec 3) (a : BitVec 6) (b : BitVec 6) (g : Bool) (t : Bool)
  /-- R130. Float compare unordered or not equal. -/
  | fcmpune (d : BitVec 3) (a : BitVec 6) (b : BitVec 6) (g : Bool) (t : Bool)
  /-- R130. Float compare unordered or less than. -/
  | fcmpult (d : BitVec 3) (a : BitVec 6) (b : BitVec 6) (g : Bool) (t : Bool)
  /-- R130. Float compare unordered or less or equal. -/
  | fcmpule (d : BitVec 3) (a : BitVec 6) (b : BitVec 6) (g : Bool) (t : Bool)
  /-- R130. Float compare unordered or greater than. -/
  | fcmpugt (d : BitVec 3) (a : BitVec 6) (b : BitVec 6) (g : Bool) (t : Bool)
  /-- R130. Float compare unordered or greater or equal. -/
  | fcmpuge (d : BitVec 3) (a : BitVec 6) (b : BitVec 6) (g : Bool) (t : Bool)
  /-- R130. Float compare ordered. -/
  | fcmpord (d : BitVec 3) (a : BitVec 6) (b : BitVec 6) (g : Bool) (t : Bool)
  /-- R130. Float compare unordered. -/
  | fcmpunord (d : BitVec 3) (a : BitVec 6) (b : BitVec 6) (g : Bool) (t : Bool)
  /-- R131. Correctly rounded reciprocal. -/
  | frcp (d : BitVec 6) (a : BitVec 6) (g : Bool) (t : Bool)
  /-- R131. Approximate reciprocal square root. -/
  | frsq (d : BitVec 6) (a : BitVec 6) (g : Bool) (t : Bool)
  /-- R131. Correctly rounded square root. -/
  | fsqrt (d : BitVec 6) (a : BitVec 6) (g : Bool) (t : Bool)
  /-- R131. Approximate base-2 exponential. -/
  | fexp2 (d : BitVec 6) (a : BitVec 6) (g : Bool) (t : Bool)
  /-- R131. Approximate base-2 logarithm. -/
  | flog2 (d : BitVec 6) (a : BitVec 6) (g : Bool) (t : Bool)
  /-- R131. Approximate sine of turns. -/
  | fsin (d : BitVec 6) (a : BitVec 6) (g : Bool) (t : Bool)
  /-- R131. Approximate cosine of turns. -/
  | fcos (d : BitVec 6) (a : BitVec 6) (g : Bool) (t : Bool)
  /-- R131. Approximate hyperbolic tangent. -/
  | ftanh (d : BitVec 6) (a : BitVec 6) (g : Bool) (t : Bool)
  /-- R134. Fractional part. -/
  | ffract (d : BitVec 6) (a : BitVec 6) (g : Bool) (t : Bool)
  /-- R133. Classify a float into a one-hot mask. -/
  | fclass (d : BitVec 6) (a : BitVec 6) (g : Bool) (t : Bool)
  /-- R131. Correctly rounded division. -/
  | fdiv (d : BitVec 6) (a : BitVec 6) (b : BitVec 6) (g : Bool) (t : Bool)
  /-- R129. Two-element dot product accumulated into F32. -/
  | fdot (d : BitVec 6) (a : BitVec 6) (b : BitVec 6) (c : BitVec 6) (g : Bool)
  /-- R138. Lane shuffle by per-lane index. -/
  | lshuf (d : BitVec 6) (a : BitVec 6) (b : BitVec 6) (g : Bool) (t : Bool)
  /-- R138. Lane rotate. -/
  | lrot (d : BitVec 6) (a : BitVec 6) (b : BitVec 6) (g : Bool) (t : Bool)
  /-- R138. Lane XOR permute. -/
  | lxorl (d : BitVec 6) (a : BitVec 6) (b : BitVec 6) (g : Bool) (t : Bool)
  /-- R138. Lane shift up. -/
  | lup (d : BitVec 6) (a : BitVec 6) (b : BitVec 6) (g : Bool) (t : Bool)
  /-- R138. Lane shift down. -/
  | ldown (d : BitVec 6) (a : BitVec 6) (b : BitVec 6) (g : Bool) (t : Bool)
  /-- R138. Lane broadcast. -/
  | lbcast (d : BitVec 6) (a : BitVec 6) (b : BitVec 6) (g : Bool) (t : Bool)
  /-- R138. Lane rotate scaled by warp width. -/
  | lrotw (d : BitVec 6) (a : BitVec 6) (b : BitVec 6) (g : Bool) (t : Bool)
  /-- R139. Cross-lane integer add reduction. -/
  | lredadd (d : BitVec 6) (a : BitVec 6) (g : Bool) (t : Bool)
  /-- R139. Cross-lane minimum reduction. -/
  | lredmin (d : BitVec 6) (a : BitVec 6) (g : Bool) (t : Bool)
  /-- R139. Cross-lane maximum reduction. -/
  | lredmax (d : BitVec 6) (a : BitVec 6) (g : Bool) (t : Bool)
  /-- R139. Cross-lane AND reduction. -/
  | lredand (d : BitVec 6) (a : BitVec 6) (g : Bool) (t : Bool)
  /-- R139. Cross-lane OR reduction. -/
  | lredor (d : BitVec 6) (a : BitVec 6) (g : Bool) (t : Bool)
  /-- R139. Cross-lane XOR reduction. -/
  | lredxor (d : BitVec 6) (a : BitVec 6) (g : Bool) (t : Bool)
  /-- R139. Cross-lane float add reduction in a fixed tree. -/
  | lredfadd (d : BitVec 6) (a : BitVec 6) (g : Bool) (t : Bool)
  /-- R139. Cross-lane float minimum reduction. -/
  | lredfmin (d : BitVec 6) (a : BitVec 6) (g : Bool) (t : Bool)
  /-- R139. Cross-lane float maximum reduction. -/
  | lredfmax (d : BitVec 6) (a : BitVec 6) (g : Bool) (t : Bool)
  /-- R140. Inclusive integer add scan. -/
  | lscanadd (d : BitVec 6) (a : BitVec 6) (g : Bool) (t : Bool)
  /-- R140. Inclusive minimum scan. -/
  | lscanmin (d : BitVec 6) (a : BitVec 6) (g : Bool) (t : Bool)
  /-- R140. Inclusive maximum scan. -/
  | lscanmax (d : BitVec 6) (a : BitVec 6) (g : Bool) (t : Bool)
  /-- R140. Inclusive AND scan. -/
  | lscanand (d : BitVec 6) (a : BitVec 6) (g : Bool) (t : Bool)
  /-- R140. Inclusive OR scan. -/
  | lscanor (d : BitVec 6) (a : BitVec 6) (g : Bool) (t : Bool)
  /-- R140. Inclusive XOR scan. -/
  | lscanxor (d : BitVec 6) (a : BitVec 6) (g : Bool) (t : Bool)
  /-- R140. Inclusive float add scan. -/
  | lscanfadd (d : BitVec 6) (a : BitVec 6) (g : Bool) (t : Bool)
  /-- R140. Exclusive integer add scan. -/
  | lxscanadd (d : BitVec 6) (a : BitVec 6) (g : Bool) (t : Bool)
  /-- R140. Exclusive minimum scan. -/
  | lxscanmin (d : BitVec 6) (a : BitVec 6) (g : Bool) (t : Bool)
  /-- R140. Exclusive maximum scan. -/
  | lxscanmax (d : BitVec 6) (a : BitVec 6) (g : Bool) (t : Bool)
  /-- R140. Exclusive AND scan. -/
  | lxscanand (d : BitVec 6) (a : BitVec 6) (g : Bool) (t : Bool)
  /-- R140. Exclusive OR scan. -/
  | lxscanor (d : BitVec 6) (a : BitVec 6) (g : Bool) (t : Bool)
  /-- R140. Exclusive XOR scan. -/
  | lxscanxor (d : BitVec 6) (a : BitVec 6) (g : Bool) (t : Bool)
  /-- R140. Exclusive float add scan. -/
  | lxscanfadd (d : BitVec 6) (a : BitVec 6) (g : Bool) (t : Bool)
  /-- R141. Gather a predicate's active-lane bits into a scalar. -/
  | lballot (d : BitVec 6) (a : BitVec 3) (g : Bool)
  /-- R141. Per-lane mask of active lanes holding equal values. -/
  | lmatch (d : BitVec 6) (a : BitVec 6) (g : Bool) (t : Bool)
  /-- R143. Send registers to another warp through a transfer slot. -/
  | xsend (d : BitVec 4) (a : BitVec 6) (b : BitVec 6) (g : Bool)
  /-- R143. Receive registers from another warp through a transfer slot. -/
  | xrecv (d : BitVec 6) (a : BitVec 4) (b : BitVec 6) (g : Bool)
  /-- R144. Workgroup rendezvous that sorts lane records by key. -/
  | regroup (d : BitVec 6) (a : BitVec 6) (b : BitVec 6) (g : Bool)
  /-- R142. Write each active lane's thread identity. -/
  | vlane (d : BitVec 6) (g : Bool)
  /-- R209. Per-lane global load. -/
  | ld (d : BitVec 6) (a : BitVec 6) (b : BitVec 6) (sc : BitVec 3) (ord : BitVec 2) (g : Bool) (t : Bool)
  /-- R209. Per-lane global store. -/
  | st (d : BitVec 6) (a : BitVec 6) (b : BitVec 6) (sc : BitVec 3) (ord : BitVec 2) (g : Bool) (t : Bool)
  /-- R210. Uniform scalar load. -/
  | ldu (d : BitVec 6) (a : BitVec 6) (b : BitVec 6) (sc : BitVec 3) (ord : BitVec 2) (g : Bool) (t : Bool)
  /-- R210. Uniform scalar store. -/
  | stu (d : BitVec 6) (a : BitVec 6) (b : BitVec 6) (sc : BitVec 3) (ord : BitVec 2) (g : Bool) (t : Bool)
  /-- R211. Scratch load through a handle word. -/
  | ldh (d : BitVec 6) (a : BitVec 6) (b : BitVec 6) (sc : BitVec 3) (ord : BitVec 2) (g : Bool) (t : Bool)
  /-- R211. Scratch store through a handle word. -/
  | sth (d : BitVec 6) (a : BitVec 6) (b : BitVec 6) (sc : BitVec 3) (ord : BitVec 2) (g : Bool) (t : Bool)
  /-- R212. Relaxed global atomic returning the old value; AOP selects the operation. -/
  | atom (d : BitVec 6) (a : BitVec 6) (b : BitVec 6) (aop : BitVec 4) (sc : BitVec 3)
  /-- R212. Acquire-release global atomic returning the old value. -/
  | atoma (d : BitVec 6) (a : BitVec 6) (b : BitVec 6) (aop : BitVec 4) (sc : BitVec 3)
  /-- R212. Global reduction atomic returning nothing. -/
  | red (a : BitVec 6) (b : BitVec 6) (aop : BitVec 4) (sc : BitVec 3)
  /-- R212. Scratch atomic through a handle word. -/
  | atomh (d : BitVec 6) (a : BitVec 6) (b : BitVec 6) (aop : BitVec 4) (sc : BitVec 3)
  /-- R193. Allocate a scratch tile handle. -/
  | talloc (d : BitVec 6) (a : BitVec 6) (g : Bool)
  /-- R195. Free a scratch handle after its earlier accesses are performed. -/
  | tfree (a : BitVec 6) (g : Bool)
  /-- R196. Read free scratch and handle counts. -/
  | tinfo (d : BitVec 6) (g : Bool)
  /-- R206. Block until the four counters are at or below the given values. -/
  | wait (ld : BitVec 6) (st : BitVec 6) (cp : BitVec 6) (tl : BitVec 6)
  /-- R207. Block until LD is at or below a scalar. -/
  | waitrld (a : BitVec 6) (g : Bool)
  /-- R207. Block until ST is at or below a scalar. -/
  | waitrst (a : BitVec 6) (g : Bool)
  /-- R207. Block until CP is at or below a scalar, reporting copy faults. -/
  | waitrcp (a : BitVec 6) (g : Bool)
  /-- R207. Block until TL is at or below a scalar. -/
  | waitrtl (a : BitVec 6) (g : Bool)
  /-- R199. Prefetch lines into the L1. -/
  | pfl1 (a : BitVec 6) (b : BitVec 6) (g : Bool)
  /-- R199. Prefetch lines into the LLC. -/
  | pfllc (a : BitVec 6) (b : BitVec 6) (g : Bool)
  /-- R199. Write dirty LLC lines back to memory. -/
  | cwb (a : BitVec 6) (b : BitVec 6) (g : Bool)
  /-- R199. Drop lines from the issuing core's L1. -/
  | cinv (a : BitVec 6) (b : BitVec 6) (g : Bool)
  /-- R199. Drop instruction caches and loop buffers within a scope. -/
  | icinv (n : BitVec 6) (g : Bool)
  /-- R227. Wait for earlier accesses and drop the L1 at die scope or wider. -/
  | fence (sc : BitVec 4) (g : Bool)
  /-- R232. Initialise a barrier object. -/
  | binit (a : BitVec 6) (b : BitVec 6) (g : Bool)
  /-- R233. Arrive at a barrier object. -/
  | barv (a : BitVec 6) (g : Bool)
  /-- R233. Arrive at a barrier object expecting transaction bytes. -/
  | barvx (a : BitVec 6) (b : BitVec 6) (g : Bool)
  /-- R233. Arrive and drop from later phases. -/
  | barvd (a : BitVec 6) (g : Bool)
  /-- R234. Block until a barrier phase of the given parity completes. -/
  | bwait (a : BitVec 6) (b : BitVec 6) (g : Bool)
  /-- R234. Test whether a barrier phase is complete. -/
  | btest (d : BitVec 3) (a : BitVec 6) (b : BitVec 6) (g : Bool)
  /-- R236. Arrive at the cluster barrier. -/
  | cbara (g : Bool)
  /-- R236. Wait at the cluster barrier. -/
  | cbarw (g : Bool)
  /-- R236. Arrive then wait at the cluster barrier. -/
  | cbar (g : Bool)
  /-- R236. Arrive then wait at the workgroup barrier. -/
  | wgbar (g : Bool)
  /-- R236. Arrive at the workgroup barrier. -/
  | wgbara (g : Bool)
  /-- R236. Wait at the workgroup barrier. -/
  | wgbarw (g : Bool)
  /-- R245. Open a transaction group, logged or under the Tabard. -/
  | txbegin (sc : BitVec 3) (fb : Bool) (off : BitVec 21)
  /-- R253. Commit the path's transaction lanes and route aborted lanes. -/
  | txend
  /-- R256. Explicitly abort active transaction lanes with a code. -/
  | txabort (code : BitVec 4) (g : Bool)
  /-- R257. Read per-lane transaction abort bits. -/
  | txstat (d : BitVec 6) (g : Bool)
  /-- R257. Read each lane's transaction cause and code. -/
  | txcause (d : BitVec 6) (g : Bool)
  /-- R282. Copy a tensor box from global memory into scratch. -/
  | cpld (a : BitVec 6) (b : BitVec 4) (g : Bool)
  /-- R282. Copy a box from scratch to global memory. -/
  | cpst (a : BitVec 6) (b : BitVec 4) (g : Bool)
  /-- R282. Reduce-add a box from scratch into global memory. -/
  | cpred (a : BitVec 6) (b : BitVec 4) (g : Bool)
  /-- R282. Gather rows by index list into scratch. -/
  | cpg (a : BitVec 6) (b : BitVec 4) (g : Bool)
  /-- R283. Collective copy of the workgroup's copying warps. -/
  | cpc (a : BitVec 6) (b : BitVec 4) (g : Bool)
  /-- R285. Convolution window copy by shape record. -/
  | cpw (a : BitVec 6) (b : BitVec 4) (g : Bool)
  /-- R290. Query a copy's state and bytes delivered. -/
  | cpq (d : BitVec 6) (a : BitVec 6) (g : Bool)
  /-- R290. Cancel an outstanding tracked copy. -/
  | cpcan (a : BitVec 6) (g : Bool)
  /-- R293. Configure a tile and zero it. -/
  | tcfg (d : BitVec 3) (a : BitVec 6) (g : Bool)
  /-- R294. Load a tile from scratch. -/
  | tld (d : BitVec 3) (a : BitVec 6) (b : BitVec 6) (g : Bool)
  /-- R294. Store a tile to scratch. -/
  | tst (d : BitVec 3) (a : BitVec 6) (b : BitVec 6) (g : Bool)
  /-- R296. Zero a tile's contents and scales. -/
  | tzero (d : BitVec 3) (g : Bool)
  /-- R296. Zero an accumulator and set its tag NONE. -/
  | azero (d : BitVec 2) (g : Bool)
  /-- R297. Matrix multiply-accumulate of two tiles into an accumulator. -/
  | mma (d : BitVec 2) (a : BitVec 3) (b : BitVec 3) (g : Bool)
  /-- R299. Leader half of a paired 128-row matrix product. -/
  | mmap (d : BitVec 2) (a : BitVec 3) (b : BitVec 3) (g : Bool)
  /-- R299. Follower half of a paired matrix product. -/
  | mmapF (d : BitVec 2) (a : BitVec 3) (b : BitVec 3) (g : Bool)
  /-- R298. Gathered and scattered matrix accumulate through an index tile. -/
  | mmag (d : BitVec 2) (a : BitVec 3) (b : BitVec 6) (g : Bool)
  /-- R301. Copy accumulator elements into vector registers. -/
  | tmovv (d : BitVec 6) (a : BitVec 2) (b : BitVec 6) (g : Bool)
  /-- R302. Convert an accumulator into a tile. -/
  | tcvt (d : BitVec 3) (a : BitVec 2) (g : Bool)
  /-- R295. Load a tile's block scales from scratch. -/
  | tlds (d : BitVec 3) (a : BitVec 6) (b : BitVec 6) (g : Bool)
  /-- R313. Emit vertices into meshlet slots. -/
  | msemitv (a : BitVec 6) (b : BitVec 6) (g : Bool)
  /-- R313. Emit triangles to the View Amplifier. -/
  | msemitp (a : BitVec 6) (b : BitVec 6) (g : Bool)
  /-- R312. Start a meshlet with a view mask, optionally closing geometry. -/
  | vamp (a : BitVec 6) (g : Bool)
  /-- R320. Read a latched gaze value or its frame. -/
  | gaze (d : BitVec 6) (a : BitVec 6) (g : Bool)
  /-- R318. Hand in a tile buffer and fetch a finished tile token. -/
  | rtfetch (d : BitVec 6) (a : BitVec 6) (g : Bool)
  /-- R334. Sample a texture with derivative LOD. -/
  | tex (d : BitVec 6) (a : BitVec 6) (b : BitVec 6) (g : Bool)
  /-- R334. Sample a texture at an explicit LOD. -/
  | texl (d : BitVec 6) (a : BitVec 6) (b : BitVec 6) (g : Bool)
  /-- R334. Gather four texels of one channel. -/
  | texg (d : BitVec 6) (a : BitVec 6) (b : BitVec 6) (g : Bool)
  /-- R334. Fetch a texel by integer coordinates. -/
  | texf (d : BitVec 6) (a : BitVec 6) (b : BitVec 6) (g : Bool)
  /-- R334. Query texture level size and residency. -/
  | texq (d : BitVec 6) (a : BitVec 6) (b : BitVec 6) (g : Bool)
  /-- R328. Launch one ray per active lane as a batch. -/
  | rayl (d : BitVec 6) (a : BitVec 6) (b : BitVec 6) (g : Bool)
  /-- R328. Launch 1,024 rays from a warped launch record. -/
  | raylw (d : BitVec 6) (a : BitVec 6) (b : BitVec 6) (g : Bool)
  /-- R330. Read ray results of a batch chunk. -/
  | rayr (d : BitVec 6) (a : BitVec 6) (g : Bool)
  /-- R319. Hand a finished tile's pixels to the VTB. -/
  | vtdone (d : BitVec 6) (a : BitVec 6) (g : Bool)
  /-- R347. Read a CSR. -/
  | csrr (d : BitVec 6) (csr : BitVec 12)
  /-- R347. Write a CSR. -/
  | csrw (d : BitVec 6) (csr : BitVec 12)
  /-- R347. Set CSR bits. -/
  | csrs (d : BitVec 6) (csr : BitVec 12)
  /-- R347. Clear CSR bits. -/
  | csrc (d : BitVec 6) (csr : BitVec 12)
  /-- R344. Raise USER_TRAP with a code. -/
  | trap (imm : BitVec 16)
  /-- R344. Raise BREAKPOINT with a code. -/
  | brk (imm : BitVec 16)
  /-- R343. Return from a trap handler to the trapped path. -/
  | rett
  /-- R348. Step aside for one cycle if another warp is eligible. -/
  | yield (g : Bool)
  /-- R348. Block until woken or a timeout, unless the wake bit is set. -/
  | sleep (a : BitVec 6) (g : Bool)
  /-- R348. Set the wake bit of a warp of the workgroup. -/
  | wake (a : BitVec 6) (g : Bool)
  /-- R63. Append a child launch packet to a device queue. -/
  | dlaunch (d : BitVec 6) (a : BitVec 6) (b : BitVec 6) (g : Bool)
  /-- R64. Wait for a child kernel and read its status. -/
  | djoin (d : BitVec 6) (a : BitVec 6) (g : Bool)
  /-- R365. Write a marker record and feed the trigger. -/
  | pmark (imm : BitVec 16)
  /-- R349. Wait for FSE work so records and spilled blocks are current. -/
  | framesync
  /-- R339. A raised trap enters the next trap level once the FSE allows. -/
  | trapEntry (wid : Nat)
  /-- R47. The Frame Spill Engine writes a register block to the frame stack. -/
  | fseSpill (wid blk : Nat)
  /-- R47. The Frame Spill Engine reads a block back into the ring. -/
  | fseFill (wid blk : Nat)
  /-- R41. A stacked path reaching AGELIM swaps into a slot. -/
  | ageingSwap (wid : Nat)
  /-- R38. A WAITING path reaching AGELIM pops its RSTK and runs. -/
  | ageRelease (wid : Nat) (slotB : Bool)
  /-- R44. A parked path reaching AGELIM unparks and the other slot's path is parked. -/
  | parkedAgeSwap (wid : Nat)
  /-- R348. A sleeping warp's timeout elapses and it resumes. -/
  | sleepTimeout (wid : Nat)
  /-- R203. A load, store, atomic, texture or ray read completes, writing registers and lowering the counter in order. -/
  | memoryOpComplete (wid seq : Nat) (lanes : BitVec 32)
  /-- R269. The Matrix Array performs its next queued operation and lowers TL on completion. -/
  | mxaOperation (core : Nat)
  /-- R287. The copy engine checks and performs one box row, subtracting bytes at the barrier. -/
  | copyRow (copy : Nat)
  /-- R239. A copy's range-lock entries are released the cycle after it ends. -/
  | rangeLockRelease (copy : Nat)
  /-- R259. A pending Tabard request is granted in arrival order. -/
  | tabardGrant (dom : Nat)
  /-- R314. The View Amplifier projects, clips and bins a queued primitive per view. -/
  | vamPrimitive (cluster : Nat)
  /-- R317. The Warped Rasteriser finishes a tile into its buffer. -/
  | wrsTileFinished (cluster : Nat)
  /-- R327. The Ray Traversal Unit finishes a batch's traversals. -/
  | rayTraversalComplete (wid batch : Nat)
  /-- R306. A strip window opens: gaze latched, grids derived, tiles dealt. -/
  | stripWindowOpen (out : Nat)
  /-- R321. Tiles not DONE are substituted and lens correction begins. -/
  | stripDeadline (out : Nat)
  /-- R306. The strip's first active line leaves the connector. -/
  | stripOutput (out : Nat)
  /-- R306. A further line of the strip begins at its line period. -/
  | displayLineStart (out : Nat)
  /-- R303. A DisplayPort sink is attached or removed. -/
  | dpHotPlug (out : Nat) (attached : Bool)
  /-- R305. Setting a view's EN clears its counters and starts its geometry frame. -/
  | viewEnable (view : Nat) (value : BitVec 64)
  /-- R307. Clearing a view's EN withdraws all its tiles. -/
  | viewDisable (view : Nat) (value : BitVec 64)
  /-- R306. Setting an output's EN checks it and starts its frames at F0. -/
  | outputEnable (out : Nat) (value : BitVec 64)
  /-- R307. Clearing an output's EN withdraws its tiles and stops it. -/
  | outputDisable (out : Nat) (value : BitVec 64)
  /-- R362. Every N cycles each scheduler writes one sample record. -/
  | sampleTick (cluster : Nat)
  /-- R361. Writing ARM arms the trace trigger and clears ON and DONE. -/
  | trigstatArm (cluster : Nat) (value : BitVec 64)
  /-- R371. Register a context from its descriptor. -/
  | register (ctx : BitVec 24)
  /-- R371. Unregister an idle context. -/
  | unregister (ctx : BitVec 24)
  /-- R371. Invalidate translations on both dies once in-flight accesses are performed. -/
  | tlbinv (ctx : BitVec 24)
  /-- R371. Replay doorbell: parked warps reissue and held copies and reads resume. -/
  | replay (ctx : BitVec 24)
  /-- R380. Request pre-emption of a context's resident kernels. -/
  | preempt (ctx : BitVec 24)
  /-- R380. Place saved images and resume the context's dispatch. -/
  | resume (ctx : BitVec 24)
  /-- R371. Kill a context with reason 3 and disable its queues. -/
  | kill (ctx : BitVec 24)
  /-- R386. Start a gang slice with a gang timeout. -/
  | gstart (ctx : BitVec 24)
  /-- R351. The stop cycle arrives on a core and the drain begins. -/
  | preemptionStop (core : Nat) (ctx : BitVec 24)
  /-- R353. After the drain the image and a pre-empted event record are written. -/
  | contextImageWrite (ctx : BitVec 24)
  /-- R372. Host writes a queue tail, making packets visible. -/
  | qtailWrite (queue : Nat) (tail : BitVec 64)
  /-- R358. Writing HALT dispatches the halted packet without rematching. -/
  | dbpstatHaltClear (die : Nat)
  /-- R367. Host write to a register with no behaviour of its own. -/
  | registerWrite (off : Nat) (value : BitVec 64)
  /-- R375. A dispatcher chooses a ready head and places its next workgroup or launch. -/
  | dispatchStep (die : Nat) (cores : List Nat)
  /-- R374. A not-ready head is examined again at least every 1 µs. -/
  | headReadinessCheck (die queue : Nat)
  /-- R378. The dispatcher increments a completed kernel's DONE_SIG. -/
  | doneSigIncrement (kernel : Nat)
  /-- R188. A batch reaching 32 records is written to the host fault ring. -/
  | faultBatchFull (die : Nat) (ctx : BitVec 24)
  /-- R188. A batch 4 µs after its first record is written to the host fault ring. -/
  | faultBatchTimeout (die : Nat) (ctx : BitVec 24)
  /-- R369. A record held for a full ring is written once CONS frees a slot. -/
  | heldRecordWrite (ctx : BitVec 24) (ring : Nat)
  /-- R386. A device starts accepting the gang's fabric traffic. -/
  | gangAccept (ctx : BitVec 24)
  /-- R386. GANG_TIMEOUT expires: abort flit flooded and the gang pre-empted. -/
  | gangTimeout (ctx : BitVec 24)
  /-- R386. A received gang-abort flit pre-empts the gang's context. -/
  | gangAbort (gang : BitVec 16)
  /-- R385. A fabric access arrives at its target and is performed or refused. -/
  | fabricAccess (gang : BitVec 16) (op : FabricOp) (pa size : Nat) (x : BitVec 64)
  /-- R384. A Lasia port fails training and traffic reroutes. -/
  | lasiaPortFail (port : Nat)
  /-- R366. A host CXL.mem access to device memory resolved at the home slice. -/
  | hostMemoryAccess (write : Bool) (pa size : Nat) (value : BitVec 64)
  /-- R200. A corrected ECC error increments the error log. -/
  | correctedError (cluster : Nat)
  /-- R202. An uncorrectable error marks data poisoned. -/
  | uncorrectableError (cluster : Nat) (place : Nat) (fetch : Bool)
  /-- R388. A second-tier expander fails and returns poison. -/
  | expanderFailure (port : Nat)
  /-- R392. Every 10 µs the management controller runs its throttling loops. -/
  | mcLoopTick (thermal : BitVec 32) (current slew : Bool) (power : Nat) (reliability : BitVec 32)
  /-- R393. Every 100 ms the Yarrow replicas are read and GUARD may rise. -/
  | yarrowReading (delays : List Nat) (reading : Reading)
  /-- R394. Device reset: firmware check, pair retirement and renumbering. -/
  | deviceReset (failed : BitVec 128) (expanders : List Nat)
  /-- R396. Host writes a firmware image to the mailbox to be verified and flashed. -/
  | firmwareRecovery (image : Recovery)
  /-- R397. SPDM GET_VERSION request. -/
  | getVersion
  /-- R397. SPDM GET_CAPABILITIES request. -/
  | getCapabilities
  /-- R397. SPDM NEGOTIATE_ALGORITHMS request. -/
  | negotiateAlgorithms
  /-- R397. SPDM GET_DIGESTS request. -/
  | getDigests
  /-- R397. SPDM GET_CERTIFICATE request. -/
  | getCertificate (slot : Nat)
  /-- R397. SPDM CHALLENGE request signed with the device key. -/
  | challenge (nonce : BitVec 256)
  /-- R397. SPDM GET_MEASUREMENTS request returning SHA-256 digests. -/
  | getMeasurements (index : Nat)
  /-- R363. A trace trigger of KIND 4 starts or stops tracing in the cycle in which the cluster's CYCLE reaches VALUE. -/
  | triggerCycleReached (cluster : Nat)
  /-- R306. A DisplayPort link finishes training, or a trained link is lost, and STAT.LINK changes; a newly trained link begins sending at the next O(f, 0). -/
  | linkTrainingDone (out : Nat) (up : Bool)
  /-- R384. A Lasia port that was down completes training, and traffic returns to it. -/
  | lasiaPortTrained (port : Nat)
  /-- R368. A host write to CMD with a code that no command defines ends with CMDSTAT STATUS 4. -/
  | cmdUnknownCode (value : BitVec 64)
deriving DecidableEq, Repr

/-- Whether a constructor is an event of another agent: such a row has no instruction word. -/
def Instr.isEvent : Instr → Bool
  | .trapEntry _ => true
  | .fseSpill _ _ => true
  | .fseFill _ _ => true
  | .ageingSwap _ => true
  | .ageRelease _ _ => true
  | .parkedAgeSwap _ => true
  | .sleepTimeout _ => true
  | .memoryOpComplete _ _ _ => true
  | .mxaOperation _ => true
  | .copyRow _ => true
  | .rangeLockRelease _ => true
  | .tabardGrant _ => true
  | .vamPrimitive _ => true
  | .wrsTileFinished _ => true
  | .rayTraversalComplete _ _ => true
  | .stripWindowOpen _ => true
  | .stripDeadline _ => true
  | .stripOutput _ => true
  | .displayLineStart _ => true
  | .dpHotPlug _ _ => true
  | .viewEnable _ _ => true
  | .viewDisable _ _ => true
  | .outputEnable _ _ => true
  | .outputDisable _ _ => true
  | .sampleTick _ => true
  | .trigstatArm _ _ => true
  | .register _ => true
  | .unregister _ => true
  | .tlbinv _ => true
  | .replay _ => true
  | .preempt _ => true
  | .resume _ => true
  | .kill _ => true
  | .gstart _ => true
  | .preemptionStop _ _ => true
  | .contextImageWrite _ => true
  | .qtailWrite _ _ => true
  | .dbpstatHaltClear _ => true
  | .registerWrite _ _ => true
  | .dispatchStep _ _ => true
  | .headReadinessCheck _ _ => true
  | .doneSigIncrement _ => true
  | .faultBatchFull _ _ => true
  | .faultBatchTimeout _ _ => true
  | .heldRecordWrite _ _ => true
  | .gangAccept _ => true
  | .gangTimeout _ => true
  | .gangAbort _ => true
  | .fabricAccess _ _ _ _ _ => true
  | .lasiaPortFail _ => true
  | .hostMemoryAccess _ _ _ _ => true
  | .correctedError _ => true
  | .uncorrectableError _ _ _ => true
  | .expanderFailure _ => true
  | .mcLoopTick _ _ _ _ _ => true
  | .yarrowReading _ _ => true
  | .deviceReset _ _ => true
  | .firmwareRecovery _ => true
  | .getVersion => true
  | .getCapabilities => true
  | .negotiateAlgorithms => true
  | .getDigests => true
  | .getCertificate _ => true
  | .challenge _ => true
  | .getMeasurements _ => true
  | .triggerCycleReached _ => true
  | .linkTrainingDone _ _ => true
  | .lasiaPortTrained _ => true
  | .cmdUnknownCode _ => true
  | _ => false

end Sys2Proof
end

