-- ==== Sys2Proof/WellFormed.lean ====
section
/-! DEFINITION. The limits that an instruction's fields keep and that its word alone decides (R73, R78, R85, R87,
R91-R98). Limits that depend on the issuing path's state are checked at issue (Machine/Ops.lean). -/

namespace Sys2Proof

/-- Which limit of R87 a field breaks. -/
inductive WfError where
  /-- A scope code outside R85. -/
  | scope
  /-- An ordering code outside R85. -/
  | order
  /-- An AOP that R93 does not assign to the opcode. -/
  | aop
  /-- A register count outside R92. -/
  | count
  /-- A range of registers that passes v63 (R78). -/
  | range
  /-- RCD 0 in BRC, or a zero literal in BRCL (R73). -/
  | reconvergence
  /-- F of ENTER outside 1 to 8 (R91). -/
  | frame
  /-- A CSR number that the CSR map does not list (R347). -/
  | csr
  /-- A register that must be even is odd (R318, R319). -/
  | odd
deriving DecidableEq, Repr

/-- The CSR numbers that R350 lists. -/
def csrListed (n : Nat) : Bool :=
  n ≤ 0x01C || (0x100 ≤ n && n ≤ 0x105) || (0x110 ≤ n && n ≤ 0x114) || (0x120 ≤ n && n ≤ 0x124) ||
    (0x200 ≤ n && n ≤ 0x20A) || (0x300 ≤ n && n ≤ 0x31F)

/-- Scope and ordering of a format-M instruction: scope at most `scMax`, and OR 0 or `o` (R85). -/
def checkMem (sc : BitVec 3) (ord : BitVec 2) (scMax : Nat) (o : BitVec 2) : Option WfError :=
  if scMax < sc.toNat then some .scope
  else if ord = 0 ∨ ord = o then none else some .order

/-- Scope and AOP of a format-Q instruction (R85, R93). -/
def checkAtom (sc : BitVec 3) (aop : BitVec 4) (scMax : Nat) : Option WfError :=
  if scMax < sc.toNat then some .scope
  else if 12 < aop.toNat then some .aop else none

/-- A count of `lo` to 16 registers from register `r` (R78, R92). -/
def checkRange (r n : BitVec 6) (lo : Nat) : Option WfError :=
  if n.toNat < lo ∨ 16 < n.toNat then some .count
  else if 64 < r.toNat + n.toNat then some .range else none

/-- The first limit that a constructor's fields break, or none where it is well formed. -/
def Instr.check : Instr → Option WfError
  | .ld _ _ _ sc o _ _ | .ldu _ _ _ sc o _ _ => checkMem sc o 6 1#2
  | .st _ _ _ sc o _ _ | .stu _ _ _ sc o _ _ => checkMem sc o 6 2#2
  | .ldh _ _ _ sc o _ _ => checkMem sc o 3 1#2
  | .sth _ _ _ sc o _ _ => checkMem sc o 3 2#2
  | .atom _ _ _ aop sc | .atoma _ _ _ aop sc => checkAtom sc aop 6
  | .atomh _ _ _ aop sc => checkAtom sc aop 3
  | .red _ _ aop sc => if aop = 8 ∨ aop = 9 then some .aop else checkAtom sc aop 6
  | .txbegin sc _ _ => if 5 < sc.toNat then some .scope else none
  | .fence sc _ => if 6 < sc.toNat then some .scope else none
  | .icinv n _ => if 3 ≤ n.toNat ∧ n.toNat ≤ 6 then none else some .scope
  | .xsend _ a n _ => checkRange a n 1
  | .xrecv d _ n _ => checkRange d n 1
  | .regroup d _ n _ => checkRange d n 0
  | .brc _ _ _ rcd => if rcd = 0 then some .reconvergence else none
  | .brcl _ _ _ lit => if lit = 0 then some .reconvergence else none
  | .enter f => if 1 ≤ f.toNat ∧ f.toNat ≤ 8 then none else some .frame
  | .csrr _ c | .csrw _ c | .csrs _ c | .csrc _ c => if csrListed c.toNat then none else some .csr
  | .rtfetch d _ _ => if d.toNat % 2 = 0 then none else some .odd
  | .vtdone _ a _ => if a.toNat % 2 = 0 then none else some .odd
  | _ => none

/-- A well-formed instruction: every field is within the limits that its word alone decides. -/
def Instr.WF (i : Instr) : Prop := i.check = none

end Sys2Proof
end

