-- ==== Sys2Proof/Decode.lean ====
section
/-! DEFINITION. The decoder (R67-R98), total on any bytes and rejecting by name, and after it the encoder,
written from the same formats (R72). A literal-bearing instruction takes two words (R68). -/

namespace Sys2Proof

/-- Why a word is not an instruction (R87). -/
inductive DecodeError where
  /-- Fewer bytes than the instruction occupies. -/
  | short
  /-- An OP that the opcode map leaves unassigned. -/
  | unassignedOp
  /-- An FN that the opcode map leaves unassigned for this OP. -/
  | unassignedFn
  /-- A reserved bit or field, or the unused upper bits of a register field, are not zero. -/
  | reserved
  /-- A field value outside its limits. -/
  | illFormed (e : WfError)
deriving DecidableEq, Repr

/-- Field of `len` bits of a word, from bit `lo` up. -/
abbrev fld (w : W32) (lo len : Nat) : BitVec len := w.extractLsb' lo len

/-- A one-bit field. -/
abbrev flag (w : W32) (i : Nat) : Bool := fld w i 1 == 1#1

/-- A field of one bit, as bits. -/
abbrev bit (b : Bool) : BitVec 1 := BitVec.ofBool b

/-- OP 0x00: NOP. -/
def decOp00 (w : W32) : Except DecodeError Instr :=
  if fld w 0 25 == 0 then .ok (.nop) else .error .reserved

/-- OP 0x01: SADD, SSUB, SMUL, SMULH, SAND, SOR .... -/
def decOp01 (w : W32) : Except DecodeError Instr :=
  match (fld w 3 4).toNat with
  | 0 => if fld w 0 1 == 0 then .ok (.sadd (fld w 19 6) (fld w 13 6) (fld w 7 6) (flag w 2) (flag w 1)) else .error .reserved
  | 1 => if fld w 0 1 == 0 then .ok (.ssub (fld w 19 6) (fld w 13 6) (fld w 7 6) (flag w 2) (flag w 1)) else .error .reserved
  | 2 => if fld w 0 1 == 0 then .ok (.smul (fld w 19 6) (fld w 13 6) (fld w 7 6) (flag w 2) (flag w 1)) else .error .reserved
  | 3 => if fld w 0 1 == 0 then .ok (.smulh (fld w 19 6) (fld w 13 6) (fld w 7 6) (flag w 2) (flag w 1)) else .error .reserved
  | 4 => if fld w 0 1 == 0 then .ok (.sand (fld w 19 6) (fld w 13 6) (fld w 7 6) (flag w 2) (flag w 1)) else .error .reserved
  | 5 => if fld w 0 1 == 0 then .ok (.sor (fld w 19 6) (fld w 13 6) (fld w 7 6) (flag w 2) (flag w 1)) else .error .reserved
  | 6 => if fld w 0 1 == 0 then .ok (.sxor (fld w 19 6) (fld w 13 6) (fld w 7 6) (flag w 2) (flag w 1)) else .error .reserved
  | 7 => if fld w 0 1 == 0 then .ok (.sshl (fld w 19 6) (fld w 13 6) (fld w 7 6) (flag w 2) (flag w 1)) else .error .reserved
  | 8 => if fld w 0 1 == 0 then .ok (.sshr (fld w 19 6) (fld w 13 6) (fld w 7 6) (flag w 2) (flag w 1)) else .error .reserved
  | 9 => if fld w 0 1 == 0 then .ok (.ssar (fld w 19 6) (fld w 13 6) (fld w 7 6) (flag w 2) (flag w 1)) else .error .reserved
  | 10 => if fld w 0 1 == 0 then .ok (.smin (fld w 19 6) (fld w 13 6) (fld w 7 6) (flag w 2) (flag w 1)) else .error .reserved
  | 11 => if fld w 0 1 == 0 then .ok (.smax (fld w 19 6) (fld w 13 6) (fld w 7 6) (flag w 2) (flag w 1)) else .error .reserved
  | 12 => if fld w 0 1 == 0 then .ok (.sminu (fld w 19 6) (fld w 13 6) (fld w 7 6) (flag w 2) (flag w 1)) else .error .reserved
  | 13 => if fld w 0 1 == 0 then .ok (.smaxu (fld w 19 6) (fld w 13 6) (fld w 7 6) (flag w 2) (flag w 1)) else .error .reserved
  | 14 => if fld w 7 6 == 0 && fld w 0 1 == 0 then .ok (.sclz (fld w 19 6) (fld w 13 6) (flag w 2) (flag w 1)) else .error .reserved
  | 15 => if fld w 7 6 == 0 && fld w 0 1 == 0 then .ok (.spop (fld w 19 6) (fld w 13 6) (flag w 2) (flag w 1)) else .error .reserved
  | _ => .error .unassignedFn

/-- OP 0x02: SADDI. -/
def decOp02 (w : W32) : Except DecodeError Instr :=
  .ok (.saddi (fld w 19 6) (fld w 13 6) (fld w 1 12) (flag w 0))

/-- OP 0x03: SCMPEQ, SCMPNE, SCMPLT, SCMPLE, SCMPLTU, SCMPLEU .... -/
def decOp03 (w : W32) : Except DecodeError Instr :=
  match (fld w 3 4).toNat with
  | 0 => if fld w 22 3 == 0 && fld w 0 1 == 0 then .ok (.scmpeq (fld w 19 3) (fld w 13 6) (fld w 7 6) (flag w 2) (flag w 1)) else .error .reserved
  | 1 => if fld w 22 3 == 0 && fld w 0 1 == 0 then .ok (.scmpne (fld w 19 3) (fld w 13 6) (fld w 7 6) (flag w 2) (flag w 1)) else .error .reserved
  | 2 => if fld w 22 3 == 0 && fld w 0 1 == 0 then .ok (.scmplt (fld w 19 3) (fld w 13 6) (fld w 7 6) (flag w 2) (flag w 1)) else .error .reserved
  | 3 => if fld w 22 3 == 0 && fld w 0 1 == 0 then .ok (.scmple (fld w 19 3) (fld w 13 6) (fld w 7 6) (flag w 2) (flag w 1)) else .error .reserved
  | 4 => if fld w 22 3 == 0 && fld w 0 1 == 0 then .ok (.scmpltu (fld w 19 3) (fld w 13 6) (fld w 7 6) (flag w 2) (flag w 1)) else .error .reserved
  | 5 => if fld w 22 3 == 0 && fld w 0 1 == 0 then .ok (.scmpleu (fld w 19 3) (fld w 13 6) (fld w 7 6) (flag w 2) (flag w 1)) else .error .reserved
  | 6 => if fld w 22 3 == 0 && fld w 0 1 == 0 then .ok (.scmpgt (fld w 19 3) (fld w 13 6) (fld w 7 6) (flag w 2) (flag w 1)) else .error .reserved
  | 7 => if fld w 22 3 == 0 && fld w 0 1 == 0 then .ok (.scmpge (fld w 19 3) (fld w 13 6) (fld w 7 6) (flag w 2) (flag w 1)) else .error .reserved
  | 8 => if fld w 22 3 == 0 && fld w 0 1 == 0 then .ok (.scmpgtu (fld w 19 3) (fld w 13 6) (fld w 7 6) (flag w 2) (flag w 1)) else .error .reserved
  | 9 => if fld w 22 3 == 0 && fld w 0 1 == 0 then .ok (.scmpgeu (fld w 19 3) (fld w 13 6) (fld w 7 6) (flag w 2) (flag w 1)) else .error .reserved
  | _ => .error .unassignedFn

/-- OP 0x04: SMOVI, SINS16, SINS32, SINS48. -/
def decOp04 (w : W32) : Except DecodeError Instr :=
  match (fld w 16 3).toNat with
  | 0 => .ok (.smovi (fld w 19 6) (fld w 0 16))
  | 1 => .ok (.sins16 (fld w 19 6) (fld w 0 16))
  | 2 => .ok (.sins32 (fld w 19 6) (fld w 0 16))
  | 3 => .ok (.sins48 (fld w 19 6) (fld w 0 16))
  | _ => .error .unassignedFn

/-- OP 0x05: SMOVL, SMOVLZ, SMOVLH. -/
def decOp05 (w : W32) (lit : W32) : Except DecodeError Instr :=
  match (fld w 16 3).toNat with
  | 0 => if fld w 1 15 == 0 then .ok (.smovl (fld w 19 6) (flag w 0) lit) else .error .reserved
  | 1 => if fld w 1 15 == 0 then .ok (.smovlz (fld w 19 6) (flag w 0) lit) else .error .reserved
  | 2 => if fld w 1 15 == 0 then .ok (.smovlh (fld w 19 6) (flag w 0) lit) else .error .reserved
  | _ => .error .unassignedFn

/-- OP 0x06: SSEL. -/
def decOp06 (w : W32) : Except DecodeError Instr :=
  .ok (.ssel (fld w 19 6) (fld w 13 6) (fld w 7 6) (fld w 1 6) (flag w 0))

/-- OP 0x07: SDIV, SDIVU, SREM, SREMU. -/
def decOp07 (w : W32) : Except DecodeError Instr :=
  match (fld w 3 4).toNat with
  | 0 => if fld w 0 1 == 0 then .ok (.sdiv (fld w 19 6) (fld w 13 6) (fld w 7 6) (flag w 2) (flag w 1)) else .error .reserved
  | 1 => if fld w 0 1 == 0 then .ok (.sdivu (fld w 19 6) (fld w 13 6) (fld w 7 6) (flag w 2) (flag w 1)) else .error .reserved
  | 2 => if fld w 0 1 == 0 then .ok (.srem (fld w 19 6) (fld w 13 6) (fld w 7 6) (flag w 2) (flag w 1)) else .error .reserved
  | 3 => if fld w 0 1 == 0 then .ok (.sremu (fld w 19 6) (fld w 13 6) (fld w 7 6) (flag w 2) (flag w 1)) else .error .reserved
  | _ => .error .unassignedFn

/-- OP 0x08: PAND, POR, PXOR, PANDN, PNOT, PMOV .... -/
def decOp08 (w : W32) : Except DecodeError Instr :=
  match (fld w 3 4).toNat with
  | 0 => if fld w 22 3 == 0 && fld w 16 3 == 0 && fld w 10 3 == 0 && fld w 0 2 == 0 then .ok (.pand (fld w 19 3) (fld w 13 3) (fld w 7 3) (flag w 2)) else .error .reserved
  | 1 => if fld w 22 3 == 0 && fld w 16 3 == 0 && fld w 10 3 == 0 && fld w 0 2 == 0 then .ok (.por (fld w 19 3) (fld w 13 3) (fld w 7 3) (flag w 2)) else .error .reserved
  | 2 => if fld w 22 3 == 0 && fld w 16 3 == 0 && fld w 10 3 == 0 && fld w 0 2 == 0 then .ok (.pxor (fld w 19 3) (fld w 13 3) (fld w 7 3) (flag w 2)) else .error .reserved
  | 3 => if fld w 22 3 == 0 && fld w 16 3 == 0 && fld w 10 3 == 0 && fld w 0 2 == 0 then .ok (.pandn (fld w 19 3) (fld w 13 3) (fld w 7 3) (flag w 2)) else .error .reserved
  | 4 => if fld w 22 3 == 0 && fld w 16 3 == 0 && fld w 7 6 == 0 && fld w 0 2 == 0 then .ok (.pnot (fld w 19 3) (fld w 13 3) (flag w 2)) else .error .reserved
  | 5 => if fld w 22 3 == 0 && fld w 16 3 == 0 && fld w 7 6 == 0 && fld w 0 2 == 0 then .ok (.pmov (fld w 19 3) (fld w 13 3) (flag w 2)) else .error .reserved
  | 6 => if fld w 22 3 == 0 && fld w 7 12 == 0 && fld w 0 2 == 0 then .ok (.pset (fld w 19 3) (flag w 2)) else .error .reserved
  | 7 => if fld w 22 3 == 0 && fld w 7 12 == 0 && fld w 0 2 == 0 then .ok (.pclr (fld w 19 3) (flag w 2)) else .error .reserved
  | _ => .error .unassignedFn

/-- OP 0x09: PANY, PALL, PPOP, PTOS, STOP. -/
def decOp09 (w : W32) : Except DecodeError Instr :=
  match (fld w 3 4).toNat with
  | 0 => if fld w 16 3 == 0 && fld w 7 6 == 0 && fld w 0 2 == 0 then .ok (.pany (fld w 19 6) (fld w 13 3) (flag w 2)) else .error .reserved
  | 1 => if fld w 16 3 == 0 && fld w 7 6 == 0 && fld w 0 2 == 0 then .ok (.pall (fld w 19 6) (fld w 13 3) (flag w 2)) else .error .reserved
  | 2 => if fld w 16 3 == 0 && fld w 7 6 == 0 && fld w 0 2 == 0 then .ok (.ppop (fld w 19 6) (fld w 13 3) (flag w 2)) else .error .reserved
  | 3 => if fld w 16 3 == 0 && fld w 7 6 == 0 && fld w 0 2 == 0 then .ok (.ptos (fld w 19 6) (fld w 13 3) (flag w 2)) else .error .reserved
  | 4 => if fld w 22 3 == 0 && fld w 7 6 == 0 && fld w 0 2 == 0 then .ok (.stop (fld w 19 3) (fld w 13 6) (flag w 2)) else .error .reserved
  | _ => .error .unassignedFn

/-- OP 0x0A: BR. -/
def decOp0A (w : W32) : Except DecodeError Instr :=
  if fld w 22 3 == 0 then .ok (.br (fld w 0 22)) else .error .reserved

/-- OP 0x0B: BRS. -/
def decOp0B (w : W32) : Except DecodeError Instr :=
  .ok (.brs (fld w 19 6) (flag w 18) (fld w 0 18))

/-- OP 0x0C: BRC. -/
def decOp0C (w : W32) : Except DecodeError Instr :=
  .ok (.brc (fld w 22 3) (flag w 21) (fld w 8 13) (fld w 0 8))

/-- OP 0x0D: BRCL. -/
def decOp0D (w : W32) (lit : W32) : Except DecodeError Instr :=
  if fld w 0 8 == 0 then .ok (.brcl (fld w 22 3) (flag w 21) (fld w 8 13) lit) else .error .reserved

/-- OP 0x0E: CALL. -/
def decOp0E (w : W32) : Except DecodeError Instr :=
  .ok (.call (fld w 22 3) (fld w 0 22))

/-- OP 0x0F: CALLR. -/
def decOp0F (w : W32) : Except DecodeError Instr :=
  if fld w 19 6 == 0 && fld w 6 7 == 0 && fld w 0 3 == 0 then .ok (.callr (fld w 13 6) (fld w 3 3)) else .error .reserved

/-- OP 0x10: RET. -/
def decOp10 (w : W32) : Except DecodeError Instr :=
  if fld w 0 25 == 0 then .ok (.ret) else .error .reserved

/-- OP 0x11: ENTER. -/
def decOp11 (w : W32) : Except DecodeError Instr :=
  if fld w 4 21 == 0 then .ok (.enter (fld w 0 4)) else .error .reserved

/-- OP 0x12: LOOP. -/
def decOp12 (w : W32) : Except DecodeError Instr :=
  if fld w 0 1 == 0 then .ok (.loop (fld w 17 8) (fld w 1 16)) else .error .reserved

/-- OP 0x13: LOOPR. -/
def decOp13 (w : W32) : Except DecodeError Instr :=
  if fld w 7 10 == 0 && fld w 0 1 == 0 then .ok (.loopr (fld w 17 8) (fld w 1 6)) else .error .reserved

/-- OP 0x14: LBRK. -/
def decOp14 (w : W32) : Except DecodeError Instr :=
  if fld w 0 25 == 0 then .ok (.lbrk) else .error .reserved

/-- OP 0x15: EXIT. -/
def decOp15 (w : W32) : Except DecodeError Instr :=
  if fld w 1 24 == 0 then .ok (.exit (flag w 0)) else .error .reserved

/-- OP 0x16: SETMG, SETMT, SETMR, SETM. -/
def decOp16 (w : W32) : Except DecodeError Instr :=
  match (fld w 16 3).toNat with
  | 0 => if fld w 19 6 == 0 && fld w 4 12 == 0 then .ok (.setmg (fld w 0 4)) else .error .reserved
  | 1 => if fld w 19 6 == 0 && fld w 10 6 == 0 then .ok (.setmt (fld w 0 10)) else .error .reserved
  | 2 => if fld w 19 6 == 0 && fld w 7 9 == 0 then .ok (.setmr (fld w 0 7)) else .error .reserved
  | 3 => if fld w 0 16 == 0 then .ok (.setm (fld w 19 6)) else .error .reserved
  | _ => .error .unassignedFn

/-- OP 0x17: GETM. -/
def decOp17 (w : W32) : Except DecodeError Instr :=
  if fld w 0 19 == 0 then .ok (.getm (fld w 19 6)) else .error .reserved

/-- OP 0x20: VADD, VSUB, VMUL, VMULH, VMULHU, VMIN .... -/
def decOp20 (w : W32) : Except DecodeError Instr :=
  match (fld w 3 4).toNat with
  | 0 => if fld w 0 1 == 0 then .ok (.vadd (fld w 19 6) (fld w 13 6) (fld w 7 6) (flag w 2) (flag w 1)) else .error .reserved
  | 1 => if fld w 0 1 == 0 then .ok (.vsub (fld w 19 6) (fld w 13 6) (fld w 7 6) (flag w 2) (flag w 1)) else .error .reserved
  | 2 => if fld w 0 1 == 0 then .ok (.vmul (fld w 19 6) (fld w 13 6) (fld w 7 6) (flag w 2) (flag w 1)) else .error .reserved
  | 3 => if fld w 0 1 == 0 then .ok (.vmulh (fld w 19 6) (fld w 13 6) (fld w 7 6) (flag w 2) (flag w 1)) else .error .reserved
  | 4 => if fld w 0 1 == 0 then .ok (.vmulhu (fld w 19 6) (fld w 13 6) (fld w 7 6) (flag w 2) (flag w 1)) else .error .reserved
  | 5 => if fld w 0 1 == 0 then .ok (.vmin (fld w 19 6) (fld w 13 6) (fld w 7 6) (flag w 2) (flag w 1)) else .error .reserved
  | 6 => if fld w 0 1 == 0 then .ok (.vmax (fld w 19 6) (fld w 13 6) (fld w 7 6) (flag w 2) (flag w 1)) else .error .reserved
  | 7 => if fld w 7 6 == 0 && fld w 0 1 == 0 then .ok (.vabs (fld w 19 6) (fld w 13 6) (flag w 2) (flag w 1)) else .error .reserved
  | 8 => if fld w 7 6 == 0 && fld w 0 1 == 0 then .ok (.vneg (fld w 19 6) (fld w 13 6) (flag w 2) (flag w 1)) else .error .reserved
  | 9 => if fld w 0 1 == 0 then .ok (.vabsdiff (fld w 19 6) (fld w 13 6) (fld w 7 6) (flag w 2) (flag w 1)) else .error .reserved
  | 10 => if fld w 0 1 == 0 then .ok (.vavg (fld w 19 6) (fld w 13 6) (fld w 7 6) (flag w 2) (flag w 1)) else .error .reserved
  | _ => .error .unassignedFn

/-- OP 0x21: VAND, VOR, VXOR, VANDN, VNOT, VSHL .... -/
def decOp21 (w : W32) : Except DecodeError Instr :=
  match (fld w 3 4).toNat with
  | 0 => if fld w 0 1 == 0 then .ok (.vand (fld w 19 6) (fld w 13 6) (fld w 7 6) (flag w 2) (flag w 1)) else .error .reserved
  | 1 => if fld w 0 1 == 0 then .ok (.vor (fld w 19 6) (fld w 13 6) (fld w 7 6) (flag w 2) (flag w 1)) else .error .reserved
  | 2 => if fld w 0 1 == 0 then .ok (.vxor (fld w 19 6) (fld w 13 6) (fld w 7 6) (flag w 2) (flag w 1)) else .error .reserved
  | 3 => if fld w 0 1 == 0 then .ok (.vandn (fld w 19 6) (fld w 13 6) (fld w 7 6) (flag w 2) (flag w 1)) else .error .reserved
  | 4 => if fld w 7 6 == 0 && fld w 0 1 == 0 then .ok (.vnot (fld w 19 6) (fld w 13 6) (flag w 2) (flag w 1)) else .error .reserved
  | 5 => if fld w 0 1 == 0 then .ok (.vshl (fld w 19 6) (fld w 13 6) (fld w 7 6) (flag w 2) (flag w 1)) else .error .reserved
  | 6 => if fld w 0 1 == 0 then .ok (.vshr (fld w 19 6) (fld w 13 6) (fld w 7 6) (flag w 2) (flag w 1)) else .error .reserved
  | 7 => if fld w 0 1 == 0 then .ok (.vsar (fld w 19 6) (fld w 13 6) (fld w 7 6) (flag w 2) (flag w 1)) else .error .reserved
  | 8 => if fld w 0 1 == 0 then .ok (.vrol (fld w 19 6) (fld w 13 6) (fld w 7 6) (flag w 2) (flag w 1)) else .error .reserved
  | 9 => if fld w 0 1 == 0 then .ok (.vror (fld w 19 6) (fld w 13 6) (fld w 7 6) (flag w 2) (flag w 1)) else .error .reserved
  | 10 => if fld w 7 6 == 0 && fld w 0 1 == 0 then .ok (.vclz (fld w 19 6) (fld w 13 6) (flag w 2) (flag w 1)) else .error .reserved
  | 11 => if fld w 7 6 == 0 && fld w 0 1 == 0 then .ok (.vpop (fld w 19 6) (fld w 13 6) (flag w 2) (flag w 1)) else .error .reserved
  | 12 => if fld w 7 6 == 0 && fld w 0 1 == 0 then .ok (.vbrev (fld w 19 6) (fld w 13 6) (flag w 2) (flag w 1)) else .error .reserved
  | _ => .error .unassignedFn

/-- OP 0x22: VIMAD. -/
def decOp22 (w : W32) : Except DecodeError Instr :=
  .ok (.vimad (fld w 19 6) (fld w 13 6) (fld w 7 6) (fld w 1 6) (flag w 0))

/-- OP 0x23: VBFE, VBFES. -/
def decOp23 (w : W32) : Except DecodeError Instr :=
  match (fld w 3 4).toNat with
  | 0 => if fld w 0 1 == 0 then .ok (.vbfe (fld w 19 6) (fld w 13 6) (fld w 7 6) (flag w 2) (flag w 1)) else .error .reserved
  | 1 => if fld w 0 1 == 0 then .ok (.vbfes (fld w 19 6) (fld w 13 6) (fld w 7 6) (flag w 2) (flag w 1)) else .error .reserved
  | _ => .error .unassignedFn

/-- OP 0x24: VBFI. -/
def decOp24 (w : W32) : Except DecodeError Instr :=
  .ok (.vbfi (fld w 19 6) (fld w 13 6) (fld w 7 6) (fld w 1 6) (flag w 0))

/-- OP 0x25: VCMPEQ, VCMPNE, VCMPLT, VCMPLE, VCMPLTU, VCMPLEU .... -/
def decOp25 (w : W32) : Except DecodeError Instr :=
  match (fld w 3 4).toNat with
  | 0 => if fld w 22 3 == 0 && fld w 0 1 == 0 then .ok (.vcmpeq (fld w 19 3) (fld w 13 6) (fld w 7 6) (flag w 2) (flag w 1)) else .error .reserved
  | 1 => if fld w 22 3 == 0 && fld w 0 1 == 0 then .ok (.vcmpne (fld w 19 3) (fld w 13 6) (fld w 7 6) (flag w 2) (flag w 1)) else .error .reserved
  | 2 => if fld w 22 3 == 0 && fld w 0 1 == 0 then .ok (.vcmplt (fld w 19 3) (fld w 13 6) (fld w 7 6) (flag w 2) (flag w 1)) else .error .reserved
  | 3 => if fld w 22 3 == 0 && fld w 0 1 == 0 then .ok (.vcmple (fld w 19 3) (fld w 13 6) (fld w 7 6) (flag w 2) (flag w 1)) else .error .reserved
  | 4 => if fld w 22 3 == 0 && fld w 0 1 == 0 then .ok (.vcmpltu (fld w 19 3) (fld w 13 6) (fld w 7 6) (flag w 2) (flag w 1)) else .error .reserved
  | 5 => if fld w 22 3 == 0 && fld w 0 1 == 0 then .ok (.vcmpleu (fld w 19 3) (fld w 13 6) (fld w 7 6) (flag w 2) (flag w 1)) else .error .reserved
  | 6 => if fld w 22 3 == 0 && fld w 0 1 == 0 then .ok (.vcmpgt (fld w 19 3) (fld w 13 6) (fld w 7 6) (flag w 2) (flag w 1)) else .error .reserved
  | 7 => if fld w 22 3 == 0 && fld w 0 1 == 0 then .ok (.vcmpge (fld w 19 3) (fld w 13 6) (fld w 7 6) (flag w 2) (flag w 1)) else .error .reserved
  | 8 => if fld w 22 3 == 0 && fld w 0 1 == 0 then .ok (.vcmpgtu (fld w 19 3) (fld w 13 6) (fld w 7 6) (flag w 2) (flag w 1)) else .error .reserved
  | 9 => if fld w 22 3 == 0 && fld w 0 1 == 0 then .ok (.vcmpgeu (fld w 19 3) (fld w 13 6) (fld w 7 6) (flag w 2) (flag w 1)) else .error .reserved
  | _ => .error .unassignedFn

/-- OP 0x26: VSEL. -/
def decOp26 (w : W32) : Except DecodeError Instr :=
  if fld w 4 3 == 0 then .ok (.vsel (fld w 19 6) (fld w 13 6) (fld w 7 6) (fld w 1 3) (flag w 0)) else .error .reserved

/-- OP 0x27: VMOV, VBCAST, VTOS, STOV, VRDOUT, VWROUT. -/
def decOp27 (w : W32) : Except DecodeError Instr :=
  match (fld w 3 4).toNat with
  | 0 => if fld w 7 6 == 0 && fld w 0 1 == 0 then .ok (.vmov (fld w 19 6) (fld w 13 6) (flag w 2) (flag w 1)) else .error .reserved
  | 1 => if fld w 7 6 == 0 && fld w 0 1 == 0 then .ok (.vbcast (fld w 19 6) (fld w 13 6) (flag w 2) (flag w 1)) else .error .reserved
  | 2 => if fld w 0 1 == 0 then .ok (.vtos (fld w 19 6) (fld w 13 6) (fld w 7 6) (flag w 2) (flag w 1)) else .error .reserved
  | 3 => if fld w 0 1 == 0 then .ok (.stov (fld w 19 6) (fld w 13 6) (fld w 7 6) (flag w 2) (flag w 1)) else .error .reserved
  | 6 => if fld w 7 6 == 0 && fld w 0 1 == 0 then .ok (.vrdout (fld w 19 6) (fld w 13 6) (flag w 2) (flag w 1)) else .error .reserved
  | 7 => if fld w 7 6 == 0 && fld w 0 1 == 0 then .ok (.vwrout (fld w 19 6) (fld w 13 6) (flag w 2) (flag w 1)) else .error .reserved
  | _ => .error .unassignedFn

/-- OP 0x28: VMOVI. -/
def decOp28 (w : W32) : Except DecodeError Instr :=
  if fld w 13 6 == 0 then .ok (.vmovi (fld w 19 6) (fld w 1 12) (flag w 0)) else .error .reserved

/-- OP 0x29: VMOVL. -/
def decOp29 (w : W32) (lit : W32) : Except DecodeError Instr :=
  if fld w 1 18 == 0 then .ok (.vmovl (fld w 19 6) (flag w 0) lit) else .error .reserved

/-- OP 0x2A: VDIV, VREM. -/
def decOp2A (w : W32) : Except DecodeError Instr :=
  match (fld w 3 4).toNat with
  | 0 => if fld w 0 1 == 0 then .ok (.vdiv (fld w 19 6) (fld w 13 6) (fld w 7 6) (flag w 2) (flag w 1)) else .error .reserved
  | 1 => if fld w 0 1 == 0 then .ok (.vrem (fld w 19 6) (fld w 13 6) (fld w 7 6) (flag w 2) (flag w 1)) else .error .reserved
  | _ => .error .unassignedFn

/-- OP 0x2B: VCVT, VRNDI, VPACK, VUNPKL, VUNPKH. -/
def decOp2B (w : W32) : Except DecodeError Instr :=
  match (fld w 3 4).toNat with
  | 0 => if fld w 7 6 == 0 && fld w 0 2 == 0 then .ok (.vcvt (fld w 19 6) (fld w 13 6) (flag w 2)) else .error .reserved
  | 1 => if fld w 7 6 == 0 && fld w 0 2 == 0 then .ok (.vrndi (fld w 19 6) (fld w 13 6) (flag w 2)) else .error .reserved
  | 2 => if fld w 0 2 == 0 then .ok (.vpack (fld w 19 6) (fld w 13 6) (fld w 7 6) (flag w 2)) else .error .reserved
  | 3 => if fld w 7 6 == 0 && fld w 0 2 == 0 then .ok (.vunpkl (fld w 19 6) (fld w 13 6) (flag w 2)) else .error .reserved
  | 4 => if fld w 7 6 == 0 && fld w 0 2 == 0 then .ok (.vunpkh (fld w 19 6) (fld w 13 6) (flag w 2)) else .error .reserved
  | _ => .error .unassignedFn

/-- OP 0x2C: FADD, FSUB, FMUL, FMIN, FMAX, FABS .... -/
def decOp2C (w : W32) : Except DecodeError Instr :=
  match (fld w 3 4).toNat with
  | 0 => if fld w 0 1 == 0 then .ok (.fadd (fld w 19 6) (fld w 13 6) (fld w 7 6) (flag w 2) (flag w 1)) else .error .reserved
  | 1 => if fld w 0 1 == 0 then .ok (.fsub (fld w 19 6) (fld w 13 6) (fld w 7 6) (flag w 2) (flag w 1)) else .error .reserved
  | 2 => if fld w 0 1 == 0 then .ok (.fmul (fld w 19 6) (fld w 13 6) (fld w 7 6) (flag w 2) (flag w 1)) else .error .reserved
  | 3 => if fld w 0 1 == 0 then .ok (.fmin (fld w 19 6) (fld w 13 6) (fld w 7 6) (flag w 2) (flag w 1)) else .error .reserved
  | 4 => if fld w 0 1 == 0 then .ok (.fmax (fld w 19 6) (fld w 13 6) (fld w 7 6) (flag w 2) (flag w 1)) else .error .reserved
  | 5 => if fld w 7 6 == 0 && fld w 0 1 == 0 then .ok (.fabs (fld w 19 6) (fld w 13 6) (flag w 2) (flag w 1)) else .error .reserved
  | 6 => if fld w 7 6 == 0 && fld w 0 1 == 0 then .ok (.fneg (fld w 19 6) (fld w 13 6) (flag w 2) (flag w 1)) else .error .reserved
  | 7 => if fld w 0 1 == 0 then .ok (.fcopysign (fld w 19 6) (fld w 13 6) (fld w 7 6) (flag w 2) (flag w 1)) else .error .reserved
  | 8 => if fld w 0 1 == 0 then .ok (.fscale (fld w 19 6) (fld w 13 6) (fld w 7 6) (flag w 2) (flag w 1)) else .error .reserved
  | _ => .error .unassignedFn

/-- OP 0x2D: FFMA. -/
def decOp2D (w : W32) : Except DecodeError Instr :=
  .ok (.ffma (fld w 19 6) (fld w 13 6) (fld w 7 6) (fld w 1 6) (flag w 0))

/-- OP 0x2E: FCMPEQ, FCMPNE, FCMPLT, FCMPLE, FCMPGT, FCMPGE .... -/
def decOp2E (w : W32) : Except DecodeError Instr :=
  match (fld w 3 4).toNat with
  | 0 => if fld w 22 3 == 0 && fld w 0 1 == 0 then .ok (.fcmpeq (fld w 19 3) (fld w 13 6) (fld w 7 6) (flag w 2) (flag w 1)) else .error .reserved
  | 1 => if fld w 22 3 == 0 && fld w 0 1 == 0 then .ok (.fcmpne (fld w 19 3) (fld w 13 6) (fld w 7 6) (flag w 2) (flag w 1)) else .error .reserved
  | 2 => if fld w 22 3 == 0 && fld w 0 1 == 0 then .ok (.fcmplt (fld w 19 3) (fld w 13 6) (fld w 7 6) (flag w 2) (flag w 1)) else .error .reserved
  | 3 => if fld w 22 3 == 0 && fld w 0 1 == 0 then .ok (.fcmple (fld w 19 3) (fld w 13 6) (fld w 7 6) (flag w 2) (flag w 1)) else .error .reserved
  | 4 => if fld w 22 3 == 0 && fld w 0 1 == 0 then .ok (.fcmpgt (fld w 19 3) (fld w 13 6) (fld w 7 6) (flag w 2) (flag w 1)) else .error .reserved
  | 5 => if fld w 22 3 == 0 && fld w 0 1 == 0 then .ok (.fcmpge (fld w 19 3) (fld w 13 6) (fld w 7 6) (flag w 2) (flag w 1)) else .error .reserved
  | 6 => if fld w 22 3 == 0 && fld w 0 1 == 0 then .ok (.fcmpueq (fld w 19 3) (fld w 13 6) (fld w 7 6) (flag w 2) (flag w 1)) else .error .reserved
  | 7 => if fld w 22 3 == 0 && fld w 0 1 == 0 then .ok (.fcmpune (fld w 19 3) (fld w 13 6) (fld w 7 6) (flag w 2) (flag w 1)) else .error .reserved
  | 8 => if fld w 22 3 == 0 && fld w 0 1 == 0 then .ok (.fcmpult (fld w 19 3) (fld w 13 6) (fld w 7 6) (flag w 2) (flag w 1)) else .error .reserved
  | 9 => if fld w 22 3 == 0 && fld w 0 1 == 0 then .ok (.fcmpule (fld w 19 3) (fld w 13 6) (fld w 7 6) (flag w 2) (flag w 1)) else .error .reserved
  | 10 => if fld w 22 3 == 0 && fld w 0 1 == 0 then .ok (.fcmpugt (fld w 19 3) (fld w 13 6) (fld w 7 6) (flag w 2) (flag w 1)) else .error .reserved
  | 11 => if fld w 22 3 == 0 && fld w 0 1 == 0 then .ok (.fcmpuge (fld w 19 3) (fld w 13 6) (fld w 7 6) (flag w 2) (flag w 1)) else .error .reserved
  | 12 => if fld w 22 3 == 0 && fld w 0 1 == 0 then .ok (.fcmpord (fld w 19 3) (fld w 13 6) (fld w 7 6) (flag w 2) (flag w 1)) else .error .reserved
  | 13 => if fld w 22 3 == 0 && fld w 0 1 == 0 then .ok (.fcmpunord (fld w 19 3) (fld w 13 6) (fld w 7 6) (flag w 2) (flag w 1)) else .error .reserved
  | _ => .error .unassignedFn

/-- OP 0x2F: FRCP, FRSQ, FSQRT, FEXP2, FLOG2, FSIN .... -/
def decOp2F (w : W32) : Except DecodeError Instr :=
  match (fld w 3 4).toNat with
  | 0 => if fld w 7 6 == 0 && fld w 0 1 == 0 then .ok (.frcp (fld w 19 6) (fld w 13 6) (flag w 2) (flag w 1)) else .error .reserved
  | 1 => if fld w 7 6 == 0 && fld w 0 1 == 0 then .ok (.frsq (fld w 19 6) (fld w 13 6) (flag w 2) (flag w 1)) else .error .reserved
  | 2 => if fld w 7 6 == 0 && fld w 0 1 == 0 then .ok (.fsqrt (fld w 19 6) (fld w 13 6) (flag w 2) (flag w 1)) else .error .reserved
  | 3 => if fld w 7 6 == 0 && fld w 0 1 == 0 then .ok (.fexp2 (fld w 19 6) (fld w 13 6) (flag w 2) (flag w 1)) else .error .reserved
  | 4 => if fld w 7 6 == 0 && fld w 0 1 == 0 then .ok (.flog2 (fld w 19 6) (fld w 13 6) (flag w 2) (flag w 1)) else .error .reserved
  | 5 => if fld w 7 6 == 0 && fld w 0 1 == 0 then .ok (.fsin (fld w 19 6) (fld w 13 6) (flag w 2) (flag w 1)) else .error .reserved
  | 6 => if fld w 7 6 == 0 && fld w 0 1 == 0 then .ok (.fcos (fld w 19 6) (fld w 13 6) (flag w 2) (flag w 1)) else .error .reserved
  | 7 => if fld w 7 6 == 0 && fld w 0 1 == 0 then .ok (.ftanh (fld w 19 6) (fld w 13 6) (flag w 2) (flag w 1)) else .error .reserved
  | 8 => if fld w 7 6 == 0 && fld w 0 1 == 0 then .ok (.ffract (fld w 19 6) (fld w 13 6) (flag w 2) (flag w 1)) else .error .reserved
  | 9 => if fld w 7 6 == 0 && fld w 0 1 == 0 then .ok (.fclass (fld w 19 6) (fld w 13 6) (flag w 2) (flag w 1)) else .error .reserved
  | 10 => if fld w 0 1 == 0 then .ok (.fdiv (fld w 19 6) (fld w 13 6) (fld w 7 6) (flag w 2) (flag w 1)) else .error .reserved
  | _ => .error .unassignedFn

/-- OP 0x30: FDOT. -/
def decOp30 (w : W32) : Except DecodeError Instr :=
  .ok (.fdot (fld w 19 6) (fld w 13 6) (fld w 7 6) (fld w 1 6) (flag w 0))

/-- OP 0x31: LSHUF, LROT, LXORL, LUP, LDOWN, LBCAST .... -/
def decOp31 (w : W32) : Except DecodeError Instr :=
  match (fld w 3 4).toNat with
  | 0 => if fld w 0 1 == 0 then .ok (.lshuf (fld w 19 6) (fld w 13 6) (fld w 7 6) (flag w 2) (flag w 1)) else .error .reserved
  | 1 => if fld w 0 1 == 0 then .ok (.lrot (fld w 19 6) (fld w 13 6) (fld w 7 6) (flag w 2) (flag w 1)) else .error .reserved
  | 2 => if fld w 0 1 == 0 then .ok (.lxorl (fld w 19 6) (fld w 13 6) (fld w 7 6) (flag w 2) (flag w 1)) else .error .reserved
  | 3 => if fld w 0 1 == 0 then .ok (.lup (fld w 19 6) (fld w 13 6) (fld w 7 6) (flag w 2) (flag w 1)) else .error .reserved
  | 4 => if fld w 0 1 == 0 then .ok (.ldown (fld w 19 6) (fld w 13 6) (fld w 7 6) (flag w 2) (flag w 1)) else .error .reserved
  | 5 => if fld w 0 1 == 0 then .ok (.lbcast (fld w 19 6) (fld w 13 6) (fld w 7 6) (flag w 2) (flag w 1)) else .error .reserved
  | 6 => if fld w 0 1 == 0 then .ok (.lrotw (fld w 19 6) (fld w 13 6) (fld w 7 6) (flag w 2) (flag w 1)) else .error .reserved
  | _ => .error .unassignedFn

/-- OP 0x32: LREDADD, LREDMIN, LREDMAX, LREDAND, LREDOR, LREDXOR .... -/
def decOp32 (w : W32) : Except DecodeError Instr :=
  match (fld w 3 4).toNat with
  | 0 => if fld w 7 6 == 0 && fld w 0 1 == 0 then .ok (.lredadd (fld w 19 6) (fld w 13 6) (flag w 2) (flag w 1)) else .error .reserved
  | 1 => if fld w 7 6 == 0 && fld w 0 1 == 0 then .ok (.lredmin (fld w 19 6) (fld w 13 6) (flag w 2) (flag w 1)) else .error .reserved
  | 2 => if fld w 7 6 == 0 && fld w 0 1 == 0 then .ok (.lredmax (fld w 19 6) (fld w 13 6) (flag w 2) (flag w 1)) else .error .reserved
  | 3 => if fld w 7 6 == 0 && fld w 0 1 == 0 then .ok (.lredand (fld w 19 6) (fld w 13 6) (flag w 2) (flag w 1)) else .error .reserved
  | 4 => if fld w 7 6 == 0 && fld w 0 1 == 0 then .ok (.lredor (fld w 19 6) (fld w 13 6) (flag w 2) (flag w 1)) else .error .reserved
  | 5 => if fld w 7 6 == 0 && fld w 0 1 == 0 then .ok (.lredxor (fld w 19 6) (fld w 13 6) (flag w 2) (flag w 1)) else .error .reserved
  | 6 => if fld w 7 6 == 0 && fld w 0 1 == 0 then .ok (.lredfadd (fld w 19 6) (fld w 13 6) (flag w 2) (flag w 1)) else .error .reserved
  | 7 => if fld w 7 6 == 0 && fld w 0 1 == 0 then .ok (.lredfmin (fld w 19 6) (fld w 13 6) (flag w 2) (flag w 1)) else .error .reserved
  | 8 => if fld w 7 6 == 0 && fld w 0 1 == 0 then .ok (.lredfmax (fld w 19 6) (fld w 13 6) (flag w 2) (flag w 1)) else .error .reserved
  | _ => .error .unassignedFn

/-- OP 0x33: LSCANADD, LSCANMIN, LSCANMAX, LSCANAND, LSCANOR, LSCANXOR .... -/
def decOp33 (w : W32) : Except DecodeError Instr :=
  match (fld w 3 4).toNat with
  | 0 => if fld w 7 6 == 0 && fld w 0 1 == 0 then .ok (.lscanadd (fld w 19 6) (fld w 13 6) (flag w 2) (flag w 1)) else .error .reserved
  | 1 => if fld w 7 6 == 0 && fld w 0 1 == 0 then .ok (.lscanmin (fld w 19 6) (fld w 13 6) (flag w 2) (flag w 1)) else .error .reserved
  | 2 => if fld w 7 6 == 0 && fld w 0 1 == 0 then .ok (.lscanmax (fld w 19 6) (fld w 13 6) (flag w 2) (flag w 1)) else .error .reserved
  | 3 => if fld w 7 6 == 0 && fld w 0 1 == 0 then .ok (.lscanand (fld w 19 6) (fld w 13 6) (flag w 2) (flag w 1)) else .error .reserved
  | 4 => if fld w 7 6 == 0 && fld w 0 1 == 0 then .ok (.lscanor (fld w 19 6) (fld w 13 6) (flag w 2) (flag w 1)) else .error .reserved
  | 5 => if fld w 7 6 == 0 && fld w 0 1 == 0 then .ok (.lscanxor (fld w 19 6) (fld w 13 6) (flag w 2) (flag w 1)) else .error .reserved
  | 6 => if fld w 7 6 == 0 && fld w 0 1 == 0 then .ok (.lscanfadd (fld w 19 6) (fld w 13 6) (flag w 2) (flag w 1)) else .error .reserved
  | 8 => if fld w 7 6 == 0 && fld w 0 1 == 0 then .ok (.lxscanadd (fld w 19 6) (fld w 13 6) (flag w 2) (flag w 1)) else .error .reserved
  | 9 => if fld w 7 6 == 0 && fld w 0 1 == 0 then .ok (.lxscanmin (fld w 19 6) (fld w 13 6) (flag w 2) (flag w 1)) else .error .reserved
  | 10 => if fld w 7 6 == 0 && fld w 0 1 == 0 then .ok (.lxscanmax (fld w 19 6) (fld w 13 6) (flag w 2) (flag w 1)) else .error .reserved
  | 11 => if fld w 7 6 == 0 && fld w 0 1 == 0 then .ok (.lxscanand (fld w 19 6) (fld w 13 6) (flag w 2) (flag w 1)) else .error .reserved
  | 12 => if fld w 7 6 == 0 && fld w 0 1 == 0 then .ok (.lxscanor (fld w 19 6) (fld w 13 6) (flag w 2) (flag w 1)) else .error .reserved
  | 13 => if fld w 7 6 == 0 && fld w 0 1 == 0 then .ok (.lxscanxor (fld w 19 6) (fld w 13 6) (flag w 2) (flag w 1)) else .error .reserved
  | 14 => if fld w 7 6 == 0 && fld w 0 1 == 0 then .ok (.lxscanfadd (fld w 19 6) (fld w 13 6) (flag w 2) (flag w 1)) else .error .reserved
  | _ => .error .unassignedFn

/-- OP 0x34: LBALLOT, LMATCH. -/
def decOp34 (w : W32) : Except DecodeError Instr :=
  match (fld w 3 4).toNat with
  | 0 => if fld w 16 3 == 0 && fld w 7 6 == 0 && fld w 0 2 == 0 then .ok (.lballot (fld w 19 6) (fld w 13 3) (flag w 2)) else .error .reserved
  | 1 => if fld w 7 6 == 0 && fld w 0 1 == 0 then .ok (.lmatch (fld w 19 6) (fld w 13 6) (flag w 2) (flag w 1)) else .error .reserved
  | _ => .error .unassignedFn

/-- OP 0x35: XSEND. -/
def decOp35 (w : W32) : Except DecodeError Instr :=
  if fld w 23 2 == 0 && fld w 3 4 == 0 && fld w 0 2 == 0 then .ok (.xsend (fld w 19 4) (fld w 13 6) (fld w 7 6) (flag w 2)) else .error .reserved

/-- OP 0x36: XRECV. -/
def decOp36 (w : W32) : Except DecodeError Instr :=
  if fld w 17 2 == 0 && fld w 3 4 == 0 && fld w 0 2 == 0 then .ok (.xrecv (fld w 19 6) (fld w 13 4) (fld w 7 6) (flag w 2)) else .error .reserved

/-- OP 0x37: REGROUP. -/
def decOp37 (w : W32) : Except DecodeError Instr :=
  if fld w 3 4 == 0 && fld w 0 2 == 0 then .ok (.regroup (fld w 19 6) (fld w 13 6) (fld w 7 6) (flag w 2)) else .error .reserved

/-- OP 0x38: VLANE. -/
def decOp38 (w : W32) : Except DecodeError Instr :=
  if fld w 3 16 == 0 && fld w 0 2 == 0 then .ok (.vlane (fld w 19 6) (flag w 2)) else .error .reserved

/-- OP 0x40: LD. -/
def decOp40 (w : W32) : Except DecodeError Instr :=
  .ok (.ld (fld w 19 6) (fld w 13 6) (fld w 7 6) (fld w 4 3) (fld w 2 2) (flag w 1) (flag w 0))

/-- OP 0x41: ST. -/
def decOp41 (w : W32) : Except DecodeError Instr :=
  .ok (.st (fld w 19 6) (fld w 13 6) (fld w 7 6) (fld w 4 3) (fld w 2 2) (flag w 1) (flag w 0))

/-- OP 0x42: LDU. -/
def decOp42 (w : W32) : Except DecodeError Instr :=
  .ok (.ldu (fld w 19 6) (fld w 13 6) (fld w 7 6) (fld w 4 3) (fld w 2 2) (flag w 1) (flag w 0))

/-- OP 0x43: STU. -/
def decOp43 (w : W32) : Except DecodeError Instr :=
  .ok (.stu (fld w 19 6) (fld w 13 6) (fld w 7 6) (fld w 4 3) (fld w 2 2) (flag w 1) (flag w 0))

/-- OP 0x44: LDH. -/
def decOp44 (w : W32) : Except DecodeError Instr :=
  .ok (.ldh (fld w 19 6) (fld w 13 6) (fld w 7 6) (fld w 4 3) (fld w 2 2) (flag w 1) (flag w 0))

/-- OP 0x45: STH. -/
def decOp45 (w : W32) : Except DecodeError Instr :=
  .ok (.sth (fld w 19 6) (fld w 13 6) (fld w 7 6) (fld w 4 3) (fld w 2 2) (flag w 1) (flag w 0))

/-- OP 0x46: ATOM. -/
def decOp46 (w : W32) : Except DecodeError Instr :=
  .ok (.atom (fld w 19 6) (fld w 13 6) (fld w 7 6) (fld w 3 4) (fld w 0 3))

/-- OP 0x47: ATOMA. -/
def decOp47 (w : W32) : Except DecodeError Instr :=
  .ok (.atoma (fld w 19 6) (fld w 13 6) (fld w 7 6) (fld w 3 4) (fld w 0 3))

/-- OP 0x48: RED. -/
def decOp48 (w : W32) : Except DecodeError Instr :=
  if fld w 19 6 == 0 then .ok (.red (fld w 13 6) (fld w 7 6) (fld w 3 4) (fld w 0 3)) else .error .reserved

/-- OP 0x49: ATOMH. -/
def decOp49 (w : W32) : Except DecodeError Instr :=
  .ok (.atomh (fld w 19 6) (fld w 13 6) (fld w 7 6) (fld w 3 4) (fld w 0 3))

/-- OP 0x4A: TALLOC, TFREE, TINFO. -/
def decOp4A (w : W32) : Except DecodeError Instr :=
  match (fld w 3 4).toNat with
  | 0 => if fld w 7 6 == 0 && fld w 0 2 == 0 then .ok (.talloc (fld w 19 6) (fld w 13 6) (flag w 2)) else .error .reserved
  | 1 => if fld w 19 6 == 0 && fld w 7 6 == 0 && fld w 0 2 == 0 then .ok (.tfree (fld w 13 6) (flag w 2)) else .error .reserved
  | 2 => if fld w 7 12 == 0 && fld w 0 2 == 0 then .ok (.tinfo (fld w 19 6) (flag w 2)) else .error .reserved
  | _ => .error .unassignedFn

/-- OP 0x4B: WAIT. -/
def decOp4B (w : W32) : Except DecodeError Instr :=
  if fld w 0 1 == 0 then .ok (.wait (fld w 19 6) (fld w 13 6) (fld w 7 6) (fld w 1 6)) else .error .reserved

/-- OP 0x4C: WAITRLD, WAITRST, WAITRCP, WAITRTL. -/
def decOp4C (w : W32) : Except DecodeError Instr :=
  match (fld w 3 4).toNat with
  | 0 => if fld w 19 6 == 0 && fld w 7 6 == 0 && fld w 0 2 == 0 then .ok (.waitrld (fld w 13 6) (flag w 2)) else .error .reserved
  | 1 => if fld w 19 6 == 0 && fld w 7 6 == 0 && fld w 0 2 == 0 then .ok (.waitrst (fld w 13 6) (flag w 2)) else .error .reserved
  | 2 => if fld w 19 6 == 0 && fld w 7 6 == 0 && fld w 0 2 == 0 then .ok (.waitrcp (fld w 13 6) (flag w 2)) else .error .reserved
  | 3 => if fld w 19 6 == 0 && fld w 7 6 == 0 && fld w 0 2 == 0 then .ok (.waitrtl (fld w 13 6) (flag w 2)) else .error .reserved
  | _ => .error .unassignedFn

/-- OP 0x4D: PFL1, PFLLC, CWB, CINV, ICINV. -/
def decOp4D (w : W32) : Except DecodeError Instr :=
  match (fld w 3 4).toNat with
  | 0 => if fld w 19 6 == 0 && fld w 0 2 == 0 then .ok (.pfl1 (fld w 13 6) (fld w 7 6) (flag w 2)) else .error .reserved
  | 1 => if fld w 19 6 == 0 && fld w 0 2 == 0 then .ok (.pfllc (fld w 13 6) (fld w 7 6) (flag w 2)) else .error .reserved
  | 2 => if fld w 19 6 == 0 && fld w 0 2 == 0 then .ok (.cwb (fld w 13 6) (fld w 7 6) (flag w 2)) else .error .reserved
  | 3 => if fld w 19 6 == 0 && fld w 0 2 == 0 then .ok (.cinv (fld w 13 6) (fld w 7 6) (flag w 2)) else .error .reserved
  | 4 => if fld w 13 12 == 0 && fld w 0 2 == 0 then .ok (.icinv (fld w 7 6) (flag w 2)) else .error .reserved
  | _ => .error .unassignedFn

/-- OP 0x50: FENCE. -/
def decOp50 (w : W32) : Except DecodeError Instr :=
  if fld w 7 18 == 0 && fld w 0 2 == 0 then .ok (.fence (fld w 3 4) (flag w 2)) else .error .reserved

/-- OP 0x51: BINIT. -/
def decOp51 (w : W32) : Except DecodeError Instr :=
  if fld w 19 6 == 0 && fld w 3 4 == 0 && fld w 0 2 == 0 then .ok (.binit (fld w 13 6) (fld w 7 6) (flag w 2)) else .error .reserved

/-- OP 0x52: BARV, BARVX, BARVD. -/
def decOp52 (w : W32) : Except DecodeError Instr :=
  match (fld w 3 4).toNat with
  | 0 => if fld w 19 6 == 0 && fld w 7 6 == 0 && fld w 0 2 == 0 then .ok (.barv (fld w 13 6) (flag w 2)) else .error .reserved
  | 1 => if fld w 19 6 == 0 && fld w 0 2 == 0 then .ok (.barvx (fld w 13 6) (fld w 7 6) (flag w 2)) else .error .reserved
  | 2 => if fld w 19 6 == 0 && fld w 7 6 == 0 && fld w 0 2 == 0 then .ok (.barvd (fld w 13 6) (flag w 2)) else .error .reserved
  | _ => .error .unassignedFn

/-- OP 0x53: BWAIT, BTEST. -/
def decOp53 (w : W32) : Except DecodeError Instr :=
  match (fld w 3 4).toNat with
  | 0 => if fld w 19 6 == 0 && fld w 0 2 == 0 then .ok (.bwait (fld w 13 6) (fld w 7 6) (flag w 2)) else .error .reserved
  | 1 => if fld w 22 3 == 0 && fld w 0 2 == 0 then .ok (.btest (fld w 19 3) (fld w 13 6) (fld w 7 6) (flag w 2)) else .error .reserved
  | _ => .error .unassignedFn

/-- OP 0x54: CBARA, CBARW, CBAR. -/
def decOp54 (w : W32) : Except DecodeError Instr :=
  match (fld w 3 4).toNat with
  | 0 => if fld w 7 18 == 0 && fld w 0 2 == 0 then .ok (.cbara (flag w 2)) else .error .reserved
  | 1 => if fld w 7 18 == 0 && fld w 0 2 == 0 then .ok (.cbarw (flag w 2)) else .error .reserved
  | 2 => if fld w 7 18 == 0 && fld w 0 2 == 0 then .ok (.cbar (flag w 2)) else .error .reserved
  | _ => .error .unassignedFn

/-- OP 0x55: WGBAR, WGBARA, WGBARW. -/
def decOp55 (w : W32) : Except DecodeError Instr :=
  match (fld w 3 4).toNat with
  | 0 => if fld w 7 18 == 0 && fld w 0 2 == 0 then .ok (.wgbar (flag w 2)) else .error .reserved
  | 1 => if fld w 7 18 == 0 && fld w 0 2 == 0 then .ok (.wgbara (flag w 2)) else .error .reserved
  | 2 => if fld w 7 18 == 0 && fld w 0 2 == 0 then .ok (.wgbarw (flag w 2)) else .error .reserved
  | _ => .error .unassignedFn

/-- OP 0x58: TXBEGIN. -/
def decOp58 (w : W32) : Except DecodeError Instr :=
  .ok (.txbegin (fld w 22 3) (flag w 21) (fld w 0 21))

/-- OP 0x59: TXEND. -/
def decOp59 (w : W32) : Except DecodeError Instr :=
  if fld w 0 25 == 0 then .ok (.txend) else .error .reserved

/-- OP 0x5A: TXABORT. -/
def decOp5A (w : W32) : Except DecodeError Instr :=
  if fld w 7 18 == 0 && fld w 0 2 == 0 then .ok (.txabort (fld w 3 4) (flag w 2)) else .error .reserved

/-- OP 0x5B: TXSTAT, TXCAUSE. -/
def decOp5B (w : W32) : Except DecodeError Instr :=
  match (fld w 3 4).toNat with
  | 0 => if fld w 7 12 == 0 && fld w 0 2 == 0 then .ok (.txstat (fld w 19 6) (flag w 2)) else .error .reserved
  | 1 => if fld w 7 12 == 0 && fld w 0 2 == 0 then .ok (.txcause (fld w 19 6) (flag w 2)) else .error .reserved
  | _ => .error .unassignedFn

/-- OP 0x5C: CPLD, CPST, CPRED, CPG. -/
noncomputable def decOp5C (w : W32) : Except DecodeError Instr :=
  match (fld w 3 4).toNat with
  | 0 => if fld w 19 6 == 0 && fld w 7 2 == 0 && fld w 0 2 == 0 then .ok (.cpld (fld w 13 6) (fld w 9 4) (flag w 2)) else .error .reserved
  | 1 => if fld w 19 6 == 0 && fld w 7 2 == 0 && fld w 0 2 == 0 then .ok (.cpst (fld w 13 6) (fld w 9 4) (flag w 2)) else .error .reserved
  | 2 => if fld w 19 6 == 0 && fld w 7 2 == 0 && fld w 0 2 == 0 then .ok (.cpred (fld w 13 6) (fld w 9 4) (flag w 2)) else .error .reserved
  | 3 => if fld w 19 6 == 0 && fld w 7 2 == 0 && fld w 0 2 == 0 then .ok (.cpg (fld w 13 6) (fld w 9 4) (flag w 2)) else .error .reserved
  | _ => .error .unassignedFn

/-- OP 0x5D: CPC. -/
noncomputable def decOp5D (w : W32) : Except DecodeError Instr :=
  if fld w 19 6 == 0 && fld w 3 6 == 0 && fld w 0 2 == 0 then .ok (.cpc (fld w 13 6) (fld w 9 4) (flag w 2)) else .error .reserved

/-- OP 0x5E: CPW. -/
noncomputable def decOp5E (w : W32) : Except DecodeError Instr :=
  if fld w 19 6 == 0 && fld w 3 6 == 0 && fld w 0 2 == 0 then .ok (.cpw (fld w 13 6) (fld w 9 4) (flag w 2)) else .error .reserved

/-- OP 0x5F: CPQ, CPCAN. -/
noncomputable def decOp5F (w : W32) : Except DecodeError Instr :=
  match (fld w 3 4).toNat with
  | 0 => if fld w 7 6 == 0 && fld w 0 2 == 0 then .ok (.cpq (fld w 19 6) (fld w 13 6) (flag w 2)) else .error .reserved
  | 1 => if fld w 19 6 == 0 && fld w 7 6 == 0 && fld w 0 2 == 0 then .ok (.cpcan (fld w 13 6) (flag w 2)) else .error .reserved
  | _ => .error .unassignedFn

/-- OP 0x60: TCFG. -/
noncomputable def decOp60 (w : W32) : Except DecodeError Instr :=
  if fld w 22 3 == 0 && fld w 3 10 == 0 && fld w 0 2 == 0 then .ok (.tcfg (fld w 19 3) (fld w 13 6) (flag w 2)) else .error .reserved

/-- OP 0x61: TLD. -/
noncomputable def decOp61 (w : W32) : Except DecodeError Instr :=
  if fld w 22 3 == 0 && fld w 3 4 == 0 && fld w 0 2 == 0 then .ok (.tld (fld w 19 3) (fld w 13 6) (fld w 7 6) (flag w 2)) else .error .reserved

/-- OP 0x62: TST. -/
noncomputable def decOp62 (w : W32) : Except DecodeError Instr :=
  if fld w 22 3 == 0 && fld w 3 4 == 0 && fld w 0 2 == 0 then .ok (.tst (fld w 19 3) (fld w 13 6) (fld w 7 6) (flag w 2)) else .error .reserved

/-- OP 0x63: TZERO, AZERO. -/
noncomputable def decOp63 (w : W32) : Except DecodeError Instr :=
  match (fld w 3 4).toNat with
  | 0 => if fld w 22 3 == 0 && fld w 7 12 == 0 && fld w 0 2 == 0 then .ok (.tzero (fld w 19 3) (flag w 2)) else .error .reserved
  | 1 => if fld w 21 4 == 0 && fld w 7 12 == 0 && fld w 0 2 == 0 then .ok (.azero (fld w 19 2) (flag w 2)) else .error .reserved
  | _ => .error .unassignedFn

/-- OP 0x64: MMA. -/
noncomputable def decOp64 (w : W32) : Except DecodeError Instr :=
  if fld w 21 4 == 0 && fld w 16 3 == 0 && fld w 10 3 == 0 && fld w 3 4 == 0 && fld w 0 2 == 0 then .ok (.mma (fld w 19 2) (fld w 13 3) (fld w 7 3) (flag w 2)) else .error .reserved

/-- OP 0x65: MMAP, MMAP_F. -/
noncomputable def decOp65 (w : W32) : Except DecodeError Instr :=
  match (fld w 3 4).toNat with
  | 0 => if fld w 21 4 == 0 && fld w 16 3 == 0 && fld w 10 3 == 0 && fld w 0 2 == 0 then .ok (.mmap (fld w 19 2) (fld w 13 3) (fld w 7 3) (flag w 2)) else .error .reserved
  | 1 => if fld w 21 4 == 0 && fld w 16 3 == 0 && fld w 10 3 == 0 && fld w 0 2 == 0 then .ok (.mmapF (fld w 19 2) (fld w 13 3) (fld w 7 3) (flag w 2)) else .error .reserved
  | _ => .error .unassignedFn

/-- OP 0x66: MMAG. -/
noncomputable def decOp66 (w : W32) : Except DecodeError Instr :=
  if fld w 21 4 == 0 && fld w 16 3 == 0 && fld w 3 4 == 0 && fld w 0 2 == 0 then .ok (.mmag (fld w 19 2) (fld w 13 3) (fld w 7 6) (flag w 2)) else .error .reserved

/-- OP 0x67: TMOVV. -/
noncomputable def decOp67 (w : W32) : Except DecodeError Instr :=
  if fld w 15 4 == 0 && fld w 3 4 == 0 && fld w 0 2 == 0 then .ok (.tmovv (fld w 19 6) (fld w 13 2) (fld w 7 6) (flag w 2)) else .error .reserved

/-- OP 0x68: TCVT. -/
noncomputable def decOp68 (w : W32) : Except DecodeError Instr :=
  if fld w 22 3 == 0 && fld w 15 4 == 0 && fld w 3 10 == 0 && fld w 0 2 == 0 then .ok (.tcvt (fld w 19 3) (fld w 13 2) (flag w 2)) else .error .reserved

/-- OP 0x69: TLDS. -/
noncomputable def decOp69 (w : W32) : Except DecodeError Instr :=
  if fld w 22 3 == 0 && fld w 3 4 == 0 && fld w 0 2 == 0 then .ok (.tlds (fld w 19 3) (fld w 13 6) (fld w 7 6) (flag w 2)) else .error .reserved

/-- OP 0x6C: MSEMITV, MSEMITP. -/
noncomputable def decOp6C (w : W32) : Except DecodeError Instr :=
  match (fld w 3 4).toNat with
  | 0 => if fld w 19 6 == 0 && fld w 0 2 == 0 then .ok (.msemitv (fld w 13 6) (fld w 7 6) (flag w 2)) else .error .reserved
  | 1 => if fld w 19 6 == 0 && fld w 0 2 == 0 then .ok (.msemitp (fld w 13 6) (fld w 7 6) (flag w 2)) else .error .reserved
  | _ => .error .unassignedFn

/-- OP 0x6D: VAMP. -/
noncomputable def decOp6D (w : W32) : Except DecodeError Instr :=
  if fld w 19 6 == 0 && fld w 3 10 == 0 && fld w 0 2 == 0 then .ok (.vamp (fld w 13 6) (flag w 2)) else .error .reserved

/-- OP 0x6E: GAZE. -/
noncomputable def decOp6E (w : W32) : Except DecodeError Instr :=
  if fld w 3 10 == 0 && fld w 0 2 == 0 then .ok (.gaze (fld w 19 6) (fld w 13 6) (flag w 2)) else .error .reserved

/-- OP 0x6F: RTFETCH. -/
noncomputable def decOp6F (w : W32) : Except DecodeError Instr :=
  if fld w 3 10 == 0 && fld w 0 2 == 0 then .ok (.rtfetch (fld w 19 6) (fld w 13 6) (flag w 2)) else .error .reserved

/-- OP 0x70: TEX, TEXL, TEXG, TEXF, TEXQ. -/
noncomputable def decOp70 (w : W32) : Except DecodeError Instr :=
  match (fld w 3 4).toNat with
  | 0 => if fld w 0 2 == 0 then .ok (.tex (fld w 19 6) (fld w 13 6) (fld w 7 6) (flag w 2)) else .error .reserved
  | 1 => if fld w 0 2 == 0 then .ok (.texl (fld w 19 6) (fld w 13 6) (fld w 7 6) (flag w 2)) else .error .reserved
  | 2 => if fld w 0 2 == 0 then .ok (.texg (fld w 19 6) (fld w 13 6) (fld w 7 6) (flag w 2)) else .error .reserved
  | 3 => if fld w 0 2 == 0 then .ok (.texf (fld w 19 6) (fld w 13 6) (fld w 7 6) (flag w 2)) else .error .reserved
  | 4 => if fld w 0 2 == 0 then .ok (.texq (fld w 19 6) (fld w 13 6) (fld w 7 6) (flag w 2)) else .error .reserved
  | _ => .error .unassignedFn

/-- OP 0x71: RAYL, RAYLW. -/
noncomputable def decOp71 (w : W32) : Except DecodeError Instr :=
  match (fld w 3 4).toNat with
  | 0 => if fld w 0 2 == 0 then .ok (.rayl (fld w 19 6) (fld w 13 6) (fld w 7 6) (flag w 2)) else .error .reserved
  | 1 => if fld w 0 2 == 0 then .ok (.raylw (fld w 19 6) (fld w 13 6) (fld w 7 6) (flag w 2)) else .error .reserved
  | _ => .error .unassignedFn

/-- OP 0x72: RAYR. -/
noncomputable def decOp72 (w : W32) : Except DecodeError Instr :=
  if fld w 3 10 == 0 && fld w 0 2 == 0 then .ok (.rayr (fld w 19 6) (fld w 13 6) (flag w 2)) else .error .reserved

/-- OP 0x73: VTDONE. -/
noncomputable def decOp73 (w : W32) : Except DecodeError Instr :=
  if fld w 3 10 == 0 && fld w 0 2 == 0 then .ok (.vtdone (fld w 19 6) (fld w 13 6) (flag w 2)) else .error .reserved

/-- OP 0x76: CSRR, CSRW, CSRS, CSRC. -/
noncomputable def decOp76 (w : W32) : Except DecodeError Instr :=
  match (fld w 16 3).toNat with
  | 0 => if fld w 12 4 == 0 then .ok (.csrr (fld w 19 6) (fld w 0 12)) else .error .reserved
  | 1 => if fld w 12 4 == 0 then .ok (.csrw (fld w 19 6) (fld w 0 12)) else .error .reserved
  | 2 => if fld w 12 4 == 0 then .ok (.csrs (fld w 19 6) (fld w 0 12)) else .error .reserved
  | 3 => if fld w 12 4 == 0 then .ok (.csrc (fld w 19 6) (fld w 0 12)) else .error .reserved
  | _ => .error .unassignedFn

/-- OP 0x77: TRAP, BRK. -/
noncomputable def decOp77 (w : W32) : Except DecodeError Instr :=
  match (fld w 16 3).toNat with
  | 0 => if fld w 19 6 == 0 then .ok (.trap (fld w 0 16)) else .error .reserved
  | 1 => if fld w 19 6 == 0 then .ok (.brk (fld w 0 16)) else .error .reserved
  | _ => .error .unassignedFn

/-- OP 0x78: RETT. -/
noncomputable def decOp78 (w : W32) : Except DecodeError Instr :=
  if fld w 0 25 == 0 then .ok (.rett) else .error .reserved

/-- OP 0x79: YIELD, SLEEP, WAKE. -/
noncomputable def decOp79 (w : W32) : Except DecodeError Instr :=
  match (fld w 3 4).toNat with
  | 0 => if fld w 7 18 == 0 && fld w 0 2 == 0 then .ok (.yield (flag w 2)) else .error .reserved
  | 1 => if fld w 19 6 == 0 && fld w 7 6 == 0 && fld w 0 2 == 0 then .ok (.sleep (fld w 13 6) (flag w 2)) else .error .reserved
  | 2 => if fld w 19 6 == 0 && fld w 7 6 == 0 && fld w 0 2 == 0 then .ok (.wake (fld w 13 6) (flag w 2)) else .error .reserved
  | _ => .error .unassignedFn

/-- OP 0x7A: DLAUNCH. -/
noncomputable def decOp7A (w : W32) : Except DecodeError Instr :=
  if fld w 3 4 == 0 && fld w 0 2 == 0 then .ok (.dlaunch (fld w 19 6) (fld w 13 6) (fld w 7 6) (flag w 2)) else .error .reserved

/-- OP 0x7B: DJOIN. -/
noncomputable def decOp7B (w : W32) : Except DecodeError Instr :=
  if fld w 3 10 == 0 && fld w 0 2 == 0 then .ok (.djoin (fld w 19 6) (fld w 13 6) (flag w 2)) else .error .reserved

/-- OP 0x7C: PMARK. -/
noncomputable def decOp7C (w : W32) : Except DecodeError Instr :=
  if fld w 16 9 == 0 then .ok (.pmark (fld w 0 16)) else .error .reserved

/-- OP 0x7D: FRAMESYNC. -/
noncomputable def decOp7D (w : W32) : Except DecodeError Instr :=
  if fld w 0 25 == 0 then .ok (.framesync) else .error .reserved

/-- The OP field of a word (R67). -/
abbrev opOf (w : W32) : BitVec 7 := fld w 25 7

/-- The fields of a word and its literal under an OP, before the limits of WellFormed are checked. -/
noncomputable def decodeOp (op : Nat) (w lit : W32) : Except DecodeError Instr :=
  match op with
  | 0 => decOp00 w
  | 1 => decOp01 w
  | 2 => decOp02 w
  | 3 => decOp03 w
  | 4 => decOp04 w
  | 5 => decOp05 w lit
  | 6 => decOp06 w
  | 7 => decOp07 w
  | 8 => decOp08 w
  | 9 => decOp09 w
  | 10 => decOp0A w
  | 11 => decOp0B w
  | 12 => decOp0C w
  | 13 => decOp0D w lit
  | 14 => decOp0E w
  | 15 => decOp0F w
  | 16 => decOp10 w
  | 17 => decOp11 w
  | 18 => decOp12 w
  | 19 => decOp13 w
  | 20 => decOp14 w
  | 21 => decOp15 w
  | 22 => decOp16 w
  | 23 => decOp17 w
  | 32 => decOp20 w
  | 33 => decOp21 w
  | 34 => decOp22 w
  | 35 => decOp23 w
  | 36 => decOp24 w
  | 37 => decOp25 w
  | 38 => decOp26 w
  | 39 => decOp27 w
  | 40 => decOp28 w
  | 41 => decOp29 w lit
  | 42 => decOp2A w
  | 43 => decOp2B w
  | 44 => decOp2C w
  | 45 => decOp2D w
  | 46 => decOp2E w
  | 47 => decOp2F w
  | 48 => decOp30 w
  | 49 => decOp31 w
  | 50 => decOp32 w
  | 51 => decOp33 w
  | 52 => decOp34 w
  | 53 => decOp35 w
  | 54 => decOp36 w
  | 55 => decOp37 w
  | 56 => decOp38 w
  | 64 => decOp40 w
  | 65 => decOp41 w
  | 66 => decOp42 w
  | 67 => decOp43 w
  | 68 => decOp44 w
  | 69 => decOp45 w
  | 70 => decOp46 w
  | 71 => decOp47 w
  | 72 => decOp48 w
  | 73 => decOp49 w
  | 74 => decOp4A w
  | 75 => decOp4B w
  | 76 => decOp4C w
  | 77 => decOp4D w
  | 80 => decOp50 w
  | 81 => decOp51 w
  | 82 => decOp52 w
  | 83 => decOp53 w
  | 84 => decOp54 w
  | 85 => decOp55 w
  | 88 => decOp58 w
  | 89 => decOp59 w
  | 90 => decOp5A w
  | 91 => decOp5B w
  | 92 => decOp5C w
  | 93 => decOp5D w
  | 94 => decOp5E w
  | 95 => decOp5F w
  | 96 => decOp60 w
  | 97 => decOp61 w
  | 98 => decOp62 w
  | 99 => decOp63 w
  | 100 => decOp64 w
  | 101 => decOp65 w
  | 102 => decOp66 w
  | 103 => decOp67 w
  | 104 => decOp68 w
  | 105 => decOp69 w
  | 108 => decOp6C w
  | 109 => decOp6D w
  | 110 => decOp6E w
  | 111 => decOp6F w
  | 112 => decOp70 w
  | 113 => decOp71 w
  | 114 => decOp72 w
  | 115 => decOp73 w
  | 118 => decOp76 w
  | 119 => decOp77 w
  | 120 => decOp78 w
  | 121 => decOp79 w
  | 122 => decOp7A w
  | 123 => decOp7B w
  | 124 => decOp7C w
  | 125 => decOp7D w
  | _ => .error .unassignedOp

/-- The fields of a word and its literal as an instruction. -/
noncomputable def decodeRaw (w lit : W32) : Except DecodeError Instr := decodeOp (opOf w).toNat w lit

/-- Whether a word's OP takes a literal (R68). -/
def isLiteralOp (w : W32) : Bool := opOf w == 5#7 || opOf w == 13#7 || opOf w == 41#7

/-- One instruction from its first word and the word after it (R68, R86 step 3, R87). -/
noncomputable def decodeWords (w lit : W32) : Except DecodeError Instr :=
  match decodeRaw w lit with
  | .error e => .error e
  | .ok i =>
    match i.check with
    | some e => .error (.illFormed e)
    | none => .ok i

/-- A 32-bit word from the four bytes that hold it, the lowest address first (R14, R67). -/
def wordOfBytes (b0 b1 b2 b3 : Byte) : W32 := b3 ++ b2 ++ b1 ++ b0

/-- Decode the instruction at the head of a list of bytes, and say what follows it. -/
noncomputable def decode : List Byte → Except DecodeError (Instr × List Byte)
  | b0 :: b1 :: b2 :: b3 :: rest =>
    let w := wordOfBytes b0 b1 b2 b3
    if isLiteralOp w then
      match rest with
      | c0 :: c1 :: c2 :: c3 :: rest' =>
        match decodeWords w (wordOfBytes c0 c1 c2 c3) with
        | .ok i => .ok (i, rest')
        | .error e => .error e
      | _ => .error .short
    else
      match decodeWords w 0 with
      | .ok i => .ok (i, rest)
      | .error e => .error e
  | _ => .error .short

/-- The literal of a literal-bearing instruction. -/
def Instr.literal : Instr → Option W32
  | .smovl _ _ lit => some lit
  | .smovlz _ _ lit => some lit
  | .smovlh _ _ lit => some lit
  | .vmovl _ _ lit => some lit
  | .brcl _ _ _ lit => some lit
  | _ => none

/-- The first word of an instruction (R72, R90-R98); an event has none and answers 0. -/
def encodeWord : Instr → W32
  | .nop => 0#7 ++ 0#25
  | .sadd d a b g t => 1#7 ++ d ++ a ++ b ++ 0#4 ++ bit g ++ bit t ++ 0#1
  | .ssub d a b g t => 1#7 ++ d ++ a ++ b ++ 1#4 ++ bit g ++ bit t ++ 0#1
  | .smul d a b g t => 1#7 ++ d ++ a ++ b ++ 2#4 ++ bit g ++ bit t ++ 0#1
  | .smulh d a b g t => 1#7 ++ d ++ a ++ b ++ 3#4 ++ bit g ++ bit t ++ 0#1
  | .sand d a b g t => 1#7 ++ d ++ a ++ b ++ 4#4 ++ bit g ++ bit t ++ 0#1
  | .sor d a b g t => 1#7 ++ d ++ a ++ b ++ 5#4 ++ bit g ++ bit t ++ 0#1
  | .sxor d a b g t => 1#7 ++ d ++ a ++ b ++ 6#4 ++ bit g ++ bit t ++ 0#1
  | .sshl d a b g t => 1#7 ++ d ++ a ++ b ++ 7#4 ++ bit g ++ bit t ++ 0#1
  | .sshr d a b g t => 1#7 ++ d ++ a ++ b ++ 8#4 ++ bit g ++ bit t ++ 0#1
  | .ssar d a b g t => 1#7 ++ d ++ a ++ b ++ 9#4 ++ bit g ++ bit t ++ 0#1
  | .smin d a b g t => 1#7 ++ d ++ a ++ b ++ 10#4 ++ bit g ++ bit t ++ 0#1
  | .smax d a b g t => 1#7 ++ d ++ a ++ b ++ 11#4 ++ bit g ++ bit t ++ 0#1
  | .sminu d a b g t => 1#7 ++ d ++ a ++ b ++ 12#4 ++ bit g ++ bit t ++ 0#1
  | .smaxu d a b g t => 1#7 ++ d ++ a ++ b ++ 13#4 ++ bit g ++ bit t ++ 0#1
  | .sclz d a g t => 1#7 ++ d ++ a ++ 14#10 ++ bit g ++ bit t ++ 0#1
  | .spop d a g t => 1#7 ++ d ++ a ++ 15#10 ++ bit g ++ bit t ++ 0#1
  | .saddi d a imm g => 2#7 ++ d ++ a ++ imm ++ bit g
  | .scmpeq d a b g t => 3#7 ++ 0#3 ++ d ++ a ++ b ++ 0#4 ++ bit g ++ bit t ++ 0#1
  | .scmpne d a b g t => 3#7 ++ 0#3 ++ d ++ a ++ b ++ 1#4 ++ bit g ++ bit t ++ 0#1
  | .scmplt d a b g t => 3#7 ++ 0#3 ++ d ++ a ++ b ++ 2#4 ++ bit g ++ bit t ++ 0#1
  | .scmple d a b g t => 3#7 ++ 0#3 ++ d ++ a ++ b ++ 3#4 ++ bit g ++ bit t ++ 0#1
  | .scmpltu d a b g t => 3#7 ++ 0#3 ++ d ++ a ++ b ++ 4#4 ++ bit g ++ bit t ++ 0#1
  | .scmpleu d a b g t => 3#7 ++ 0#3 ++ d ++ a ++ b ++ 5#4 ++ bit g ++ bit t ++ 0#1
  | .scmpgt d a b g t => 3#7 ++ 0#3 ++ d ++ a ++ b ++ 6#4 ++ bit g ++ bit t ++ 0#1
  | .scmpge d a b g t => 3#7 ++ 0#3 ++ d ++ a ++ b ++ 7#4 ++ bit g ++ bit t ++ 0#1
  | .scmpgtu d a b g t => 3#7 ++ 0#3 ++ d ++ a ++ b ++ 8#4 ++ bit g ++ bit t ++ 0#1
  | .scmpgeu d a b g t => 3#7 ++ 0#3 ++ d ++ a ++ b ++ 9#4 ++ bit g ++ bit t ++ 0#1
  | .smovi d imm => 4#7 ++ d ++ 0#3 ++ imm
  | .sins16 d imm => 4#7 ++ d ++ 1#3 ++ imm
  | .sins32 d imm => 4#7 ++ d ++ 2#3 ++ imm
  | .sins48 d imm => 4#7 ++ d ++ 3#3 ++ imm
  | .smovl d g _ => 5#7 ++ d ++ 0#3 ++ 0#15 ++ bit g
  | .smovlz d g _ => 5#7 ++ d ++ 1#3 ++ 0#15 ++ bit g
  | .smovlh d g _ => 5#7 ++ d ++ 2#3 ++ 0#15 ++ bit g
  | .ssel d a b c g => 6#7 ++ d ++ a ++ b ++ c ++ bit g
  | .sdiv d a b g t => 7#7 ++ d ++ a ++ b ++ 0#4 ++ bit g ++ bit t ++ 0#1
  | .sdivu d a b g t => 7#7 ++ d ++ a ++ b ++ 1#4 ++ bit g ++ bit t ++ 0#1
  | .srem d a b g t => 7#7 ++ d ++ a ++ b ++ 2#4 ++ bit g ++ bit t ++ 0#1
  | .sremu d a b g t => 7#7 ++ d ++ a ++ b ++ 3#4 ++ bit g ++ bit t ++ 0#1
  | .pand d a b g => 8#7 ++ 0#3 ++ d ++ 0#3 ++ a ++ 0#3 ++ b ++ 0#4 ++ bit g ++ 0#2
  | .por d a b g => 8#7 ++ 0#3 ++ d ++ 0#3 ++ a ++ 0#3 ++ b ++ 1#4 ++ bit g ++ 0#2
  | .pxor d a b g => 8#7 ++ 0#3 ++ d ++ 0#3 ++ a ++ 0#3 ++ b ++ 2#4 ++ bit g ++ 0#2
  | .pandn d a b g => 8#7 ++ 0#3 ++ d ++ 0#3 ++ a ++ 0#3 ++ b ++ 3#4 ++ bit g ++ 0#2
  | .pnot d a g => 8#7 ++ 0#3 ++ d ++ 0#3 ++ a ++ 4#10 ++ bit g ++ 0#2
  | .pmov d a g => 8#7 ++ 0#3 ++ d ++ 0#3 ++ a ++ 5#10 ++ bit g ++ 0#2
  | .pset d g => 8#7 ++ 0#3 ++ d ++ 6#16 ++ bit g ++ 0#2
  | .pclr d g => 8#7 ++ 0#3 ++ d ++ 7#16 ++ bit g ++ 0#2
  | .pany d a g => 9#7 ++ d ++ 0#3 ++ a ++ 0#10 ++ bit g ++ 0#2
  | .pall d a g => 9#7 ++ d ++ 0#3 ++ a ++ 1#10 ++ bit g ++ 0#2
  | .ppop d a g => 9#7 ++ d ++ 0#3 ++ a ++ 2#10 ++ bit g ++ 0#2
  | .ptos d a g => 9#7 ++ d ++ 0#3 ++ a ++ 3#10 ++ bit g ++ 0#2
  | .stop d a g => 9#7 ++ 0#3 ++ d ++ a ++ 4#10 ++ bit g ++ 0#2
  | .br off => 10#7 ++ 0#3 ++ off
  | .brs a n off => 11#7 ++ a ++ bit n ++ off
  | .brc p n tgt rcd => 12#7 ++ p ++ bit n ++ tgt ++ rcd
  | .brcl p n tgt _ => 13#7 ++ p ++ bit n ++ tgt ++ 0#8
  | .call k off => 14#7 ++ k ++ off
  | .callr a k => 15#7 ++ 0#6 ++ a ++ 0#7 ++ k ++ 0#3
  | .ret => 16#7 ++ 0#25
  | .enter f => 17#7 ++ 0#21 ++ f
  | .loop last count => 18#7 ++ last ++ count ++ 0#1
  | .loopr last sc => 19#7 ++ last ++ 0#10 ++ sc ++ 0#1
  | .lbrk => 20#7 ++ 0#25
  | .exit g => 21#7 ++ 0#24 ++ bit g
  | .setmg imm => 22#7 ++ 0#21 ++ imm
  | .setmt imm => 22#7 ++ 64#15 ++ imm
  | .setmr imm => 22#7 ++ 1024#18 ++ imm
  | .setm d => 22#7 ++ d ++ 196608#19
  | .getm d => 23#7 ++ d ++ 0#19
  | .vadd d a b g t => 32#7 ++ d ++ a ++ b ++ 0#4 ++ bit g ++ bit t ++ 0#1
  | .vsub d a b g t => 32#7 ++ d ++ a ++ b ++ 1#4 ++ bit g ++ bit t ++ 0#1
  | .vmul d a b g t => 32#7 ++ d ++ a ++ b ++ 2#4 ++ bit g ++ bit t ++ 0#1
  | .vmulh d a b g t => 32#7 ++ d ++ a ++ b ++ 3#4 ++ bit g ++ bit t ++ 0#1
  | .vmulhu d a b g t => 32#7 ++ d ++ a ++ b ++ 4#4 ++ bit g ++ bit t ++ 0#1
  | .vmin d a b g t => 32#7 ++ d ++ a ++ b ++ 5#4 ++ bit g ++ bit t ++ 0#1
  | .vmax d a b g t => 32#7 ++ d ++ a ++ b ++ 6#4 ++ bit g ++ bit t ++ 0#1
  | .vabs d a g t => 32#7 ++ d ++ a ++ 7#10 ++ bit g ++ bit t ++ 0#1
  | .vneg d a g t => 32#7 ++ d ++ a ++ 8#10 ++ bit g ++ bit t ++ 0#1
  | .vabsdiff d a b g t => 32#7 ++ d ++ a ++ b ++ 9#4 ++ bit g ++ bit t ++ 0#1
  | .vavg d a b g t => 32#7 ++ d ++ a ++ b ++ 10#4 ++ bit g ++ bit t ++ 0#1
  | .vand d a b g t => 33#7 ++ d ++ a ++ b ++ 0#4 ++ bit g ++ bit t ++ 0#1
  | .vor d a b g t => 33#7 ++ d ++ a ++ b ++ 1#4 ++ bit g ++ bit t ++ 0#1
  | .vxor d a b g t => 33#7 ++ d ++ a ++ b ++ 2#4 ++ bit g ++ bit t ++ 0#1
  | .vandn d a b g t => 33#7 ++ d ++ a ++ b ++ 3#4 ++ bit g ++ bit t ++ 0#1
  | .vnot d a g t => 33#7 ++ d ++ a ++ 4#10 ++ bit g ++ bit t ++ 0#1
  | .vshl d a b g t => 33#7 ++ d ++ a ++ b ++ 5#4 ++ bit g ++ bit t ++ 0#1
  | .vshr d a b g t => 33#7 ++ d ++ a ++ b ++ 6#4 ++ bit g ++ bit t ++ 0#1
  | .vsar d a b g t => 33#7 ++ d ++ a ++ b ++ 7#4 ++ bit g ++ bit t ++ 0#1
  | .vrol d a b g t => 33#7 ++ d ++ a ++ b ++ 8#4 ++ bit g ++ bit t ++ 0#1
  | .vror d a b g t => 33#7 ++ d ++ a ++ b ++ 9#4 ++ bit g ++ bit t ++ 0#1
  | .vclz d a g t => 33#7 ++ d ++ a ++ 10#10 ++ bit g ++ bit t ++ 0#1
  | .vpop d a g t => 33#7 ++ d ++ a ++ 11#10 ++ bit g ++ bit t ++ 0#1
  | .vbrev d a g t => 33#7 ++ d ++ a ++ 12#10 ++ bit g ++ bit t ++ 0#1
  | .vimad d a b c g => 34#7 ++ d ++ a ++ b ++ c ++ bit g
  | .vbfe d a b g t => 35#7 ++ d ++ a ++ b ++ 0#4 ++ bit g ++ bit t ++ 0#1
  | .vbfes d a b g t => 35#7 ++ d ++ a ++ b ++ 1#4 ++ bit g ++ bit t ++ 0#1
  | .vbfi d a b c g => 36#7 ++ d ++ a ++ b ++ c ++ bit g
  | .vcmpeq d a b g t => 37#7 ++ 0#3 ++ d ++ a ++ b ++ 0#4 ++ bit g ++ bit t ++ 0#1
  | .vcmpne d a b g t => 37#7 ++ 0#3 ++ d ++ a ++ b ++ 1#4 ++ bit g ++ bit t ++ 0#1
  | .vcmplt d a b g t => 37#7 ++ 0#3 ++ d ++ a ++ b ++ 2#4 ++ bit g ++ bit t ++ 0#1
  | .vcmple d a b g t => 37#7 ++ 0#3 ++ d ++ a ++ b ++ 3#4 ++ bit g ++ bit t ++ 0#1
  | .vcmpltu d a b g t => 37#7 ++ 0#3 ++ d ++ a ++ b ++ 4#4 ++ bit g ++ bit t ++ 0#1
  | .vcmpleu d a b g t => 37#7 ++ 0#3 ++ d ++ a ++ b ++ 5#4 ++ bit g ++ bit t ++ 0#1
  | .vcmpgt d a b g t => 37#7 ++ 0#3 ++ d ++ a ++ b ++ 6#4 ++ bit g ++ bit t ++ 0#1
  | .vcmpge d a b g t => 37#7 ++ 0#3 ++ d ++ a ++ b ++ 7#4 ++ bit g ++ bit t ++ 0#1
  | .vcmpgtu d a b g t => 37#7 ++ 0#3 ++ d ++ a ++ b ++ 8#4 ++ bit g ++ bit t ++ 0#1
  | .vcmpgeu d a b g t => 37#7 ++ 0#3 ++ d ++ a ++ b ++ 9#4 ++ bit g ++ bit t ++ 0#1
  | .vsel d a b c g => 38#7 ++ d ++ a ++ b ++ 0#3 ++ c ++ bit g
  | .vmov d a g t => 39#7 ++ d ++ a ++ 0#10 ++ bit g ++ bit t ++ 0#1
  | .vbcast d a g t => 39#7 ++ d ++ a ++ 1#10 ++ bit g ++ bit t ++ 0#1
  | .vtos d a b g t => 39#7 ++ d ++ a ++ b ++ 2#4 ++ bit g ++ bit t ++ 0#1
  | .stov d a b g t => 39#7 ++ d ++ a ++ b ++ 3#4 ++ bit g ++ bit t ++ 0#1
  | .vrdout d n g t => 39#7 ++ d ++ n ++ 6#10 ++ bit g ++ bit t ++ 0#1
  | .vwrout n a g t => 39#7 ++ n ++ a ++ 7#10 ++ bit g ++ bit t ++ 0#1
  | .vmovi d imm g => 40#7 ++ d ++ 0#6 ++ imm ++ bit g
  | .vmovl d g _ => 41#7 ++ d ++ 0#18 ++ bit g
  | .vdiv d a b g t => 42#7 ++ d ++ a ++ b ++ 0#4 ++ bit g ++ bit t ++ 0#1
  | .vrem d a b g t => 42#7 ++ d ++ a ++ b ++ 1#4 ++ bit g ++ bit t ++ 0#1
  | .vcvt d a g => 43#7 ++ d ++ a ++ 0#10 ++ bit g ++ 0#2
  | .vrndi d a g => 43#7 ++ d ++ a ++ 1#10 ++ bit g ++ 0#2
  | .vpack d a b g => 43#7 ++ d ++ a ++ b ++ 2#4 ++ bit g ++ 0#2
  | .vunpkl d a g => 43#7 ++ d ++ a ++ 3#10 ++ bit g ++ 0#2
  | .vunpkh d a g => 43#7 ++ d ++ a ++ 4#10 ++ bit g ++ 0#2
  | .fadd d a b g t => 44#7 ++ d ++ a ++ b ++ 0#4 ++ bit g ++ bit t ++ 0#1
  | .fsub d a b g t => 44#7 ++ d ++ a ++ b ++ 1#4 ++ bit g ++ bit t ++ 0#1
  | .fmul d a b g t => 44#7 ++ d ++ a ++ b ++ 2#4 ++ bit g ++ bit t ++ 0#1
  | .fmin d a b g t => 44#7 ++ d ++ a ++ b ++ 3#4 ++ bit g ++ bit t ++ 0#1
  | .fmax d a b g t => 44#7 ++ d ++ a ++ b ++ 4#4 ++ bit g ++ bit t ++ 0#1
  | .fabs d a g t => 44#7 ++ d ++ a ++ 5#10 ++ bit g ++ bit t ++ 0#1
  | .fneg d a g t => 44#7 ++ d ++ a ++ 6#10 ++ bit g ++ bit t ++ 0#1
  | .fcopysign d a b g t => 44#7 ++ d ++ a ++ b ++ 7#4 ++ bit g ++ bit t ++ 0#1
  | .fscale d a b g t => 44#7 ++ d ++ a ++ b ++ 8#4 ++ bit g ++ bit t ++ 0#1
  | .ffma d a b c g => 45#7 ++ d ++ a ++ b ++ c ++ bit g
  | .fcmpeq d a b g t => 46#7 ++ 0#3 ++ d ++ a ++ b ++ 0#4 ++ bit g ++ bit t ++ 0#1
  | .fcmpne d a b g t => 46#7 ++ 0#3 ++ d ++ a ++ b ++ 1#4 ++ bit g ++ bit t ++ 0#1
  | .fcmplt d a b g t => 46#7 ++ 0#3 ++ d ++ a ++ b ++ 2#4 ++ bit g ++ bit t ++ 0#1
  | .fcmple d a b g t => 46#7 ++ 0#3 ++ d ++ a ++ b ++ 3#4 ++ bit g ++ bit t ++ 0#1
  | .fcmpgt d a b g t => 46#7 ++ 0#3 ++ d ++ a ++ b ++ 4#4 ++ bit g ++ bit t ++ 0#1
  | .fcmpge d a b g t => 46#7 ++ 0#3 ++ d ++ a ++ b ++ 5#4 ++ bit g ++ bit t ++ 0#1
  | .fcmpueq d a b g t => 46#7 ++ 0#3 ++ d ++ a ++ b ++ 6#4 ++ bit g ++ bit t ++ 0#1
  | .fcmpune d a b g t => 46#7 ++ 0#3 ++ d ++ a ++ b ++ 7#4 ++ bit g ++ bit t ++ 0#1
  | .fcmpult d a b g t => 46#7 ++ 0#3 ++ d ++ a ++ b ++ 8#4 ++ bit g ++ bit t ++ 0#1
  | .fcmpule d a b g t => 46#7 ++ 0#3 ++ d ++ a ++ b ++ 9#4 ++ bit g ++ bit t ++ 0#1
  | .fcmpugt d a b g t => 46#7 ++ 0#3 ++ d ++ a ++ b ++ 10#4 ++ bit g ++ bit t ++ 0#1
  | .fcmpuge d a b g t => 46#7 ++ 0#3 ++ d ++ a ++ b ++ 11#4 ++ bit g ++ bit t ++ 0#1
  | .fcmpord d a b g t => 46#7 ++ 0#3 ++ d ++ a ++ b ++ 12#4 ++ bit g ++ bit t ++ 0#1
  | .fcmpunord d a b g t => 46#7 ++ 0#3 ++ d ++ a ++ b ++ 13#4 ++ bit g ++ bit t ++ 0#1
  | .frcp d a g t => 47#7 ++ d ++ a ++ 0#10 ++ bit g ++ bit t ++ 0#1
  | .frsq d a g t => 47#7 ++ d ++ a ++ 1#10 ++ bit g ++ bit t ++ 0#1
  | .fsqrt d a g t => 47#7 ++ d ++ a ++ 2#10 ++ bit g ++ bit t ++ 0#1
  | .fexp2 d a g t => 47#7 ++ d ++ a ++ 3#10 ++ bit g ++ bit t ++ 0#1
  | .flog2 d a g t => 47#7 ++ d ++ a ++ 4#10 ++ bit g ++ bit t ++ 0#1
  | .fsin d a g t => 47#7 ++ d ++ a ++ 5#10 ++ bit g ++ bit t ++ 0#1
  | .fcos d a g t => 47#7 ++ d ++ a ++ 6#10 ++ bit g ++ bit t ++ 0#1
  | .ftanh d a g t => 47#7 ++ d ++ a ++ 7#10 ++ bit g ++ bit t ++ 0#1
  | .ffract d a g t => 47#7 ++ d ++ a ++ 8#10 ++ bit g ++ bit t ++ 0#1
  | .fclass d a g t => 47#7 ++ d ++ a ++ 9#10 ++ bit g ++ bit t ++ 0#1
  | .fdiv d a b g t => 47#7 ++ d ++ a ++ b ++ 10#4 ++ bit g ++ bit t ++ 0#1
  | .fdot d a b c g => 48#7 ++ d ++ a ++ b ++ c ++ bit g
  | .lshuf d a b g t => 49#7 ++ d ++ a ++ b ++ 0#4 ++ bit g ++ bit t ++ 0#1
  | .lrot d a b g t => 49#7 ++ d ++ a ++ b ++ 1#4 ++ bit g ++ bit t ++ 0#1
  | .lxorl d a b g t => 49#7 ++ d ++ a ++ b ++ 2#4 ++ bit g ++ bit t ++ 0#1
  | .lup d a b g t => 49#7 ++ d ++ a ++ b ++ 3#4 ++ bit g ++ bit t ++ 0#1
  | .ldown d a b g t => 49#7 ++ d ++ a ++ b ++ 4#4 ++ bit g ++ bit t ++ 0#1
  | .lbcast d a b g t => 49#7 ++ d ++ a ++ b ++ 5#4 ++ bit g ++ bit t ++ 0#1
  | .lrotw d a b g t => 49#7 ++ d ++ a ++ b ++ 6#4 ++ bit g ++ bit t ++ 0#1
  | .lredadd d a g t => 50#7 ++ d ++ a ++ 0#10 ++ bit g ++ bit t ++ 0#1
  | .lredmin d a g t => 50#7 ++ d ++ a ++ 1#10 ++ bit g ++ bit t ++ 0#1
  | .lredmax d a g t => 50#7 ++ d ++ a ++ 2#10 ++ bit g ++ bit t ++ 0#1
  | .lredand d a g t => 50#7 ++ d ++ a ++ 3#10 ++ bit g ++ bit t ++ 0#1
  | .lredor d a g t => 50#7 ++ d ++ a ++ 4#10 ++ bit g ++ bit t ++ 0#1
  | .lredxor d a g t => 50#7 ++ d ++ a ++ 5#10 ++ bit g ++ bit t ++ 0#1
  | .lredfadd d a g t => 50#7 ++ d ++ a ++ 6#10 ++ bit g ++ bit t ++ 0#1
  | .lredfmin d a g t => 50#7 ++ d ++ a ++ 7#10 ++ bit g ++ bit t ++ 0#1
  | .lredfmax d a g t => 50#7 ++ d ++ a ++ 8#10 ++ bit g ++ bit t ++ 0#1
  | .lscanadd d a g t => 51#7 ++ d ++ a ++ 0#10 ++ bit g ++ bit t ++ 0#1
  | .lscanmin d a g t => 51#7 ++ d ++ a ++ 1#10 ++ bit g ++ bit t ++ 0#1
  | .lscanmax d a g t => 51#7 ++ d ++ a ++ 2#10 ++ bit g ++ bit t ++ 0#1
  | .lscanand d a g t => 51#7 ++ d ++ a ++ 3#10 ++ bit g ++ bit t ++ 0#1
  | .lscanor d a g t => 51#7 ++ d ++ a ++ 4#10 ++ bit g ++ bit t ++ 0#1
  | .lscanxor d a g t => 51#7 ++ d ++ a ++ 5#10 ++ bit g ++ bit t ++ 0#1
  | .lscanfadd d a g t => 51#7 ++ d ++ a ++ 6#10 ++ bit g ++ bit t ++ 0#1
  | .lxscanadd d a g t => 51#7 ++ d ++ a ++ 8#10 ++ bit g ++ bit t ++ 0#1
  | .lxscanmin d a g t => 51#7 ++ d ++ a ++ 9#10 ++ bit g ++ bit t ++ 0#1
  | .lxscanmax d a g t => 51#7 ++ d ++ a ++ 10#10 ++ bit g ++ bit t ++ 0#1
  | .lxscanand d a g t => 51#7 ++ d ++ a ++ 11#10 ++ bit g ++ bit t ++ 0#1
  | .lxscanor d a g t => 51#7 ++ d ++ a ++ 12#10 ++ bit g ++ bit t ++ 0#1
  | .lxscanxor d a g t => 51#7 ++ d ++ a ++ 13#10 ++ bit g ++ bit t ++ 0#1
  | .lxscanfadd d a g t => 51#7 ++ d ++ a ++ 14#10 ++ bit g ++ bit t ++ 0#1
  | .lballot d a g => 52#7 ++ d ++ 0#3 ++ a ++ 0#10 ++ bit g ++ 0#2
  | .lmatch d a g t => 52#7 ++ d ++ a ++ 1#10 ++ bit g ++ bit t ++ 0#1
  | .xsend d a b g => 53#7 ++ 0#2 ++ d ++ a ++ b ++ 0#4 ++ bit g ++ 0#2
  | .xrecv d a b g => 54#7 ++ d ++ 0#2 ++ a ++ b ++ 0#4 ++ bit g ++ 0#2
  | .regroup d a b g => 55#7 ++ d ++ a ++ b ++ 0#4 ++ bit g ++ 0#2
  | .vlane d g => 56#7 ++ d ++ 0#16 ++ bit g ++ 0#2
  | .ld d a b sc ord g t => 64#7 ++ d ++ a ++ b ++ sc ++ ord ++ bit g ++ bit t
  | .st d a b sc ord g t => 65#7 ++ d ++ a ++ b ++ sc ++ ord ++ bit g ++ bit t
  | .ldu d a b sc ord g t => 66#7 ++ d ++ a ++ b ++ sc ++ ord ++ bit g ++ bit t
  | .stu d a b sc ord g t => 67#7 ++ d ++ a ++ b ++ sc ++ ord ++ bit g ++ bit t
  | .ldh d a b sc ord g t => 68#7 ++ d ++ a ++ b ++ sc ++ ord ++ bit g ++ bit t
  | .sth d a b sc ord g t => 69#7 ++ d ++ a ++ b ++ sc ++ ord ++ bit g ++ bit t
  | .atom d a b aop sc => 70#7 ++ d ++ a ++ b ++ aop ++ sc
  | .atoma d a b aop sc => 71#7 ++ d ++ a ++ b ++ aop ++ sc
  | .red a b aop sc => 72#7 ++ 0#6 ++ a ++ b ++ aop ++ sc
  | .atomh d a b aop sc => 73#7 ++ d ++ a ++ b ++ aop ++ sc
  | .talloc d a g => 74#7 ++ d ++ a ++ 0#10 ++ bit g ++ 0#2
  | .tfree a g => 74#7 ++ 0#6 ++ a ++ 1#10 ++ bit g ++ 0#2
  | .tinfo d g => 74#7 ++ d ++ 2#16 ++ bit g ++ 0#2
  | .wait ld st cp tl => 75#7 ++ ld ++ st ++ cp ++ tl ++ 0#1
  | .waitrld a g => 76#7 ++ 0#6 ++ a ++ 0#10 ++ bit g ++ 0#2
  | .waitrst a g => 76#7 ++ 0#6 ++ a ++ 1#10 ++ bit g ++ 0#2
  | .waitrcp a g => 76#7 ++ 0#6 ++ a ++ 2#10 ++ bit g ++ 0#2
  | .waitrtl a g => 76#7 ++ 0#6 ++ a ++ 3#10 ++ bit g ++ 0#2
  | .pfl1 a b g => 77#7 ++ 0#6 ++ a ++ b ++ 0#4 ++ bit g ++ 0#2
  | .pfllc a b g => 77#7 ++ 0#6 ++ a ++ b ++ 1#4 ++ bit g ++ 0#2
  | .cwb a b g => 77#7 ++ 0#6 ++ a ++ b ++ 2#4 ++ bit g ++ 0#2
  | .cinv a b g => 77#7 ++ 0#6 ++ a ++ b ++ 3#4 ++ bit g ++ 0#2
  | .icinv n g => 77#7 ++ 0#12 ++ n ++ 4#4 ++ bit g ++ 0#2
  | .fence sc g => 80#7 ++ 0#18 ++ sc ++ bit g ++ 0#2
  | .binit a b g => 81#7 ++ 0#6 ++ a ++ b ++ 0#4 ++ bit g ++ 0#2
  | .barv a g => 82#7 ++ 0#6 ++ a ++ 0#10 ++ bit g ++ 0#2
  | .barvx a b g => 82#7 ++ 0#6 ++ a ++ b ++ 1#4 ++ bit g ++ 0#2
  | .barvd a g => 82#7 ++ 0#6 ++ a ++ 2#10 ++ bit g ++ 0#2
  | .bwait a b g => 83#7 ++ 0#6 ++ a ++ b ++ 0#4 ++ bit g ++ 0#2
  | .btest d a b g => 83#7 ++ 0#3 ++ d ++ a ++ b ++ 1#4 ++ bit g ++ 0#2
  | .cbara g => 84#7 ++ 0#22 ++ bit g ++ 0#2
  | .cbarw g => 84#7 ++ 1#22 ++ bit g ++ 0#2
  | .cbar g => 84#7 ++ 2#22 ++ bit g ++ 0#2
  | .wgbar g => 85#7 ++ 0#22 ++ bit g ++ 0#2
  | .wgbara g => 85#7 ++ 1#22 ++ bit g ++ 0#2
  | .wgbarw g => 85#7 ++ 2#22 ++ bit g ++ 0#2
  | .txbegin sc fb off => 88#7 ++ sc ++ bit fb ++ off
  | .txend => 89#7 ++ 0#25
  | .txabort code g => 90#7 ++ 0#18 ++ code ++ bit g ++ 0#2
  | .txstat d g => 91#7 ++ d ++ 0#16 ++ bit g ++ 0#2
  | .txcause d g => 91#7 ++ d ++ 1#16 ++ bit g ++ 0#2
  | .cpld a b g => 92#7 ++ 0#6 ++ a ++ b ++ 0#6 ++ bit g ++ 0#2
  | .cpst a b g => 92#7 ++ 0#6 ++ a ++ b ++ 1#6 ++ bit g ++ 0#2
  | .cpred a b g => 92#7 ++ 0#6 ++ a ++ b ++ 2#6 ++ bit g ++ 0#2
  | .cpg a b g => 92#7 ++ 0#6 ++ a ++ b ++ 3#6 ++ bit g ++ 0#2
  | .cpc a b g => 93#7 ++ 0#6 ++ a ++ b ++ 0#6 ++ bit g ++ 0#2
  | .cpw a b g => 94#7 ++ 0#6 ++ a ++ b ++ 0#6 ++ bit g ++ 0#2
  | .cpq d a g => 95#7 ++ d ++ a ++ 0#10 ++ bit g ++ 0#2
  | .cpcan a g => 95#7 ++ 0#6 ++ a ++ 1#10 ++ bit g ++ 0#2
  | .tcfg d a g => 96#7 ++ 0#3 ++ d ++ a ++ 0#10 ++ bit g ++ 0#2
  | .tld d a b g => 97#7 ++ 0#3 ++ d ++ a ++ b ++ 0#4 ++ bit g ++ 0#2
  | .tst d a b g => 98#7 ++ 0#3 ++ d ++ a ++ b ++ 0#4 ++ bit g ++ 0#2
  | .tzero d g => 99#7 ++ 0#3 ++ d ++ 0#16 ++ bit g ++ 0#2
  | .azero d g => 99#7 ++ 0#4 ++ d ++ 1#16 ++ bit g ++ 0#2
  | .mma d a b g => 100#7 ++ 0#4 ++ d ++ 0#3 ++ a ++ 0#3 ++ b ++ 0#4 ++ bit g ++ 0#2
  | .mmap d a b g => 101#7 ++ 0#4 ++ d ++ 0#3 ++ a ++ 0#3 ++ b ++ 0#4 ++ bit g ++ 0#2
  | .mmapF d a b g => 101#7 ++ 0#4 ++ d ++ 0#3 ++ a ++ 0#3 ++ b ++ 1#4 ++ bit g ++ 0#2
  | .mmag d a b g => 102#7 ++ 0#4 ++ d ++ 0#3 ++ a ++ b ++ 0#4 ++ bit g ++ 0#2
  | .tmovv d a b g => 103#7 ++ d ++ 0#4 ++ a ++ b ++ 0#4 ++ bit g ++ 0#2
  | .tcvt d a g => 104#7 ++ 0#3 ++ d ++ 0#4 ++ a ++ 0#10 ++ bit g ++ 0#2
  | .tlds d a b g => 105#7 ++ 0#3 ++ d ++ a ++ b ++ 0#4 ++ bit g ++ 0#2
  | .msemitv a b g => 108#7 ++ 0#6 ++ a ++ b ++ 0#4 ++ bit g ++ 0#2
  | .msemitp a b g => 108#7 ++ 0#6 ++ a ++ b ++ 1#4 ++ bit g ++ 0#2
  | .vamp a g => 109#7 ++ 0#6 ++ a ++ 0#10 ++ bit g ++ 0#2
  | .gaze d a g => 110#7 ++ d ++ a ++ 0#10 ++ bit g ++ 0#2
  | .rtfetch d a g => 111#7 ++ d ++ a ++ 0#10 ++ bit g ++ 0#2
  | .tex d a b g => 112#7 ++ d ++ a ++ b ++ 0#4 ++ bit g ++ 0#2
  | .texl d a b g => 112#7 ++ d ++ a ++ b ++ 1#4 ++ bit g ++ 0#2
  | .texg d a b g => 112#7 ++ d ++ a ++ b ++ 2#4 ++ bit g ++ 0#2
  | .texf d a b g => 112#7 ++ d ++ a ++ b ++ 3#4 ++ bit g ++ 0#2
  | .texq d a b g => 112#7 ++ d ++ a ++ b ++ 4#4 ++ bit g ++ 0#2
  | .rayl d a b g => 113#7 ++ d ++ a ++ b ++ 0#4 ++ bit g ++ 0#2
  | .raylw d a b g => 113#7 ++ d ++ a ++ b ++ 1#4 ++ bit g ++ 0#2
  | .rayr d a g => 114#7 ++ d ++ a ++ 0#10 ++ bit g ++ 0#2
  | .vtdone d a g => 115#7 ++ d ++ a ++ 0#10 ++ bit g ++ 0#2
  | .csrr d csr => 118#7 ++ d ++ 0#7 ++ csr
  | .csrw d csr => 118#7 ++ d ++ 16#7 ++ csr
  | .csrs d csr => 118#7 ++ d ++ 32#7 ++ csr
  | .csrc d csr => 118#7 ++ d ++ 48#7 ++ csr
  | .trap imm => 119#7 ++ 0#9 ++ imm
  | .brk imm => 119#7 ++ 1#9 ++ imm
  | .rett => 120#7 ++ 0#25
  | .yield g => 121#7 ++ 0#22 ++ bit g ++ 0#2
  | .sleep a g => 121#7 ++ 0#6 ++ a ++ 1#10 ++ bit g ++ 0#2
  | .wake a g => 121#7 ++ 0#6 ++ a ++ 2#10 ++ bit g ++ 0#2
  | .dlaunch d a b g => 122#7 ++ d ++ a ++ b ++ 0#4 ++ bit g ++ 0#2
  | .djoin d a g => 123#7 ++ d ++ a ++ 0#10 ++ bit g ++ 0#2
  | .pmark imm => 124#7 ++ 0#9 ++ imm
  | .framesync => 125#7 ++ 0#25
  | _ => 0

/-- The words of an instruction: one, or two where it bears a literal; an event has none. -/
def encode (i : Instr) : List W32 :=
  if i.isEvent then []
  else match i.literal with
    | some l => [encodeWord i, l]
    | none => [encodeWord i]

/-- The four bytes of a word, the lowest address first (R14). -/
def bytesOfWord (w : W32) : List Byte := [fld w 0 8, fld w 8 8, fld w 16 8, fld w 24 8]

/-- The bytes of an instruction as memory holds them. -/
def encodeBytes (i : Instr) : List Byte := (encode i).flatMap bytesOfWord

/-- The bytes of an instruction whose bits are `w`, numbered from the first word's least significant bit; every
bit at and above `nbits` is zero, up to the longest instruction (two words). -/
def tableBytes (nbits w : Nat) : List Byte :=
  let v : BitVec 64 := BitVec.ofNat 64 (w % 2 ^ nbits)
  bytesOfWord (v.extractLsb' 0 32) ++ bytesOfWord (v.extractLsb' 32 32)

/-- The instruction that the decoder reads from an opcode-table word. -/
noncomputable def decodeTableWord (nbits w : Nat) : Option Instr :=
  match decode (tableBytes nbits w) with
  | .ok (i, _) => some i
  | .error _ => none

end Sys2Proof
end

