-- ==== Sys2Proof/Machine/Sparse.lean ====
section
/-! DEFINITION. Sparse data by key in one canonical form: a list of key and value pairs, keys strictly rising, and
no entry equal to what an unlisted key reads as. Memory, scratch, registers and tables of units are held so. -/

namespace Sys2Proof.Machine

/-- What key `k` reads as; `d` where it is not listed. -/
def look {α : Type} (d : α) : List (Nat × α) → Nat → α
  | [], _ => d
  | e :: m, k => if k = e.1 then e.2 else look d m k

/-- List `a` at key `k`, in rising order, in place of any entry there. -/
def ins {α : Type} : List (Nat × α) → Nat → α → List (Nat × α)
  | [], k, a => [(k, a)]
  | e :: m, k, a => if k < e.1 then (k, a) :: e :: m else if k = e.1 then (k, a) :: m else e :: ins m k a

/-- Drop every entry at key `k`. -/
def del {α : Type} : List (Nat × α) → Nat → List (Nat × α)
  | [], _ => []
  | e :: m, k => if k = e.1 then del m k else e :: del m k

/-- Write `a` at key `k`, keeping the canonical form for the default `d`. -/
def put {α : Type} [DecidableEq α] (d : α) (m : List (Nat × α)) (k : Nat) (a : α) : List (Nat × α) :=
  if a = d then del m k else ins m k a

/-- Change what key `k` reads as. -/
def upd {α : Type} [DecidableEq α] (d : α) (m : List (Nat × α)) (k : Nat) (f : α → α) : List (Nat × α) :=
  put d m k (f (look d m k))

/-- Keys strictly rising from `lo` on, and no entry equal to the default. -/
def canonFrom {α : Type} [DecidableEq α] (d : α) : Nat → List (Nat × α) → Bool
  | _, [] => true
  | lo, e :: m => decide (lo ≤ e.1) && !decide (e.2 = d) && canonFrom d (e.1 + 1) m

/-- The canonical form of a sparse map with default `d`. -/
def canon {α : Type} [DecidableEq α] (d : α) (m : List (Nat × α)) : Bool := canonFrom d 0 m

end Sys2Proof.Machine
end

