-- ==== Sys2Proof/Machine/State.lean ====
section
/-! DEFINITION. The state of the YL960 as plain data: every piece of state that the manual gives the device, the
agenda that says which agent moves next, and the state after reset. Tables of units are sparse maps (Sparse.lean)
whose unlisted entries read as the default of their type. -/

namespace Sys2Proof.Machine

/-! ### Values that carry poison (R202) -/

/-- One lane of a vector register: 32 bits and their poison mark. -/
structure LW where
  bits : W32 := 0
  bad : Bool := false
deriving DecidableEq, Repr

/-- A scalar register: 64 bits and one poison mark. -/
structure SW where
  bits : W64 := 0
  bad : Bool := false
deriving DecidableEq, Repr

/-! ### Paths and the frame stack (R32, R51-R53) -/

/-- A hardware loop level (R52, R56). -/
structure Loop where
  active : Bool := false
  start : W64 := 0
  count : W32 := 0
  len : Nat := 0
deriving DecidableEq, Repr

/-- The state of a slot or of a stacked path (R32). -/
inductive PathSt where
  | empty
  | running
  | waiting
deriving DecidableEq, Repr

/-- All ones: no reconvergence entry (R33). -/
def noEntry : W64 := BitVec.allOnes 64

/-- MODE at placement and at trap entry (R31, R79, R339). -/
def modeReset : W32 := 0x00000EC0#32

/-- The record of a path whose read at the restore has failed (R49, R53): its byte offset in the record area, the AGE that its
copy in memory was made with, and the address of a failure that is still to be reported. Once it is reported the FSE reads the
record again, when the path is next on turn. -/
structure Lost where
  off : Nat := 0
  base : Nat := 0
  failed : Option W64 := none
deriving DecidableEq, Repr

/-- A path: the contents of a slot or of a SPLIT record (R32). -/
structure Path where
  st : PathSt := .empty
  pc : W64 := 0
  frp : W32 := 0xFFFFFFFF#32
  wbase : Nat := 0
  fdepth : Nat := 0
  fsize : Nat := 8
  mode : W32 := modeReset
  age : Nat := 0
  enter : Bool := false
  parked : Bool := false
  /-- The path has issued in this cycle (R40). -/
  ran : Bool := false
  /-- The stall code of the path's instruction, as it was last examined (R364). -/
  stall : Option Nat := none
  /-- The window that the path's instruction, which stalls on the FSE, is to give it (R48). -/
  want : Option (Nat × Nat) := none
  /-- The path has become WAITING, or has entered a slot as WAITING, while the top SPLIT record could not be read: the merge
  is still to be sought and, with `true`, the exchange still to be made (R36, R37, R49). -/
  owed : Option Bool := none
  /-- The path's record, which the FSE failed to read: the path's first instruction reports it, and the path goes on once the
  record has been read (R49, R53). -/
  lost : Option Lost := none
  mask : Mask := 0
  r0 : W64 := noEntry
  r1 : W64 := noEntry
  r2 : W64 := noEntry
  r3 : W64 := noEntry
  lc0 : Loop := {}
  lc1 : Loop := {}
  lc2 : Loop := {}
deriving DecidableEq, Repr

/-- A CALL record's contents (R52). `scal` holds s48 to s63. -/
structure CallRec where
  retpc : W64 := 0
  prev : W32 := 0xFFFFFFFF#32
  wbase : Nat := 0
  fdepth : Nat := 0
  fsize : Nat := 8
  mode : W32 := modeReset
  splitRet : Bool := false
  pmask : Mask := 0
  r0 : W64 := noEntry
  r1 : W64 := noEntry
  r2 : W64 := noEntry
  r3 : W64 := noEntry
  lc0 : Loop := {}
  lc1 : Loop := {}
  lc2 : Loop := {}
  scal : List SW := []
deriving DecidableEq, Repr

/-- What a record of the record area holds (R51). -/
inductive RecBody where
  | split (p : Path)
  | call (c : CallRec)
deriving DecidableEq, Repr

/-- A record at its byte offset from FSBASE; `order` says which was pushed earlier, and `inMem` that FRAMESYNC has
made the memory copy current, so that a handler's change to it takes effect at its restore (R53, R349); `aged` is by how
much a stacked path's AGE has risen since that copy was made (R40), and `shut` that its page is not resident, so that the FSE
cannot restore it now (R49). -/
structure Rec where
  off : Nat := 0
  order : Nat := 0
  inMem : Bool := false
  aged : Nat := 0
  shut : Bool := false
  body : RecBody := .split {}
deriving DecidableEq, Repr

/-! ### Outstanding memory operations (R203-R205, R225) -/

/-- The counter that an operation holds raised (R203). -/
inductive OpClass where
  | ld
  | st
deriving DecidableEq, Repr

/-- What one pending access does at its home (R225). -/
inductive AccKind where
  | read
  | write
  | atomic (aop : Nat) (ty : Nat)
  /-- A RED, which returns nothing. -/
  | reduce (aop : Nat) (ty : Nat)
  | writeBack
deriving DecidableEq, Repr

/-- One pending access: `slot` places its result, `key` is the memory key of its first byte, `x` and `y` are its
data or atomic operands, and `l1` says that the page may be cached in the L1 (R181). -/
structure Acc where
  slot : Nat := 0
  kind : AccKind := .read
  key : Nat := 0
  size : Nat := 4
  x : W64 := 0
  y : W64 := 0
  bad : Bool := false
  l1 : Bool := true
deriving DecidableEq, Repr

/-- A result that has come back for a place of an operation. -/
structure Got where
  slot : Nat := 0
  val : W64 := 0
  bad : Bool := false
deriving DecidableEq, Repr

/-- One weighted texel of a filtered sample: the place of the access that reads it, and its weight as a fraction
(R332). -/
structure Tap where
  acc : Nat := 0
  num : Nat := 0
  den : Nat := 1
deriving DecidableEq, Repr

/-- Where a finished operation writes its results (R205). Registers are absolute (R43). -/
inductive Dest where
  /-- Nothing is written. -/
  | none
  /-- Lane `slot` of absolute register `x` (a pair for 8 bytes), extended as the type states (R111). -/
  | vec (x : Nat) (size : Nat) (signed : Bool)
  /-- Scalar register `d` (R208). -/
  | scalar (d : Nat) (size : Nat) (signed : Bool)
  /-- Four registers from `x`: filtered texels; each entry is a lane with its four outputs, each a channel (4 for the
  constant 1) and its taps (R332, R334). -/
  | tex (x : Nat) (fmt : Nat) (lanes : List (Nat × List (Nat × List Tap)))
  /-- Registers from `x` with values known at issue: each entry is a lane and its words (R330, R334). -/
  | vals (x : Nat) (lanes : List (Nat × List LW))
deriving DecidableEq, Repr

/-- An issued memory operation that has not been forgotten (R204): the accesses still to be performed, the results
that have come back, and whether it is complete. -/
structure MemOp where
  seq : Nat := 0
  cls : OpClass := .ld
  acq : Bool := false
  rel : Bool := false
  drop : Bool := false
  wait : Bool := false
  /-- An IRREVOCABLE lane makes accesses of it: their writes keep the program order of the group (R260). -/
  irr : Bool := false
  todo : List Acc := []
  got : List Got := []
  dst : Dest := .none
  done : Bool := false
deriving DecidableEq, Repr

/-! ### Transactions (R242-R263) -/

/-- A lane's transaction state (R242). -/
inductive TxSt where
  | none
  | active
  | aborted
  | irrevocable
deriving DecidableEq, Repr

/-- A log entry: a naturally aligned 8-byte word by its memory key, its value and, in a write log, the bytes that
the lane has written (R244, R246). -/
structure LogEntry where
  key : Nat := 0
  val : W64 := 0
  bad : Bool := false
  bytes : BitVec 8 := 0
deriving DecidableEq, Repr

/-- The transaction state of one lane (R242, R246, R257). -/
structure TxLane where
  st : TxSt := .none
  cause : Nat := 0
  code : Nat := 0
  irr : Bool := false
  lost : Bool := false
  stat : Bool := false
  rlog : List LogEntry := []
  wlog : List LogEntry := []
deriving DecidableEq, Repr

/-- The group record (R242). -/
structure TxGroup where
  target : W64 := 0
  sc : Nat := 0
  fb : Bool := false
  depth : Nat := 0
deriving DecidableEq, Repr

/-- A Tabard: a cluster's, a die's or the device's (R259). -/
inductive Domain where
  | cluster (c : Nat)
  | die (d : Nat)
  | device
deriving DecidableEq, Repr

/-- A Tabard's holder and line set, and the requests in their order of arrival (R259, R260). -/
structure Tabard where
  dom : Domain := .device
  holder : Option Nat := .none
  lines : List Nat := []
  queue : List Nat := []
deriving DecidableEq, Repr

/-! ### Traps (R336-R342) -/

/-- A trap that an instruction has raised (R339, R342). -/
structure TrapInfo where
  cause : Nat := 0
  tval : W64 := 0
  lanes : Mask := 0
  act : Mask := 0
  lit : Bool := false
  arg : Nat := 0
deriving DecidableEq, Repr

/-- A trap bank with its hidden part, mark and entry depth (R336, R338). -/
structure Bank where
  cause : Nat := 0
  skip : Bool := false
  lit : Bool := false
  arg : Nat := 0
  tepc : W64 := 0
  tval : W64 := 0
  tmask : Mask := 0
  tmaskh : W64 := 0
  mode : W32 := 0
  fsize : Nat := 0
  enter : Bool := false
  wbase : Nat := 0
  hmask : Mask := 0
  hr0 : W64 := noEntry
  hr1 : W64 := noEntry
  hr2 : W64 := noEntry
  hr3 : W64 := noEntry
  hlc0 : Loop := {}
  hlc1 : Loop := {}
  hlc2 : Loop := {}
  hfrp : W32 := 0xFFFFFFFF#32
  hfdepth : Nat := 0
  henter : Bool := false
  mark : Nat := 0
  depth : Nat := 0
  /-- The record that the trapped path is still to be read from (R49, R53). -/
  lost : Option Lost := none
deriving DecidableEq, Repr

/-! ### Warp-side records of units -/

/-- A copy number of a warp: the copy it names and, once ended, how (R290). -/
structure Track where
  num : Nat := 0
  copy : Nat := 0
  state : Nat := 1
  done : Nat := 0
deriving DecidableEq, Repr

/-- A held or failed FSE access: the block, whether it is a fill, and the faulting address; `due` says that an image has
saved the failure, so that it is taken before the warp's next issue (R49), and `record` that the access is the read of the
record at byte offset `blk` (R53). -/
structure FseFault where
  record : Bool := false
  blk : Nat := 0
  fill : Bool := false
  addr : W64 := 0
  retry : Bool := false
  due : Bool := false
deriving DecidableEq, Repr

/-- One ray: origin, direction, TMIN and TMAX as F32 patterns (R327). -/
structure Ray where
  slot : Nat := 0
  ox : W32 := 0
  oy : W32 := 0
  oz : W32 := 0
  dx : W32 := 0
  dy : W32 := 0
  dz : W32 := 0
  tmin : W32 := 0
  tmax : W32 := 0
deriving DecidableEq, Repr

/-- A ray's result, or the check of R187 that its traversal failed (R327, R330). -/
structure RayRes where
  slot : Nat := 0
  t : W32 := 0x7F800000#32
  prim : W32 := 0xFFFFFFFF#32
  u : W32 := 0
  v : W32 := 0
  cause : Nat := 0
  addr : W64 := 0
  bad : Bool := false
deriving DecidableEq, Repr

/-- A batch of rays (R328). -/
structure Batch where
  id : Nat := 0
  warped : Bool := false
  base : W64 := 0
  /-- The number of the warp's next memory operation at its launch: it comes after those before that in program order (R225). -/
  seq : Nat := 0
  /-- The trap level at issue (R55). -/
  level : Nat := 0
  /-- IRREVOCABLE lanes have launched it (R260). -/
  irr : Bool := false
  rays : List Ray := []
  results : List RayRes := []
  done : Bool := false
  /-- Retry faults on which the batch is held: the addresses that met them (R330). -/
  held : List W64 := []
deriving DecidableEq, Repr

/-- A vertex slot of a meshlet (R312): three F32 patterns. -/
structure Vertex where
  x : W32 := 0
  y : W32 := 0
  z : W32 := 0
deriving DecidableEq, Repr

/-- What a collective or another agent has left for a blocked instruction: it completes, it completes with a
value, or it traps. The instruction takes it when it is next examined. -/
inductive Grant where
  | done
  | value (v : W64) (w : W64)
  | trap (cause : Nat) (tval : W64)
deriving DecidableEq, Repr

/-- A hardware-barrier token (R235): the number of the phase of the last arrival. -/
structure Token where
  arrived : Bool := false
  phase : Nat := 0
deriving DecidableEq, Repr

/-- A warp's role (R4, R24). -/
inductive Role where
  | general
  | feed
  | matrix
deriving DecidableEq, Repr

/-- A warp (R3, R31). -/
structure Warp where
  /-- Whether this warp is resident; false for the place of a warp that has not been placed. -/
  resident : Bool := false
  /-- The model's number of the warp: placement order over the whole device. -/
  wid : Nat := 0
  ctx : Nat := 0
  kern : Nat := 0
  wg : Nat := 0
  warpid : Nat := 0
  role : Role := .general
  sched : Nat := 0
  /-- The warp's place on its scheduler (R22, R362). -/
  place : Nat := 0
  core : Nat := 0
  cluster : Nat := 0
  die : Nat := 0
  budget : Nat := 64
  sys : Bool := false
  fslot : Nat := 0
  /-- The path on turn and the path of the other slot; `onB` says that the path on turn is slot B (R32). -/
  p : Path := {}
  q : Path := {}
  onB : Bool := false
  /-- Whether no instruction has issued since placement (R45, R168). -/
  fresh : Bool := true
  /-- Records of the record area, the latest pushed first, and FSRP (R51). -/
  recs : List Rec := []
  fsrp : Nat := 0
  pushes : Nat := 0
  /-- Vector registers: key 32 X + l is lane l of absolute register X (R43). -/
  v : List (Nat × LW) := []
  /-- Blocks whose current copy is in the block area (R47, R349). -/
  spilled : List Nat := []
  /-- FSE accesses that have failed, or that a retry fault holds (R49). -/
  fse : List FseFault := []
  /-- Scalar registers s0 to s63 and predicates p0 to p6 (R31, R148). -/
  s : List (Nat × SW) := []
  pr : List (Nat × Mask) := []
  /-- Thread identities by lane (R142). -/
  tid : List (Nat × W32) := []
  fflags : BitVec 5 := 0
  fsbase : W64 := 0
  fslim : W64 := 0
  fshwm : W64 := 0
  headroom : Nat := 32
  agelim : Nat := 4096
  txretry : BitVec 8 := 8
  tlevel : Nat := 0
  tvec : W64 := 0
  tsave : W64 := 0
  hsize : Nat := 4
  bank1 : Bank := {}
  bank2 : Bank := {}
  /-- A trap raised, whose entry has not yet been made (R339). -/
  pend : Option TrapInfo := none
  /-- Transaction lanes, the open group, and whether the warp holds a TXL set (R242, R244). -/
  tx : List (Nat × TxLane) := []
  group : Option TxGroup := none
  txset : Bool := false
  /-- Memory operations in issue order, and the number of the next (R204). -/
  ops : List MemOp := []
  opSeq : Nat := 0
  /-- CP and TL operations in issue order: the operation, and whether it is complete (R204). -/
  cps : List (Nat × Bool) := []
  tls : List (Nat × Bool) := []
  /-- CPSEQ, tracked copies, and unreported faulted copies' descriptors (R281, R289, R290). -/
  cpseq : Nat := 0
  tracks : List Track := []
  cpFaults : List W64 := []
  /-- RSEQ and ray batches (R328). -/
  rseq : Nat := 0
  batches : List Batch := []
  /-- The meshlet: view mask, vertex slots, primitives sent (R312). -/
  vmask : BitVec 16 := 0
  verts : List (Nat × Option Vertex) := []
  prims : Nat := 0
  /-- The wake bit, the cycles left to a SLEEP with a timeout, and a YIELD taken (R348). -/
  wake : Bool := false
  sleep : Option Nat := none
  yielded : Nat := 0
  /-- Tokens of the workgroup and the cluster barrier (R235). -/
  wgTok : Token := {}
  clTok : Token := {}
  /-- The stall code of an instruction that blocks the whole warp (R65, R364). -/
  block : Option Nat := none
  /-- The instruction of the path on turn has arrived at a collective and waits; slot B's, if `arrivedB`. -/
  arrivedB : Bool := false
  /-- The bytes of that instruction, which has been fetched and is not fetched again (R65, R67). -/
  waits : List Byte := []
  grant : Option Grant := none
  /-- The barrier object on which a blocked BWAIT waits, by memory key (R195, R234). -/
  bwait : Option Nat := none
  /-- The handle that a blocked RTFETCH has handed in (R325). -/
  handed : Option Nat := none
  /-- Retry faults on which the warp is parked: the addresses that met them (R188). -/
  retry : List W64 := []
  /-- Whether the warp has issued in this cycle, and the record of that issue (R40, R362). -/
  issued : Bool := false
  issPc : W64 := 0
  issMask : Mask := 0
  issB : Bool := false
  issLevel : Nat := 0
  /-- An ageing swap has taken place in this cycle (R41). -/
  swapped : Bool := false
  /-- The paths of slots A and B have been examined in this cycle and did not issue (R65). -/
  examA : Bool := false
  examB : Bool := false
  /-- The stop cycle of the warp's core is not over, and no instruction of the warp was blocked as it began: an EXIT presented in
  it issues (R351). -/
  lastCycle : Bool := false
deriving DecidableEq, Repr

/-! ### Workgroups, cluster launches and kernels (R3, R20, R21) -/

/-- An allocated tile handle (R190, R193). -/
structure Handle where
  live : Bool := false
  cluster : Bool := false
  rows : Nat := 0
  rowb : Nat := 0
  seg : Nat := 0
deriving DecidableEq, Repr

/-- A transfer slot (R58): the waiting warp, its count, its first absolute register and its active lanes. -/
structure Xfer where
  busy : Bool := false
  send : Bool := false
  wid : Nat := 0
  n : Nat := 0
  first : Nat := 0
  act : Mask := 0
deriving DecidableEq, Repr

/-- A participant of REGROUP (R145). -/
structure RgArrival where
  wid : Nat := 0
  d : Nat := 0
  a : Nat := 0
  n : Nat := 0
  act : Mask := 0
deriving DecidableEq, Repr

/-- A participant of a CPC (R283): the warp and the operands of its slice. -/
structure CpcArrival where
  wid : Nat := 0
  desc : W64 := 0
  blk : Nat := 0
  act : Mask := 0
deriving DecidableEq, Repr

/-- A hardware barrier: arrivals in the current phase and the number of phases completed; the phase bit of R235 is
that number modulo 2. -/
structure HwBar where
  count : Nat := 0
  phase : Nat := 0
deriving DecidableEq, Repr

/-- A participant of a CLUSTER-level TALLOC or TFREE (R194, R195). -/
structure ClArrival where
  wg : Nat := 0
  wid : Nat := 0
  free : Bool := false
  word : W64 := 0
deriving DecidableEq, Repr

/-- An MMAP or MMAP.F that waits for its partner (R299): the warp, and its operands d, a, b. -/
structure PairWait where
  wid : Nat := 0
  d : Nat := 0
  a : Nat := 0
  b : Nat := 0
  sat : Bool := false
deriving DecidableEq, Repr

/-- A workgroup (R20). -/
structure WG where
  live : Bool := false
  kern : Nat := 0
  launch : Nat := 0
  core : Nat := 0
  x : Nat := 0
  y : Nat := 0
  z : Nat := 0
  rank : Nat := 0
  pair : Bool := false
  owns : Bool := false
  /-- Scratch reserved and still free, in bytes (R28, R193). -/
  reserve : Nat := 0
  free : Nat := 0
  handles : List (Nat × Handle) := []
  /-- The buffers handed in when the workgroup was stopped, in order, to be handed in again on resume; and all that it has
  handed in, in the order of their latest hand-ins (R325). -/
  handed : List Nat := []
  handOrder : List Nat := []
  xfer : List (Nat × Xfer) := []
  regroup : List RgArrival := []
  cpc : List CpcArrival := []
  bar : HwBar := {}
  pairWait : List PairWait := []
deriving DecidableEq, Repr

/-- A cluster launch (R21). -/
structure Launch where
  live : Bool := false
  wgs : List Nat := []
  size : Nat := 1
  bar : HwBar := {}
  arrivals : List ClArrival := []
deriving DecidableEq, Repr

/-- How a kernel stands (R61, R64, R378). -/
inductive KSt where
  /-- Workgroups are still to be placed or to retire. -/
  | running
  /-- All have retired, and the DONE_SIG increment is due. -/
  | signal
  /-- The increment is held at a retry fault until the die's replay. -/
  | held (die : Nat)
  /-- Complete. -/
  | done
  /-- Ended by a fault, with its cause; or by the host's KILL. -/
  | faulted (cause : Nat)
  | killed
deriving DecidableEq, Repr

/-- A kernel in flight or complete: its packet's 128 bytes, its queue and its counts (R373, R376). -/
structure Kernel where
  live : Bool := false
  ctx : Nat := 0
  queue : Nat := 0
  index : Nat := 0
  pkt : List Byte := []
  placed : Nat := 0
  retired : Nat := 0
  total : Nat := 0
  st : KSt := .running
  /-- The die that holds the last workgroup (R378). -/
  lastDie : Nat := 0
  /-- Children by id, each with the kernel that answers for it once chosen (R63, R64, R381). -/
  children : List (Nat × Nat) := []
  parent : Option Nat := none
deriving DecidableEq, Repr

/-! ### Cores, clusters and dies -/

/-- A line of an L1 or of an instruction cache: 128 bytes by line key, with the poison of its words (R197). -/
structure Line where
  bytes : List Byte := []
  bad : List Bool := []
  live : Bool := false
deriving DecidableEq, Repr

/-- A tile register (R266, R267): configuration; elements by 256 row + column, in the width of the configuration's
type; scale store by 16 row + block; the poison of each; tensor bias. -/
structure Tile where
  cfg : BitVec 21 := 0x0FFEC#21
  el : List (Nat × W64) := []
  bad : List (Nat × Bool) := []
  scale : List (Nat × Byte) := []
  sbad : List (Nat × Bool) := []
  bias : BitVec 8 := 0
deriving DecidableEq, Repr

/-- An accumulator tile (R266): tag 0 NONE, 1 F32, 2 SI32, 3 F64; elements by 64 row + column, and their poison. -/
structure AccT where
  tag : Nat := 0
  el : List (Nat × W64) := []
  bad : List (Nat × Bool) := []
deriving DecidableEq, Repr

/-- A tile or matrix operation as the array holds it (R269). -/
inductive TileOp where
  | cfg (d : Nat) (w : BitVec 21)
  | load (d : Nat) (key pitch : Nat)
  | store (t : Nat) (key pitch : Nat)
  | scales (d : Nat) (key pitch : Nat) (bias : BitVec 8)
  | tzero (d : Nat)
  | azero (d : Nat)
  | mma (d a b : Nat) (sat : Bool)
  | mmag (d a b x : Nat) (sat : Bool)
  | lead (d a b : Nat) (sat : Bool) (pair : Nat)
  | follow (d a b : Nat) (sat : Bool) (pair : Nat)
  | movv (x a row col : Nat) (act : Mask)
  | cvt (d a : Nat) (rm : Nat) (sat : Bool)
deriving DecidableEq, Repr

/-- An operation in a core's array queue (R269); `seq` is the number of the warp's next memory operation at its issue. -/
structure TileJob where
  id : Nat := 0
  wid : Nat := 0
  seq : Nat := 0
  op : TileOp := .tzero 0
deriving DecidableEq, Repr

/-- A range-lock entry (R239): a scratch range by segment, or a global range by workgroup. -/
structure RLock where
  copy : Nat := 0
  scratch : Bool := true
  owner : Nat := 0
  lo : Nat := 0
  hi : Nat := 0
  write : Bool := false
deriving DecidableEq, Repr

/-- A core (R2, R27, R197, R239, R265). -/
structure Core where
  sptr : Nat := 0
  l1 : List (Nat × Line) := []
  ic : List (Nat × Line) := []
  /-- Another core of the cluster has acquired at die scope or wider since this L1 last dropped its lines (R222). -/
  behind : Bool := false
  owner : Option Nat := none
  /-- Tile configurations as issued instructions leave them (R269). -/
  issuedCfg : List (Nat × BitVec 21) := []
  /-- Accumulator tags as issued instructions leave them (R269). -/
  issuedTag : List (Nat × Nat) := []
  tiles : List (Nat × Tile) := []
  accs : List (Nat × AccT) := []
  mxa : List TileJob := []
  /-- B tiles received from the leader and not yet used, by pair number (R299). -/
  fromLeader : List (Nat × Tile) := []
  locks : List RLock := []
  /-- The place after the warp last sampled, by scheduler (R362). -/
  rot : List (Nat × Nat) := []
  /-- Schedulers that have issued in this cycle (R66). -/
  used : List Nat := []
deriving DecidableEq, Repr

/-- A primitive on its way to the VAM (R313, R314). -/
structure Prim where
  wid : Nat := 0
  views : BitVec 16 := 0
  a : Vertex := {}
  b : Vertex := {}
  c : Vertex := {}
  word : W32 := 0
deriving DecidableEq, Repr

/-- A buffer in a cluster's hand-in list (R316). -/
structure HandIn where
  wg : Nat := 0
  h : Nat := 0
deriving DecidableEq, Repr

/-- A cluster (R9, R314, R316, R361, R390, R391). -/
structure Cluster where
  cycle : W64 := 0
  sampctl : W64 := 4096
  sampctx : W64 := 0
  sampbase : W64 := 0
  sampsize : Nat := 6
  samphead : W32 := 0
  samptail : W32 := 0
  sampdrop : W32 := 0
  trigOn : Bool := false
  trigDone : Bool := false
  trigArm : Bool := false
  trigstart : W64 := 0
  trigstop : W64 := 0
  trigpc : W64 := 0
  /-- A start or stop condition has been met in this cycle (R363). -/
  hitStart : Bool := false
  hitStop : Bool := false
  /-- A trap entry that meets one begins in the next cycle (R363). -/
  nextStart : Bool := false
  nextStop : Bool := false
  /-- Records made in this cycle while ON was not yet set, in order: they are written if a start condition still comes to
  hold in it (R362, R363). -/
  early : List (List Byte) := []
  /-- The cycle of the latest MODE 0 samples (R362). -/
  sampledAt : Option W64 := none
  throttle : BitVec 5 := 0
  budget : Option (BitVec 24) := none
  eccCorr : W32 := 0
  eccUnc : W32 := 0
  fetchUnrep : W32 := 0
  yarrow : BitVec 16 := 0
  /-- The pair, by its number in the cluster, that the latest Yarrow reading found worst (R391). -/
  yarrowPair : Option Nat := none
  thrcyc : W64 := 0
  /-- A loop of the management controller acted on the cluster at its latest run (R391, R392). -/
  acting : Bool := false
  /-- Charges of the 255 cycles before the current one, the latest first, and of the current one (R390). -/
  window : List Nat := []
  now : Nat := 0
  vamq : List Prim := []
  hand : List HandIn := []
deriving DecidableEq, Repr

/-- A cached translation (R184): a 64 KiB page, a hinted 2 MiB set or a 512 MiB page. -/
structure TlbEntry where
  ctx : Nat := 0
  size : Nat := 65536
  page : Nat := 0
  leaf : W64 := 0
deriving DecidableEq, Repr

/-- A record of an open fault batch (R188). -/
structure FaultRec where
  ctx : Nat := 0
  vpage : W64 := 0
  kind : Nat := 0
  count : Nat := 1
deriving DecidableEq, Repr

/-- A die (R184, R188, R358). -/
structure Die where
  tlb : List TlbEntry := []
  batch : List FaultRec := []
  dbp0 : W64 := 0
  dbp1 : W64 := 0
  dbp2 : W64 := 0
  dbp3 : W64 := 0
  halt : Bool := false
  haltQueue : Nat := 0
  haltBp : Nat := 0
  /-- Packets that DBPSTAT has released: they are not matched again (R358): their queues and indices. -/
  pass : List (Nat × Nat) := []
  /-- Heads whose WAIT_SIG read waits for this die's replay (R374): their queues and indices. -/
  heldHeads : List (Nat × Nat) := []
deriving DecidableEq, Repr

/-! ### Copies (R275-R291) -/

/-- The fields of a tensor descriptor (R275), kept as they stood at issue. -/
structure TDesc where
  base : W64 := 0
  rank : Nat := 1
  mtype : Nat := 0
  htype : Nat := 0
  circ : BitVec 5 := 0
  bmode : Nat := 0
  stat : Bool := false
  ext : List Nat := []
  stride : List Nat := []
  box : List Nat := []
  bar : W64 := 0
deriving DecidableEq, Repr

/-- The form of a copy (R288). -/
inductive CopyForm where
  | cpld
  | cpst
  | cpred
  | cpg
  | cpc
  | cpw
deriving DecidableEq, Repr

/-- A CPW shape record (R284), with p0, c0, r and s of R280. -/
structure Shape where
  oh : Nat := 1
  ow : Nat := 1
  sh : Nat := 1
  sw : Nat := 1
  dh : Nat := 1
  dw : Nat := 1
  ph : Nat := 0
  pw : Nat := 0
  p0 : Nat := 0
  r : Nat := 0
  s : Nat := 0
deriving DecidableEq, Repr

/-- One slice of a copy: a one-warp copy has one, a CPC one for each participant (R283); `level` is the trap level at
issue, and `index` the memory key of CPG's index list. -/
structure Slice where
  wid : Nat := 0
  level : Nat := 0
  seg : Nat := 0
  off : Nat := 0
  c : List Int := []
  index : Nat := 0
  nextRow : Nat := 0
  rows : Nat := 0
  rowBytes : Nat := 0
deriving DecidableEq, Repr

/-- A copy outstanding at a cluster's TCE (R287). -/
structure Copy where
  id : Nat := 0
  form : CopyForm := .cpld
  ctx : Nat := 0
  core : Nat := 0
  wg : Nat := 0
  descAddr : W64 := 0
  desc : TDesc := {}
  shape : Shape := {}
  slices : List Slice := []
  size : Nat := 0
  done : Nat := 0
  subtracted : Nat := 0
  cancel : Bool := false
  /-- Held at a row by a retry fault (R287). -/
  held : Bool := false
  /-- The ending that waits for room in the copy-status ring, and the ending once made (R288, R369): 0 none, 1
  completed, 2 faulted, 3 cancelled. -/
  stop : Nat := 0
  ending : Nat := 0
  /-- The cycle in which it ended is over (R239). -/
  ripe : Bool := false
  cause : Nat := 0
  faddr : W64 := 0
  /-- The barrier object's memory key, when BMODE is not 0. -/
  barKey : Nat := 0
deriving DecidableEq, Repr

/-! ### The VTB and the DSR (R303-R325) -/

/-- A view record as admitted at W(f, 0) (R308). -/
structure ViewRec where
  matrix : List W32 := []
  ew : Nat := 0
  eh : Nat := 0
  gw : Nat := 0
  gh : Nat := 0
  fov : Bool := false
  closers : Nat := 1
  fr : W32 := 0
  fb : W32 := 0
  dmin : W32 := 0
  rclust : W32 := 0
  eye0 : W64 := 0
  eye1 : W64 := 0
  bin0 : W64 := 0
  bin1 : W64 := 0
  mesh : W64 := 0
  epitch : Nat := 0
  binbytes : Nat := 0
  u : List W32 := []
  v : List W32 := []
  /-- The lens mesh, as read with the record (R322, R324). -/
  points : List W64 := []
  /-- Where the record was read, and its bytes: it may change within the frame (R307). -/
  addr : Nat := 0
  raw : List Byte := []
deriving DecidableEq, Repr

/-- A GAZE_LAT entry (R306, R320). -/
structure Latch where
  gx : W32 := 0
  gy : W32 := 0
  frame : Nat := 0
  valid : Bool := false
deriving DecidableEq, Repr

/-- A strip's warp grid, held for the current and the previous frame (R310, R328). -/
structure Grid where
  out : Nat := 0
  frame : Nat := 0
  strip : Nat := 0
  u : List W32 := []
  v : List W32 := []
deriving DecidableEq, Repr

/-- A vertex of a stored polygon: x/w, y/w, z/w and 1/w (R314). -/
structure PVert where
  x : W32 := 0
  y : W32 := 0
  z : W32 := 0
  q : W32 := 0
deriving DecidableEq, Repr

/-- A polygon (a triangle of the fan) in a bin, with the strip of its append (R314). -/
structure Poly where
  strip : Nat := 0
  a : PVert := {}
  b : PVert := {}
  c : PVert := {}
  word : W32 := 0
deriving DecidableEq, Repr

/-- A bin: its polygons in order of arrival, the bytes they take, and the frame it closed with (R314, R315). -/
structure Bin where
  polys : List Poly := []
  bytes : Nat := 0
  closed : Option Nat := none
deriving DecidableEq, Repr

/-- A view's registers and what the VTB holds for it (R305-R316). -/
structure View where
  vctl : W64 := 0
  gazeIn : W64 := 0
  /-- The display cycle of the latest write of GAZE_IN, and what it held before that cycle (R307). -/
  gazeAt : Nat := 0
  gazeOld : W64 := 0
  reproj : W64 := 0
  vstat : BitVec 3 := 0
  subst : W32 := 0
  late : W32 := 0
  drops : W32 := 0
  lat : List (Nat × Latch) := []
  /-- VCTL as it takes effect for the current frame, the record admitted, the sampled REPROJ (R307, R309). -/
  on : Bool := false
  out : Nat := 0
  recOk : Option ViewRec := none
  rdx : BitVec 16 := 0
  rdy : BitVec 16 := 0
  /-- EN was cleared: the columns carry zero pixels from this strip on, numbered 16 f + k (R307). -/
  zeroFrom : Option Nat := none
  /-- The record has been seen to have changed since W(f, 0): the frame's pixels are unpredictable (R307). -/
  spoilt : Bool := false
  grids : List Grid := []
  g : Nat := 0
  closes : Nat := 0
  /-- The bin that G names is still to be emptied, at the W(f, 0) that ends the stall (R315). -/
  deferred : Bool := false
  bin0 : Bin := {}
  bin1 : Bin := {}
  /-- Pixel rate counted at the latest W(f, 0): pixels and 16 strip times (R309). -/
  pix : Nat := 0
  per : Nat := 0
  admitted : Bool := false
deriving DecidableEq, Repr

/-- An output's registers and its run (R305, R306). -/
structure Out where
  ctl : W64 := 0
  timing : W64 := 0
  err : Bool := false
  link : Bool := false
  attached : Bool := false
  /-- EN has been set: the values of OUT_CTL and TIMING that the run uses, and F0 (R306, R307). -/
  run : Bool := false
  runCtl : W64 := 0
  runTiming : W64 := 0
  f0 : Nat := 0
  /-- Windows opened, deadlines met and strips put out: 16 f + k of the next (R306). -/
  nW : Nat := 0
  nD : Nat := 0
  nO : Nat := 0
  /-- The current frame is rejected (R304, R305). -/
  bad : Bool := false
  /-- Sending: the link was up at an O(f, 0) (R306); the strip being sent and its next line. -/
  sending : Bool := false
  line : Option Nat := none
  /-- The corrected lines of strips that are still to be sent: strip number, row, pixels (R322, R324). -/
  staged : List (Nat × Nat × List W32) := []
  /-- The line that the connector carries, and VTOTAL of the main stream attributes (R306). -/
  pixels : List W32 := []
  vtotal : Nat := 0
deriving DecidableEq, Repr

/-- The states of a tile (R316). -/
inductive TileSt where
  | dealt
  | filling
  | finished
  | fetched
  | done
  | substituted
deriving DecidableEq, Repr

/-- A tile of a strip of a frame (R311, R316). -/
structure VTile where
  view : Nat := 0
  out : Nat := 0
  frame : Nat := 0
  strip : Nat := 0
  tx : Nat := 0
  ty : Nat := 0
  st : TileSt := .dealt
  px0 : Nat := 0
  py0 : Nat := 0
  pw : Nat := 0
  ph : Nat := 0
  cluster : Nat := 0
  wg : Nat := 0
  h : Nat := 0
  /-- Whether a buffer is bound, the order in which it finished, and whether no sample was covered. -/
  bound : Bool := false
  fin : Nat := 0
  empty : Bool := false
  /-- A VTDONE has named the tile (R335). -/
  named : Bool := false
deriving DecidableEq, Repr

/-! ### Queues, contexts, host and management (R366-R397) -/

/-- A hardware queue (R372). -/
structure Queue where
  ctl : W64 := 0
  base : W64 := 0
  log2n : Nat := 4
  tail : W32 := 0
  head : W32 := 0
  mask0 : W64 := 0
  mask1 : W64 := 0
  mask2 : W64 := 0
  mask3 : W64 := 0
  pctx : Nat := 0
  halted : Bool := false
  /-- The writes of TAIL that have made packets visible, oldest first: TAIL's value and the order of arrival (R375). -/
  arrivals : List (W32 × Nat) := []
  /-- The kernel of the head, once its first workgroup is placed; the head's examination (R374). -/
  headKern : Option Nat := none
  ready : Bool := false
  /-- Children in the ring: packet index, parent kernel, child id (R63). -/
  pending : List (Nat × Nat × Nat) := []
deriving DecidableEq, Repr

/-- A kill that a trap has met and that takes effect at the end of the cycle: its reason and cause, the place of the warp
that its record names, and the record (R345). -/
structure Dying where
  reason : Nat := 0
  cause : Nat := 0
  die : Nat := 0
  core : Nat := 0
  warpid : Nat := 0
  record : List Byte := []
deriving DecidableEq, Repr

/-- A registered context (R369), and a pre-emption in progress (R351, R380). -/
structure Ctx where
  live : Bool := false
  desc : Nat := 0
  ptroot : Nat := 0
  fpool : W64 := 0
  fstride : Nat := 0
  gang : Nat := 0
  /-- 0 runs; 1 stop requested; 2 pre-empted. -/
  stop : Nat := 0
  imageAt : Nat := 0
  /-- Kernels that were resident when the stop was requested (R356, R380). -/
  stopKerns : List Nat := []
  /-- Cores on which the stop has taken effect (R351). -/
  stopped : List Nat := []
  killed : Bool := false
  dying : Option Dying := none
  /-- Frame slots of warps that an image has saved and that no RESUME has placed since (R379). -/
  saved : List Nat := []
  /-- Records held until the ring has room: ring (1 fault, 2 copy, 3 event) and bytes (R369). -/
  held : List (Nat × List Byte) := []
  /-- GSTART: image address, and the microsecond at which its timeout falls due (R386). -/
  gstart : Option (Nat × Nat) := none
  accepted : Bool := false
  /-- Images written in this pre-emption: number of them, bytes, IFLAGS of the last. -/
  nImg : Nat := 0
  imgBytes : Nat := 0
  imgFlags : Nat := 0
  /-- PREEMPTs, and RESUMEs with their queue, by the address of their images, that wait for the stop in progress to end
  (R371, R380). -/
  later : List (Option Nat × Nat) := []
deriving DecidableEq, Repr

/-- A cluster launch as an image saves it, and as it waits for a place again (R353, R354): workgroups, warps, the scratch
bytes and poison of its segments by key, and the arrays that its workgroups own, with the configurations and tags that the
checks at issue use (R269). -/
structure ResUnit where
  queue : Nat := 0
  kern : Nat := 0
  launch : Nat := 0
  body : Launch := {}
  wgs : List (Nat × WG) := []
  warps : List Warp := []
  scratch : List Host.Cell := []
  sbad : List (Nat × Bool) := []
  tiles : List (Nat × List (Nat × Tile)) := []
  accs : List (Nat × List (Nat × AccT)) := []
  cfgs : List (Nat × List (Nat × BitVec 21)) := []
  tags : List (Nat × List (Nat × Nat)) := []
deriving DecidableEq, Repr

/-- A saved kernel image (R353): what its opaque sections hold, by the number that they carry, and CORES of the part that
wrote it (R10). -/
structure Image where
  id : Nat := 0
  ctx : Nat := 0
  cores : Nat := 0
  kern : Nat := 0
  pkt : List Byte := []
  units : List ResUnit := []
deriving DecidableEq, Repr

/-- The management controller's store and state (R391-R397). At power-on the flash is empty and the device is out of
recovery: the manual gives no image contents (DESIGN CHOICE, log 138). -/
structure Mc where
  recovery : Bool := false
  /-- Retired pairs, and those whose retirement the host has requested through the mailbox (R394). -/
  retired : BitVec 128 := 0
  asked : BitVec 128 := 0
  /-- The replica delay last read, and the uncorrectable errors that SRAMs have logged, by physical pair (R393, R394). -/
  delays : List (Nat × Nat) := []
  pairUnc : List (Nat × Nat) := []
  /-- GUARD's fused value and its 2 mV steps by cluster, STRESS by cluster (R393). -/
  steps : List (Nat × Nat) := []
  stress : List (Nat × W32) := []
  /-- The mailbox's board power cap in W (R392). -/
  cap : Nat := 1500
  /-- Capacity in GiB of each port's expander, as the map of R388 takes it, and failed expanders. -/
  ports : List Nat := [0, 0, 0, 0]
  failed : List Nat := []
  /-- Lasia ports up: +X, +X, -X, -X, +Y, +Y, -Y, -Y (R384). -/
  lasia : BitVec 8 := 0xFF#8
  /-- The management controller's clock in microseconds (R386). -/
  us : Nat := 0
  linkLog : W32 := 0
  memLog : W32 := 0
  /-- The firmware image in flash, and whether the device has booted it (R396). -/
  flash : List Byte := []
  /-- SPDM: how far version, capabilities and algorithms have been negotiated; answers sent; the last answer (R397). -/
  spdm : Nat := 0
  answers : Nat := 0
  answer : List (BitVec 384) := []
  /-- Gang-abort flits that this device has flooded (R386). -/
  aborts : List Nat := []
  /-- Lowered supplies by cluster, in steps (R392). -/
  supply : List (Nat × Nat) := []
  actions : Nat := 0
deriving DecidableEq, Repr

/-! ### The agenda -/

/-- A step of an agent other than an issuing path: the events of the opcode table, with the input they carry. -/
inductive Event where
  | trapEntry (wid : Nat)
  | fseSpill (wid blk : Nat)
  | fseFill (wid blk : Nat)
  | ageingSwap (wid : Nat)
  | ageRelease (wid : Nat) (slotB : Bool)
  | parkedAgeSwap (wid : Nat)
  | sleepTimeout (wid : Nat)
  | memoryOpComplete (wid seq : Nat) (lanes : BitVec 32)
  | mxaOperation (core : Nat)
  | copyRow (copy : Nat)
  | rangeLockRelease (copy : Nat)
  | tabardGrant (dom : Nat)
  | vamPrimitive (cluster : Nat)
  | wrsTileFinished (cluster : Nat)
  | rayTraversalComplete (wid batch : Nat)
  | stripWindowOpen (out : Nat)
  | stripDeadline (out : Nat)
  | stripOutput (out : Nat)
  | displayLineStart (out : Nat)
  | dpHotPlug (out : Nat) (attached : Bool)
  | viewEnable (view : Nat) (value : BitVec 64)
  | viewDisable (view : Nat) (value : BitVec 64)
  | outputEnable (out : Nat) (value : BitVec 64)
  | outputDisable (out : Nat) (value : BitVec 64)
  | sampleTick (cluster : Nat)
  | trigstatArm (cluster : Nat) (value : BitVec 64)
  | register (ctx : BitVec 24)
  | unregister (ctx : BitVec 24)
  | tlbinv (ctx : BitVec 24)
  | replay (ctx : BitVec 24)
  | preempt (ctx : BitVec 24)
  | resume (ctx : BitVec 24)
  | kill (ctx : BitVec 24)
  | gstart (ctx : BitVec 24)
  | preemptionStop (core : Nat) (ctx : BitVec 24)
  | contextImageWrite (ctx : BitVec 24)
  | qtailWrite (queue : Nat) (tail : BitVec 64)
  | dbpstatHaltClear (die : Nat)
  | registerWrite (off : Nat) (value : BitVec 64)
  | dispatchStep (die : Nat) (cores : List Nat)
  | headReadinessCheck (die queue : Nat)
  | doneSigIncrement (kernel : Nat)
  | faultBatchFull (die : Nat) (ctx : BitVec 24)
  | faultBatchTimeout (die : Nat) (ctx : BitVec 24)
  | heldRecordWrite (ctx : BitVec 24) (ring : Nat)
  | gangAccept (ctx : BitVec 24)
  | gangTimeout (ctx : BitVec 24)
  | gangAbort (gang : BitVec 16)
  | fabricAccess (gang : BitVec 16) (op : FabricOp) (pa size : Nat) (x : BitVec 64)
  | lasiaPortFail (port : Nat)
  | hostMemoryAccess (write : Bool) (pa size : Nat) (value : BitVec 64)
  | correctedError (cluster : Nat)
  | uncorrectableError (cluster : Nat) (place : Nat) (fetch : Bool)
  | expanderFailure (port : Nat)
  | mcLoopTick (thermal : BitVec 32) (current slew : Bool) (power : Nat) (reliability : BitVec 32)
  | yarrowReading (delays : List Nat) (reading : Reading)
  | deviceReset (failed : BitVec 128) (expanders : List Nat)
  | firmwareRecovery (image : Recovery)
  | getVersion
  | getCapabilities
  | negotiateAlgorithms
  | getDigests
  | getCertificate (slot : Nat)
  | challenge (nonce : BitVec 256)
  | getMeasurements (index : Nat)
  | triggerCycleReached (cluster : Nat)
  | linkTrainingDone (out : Nat) (up : Bool)
  | lasiaPortTrained (port : Nat)
  | cmdUnknownCode (value : BitVec 64)
deriving DecidableEq, Repr

/-- What happens in one step (R9, R215): a path issues, an event takes place, a clock advances, or a cache or TLB
fills or loses an entry, each of which the manual leaves to the hardware's timing. -/
inductive Turn where
  /-- The path of slot A or B of warp `wid` issues. -/
  | issue (wid : Nat) (slotB : Bool)
  | act (e : Event)
  /-- One cycle of a cluster's clock. -/
  | tick (cluster : Nat)
  /-- The display clock advances by `n` cycles, at most to the next moment of R306. -/
  | display (n : Nat)
  /-- A TLB entry is filled for a virtual address, or dropped (R184). -/
  | tlbFill (die : Nat) (ctx : BitVec 24) (va : BitVec 64)
  | tlbEvict (die : Nat) (index : Nat)
  /-- An L1 line or an instruction-cache line is filled or dropped (R197, R359). -/
  | l1Fill (core line : Nat)
  | l1Evict (core line : Nat)
  | icFill (core line : Nat)
  | icEvict (core line : Nat)
  /-- A microsecond of the management controller's clock (R386). -/
  | micro
deriving DecidableEq, Repr

/-! ### The whole machine -/

/-- The last access that this device has sent over the fabric: the GANG that it carries, the port that it left by, and
its key (R384, R385). -/
structure Sent where
  gang : Nat := 0
  port : Nat := 0
  key : Nat := 0
deriving DecidableEq, Repr

/-- The state of the device. -/
structure State where
  /-- The warp on turn, and every other resident warp by number. -/
  w : Warp := {}
  others : List Warp := []
  nextWid : Nat := 0
  /-- Memory by key (Ops.lean lays the keys out): device, host, remote and scratch bytes; unlisted bytes are zero.
  Poison by 8-byte word (R202). -/
  mem : List Host.Cell := []
  bad : List (Nat × Bool) := []
  wgs : List (Nat × WG) := []
  launches : List (Nat × Launch) := []
  kernels : List (Nat × Kernel) := []
  nextWg : Nat := 1
  nextLaunch : Nat := 1
  nextKern : Nat := 1
  nextSeg : Nat := 1
  cores : List (Nat × Core) := []
  clusters : List (Nat × Cluster) := []
  dies : List (Nat × Die) := []
  tabards : List Tabard := []
  copies : List Copy := []
  nextCopy : Nat := 1
  nextJob : Nat := 1
  views : List (Nat × View) := []
  outs : List (Nat × Out) := []
  tiles : List VTile := []
  /-- The display clock in cycles since reset (R303). -/
  dclk : Nat := 0
  nextFin : Nat := 0
  queues : List (Nat × Queue) := []
  nextStamp : Nat := 0
  ctxs : List (Nat × Ctx) := []
  images : List Image := []
  /-- Launches of images that wait for a place (R380). -/
  resumes : List ResUnit := []
  nextImage : Nat := 1
  devpos : W32 := 0
  cmd : W32 := 0
  cmdarg0 : W64 := 0
  cmdarg1 : W64 := 0
  cmdbusy : Bool := false
  cmdstatus : Nat := 0
  mc : Mc := {}
  /-- The value that the last host or fabric read returned. -/
  hostRead : W64 := 0
  /-- That value is poisoned (R202). -/
  hostBad : Bool := false
  fabricRefused : Bool := false
  sent : Option Sent := none
  /-- How many free values have been taken (Config). -/
  free : Nat := 0
  /-- The turns still to come, the next first; when none is listed the scheduler of Step.lean chooses. -/
  agenda : List Turn := []
deriving DecidableEq, Repr

/-- Why the machine stops: it never does. The manual gives every trap an entry and every failure a course, so no
meaning of this model ends in a fault. The one reason below is raised by a step of a state that holds no path to
issue and no event to take, and is safe. -/
inductive Fault where
  /-- Raised by `step` where no agent of the machine can ever move again without outside input; safe. -/
  | idle
deriving DecidableEq, Repr

/-- Why an instruction has no meaning. -/
inductive Refusal where
  /-- Raised by `exec` for an instruction whose meaning is not written; safe. -/
  | notModelled (mnemonic : String)
deriving DecidableEq, Repr

/-- The machine after device reset: no context is registered, no warp is resident, every register holds the reset
value of its map (R16), and memory lists nothing. -/
def State.reset : State := {}

end Sys2Proof.Machine

/-- What an image that this device has not written holds in its opaque sections (R353): a free value of its bytes. -/
opaque Sys2Proof.Config.foreignUnits : List Byte → List Sys2Proof.Machine.ResUnit
/-- CORES of the part that wrote such an image (R10, R353): its header does not name it. -/
opaque Sys2Proof.Config.foreignCores : List Byte → Nat
end

