-- ==== Sys2Proof/Machine/Bits.lean ====
section
/-! DEFINITION. Bit fields, byte order, lane masks and byte lists (R12, R14, R17). -/

namespace Sys2Proof.Machine

/-- The lane numbers 0 to W - 1 (R19). -/
def laneList : List Nat := List.range Config.warpWidth

/-- The lanes of a mask, ascending. -/
def lanesOf (m : Mask) : List Nat := laneList.filter (fun l => m.getLsbD l)

/-- The mask of the lanes that satisfy `f`. -/
def maskOf (f : Nat → Bool) : Mask :=
  laneList.foldl (fun m l => if f l then m ||| (1#32 <<< l) else m) 0

/-- All W lanes. -/
def fullMask : Mask := BitVec.allOnes 32

/-- The number of lanes of a mask. -/
def popMask (m : Mask) : Nat := (lanesOf m).length

/-- The lowest lane of a mask; 0 for the empty mask. -/
def lowLane (m : Mask) : Nat := (lanesOf m).headD 0

/-- Bits `hi` down to `lo` of a word, as a number (R17). -/
def bits (x : W64) (hi lo : Nat) : Nat := (x.toNat / 2 ^ lo) % 2 ^ (hi - lo + 1)

/-- As `bits`, of a 32-bit word. -/
def bits32 (x : W32) (hi lo : Nat) : Nat := (x.toNat / 2 ^ lo) % 2 ^ (hi - lo + 1)

/-- A 32-bit word sign-extended to 64 bits. -/
def sx (x : W32) : W64 := x.signExtend 64

/-- A 32-bit word zero-extended to 64 bits. -/
def zx (x : W32) : W64 := x.zeroExtend 64

/-- A number as 64 bits. -/
def w64 (n : Nat) : W64 := BitVec.ofNat 64 n

/-- A number as 32 bits. -/
def w32 (n : Nat) : W32 := BitVec.ofNat 32 n

/-- The low 32 bits of a word. -/
def lo32 (x : W64) : W32 := x.extractLsb' 0 32

/-- The high 32 bits of a word. -/
def hi32 (x : W64) : W32 := x.extractLsb' 32 32

/-- A pair of registers as one 64-bit value (R14). -/
def pairOf (lo hi : W32) : W64 := hi ++ lo

/-- A 32-bit pattern read as SI32. -/
def s32 (x : W32) : Int := x.toInt

/-- The n low bytes of a number, the lowest address first (R14). -/
def leBytes : Nat → Nat → List Byte
  | 0, _ => []
  | n + 1, v => BitVec.ofNat 8 v :: leBytes n (v / 256)

/-- The number that bytes hold, the lowest address first (R14). -/
def ofLe : List Byte → Nat
  | [] => 0
  | b :: bs => b.toNat + 256 * ofLe bs

/-- The n-byte little-endian number at offset `off` of a byte list. -/
def field (bs : List Byte) (off n : Nat) : Nat := ofLe ((bs.drop off).take n)

/-- Replace the bytes at offset `off`. -/
def patch (bs : List Byte) (off : Nat) (new : List Byte) : List Byte :=
  bs.take off ++ new ++ bs.drop (off + new.length)

/-- `n` zero bytes. -/
def zeros (n : Nat) : List Byte := List.replicate n 0

/-- Round up to a multiple of `k`. -/
def roundUp (n k : Nat) : Nat := (n + k - 1) / k * k

/-- Set or clear one bit of a mask. -/
def setBit (m : Mask) (l : Nat) (b : Bool) : Mask :=
  if b then m ||| (1#32 <<< l) else m &&& ~~~(1#32 <<< l)

/-- Extend the low `size` bytes of a word to 64 bits (R208). -/
def extend (size : Nat) (signed : Bool) (x : W64) : W64 :=
  let lo := x.toNat % 2 ^ (8 * size)
  if signed && size < 8 && 2 ^ (8 * size - 1) ≤ lo then BitVec.ofInt 64 ((lo : Int) - (2 ^ (8 * size) : Nat))
  else w64 lo

/-- Change the first element that satisfies `p`, of a list. -/
def updFirst {α : Type} (p : α → Bool) (f : α → α) : List α → List α
  | [] => []
  | a :: as => if p a then f a :: as else a :: updFirst p f as

/-- The number of leading zeros of a number of n bits. -/
def clzOf (n x : Nat) : Nat := if x = 0 then n else n - 1 - Nat.log2 x

/-- The number of set bits among the low n bits. -/
def popOf (n x : Nat) : Nat := ((List.range n).filter (fun i => x.testBit i)).length

/-- The low n bits in reverse: bit i moves to bit n − 1 − i. -/
def brevOf (n x : Nat) : Nat := (List.range n).foldl (fun r i => 2 * r + (if x.testBit i then 1 else 0)) 0

/-- The exponent e with 2^e ≤ n < 2^(e+1), for n > 0. -/
def ilog2 (n : Nat) : Nat := Nat.log2 n

end Sys2Proof.Machine
end

