-- ==== Sys2Proof/Machine/Frame.lean ====
section
/-! DEFINITION. Paths, slots and stacked records: reconvergence entries, merging, exchange, refill, parking and
release (R32-R44), windows and reservations (R43, R44, R54, R166, R167), hardware loops (R56, R171). Every
operation here acts on one warp alone. -/

namespace Sys2Proof.Machine

/-! ### Reconvergence entries and merge keys (R33, R36) -/

/-- Push an address onto RSTK: entry 3 is discarded (R33). -/
def Path.pushR (p : Path) (a : W64) : Path := { p with r0 := a, r1 := p.r0, r2 := p.r1, r3 := p.r2 }

/-- Pop RSTK: entry 3 becomes all ones (R33). -/
def Path.popR (p : Path) : Path := { p with r0 := p.r1, r1 := p.r2, r2 := p.r3, r3 := noEntry, owed := none }

/-- A path as it leaves its slot: nothing of a stalled instruction's goes with it. -/
def Path.out (p : Path) : Path := { p with parked := false, stall := none, want := none, owed := none }

/-- A path is parked: its stalled instruction is to be examined anew once it is unparked (R44). -/
def Path.park (p : Path) : Path := { p with parked := true, stall := none, want := none }

/-- The path stands at its reconvergence address (R35). -/
def Path.atJoin (p : Path) : Bool := p.r0 != noEntry && p.pc == p.r0

/-- Equal loop levels, as the merge key compares them (R36). -/
def sameLoop (a b : Loop) : Bool :=
  a.active == b.active && (!a.active || (a.start == b.start && a.len == b.len && a.count == b.count))

/-- Equal merge keys: reconvergence address, FDEPTH and loop state (R36). -/
def sameKey (a b : Path) : Bool :=
  a.r0 == b.r0 && a.fdepth == b.fdepth && sameLoop a.lc0 b.lc0 && sameLoop a.lc1 b.lc1 && sameLoop a.lc2 b.lc2

/-- The merge of path `o` into path `p` (R36). -/
def mergePaths (p o : Path) : Path :=
  { p.popR with
    mask := p.mask ||| o.mask, age := max p.age o.age
    mode := if lowLane o.mask < lowLane p.mask then o.mode else p.mode, st := .running, ran := p.ran || o.ran }

/-! ### Windows (R43, R44, R166, R167) -/

/-- The window top that R47 and R54 count: a pending path counts only up to its WBASE (R166). -/
def Path.top (p : Path) : Nat := if p.enter then p.wbase else p.wbase + 8 * p.fsize

/-- The window top that the resident span counts, the provisional frame included (R44, R166). -/
def Path.spanTop (p : Path) : Nat := p.wbase + 8 * p.fsize

/-- The window top that a record of the record area counts (R167). -/
def Rec.top (r : Rec) : Nat :=
  match r.body with
  | .split p => p.top
  | .call c => c.wbase + 8 * c.fsize

/-- Whether a slot holds a path. -/
def Path.held (p : Path) : Bool := p.st != .empty

/-- The highest window top of all paths, frozen ones included, and held CALL records (R54, R167, R340). -/
def Warp.topT (w : Warp) : Nat :=
  max (max (if w.p.held then w.p.top else 0) (if w.q.held then w.q.top else 0))
    (w.recs.foldl (fun t r => max t r.top) 0)

/-- The window of a path: the registers that its instructions may name, the provisional frame included (R43, R166). -/
def Path.window (p : Path) : Nat × Nat := (p.wbase, p.spanTop)

/-- The window that a path has, or that its stalled instruction is to give it (R48). -/
def Path.goal (p : Path) : Nat × Nat := p.want.getD p.window

/-- The span of a list of windows: lowest bottom and highest top (R44). -/
def spanOf (ws : List (Nat × Nat)) : Nat × Nat :=
  match ws with
  | [] => (0, 0)
  | x :: xs => xs.foldl (fun s y => (min s.1 y.1, max s.2 y.2)) x

/-- The unparked slot paths. -/
def Warp.unparked (w : Warp) : List Path := [w.p, w.q].filter (fun p => p.held && !p.parked)

/-- The resident span (R44). -/
def Warp.span (w : Warp) : Nat × Nat := spanOf (w.unparked.map Path.window)

/-- Some windows lie within a span of at most B (R44). -/
def Warp.spanFits (w : Warp) (ws : List (Nat × Nat)) : Bool :=
  let s := spanOf ws
  s.2 - s.1 ≤ w.budget

/-- The resident span of some paths stays within B: their windows count as they stand (R39, R44). -/
def Warp.fits (w : Warp) (ps : List Path) : Bool := w.spanFits (ps.map Path.window)

/-- The path on turn takes its window: the other slot's path is parked when the span would exceed B (R41, R44). -/
def Warp.parkOther (w : Warp) : Warp :=
  let w1 : Warp := { w with p := { w.p with want := none } }
  if w.q.held && !w.q.parked && !w1.fits w1.unparked then { w1 with q := w.q.park } else w1

/-- The path of a slot. -/
def Warp.pathOf (w : Warp) (slotB : Bool) : Path := if slotB == w.onB then w.p else w.q

/-- The instruction of a slot's path has arrived and waits (R65): nothing moves the registers of its window until it completes
(R58, R143). -/
def Warp.arrivedIn (w : Warp) (slotB : Bool) : Bool :=
  match w.block with
  | some c => c != 13 && w.arrivedB == slotB
  | none => false

/-- The order in which the FSE meets the paths of the slots: one whose instruction has arrived first, then one whose
instruction stalls on the FSE, then the higher AGE, then slot A (DEDUCED, log 162). -/
def Warp.fseRank (w : Warp) (slotB : Bool) : Nat :=
  if w.arrivedIn slotB then 2 else if (w.pathOf slotB).want.isSome then 1 else 0

/-- The unparked slot paths in that order. -/
def Warp.fseOrder (w : Warp) : List Path :=
  let a := w.pathOf false
  let b := w.pathOf true
  (if w.fseRank false < w.fseRank true || (w.fseRank false == w.fseRank true && a.age < b.age) then [b, a] else [a, b]).filter
    (fun p => p.held && !p.parked)

/-! ### Records (R51) -/

/-- The bytes that a record takes: a SPLIT record 128, a CALL record 256 (R51). -/
def Rec.size (r : Rec) : Nat := match r.body with | .split _ => 128 | .call _ => 256

/-- FSRP for a list of records, the top one first: just above the top record; a freed record below the top stays as
a hole, and freeing the top falls below the holes beneath it (R51). -/
def fsrpOf : List Rec → Nat
  | [] => 0
  | r :: _ => r.off + r.size

/-- Push a record at FSRP (R51). -/
def Warp.pushRec (w : Warp) (b : RecBody) : Warp :=
  let r : Rec := { off := w.fsrp, order := w.pushes, body := b }
  { w with recs := r :: w.recs, fsrp := w.fsrp + r.size, pushes := w.pushes + 1 }

/-- Free the record at an offset (R51). -/
def Warp.freeRec (w : Warp) (off : Nat) : Warp :=
  let rs := w.recs.filter (fun r => r.off != off)
  { w with recs := rs, fsrp := fsrpOf rs }

/-- Put another body in the place of a record (R37, R39, R41). -/
def Warp.setRec (w : Warp) (off : Nat) (b : RecBody) : Warp :=
  { w with recs := w.recs.map (fun r => if r.off == off then { r with body := b, inMem := false, aged := 0, shut := false } else r) }

/-- The mark beneath which SPLIT records are frozen: M_n of the current trap level; 0 at level 0 (R340). -/
def Warp.freezeMark (w : Warp) : Nat :=
  match w.tlevel with
  | 0 => 0
  | 1 => w.bank1.mark
  | _ => w.bank2.mark

/-- The top SPLIT record, when it is not frozen, whether or not the FSE can read it (R36, R340). -/
def Warp.topStack (w : Warp) : Option (Rec × Path) :=
  w.recs.findSome? (fun r => match r.body with
    | .split p => if w.freezeMark ≤ r.off then some (r, p) else none
    | .call _ => none)

/-- The top SPLIT record that may be restored now: it is not frozen, and the FSE can read it (R36, R49, R340). -/
def Warp.topSplit (w : Warp) : Option (Rec × Path) := w.topStack.filter (fun x => !x.1.shut)

/-- A retry fault keeps the FSE from reading the top SPLIT record (R49). -/
def Warp.topShut (w : Warp) : Bool := w.topStack.any (fun x => x.1.shut)

/-- The unfrozen stacked paths (R340). -/
def Warp.stacked (w : Warp) : List (Rec × Path) :=
  w.recs.filterMap (fun r => match r.body with
    | .split p => if w.freezeMark ≤ r.off then some (r, p) else none
    | .call _ => none)

/-- AGE rises by 1, to 0xFFFFFFFF at most, in a cycle in which the path does not issue (R32, R40). -/
def Path.older (p : Path) : Path :=
  if p.held && !p.ran then { p with age := min (p.age + 1) 0xFFFFFFFF } else { p with ran := false }

/-- Every stacked path at the end of a cycle: the AGE of one that is not frozen rises (R40, R340). -/
def Warp.olderRecs (w : Warp) : Warp :=
  { w with recs := w.recs.map (fun r => match r.body with
      | .split p =>
        if w.freezeMark ≤ r.off then { r with body := .split p.older, aged := if p.ran then r.aged else r.aged + 1 }
        else { r with body := .split { p with ran := false } }
      | .call _ => r) }

/-! ### Settling (R35-R39, R44) -/

/-- Exchange the views of the two slots: the other slot's path comes on turn. -/
def Warp.flip (w : Warp) : Warp := { w with p := w.q, q := w.p, onB := !w.onB }

/-- The merge that the WAITING path of the slot on turn finds; a frozen record takes no part (R36, R340). -/
def Warp.seekMerge (w : Warp) : Option Warp :=
  if w.q.st == .waiting && !w.q.parked && sameKey w.p w.q then
    some { w with p := mergePaths w.p w.q, q := {} }
  else match w.topSplit with
    | some (r, t) =>
      if t.st == .waiting && sameKey w.p t then some ({ w with p := mergePaths w.p t }.freeRec r.off) else none
    | none => none

/-- The exchange of a path that has become WAITING with the top SPLIT record, when that is RUNNING (R37). Where the span with
the incoming path would exceed B, the other slot's path is parked, as by a swap of R41 (DEDUCED, log 163). -/
def Warp.exchange (w : Warp) : Option Warp :=
  match w.topSplit with
  | some (r, t) => if t.st == .running then some ({ w with p := t.out }.setRec r.off (.split w.p.out)).parkOther else none
  | none => none

/-- A WAITING path of the slot on turn finds no merge and no exchange: both stay owed where a retry fault keeps the top record
from being read (R49). -/
def Warp.owe (became : Bool) (w : Warp) : Warp :=
  if w.topShut then { w with p := { w.p with owed := some (became || w.p.owed == some true) } } else w

/-- What follows when the path on turn has executed an instruction, has entered the slot or has been merged:
R35, then R36, then R37 where it has just become WAITING. A path whose record could not be read waits for it (R49). -/
def Warp.arrive : Nat → Bool → Warp → Warp
  | 0, _, w => w
  | n + 1, became, w =>
    if w.p.parked || w.p.lost.isSome then w
    else match w.p.st with
      | .empty => w
      | .running => if w.p.atJoin then Warp.arrive n true { w with p := { w.p with st := .waiting } } else w
      | .waiting =>
        match w.seekMerge with
        | some w' => Warp.arrive n false w'
        | none =>
          if became then
            match w.exchange with
            | some w' => Warp.arrive n false w'
            | none => w.owe true
          else w.owe false

/-- Enough rounds for every path of the warp. -/
def Warp.fuel (w : Warp) : Nat := 4 * w.recs.length + 16

/-- `arrive` for the other slot's path. -/
def Warp.arriveQ (became : Bool) (w : Warp) : Warp := (Warp.arrive w.fuel became w.flip).flip

/-- Refill an EMPTY slot on turn with the top SPLIT record that is not frozen, when the span then fits (R39, R340). -/
def Warp.refillP (w : Warp) : Option Warp :=
  if w.p.held then none
  else match w.topSplit with
    | some (r, t) =>
      if w.fits (t :: [w.q].filter (fun x => x.held && !x.parked)) then
        some (Warp.arrive w.fuel false ({ w with p := t.out }.freeRec r.off))
      else none
    | none => none

/-- Unpark the path on turn, when the span including it fits; a WAITING path then seeks a merge (R36, R44). -/
def Warp.unparkP (w : Warp) : Option Warp :=
  if w.p.parked && w.fits ({ w.p with parked := false } :: [w.q].filter (fun x => x.held && !x.parked)) then
    some (Warp.arrive w.fuel false { w with p := { w.p with parked := false } })
  else none

/-- The WAITING path of the slot on turn seeks the merge, and makes the exchange, that a record which can now be read has kept
it from (R36, R37, R49). -/
def Warp.settleOwed (w : Warp) : Option Warp :=
  match w.p.owed with
  | none => none
  | some became =>
    if w.topShut || w.p.parked || w.p.st != .waiting then none
    else some (Warp.arrive w.fuel became { w with p := { w.p with owed := none } })

/-- Whether some path that is not frozen is RUNNING (R38, R340). -/
def Warp.anyRunning (w : Warp) : Bool :=
  w.p.st == .running || w.q.st == .running || w.stacked.any (fun x => x.2.st == .running)

/-- Release one WAITING path: it pops its RSTK and is RUNNING, or WAITING again at its new entry 0 (R35, R38). -/
def releasePath (p : Path) : Path :=
  if p.st == .waiting then { p.popR with st := if p.popR.atJoin then .waiting else .running } else p

/-- Release the path of an unfrozen SPLIT record that can be read (R38, R340); what memory holds of it is then no longer current. -/
def Warp.releaseRec (w : Warp) (r : Rec) : Rec :=
  match r.body with
  | .split p => if w.freezeMark ≤ r.off && !r.shut && p.st == .waiting then { r with body := .split (releasePath p), inMem := false, aged := 0, shut := false } else r
  | .call _ => r

/-- No path is RUNNING: every WAITING path is released (R38). A path of a slot that is WAITING again at its new entry 0
has just become so: it seeks a merge, or exchanges places with a RUNNING top record (R35 to R37). -/
def Warp.releaseAll (w : Warp) : Option Warp :=
  if w.anyRunning then none
  else if w.p.st == .waiting || w.q.st == .waiting || w.stacked.any (fun x => !x.1.shut) then
    let w1 := { w with p := releasePath w.p, q := releasePath w.q, recs := w.recs.map w.releaseRec }
    some ((Warp.arrive w.fuel true w1).arriveQ true)
  else none

/-- One settling step of R36 to R39 and R44, slot A's before slot B's; none where nothing is left to do. -/
def Warp.settle1 (w : Warp) : Option Warp :=
  let a := if w.onB then w.flip else w
  let back (x : Warp) : Warp := if w.onB then x.flip else x
  match a.unparkP with
  | some x => some (back x)
  | none =>
    match a.flip.unparkP with
    | some x => some (back x.flip)
    | none =>
      match a.refillP with
      | some x => some (back x)
      | none =>
        match a.flip.refillP with
        | some x => some (back x.flip)
        | none =>
          match a.settleOwed with
          | some x => some (back x)
          | none =>
            match a.flip.settleOwed with
            | some x => some (back x.flip)
            | none =>
              match a.releaseAll with
              | some x => some (back x)
              | none => none

/-- Settle until nothing is left to do. -/
def Warp.settleN : Nat → Warp → Warp
  | 0, w => w
  | n + 1, w =>
    match w.settle1 with
    | some w' => Warp.settleN n w'
    | none => w

/-- R35 for the other slot's path, when a split has just placed it at its reconvergence address (R163). -/
def Warp.arriveSplit (w : Warp) : Warp :=
  if w.q.st == .running && !w.q.parked && w.q.atJoin then w.arriveQ false else w

/-- R35 for a part that a split has just stacked (R163). It becomes WAITING and seeks no merge: R36 merges into a slot, and it
is in none (DEDUCED, log 140). -/
def Warp.waitStacked (w : Warp) : Warp :=
  match w.topSplit with
  | some (r, t) => if t.st == .running && t.atJoin then w.setRec r.off (.split { t with st := .waiting }) else w
  | none => w

/-- What follows a change of the slots or the stack that is no issue (R38, R39, R44). -/
def Warp.resettle (w : Warp) : Warp := Warp.settleN w.fuel w

/-- What follows an issue of the path on turn: R35 to R37 for it and for the other part of a split, then R38, R39 and
R44. -/
def Warp.settle (w : Warp) : Warp :=
  ((Warp.arrive w.fuel false w).arriveSplit).waitStacked.resettle

/-! ### Trapped paths (R336, R343) -/

/-- The path that RETT restores from a bank. -/
def restoredPath (b : Bank) : Path :=
  { st := .running, pc := b.tepc, frp := b.hfrp, wbase := b.wbase, fdepth := b.hfdepth, fsize := b.fsize, mode := b.mode
    enter := b.enter, mask := b.hmask, r0 := b.hr0, r1 := b.hr1, r2 := b.hr2, r3 := b.hr3
    lc0 := b.hlc0, lc1 := b.hlc1, lc2 := b.hlc2, lost := b.lost }

/-! ### Reservations (R54, R252) -/

/-- A path that holds group lanes (R252). -/
def Warp.holdsGroup (w : Warp) (p : Path) : Bool :=
  (lanesOf p.mask).any (fun l => (look {} w.tx l).st != .none)

/-- The bytes that R252 adds: 128 for each path that holds group lanes, while a group is open. -/
def Warp.groupBytes (w : Warp) : Nat :=
  if w.group.isSome then
    128 * (([w.p, w.q].filter (fun p => p.held && w.holdsGroup p)).length +
      (w.recs.filter (fun r => match r.body with | .split p => w.holdsGroup p | .call _ => false)).length)
  else 0

/-- The reservation of a warp as it stands after an instruction (R54, R252). -/
def Warp.resv (w : Warp) : Nat := w.fsrp + 4 * Config.warpWidth * w.topT + w.groupBytes

/-- The reservation does not pass FSLIM (R54). -/
def Warp.resvOk (w : Warp) (r : Nat) : Bool := w.fsbase.toNat + r ≤ w.fslim.toNat

/-- FSHWM records the largest reservation (R54). -/
def Warp.recordHwm (w : Warp) (r : Nat) : Warp := { w with fshwm := if w.fshwm.toNat < r then w64 r else w.fshwm }

/-! ### Hardware loops (R56, R171) -/

/-- The number of active levels; they are lc0 up to it (R56). -/
def Path.levels (p : Path) : Nat :=
  if p.lc2.active then 3 else if p.lc1.active then 2 else if p.lc0.active then 1 else 0

/-- Level n of a path. -/
def Path.lc (p : Path) : Nat → Loop
  | 0 => p.lc0
  | 1 => p.lc1
  | _ => p.lc2

/-- Change level n of a path. -/
def Path.setLc (p : Path) (n : Nat) (l : Loop) : Path :=
  match n with
  | 0 => { p with lc0 := l }
  | 1 => { p with lc1 := l }
  | _ => { p with lc2 := l }

/-- The address of a level's end instruction (R56). -/
def Loop.endAddr (l : Loop) : W64 := l.start + w64 (4 * (l.len - 1))

/-- An instruction of `len` bytes at `pc` occupies an address, with its first word or with its literal (R70). -/
def occupies (pc : W64) (len : Nat) (a : W64) : Bool := pc == a || (len == 8 && pc + 4 == a)

/-- The end-of-body check, made by an instruction that completes by falling through, outward over the levels that it
ends (R56, R70, R171); `n` levels are looked at. -/
def Path.loopEnd (len : Nat) : Nat → Path → Path
  | 0, p => { p with pc := p.pc + w64 len }
  | n + 1, p =>
    let l := p.lc n
    if l.active && occupies p.pc len l.endAddr then
      if l.count == 1 then Path.loopEnd len n (p.setLc n { l with active := false, count := 0 })
      else { p.setLc n { l with count := l.count - 1 } with pc := l.start }
    else { p with pc := p.pc + w64 len }

/-- Completion by falling through an instruction of `len` bytes (R56, R68, R171). -/
def Path.fall (len : Nat) (p : Path) : Path := p.loopEnd len p.levels

end Sys2Proof.Machine
end

