-- ==== Sys2Proof/Machine/Mem.lean ====
section
/-! DEFINITION. Units by number, physical memory and its poison, the L1, page tables and the TLB, scratch
handles, range locks, routes over the fabric, and the checks that every access takes (R177-R202, R239, R240, R384, R385,
R387, R395). -/

namespace Sys2Proof.Machine

/-! ### Units (R395) -/

/-- Unretired physical pairs, ascending: element i is logical pair i. -/
def livePairs (s : State) : List Nat :=
  (List.range Config.physicalPairs).filter (fun p => !s.mc.retired.getLsbD p)

/-- Logical cores present (CSR CORES). -/
def coreCount (s : State) : Nat := 2 * (livePairs s).length

/-- The physical pair of a logical core. -/
def physPair (s : State) (core : Nat) : Nat := (livePairs s).getD (core / 2) 0

/-- Physical clusters with an unretired pair, ascending in (d, c). -/
def liveClusters (s : State) : List Nat :=
  (List.range 32).filter (fun c => (livePairs s).any (fun p => p / 4 == c))

/-- The logical cluster of a logical core. -/
def clusterOf (s : State) (core : Nat) : Nat :=
  (liveClusters s).findIdx (· == physPair s core / 4)

/-- The die of a logical core (DIE_ID stays physical). -/
def dieOf (s : State) (core : Nat) : Nat := physPair s core / 64

/-- The logical cores of a logical cluster. -/
def coresOf (s : State) (cluster : Nat) : List Nat :=
  (List.range (coreCount s)).filter (fun c => clusterOf s c == cluster)

def State.core (s : State) (n : Nat) : Core := look {} s.cores n
def State.cluster (s : State) (n : Nat) : Cluster := look {} s.clusters n
def State.die (s : State) (n : Nat) : Die := look {} s.dies n
def State.wg (s : State) (n : Nat) : WG := look {} s.wgs n
def State.launch (s : State) (n : Nat) : Launch := look {} s.launches n
def State.kernel (s : State) (n : Nat) : Kernel := look {} s.kernels n
def State.ctx (s : State) (n : Nat) : Ctx := look {} s.ctxs n
def State.queue (s : State) (n : Nat) : Queue := look {} s.queues n
def State.view (s : State) (n : Nat) : View := look {} s.views n
def State.out (s : State) (n : Nat) : Out := look {} s.outs n

def State.setCore (s : State) (n : Nat) (c : Core) : State := { s with cores := put {} s.cores n c }
def State.setCluster (s : State) (n : Nat) (c : Cluster) : State := { s with clusters := put {} s.clusters n c }
def State.setDie (s : State) (n : Nat) (d : Die) : State := { s with dies := put {} s.dies n d }
def State.setWg (s : State) (n : Nat) (g : WG) : State := { s with wgs := put {} s.wgs n g }
def State.setLaunch (s : State) (n : Nat) (l : Launch) : State := { s with launches := put {} s.launches n l }
def State.setKernel (s : State) (n : Nat) (k : Kernel) : State := { s with kernels := put {} s.kernels n k }
def State.setCtx (s : State) (n : Nat) (c : Ctx) : State := { s with ctxs := put {} s.ctxs n c }
def State.setQueue (s : State) (n : Nat) (q : Queue) : State := { s with queues := put {} s.queues n q }
def State.setView (s : State) (n : Nat) (v : View) : State := { s with views := put {} s.views n v }
def State.setOut (s : State) (n : Nat) (o : Out) : State := { s with outs := put {} s.outs n o }

/-- Every resident warp. -/
def State.warps (s : State) : List Warp := (if s.w.resident then [s.w] else []) ++ s.others

/-- The resident warp of a number. -/
def State.warp? (s : State) (wid : Nat) : Option Warp := s.warps.find? (fun w => w.wid == wid)

/-- Change the resident warp of a number, wherever it stands. -/
def State.modWarp (s : State) (wid : Nat) (f : Warp → Warp) : State :=
  if s.w.resident && s.w.wid == wid then { s with w := f s.w }
  else { s with others := updFirst (fun w => w.wid == wid) f s.others }

/-- Change every resident warp. -/
def State.mapWarps (s : State) (f : Warp → Warp) : State :=
  { s with w := if s.w.resident then f s.w else s.w, others := s.others.map f }

/-- Insert a warp in the order of numbers. -/
def insWarp (w : Warp) : List Warp → List Warp
  | [] => [w]
  | x :: xs => if w.wid ≤ x.wid then w :: x :: xs else x :: insWarp w xs

/-- Make the resident warp of a number the warp on turn. -/
def State.bring (s : State) (wid : Nat) : State :=
  if s.w.resident && s.w.wid == wid then s
  else match s.others.find? (fun w => w.wid == wid) with
    | none => s
    | some w =>
      let rest := s.others.filter (fun x => !(x.wid == wid))
      { s with w := w, others := if s.w.resident then insWarp s.w rest else rest }

/-- The warps of a workgroup, ascending by WARPID. -/
def State.wgWarps (s : State) (wg : Nat) : List Warp :=
  let ws := s.warps.filter (fun w => w.wg == wg)
  (List.range 32).filterMap (fun i => ws.find? (fun w => w.warpid == i))

/-! ### Physical memory (R177, R202, R387)

A memory key numbers a byte of all storage: device memory (MT 0 and 1) at its physical address, host memory from
2^64, remote devices from 2^80 and scratch segments from 2^100. -/

def hostKey (pa : Nat) : Nat := 2 ^ 64 + pa
def remoteKey (x y pa : Nat) : Nat := 2 ^ 80 + (64 * x + y) * 2 ^ 64 + pa
def scratchKey (seg off : Nat) : Nat := 2 ^ 100 + seg * 2 ^ 20 + off

/-- One byte. What no write has listed reads as zero. -/
def State.byte (s : State) (k : Nat) : Byte := look 0 s.mem k

/-- The n-byte little-endian number at key `k`. -/
def rdMem (m : List Host.Cell) (k : Nat) : Nat → Nat
  | 0 => 0
  | n + 1 => (look (0 : Byte) m k).toNat + 256 * rdMem m (k + 1) n

/-- Store the n low bytes of a number at key `k`. -/
def wrMem (m : List Host.Cell) (k : Nat) : Nat → Nat → List Host.Cell
  | 0, _ => m
  | n + 1, v => wrMem (put 0 m k (BitVec.ofNat 8 v)) (k + 1) n (v / 256)

/-- The memory's canonical form. -/
abbrev Memory.wf (m : List Host.Cell) : Prop := canon (0 : Byte) m = true

/-- Bytes of first-tier memory (R387). -/
def gddrBytes : Nat := 0x3000000000
/-- The first physical address of second-tier memory (R387). -/
def tier2Base : Nat := 0x1000000000000

/-- Bytes of second-tier memory that the ports' expanders populate (R388). -/
def tier2Bytes (s : State) : Nat := (s.mc.ports.foldl (· + ·) 0) * 2 ^ 30

/-- The memory port of a second-tier address: interleaved in 4 KiB units where all four ports hold equal capacity,
and otherwise one port after another (R388). -/
def portOf (s : State) (pa : Nat) : Nat :=
  let off := pa - tier2Base
  if s.mc.ports.all (· == s.mc.ports.headD 0) then off / 4096 % 4
  else (s.mc.ports.foldl (fun (acc : Nat × Nat × Option Nat) c =>
      match acc with
      | (i, sum, none) => if off < sum + c * 2 ^ 30 then (i + 1, sum, some i) else (i + 1, sum + c * 2 ^ 30, none)
      | (i, sum, r) => (i + 1, sum, r)) (0, 0, none)).2.2.getD 0

/-- Whether a key lies in a failed expander, which returns poison (R388). -/
def expanderBad (s : State) (k : Nat) : Bool :=
  !s.mc.failed.isEmpty && tier2Base ≤ k && k < tier2Base + tier2Bytes s && s.mc.failed.contains (portOf s k)

/-- Whether the 8-byte word that holds key `k` is poisoned. -/
def isBad (s : State) (k : Nat) : Bool := look false s.bad (k / 8) || expanderBad s k

/-- Store `size` bytes within one 8-byte word: a full word takes the poison of the data; a narrower store leaves
the word poisoned if it or the data was (R202). -/
def storeMem (k size : Nat) (v : W64) (bad : Bool) (s : State) : State :=
  { s with mem := wrMem s.mem k size v.toNat
           bad := put false s.bad (k / 8) (if size = 8 then bad else bad || look false s.bad (k / 8)) }

/-- Store bytes from an 8-byte aligned key in 8-byte words. -/
def storeWords (s : State) (k : Nat) : List Nat → State
  | [] => s
  | v :: vs => storeWords (storeMem k 8 (w64 v) false s) (k + 8) vs

/-- The 8-byte words of a byte list. -/
def wordsOf (bs : List Byte) : List Nat :=
  (List.range ((bs.length + 7) / 8)).map (fun i => field bs (8 * i) 8)

/-- Store a byte list whose length is a multiple of 8 at an 8-byte aligned key. -/
def storeBytes (s : State) (k : Nat) (bs : List Byte) : State := storeWords s k (wordsOf bs)

/-- The bytes at a key. -/
def loadBytes (s : State) (k n : Nat) : List Byte := (List.range n).map (fun i => s.byte (k + i))

/-! ### Caches (R197, R198) -/

/-- The key of the 128-byte line that holds a key. -/
def lineOf (k : Nat) : Nat := k / 128

/-- A line as the home holds it. -/
def homeLine (s : State) (line : Nat) : Line :=
  { bytes := loadBytes s (128 * line) 128
    bad := (List.range 16).map (fun i => isBad s (128 * line + 8 * i)), live := true }

/-- The n-byte number at key `k` in a line. -/
def lineRead (l : Line) (k n : Nat) : Nat := field l.bytes (k % 128) n

/-- Replace `n` bytes at key `k` of a line. -/
def lineWrite (l : Line) (k n : Nat) (v : W64) (bad : Bool) : Line :=
  { l with bytes := patch l.bytes (k % 128) (leBytes n v.toNat)
           bad := l.bad.set (k % 128 / 8) (if n = 8 then bad else bad || l.bad.getD (k % 128 / 8) false) }

/-- What a load of core `core` reads: its own L1's line where it holds one, and the home otherwise (R225). -/
def readVia (s : State) (core : Nat) (l1 : Bool) (k n : Nat) : W64 × Bool :=
  let ln := look {} (s.core core).l1 (lineOf k)
  if l1 && ln.live then (w64 (lineRead ln k n), ln.bad.getD (k % 128 / 8) false)
  else (w64 (rdMem s.mem k n), isBad s k)

/-- Drop a line from the L1 of every core of a cluster but `keep` (R197). -/
def dropLine (s : State) (cluster line : Nat) (keep : Option Nat) : State :=
  { s with cores := s.cores.map (fun e =>
      if clusterOf s e.1 == cluster && !(keep == some e.1) then (e.1, { e.2 with l1 := del e.2.l1 line }) else e) }

/-- Perform a store of core `core`: every other L1 of its cluster drops the line, its own is updated, and the home
takes the bytes (R197, R225). -/
def writeVia (s : State) (core cluster k n : Nat) (v : W64) (bad : Bool) : State :=
  let s1 := dropLine s cluster (lineOf k) (some core)
  let c := s1.core core
  let ln := look {} c.l1 (lineOf k)
  let s2 := if ln.live then s1.setCore core { c with l1 := put {} c.l1 (lineOf k) (lineWrite ln k n v bad) } else s1
  storeMem k n v bad s2

/-- An acquire at die scope or wider drops every line of its core's L1 (R197, R225, R227). The other L1s of the cluster
keep theirs, and are behind it (R222, log 137). -/
def dropL1 (core : Nat) (s : State) : State :=
  let c := clusterOf s core
  { s with cores := s.cores.map (fun e =>
      if e.1 == core then (e.1, { e.2 with l1 := [], behind := false })
      else if clusterOf s e.1 == c && !e.2.l1.isEmpty then (e.1, { e.2 with behind := true }) else e) }

/-- A warp of a core observes what another agent has done, at any scope: where the core's L1 is behind a wider acquire of
its cluster it drops its lines, so that no read returns a write older than one that happens before it (R222, R224). -/
def syncL1 (core : Nat) (s : State) : State :=
  if (s.core core).behind then s.setCore core { s.core core with l1 := [], behind := false } else s

/-! ### Translation (R178-R185) -/

/-- A virtual address is canonical when bits 63 to 55 equal bit 54 (R178). -/
def canonical (va : W64) : Bool := bits va 63 54 == 0 || bits va 63 54 == 1023

/-- The fields of a leaf (R180). -/
structure Leaf where
  r : Bool := false
  w : Bool := false
  x : Bool := false
  frm : Bool := false
  res : Bool := false
  mt : Nat := 0
  pa : Nat := 0
  dx : Int := 0
  dy : Int := 0
deriving DecidableEq, Repr

/-- The 6-bit field at `lo`, read as signed. -/
def hop (e : W64) (lo : Nat) : Int := (e.extractLsb' lo 6).toInt

/-- The leaf that an entry holds. -/
def leafOf (e : W64) : Leaf :=
  { r := e.getLsbD 2, w := e.getLsbD 3, x := e.getLsbD 4, frm := e.getLsbD 5, res := e.getLsbD 7
    mt := bits e 9 8, pa := bits e 51 16 * 65536, dx := hop e 52, dy := hop e 58 }

/-- A page lies within the populated range of its memory type (R387). -/
def inRange (s : State) (mt pa size : Nat) : Bool :=
  let dev := pa + size ≤ gddrBytes
  let far := tier2Base ≤ pa && pa + size ≤ tier2Base + tier2Bytes s
  match mt with
  | 0 => dev
  | 1 => far
  | 2 => true
  | _ => dev || (tier2Base ≤ pa && pa + size ≤ tier2Base + 4096 * 2 ^ 30)

/-- Whether an entry is a legal leaf of a level (R180); a level-1 leaf is 512 MiB. -/
def leafOk (s : State) (e : W64) (level : Nat) : Bool :=
  let l := leafOf e
  bits e 15 10 == 0 && (level == 0 || (!e.getLsbD 6 && bits e 28 16 == 0)) &&
    (l.mt == 3 || bits e 63 52 == 0) && !(l.mt == 3 && l.frm) &&
    inRange s l.mt l.pa (if level == 0 then 65536 else 2 ^ 29)

/-- Whether an entry points to a next-level table: V and TBL, and every other bit but PPN zero (R180). -/
def tableOk (e : W64) : Bool := bits e 15 0 == 3 && bits e 63 52 == 0

/-- The causes that translation raises (R342). -/
def cTranslation : Nat := 0x04
def cEcc : Nat := 0x15

/-- One entry of a table. -/
def entryAt (s : State) (table idx : Nat) : Except Nat W64 :=
  if isBad s (table + 8 * idx) then .error cEcc else .ok (w64 (rdMem s.mem (table + 8 * idx) 8))

/-- The walk of a context's tables (R179, R180): the leaf's entry and the bytes that it maps. -/
def walk (s : State) (root : Nat) (va : W64) : Except Nat (W64 × Nat) :=
  match entryAt s root (bits va 54 42) with
  | .error c => .error c
  | .ok e2 =>
    if !tableOk e2 then .error cTranslation
    else match entryAt s (bits e2 51 16 * 65536) (bits va 41 29) with
      | .error c => .error c
      | .ok e1 =>
        if !e1.getLsbD 0 then .error cTranslation
        else if !e1.getLsbD 1 then (if leafOk s e1 1 then .ok (e1, 2 ^ 29) else .error cTranslation)
        else if !tableOk e1 then .error cTranslation
        else match entryAt s (bits e1 51 16 * 65536) (bits va 28 16) with
          | .error c => .error c
          | .ok e0 =>
            if e0.getLsbD 0 && !e0.getLsbD 1 && leafOk s e0 0 then .ok (e0, 65536) else .error cTranslation

/-- The leaf of an address in a context on a die: a cached entry where the TLB holds one, else a walk (R184, R185). -/
def translate (s : State) (ctx die : Nat) (va : W64) : Except Nat (Leaf × Nat) :=
  if !canonical va then .error cTranslation
  else match (s.die die).tlb.find? (fun t => t.ctx == ctx && t.page == va.toNat / t.size) with
    | some t => .ok (leafOf t.leaf, t.size)
    | none =>
      match walk s (s.ctx ctx).ptroot va with
      | .error c => .error c
      | .ok (e, n) => .ok (leafOf e, n)

/-- The memory key of an address through its leaf; a fabric leaf's device is named by relative hops (R182). -/
def keyOf (s : State) (l : Leaf) (size : Nat) (va : W64) : Nat :=
  let pa := l.pa / size * size + va.toNat % size
  match l.mt with
  | 2 => hostKey pa
  | 3 =>
    let nx : Int := max 1 (bits32 s.devpos 23 16)
    let ny : Int := max 1 (bits32 s.devpos 31 24)
    let x := ((bits32 s.devpos 7 0 : Int) + l.dx).emod nx
    let y := ((bits32 s.devpos 15 8 : Int) + l.dy).emod ny
    if x == (bits32 s.devpos 7 0 : Int) && y == (bits32 s.devpos 15 8 : Int) then pa
    else remoteKey x.toNat y.toNat pa
  | _ => pa

/-! ### Routes over the fabric (R384, R385) -/

/-- The way along one dimension of a ring of n devices: hops, and whether they go up (R384). -/
def wayOf (n here there : Nat) : Nat × Bool :=
  let up := (there + n - here % n) % n
  if 2 * up ≤ n then (up, true) else (n - up, false)

/-- The port of a direction that carries a line; where it is down the other one, and with both down the other way around
(R384). Ports: +X, +X, −X, −X, +Y, +Y, −Y, −Y. -/
def portFor (ports : BitVec 8) (y up : Bool) (line : Nat) : Option Nat :=
  let base (u : Bool) : Nat := (if y then 4 else 0) + (if u then 0 else 2)
  let pick (u : Bool) : Option Nat :=
    let a := base u + line % 2
    let b := base u + (line + 1) % 2
    if ports.getLsbD a then some a else if ports.getLsbD b then some b else none
  (pick up).or (pick (!up))

/-- The first port that a fabric access to a device takes: along X first, then along Y (R384). -/
def routeOf (s : State) (x y line : Nat) : Option Nat :=
  let f (lo : Nat) : Nat := bits32 s.devpos (lo + 7) lo
  let wx := wayOf (max 1 (f 16)) (f 0) x
  let wy := wayOf (max 1 (f 24)) (f 8) y
  if wx.1 ≠ 0 then portFor s.mc.lasia false wx.2 line
  else if wy.1 ≠ 0 then portFor s.mc.lasia true wy.2 line
  else none

/-- A key lies in the memory of another device. -/
def isRemote (k : Nat) : Bool := decide (2 ^ 80 ≤ k ∧ k < 2 ^ 100)

/-- The port by which an access to a remote key leaves (R384). -/
def portTo (s : State) (k : Nat) : Option Nat :=
  let d := (k - 2 ^ 80) / 2 ^ 64
  routeOf s (d / 64) (d % 64) (lineOf k)

/-- An access of a context sets out: over the fabric it carries the context's GANG (R384, R385). -/
def sendOut (ctx k : Nat) (s : State) : State :=
  if isRemote k then
    match portTo s k with
    | some p => { s with sent := some ⟨(s.ctx ctx).gang, p, k⟩, free := s.free + 1 }
    | none => s
  else s

/-- The access that sets out is performed: over the fabric it needs a port that is up, and the target's acceptance;
otherwise its sender retries it (R384, R385). -/
def reaches (s : State) (k : Nat) : Bool := !isRemote k || ((portTo s k).isSome && Config.fabricAccepted s.free)

/-- Accesses of a context to some keys set out; whether each is performed: otherwise their sender makes them again (R384,
R385). -/
def sendAll (ctx : Nat) (ks : List Nat) (s : State) : State × Bool :=
  ks.foldl (fun r k => (sendOut ctx k r.1, r.2 && reaches r.1 k)) (s, true)

/-! ### Checks of an access (R187) -/

/-- What an access needs (R180, R240). -/
inductive Need where
  | read
  | write
  | rmw
  | fetch
deriving DecidableEq, Repr

/-- A check that an access fails: its place in the order of R187, the cause and TVAL. -/
structure Fail where
  stage : Nat
  cause : Nat
  tval : W64
deriving DecidableEq, Repr

/-- How an access that fails no check may go on: its key, whether an L1 may hold it, whether the page is host or
fabric memory, and whether the page is not resident (R188). -/
structure Pass where
  key : Nat := 0
  l1 : Bool := true
  far : Bool := false
  fabric : Bool := false
  resident : Bool := true
deriving DecidableEq, Repr

/-- The range-lock entries that a core's table holds: those of a copy that ended in an earlier cycle are released in this one
before any access of it is checked (R239, R241). -/
def heldLocks (s : State) (core : Nat) : List RLock :=
  (s.core core).locks.filter (fun e => !s.copies.any (fun c => c.id == e.copy && c.ripe))

/-- An entry conflicts with an access (R240): READ entries allow reads, WRITE entries nothing. -/
def lockHits (ls : List RLock) (scratch : Bool) (owner lo hi : Nat) (need : Need) : Bool :=
  ls.any (fun e => e.scratch == scratch && e.owner == owner && e.lo ≤ hi && lo ≤ e.hi &&
    (e.write || !(need == .read)))

/-- The protection that a leaf gives (R180); a fabric leaf needs a context with a gang (R385). -/
def allowed (s : State) (ctx : Nat) (l : Leaf) (need : Need) : Bool :=
  (match need with | .read => l.r | .write => l.w | .rmw => l.r && l.w | .fetch => l.x) &&
    !(l.mt == 3 && (s.ctx ctx).gang == 0)

/-- Steps 4 and 5 of R187 for an address of a context on a die. Within step 4 TRANSLATION comes before the
ECC_UNCORRECTABLE of a poisoned entry, in the order in which R187 names them (DEDUCED, log 141). -/
def checkPage (s : State) (ctx die : Nat) (va : W64) (need : Need) : Except Fail (Leaf × Pass) :=
  match translate s ctx die va with
  | .error c => .error ⟨if c == cTranslation then 6 else 7, c, va⟩
  | .ok (l, n) =>
    if !allowed s ctx l need then .error ⟨8, 0x05, va⟩
    else .ok (l, { key := keyOf s l n va, l1 := l.mt ≤ 2, far := 2 ≤ l.mt, fabric := l.mt == 3, resident := l.res })

/-- The memory key of an address that a warp may read. -/
def readKeys (s : State) (w : Warp) (va : W64) : List Nat :=
  match checkPage s w.ctx w.die va .read with
  | .ok (_, p) => [p.key]
  | .error _ => []

/-- Steps 3 to 6 of R187 for one global access of a warp, for the accesses that R240 does not check for range locks. -/
def checkUnlocked (s : State) (w : Warp) (va : W64) (size : Nat) (need : Need) : Except Fail Pass :=
  if va.toNat % size ≠ 0 then .error ⟨5, 0x03, va⟩
  else match checkPage s w.ctx w.die va need with
    | .error f => .error f
    | .ok (l, p) => if l.frm && w.tlevel == 0 then .error ⟨9, 0x0D, va⟩ else .ok p

/-- Steps 3 to 7 of R187 for one global access of a warp. -/
def checkGlobal (s : State) (w : Warp) (va : W64) (size : Nat) (need : Need) : Except Fail Pass :=
  match checkUnlocked s w va size need with
  | .error f => .error f
  | .ok p =>
    if lockHits (heldLocks s w.core) false w.wg va.toNat (va.toNat + size - 1) need then .error ⟨10, 0x08, va⟩ else .ok p

/-- The workgroup that a rank of the warp's cluster launch names. -/
def rankWg (s : State) (w : Warp) (rank : Nat) : Nat :=
  let l := s.launch (s.wg w.wg).launch
  (l.wgs.find? (fun g => (s.wg g).rank == rank)).getD w.wg

/-- The handle that a handle word names, by R191: none where the word is not a live handle. -/
def handleOf (s : State) (w : Warp) (word : W64) : Option (Nat × Handle) :=
  let g := s.wg w.wg
  let rank := bits word 10 8
  let h := look {} (s.wg w.wg).handles (bits word 5 0)
  if bits word 7 6 ≠ 0 || bits word 63 11 ≠ 0 || !h.live || (s.launch g.launch).size ≤ rank ||
      (!h.cluster && rank ≠ g.rank) then none
  else
    let owner := rankWg s w rank
    let h' := look {} (s.wg owner).handles (bits word 5 0)
    if rank == g.rank then some (w.wg, h) else if h'.live then some (owner, h') else none

/-- Logical bytes of an allocation (R192). -/
def Handle.bytes (h : Handle) : Nat := h.rows * h.rowb * 32

/-- The three checks of a scratch access, and step 7 (R187, R191, R192, R211, R240). -/
def checkScratch (s : State) (w : Warp) (word : W64) (off size align : Nat) (need : Need) : Except Fail Pass :=
  match handleOf s w word with
  | none => .error ⟨2, 0x07, word⟩
  | some (owner, h) =>
    if off % align ≠ 0 then .error ⟨3, 0x03, w64 (bits word 10 0 + off % 2 ^ 32 * 65536)⟩
    else if h.bytes < off + size then .error ⟨4, 0x06, word⟩
    else if lockHits (heldLocks s (s.wg owner).core) true h.seg off (off + size - 1) need then
      .error ⟨10, 0x08, w64 (bits word 10 0 + off * 65536)⟩
    else .ok { key := scratchKey h.seg off, l1 := false }

/-! ### Fault batches (R188) -/

/-- Add an access to the open batch of a die; accesses to one page of one context share a record. -/
def addFault (die ctx : Nat) (va : W64) (kind : Nat) (s : State) : State :=
  let d := s.die die
  let page := w64 (va.toNat / 65536 * 65536)
  let same (r : FaultRec) : Bool := r.ctx == ctx && r.vpage == page
  let b := if d.batch.any same then updFirst same (fun r => { r with count := min 0xFFFF (r.count + 1) }) d.batch
    else d.batch ++ [{ ctx := ctx, vpage := page, kind := kind }]
  s.setDie die { d with batch := b }

end Sys2Proof.Machine
end

