-- ==== Sys2Proof/Machine/Num.lean ====
section
/-! DEFINITION. Number formats (R83, R107-R111), rounding and flags (R112-R114), exact arithmetic on dyadic values,
conversions (R136), and the approximate special functions as the YL960 returns them (R131-R134). -/

namespace Sys2Proof.Machine

/-! ### Formats -/

/-- A floating-point format (R108): exponent and fraction widths, bias, whether it has infinities and NaNs, the
pattern of its largest finite value, its canonical NaN, and the bits below the pattern (E8M10 has 13). -/
structure Fmt where
  eb : Nat
  mb : Nat
  bias : Nat
  inf : Bool
  nan : Bool
  maxPat : Nat
  canon : Nat
  sh : Nat := 0
deriving DecidableEq, Repr

def fF16 : Fmt := ⟨5, 10, 15, true, true, 0x7BFF, 0x7E00, 0⟩
def fBF16 : Fmt := ⟨8, 7, 127, true, true, 0x7F7F, 0x7FC0, 0⟩
def fF32 : Fmt := ⟨8, 23, 127, true, true, 0x7F7FFFFF, 0x7FC00000, 0⟩
def fF64 : Fmt := ⟨11, 52, 1023, true, true, 0x7FEFFFFFFFFFFFFF, 0x7FF8000000000000, 0⟩
def fE8M10 : Fmt := ⟨8, 10, 127, true, true, 0x3FBFF, 0x3FE00, 13⟩
def fE4M3 : Fmt := ⟨4, 3, 7, false, true, 0x7E, 0x7F, 0⟩
def fE5M2 : Fmt := ⟨5, 2, 15, true, true, 0x7B, 0x7E, 0⟩
def fE3M2 : Fmt := ⟨3, 2, 3, false, false, 0x1F, 0, 0⟩
def fE2M3 : Fmt := ⟨2, 3, 1, false, false, 0x1F, 0, 0⟩
def fE2M1 : Fmt := ⟨2, 1, 1, false, false, 0x7, 0, 0⟩

/-- The format of a floating-point type code, MX and SF4 elements included (R83, R273). -/
def fmtOf : Nat → Option Fmt
  | 10 => some fF16
  | 11 => some fBF16
  | 12 => some fF32
  | 13 => some fF64
  | 14 => some fE8M10
  | 15 => some fE4M3
  | 16 => some fE5M2
  | 17 => some fE3M2
  | 18 => some fE2M3
  | 19 => some fE2M1
  | 20 => some fE4M3
  | 21 => some fE5M2
  | 22 => some fE3M2
  | 23 => some fE2M3
  | 24 => some fE2M1
  | 25 => some fE2M1
  | _ => none

/-- The element type of a packed type; other types are their own (R111). -/
def elemOf : Nat → Nat
  | 26 => 10
  | 27 => 11
  | 28 => 5
  | 29 => 4
  | t => t

/-- Whether a type packs two 16-bit elements in 32 bits. -/
def isPacked (t : Nat) : Bool := 26 ≤ t && t ≤ 29

/-- Whether a type is floating point. -/
def isFloat (t : Nat) : Bool := (fmtOf t).isSome

/-- Bits per element (R83). -/
def typeBits : Nat → Nat
  | 0 => 4
  | 1 => 4
  | 2 => 8
  | 3 => 8
  | 4 => 16
  | 5 => 16
  | 6 => 32
  | 7 => 32
  | 8 => 64
  | 9 => 64
  | 10 => 16
  | 11 => 16
  | 12 => 32
  | 13 => 64
  | 14 => 32
  | 15 => 8
  | 16 => 8
  | 17 => 6
  | 18 => 6
  | 19 => 4
  | 20 => 8
  | 21 => 8
  | 22 => 6
  | 23 => 6
  | 24 => 4
  | 25 => 4
  | 31 => 64
  | _ => 32

/-- Whether an integer type is signed (R107). SI16X2 (28) counts as an SI type for the extension of a scalar result of R208
(DEDUCED, log 142). -/
def isSigned (t : Nat) : Bool := t == 1 || t == 3 || t == 5 || t == 7 || t == 9 || t == 28

/-! ### Values -/

/-- A floating-point value: a NaN, an infinity, or the exact dyadic (−1)^neg × n × 2^e; a zero keeps its sign. -/
inductive FV where
  | nan (signalling : Bool)
  | inf (neg : Bool)
  | fin (neg : Bool) (n : Nat) (e : Int)
deriving DecidableEq, Repr

/-- The value of a pattern (R108, R109). -/
def unpack (f : Fmt) (x : Nat) : FV :=
  let y := x / 2 ^ f.sh
  let m := y % 2 ^ f.mb
  let e := y / 2 ^ f.mb % 2 ^ f.eb
  let neg := y / 2 ^ (f.mb + f.eb) % 2 == 1
  if f.inf && e == 2 ^ f.eb - 1 then
    if m == 0 then .inf neg else .nan (m < 2 ^ (f.mb - 1))
  else if f.nan && !f.inf && e == 2 ^ f.eb - 1 && m == 2 ^ f.mb - 1 then .nan false
  else if e == 0 then .fin neg m (1 - (f.bias : Int) - f.mb)
  else .fin neg (2 ^ f.mb + m) ((e : Int) - f.bias - f.mb)

/-- Place a magnitude pattern and its sign. -/
def signed (f : Fmt) (neg : Bool) (mag : Nat) : Nat :=
  (mag + (if neg then 2 ^ (f.mb + f.eb) else 0)) * 2 ^ f.sh

/-- The canonical NaN; +0 where the format has none (R109). -/
def nanPat (f : Fmt) : Nat := f.canon * 2 ^ f.sh

/-- Infinity of a format that has one. -/
def infPat (f : Fmt) (neg : Bool) : Nat := signed f neg ((2 ^ f.eb - 1) * 2 ^ f.mb)

/-- The largest finite value. -/
def maxPatOf (f : Fmt) (neg : Bool) : Nat := signed f neg f.maxPat

/-! ### Flags (R114) -/

def flNX : BitVec 5 := 1
def flUF : BitVec 5 := 2
def flOF : BitVec 5 := 4
def flDZ : BitVec 5 := 8
def flIV : BitVec 5 := 16

/-! ### Rounding (R112, R113) -/

/-- The rounding modes of MODE.RM (R79): 0 RNE, 1 RTZ, 2 RDN, 3 RUP, 4 RNA. Whether a magnitude `q` with remainder
`r` of `2^s` rounds up. -/
def roundsUp (rm : Nat) (neg : Bool) (q r s : Nat) : Bool :=
  let twice := 2 * r
  match rm with
  | 0 => 2 ^ s < twice || (twice == 2 ^ s && q % 2 == 1)
  | 1 => false
  | 2 => neg && r != 0
  | 3 => !neg && r != 0
  | _ => 2 ^ s ≤ twice && r != 0

/-- n × 2^e rounded to a multiple of 2^g: the multiple, and whether it is inexact. -/
def roundGrid (rm : Nat) (neg : Bool) (n : Nat) (e g : Int) : Nat × Bool :=
  if g ≤ e then (n * 2 ^ (e - g).toNat, false)
  else
    let s := (g - e).toNat
    let q := n / 2 ^ s
    let r := n % 2 ^ s
    (if roundsUp rm neg q r s then q + 1 else q, r != 0)

/-- `round(x, m)` of R112 and R113 to a pattern, with its flags. `ftz` flushes a tiny result, `sat` delivers ±max on
overflow; a zero keeps the sign given. -/
def roundTo (f : Fmt) (rm : Nat) (ftz sat neg : Bool) (n : Nat) (e : Int) : Nat × BitVec 5 :=
  if n == 0 then (signed f neg 0, 0)
  else
    let emin : Int := 1 - (f.bias : Int) - f.mb
    let eu : Int := (ilog2 n : Int) + e - f.mb
    let (mu, xu) := roundGrid rm neg n e eu
    let top : Int := if mu == 2 ^ (f.mb + 1) then eu + f.mb + 1 else eu + f.mb
    if top < emin + f.mb then
      let (m, x) := roundGrid rm neg n e emin
      if ftz then (signed f neg 0, flUF ||| flNX)
      else (signed f neg m, if x then flUF ||| flNX else 0)
    else
      let mag := ((eu - emin) * (2 ^ f.mb : Nat) + mu).toNat
      if f.maxPat < mag then
        let toMax := sat || rm == 1 || (rm == 2 && !neg) || (rm == 3 && neg)
        (if toMax then maxPatOf f neg
         else if f.inf then infPat f neg
         else if f.nan then nanPat f
         else maxPatOf f neg, flOF ||| flNX)
      else (signed f neg mag, if xu then flNX else 0)

/-- Read an operand with the input flush of R113. -/
def readF (f : Fmt) (ftz : Bool) (x : Nat) : FV :=
  match unpack f x with
  | .fin neg n e => if ftz && n < 2 ^ f.mb then .fin neg 0 e else .fin neg n e
  | v => v

/-- MODE.FTZ acts on F32 and F16 (R113). -/
def ftzFor (t : Nat) (ftz : Bool) : Bool := ftz && (t == 12 || t == 10)

/-! ### Exact arithmetic -/

/-- The exact sum of two signed dyadics as an integer and its exponent. -/
def addInt (n1 : Int) (e1 : Int) (n2 : Int) (e2 : Int) : Int × Int :=
  let e := min e1 e2
  (n1 * 2 ^ (e1 - e).toNat + n2 * 2 ^ (e2 - e).toNat, e)

/-- A sign and magnitude as an integer. -/
def toI (neg : Bool) (n : Nat) : Int := if neg then -(n : Int) else n

/-- Deliver an exact finite sum: an exact zero takes the sign that R112 gives. -/
def deliver (f : Fmt) (rm : Nat) (ftz sat : Bool) (v : Int × Int) (zeroNeg : Bool) : Nat × BitVec 5 :=
  if v.1 == 0 then (signed f zeroNeg 0, 0) else roundTo f rm ftz sat (v.1 < 0) v.1.natAbs v.2

/-- A quotient of naturals as a dyadic of at least 130 bits whose lowest bit is sticky, so that any rounding of it is
the rounding of the exact quotient. -/
def stickyDiv (n d : Nat) : Nat × Int :=
  let k : Nat := 130 + ilog2 d
  let a := n * 2 ^ k
  (2 * (a / d) + (if a % d == 0 then 0 else 1), -(k : Int) - 1)

/-- The integer square root, by bits from the top. -/
def isqrtBits : Nat → Nat → Nat → Nat
  | 0, _, r => r
  | k + 1, n, r => isqrtBits k n (if (r + 2 ^ k) * (r + 2 ^ k) ≤ n then r + 2 ^ k else r)

/-- floor of the square root. -/
def isqrt (n : Nat) : Nat := isqrtBits (ilog2 n / 2 + 1) n 0

/-- The square root of n × 2^e as a sticky dyadic. -/
def stickySqrt (n : Nat) (e : Int) : Nat × Int :=
  let odd := e % 2
  let k : Nat := 200
  let a := (if odd == 0 then n else 2 * n) * 2 ^ (2 * k)
  let r := isqrt a
  (2 * r + (if r * r == a then 0 else 1), (e - odd) / 2 - k - 1)

/-- FADD of two values (R126); FSUB adds the negation. -/
def fAdd (f : Fmt) (rm : Nat) (ftz : Bool) (a b : FV) : Nat × BitVec 5 :=
  match a, b with
  | .nan s, .nan t => (nanPat f, if s || t then flIV else 0)
  | .nan s, _ => (nanPat f, if s then flIV else 0)
  | _, .nan t => (nanPat f, if t then flIV else 0)
  | .inf x, .inf y => if x == y then (infPat f x, 0) else (nanPat f, flIV)
  | .inf x, _ => (infPat f x, 0)
  | _, .inf y => (infPat f y, 0)
  | .fin x n e, .fin y m g =>
    deliver f rm ftz false (addInt (toI x n) e (toI y m) g) (if x == y then x else rm == 2)

/-- The negation of a value. -/
def FV.neg : FV → FV
  | .nan s => .nan s
  | .inf x => .inf (!x)
  | .fin x n e => .fin (!x) n e

/-- FMUL of two values (R126). -/
def fMul (f : Fmt) (rm : Nat) (ftz : Bool) (a b : FV) : Nat × BitVec 5 :=
  match a, b with
  | .nan s, .nan t => (nanPat f, if s || t then flIV else 0)
  | .nan s, _ => (nanPat f, if s then flIV else 0)
  | _, .nan t => (nanPat f, if t then flIV else 0)
  | .inf x, .inf y => (infPat f (x != y), 0)
  | .inf x, .fin y m _ => if m == 0 then (nanPat f, flIV) else (infPat f (x != y), 0)
  | .fin x n _, .inf y => if n == 0 then (nanPat f, flIV) else (infPat f (x != y), 0)
  | .fin x n e, .fin y m g => roundTo f rm ftz false (x != y) (n * m) (e + g)

/-- A value with another sign; a NaN stays as it is. -/
def FV.withSign (v : FV) (neg : Bool) : FV :=
  match v with
  | .nan s => .nan s
  | .inf _ => .inf neg
  | .fin _ n e => .fin neg n e

/-- A value is a NaN; a signalling NaN. -/
def FV.isNan : FV → Bool
  | .nan _ => true
  | _ => false
def FV.isSig : FV → Bool
  | .nan s => s
  | _ => false

/-- An exact product as it enters a sum: none for 0 × ∞, else an infinity or a finite value. -/
def prodOf (a b : FV) : Option FV :=
  match a, b with
  | .inf x, .inf y => some (.inf (x != y))
  | .inf x, .fin y m _ => if m == 0 then none else some (.inf (x != y))
  | .fin x n _, .inf y => if n == 0 then none else some (.inf (x != y))
  | .fin x n e, .fin y m g => some (.fin (x != y) (n * m) (e + g))
  | _, _ => none

/-- The exact sum of terms none of which is a NaN: none for ∞ − ∞; the sign of an exact zero is negative when every
term is a negative zero, and otherwise as R112 gives it for the mode. -/
def sumOf (rm : Nat) (ts : List FV) : Option (Bool × FV) :=
  let infs := ts.filterMap (fun t => match t with | .inf x => some x | _ => none)
  match infs with
  | x :: xs => if xs.all (· == x) then some (false, .inf x) else none
  | [] =>
    let v := ts.foldl (fun (a : Int × Int) t => match t with
      | .fin x n e => addInt a.1 a.2 (toI x n) e | _ => a) (0, 0)
    let allNeg := ts.all (fun t => match t with | .fin x n _ => x && n == 0 | _ => false)
    let allPos := ts.all (fun t => match t with | .fin x n _ => !x && n == 0 | _ => false)
    let zn := if allNeg then true else if allPos then false else rm == 2
    some (zn, .fin (if v.1 == 0 then zn else v.1 < 0) v.1.natAbs v.2)

/-- One rounding of a sum of products and terms, as FFMA and FDOT make it (R128, R129): any NaN input, 0 × ∞ or ∞ − ∞
gives the canonical NaN, with IV for the last two and for a signalling NaN. -/
def fusedSum (f : Fmt) (rm : Nat) (ftz : Bool) (ps : List (FV × FV)) (c : FV) : Nat × BitVec 5 :=
  let ins := ps.flatMap (fun p => [p.1, p.2]) ++ [c]
  let prods := (ps.filter (fun p => !p.1.isNan && !p.2.isNan)).map (fun p => prodOf p.1 p.2)
  let zeroInf := prods.any (fun p => p.isNone)
  let sum := sumOf rm (prods.filterMap id ++ (if c.isNan then [] else [c]))
  if ins.any FV.isNan then (nanPat f, if ins.any FV.isSig || zeroInf || sum.isNone then flIV else 0)
  else if zeroInf then (nanPat f, flIV)
  else match sum with
    | none => (nanPat f, flIV)
    | some (_, .inf x) => (infPat f x, 0)
    | some (_, .fin x n e) => roundTo f rm ftz false x n e
    | some (_, .nan _) => (nanPat f, 0)

/-- Compare two values that are not NaN. -/
def fCmp (a b : FV) : Ordering :=
  match a, b with
  | .inf x, .inf y => if x == y then .eq else if x then .lt else .gt
  | .inf x, _ => if x then .lt else .gt
  | _, .inf y => if y then .gt else .lt
  | .fin x n e, .fin y m g =>
    let d := (addInt (toI x n) e (-(toI y m)) g).1
    if d == 0 then .eq else if d < 0 then .lt else .gt
  | _, _ => .eq

/-- A value's sign. -/
def FV.isNeg : FV → Bool
  | .nan _ => false
  | .inf x => x
  | .fin x _ _ => x

/-- Whether a value is a zero. -/
def FV.isZero : FV → Bool
  | .fin _ n _ => n == 0
  | _ => false

/-- The pattern of a value that a format holds exactly; used where a result is an operand (R127). -/
def repack (f : Fmt) : FV → Nat
  | .nan _ => nanPat f
  | .inf x => infPat f x
  | .fin x n e => (roundTo f 0 false false x n e).1

/-- FMIN and FMAX (R127): −0 is below +0, and one NaN gives the other operand. -/
def fMinMax (f : Fmt) (isMax : Bool) (a b : FV) : Nat × BitVec 5 :=
  let iv : BitVec 5 := if a.isSig || b.isSig then flIV else 0
  if a.isNan && b.isNan then (nanPat f, iv)
  else if a.isNan then (repack f b, iv)
  else if b.isNan then (repack f a, iv)
  else
    let aLess := match fCmp a b with
      | .lt => true
      | .gt => false
      | .eq => a.isNeg && !b.isNeg
    (repack f (if aLess != isMax then a else b), iv)

/-- FDIV (R131, R132). -/
def fDiv (f : Fmt) (rm : Nat) (ftz : Bool) (a b : FV) : Nat × BitVec 5 :=
  if a.isNan || b.isNan then (nanPat f, if a.isSig || b.isSig then flIV else 0)
  else match a, b with
    | .inf _, .inf _ => (nanPat f, flIV)
    | .inf x, .fin y _ _ => (infPat f (x != y), 0)
    | .fin x _ _, .inf y => (signed f (x != y) 0, 0)
    | .fin x n e, .fin y m g =>
      if m == 0 then (if n == 0 then (nanPat f, flIV) else (infPat f (x != y), flDZ))
      else if n == 0 then (signed f (x != y) 0, 0)
      else
        let (q, k) := stickyDiv n m
        roundTo f rm ftz false (x != y) q (k + e - g)
    | _, _ => (nanPat f, 0)

/-- FSCALE: a × 2^k (R126). A |k| above 5,000 takes every non-zero finite value of every format past the same limits
as 5,000 does. -/
def fScale (f : Fmt) (rm : Nat) (ftz : Bool) (a : FV) (k : Int) : Nat × BitVec 5 :=
  match a with
  | .nan s => (nanPat f, if s then flIV else 0)
  | .inf x => (infPat f x, 0)
  | .fin x n e => roundTo f rm ftz false x n (e + max (-5000) (min 5000 k))

/-- FCLASS (R133): the number of the one bit set. -/
def fClass (f : Fmt) (x : Nat) : Nat :=
  match unpack f x with
  | .nan s => if s then 8 else 9
  | .inf neg => if neg then 0 else 7
  | .fin neg n _ =>
    if n == 0 then (if neg then 3 else 4)
    else if n < 2 ^ f.mb then (if neg then 2 else 5)
    else (if neg then 1 else 6)

/-- x rounded to an integer by a mode, and whether it changed. -/
def toIntegral (rm : Nat) (neg : Bool) (n : Nat) (e : Int) : Nat × Bool := roundGrid rm neg n e 0

/-- VRNDI (R136). -/
def fRndi (f : Fmt) (rm : Nat) (a : FV) : Nat × BitVec 5 :=
  match a with
  | .nan s => (nanPat f, if s then flIV else 0)
  | .inf x => (infPat f x, 0)
  | .fin x n e =>
    let q := (toIntegral rm x n e).1
    (if q == 0 then signed f x 0 else (roundTo f rm false false x q 0).1, 0)

/-- FFRACT (R134). -/
def fFract (f : Fmt) (rm : Nat) (ftz : Bool) (a : FV) : Nat × BitVec 5 :=
  match a with
  | .nan s => (nanPat f, if s then flIV else 0)
  | .inf _ => (nanPat f, flIV)
  | .fin x n e =>
    if n == 0 then (0, 0)
    else
      let fl : Int := if 0 ≤ e then 0 else (toI x n).emod ((2 ^ (-e).toNat : Nat) : Int)
      if fl == 0 then (0, 0)
      else
        let (r, g) := roundTo f rm ftz false false fl.natAbs e
        let one : Nat := f.bias * 2 ^ f.mb * 2 ^ f.sh
        (if r == one then one - 2 ^ f.sh else r, g)

/-! ### Special functions (R131, R132)

Each is the exact function at its input rounded once by RNE. The irrational values are computed in fixed point with
448 fraction bits, many more than the distance from any of them to a rounding boundary of a 32-bit format. -/

/-- Fraction bits. -/
def fxB : Nat := 448
/-- π in fixed point. -/
def fxPi : Nat := 0x3243f6a8885a308d313198a2e03707344a4093822299f31d0082efa98ec4e6c89452821e638d01377be5466cf34e90c6cc0ac29b7c97c50dd
/-- ln 2 in fixed point. -/
def fxLn2 : Nat := 0xb17217f7d1cf79abc9e3b39803f2f6af40f343267298b62d8a0d175b8baafa2be7b876206debac98559552fb4afa1b10ed2eae35c1382144

/-- A fixed-point product. -/
def fxMul (a b : Nat) : Nat := a * b / 2 ^ fxB

/-- The series of exp(x) for 0 ≤ x < 1, from term k on. -/
def fxExpTerms : Nat → Nat → Nat → Nat → Nat
  | 0, _, _, _ => 0
  | fuel + 1, x, k, t => if t == 0 then 0 else t + fxExpTerms fuel x (k + 1) (fxMul t x / (k + 1))

/-- exp(x) for 0 ≤ x < 1. -/
def fxExp (x : Nat) : Nat := fxExpTerms 120 x 0 (2 ^ fxB)

/-- The alternating series of sine (first term x) or cosine (first term 1). -/
def fxTrig : Nat → Nat → Nat → Nat → Int
  | 0, _, _, _ => 0
  | fuel + 1, x2, k, t =>
    if t == 0 then 0 else (t : Int) - fxTrig fuel x2 (k + 2) (fxMul t x2 / ((k + 1) * (k + 2)))

def fxSin (x : Nat) : Nat := (fxTrig 100 (fxMul x x) 1 x).natAbs
def fxCos (x : Nat) : Nat := (fxTrig 100 (fxMul x x) 0 (2 ^ fxB)).natAbs

/-- A dyadic magnitude in fixed point, its lower bits dropped. -/
def fxOf (n : Nat) (e : Int) : Nat :=
  let k := e + fxB
  if 0 ≤ k then n * 2 ^ k.toNat else n / 2 ^ (-k).toNat

/-- Round a fixed-point value, irrational in truth, by RNE: the bit below is sticky. -/
def fxRound (f : Fmt) (ftz neg : Bool) (x : Nat) : Nat × BitVec 5 :=
  let r := roundTo f 0 ftz false neg (2 * x + 1) (-(fxB : Int) - 1)
  (r.1, r.2 ||| flNX)

/-- FRSQ. -/
def fRsq (f : Fmt) (ftz : Bool) (a : FV) : Nat × BitVec 5 :=
  match a with
  | .nan s => (nanPat f, if s then flIV else 0)
  | .inf x => if x then (nanPat f, flIV) else (0, 0)
  | .fin x n e =>
    if n == 0 then (infPat f x, flDZ)
    else if x then (nanPat f, flIV)
    else
      let (q, k) := stickyDiv 1 n
      let (r, g) := stickySqrt q (k - e)
      let (y, fl) := roundTo f 0 ftz false false (2 * r + 1) (g - 1)
      let exact := isqrt n * isqrt n == n && (n == 2 ^ ilog2 n) && e % 2 == 0
      let (y', fl') := if exact then roundTo f 0 ftz false false 1 (-(((ilog2 n : Int) + e) / 2)) else (y, fl)
      (y', fl' ||| flNX)

/-- FSQRT. -/
def fSqrt (f : Fmt) (rm : Nat) (ftz : Bool) (a : FV) : Nat × BitVec 5 :=
  match a with
  | .nan s => (nanPat f, if s then flIV else 0)
  | .inf x => if x then (nanPat f, flIV) else (infPat f false, 0)
  | .fin x n e =>
    if n == 0 then (signed f x 0, 0)
    else if x then (nanPat f, flIV)
    else
      let (r, g) := stickySqrt n e
      roundTo f rm ftz false false r g

/-- FEXP2. -/
def fExp2 (f : Fmt) (ftz : Bool) (a : FV) : Nat × BitVec 5 :=
  match a with
  | .nan s => (nanPat f, if s then flIV else 0)
  | .inf x => if x then (0, 0) else (infPat f false, 0)
  | .fin x n e =>
    if n == 0 then (f.bias * 2 ^ f.mb * 2 ^ f.sh, 0)
    else
      let big := 64 ≤ (ilog2 n : Int) + e
      if big then
        if x then roundTo f 0 ftz false false 1 (-(100000 : Int)) else roundTo f 0 ftz false false 1 100000
      else
        let v := toI x n
        let whole : Int := if 0 ≤ e then v * 2 ^ e.toNat else v / ((2 ^ (-e).toNat : Nat) : Int)
        let frac : Int := if 0 ≤ e then 0 else v % ((2 ^ (-e).toNat : Nat) : Int)
        let cap : Int := max (-100000) (min 100000 whole)
        if frac == 0 then
          let r := roundTo f 0 ftz false false 1 cap
          if -((f.bias : Int)) < cap then r else (r.1, r.2 ||| flNX ||| flUF)
        else
          let y := fxExp (fxMul (fxOf frac.natAbs e) fxLn2)
          let r := roundTo f 0 ftz false false (2 * y + 1) (cap - fxB - 1)
          (r.1, r.2 ||| flNX)

/-- The fraction bits of log2 of a fixed-point m in [1, 2). -/
def fxLogBits : Nat → Nat → Nat → Nat
  | 0, _, acc => acc
  | k + 1, m, acc =>
    let m2 := fxMul m m
    if 2 ^ (fxB + 1) ≤ m2 then fxLogBits k (m2 / 2) (2 * acc + 1) else fxLogBits k m2 (2 * acc)

/-- FLOG2. -/
def fLog2 (f : Fmt) (ftz : Bool) (a : FV) : Nat × BitVec 5 :=
  match a with
  | .nan s => (nanPat f, if s then flIV else 0)
  | .inf x => if x then (nanPat f, flIV) else (infPat f false, 0)
  | .fin x n e =>
    if n == 0 then (infPat f true, flDZ)
    else if x then (nanPat f, flIV)
    else
      let k : Int := (ilog2 n : Int) + e
      if n == 2 ^ ilog2 n then
        if k == 0 then (0, 0) else roundTo f 0 ftz false (k < 0) k.natAbs 0
      else
        let m := fxOf n (-(ilog2 n : Int))
        let bitsN : Nat := 200
        let v : Int := k * 2 ^ (bitsN + 1) + 2 * (fxLogBits bitsN m 0 : Int) + 1
        let r := roundTo f 0 ftz false (v < 0) v.natAbs (-(bitsN : Int) - 1)
        (r.1, r.2 ||| flNX)

/-- sin(2π t) for a turn fraction t = r / 2^k in [0, 1), rounded; `cosine` adds a quarter turn. Multiples of a
quarter turn are exact (R132); `zneg` is the sign of a zero. -/
def fTurn (f : Fmt) (ftz cosine zneg : Bool) (r k : Nat) : Nat × BitVec 5 :=
  let one : Nat := f.bias * 2 ^ f.mb * 2 ^ f.sh
  let oneNeg := signed f true (f.bias * 2 ^ f.mb)
  let full := 2 ^ (k + 3)
  let t := (8 * r + (if cosine then full / 4 else 0)) % full
  if 4 * t % full == 0 then
    match 4 * t / full with
    | 1 => (one, 0)
    | 3 => (oneNeg, 0)
    | _ => (signed f zneg 0, 0)
  else
    let half := 2 * t / full
    let u := t - half * (full / 2)
    let v := if full / 4 < u then full / 2 - u else u
    let x := fxMul (fxOf v (-((k : Int) + 3))) (2 * fxPi)
    let y := if 8 * v ≤ full then fxSin x
      else fxCos (fxMul (fxOf (full / 4 - v) (-((k : Int) + 3))) (2 * fxPi))
    fxRound f ftz (half == 1) y

/-- FSIN and FCOS, the angle in turns. -/
def fSinCos (f : Fmt) (ftz cosine : Bool) (a : FV) : Nat × BitVec 5 :=
  match a with
  | .nan s => (nanPat f, if s then flIV else 0)
  | .inf _ => (nanPat f, flIV)
  | .fin x n e =>
    if n == 0 then (if cosine then (f.bias * 2 ^ f.mb * 2 ^ f.sh, 0) else (signed f x 0, 0))
    else
      let k := if 0 ≤ e then 0 else (-e).toNat
      let m := if 0 ≤ e then n * 2 ^ e.toNat else n
      let r := m % 2 ^ k
      let flip := x && !cosine
      let z := fTurn f ftz cosine (x && !cosine) r k
      if flip && !(4 * r % 2 ^ k == 0 && (4 * r / 2 ^ k) % 2 == 0) then
        let sgn := 2 ^ (f.mb + f.eb) * 2 ^ f.sh
        (if z.1 < sgn then z.1 + sgn else z.1 - sgn, z.2)
      else z

/-- Square k times in fixed point. -/
def fxSquares : Nat → Nat → Nat
  | 0, x => x
  | k + 1, x => fxSquares k (fxMul x x)

/-- FTANH. -/
def fTanh (f : Fmt) (ftz : Bool) (a : FV) : Nat × BitVec 5 :=
  match a with
  | .nan s => (nanPat f, if s then flIV else 0)
  | .inf x => (signed f x (f.bias * 2 ^ f.mb), 0)
  | .fin x n e =>
    if n == 0 then (signed f x 0, 0)
    else if 6 ≤ (ilog2 n : Int) + e then
      let r := roundTo f 0 ftz false x (2 ^ 200 - 1) (-200)
      (r.1, r.2 ||| flNX)
    else
      let y := fxSquares 8 (fxExp (fxOf n (e + 1 - 8)))
      let (q, k) := stickyDiv (y - 2 ^ fxB) (y + 2 ^ fxB)
      let r := roundTo f 0 ftz false x (2 * q + 1) (k - 1)
      (r.1, r.2 ||| flNX)

/-! ### Integers and conversions (R107, R136) -/

/-- The integer that a pattern holds. -/
def intOf (t : Nat) (x : Nat) : Int :=
  let n := typeBits t
  let y := x % 2 ^ n
  if isSigned t && 2 ^ (n - 1) ≤ y then (y : Int) - (2 ^ n : Nat) else y

/-- The least and greatest integers of a type (R107). -/
def intMin (t : Nat) : Int := if isSigned t then -((2 ^ (typeBits t - 1) : Nat) : Int) else 0
def intMax (t : Nat) : Int := ((2 ^ (if isSigned t then typeBits t - 1 else typeBits t) : Nat) : Int) - 1

/-- sat(x, type) (R17). -/
def satInt (t : Nat) (x : Int) : Int := max (intMin t) (min (intMax t) x)

/-- The low n bits of an integer. -/
def lowBits (n : Nat) (x : Int) : Nat := (x.emod ((2 ^ n : Nat) : Int)).toNat

/-- The pattern of an integer in a type's width. -/
def intPat (t : Nat) (x : Int) : Nat := lowBits (typeBits t) x

/-- `cvt(x, from, to)` (R136) on patterns, with its flags. -/
def cvt (src dst rm : Nat) (ftz sat : Bool) (x : Nat) : Nat × BitVec 5 :=
  match fmtOf src, fmtOf dst with
  | none, none => (intPat dst (if sat then satInt dst (intOf src x) else intOf src x), 0)
  | none, some g =>
    let v := intOf src x
    roundTo g rm (ftzFor dst ftz) sat (v < 0) v.natAbs 0
  | some f, some g =>
    let small := !g.inf && !g.nan
    match readF f (ftzFor src ftz) x with
    | .nan s => (nanPat g, if s || small then flIV else 0)
    | .inf neg =>
      if g.inf then (infPat g neg, 0)
      else if g.nan then (if sat then maxPatOf g neg else nanPat g, flIV)
      else (maxPatOf g neg, flIV)
    | .fin neg n e => roundTo g rm (ftzFor dst ftz) sat neg n e
  | some f, none =>
    match readF f (ftzFor src ftz) x with
    | .nan _ => (0, flIV)
    | .inf neg => (intPat dst (if neg then intMin dst else intMax dst), flIV)
    | .fin neg n e =>
      let (q, inexact) := toIntegral rm neg n e
      let y := toI neg q
      if y < intMin dst || intMax dst < y then (intPat dst (satInt dst y), flIV)
      else (intPat dst y, if inexact then flNX else 0)

/-- A scale of R110: E8M0 and UE5M3; none for NaN. -/
def e8m0 (x : Nat) : Option (Nat × Int) := if x == 255 then none else some (1, (x : Int) - 127)
def ue5m3 (x : Nat) : Option (Nat × Int) :=
  let e := x / 8
  let m := x % 8
  if e == 31 then none else if e == 0 then some (m, -17) else some (8 + m, (e : Int) - 18)

/-! ### Exact rationals, for geometry (R310-R332) -/

/-- An exact rational. -/
structure Q where
  n : Int
  d : Nat
deriving DecidableEq, Repr

def Q.ofInt (n : Int) : Q := ⟨n, 1⟩
def Q.add (a b : Q) : Q :=
  if a.d == b.d then ⟨a.n + b.n, a.d⟩
  else if b.d % a.d == 0 then ⟨a.n * ((b.d / a.d : Nat) : Int) + b.n, b.d⟩
  else if a.d % b.d == 0 then ⟨a.n + b.n * ((a.d / b.d : Nat) : Int), a.d⟩
  else ⟨a.n * b.d + b.n * a.d, a.d * b.d⟩
def Q.neg (a : Q) : Q := ⟨-a.n, a.d⟩
def Q.sub (a b : Q) : Q := a.add b.neg
def Q.mul (a b : Q) : Q := ⟨a.n * b.n, a.d * b.d⟩
/-- 1 / a for a ≠ 0. -/
def Q.inv (a : Q) : Q := if a.n < 0 then ⟨-(a.d : Int), a.n.natAbs⟩ else ⟨a.d, a.n.natAbs⟩
def Q.div (a b : Q) : Q := a.mul b.inv
def Q.lt (a b : Q) : Bool := a.n * b.d < b.n * a.d
def Q.le (a b : Q) : Bool := a.n * b.d ≤ b.n * a.d
def Q.eq (a b : Q) : Bool := a.n * b.d == b.n * a.d
def Q.floor (a : Q) : Int := a.n / (a.d : Int)
def Q.min (a b : Q) : Q := if a.le b then a else b
def Q.max (a b : Q) : Q := if a.le b then b else a

/-- A rational rounded to an integer by RNE. -/
def Q.rne (a : Q) : Int :=
  let f := a.floor
  let r := 2 * (a.n - f * a.d)
  if r < a.d then f else if (a.d : Int) < r then f + 1 else if f % 2 == 0 then f else f + 1

/-- A dyadic as a rational. -/
def qDy (neg : Bool) (n : Nat) (e : Int) : Q :=
  if 0 ≤ e then ⟨toI neg (n * 2 ^ e.toNat), 1⟩ else ⟨toI neg n, 2 ^ (-e).toNat⟩

/-- An F32 pattern as a rational, where it is finite. -/
def qF32 (x : W32) : Option Q :=
  match unpack fF32 x.toNat with
  | .fin s n e => some (qDy s n e)
  | _ => none

/-- A rational rounded once to a format by RNE; a zero is +0. -/
def qRound (f : Fmt) (a : Q) : Nat :=
  if a.n == 0 then 0
  else
    let (q, k) := stickyDiv a.n.natAbs a.d
    (roundTo f 0 false false (a.n < 0) q k).1

/-- `qRound` to F32. -/
def q32 (a : Q) : W32 := w32 (qRound fF32 a)

end Sys2Proof.Machine
end

