-- ==== Sys2Proof/Machine/MemOps.lean ====
section
/-! DEFINITION. Outstanding memory operations: what each access does when it is performed, in which orders R225
lets accesses be performed, and what completion writes (R202-R205, R208, R213, R225). -/

namespace Sys2Proof.Machine

/-- Add one to a saturating 32-bit count. -/
def bump (x : W32) : W32 := if x == 0xFFFFFFFF#32 then x else x + 1

/-- Increment the count of uncorrectable errors of a cluster (R202, R391). -/
def logUnc (cluster : Nat) (s : State) : State :=
  let c := s.cluster cluster
  s.setCluster cluster { c with eccUnc := bump c.eccUnc }

/-! ### Atomic operations (R213) -/

/-- The old value plus x by RNE, with subnormals honoured and no flag (R213). -/
def atomicFAdd (t : Nat) (old x : Nat) : Nat :=
  match fmtOf t with
  | none => 0
  | some f => (fAdd f 0 false (unpack f old) (unpack f x)).1

/-- The new value of an atomic of a type (R213), on the bits of the access. -/
def atomicNew (aop t : Nat) (old x y : W64) : W64 :=
  let n := typeBits t
  let m := 2 ^ n
  let o := old.toNat % m
  let v := x.toNat % m
  let so := if 2 ^ (n - 1) ≤ o then (o : Int) - m else o
  let sv := if 2 ^ (n - 1) ≤ v then (v : Int) - m else v
  w64 (match aop with
    | 0 => (o + v) % m
    | 1 => if so ≤ sv then o else v
    | 2 => if so ≤ sv then v else o
    | 3 => min o v
    | 4 => max o v
    | 5 => (old &&& x).toNat % m
    | 6 => (old ||| x).toNat % m
    | 7 => (old ^^^ x).toNat % m
    | 8 => v
    | 9 => if o == v then y.toNat % m else o
    | 10 =>
      if isPacked t then
        atomicFAdd (elemOf t) (o % 65536) (v % 65536) + 65536 * atomicFAdd (elemOf t) (o / 65536) (v / 65536)
      else atomicFAdd t o v
    | 11 => if v ≤ o then 0 else (o + 1) % m
    | _ => if o == 0 || v < o then v else o - 1)

/-! ### Performing an access (R225) -/

/-- An atomic's read-modify-write at the home, of memory that is not poisoned; every L1 of the cluster drops the line
(R212). -/
def rmwMem (cluster aop t : Nat) (a : Acc) (s : State) : State :=
  storeMem a.key a.size (atomicNew aop t (w64 (rdMem s.mem a.key a.size)) a.x a.y) a.bad (dropLine s cluster (lineOf a.key) none)

/-- The pending access is performed at its home for a warp of a core: the state, and what comes back. Poisoned memory
is left as it is: an atomic returns it poisoned, and a RED only counts the error (R202); the L1s of the cluster drop the line
here too (R212). -/
def performAcc (core cluster : Nat) (a : Acc) (s : State) : State × Option Got :=
  match a.kind with
  | .read =>
    let r := readVia s core a.l1 a.key a.size
    (s, some ⟨a.slot, r.1, r.2⟩)
  | .write => (writeVia s core cluster a.key a.size a.x a.bad, none)
  | .atomic aop t =>
    let old := w64 (rdMem s.mem a.key a.size)
    if isBad s a.key then (dropLine s cluster (lineOf a.key) none, some ⟨a.slot, old, true⟩) else (rmwMem cluster aop t a s, some ⟨a.slot, old, false⟩)
  | .reduce aop t => (if isBad s a.key then logUnc cluster (dropLine s cluster (lineOf a.key) none) else rmwMem cluster aop t a s, none)
  | .writeBack => (s, none)

/-- Two accesses share a byte. -/
def Acc.meets (a b : Acc) : Bool := a.key < b.key + b.size && b.key < a.key + a.size

/-- A pending access writes. -/
def Acc.writes (a : Acc) : Bool :=
  match a.kind with
  | .read | .writeBack => false
  | .write | .atomic _ _ | .reduce _ _ => true

/-- An access of operation `o` may be performed now, after the operations `before` it in issue order (R208, R225); the writes
of IRREVOCABLE lanes keep their group's program order (R260). -/
def mayPerform (before : List MemOp) (o : MemOp) (a : Acc) : Bool :=
  let open_ := before.filter (fun e => !e.todo.isEmpty)
  let first := (o.todo.head?.map (fun x => x.slot == a.slot)).getD false
  let both := o.acq && o.rel
  open_.all (fun e => !(e.acq && (!e.rel || e.got.isEmpty)) && !(e.todo.any (fun b => b.meets a)) && !(o.acq && e.rel)) &&
    (!(o.acq || o.rel) || first) &&
    (!(o.rel && (!both || o.todo.length == 1)) || open_.isEmpty) &&
    !(o.irr && a.writes && open_.any (fun e => e.irr && e.todo.any Acc.writes)) &&
    !((o.todo.takeWhile (fun b => b.slot != a.slot)).any (fun b => b.meets a))

/-! ### Completion (R204, R205, R208) -/

/-- Write a lane's value of `size` bytes to an absolute register or pair (R111, R208). -/
def putLane (v : List (Nat × LW)) (x lane size : Nat) (sgn : Bool) (val : W64) (bad : Bool) : List (Nat × LW) :=
  let e := extend size sgn val
  let v1 := put {} v (32 * x + lane) ⟨lo32 e, bad⟩
  if size == 8 then put {} v1 (32 * (x + 1) + lane) ⟨hi32 e, bad⟩ else v1

/-- A channel of a texel as an exact rational (R331, R332): UNORM8 c/255, F16 and F32 as they are. -/
def texel (fmt chan : Nat) (x : W64) : Option Q :=
  match fmt with
  | 0 => some ⟨bits x (8 * chan + 7) (8 * chan), 255⟩
  | 1 => (match unpack fF16 (bits x (16 * chan + 15) (16 * chan)) with | .fin s n e => some (qDy s n e) | _ => none)
  | 2 => qF32 (lo32 x)
  | _ => (match unpack fF16 (bits x (16 * chan + 15) (16 * chan)) with | .fin s n e => some (qDy s n e) | _ => none)

/-- A texel channel that is not finite: the pattern of the NaN or infinity that the sum gives. -/
def texelSpecial (fmt chan : Nat) (x : W64) : Option FV :=
  let v : Option FV := match fmt with
    | 0 => none
    | 2 => some (unpack fF32 (lo32 x).toNat)
    | _ => some (unpack fF16 (bits x (16 * chan + 15) (16 * chan)))
  match v with
  | some (.fin _ _ _) => none
  | v => v

/-- One output of a filtered sample: the weighted sum rounded once to F32, a NaN among the texels giving the canonical
NaN (R332), with the poison of the texels. Infinite texels give the infinity of their common sign, or 0x7FC00000 where their signs
differ (DESIGN CHOICE, log 185). -/
def texOut (fmt : Nat) (got : List Got) (chan : Nat) (taps : List Tap) : LW :=
  let vs := taps.filterMap (fun t => (got.find? (fun g => g.slot == t.acc)).map (fun g => (t, g)))
  let bad := vs.any (fun p => p.2.bad)
  if chan == 4 then ⟨0x3F800000#32, false⟩
  else
    let sp := vs.filterMap (fun p => texelSpecial fmt chan p.2.val)
    match sp with
    | [] =>
      let sum := vs.foldl (fun (a : Q) p =>
        match texel fmt chan p.2.val with
        | some q => a.add (q.mul ⟨p.1.num, p.1.den⟩)
        | none => a) ⟨0, 1⟩
      ⟨q32 sum, bad⟩
    | v :: vs' =>
      let neg := v.isNeg
      if v.isNan || vs'.any (fun u => u.isNan || u.isNeg != neg) then ⟨0x7FC00000#32, bad⟩
      else ⟨w32 (infPat fF32 neg), bad⟩

/-- The register writes of a completed operation (R205). -/
def writeDest (w : Warp) (d : Dest) (got : List Got) : Warp :=
  match d with
  | .none => w
  | .vec x size sgn => { w with v := got.foldl (fun v g => putLane v x g.slot size sgn g.val g.bad) w.v }
  | .scalar d size sgn =>
    match got with
    | [] => w
    | g :: _ => { w with s := put {} w.s d ⟨extend size sgn g.val, g.bad⟩ }
  | .tex x fmt lanes =>
    { w with v := lanes.foldl (fun v l =>
        (l.2.foldl (fun (a : Nat × List (Nat × LW)) o =>
          (a.1 + 1, put {} a.2 (32 * (x + a.1) + l.1) (texOut fmt got o.1 o.2))) (0, v)).2) w.v }
  | .vals x lanes =>
    { w with v := lanes.foldl (fun v l =>
        (l.2.foldl (fun (a : Nat × List (Nat × LW)) o => (a.1 + 1, put {} a.2 (32 * (x + a.1) + l.1) o)) (0, v)).2) w.v }

/-- Forget the completed operations that head their class: the counter falls in issue order (R204). -/
def trimOps (cls : OpClass) : List MemOp → List MemOp
  | [] => []
  | o :: os => if o.cls == cls then (if o.done then trimOps cls os else o :: os) else o :: trimOps cls os

/-- Complete the operations that have nothing left to perform: registers are written, and the counters fall (R203,
R204). -/
def Warp.complete (w : Warp) : Warp :=
  let w1 := w.ops.foldl (fun w o => if o.todo.isEmpty && !o.done && !o.wait then writeDest w o.dst o.got else w) w
  let ops := w.ops.map (fun o => if o.todo.isEmpty && !o.wait then { o with done := true } else o)
  { w1 with ops := trimOps .st (trimOps .ld ops) }

/-- The counters LD and ST (R203). -/
def Warp.ld (w : Warp) : Nat := (w.ops.filter (fun o => o.cls == .ld)).length
def Warp.st (w : Warp) : Nat := (w.ops.filter (fun o => o.cls == .st)).length
/-- The counters CP and TL (R203). -/
def Warp.cp (w : Warp) : Nat := w.cps.length
def Warp.tl (w : Warp) : Nat := w.tls.length

/-- Forget the completed prefix of CP or TL operations (R204). -/
def trimDone : List (Nat × Bool) → List (Nat × Bool)
  | [] => []
  | e :: es => if e.2 then trimDone es else e :: es

/-- Mark a CP or TL operation complete. -/
def markDone (l : List (Nat × Bool)) (id : Nat) : List (Nat × Bool) :=
  trimDone (l.map (fun e => if e.1 == id then (e.1, true) else e))

/-- The L1 at an acquire: it drops its lines at die scope or wider, and where it is behind at a narrower scope (R197, R222,
R225). -/
def acquireL1 (core : Nat) (acq drop : Bool) (s : State) : State :=
  if drop then dropL1 core s else if acq then syncL1 core s else s

/-- Operation `o` has performed one of its accesses. -/
def MemOp.performed (o : MemOp) (a : Acc) (g : Option Got) : MemOp :=
  { o with todo := o.todo.filter (fun b => b.slot != a.slot), got := o.got ++ g.toList }

/-- An access may leave the device: it stays on it, or a port of its route is up (R384). -/
def leaves (s : State) (k : Nat) : Bool := !isRemote k || (portTo s k).isSome

/-- A memory key lies in scratch. -/
def isScratch (k : Nat) : Bool := decide (2 ^ 100 ≤ k)

/-- A ray batch that comes before operation `seq` in program order is still to be traversed (R225). -/
def Warp.behindRay (w : Warp) (seq : Nat) : Bool := w.batches.any (fun b => !b.done && b.seq ≤ seq)

/-- Perform the chosen pending accesses of one operation, each where R225 lets it be: a batch of rays may read any byte of global
memory, so that accesses of it after the batch wait until it has been traversed (DEDUCED, log 83). `sure` stands for every retry that
the fabric asks for, while a port of the route is up (R384, R385). -/
def performOp (wid seq : Nat) (sure : Bool) (choose : Nat → Bool) : List Acc → State → State
  | [], s => s
  | a :: as, s =>
    match s.warp? wid with
    | none => s
    | some w =>
      match w.ops.find? (fun o => o.seq == seq) with
      | none => s
      | some o =>
        let before := w.ops.takeWhile (fun e => e.seq != seq)
        if choose a.slot && (isScratch a.key || !w.behindRay seq) && mayPerform before o a then
          let s0 := sendOut w.ctx a.key s
          if (sure && leaves s a.key) || reaches s a.key then
            let (s1, g) := performAcc w.core w.cluster a (acquireL1 w.core o.acq o.drop s0)
            performOp wid seq sure choose as (s1.modWarp wid (fun x => { x with ops := x.ops.map (fun e =>
              if e.seq == seq then e.performed a g else e) }))
          else performOp wid seq sure choose as s0
        else performOp wid seq sure choose as s

/-- MEMORY_OP_COMPLETE for one operation: perform the chosen accesses, and complete what is finished. -/
def runOp (wid seq : Nat) (sure : Bool) (choose : Nat → Bool) (s : State) : State :=
  match s.warp? wid with
  | none => s
  | some w =>
    match w.ops.find? (fun o => o.seq == seq) with
    | none => s
    | some o => (performOp wid seq sure choose o.todo s).modWarp wid Warp.complete

/-- Perform every pending access of a warp that may leave the device, in issue order (R60, R345, R352). -/
def runAllOps (wid : Nat) (s : State) : State :=
  match s.warp? wid with
  | none => s
  | some w => w.ops.foldl (fun s o => runOp wid o.seq true (fun _ => true) s) s

/-- Absolute vector registers that outstanding operations of a warp will write (R205). -/
def Warp.awaitedV (w : Warp) : List (Nat × Nat) :=
  w.ops.filterMap (fun o => if o.done then none else match o.dst with
    | .vec x size _ => some (x, if size == 8 then 2 else 1)
    | .tex x _ _ => some (x, 4)
    | .vals x ls => some (x, ((ls.headD (0, [])).2).length)
    | _ => none)

/-- Scalar registers that outstanding LDUs of a warp will write (R205). -/
def Warp.awaitedS (w : Warp) : List Nat :=
  w.ops.filterMap (fun o => if o.done then none else match o.dst with | .scalar d _ _ => some d | _ => none)

/-- Ray batches of the warp are still to be traversed (R328). -/
def Warp.raysOpen (w : Warp) : Bool := w.batches.any (fun b => !b.done)

/-- Every access that the warp has issued is performed, the reads of its ray batches included (R227). -/
def Warp.allPerformed (w : Warp) : Bool := w.ops.all (fun o => o.todo.isEmpty) && !w.raysOpen

/-- Accesses of global memory are still to be performed that come after ray batches which are to be traversed first (R225). -/
def Warp.raysBehind (w : Warp) : Bool := w.ops.any (fun o => w.behindRay o.seq && o.todo.any (fun a => !isScratch a.key))

/-- Ray batches that handlers have launched, and which may read frame pages, are still to be traversed (R55). -/
def Warp.raysFrame (w : Warp) : Bool := w.batches.any (fun b => !b.done && b.level != 0)

end Sys2Proof.Machine
end

