-- ==== Sys2Proof/Machine/Fse.lean ====
section
/-! DEFINITION. The Frame Spill Engine (R47-R49): which blocks a span needs moved, the moves themselves, and the
records of the record area as memory holds them (R32, R51-R53, R349). -/

namespace Sys2Proof.Machine

/-! ### What a span needs (R47, R48) -/

/-- Ring positions in blocks. -/
def Warp.ring (w : Warp) : Nat := w.budget / 8

/-- Live blocks: below the highest window top of any path (R47). -/
def Warp.liveBlocks (w : Warp) : List Nat := List.range ((w.topT + 7) / 8)

/-- A block lies in a span. -/
def inSpan (sp : Nat × Nat) (j : Nat) : Bool := sp.1 ≤ 8 * j && 8 * j < sp.2

/-- The blocks of a span. -/
def spanBlocks (sp : Nat × Nat) : List Nat := (List.range ((sp.2 + 7) / 8)).filter (inSpan sp)

/-- The live blocks of the ring: those that are not spilled. -/
def Warp.ringBlocks (w : Warp) : List Nat := w.liveBlocks.filter (fun j => !w.spilled.contains j)

/-- Spilled blocks that lie in a span, and so must be filled. -/
def Warp.fillsFor (w : Warp) (sp : Nat × Nat) : List Nat := (spanBlocks sp).filter (fun j => w.spilled.contains j)

/-- Live blocks of the ring whose positions a span needs, and so must be spilled. -/
def Warp.spillsFor (w : Warp) (sp : Nat × Nat) : List Nat :=
  w.ringBlocks.filter (fun j => !inSpan sp j && (spanBlocks sp).any (fun i => i % w.ring == j % w.ring))

/-- How a span stands with the FSE (R48, R49). -/
inductive SpanNeed where
  | ready
  | stall
  | parked
  | failed (addr : W64)
deriving DecidableEq, Repr

/-- What an instruction meets that establishes span `sp` and runs in window `win` (R48, R49): the ring positions of the
span must be free of other live blocks, and the blocks of the window must be filled. -/
def Warp.need (w : Warp) (sp win : Nat × Nat) : SpanNeed :=
  let fs := w.fillsFor win
  let ss := w.spillsFor sp
  if fs.isEmpty && ss.isEmpty then .ready
  else
    let hits := w.fse.filter (fun f => !f.record && if f.fill then fs.contains f.blk else ss.contains f.blk)
    match hits.find? (fun f => !f.retry) with
    | some f => .failed f.addr
    | none => if hits.any (fun f => f.retry) then .parked else .stall

/-- Reporting clears the failure (R49). -/
def Warp.clearFail (w : Warp) (addr : W64) : Warp :=
  { w with fse := w.fse.filter (fun f => f.retry || f.addr != addr) }

/-- The window of the handler of a trap of the path on turn (R339). -/
def Warp.entryWindow (w : Warp) : Nat × Nat := (w.p.wbase + 8 * w.p.fsize, w.p.wbase + 8 * w.p.fsize + 8 * w.hsize)

/-- The span that the FSE works for (R47, R48): the handler's window while a trap awaits entry; else the resident span, and with it
the windows that stalled instructions are to give their paths. Where these do not lie within B together, the path that comes first
is met first, and the other counts only as far as B allows: the first one's instruction, once it issues, parks it (R42, R44, DEDUCED,
log 162). -/
def Warp.goal (w : Warp) : Nat × Nat :=
  if w.pend.isSome then w.entryWindow
  else match w.fseOrder with
    | x :: y :: _ =>
      if w.spanFits [x.goal, y.window, y.goal] then spanOf [x.goal, y.window, y.goal]
      else if w.spanFits [x.goal, y.window] then spanOf [x.goal, y.window]
      else x.goal
    | x :: _ => x.goal
    | [] => (0, 0)

/-- An access of the FSE to a block is held or has failed. -/
def Warp.fseStuck (w : Warp) (j : Nat) (fill : Bool) : Bool := w.fse.any (fun f => !f.record && f.blk == j && f.fill == fill)

/-- Free ring positions, in registers. -/
def Warp.freePos (w : Warp) : Nat := w.budget - 8 * w.ringBlocks.length

/-- The ring positions of a spilled block are free. -/
def Warp.posFree (w : Warp) (j : Nat) : Bool := w.ringBlocks.all (fun i => i % w.ring != j % w.ring)

/-- The spilled blocks of the FSE's goal whose fills have not failed and are not held (R47, R49). -/
def Warp.goalFills (w : Warp) : List Nat := (w.fillsFor w.goal).filter (fun j => !w.fseStuck j true)

/-- A block holds registers of a path whose instruction has arrived, be the path parked or not: it stays in the ring (R58, R143,
R145). -/
def Warp.pinned (w : Warp) (j : Nat) : Bool := [false, true].any (fun b => w.arrivedIn b && inSpan (w.pathOf b).window j)

/-- The blocks that the FSE may spill now: those in the way of its goal; else, where no fill of the goal is to come and
while fewer than FSE_HEADROOM positions are free, the lowest resident live block below the span (R47). -/
def Warp.maySpill (w : Warp) : List Nat :=
  let ss := w.spillsFor w.goal
  if !ss.isEmpty then ss.filter (fun j => !w.fseStuck j false && !w.pinned j)
  else if w.goalFills.isEmpty && decide (w.freePos < w.headroom) then
    match w.ringBlocks with
    | j :: _ => if 8 * j + 8 ≤ min w.goal.1 w.span.1 && !w.fseStuck j false && !w.pinned j then [j] else []
    | [] => []
  else []

/-- The block that the FSE may fill now: the highest spilled block of its goal whose positions are free; else, where
none of the goal is to come, the highest spilled block directly below the lowest resident one, while that leaves
FSE_HEADROOM positions free (R47). -/
def Warp.mayFill (w : Warp) : Option Nat :=
  if !w.goalFills.isEmpty then (w.goalFills.filter w.posFree).getLast?
  else if w.spillsFor w.goal |>.isEmpty then
    match w.ringBlocks with
    | j :: _ =>
      if 0 < j && w.spilled.contains (j - 1) && w.posFree (j - 1) && w.headroom + 8 ≤ w.freePos && !w.fseStuck (j - 1) true
      then some (j - 1) else none
    | [] => none
  else none

/-- The FSE has a spill or a fill to make (R47, R349). -/
def Warp.fseBusy (w : Warp) : Bool := !w.maySpill.isEmpty || w.mayFill.isSome

/-- The address of a block in the block area: FSLIM − 32W (j + 1) (R51). -/
def Warp.blockAddr (w : Warp) (j : Nat) : W64 := w.fslim - w64 (32 * Config.warpWidth * (j + 1))

/-! ### The warp's own accesses (R55) -/

/-- An access that warp `wid` has issued and that is still to be performed meets `n` bytes at a key. -/
def ownMeets (s : State) (wid k n : Nat) : Bool :=
  match s.warp? wid with
  | none => false
  | some w => w.ops.any (fun o => o.todo.any (fun a => a.meets { key := k, size := n }))

/-- The state with the accesses performed that the warp has issued, where some of them meet `n` bytes at a key: the FSE's
accesses are ordered after the warp's own as if the warp had made them (R55). -/
def ownFirst (wid k n : Nat) (s : State) : State := if ownMeets s wid k n then runAllOps wid s else s

/-! ### Spills and fills (R47, R49, R51) -/

/-- An FSE access has met a retry fault or has failed (R49). -/
def fseFault (s : State) (w : Warp) (j : Nat) (fill : Bool) (va : W64) (retry : Bool) : State :=
  let s1 := s.modWarp w.wid (fun x => { x with fse := x.fse ++ [{ blk := j, fill := fill, addr := va, retry := retry }] })
  if retry then addFault w.die w.ctx va (if fill then 5 else 4) s1 else s1

/-- The lane words of a block, two to an 8-byte word: lane l of register 8j + i at byte 4W i + 4 l (R51). -/
def Warp.blockWords (w : Warp) (j : Nat) : List (W64 × Bool) :=
  (List.range (4 * Config.warpWidth)).map (fun k =>
    let a := look {} w.v (256 * j + 2 * k)
    let b := look {} w.v (256 * j + 2 * k + 1)
    (pairOf a.bits b.bits, a.bad || b.bad))

/-- Store 8-byte words with their poison as warp `w` would: its core's L1 is updated and the cluster's others drop the line
(R55, R197). -/
def storeMarked (w : Warp) (s : State) (k : Nat) : List (W64 × Bool) → State
  | [] => s
  | (v, b) :: vs => storeMarked w (writeVia s w.core w.cluster k 8 v b) (k + 8) vs

/-- The 8-byte words at a key, with their poison. -/
def loadMarked (s : State) (k n : Nat) : List (W64 × Bool) :=
  (List.range n).map (fun i => (w64 (rdMem s.mem (k + 8 * i) 8), isBad s (k + 8 * i)))

/-- Registers of a block, without it. -/
def dropBlock (v : List (Nat × LW)) (j : Nat) : List (Nat × LW) := v.filter (fun e => !(e.1 / 256 == j))

/-- Put the words of a block into the ring (R49: each lane word of a poisoned word is poisoned). -/
def putBlock (v : List (Nat × LW)) (j : Nat) (ws : List (W64 × Bool)) : List (Nat × LW) :=
  (ws.foldl (fun (a : Nat × List (Nat × LW)) w =>
    (a.1 + 2, put {} (put {} a.2 a.1 ⟨lo32 w.1, w.2⟩) (a.1 + 1) ⟨hi32 w.1, w.2⟩)) (256 * j, dropBlock v j)).2

/-- Spill a block of a warp (R47, R49); it waits where the warp's own accesses to it are still behind ray batches (R55, R225). -/
def spillBlock (s : State) (w : Warp) (j : Nat) : State :=
  let va := w.blockAddr j
  match checkPage s w.ctx w.die va .write with
  | .error _ => fseFault s w j false va false
  | .ok (_, p) =>
    if !p.resident then fseFault s w j false va true
    else if w.raysFrame || (ownMeets s w.wid p.key (32 * Config.warpWidth) && w.raysBehind) then s
    else (storeMarked w (ownFirst w.wid p.key (32 * Config.warpWidth) s) p.key (w.blockWords j)).modWarp w.wid (fun x =>
      { x with v := dropBlock x.v j, spilled := x.spilled ++ [j] })

/-- Fill a block of a warp (R47, R49), in the same order. -/
def fillBlock (s : State) (w : Warp) (j : Nat) : State :=
  let va := w.blockAddr j
  match checkPage s w.ctx w.die va .read with
  | .error _ => fseFault s w j true va false
  | .ok (_, p) =>
    if !p.resident then fseFault s w j true va true
    else if w.raysFrame || (ownMeets s w.wid p.key (32 * Config.warpWidth) && w.raysBehind) then s
    else
      let t := ownFirst w.wid p.key (32 * Config.warpWidth) s
      let ws := loadMarked t p.key (4 * Config.warpWidth)
      t.modWarp w.wid (fun x => { x with v := putBlock x.v j ws, spilled := x.spilled.filter (fun i => i != j) })

/-- Dead blocks are dropped without being written (R47). -/
def Warp.dropDead (w : Warp) : Warp :=
  let top := (w.topT + 7) / 8
  let keep (j : Nat) : Bool := j < max top ((w.span.2 + 7) / 8)
  { w with v := w.v.filter (fun e => keep (e.1 / 256)), spilled := w.spilled.filter (fun j => decide (j < top))
           fse := w.fse.filter (fun f => f.record || decide (f.blk < top)) }

/-! ### Records in memory (R32, R52, R53) -/

/-- A loop level's two words (R52). -/
def loopWords (l : Loop) : List W64 :=
  [l.start, w64 (l.count.toNat + l.len * 2 ^ 32 + (if l.active then 2 ^ 48 else 0))]

/-- A loop level from its two words. -/
def loopOf (a b : W64) : Loop :=
  { start := a, count := lo32 b, len := bits b 47 32, active := b.getLsbD 48 }

/-- MODE as a path takes it from a record (R79): bits [31:21] read 0, and RM, which is never held at 5 to 7, is a free
value where a handler has stored one of these (log 134). -/
def modeOf (x : W32) : W32 :=
  let y := x &&& 0x001FFFFF#32
  if bits32 y 16 14 ≤ 4 then y else (y &&& 0x001E3FFF#32) ||| w32 (Config.restoredRm y % 5 * 2 ^ 14)

/-- The words of a record, with their poison (R32, R52). -/
def Rec.words (r : Rec) : List (W64 × Bool) :=
  match r.body with
  | .split p =>
    ([p.pc, pairOf p.frp (w32 p.wbase),
      w64 (p.fdepth + p.fsize * 2 ^ 16 + 2 * 2 ^ 24 + p.mode.toNat * 2 ^ 32),
      w64 (p.age + (match p.st with | .waiting => 2 | _ => 1) * 2 ^ 32 + (if p.enter then 2 ^ 40 else 0)),
      zx p.mask, 0, p.r0, p.r1, p.r2, p.r3] ++ loopWords p.lc0 ++ loopWords p.lc1 ++ loopWords p.lc2).map (·, false)
  | .call c =>
    ([c.retpc, pairOf c.prev (w32 c.wbase),
      w64 (c.fdepth + c.fsize * 2 ^ 16 + 1 * 2 ^ 24 + c.mode.toNat * 2 ^ 32),
      w64 (if c.splitRet then 1 else 0), zx c.pmask, 0, c.r0, c.r1, c.r2, c.r3] ++
      loopWords c.lc0 ++ loopWords c.lc1 ++ loopWords c.lc2).map (·, false) ++ c.scal.map (fun x => (x.bits, x.bad))

/-- A record's body as the FSE reads it back from memory (R53); its kind is the one it was pushed with. A stacked path's
AGE has risen by `aged` since the copy was made (R40), and its PC is a multiple of 4 (R67). -/
def bodyOf (old : RecBody) (aged : Nat) (ws : List (W64 × Bool)) : RecBody :=
  let g (i : Nat) : W64 := (ws.getD i (0, false)).1
  match old with
  | .split _ =>
    .split { st := if bits (g 3) 39 32 == 2 then .waiting else .running
             pc := g 0 &&& ~~~3#64, frp := lo32 (g 1), wbase := (hi32 (g 1)).toNat, fdepth := bits (g 2) 15 0
             fsize := bits (g 2) 23 16, mode := modeOf (hi32 (g 2)), age := min (bits (g 3) 31 0 + aged) 0xFFFFFFFF, enter := (g 3).getLsbD 40
             mask := lo32 (g 4), r0 := g 6, r1 := g 7, r2 := g 8, r3 := g 9
             lc0 := loopOf (g 10) (g 11), lc1 := loopOf (g 12) (g 13), lc2 := loopOf (g 14) (g 15) }
  | .call _ =>
    .call { retpc := g 0, prev := lo32 (g 1), wbase := (hi32 (g 1)).toNat, fdepth := bits (g 2) 15 0
            fsize := bits (g 2) 23 16, mode := modeOf (hi32 (g 2)), splitRet := (g 3).getLsbD 0, pmask := lo32 (g 4)
            r0 := g 6, r1 := g 7, r2 := g 8, r3 := g 9
            lc0 := loopOf (g 10) (g 11), lc1 := loopOf (g 12) (g 13), lc2 := loopOf (g 14) (g 15)
            scal := (List.range 16).map (fun i => let x := ws.getD (16 + i) (0, false); ⟨x.1, x.2⟩) }

/-- A retry fault holds the read of the record at a byte offset until the replay (R49). -/
def Warp.recHeld (w : Warp) (off : Nat) : Bool := w.fse.any (fun f => f.record && f.retry && f.blk == off)

/-- The FSE reads `n` bytes of the record at a byte offset of the record area, as the warp's own accesses leave them (R53, R55);
the address and whether it is a retry, where it cannot. A read that a retry fault holds is not made again before the replay
(R49). -/
def readRecord (s : State) (w : Warp) (off n : Nat) : Except (W64 × Bool) (List (W64 × Bool)) :=
  let va := w.fsbase + w64 off
  if w.recHeld off then .error (va, true)
  else match checkPage s w.ctx w.die va .read with
    | .error f => .error (f.tval, false)
    | .ok (_, p) => if p.resident then .ok (loadMarked (ownFirst w.wid p.key n s) p.key (n / 8)) else .error (va, true)

/-- The body of a record as a restore finds it: the one held, or what memory holds where FRAMESYNC has made that
current (R53). -/
def recBody (s : State) (w : Warp) (r : Rec) : Except (W64 × Bool) RecBody :=
  if r.inMem then
    match readRecord s w r.off r.size with
    | .ok ws => .ok (bodyOf r.body r.aged ws)
    | .error e => .error e
  else .ok r.body

/-- A path whose record could not be read, as memory has it now that it can: it is restored with that, at its reconvergence
address WAITING, and its AGE has gone on rising since the copy was made (R35 to R37, R40, R53). -/
def pathRead (p : Path) (l : Lost) (ws : List (W64 × Bool)) : Path :=
  match bodyOf (.split p) (p.age - l.base) ws with
  | .call _ => p
  | .split b =>
    let joins := b.st == .running && b.atJoin
    { b with
      st := if joins then .waiting else b.st, parked := p.parked, ran := p.ran
      owed := if joins then some true else if b.st == .waiting then some false else none }

/-- The path of a slot whose record could not be read: once the failure has been reported the FSE reads it again (R49). -/
def readLost (s : State) (w : Warp) (p : Path) : Path :=
  match p.lost with
  | none => p
  | some l =>
    if p.parked || w.pend.isSome || l.failed.isSome then p
    else match readRecord s w l.off 128 with
      | .ok ws => pathRead p l ws
      | .error (a, false) => { p with lost := some { l with failed := some a } }
      | .error (_, true) => p

/-- The same for the path on turn of a warp; the other slot's path is parked where the span would then exceed B (R44). -/
def Warp.readP (s : State) (w : Warp) : Warp :=
  if w.p.lost.isSome then ({ w with p := readLost s w w.p } : Warp).parkOther else w

/-- A bank with another trapped path (R336). -/
def Bank.withPath (b : Bank) (p : Path) : Bank :=
  { b with
    tepc := p.pc, mode := p.mode, fsize := p.fsize, enter := p.enter, wbase := p.wbase, hmask := p.mask, hr0 := p.r0, hr1 := p.r1
    hr2 := p.r2, hr3 := p.r3, hlc0 := p.lc0, hlc1 := p.lc1, hlc2 := p.lc2, hfrp := p.frp, hfdepth := p.fdepth, henter := p.enter
    lost := p.lost }

/-- A write of the record area comes to the record of a path that is still to be read from it: that is read first, where some record
of the warp takes its place, or `must` (R49, R349). -/
def readBefore (s : State) (w : Warp) (must : Bool) (p : Path) : Except (W64 × Bool) Path :=
  match p.lost with
  | none => .ok p
  | some l =>
    if must || w.recs.any (fun r => r.off < l.off + 128 && l.off < r.off + r.size) then
      match readRecord s w l.off 128 with
      | .ok ws => .ok (pathRead p l ws)
      | .error e => .error e
    else .ok p

/-- The same for the path of a bank. -/
def readBank (s : State) (w : Warp) (b : Bank) : Except (W64 × Bool) Bank :=
  match b.lost with
  | none => .ok b
  | some l =>
    match readBefore s w false { restoredPath b with lost := some l } with
    | .ok p => .ok (b.withPath p)
    | .error e => .error e

/-- The same for the path of a SPLIT record, which is itself written. -/
def readStacked (s : State) (w : Warp) (r : Rec) : Except (W64 × Bool) Rec :=
  match r.body with
  | .call _ => .ok r
  | .split t =>
    match readBefore s w true t with
    | .ok t' => .ok { r with body := .split t' }
    | .error e => .error e

/-- The warp before its records are written: what a write would destroy has been read (R49, R349). -/
def readsFirst (s : State) (w : Warp) : Except (W64 × Bool) Warp :=
  match readBefore s w false w.p, readBefore s w false w.q, readBank s w w.bank1, readBank s w w.bank2, w.recs.mapM (readStacked s w) with
  | .ok p, .ok q, .ok b1, .ok b2, .ok rs => .ok { w with p := p, q := q, bank1 := b1, bank2 := b2, recs := rs }
  | .error e, _, _, _, _ => .error e
  | _, .error e, _, _, _ => .error e
  | _, _, .error e, _, _ => .error e
  | _, _, _, .error e, _ => .error e
  | _, _, _, _, .error e => .error e

/-- Write every record of a warp to the record area; the first page that fails ends it with its address (R349). The warp's own
accesses to it come first (R55), and what a handler has changed in a record since an earlier FRAMESYNC stays (R53). -/
def writeRecords (s : State) (w : Warp) : Except (W64 × Bool) State :=
  w.recs.foldl (fun (acc : Except (W64 × Bool) State) r =>
    match acc with
    | .error e => .error e
    | .ok t =>
      let va := w.fsbase + w64 r.off
      match checkPage t w.ctx w.die va .write with
      | .error f => .error (f.tval, false)
      | .ok (_, p) =>
        if !p.resident then .error (va, true)
        else match recBody t w r with
          | .error e => .error e
          | .ok b => .ok (storeMarked w (ownFirst w.wid p.key r.size t) p.key { r with body := b }.words)) (.ok s)

/-- Every record of a warp is written to the record area and is current there (R349). -/
def syncRecords (s : State) (w : Warp) : Except (W64 × Bool) State :=
  match readsFirst s w with
  | .error e => .error e
  | .ok w1 =>
    match writeRecords s w1 with
    | .error e => .error e
    | .ok t => .ok (t.modWarp w.wid (fun x => { x with
        p := w1.p, q := w1.q, bank1 := w1.bank1, bank2 := w1.bank2
        recs := w1.recs.map (fun r => { r with inMem := true, aged := 0 }) }))

/-- The kind of the access that a retry fault has ended `syncRecords` with: a read comes first (R188). -/
def syncKind (s : State) (w : Warp) : Nat := match readsFirst s w with | .ok _ => 4 | .error _ => 5

/-- A SPLIT record that FRAMESYNC has written, as the FSE reads it (R53). A retry fault on its page keeps it from being restored
until the replay. Where the read fails, what memory holds of it is not known: the path that is restored stands as the device held
it, RUNNING, its first instruction reports the failure, and then the record is read again (R49, DEDUCED, log 164). -/
def refreshSplit (s : State) (w : Warp) (r : Rec) : Rec :=
  match r.body with
  | .call _ => r
  | .split p =>
    if r.inMem then
      match recBody s w r with
      | .ok b => { r with body := b, shut := false }
      | .error (_, true) => { r with shut := true }
      | .error (a, false) =>
        { r with body := .split { p with st := .running, lost := some ⟨r.off, p.age - r.aged, some a⟩ }, shut := false }
    else r

/-- Some path of the warp is to be restored from what memory holds of its record (R53). -/
def Warp.fromMem (w : Warp) : Bool := w.recs.any (fun r => r.inMem) || w.p.lost.isSome || w.q.lost.isSome

/-- Every SPLIT record, and every path of a slot whose record is still to be read, as the FSE reads it. -/
def refreshSplits (s : State) (w : Warp) : Warp :=
  let w1 := ((w.readP s).flip.readP s).flip
  { w1 with recs := w1.recs.map (refreshSplit s w1) }

/-- The paths of the slots whose records are still to be read, once their failure has been reported: the offsets of the
records (R49). -/
def Warp.lostOffs (w : Warp) : List Nat :=
  if w.pend.isSome then []
  else [w.p, w.q].filterMap (fun p => if p.parked then none else p.lost.bind (fun l => if l.failed.isNone then some l.off else none))

/-- Settle by `f`, each restored record being read from memory where that is current (R53); a record that stays goes on
being held as it was, and a held read of a record that is gone is no longer wanted. -/
def settleWith (f : Warp → Warp) (s : State) (w : Warp) : Warp :=
  if w.fromMem then
    let w1 := f (refreshSplits s w)
    { w1 with
      recs := w1.recs.map (fun r =>
        if r.inMem then { (w.recs.find? (fun o => o.off == r.off && o.order == r.order)).getD r with shut := r.shut } else r)
      fse := w1.fse.filter (fun e => !e.record || e.due || w1.lostOffs.contains e.blk || w1.recs.any (fun r => r.off == e.blk && r.shut)) }
  else f w

/-- A slot waits for the top SPLIT record, which a retry fault keeps from being read: an EMPTY slot that it would refill, or a
WAITING path that owes it a merge or an exchange (R36, R37, R39). -/
def Warp.shutWanted (w : Warp) : Bool :=
  match w.topStack with
  | none => false
  | some (r, t) =>
    r.shut && ((!w.p.held && w.fits (t :: [w.q].filter (fun x => x.held && !x.parked))) ||
      (!w.q.held && w.fits (t :: [w.p].filter (fun x => x.held && !x.parked))) || w.p.owed.isSome || w.q.owed.isSome)

/-- The FSE's read of a record meets a retry fault: a fault record of KIND 5, and the access is held until the replay
(R49). -/
def holdRecord (w : Warp) (off : Nat) (s : State) : State :=
  if w.recHeld off then s
  else
    let va := w.fsbase + w64 off
    addFault w.die w.ctx va 5 (s.modWarp w.wid (fun x => { x with fse := x.fse ++ [{ record := true, blk := off, fill := true, addr := va, retry := true }] }))

end Sys2Proof.Machine
end

