-- ==== Sys2Proof/Machine/Rings.lean ====
section
/-! DEFINITION. Host rings (R369), the records the device writes to them, the release of what a warp or a workgroup
holds, and the killing of a context (R325, R345, R346). -/

namespace Sys2Proof.Machine

/-! ### Rings (R369) -/

/-- A ring's place in the descriptor and its record size: 1 fault, 2 copy-status, 3 event. -/
def ringOff : Nat → Nat
  | 1 => 0x20
  | 2 => 0x40
  | _ => 0x60
def ringRec : Nat → Nat
  | 1 => 16
  | 2 => 32
  | _ => 256

/-- Whether a record finds no room: PROD − CONS = 2^LOG2N (R369). -/
def ringFull (s : State) (ctx ring : Nat) : Bool :=
  let at_ := (s.ctx ctx).desc + ringOff ring
  let prod := rdMem s.mem (at_ + 0x10) 8
  let cons := rdMem s.mem (at_ + 0x18) 8
  (prod + 2 ^ 64 - cons) % 2 ^ 64 == 2 ^ (rdMem s.mem (at_ + 8) 1)

/-- Where the next record of a ring goes (R369). -/
def ringSlot (s : State) (ctx ring : Nat) : Nat :=
  let at_ := (s.ctx ctx).desc + ringOff ring
  rdMem s.mem at_ 8 + ringRec ring * (rdMem s.mem (at_ + 0x10) 8 % 2 ^ (rdMem s.mem (at_ + 8) 1))

/-- PROD advances as a release at system scope (R369). -/
def ringAdvance (ctx ring : Nat) (s : State) : State :=
  let at_ := (s.ctx ctx).desc + ringOff ring
  storeMem (at_ + 0x10) 8 (w64 (rdMem s.mem (at_ + 0x10) 8 + 1)) false s

/-- Write a record and advance PROD. -/
def ringWrite (ctx ring : Nat) (bs : List Byte) (s : State) : State :=
  ringAdvance ctx ring (storeBytes s (ringSlot s ctx ring) bs)

/-- A record can be written now: an operation that produces one, but for a kill, does not end before (R369). A context that
is not registered takes no record. -/
def ringReady (s : State) (ctx ring : Nat) : Bool :=
  !(s.ctx ctx).live || !(ringFull s ctx ring || (s.ctx ctx).held.any (fun h => h.1 == ring))

/-- Write a record, or hold it until the ring has room (R369). -/
def ringOrHold (ctx ring : Nat) (bs : List Byte) (s : State) : State :=
  if (s.ctx ctx).live then
    if ringFull s ctx ring || (s.ctx ctx).held.any (fun h => h.1 == ring) then
      s.setCtx ctx { s.ctx ctx with held := (s.ctx ctx).held ++ [(ring, bs)] }
    else ringWrite ctx ring bs s
  else s

/-- A record of `n` bytes with some fields: offset, bytes, value; every other byte is zero (R15). -/
def recordOf (n : Nat) (fs : List (Nat × Nat × Nat)) : List Byte :=
  fs.foldl (fun bs f => patch bs f.1 (leBytes f.2.1 f.2.2)) (zeros n)

/-! ### Tile buffers (R316, R317, R325) -/

/-- Initialise a tile buffer: no sample of it is covered (R317). -/
def clearBuffer (seg : Nat) (s : State) : State :=
  (List.range 1024).foldl (fun s n => storeWords s (scratchKey seg (16 * n)) [0xFFFFFFFF3F800000, 0]) s

/-- A tile waits for a buffer of a cluster. -/
def VTile.waits (t : VTile) (c : Nat) : Bool := t.st == .dealt && !t.bound && t.cluster == c

/-- The next dealt tile of a cluster takes the next buffer of its hand-in list (R316). -/
def placeOne (c : Nat) (s : State) : State :=
  let cl := s.cluster c
  match cl.hand with
  | [] => s
  | b :: rest =>
    if s.tiles.any (fun t => t.waits c) then
      let seg := (look {} (s.wg b.wg).handles b.h).seg
      let s1 := clearBuffer seg (s.setCluster c { cl with hand := rest })
      { s1 with tiles := updFirst (fun t => t.waits c) (fun t => { t with st := .filling, bound := true, wg := b.wg, h := b.h }) s1.tiles }
    else s

/-- A cluster's WRS places as many tiles as it has buffers for. -/
def placeTiles (c : Nat) (s : State) : State := (List.range (s.cluster c).hand.length).foldl (fun s _ => placeOne c s) s

/-- Every cluster's. -/
def placeAll (s : State) : State := (List.range (liveClusters s).length).foldl (fun s c => placeTiles c s) s

/-- Withdraw a workgroup's buffers: hand-ins leave the lists; FILLING and FINISHED tiles return to DEALT, and go to the next
buffers that wait (R325). -/
def withdrawWg (wg : Nat) (only : Option Nat) (s : State) : State :=
  let mine (g h : Nat) : Bool := g == wg && (only == none || only == some h)
  placeAll { s with
    clusters := s.clusters.map (fun e => (e.1, { e.2 with hand := e.2.hand.filter (fun x => !mine x.wg x.h) }))
    tiles := s.tiles.map (fun t =>
      if t.bound && mine t.wg t.h && (t.st == .filling || t.st == .finished) then
        { t with st := .dealt, bound := false } else t) }

/-! ### Transactions: aborts and Tabards -/

/-- The lanes of a warp in a transaction state. -/
def Warp.txMask (w : Warp) (st : TxSt) : Mask :=
  if w.tx.isEmpty && st != .none then 0 else maskOf (fun l => (look {} w.tx l).st == st)

/-- ACTIVE lanes of a mask abort with a cause (R248, R256). -/
def Warp.abort (w : Warp) (m : Mask) (cause code : Nat) : Warp :=
  { w with tx := w.tx.map (fun e =>
      if m.getLsbD e.1 && e.2.st == .active then
        (e.1, { e.2 with st := .aborted, cause := cause, code := code, rlog := [], wlog := [] }) else e) }

/-- Release a warp's Tabard and withdraw its requests (R259). -/
def releaseTabard (wid : Nat) (s : State) : State :=
  { s with tabards := s.tabards.map (fun t =>
      if t.holder == some wid then { t with holder := none, lines := [], queue := t.queue.filter (· != wid) }
      else { t with queue := t.queue.filter (· != wid) }) }

/-- Whether a warp holds a Tabard (R258). -/
def holdsTabard (s : State) (wid : Nat) : Bool := s.tabards.any (fun t => t.holder == some wid)

/-! ### Freeing a context's work (R345) -/

/-- Drop the range-lock entries of copies that no longer exist. -/
def dropLocks (gone : Nat → Bool) (s : State) : State :=
  { s with cores := s.cores.map (fun e => (e.1, { e.2 with locks := e.2.locks.filter (fun l => !gone l.copy) })) }

/-- Remove every warp, workgroup, launch and copy of a context from the device, with what they hold. -/
def clearCtx (ctx : Nat) (s : State) : State :=
  let wids := (s.warps.filter (fun w => w.ctx == ctx)).map (·.wid)
  let s1 := wids.foldl (fun s wid => releaseTabard wid (runAllOps wid (s.modWarp wid (fun w => { w with batches := [] })))) s
  let mineWg (g : Nat) : Bool := (s1.kernel (s1.wg g).kern).ctx == ctx
  let wgs := (s1.wgs.map (·.1)).filter mineWg
  let s2 := wgs.foldl (fun s g => withdrawWg g none s) s1
  let s3 := dropLocks (fun c => s2.copies.any (fun x => x.id == c && x.ctx == ctx)) s2
  { s3 with
    copies := s3.copies.filter (fun c => c.ctx != ctx)
    cores := s3.cores.map (fun e =>
      match e.2.owner with
      | some g => if wgs.contains g then (e.1, { e.2 with owner := none, mxa := [], fromLeader := [] }) else e
      | none => e)
    launches := s3.launches.filter (fun l => !(l.2.wgs.any wgs.contains))
    wgs := s3.wgs.filter (fun g => !wgs.contains g.1)
    others := s3.others.filter (fun w => w.ctx != ctx)
    w := if s3.w.ctx == ctx && s3.w.resident then { s3.w with resident := false } else s3.w }

/-- The 40 bytes of a bank in a kill record (R346). -/
def Bank.fields (b : Bank) (off : Nat) : List (Nat × Nat × Nat) :=
  [(off, 8, b.cause + (if b.skip then 256 else 0) + (if b.lit then 512 else 0) + b.arg * 65536),
   (off + 8, 8, b.tepc.toNat), (off + 16, 8, b.tval.toNat), (off + 24, 8, b.tmask.toNat),
   (off + 32, 8, b.mode.toNat + b.fsize * 2 ^ 32 + (if b.enter then 2 ^ 36 else 0) + b.wbase * 2 ^ 40)]

/-- The kill record for a warp (R346). -/
def killRecord (s : State) (ctx reason cause level : Nat) (pc tval : W64) (lanes : Mask) (w : Warp) : List Byte :=
  let g := s.wg w.wg
  recordOf 256 ([(0x00, 4, ctx), (0x04, 1, reason), (0x05, 1, cause), (0x06, 1, level), (0x08, 8, pc.toNat),
    (0x10, 8, tval.toNat), (0x18, 8, lanes.toNat), (0x20, 4, g.x), (0x24, 4, g.y), (0x28, 4, g.z),
    (0x2C, 2, w.warpid), (0x2E, 2, w.core)] ++ w.bank1.fields 0x30 ++ w.bank2.fields 0x58 ++ [(0x80, 8, w.tsave.toNat)])

/-- HEAD advances past the head packet (R374). -/
def Queue.advance (q : Queue) : Queue :=
  { q with headKern := none, ready := false, head := q.head + 1
           arrivals := q.arrivals.dropWhile (fun a => a.1 == q.head + 1) }

/-- The children that wait in the ring of a queue complete with a state, each as a kernel of its own (R64, R382). -/
def endChildren (st : KSt) (q : Nat) (s : State) : State :=
  let ps := (s.queue q).pending
  let s1 := ps.foldl (fun (s : State) p =>
    let parent := s.kernel p.2.1
    let s1 := s.setKernel s.nextKern { live := true, queue := q, index := p.1, st := st, parent := some p.2.1 }
    { s1.setKernel p.2.1 { parent with
        children := parent.children.map (fun c => if c.1 == p.2.2 && c.2 == 0 then (c.1, s.nextKern) else c) } with
      nextKern := s.nextKern + 1 }) s
  s1.setQueue q { s1.queue q with pending := [] }

/-- Kill a context with a record (R345): its work ends, its kernels end, and one record is written or held. -/
def killCtx (ctx reason cause : Nat) (record : List Byte) (s : State) : State :=
  let st : KSt := if reason == 3 then .killed else .faulted cause
  let s1 := clearCtx ctx s
  let ended (k : Kernel) : Bool := k.live && k.ctx == ctx && k.st == .running
  let s2 := { s1 with
    queues := s1.queues.map (fun (e : Nat × Queue) =>
      let k := e.2.headKern
      let e1 : Queue := if (match k with | some n => ended (s1.kernel n) | none => false)
        then e.2.advance else e.2
      (e.1, if reason == 3 && bits e1.ctl 39 16 == ctx then { e1 with ctl := e1.ctl &&& ~~~(1#64) } else e1))
    kernels := s1.kernels.map (fun (e : Nat × Kernel) => if ended e.2 then (e.1, { e.2 with st := st }) else e)
    resumes := s1.resumes.filter (fun u => (s1.kernel u.kern).ctx != ctx) }
  let mineQ := ((s2.queues.filter (fun q => bits q.2.ctl 39 16 == ctx)).map (·.1))
  let s3 := mineQ.foldl (fun s q => endChildren st q s) s2
  ringOrHold ctx 3 record (s3.setCtx ctx { s3.ctx ctx with
    killed := true, dying := none, stop := 0, stopKerns := [], saved := [], gstart := none, later := [] })

/-- Of two warps that meet a kill in one cycle the record names the one of the lowest DIE_ID, then CORE_ID, then WARPID
(R345). -/
def Dying.before (a b : Dying) : Bool :=
  a.die < b.die || (a.die == b.die && (a.core < b.core || (a.core == b.core && a.warpid < b.warpid)))

/-- A warp of a context meets a kill, which takes effect at the end of the cycle (R345). -/
def meetKill (ctx : Nat) (d : Dying) (s : State) : State :=
  let c := s.ctx ctx
  s.setCtx ctx { c with dying := some (match c.dying with | none => d | some e => if d.before e then d else e) }

/-- The kill that a context's warps have met takes effect (R345). -/
def endKill (ctx : Nat) (s : State) : State :=
  match (s.ctx ctx).dying with
  | none => s
  | some d => killCtx ctx d.reason d.cause d.record s

/-- Every kill that has been met takes effect: a cycle ends (R345). -/
def endKills (s : State) : State := s.ctxs.foldl (fun s e => endKill e.1 s) s

end Sys2Proof.Machine
end

