-- ==== Sys2Proof/Machine/Ops.lean ====
section
/-! DEFINITION. The operations every instruction shares: `active`, the steps of an issue (R86), completion, taking an
exception (R339) and returning from one (R343), the span checks of R48 and R49, and lanes that fail a check inside a
transaction (R248). -/

namespace Sys2Proof.Machine

/-! ### Outcomes of an instruction's effect -/

/-- What the effect of an instruction comes to: it completes and falls through, or with the PC it has set; it raises
a trap; it does not issue in this cycle, with the stall code of R364; or it waits with its whole warp blocked (R65). -/
inductive Res where
  | fall (s : State)
  | jump (s : State)
  | trap (s : State) (t : TrapInfo)
  | wait (code : Nat) (s : State)
  | block (code : Nat) (s : State)

/-! ### MODE and `active` (R79, R81, R243) -/

def Path.gp (p : Path) : Nat := bits32 p.mode 2 0
def Path.gn (p : Path) : Bool := p.mode.getLsbD 3
def Path.ta (p : Path) : Nat := bits32 p.mode 8 4
def Path.tb (p : Path) : Nat := bits32 p.mode 13 9
def Path.rm (p : Path) : Nat := bits32 p.mode 16 14
def Path.sat (p : Path) : Bool := p.mode.getLsbD 17
def Path.ftz (p : Path) : Bool := p.mode.getLsbD 18
def Path.dzt (p : Path) : Bool := p.mode.getLsbD 19
def Path.fpt (p : Path) : Bool := p.mode.getLsbD 20

/-- The bits of a predicate register; p7 reads 1 in every lane (R77). -/
def Warp.pred (w : Warp) (n : Nat) : Mask := if n = 7 then fullMask else look 0 w.pr n

/-- `active`: the path's mask, narrowed by the guard where the instruction is guarded (R17, R81), without ABORTED
lanes at trap level 0 (R243). -/
def Warp.active (w : Warp) (guarded : Bool) : Mask :=
  let g := w.pred w.p.gp
  let m := if guarded then w.p.mask &&& (if w.p.gn then ~~~g else g) else w.p.mask
  if w.tlevel = 0 then m &&& ~~~(w.txMask .aborted) else m

/-- The lanes of a mask that are in a logged transaction that has not aborted (R242). -/
def Warp.activeTx (w : Warp) (m : Mask) : Mask := m &&& w.txMask .active

/-! ### Trace triggers (R363) -/

/-- The cluster samples a context (R361, R362). -/
def sampled (c : Cluster) (ctx : Nat) : Bool := c.sampctx.getLsbD 24 || bits c.sampctx 23 0 == ctx

/-- A condition register names kind `k` with value `v`. -/
def trigIs (r : W64) (k v bitsOfV : Nat) : Bool := bits r 3 0 == k && bits r 63 16 % 2 ^ bitsOfV == v

/-- A condition of kind 3 holds in this cycle (R363). -/
def trigHit (k v bitsOfV : Nat) (s : State) : State :=
  let c := s.cluster s.w.cluster
  if sampled c s.w.ctx then
    s.setCluster s.w.cluster { c with hitStart := c.hitStart || trigIs c.trigstart k v bitsOfV
                                      hitStop := c.hitStop || trigIs c.trigstop k v bitsOfV }
  else s

/-- A trap entry with a cause begins in the next cycle: the condition of kind 5 (R363). -/
def trigEntry (cause : Nat) (s : State) : State :=
  let c := s.cluster s.w.cluster
  if sampled c s.w.ctx then
    s.setCluster s.w.cluster { c with nextStart := c.nextStart || trigIs c.trigstart 5 cause 8
                                      nextStop := c.nextStop || trigIs c.trigstop 5 cause 8 }
  else s

/-! ### Trap entry (R339) -/

/-- Trap bank n. -/
def Warp.bank (w : Warp) (n : Nat) : Bank := if n = 1 then w.bank1 else w.bank2

/-- Replace trap bank n. -/
def Warp.setBank (w : Warp) (n : Nat) (b : Bank) : Warp := if n = 1 then { w with bank1 := b } else { w with bank2 := b }

/-- Registers `lo` to `hi` − 1 read zero in the lanes of a mask. -/
def zeroRegs (v : List (Nat × LW)) (lo hi : Nat) (m : Mask) : List (Nat × LW) :=
  v.filter (fun e => !(32 * lo ≤ e.1 && e.1 < 32 * hi && m.getLsbD (e.1 % 32)))

/-- The path of a handler for the trap of path `p` (R339). -/
def handlerPath (p : Path) (tvec : W64) (hsize : Nat) : Path :=
  { st := .running, pc := tvec, frp := p.frp, wbase := p.wbase + 8 * p.fsize, fdepth := p.fdepth, fsize := hsize
    mask := p.mask, ran := p.ran }

/-- What a bank holds after entry (R336, R339). -/
def bankOf (p : Path) (t : TrapInfo) (mark : Nat) : Bank :=
  { cause := t.cause, skip := t.cause == 0x14, lit := t.lit, arg := t.arg, tepc := p.pc, tval := t.tval
    tmask := t.lanes, mode := p.mode, fsize := p.fsize, enter := p.enter, wbase := p.wbase
    hmask := p.mask, hr0 := p.r0, hr1 := p.r1, hr2 := p.r2, hr3 := p.r3, hlc0 := p.lc0, hlc1 := p.lc1, hlc2 := p.lc2
    hfrp := p.frp, hfdepth := p.fdepth, henter := p.enter, mark := mark, depth := p.fdepth, lost := p.lost }

/-- The warp once it has entered level `n` for trap `t` (R339). -/
def Warp.entered (w : Warp) (n : Nat) (t : TrapInfo) : Warp :=
  let w1 := if w.q.held then { w.pushRec (.split w.q.out) with q := {} } else w
  let h := handlerPath w.p w.tvec w.hsize
  { w1.setBank n (bankOf w.p t w1.fsrp) with
    p := h, tlevel := n, pend := none, v := zeroRegs w1.v h.wbase (h.wbase + 8 * h.fsize) h.mask }

/-- The reservation of an entry (R339), which counts no group bytes. -/
def Warp.entryResv (w : Warp) : Nat := w.fsrp + 4 * Config.warpWidth * w.topT

/-- The warp on turn meets a kill of its context for the trap it has raised; it does not issue again (R345, R346). -/
def killFor (reason cause : Nat) (tval : W64) (lanes : Mask) (s : State) : State :=
  let w := s.w
  meetKill w.ctx ⟨reason, cause, w.die, w.core, w.warpid, killRecord s w.ctx reason cause w.tlevel w.p.pc tval lanes w⟩
    { s with w := { w with pend := none, issued := true, examA := true, examB := true } }

/-- A warp finds a grant when it is next examined. -/
def giveGrant (wid : Nat) (g : Grant) (s : State) : State := s.modWarp wid (fun w => { w with grant := some g })

/-- The partner workgroup under PAIR_MODE (R21, R299). -/
def partnerOf (s : State) (wg : Nat) : Option Nat :=
  let g := s.wg wg
  if g.pair then (s.launch g.launch).wgs.find? (fun h => (s.wg h).rank == g.rank ^^^ 1) else none

/-- An event in a workgroup ends its partner's waits for a pair operation with PAIR_FAULT (R300). -/
def pairEvent (wg tval : Nat) (s : State) : State :=
  match partnerOf s wg with
  | none => s
  | some p =>
    (s.wg p).pairWait.foldl (fun s x => giveGrant x.wid (.trap 0x0F (w64 tval)) s) (s.setWg p { s.wg p with pairWait := [] })

/-- The scratch that a tile operation reads or writes, by its first memory key. -/
def TileOp.keys : TileOp → List Nat
  | .load _ k _ | .store _ k _ | .scales _ k _ _ => [k]
  | _ => []

/-- The warp on turn has scratch accesses of tile operations still to be performed (R225, R238). -/
def State.tileBusy (s : State) : Bool :=
  (s.core s.w.core).mxa.any (fun j => j.wid == s.w.wid && !j.op.keys.isEmpty)

/-- Attempt the entry of the trap that the warp on turn has raised (R339): it kills the context, it waits on the FSE
as a CALL does, it reports a failed FSE access in place of its own cause (R49), or it enters. An entry for
FRAME_FAULT does not need the failed block. An entry meets the triggers with the cause that it enters with (R363). -/
def enterTrap (s : State) : State :=
  let entry (cause : Nat) (x : State) : State := trigEntry cause (pairEvent s.w.wg 0 x)
  match s.w.pend with
  | none => s
  | some t =>
    let n := s.w.tlevel + 1
    if n = 3 then killFor 0 t.cause t.tval t.lanes s
    else if s.w.tvec = 0 then killFor 1 t.cause t.tval t.lanes s
    else
      let w' := s.w.entered n t
      let r := w'.entryResv
      if !w'.resvOk r then killFor 2 0x0B (w64 r) t.lanes s
      else match w'.need w'.span w'.p.window with
        | .ready => entry t.cause { s with w := w'.recordHwm r }
        | .failed a =>
          if t.cause = 0x0C then entry 0x0C { s with w := w'.recordHwm r }
          else
            let t' : TrapInfo := { t with cause := 0x0C, tval := a, lanes := t.act, arg := 0 }
            entry 0x0C { s with w := (((s.w.entered n t').clearFail a).recordHwm r) }
        | .stall | .parked => s

/-- Raise a trap at the path on turn: every ACTIVE lane of the warp aborts with TRAP (R248, cause code 9), and entry
begins (R339). A trap ends an issue (R86), so that AGE becomes 0. -/
def raise (t : TrapInfo) (s : State) : State :=
  let w := s.w.abort fullMask 9 0
  enterTrap { s with w := { w with
    p := { w.p with age := 0, ran := true, stall := none, want := none }, pend := some t, block := none, grant := none
    retry := [], sleep := none, issued := true } }

/-! ### Completion (R35 to R41, R56, R68) -/

/-- What follows an issue: AGE becomes 0, and the path and the warp settle (R35 to R39, R44). -/
def issued (s : State) : State :=
  let w := { s.w with
    p := { s.w.p with age := 0, ran := s.w.p.held, stall := none, want := none }, fresh := false, block := none
    grant := none, retry := [], issued := true }
  { s with w := (settleWith Warp.settle s w).dropDead }

/-- The outcome of an instruction of `len` bytes. -/
def finish (len : Nat) : Res → Host.Outcome State Fault Refusal
  | .fall s => .next (issued { s with w := { s.w with p := s.w.p.fall len } })
  | .jump s => .next (issued s)
  | .trap s t => .next (raise t s)
  | .wait code s => .next { s with w := { s.w with p := { s.w.p with stall := some code } } }
  | .block code s => .next { s with w := { s.w with
      p := { s.w.p with stall := some code }, block := some code, arrivedB := s.w.onB } }

/-! ### The span that an instruction establishes (R44, R48, R49) -/

/-- Raise a trap whose lanes are `active`. -/
def trapAct (cause : Nat) (tval : W64) (act : Mask) (s : State) : Res :=
  .trap s { cause := cause, tval := tval, lanes := act, act := act }

/-- The warp while its instruction waits for warp `w1`: the path on turn asks for the window that it is to have, with that
of the part of a split that is to take the EMPTY other slot. The path that the other slot holds is parked with the instruction's
effect, not before (R44). -/
def Warp.asks (w w1 : Warp) : Warp :=
  { w with p := { w.p with want := some (if w.q.held then w1.p.window else w1.span) } }

/-- Go on with warp `w'`, whose span the instruction establishes: the other slot's path is parked where the span would
exceed B (R44), the instruction stalls until the span is ready (R48), and reports a failed access (R49). -/
def withSpan (s : State) (act : Mask) (w' : Warp) (k : State → Res) : Res :=
  let w1 := w'.parkOther
  match w1.need w1.span w1.p.window with
  | .ready => k { s with w := w1 }
  | .failed a => trapAct 0x0C a act { s with w := s.w.clearFail a }
  | .stall => .wait 4 { s with w := s.w.asks w1 }
  | .parked => .block 13 { s with w := s.w.asks w1 }

/-! ### Return from a trap (R343) -/

/-- RETT at a trap level above 0 (R343). -/
def returnTrap (s : State) (act : Mask) : Res :=
  let b := s.w.bank s.w.tlevel
  if s.w.q.held || s.w.fsrp ≠ b.mark || s.w.p.fdepth ≠ b.depth || s.w.p.enter then
    trapAct 0x01 0xF0000000#64 act s
  else
    let p := restoredPath b
    let p' := if b.skip then p.fall (if b.lit then 8 else 4) else p
    withSpan s act { s.w with p := p', tlevel := s.w.tlevel - 1 } .jump

/-! ### The steps of an issue (R86) -/

/-- The classes of R23. -/
inductive Cls where
  | control
  | vector
  | memory
  | barrier
  | copy
  | tile
  | graphics
deriving DecidableEq, Repr

/-- A role may issue a class (R23). -/
def Role.may : Role → Cls → Bool
  | .general, _ => true
  | .feed, c => c == .control || c == .memory || c == .barrier || c == .copy
  | .matrix, c => c == .control || c == .barrier || c == .tile

/-- A vector operand: its first register, the registers it names, and whether the first must be even (R14, R77, R78). -/
structure VOp where
  n : Nat
  cnt : Nat := 1
  even : Bool := false
deriving DecidableEq, Repr

/-- An operand whose poison traps (R202): a scalar register, or consecutive vector registers, which begin `off` after
the register that the field names (R213). -/
structure Use where
  sc : Bool := false
  n : Nat
  cnt : Nat := 1
  off : Nat := 0
deriving DecidableEq, Repr

/-- What the steps of R86 need to know of an instruction. -/
structure Gate where
  /-- The first word, zero-extended. -/
  word : W64
  len : Nat := 4
  guard : Bool := false
  cls : Cls
  /-- The legality rules that the path's state decides (R82, R45). -/
  ok : Bool := true
  isEnter : Bool := false
  regs : List VOp := []
  /-- Absolute registers that an instruction touches beside `regs`: those outside the path's window that VRDOUT and VWROUT
  name (R124), and those that ENTER zeroes (R168). -/
  outer : List (Nat × Nat) := []
  scals : List Nat := []
  uses : List Use := []
  priv : Bool := true
  engine : Bool := true
  /-- The counter that the instruction would raise stands at 63 (R203). -/
  full : Bool := false
  /-- The instruction accesses scratch, or releases, after the scratch accesses of the warp's tile operations. -/
  sync : Bool := false
  /-- The instruction releases: it waits for the warp's ray batches (R225, R328). -/
  rel : Bool := false
  /-- Performed directly in ACTIVE lanes (R247); otherwise these lanes abort with UNSUPPORTED. -/
  tx : Bool := true
  /-- The checks of R187 that follow the one of poisoned operands, in a lane, as the body makes them. -/
  later : State → Nat → Option Fail := fun _ _ => none

/-- A vector operand lies within the path's frame, and starts at an even register where it must (R43, R78). -/
def VOp.legal (p : Path) (v : VOp) : Bool := v.n + v.cnt ≤ 8 * p.fsize && (!v.even || v.n % 2 == 0)

/-- Step 3 of R86: the state's part of the legality rules of R87. -/
def Gate.legal (gt : Gate) (w : Warp) : Bool :=
  gt.ok && (gt.isEnter == w.p.enter || (gt.isEnter && w.fresh && w.p.fdepth == 0)) && gt.regs.all (VOp.legal w.p)

/-- A trap of the word itself. -/
def Gate.trap (gt : Gate) (cause : Nat) (tval : W64) (act : Mask) : Option TrapInfo :=
  some { cause := cause, tval := tval, lanes := act, act := act, lit := gt.len == 8 }

/-- Steps 3 and 4 of R86: the trap of an illegal or misaligned instruction, if any. -/
def Gate.check (gt : Gate) (w : Warp) (act : Mask) : Option TrapInfo :=
  if !gt.legal w then gt.trap 0x01 gt.word act
  else if gt.len = 8 ∧ w.p.pc.getLsbD 2 then gt.trap 0x03 w.p.pc act
  else none

/-- The lanes in which the instruction issues: where it is not performed in ACTIVE lanes these abort first (R247). -/
def Gate.left (gt : Gate) (w : Warp) (act : Mask) : Mask := if gt.tx then act else act &&& ~~~(w.activeTx act)

/-- The ACTIVE lanes abort with UNSUPPORTED where the instruction is not performed in them (R247, cause code 10). -/
def Gate.dropTx (gt : Gate) (s : State) (act : Mask) : State :=
  if gt.tx || s.w.activeTx act == 0 then s else { s with w := s.w.abort (s.w.activeTx act) 10 0 }

/-- Steps 5 and 6 of R86, in the lanes left: an instruction with none has no effect and raises no trap (R18). -/
def Gate.rights (gt : Gate) (w : Warp) (act : Mask) : Option TrapInfo :=
  if act = 0 then none
  else if w.tlevel = 0 ∧ !w.role.may gt.cls then gt.trap 0x02 gt.word act
  else if !gt.engine then gt.trap 0x1A gt.word act
  else if !gt.priv then gt.trap 0x17 gt.word act
  else none

/-- Two ranges of registers meet. -/
def rangesMeet (a b : Nat × Nat) : Bool := a.1 < b.1 + b.2 && b.1 < a.1 + a.2

/-- The registers that TMOVVs of a warp in an array's queue will write (R205, R301). -/
def awaitedMovv (s : State) (w : Warp) : List (Nat × Nat) :=
  (s.core w.core).mxa.filterMap (fun j => match j.op with
    | .movv x _ _ _ _ => if j.wid == w.wid then some (x, 8) else none
    | _ => none)

/-- An operand awaits an outstanding write (R205). -/
def Gate.hazard (gt : Gate) (s : State) : Bool :=
  let w := s.w
  let aw := w.awaitedV ++ awaitedMovv s w
  (!aw.isEmpty && (gt.regs.any (fun r => aw.any (rangesMeet (w.p.wbase + r.n, r.cnt))) ||
      gt.outer.any (fun r => aw.any (rangesMeet r)))) ||
    gt.scals.any (fun n => w.awaitedS.contains n)

/-! ### Lanes that fail a check (R187, R202, R248) -/

/-- Lane l of v[n] of the path on turn (R43). -/
def Warp.vl (w : Warp) (n l : Nat) : LW := look {} w.v (32 * (w.p.wbase + n) + l)

/-- A scalar register. -/
def Warp.sr (w : Warp) (n : Nat) : SW := look {} w.s n

/-- A use is poisoned in a lane. -/
def Use.bad (w : Warp) (u : Use) (l : Nat) : Bool :=
  if u.sc then (w.sr (u.n + u.off)).bad else (List.range u.cnt).any (fun i => (w.vl (u.n + u.off + i) l).bad)

/-- The check of R202 in a lane: TVAL holds the register field and the class. -/
def poisonFail (w : Warp) (us : List Use) (l : Nat) : Option Fail :=
  (us.find? (fun u => u.bad w l)).map (fun u => ⟨1, 0x15, w64 (u.n + if u.sc then 256 else 0)⟩)

/-- The causes for which a failed check aborts an ACTIVE lane with FAULT and raises no trap for it (R248). -/
def faultAborts (cause : Nat) : Bool := [0x03, 0x04, 0x05, 0x08, 0x0D, 0x15].contains cause

/-- Lanes that fail a check: ACTIVE ones abort with FAULT (cause code 4) for the causes of R248; for the others the first
cause in the order of R187 traps, with the lowest lane's TVAL and the lanes that meet it; otherwise the instruction goes on
in the lanes left (R187, R248). -/
def failLanes (fail : Nat → Option Fail) (s : State) (act : Mask) (k : State → Mask → Res) : Res :=
  let fs := (lanesOf act).filterMap (fun l => (fail l).map (fun f => (l, f)))
  if fs.isEmpty then k s act
  else
    let bad := maskOf (fun l => fs.any (fun f => f.1 == l && faultAborts f.2.cause))
    let tx := s.w.activeTx bad
    let s1 : State := { s with w := s.w.abort tx 4 0 }
    let rest := fs.filter (fun f => !tx.getLsbD f.1)
    match rest with
    | [] => let act' := act &&& ~~~tx; if act' = 0 then .fall s1 else k s1 act'
    | f :: more =>
      let first := more.foldl (fun (m : Fail) g => if g.2.stage < m.stage then g.2 else m) f.2
      .trap s1 { cause := first.cause, tval := first.tval, act := act
                 lanes := maskOf (fun l => rest.any (fun g => g.1 == l && g.2.stage == first.stage && g.2.cause == first.cause)) }

/-- A poisoned operand of a lane that is not ACTIVE is to trap, so that the body does not run: each check of R187 runs in every lane
all the same, and the ACTIVE lanes that fail a later one abort with FAULT first (R187, R248). -/
def Gate.abortLater (gt : Gate) (s : State) (act : Mask) : State :=
  let tx := s.w.activeTx act
  if tx = 0 ∨ (lanesOf (act &&& ~~~tx)).all (fun l => (poisonFail s.w gt.uses l).isNone) then s
  else { s with w := s.w.abort (maskOf (fun l =>
    tx.getLsbD l && (poisonFail s.w gt.uses l).isNone && (gt.later s l).any (fun f => faultAborts f.cause))) 4 0 }

/-- The part of an issue after step 6, in the lanes left by the aborts of R247: poisoned operands are met (R202), and the
body acts on the lanes that pass. -/
def Gate.lanes (gt : Gate) (body : State → Mask → Res) (s : State) (act : Mask) : Res :=
  let l := gt.left s.w act
  if l = 0 ∧ act ≠ 0 then .fall (gt.dropTx s act)
  else failLanes (poisonFail s.w gt.uses) (gt.abortLater (gt.dropTx s act) l) l body

/-- Issue an instruction: steps 2 to 7 of R86. -/
def Gate.run (gt : Gate) (body : State → Mask → Res) (s : State) : Host.Outcome State Fault Refusal :=
  let act := s.w.active gt.guard
  if gt.guard && act == 0 then finish gt.len (.fall s)
  else
    match gt.check s.w act with
    | some t => finish gt.len (.trap s t)
    | none =>
      match gt.rights s.w (gt.left s.w act) with
      | some t => finish gt.len (.trap (gt.dropTx s act) t)
      | none =>
        if gt.hazard s then finish gt.len (.wait 1 s)
        else if gt.full && act != 0 then finish gt.len (.wait 17 s)
        else if (gt.sync && s.tileBusy) || (gt.rel && s.w.raysOpen) then finish gt.len (.wait 3 s)
        else
          match gt.lanes body s act with
          | .trap s' t => finish gt.len (.trap s' { t with lit := gt.len == 8 })
          | r => finish gt.len r

/-- A body that acts at once on the warp and falls through. -/
def onWarp (f : Warp → Mask → Warp) (s : State) (act : Mask) : Res := .fall { s with w := f s.w act }

/-! ### Instruction words (R72) -/

def wordA (op : BitVec 7) (d a b : BitVec 6) (fn : BitVec 4) (g t : Bool) : W64 :=
  zx (op ++ d ++ a ++ b ++ fn ++ BitVec.ofBool g ++ BitVec.ofBool t ++ 0#1)
def wordC (op : BitVec 7) (d a b c : BitVec 6) (g : Bool) : W64 := zx (op ++ d ++ a ++ b ++ c ++ BitVec.ofBool g)
def wordI (op : BitVec 7) (d a : BitVec 6) (imm : BitVec 12) (g : Bool) : W64 :=
  zx (op ++ d ++ a ++ imm ++ BitVec.ofBool g)
def wordL (op : BitVec 7) (d : BitVec 6) (fn : BitVec 3) (imm : BitVec 16) : W64 := zx (op ++ d ++ fn ++ imm)
def wordX (op : BitVec 7) (d : BitVec 6) (fn : BitVec 3) (g : Bool) : W64 :=
  zx (op ++ d ++ fn ++ 0#15 ++ BitVec.ofBool g)
def wordM (op : BitVec 7) (d a b : BitVec 6) (sc : BitVec 3) (o : BitVec 2) (g t : Bool) : W64 :=
  zx (op ++ d ++ a ++ b ++ sc ++ o ++ BitVec.ofBool g ++ BitVec.ofBool t)
def wordQ (op : BitVec 7) (d a b : BitVec 6) (aop : BitVec 4) (sc : BitVec 3) : W64 :=
  zx (op ++ d ++ a ++ b ++ aop ++ sc)
def wordB (op : BitVec 7) (p : BitVec 3) (n : Bool) (tgt : BitVec 13) (rcd : BitVec 8) : W64 :=
  zx (op ++ p ++ BitVec.ofBool n ++ tgt ++ rcd)
def wordJ (op : BitVec 7) (k : BitVec 3) (off : BitVec 22) : W64 := zx (op ++ k ++ off)
def wordN (op : BitVec 7) (g : Bool) : W64 := zx (op ++ 0#24 ++ BitVec.ofBool g)
def wordH (op : BitVec 7) (last : BitVec 8) (count : BitVec 16) : W64 := zx (op ++ last ++ count ++ 0#1)

/-- A p-class or tile-class register number in a register field (R77). -/
def in6 {n : Nat} (x : BitVec n) : BitVec 6 := x.zeroExtend 6

end Sys2Proof.Machine
end

