-- ==== Sys2Proof/Machine/Operands.lean ====
section
/-! DEFINITION. Operand forms: scalar, predicate and vector operands as a type holds them (R14, R75, R77, R111),
per-lane results, and lane reads across a warp (R137). -/

namespace Sys2Proof.Machine

/-! ### Scalars and predicates (R148, R149) -/

/-- Write a whole scalar register with a poison mark (R202). -/
def Warp.setS (w : Warp) (d : Nat) (x : W64) (bad : Bool) : Warp := { w with s := put {} w.s d ⟨x, bad⟩ }

/-- Write a predicate register in the lanes of `act`; a write to p7 is discarded (R77). -/
def Warp.setP (w : Warp) (d : Nat) (act m : Mask) : Warp :=
  if d = 7 then w else { w with pr := put 0 w.pr d ((w.pred d &&& ~~~act) ||| (m &&& act)) }

/-! ### Types (R75, R83, R111) -/

/-- The type that T selects (R75). -/
def Path.typ (p : Path) (t : Bool) : Nat := if t then p.tb else p.ta

/-- A type is held in a pair of registers (R14, R111). -/
def wideType (ty : Nat) : Bool := typeBits ty == 64

/-- Registers that a value of a type takes. -/
def typeRegs (ty : Nat) : Nat := if wideType ty then 2 else 1

/-- A vector operand of a type (R14, R78). -/
def vop (n : BitVec 6) (ty : Nat) : VOp := { n := n.toNat, cnt := typeRegs ty, even := wideType ty }

/-- A vector operand of one 32-bit register. -/
def vop1 (n : BitVec 6) : VOp := { n := n.toNat }

/-- A vector operand whose poison traps, of a type (R202). -/
def useV (n : BitVec 6) (ty : Nat) : Use := { n := n.toNat, cnt := typeRegs ty }

/-- A 32-bit vector operand whose poison traps. -/
def useV1 (n : BitVec 6) : Use := { n := n.toNat }

/-- A scalar operand whose poison traps. -/
def useS (n : BitVec 6) : Use := { sc := true, n := n.toNat }

/-! ### Lanes of vector registers -/

/-- The register bits of an operand in a lane: a pair for a 64-bit type, one register otherwise (R14, R111). -/
def Warp.rawV (w : Warp) (wide : Bool) (n l : Nat) : W64 :=
  if wide then pairOf (w.vl n l).bits (w.vl (n + 1) l).bits else zx (w.vl n l).bits

/-- Whether an operand is poisoned in a lane (R202). -/
def Warp.badV (w : Warp) (wide : Bool) (n l : Nat) : Bool := (w.vl n l).bad || (wide && (w.vl (n + 1) l).bad)

/-- An operand as the bits of its type (R111). -/
def Warp.opnd (w : Warp) (ty n l : Nat) : Nat := (w.rawV (wideType ty) n l).toNat % 2 ^ typeBits ty

/-- One lane word of v[n] of the path on turn (R43). -/
def Warp.setL (w : Warp) (n l : Nat) (x : LW) : Warp := { w with v := put {} w.v (32 * (w.p.wbase + n) + l) x }

/-- Write a lane of an operand, a pair where it is wide (R14). -/
def Warp.setRaw (w : Warp) (wide : Bool) (n l : Nat) (x : W64) (bad : Bool) : Warp :=
  let w1 := w.setL n l ⟨lo32 x, bad⟩
  if wide then w1.setL (n + 1) l ⟨hi32 x, bad⟩ else w1

/-- The register bits that hold a value of a type (R111): zero-extended, or the sign for the signed narrow types. -/
def heldAs (ty : Nat) (x : Nat) : W64 := if isSigned ty && typeBits ty < 32 then extend (typeBits ty / 8) true (w64 x) else w64 x

/-- The same for the 4-bit signed type. -/
def heldBits (ty : Nat) (x : Nat) : W64 := if ty = 1 then (BitVec.ofNat 4 x).signExtend 64 else heldAs ty x

/-- Write, in each lane of `act`, what `f` gives from the warp as it stood (R18, R116). -/
def Warp.eachLane (w : Warp) (act : Mask) (f : Nat → Warp → Warp) : Warp := (lanesOf act).foldl (fun v l => f l v) w

/-- Write register `d` of a width in each lane of `act`, with values and poison from the warp as it stood. -/
def Warp.lanesTo (w : Warp) (wide : Bool) (d : Nat) (act : Mask) (f : Nat → W64 × Bool) : Warp :=
  w.eachLane act (fun l v => let r := f l; v.setRaw wide d l r.1 r.2)

/-- Write values of a type in each lane of `act` (R111). -/
def Warp.results (w : Warp) (ty d : Nat) (act : Mask) (f : Nat → Nat) : Warp :=
  w.lanesTo (wideType ty) d act (fun l => (heldBits ty (f l), false))

/-- What a cross-lane instruction reads of lane l: zero outside the path's mask (R137). -/
def Warp.crossV (w : Warp) (wide : Bool) (n l : Nat) : W64 × Bool :=
  if w.p.mask.getLsbD l then (w.rawV wide n l, w.badV wide n l) else (0, false)

/-! ### Types that instructions allow (R82) -/

/-- UI32, SI32, UI64, SI64, UI16X2 and SI16X2: the types of R117. -/
def intType (t : Nat) : Bool := (6 ≤ t && t ≤ 9) || t == 28 || t == 29
/-- The types of R118. -/
def logType (t : Nat) : Bool := intType t || t == 30 || t == 31
/-- The types of R120 and R121: B32, UI32, SI32, B64, UI64 and SI64. -/
def wordType (t : Nat) : Bool := (6 ≤ t && t ≤ 9) || t == 30 || t == 31
/-- The types of R122 and R124: those whose register width is 32 or 64 bits. -/
def moveType (t : Nat) : Bool := (6 ≤ t && t ≤ 14) || (26 ≤ t && t ≤ 31)
/-- F16, BF16, F32, F64 and E8M10. -/
def floatType (t : Nat) : Bool := 10 ≤ t && t ≤ 14
/-- The types of R126. -/
def arithType (t : Nat) : Bool := floatType t || t == 26 || t == 27
/-- The scalar types of R135: codes 0 to 19. -/
def scalarType (t : Nat) : Bool := t ≤ 19
/-- The memory types of R208. -/
def memType (t : Nat) : Bool := (2 ≤ t && t ≤ 16) || (26 ≤ t && t ≤ 31)
/-- Bytes of a memory access of a type (R208). -/
def memBytes (t : Nat) : Nat := (typeBits t + 7) / 8

end Sys2Proof.Machine
end

