-- ==== Sys2Proof/Machine/Flags.lean ====
section
/-! DEFINITION. The flag computations: FFLAGS gathers the flags raised in the active lanes, and an invalid operation
traps where MODE.FPT is set (R114, R115). -/

namespace Sys2Proof.Machine

/-- FFLAGS ORs in what an instruction has raised in its active lanes (R114). -/
def Warp.orFlags (w : Warp) (fl : BitVec 5) : Warp := { w with fflags := w.fflags ||| fl }

/-- IV is raised. -/
def raisesIV (fl : BitVec 5) : Bool := fl.getLsbD 4

/-- The lanes whose flags hold IV. -/
def ivLanes (act : Mask) (f : Nat → BitVec 5) : Mask := maskOf (fun l => act.getLsbD l && raisesIV (f l))

/-- The OR of the flags that `f` raises in the lanes of `act`. -/
def flagsIn (act : Mask) (f : Nat → BitVec 5) : BitVec 5 := (lanesOf act).foldl (fun fl l => fl ||| f l) 0

/-- Complete a flag-setting instruction: it traps with FP_INVALID where FPT is set and a lane raises IV, with those
lanes as TMASK; otherwise FFLAGS gathers the flags and `k` writes the results (R114, R115). -/
def withFlags (word : W64) (s : State) (act : Mask) (fl : Nat → BitVec 5) (k : Warp → Warp) : Res :=
  let iv := ivLanes act fl
  if s.w.p.fpt ∧ iv ≠ 0 then .trap s { cause := 0x0A, tval := word, lanes := iv, act := act }
  else .fall { s with w := (k s.w).orFlags (flagsIn act fl) }

/-- The same for the reductions and scans, whose TMASK is `active` (R115). -/
def withTreeFlags (word : W64) (s : State) (act : Mask) (fl : BitVec 5) (k : Warp → Warp) : Res :=
  if s.w.p.fpt ∧ raisesIV fl then trapAct 0x0A word act s
  else .fall { s with w := (k s.w).orFlags fl }

end Sys2Proof.Machine
end

