-- ==== Sys2Proof/Machine/Vector.lean ====
section
/-! DEFINITION. Vector integer instructions and moves, opcodes 0x20 to 0x2A (R116 to R125). -/

namespace Sys2Proof.Machine

/-! ### Elements (R111) -/

/-- Compute on each element of a packed type, or on the value of another type, in the bits of the type (R111). -/
def perElem (ty : Nat) (f : Nat → Nat → Nat) (x y : Nat) : Nat :=
  if isPacked ty then f (x % 65536) (y % 65536) % 65536 + 65536 * (f (x / 65536) (y / 65536) % 65536) else f x y

/-- As `perElem`, with three operands. -/
def perElem3 (ty : Nat) (f : Nat → Nat → Nat → Nat) (x y z : Nat) : Nat :=
  if isPacked ty then
    f (x % 65536) (y % 65536) (z % 65536) % 65536 + 65536 * (f (x / 65536) (y / 65536) (z / 65536) % 65536)
  else f x y z

/-- The value of an n-bit pattern read as signed, whatever the type. -/
def sgnOf (n x : Nat) : Int := if 2 ^ (n - 1) ≤ x % 2 ^ n then (x % 2 ^ n : Int) - (2 ^ n : Nat) else (x % 2 ^ n : Nat)

/-! ### Shared forms -/

/-- What a vector instruction of one type and register operands d, sources needs (R116). -/
def vGate (word : W64) (g : Bool) (ok : Bool) (ty : Nat) (d : BitVec 6) (src : List (BitVec 6)) : Gate :=
  { word := word, guard := g, cls := .vector, ok := ok, regs := vop d ty :: src.map (fun r => vop r ty)
    uses := src.map (fun r => useV r ty) }

/-- A vector instruction of two sources in format A: lane by lane, on the bits of the type (R116). -/
def vBin (op : BitVec 7) (fn : BitVec 4) (d a b : BitVec 6) (g t : Bool) (legal : Nat → Bool)
    (f : Path → Nat → Nat → Nat → Nat) (s : State) : Host.Outcome State Fault Refusal :=
  let ty := s.w.p.typ t
  (vGate (wordA op d a b fn g t) g (legal ty) ty d [a, b]).run
    (onWarp (fun w act => w.results ty d.toNat act (fun l => f w.p ty (w.opnd ty a.toNat l) (w.opnd ty b.toNat l)))) s

/-- The same with one source. -/
def vUn (op : BitVec 7) (fn : BitVec 4) (d a : BitVec 6) (g t : Bool) (legal : Nat → Bool)
    (f : Path → Nat → Nat → Nat) (s : State) : Host.Outcome State Fault Refusal :=
  let ty := s.w.p.typ t
  (vGate (wordA op d a 0 fn g t) g (legal ty) ty d [a]).run
    (onWarp (fun w act => w.results ty d.toNat act (fun l => f w.p ty (w.opnd ty a.toNat l)))) s

/-! ### VIADD (R117) -/

/-- An exact integer result in a type's width, saturated where SAT applies and is set (R117). -/
def intResult (p : Path) (te : Nat) (sats : Bool) (x : Int) : Nat := intPat te (if sats && p.sat then satInt te x else x)

/-- A VIADD operation on exact integers, per element. -/
def viadd (sats : Bool) (op : Int → Int → Int) (p : Path) (ty x y : Nat) : Nat :=
  let te := elemOf ty
  perElem ty (fun x y => intResult p te sats (op (intOf te x) (intOf te y))) x y

/-- VADD (R117). -/
def execVadd (d a b : BitVec 6) (g t : Bool) (s : State) : Host.Outcome State Fault Refusal :=
  vBin 0x20 0 d a b g t intType (viadd true (fun x y => x + y)) s
/-- VSUB (R117). -/
def execVsub (d a b : BitVec 6) (g t : Bool) (s : State) : Host.Outcome State Fault Refusal :=
  vBin 0x20 1 d a b g t intType (viadd true (fun x y => x - y)) s
/-- VMUL (R117). -/
def execVmul (d a b : BitVec 6) (g t : Bool) (s : State) : Host.Outcome State Fault Refusal :=
  vBin 0x20 2 d a b g t intType (viadd true (fun x y => x * y)) s
/-- VMULH: the high bits of the signed product, whatever the type (R117). -/
def execVmulh (d a b : BitVec 6) (g t : Bool) (s : State) : Host.Outcome State Fault Refusal :=
  vBin 0x20 3 d a b g t intType (fun _ ty x y =>
    let n := typeBits (elemOf ty)
    perElem ty (fun x y => lowBits n (sgnOf n x * sgnOf n y / (2 ^ n : Nat))) x y) s
/-- VMULHU: the high bits of the unsigned product, whatever the type (R117). -/
def execVmulhu (d a b : BitVec 6) (g t : Bool) (s : State) : Host.Outcome State Fault Refusal :=
  vBin 0x20 4 d a b g t intType (fun _ ty x y =>
    let n := typeBits (elemOf ty)
    perElem ty (fun x y => x * y / 2 ^ n) x y) s
/-- VMIN (R117). -/
def execVmin (d a b : BitVec 6) (g t : Bool) (s : State) : Host.Outcome State Fault Refusal :=
  vBin 0x20 5 d a b g t intType (viadd false min) s
/-- VMAX (R117). -/
def execVmax (d a b : BitVec 6) (g t : Bool) (s : State) : Host.Outcome State Fault Refusal :=
  vBin 0x20 6 d a b g t intType (viadd false max) s
/-- VABS: of a signed type (R117). -/
def execVabs (d a : BitVec 6) (g t : Bool) (s : State) : Host.Outcome State Fault Refusal :=
  vUn 0x20 7 d a g t (fun ty => intType ty && isSigned ty) (fun p ty x => viadd true (fun x _ => x.natAbs) p ty x 0) s
/-- VNEG (R117). -/
def execVneg (d a : BitVec 6) (g t : Bool) (s : State) : Host.Outcome State Fault Refusal :=
  vUn 0x20 8 d a g t intType (fun p ty x => viadd true (fun x _ => -x) p ty x 0) s
/-- VABSDIFF: exact, written unsigned (R117). -/
def execVabsdiff (d a b : BitVec 6) (g t : Bool) (s : State) : Host.Outcome State Fault Refusal :=
  vBin 0x20 9 d a b g t intType (viadd false (fun x y => (x - y).natAbs)) s
/-- VAVG: floor((a + b + 1) / 2) (R117). -/
def execVavg (d a b : BitVec 6) (g t : Bool) (s : State) : Host.Outcome State Fault Refusal :=
  vBin 0x20 10 d a b g t intType (viadd false (fun x y => (x + y + 1) / 2)) s

/-! ### VLOG (R118) -/

/-- A bit operation on n-bit patterns, per element; the type supplies only the width. -/
def vlog (op : Nat → Nat → Nat → Nat) (_ : Path) (ty x y : Nat) : Nat :=
  let n := typeBits (elemOf ty)
  perElem ty (fun x y => op n x y % 2 ^ n) x y

/-- VAND (R118). -/
def execVand (d a b : BitVec 6) (g t : Bool) (s : State) : Host.Outcome State Fault Refusal :=
  vBin 0x21 0 d a b g t logType (vlog (fun _ x y => x &&& y)) s
/-- VOR (R118). -/
def execVor (d a b : BitVec 6) (g t : Bool) (s : State) : Host.Outcome State Fault Refusal :=
  vBin 0x21 1 d a b g t logType (vlog (fun _ x y => x ||| y)) s
/-- VXOR (R118). -/
def execVxor (d a b : BitVec 6) (g t : Bool) (s : State) : Host.Outcome State Fault Refusal :=
  vBin 0x21 2 d a b g t logType (vlog (fun _ x y => x ^^^ y)) s
/-- VANDN (R118). -/
def execVandn (d a b : BitVec 6) (g t : Bool) (s : State) : Host.Outcome State Fault Refusal :=
  vBin 0x21 3 d a b g t logType (vlog (fun n x y => x &&& (2 ^ n - 1 - y % 2 ^ n))) s
/-- VNOT (R118). -/
def execVnot (d a : BitVec 6) (g t : Bool) (s : State) : Host.Outcome State Fault Refusal :=
  vUn 0x21 4 d a g t logType (fun p ty x => vlog (fun n x _ => 2 ^ n - 1 - x % 2 ^ n) p ty x 0) s
/-- VSHL: by the low log2(n) bits of b's element (R118). -/
def execVshl (d a b : BitVec 6) (g t : Bool) (s : State) : Host.Outcome State Fault Refusal :=
  vBin 0x21 5 d a b g t logType (vlog (fun n x y => x * 2 ^ (y % n))) s
/-- VSHR (R118). -/
def execVshr (d a b : BitVec 6) (g t : Bool) (s : State) : Host.Outcome State Fault Refusal :=
  vBin 0x21 6 d a b g t logType (vlog (fun n x y => x / 2 ^ (y % n))) s
/-- VSAR: copies bit n − 1 (R118). -/
def execVsar (d a b : BitVec 6) (g t : Bool) (s : State) : Host.Outcome State Fault Refusal :=
  vBin 0x21 7 d a b g t logType (vlog (fun n x y => lowBits n (sgnOf n x / (2 ^ (y % n) : Nat)))) s
/-- VROL (R118). -/
def execVrol (d a b : BitVec 6) (g t : Bool) (s : State) : Host.Outcome State Fault Refusal :=
  vBin 0x21 8 d a b g t logType (vlog (fun n x y => x * 2 ^ (y % n) + x / 2 ^ (n - y % n))) s
/-- VROR (R118). -/
def execVror (d a b : BitVec 6) (g t : Bool) (s : State) : Host.Outcome State Fault Refusal :=
  vBin 0x21 9 d a b g t logType (vlog (fun n x y => x / 2 ^ (y % n) + x * 2 ^ (n - y % n))) s
/-- VCLZ (R118). -/
def execVclz (d a : BitVec 6) (g t : Bool) (s : State) : Host.Outcome State Fault Refusal :=
  vUn 0x21 10 d a g t logType (fun p ty x => vlog (fun n x _ => clzOf n x) p ty x 0) s
/-- VPOP (R118). -/
def execVpop (d a : BitVec 6) (g t : Bool) (s : State) : Host.Outcome State Fault Refusal :=
  vUn 0x21 11 d a g t logType (fun p ty x => vlog (fun n x _ => popOf n x) p ty x 0) s
/-- VBREV (R118). -/
def execVbrev (d a : BitVec 6) (g t : Bool) (s : State) : Host.Outcome State Fault Refusal :=
  vUn 0x21 12 d a g t logType (fun p ty x => vlog (fun n x _ => brevOf n x) p ty x 0) s

/-! ### VIMAD and bit fields (R119, R120) -/

/-- VIMAD: a × b + c, exact, saturated once (R119). -/
def execVimad (d a b c : BitVec 6) (g : Bool) (s : State) : Host.Outcome State Fault Refusal :=
  let ty := s.w.p.ta
  let te := elemOf ty
  (vGate (wordC 0x22 d a b c g) g (intType ty) ty d [a, b, c]).run
    (onWarp (fun w act => w.results ty d.toNat act (fun l =>
      perElem3 ty (fun x y z => intResult w.p te true (intOf te x * intOf te y + intOf te z))
        (w.opnd ty a.toNat l) (w.opnd ty b.toNat l) (w.opnd ty c.toNat l)))) s

/-- pos and k of R120 for an n-bit type, from the 32-bit operand b. -/
def fieldAt (n : Nat) (b : W32) : Nat × Nat :=
  let pos := bits32 b 7 0
  (pos, if n ≤ pos then 0 else min (bits32 b 15 8) (n - pos))

/-- VBFE and VBFES (R120): operand b is one 32-bit register. -/
def vbfeOp (fn : BitVec 4) (d a b : BitVec 6) (g t sgn : Bool) (s : State) : Host.Outcome State Fault Refusal :=
  let ty := s.w.p.typ t
  let n := typeBits ty
  ({ word := wordA 0x23 d a b fn g t, guard := g, cls := .vector, ok := wordType ty
     regs := [vop d ty, vop a ty, vop1 b], uses := [useV a ty, useV1 b] } : Gate).run
    (onWarp (fun w act => w.results ty d.toNat act (fun l =>
      let f := fieldAt n (w.vl b.toNat l).bits
      let x := w.opnd ty a.toNat l / 2 ^ f.1 % 2 ^ f.2
      if f.2 = 0 then 0 else if sgn then lowBits n (sgnOf f.2 x) else x))) s

/-- VBFE (R120). -/
def execVbfe (d a b : BitVec 6) (g t : Bool) (s : State) : Host.Outcome State Fault Refusal := vbfeOp 0 d a b g t false s
/-- VBFES (R120). -/
def execVbfes (d a b : BitVec 6) (g t : Bool) (s : State) : Host.Outcome State Fault Refusal := vbfeOp 1 d a b g t true s

/-- VBFI (R120). -/
def execVbfi (d a b c : BitVec 6) (g : Bool) (s : State) : Host.Outcome State Fault Refusal :=
  let ty := s.w.p.ta
  let n := typeBits ty
  ({ word := wordC 0x24 d a b c g, guard := g, cls := .vector, ok := wordType ty
     regs := [vop d ty, vop a ty, vop1 b, vop c ty], uses := [useV a ty, useV1 b, useV c ty] } : Gate).run
    (onWarp (fun w act => w.results ty d.toNat act (fun l =>
      let f := fieldAt n (w.vl b.toNat l).bits
      let x := w.opnd ty a.toNat l % 2 ^ f.2
      let z := w.opnd ty c.toNat l
      if f.2 = 0 then z else z % 2 ^ f.1 + x * 2 ^ f.1 + z / 2 ^ (f.1 + f.2) * 2 ^ (f.1 + f.2)))) s

/-! ### VICMP and VSEL (R121, R122) -/

/-- VICMP: the type supplies only the width (R121). -/
def vcmp (fn : BitVec 4) (d : BitVec 3) (a b : BitVec 6) (g t : Bool) (c : Nat → Nat → Nat → Bool) (s : State) :
    Host.Outcome State Fault Refusal :=
  let ty := s.w.p.typ t
  ({ word := wordA 0x25 (in6 d) a b fn g t, guard := g, cls := .vector, ok := wordType ty
     regs := [vop a ty, vop b ty], uses := [useV a ty, useV b ty] } : Gate).run
    (onWarp (fun w act => w.setP d.toNat act (maskOf (fun l =>
      act.getLsbD l && c (typeBits ty) (w.opnd ty a.toNat l) (w.opnd ty b.toNat l))))) s

/-- VCMPEQ (R121). -/
def execVcmpeq (d : BitVec 3) (a b : BitVec 6) (g t : Bool) (s : State) : Host.Outcome State Fault Refusal :=
  vcmp 0 d a b g t (fun _ x y => x == y) s
/-- VCMPNE (R121). -/
def execVcmpne (d : BitVec 3) (a b : BitVec 6) (g t : Bool) (s : State) : Host.Outcome State Fault Refusal :=
  vcmp 1 d a b g t (fun _ x y => x != y) s
/-- VCMPLT, signed (R121). -/
def execVcmplt (d : BitVec 3) (a b : BitVec 6) (g t : Bool) (s : State) : Host.Outcome State Fault Refusal :=
  vcmp 2 d a b g t (fun n x y => sgnOf n x < sgnOf n y) s
/-- VCMPLE, signed (R121). -/
def execVcmple (d : BitVec 3) (a b : BitVec 6) (g t : Bool) (s : State) : Host.Outcome State Fault Refusal :=
  vcmp 3 d a b g t (fun n x y => sgnOf n x ≤ sgnOf n y) s
/-- VCMPLTU (R121). -/
def execVcmpltu (d : BitVec 3) (a b : BitVec 6) (g t : Bool) (s : State) : Host.Outcome State Fault Refusal :=
  vcmp 4 d a b g t (fun _ x y => x < y) s
/-- VCMPLEU (R121). -/
def execVcmpleu (d : BitVec 3) (a b : BitVec 6) (g t : Bool) (s : State) : Host.Outcome State Fault Refusal :=
  vcmp 5 d a b g t (fun _ x y => x ≤ y) s
/-- VCMPGT, signed (R121). -/
def execVcmpgt (d : BitVec 3) (a b : BitVec 6) (g t : Bool) (s : State) : Host.Outcome State Fault Refusal :=
  vcmp 6 d a b g t (fun n x y => sgnOf n y < sgnOf n x) s
/-- VCMPGE, signed (R121). -/
def execVcmpge (d : BitVec 3) (a b : BitVec 6) (g t : Bool) (s : State) : Host.Outcome State Fault Refusal :=
  vcmp 7 d a b g t (fun n x y => sgnOf n y ≤ sgnOf n x) s
/-- VCMPGTU (R121). -/
def execVcmpgtu (d : BitVec 3) (a b : BitVec 6) (g t : Bool) (s : State) : Host.Outcome State Fault Refusal :=
  vcmp 8 d a b g t (fun _ x y => y < x) s
/-- VCMPGEU (R121). -/
def execVcmpgeu (d : BitVec 3) (a b : BitVec 6) (g t : Bool) (s : State) : Host.Outcome State Fault Refusal :=
  vcmp 9 d a b g t (fun _ x y => y ≤ x) s

/-- VSEL: each lane takes a or b with its poison (R122, R202). -/
def execVsel (d a b : BitVec 6) (c : BitVec 3) (g : Bool) (s : State) : Host.Outcome State Fault Refusal :=
  let ty := s.w.p.ta
  let wide := wideType ty
  ({ word := wordC 0x26 d a b (in6 c) g, guard := g, cls := .vector, ok := moveType ty
     regs := [vop d ty, vop a ty, vop b ty] } : Gate).run
    (onWarp (fun w act => w.lanesTo wide d.toNat act (fun l =>
      let r := if (w.pred c.toNat).getLsbD l then a.toNat else b.toNat
      (w.rawV wide r l, w.badV wide r l)))) s

/-! ### VIDIV (R123) -/

/-- VDIV and VREM (R123). -/
def vdivOp (fn : BitVec 4) (d a b : BitVec 6) (g t rem : Bool) (s : State) : Host.Outcome State Fault Refusal :=
  let ty := s.w.p.typ t
  let word := wordA 0x2A d a b fn g t
  (vGate word g (6 ≤ ty && ty ≤ 9) ty d [a, b]).run
    (fun s act =>
      let w := s.w
      let z := maskOf (fun l => act.getLsbD l && w.opnd ty b.toNat l == 0)
      if w.p.dzt ∧ z ≠ 0 then .trap s { cause := 0x09, tval := word, lanes := z, act := act }
      else .fall { s with w := w.results ty d.toNat act (fun l =>
        let x := w.opnd ty a.toNat l
        let y := w.opnd ty b.toNat l
        let n := typeBits ty
        let xi := intOf ty x
        let yi := intOf ty y
        if y = 0 then (if rem then x else 2 ^ n - 1)
        else if xi = intMin ty ∧ isSigned ty ∧ yi = -1 then (if rem then 0 else x)
        else lowBits n (if rem then xi.tmod yi else xi.tdiv yi)) }) s

/-- VDIV (R123). -/
def execVdiv (d a b : BitVec 6) (g t : Bool) (s : State) : Host.Outcome State Fault Refusal := vdivOp 0 d a b g t false s
/-- VREM (R123). -/
def execVrem (d a b : BitVec 6) (g t : Bool) (s : State) : Host.Outcome State Fault Refusal := vdivOp 1 d a b g t true s

/-! ### Moves (R124, R125) -/

/-- VMOV: bits and poison as they are (R124, R202). -/
def execVmov (d a : BitVec 6) (g t : Bool) (s : State) : Host.Outcome State Fault Refusal :=
  let ty := s.w.p.typ t
  let wide := wideType ty
  ({ word := wordA 0x27 d a 0 0 g t, guard := g, cls := .vector, ok := moveType ty, regs := [vop d ty, vop a ty] } : Gate).run
    (onWarp (fun w act => w.lanesTo wide d.toNat act (fun l => (w.rawV wide a.toNat l, w.badV wide a.toNat l)))) s

/-- VBCAST (R124). -/
def execVbcast (d a : BitVec 6) (g t : Bool) (s : State) : Host.Outcome State Fault Refusal :=
  let ty := s.w.p.typ t
  ({ word := wordA 0x27 d a 0 1 g t, guard := g, cls := .vector, ok := moveType ty, regs := [vop d ty]
     scals := [a.toNat] } : Gate).run
    (onWarp (fun w act => w.lanesTo (wideType ty) d.toNat act (fun _ => ((w.sr a.toNat).bits, (w.sr a.toNat).bad)))) s

/-- VTOS: lane s[b] mod W, sign-extended for SI32 (R124, R137). -/
def execVtos (d a b : BitVec 6) (g t : Bool) (s : State) : Host.Outcome State Fault Refusal :=
  let ty := s.w.p.typ t
  ({ word := wordA 0x27 d a b 2 g t, guard := g, cls := .vector, ok := moveType ty, regs := [vop a ty]
     scals := [d.toNat, b.toNat], uses := [useS b] } : Gate).run
    (onWarp (fun w _ =>
      let x := w.crossV (wideType ty) a.toNat ((w.sr b.toNat).bits.toNat % 32)
      w.setS d.toNat (if ty = 7 then sx (lo32 x.1) else x.1) x.2)) s

/-- STOV: into one lane, if it is active (R124). -/
def execStov (d a b : BitVec 6) (g t : Bool) (s : State) : Host.Outcome State Fault Refusal :=
  let ty := s.w.p.typ t
  ({ word := wordA 0x27 d a b 3 g t, guard := g, cls := .vector, ok := moveType ty, regs := [vop d ty]
     scals := [a.toNat, b.toNat], uses := [useS b] } : Gate).run
    (onWarp (fun w act =>
      let l := (w.sr b.toNat).bits.toNat % 32
      if act.getLsbD l then w.setRaw (wideType ty) d.toNat l (w.sr a.toNat).bits (w.sr a.toNat).bad else w)) s

/-- A register of the outer frame: absolute register `x` of the current trap level's bank (R124). -/
def outerReg (w : Warp) (n : BitVec 6) : Nat := (w.bank w.tlevel).wbase + n.toNat

/-- What VRDOUT and VWROUT need (R124): trap level 1 or 2, and there registers below the outer frame's size; an odd first
register of a pair is illegal at every level (R14, R116). -/
def outerGate (w : Warp) (word : W64) (g : Bool) (ty : Nat) (n : BitVec 6) (inReg : VOp) : Gate :=
  let o := vop n ty
  { word := word, guard := g, cls := .vector, regs := [inReg], priv := w.tlevel != 0, outer := [(outerReg w n, o.cnt)]
    ok := moveType ty && (!o.even || n.toNat % 2 == 0) && (w.tlevel == 0 || n.toNat + o.cnt ≤ 8 * (w.bank w.tlevel).fsize) }

/-- The key of a lane word of a spilled block, or what its access meets (R49, R51, R349). -/
def spilledKey (s : State) (x l : Nat) (need : Need) : Except (W64 × Bool) Nat :=
  let va := s.w.blockAddr (x / 8) + w64 (128 * (x % 8) + 4 * l)
  match checkPage s s.w.ctx s.w.die va need with
  | .error f => .error (f.tval, false)
  | .ok (_, p) => if p.resident then .ok p.key else .error (va, true)

/-- A lane word of an absolute register, wherever its current copy is (R43, R349). -/
def absLane (s : State) (x l : Nat) : Except (W64 × Bool) LW :=
  if s.w.spilled.contains (x / 8) then
    match spilledKey s x l .read with
    | .error e => .error e
    | .ok k => .ok ⟨w32 (rdMem s.mem k 4), isBad s k⟩
  else .ok (look {} s.w.v (32 * x + l))

/-- Write a lane word of an absolute register, wherever its current copy is. -/
def setAbsLane (s : State) (x l : Nat) (v : LW) : Except (W64 × Bool) State :=
  if s.w.spilled.contains (x / 8) then
    match spilledKey s x l .write with
    | .error e => .error e
    | .ok k => .ok (writeVia s s.w.core s.w.cluster k 4 (zx v.bits) v.bad)
  else .ok { s with w := { s.w with v := put {} s.w.v (32 * x + l) v } }

/-- A failed or held access to a spilled block (R49, R188). -/
def outerFault (e : W64 × Bool) (kind : Nat) (s : State) (act : Mask) : Res :=
  if e.2 then .block 13 (addFault s.w.die s.w.ctx e.1 kind { s with w := { s.w with retry := [e.1] } })
  else trapAct 0x0C e.1 act s

/-- The places (register, lane) that an outer-frame move touches. -/
def outerPlaces (cnt : Nat) (act : Mask) : List (Nat × Nat) :=
  (lanesOf act).flatMap (fun l => (List.range cnt).map (fun i => (i, l)))

/-- VRDOUT (R124). -/
def execVrdout (d n : BitVec 6) (g t : Bool) (s : State) : Host.Outcome State Fault Refusal :=
  let ty := s.w.p.typ t
  (outerGate s.w (wordA 0x27 d n 0 6 g t) g ty n (vop d ty)).run
    (fun s act =>
      let r := (outerPlaces (typeRegs ty) act).foldl (fun (acc : Except (W64 × Bool) State) il =>
        match acc with
        | .error e => .error e
        | .ok t =>
          match absLane s (outerReg s.w n + il.1) il.2 with
          | .error e => .error e
          | .ok v => .ok { t with w := t.w.setL (d.toNat + il.1) il.2 v }) (.ok s)
      match r with
      | .ok t => .fall t
      | .error e => outerFault e 5 s act) s

/-- VWROUT (R124). -/
def execVwrout (n a : BitVec 6) (g t : Bool) (s : State) : Host.Outcome State Fault Refusal :=
  let ty := s.w.p.typ t
  (outerGate s.w (wordA 0x27 n a 0 7 g t) g ty n (vop a ty)).run
    (fun s act =>
      let r := (outerPlaces (typeRegs ty) act).foldl (fun (acc : Except (W64 × Bool) State) il =>
        match acc with
        | .error e => .error e
        | .ok t => setAbsLane t (outerReg s.w n + il.1) il.2 (s.w.vl (a.toNat + il.1) il.2)) (.ok s)
      match r with
      | .ok t => .fall t
      | .error e => outerFault e 4 s act) s

/-- VMOVI: sext(IMM12) in each active lane (R125). -/
def execVmovi (d : BitVec 6) (imm : BitVec 12) (g : Bool) (s : State) : Host.Outcome State Fault Refusal :=
  ({ word := wordI 0x28 d 0 imm g, guard := g, cls := .vector, regs := [vop1 d] } : Gate).run
    (onWarp (fun w act => w.lanesTo false d.toNat act (fun _ => (imm.signExtend 64, false)))) s

/-- VMOVL: the literal in each active lane (R125). -/
def execVmovl (d : BitVec 6) (g : Bool) (lit : BitVec 32) (s : State) : Host.Outcome State Fault Refusal :=
  ({ word := wordX 0x29 d 0 g, len := 8, guard := g, cls := .vector, regs := [vop1 d] } : Gate).run
    (onWarp (fun w act => w.lanesTo false d.toNat act (fun _ => (zx lit, false)))) s

end Sys2Proof.Machine
end

