-- ==== Sys2Proof/Machine/Float.lean ====
section
/-! DEFINITION. Floating-point arithmetic, comparisons, special functions and conversions, opcodes 0x2B to 0x30
(R112 to R115, R126 to R136). -/

namespace Sys2Proof.Machine

/-! ### Shared forms -/

/-- A result in a format, with its flags. -/
abbrev FRes := Nat × BitVec 5

/-- Compute on each element of a packed type, or on the value of another (R111); both elements raise flags. -/
def perElemF (ty : Nat) (f : Nat → Nat → FRes) (x y : Nat) : FRes :=
  if isPacked ty then
    let lo := f (x % 65536) (y % 65536)
    let hi := f (x / 65536) (y / 65536)
    (lo.1 % 65536 + 65536 * (hi.1 % 65536), lo.2 ||| hi.2)
  else f x y

/-- The format of a type's element; every legal type of this chapter has one. -/
def fmtFor (ty : Nat) : Fmt := (fmtOf (elemOf ty)).getD fF32

/-- An operation on values of a type's element, on patterns: operands are read with the input flush, and the
operation takes the format, the rounding mode and the flush (R113, R116). -/
def onFloats (p : Path) (ty : Nat) (op : Fmt → Nat → Bool → FV → FV → FRes) (x y : Nat) : FRes :=
  let f := fmtFor ty
  let ftz := ftzFor (elemOf ty) p.ftz
  perElemF ty (fun x y => op f p.rm ftz (readF f ftz x) (readF f ftz y)) x y

/-- Complete a float instruction whose lane l delivers `r l` (R114, R115). -/
def floatDone (word : W64) (ty d : Nat) (s : State) (act : Mask) (r : Nat → FRes) : Res :=
  withFlags word s act (fun l => (r l).2) (fun w => w.results ty d act (fun l => (r l).1))

/-- A float instruction of two sources in format A. -/
def fBin (op : BitVec 7) (fn : BitVec 4) (d a b : BitVec 6) (g t : Bool) (legal : Nat → Bool)
    (f : Fmt → Nat → Bool → FV → FV → FRes) (s : State) : Host.Outcome State Fault Refusal :=
  let ty := s.w.p.typ t
  let word := wordA op d a b fn g t
  (vGate word g (legal ty) ty d [a, b]).run
    (fun s act => floatDone word ty d.toNat s act (fun l =>
      onFloats s.w.p ty f (s.w.opnd ty a.toNat l) (s.w.opnd ty b.toNat l))) s

/-- A float instruction of one source in format A. -/
def fUn (op : BitVec 7) (fn : BitVec 4) (d a : BitVec 6) (g t : Bool) (legal : Nat → Bool)
    (f : Fmt → Nat → Bool → FV → FRes) (s : State) : Host.Outcome State Fault Refusal :=
  let ty := s.w.p.typ t
  let word := wordA op d a 0 fn g t
  (vGate word g (legal ty) ty d [a]).run
    (fun s act => floatDone word ty d.toNat s act (fun l =>
      onFloats s.w.p ty (fun m rm ftz x _ => f m rm ftz x) (s.w.opnd ty a.toNat l) 0)) s

/-! ### Arithmetic (R126 to R129) -/

/-- FADD (R126). -/
def execFadd (d a b : BitVec 6) (g t : Bool) (s : State) : Host.Outcome State Fault Refusal :=
  fBin 0x2C 0 d a b g t arithType fAdd s
/-- FSUB (R126). -/
def execFsub (d a b : BitVec 6) (g t : Bool) (s : State) : Host.Outcome State Fault Refusal :=
  fBin 0x2C 1 d a b g t arithType (fun f rm ftz x y => fAdd f rm ftz x y.neg) s
/-- FMUL (R126). -/
def execFmul (d a b : BitVec 6) (g t : Bool) (s : State) : Host.Outcome State Fault Refusal :=
  fBin 0x2C 2 d a b g t arithType fMul s
/-- FMIN (R127). -/
def execFmin (d a b : BitVec 6) (g t : Bool) (s : State) : Host.Outcome State Fault Refusal :=
  fBin 0x2C 3 d a b g t arithType (fun f _ _ x y => fMinMax f false x y) s
/-- FMAX (R127). -/
def execFmax (d a b : BitVec 6) (g t : Bool) (s : State) : Host.Outcome State Fault Refusal :=
  fBin 0x2C 4 d a b g t arithType (fun f _ _ x y => fMinMax f true x y) s
/-- FABS: no flag (R126). -/
def execFabs (d a : BitVec 6) (g t : Bool) (s : State) : Host.Outcome State Fault Refusal :=
  fUn 0x2C 5 d a g t arithType (fun f _ _ x => (repack f (x.withSign false), 0)) s
/-- FNEG: no flag (R126). -/
def execFneg (d a : BitVec 6) (g t : Bool) (s : State) : Host.Outcome State Fault Refusal :=
  fUn 0x2C 6 d a g t arithType (fun f _ _ x => (repack f x.neg, 0)) s

/-- The sign bit of a pattern of a format. -/
def signBit (f : Fmt) (x : Nat) : Bool := x.testBit (f.eb + f.mb + f.sh)

/-- FCOPYSIGN: magnitude of a, sign of b, and the canonical NaN where either is a NaN; no flag (R126). -/
def execFcopysign (d a b : BitVec 6) (g t : Bool) (s : State) : Host.Outcome State Fault Refusal :=
  let ty := s.w.p.typ t
  let word := wordA 0x2C d a b 7 g t
  (vGate word g (arithType ty) ty d [a, b]).run
    (fun s act => floatDone word ty d.toNat s act (fun l =>
      let f := fmtFor ty
      let ftz := ftzFor (elemOf ty) s.w.p.ftz
      perElemF ty (fun x y => (repack f (if (readF f ftz y).isNan then .nan false else (readF f ftz x).withSign (signBit f y)), 0))
        (s.w.opnd ty a.toNat l) (s.w.opnd ty b.toNat l))) s

/-- FSCALE: b is one 32-bit register, read as SI32, or as SI16 per element (R126). -/
def execFscale (d a b : BitVec 6) (g t : Bool) (s : State) : Host.Outcome State Fault Refusal :=
  let ty := s.w.p.typ t
  let word := wordA 0x2C d a b 8 g t
  ({ word := word, guard := g, cls := .vector, ok := arithType ty, regs := [vop d ty, vop a ty, vop1 b]
     uses := [useV a ty, useV1 b] } : Gate).run
    (fun s act => floatDone word ty d.toNat s act (fun l =>
      let f := fmtFor ty
      let ftz := ftzFor (elemOf ty) s.w.p.ftz
      perElemF ty (fun x y => fScale f s.w.p.rm ftz (readF f ftz x) (sgnOf (if isPacked ty then 16 else 32) y))
        (s.w.opnd ty a.toNat l) (s.w.vl b.toNat l).bits.toNat)) s

/-- FFMA: one rounding (R128). -/
def execFfma (d a b c : BitVec 6) (g : Bool) (s : State) : Host.Outcome State Fault Refusal :=
  let ty := s.w.p.ta
  let word := wordC 0x2D d a b c g
  (vGate word g (arithType ty) ty d [a, b, c]).run
    (fun s act => floatDone word ty d.toNat s act (fun l =>
      let f := fmtFor ty
      let ftz := ftzFor (elemOf ty) s.w.p.ftz
      let one (x y z : Nat) : FRes := fusedSum f s.w.p.rm ftz [(readF f ftz x, readF f ftz y)] (readF f ftz z)
      let x := s.w.opnd ty a.toNat l
      let y := s.w.opnd ty b.toNat l
      let z := s.w.opnd ty c.toNat l
      if isPacked ty then
        let lo := one (x % 65536) (y % 65536) (z % 65536)
        let hi := one (x / 65536) (y / 65536) (z / 65536)
        (lo.1 % 65536 + 65536 * (hi.1 % 65536), lo.2 ||| hi.2)
      else one x y z)) s

/-- FDOT: two products and c, one rounding to F32 (R129). -/
def execFdot (d a b c : BitVec 6) (g : Bool) (s : State) : Host.Outcome State Fault Refusal :=
  let ty := s.w.p.ta
  let word := wordC 0x30 d a b c g
  (vGate word g (ty == 26 || ty == 27) 12 d [a, b, c]).run
    (fun s act => floatDone word 12 d.toNat s act (fun l =>
      let f := fmtFor ty
      let fe := ftzFor (elemOf ty) s.w.p.ftz
      let ftz := s.w.p.ftz
      let x := s.w.opnd ty a.toNat l
      let y := s.w.opnd ty b.toNat l
      fusedSum fF32 s.w.p.rm ftz
        [(readF f fe (x % 65536), readF f fe (y % 65536)), (readF f fe (x / 65536), readF f fe (y / 65536))]
        (readF fF32 ftz (s.w.opnd 12 c.toNat l)))) s

/-! ### Comparisons (R130) -/

/-- FCMP: what an ordered pair gives, and what an unordered one gives; `quiet` conditions raise IV only for a
signalling NaN (R130). -/
def fcmp (fn : BitVec 4) (d : BitVec 3) (a b : BitVec 6) (g t : Bool) (quiet unord : Bool) (c : Ordering → Bool)
    (s : State) : Host.Outcome State Fault Refusal :=
  let ty := s.w.p.typ t
  let word := wordA 0x2E (in6 d) a b fn g t
  ({ word := word, guard := g, cls := .vector, ok := floatType ty, regs := [vop a ty, vop b ty]
     uses := [useV a ty, useV b ty] } : Gate).run
    (fun s act =>
      let f := fmtFor ty
      let ftz := ftzFor ty s.w.p.ftz
      let x (l : Nat) : FV := readF f ftz (s.w.opnd ty a.toNat l)
      let y (l : Nat) : FV := readF f ftz (s.w.opnd ty b.toNat l)
      let nan (l : Nat) : Bool := (x l).isNan || (y l).isNan
      withFlags word s act
        (fun l => if (if quiet then (x l).isSig || (y l).isSig else nan l) then flIV else 0)
        (fun w => w.setP d.toNat act (maskOf (fun l => act.getLsbD l && (if nan l then unord else c (fCmp (x l) (y l))))))) s

/-- FCMPEQ (R130). -/
def execFcmpeq (d : BitVec 3) (a b : BitVec 6) (g t : Bool) (s : State) : Host.Outcome State Fault Refusal :=
  fcmp 0 d a b g t true false (fun o => o == .eq) s
/-- FCMPNE (R130). -/
def execFcmpne (d : BitVec 3) (a b : BitVec 6) (g t : Bool) (s : State) : Host.Outcome State Fault Refusal :=
  fcmp 1 d a b g t true false (fun o => o != .eq) s
/-- FCMPLT (R130). -/
def execFcmplt (d : BitVec 3) (a b : BitVec 6) (g t : Bool) (s : State) : Host.Outcome State Fault Refusal :=
  fcmp 2 d a b g t false false (fun o => o == .lt) s
/-- FCMPLE (R130). -/
def execFcmple (d : BitVec 3) (a b : BitVec 6) (g t : Bool) (s : State) : Host.Outcome State Fault Refusal :=
  fcmp 3 d a b g t false false (fun o => o != .gt) s
/-- FCMPGT (R130). -/
def execFcmpgt (d : BitVec 3) (a b : BitVec 6) (g t : Bool) (s : State) : Host.Outcome State Fault Refusal :=
  fcmp 4 d a b g t false false (fun o => o == .gt) s
/-- FCMPGE (R130). -/
def execFcmpge (d : BitVec 3) (a b : BitVec 6) (g t : Bool) (s : State) : Host.Outcome State Fault Refusal :=
  fcmp 5 d a b g t false false (fun o => o != .lt) s
/-- FCMPUEQ (R130). -/
def execFcmpueq (d : BitVec 3) (a b : BitVec 6) (g t : Bool) (s : State) : Host.Outcome State Fault Refusal :=
  fcmp 6 d a b g t true true (fun o => o == .eq) s
/-- FCMPUNE (R130). -/
def execFcmpune (d : BitVec 3) (a b : BitVec 6) (g t : Bool) (s : State) : Host.Outcome State Fault Refusal :=
  fcmp 7 d a b g t true true (fun o => o != .eq) s
/-- FCMPULT (R130). -/
def execFcmpult (d : BitVec 3) (a b : BitVec 6) (g t : Bool) (s : State) : Host.Outcome State Fault Refusal :=
  fcmp 8 d a b g t true true (fun o => o == .lt) s
/-- FCMPULE (R130). -/
def execFcmpule (d : BitVec 3) (a b : BitVec 6) (g t : Bool) (s : State) : Host.Outcome State Fault Refusal :=
  fcmp 9 d a b g t true true (fun o => o != .gt) s
/-- FCMPUGT (R130). -/
def execFcmpugt (d : BitVec 3) (a b : BitVec 6) (g t : Bool) (s : State) : Host.Outcome State Fault Refusal :=
  fcmp 10 d a b g t true true (fun o => o == .gt) s
/-- FCMPUGE (R130). -/
def execFcmpuge (d : BitVec 3) (a b : BitVec 6) (g t : Bool) (s : State) : Host.Outcome State Fault Refusal :=
  fcmp 11 d a b g t true true (fun o => o != .lt) s
/-- FCMPORD (R130). -/
def execFcmpord (d : BitVec 3) (a b : BitVec 6) (g t : Bool) (s : State) : Host.Outcome State Fault Refusal :=
  fcmp 12 d a b g t true false (fun _ => true) s
/-- FCMPUNORD (R130). -/
def execFcmpunord (d : BitVec 3) (a b : BitVec 6) (g t : Bool) (s : State) : Host.Outcome State Fault Refusal :=
  fcmp 13 d a b g t true true (fun _ => false) s

/-! ### Special functions (R131 to R134) -/

/-- F16, BF16, F32 and E8M10: the types of the approximate functions (R131). -/
def approxType (t : Nat) : Bool := t == 10 || t == 11 || t == 12 || t == 14

/-- One, as a value. -/
def fvOne : FV := .fin false 1 0

/-- FRCP (R131). -/
def execFrcp (d a : BitVec 6) (g t : Bool) (s : State) : Host.Outcome State Fault Refusal :=
  fUn 0x2F 0 d a g t floatType (fun f rm ftz x => fDiv f rm ftz fvOne x) s
/-- FRSQ (R131, R132). -/
def execFrsq (d a : BitVec 6) (g t : Bool) (s : State) : Host.Outcome State Fault Refusal :=
  fUn 0x2F 1 d a g t approxType (fun f _ ftz x => fRsq f ftz x) s
/-- FSQRT (R131). -/
def execFsqrt (d a : BitVec 6) (g t : Bool) (s : State) : Host.Outcome State Fault Refusal :=
  fUn 0x2F 2 d a g t floatType fSqrt s
/-- FEXP2 (R131, R132). -/
def execFexp2 (d a : BitVec 6) (g t : Bool) (s : State) : Host.Outcome State Fault Refusal :=
  fUn 0x2F 3 d a g t approxType (fun f _ ftz x => fExp2 f ftz x) s
/-- FLOG2 (R131, R132). -/
def execFlog2 (d a : BitVec 6) (g t : Bool) (s : State) : Host.Outcome State Fault Refusal :=
  fUn 0x2F 4 d a g t approxType (fun f _ ftz x => fLog2 f ftz x) s
/-- FSIN (R131, R132). -/
def execFsin (d a : BitVec 6) (g t : Bool) (s : State) : Host.Outcome State Fault Refusal :=
  fUn 0x2F 5 d a g t approxType (fun f _ ftz x => fSinCos f ftz false x) s
/-- FCOS (R131, R132). -/
def execFcos (d a : BitVec 6) (g t : Bool) (s : State) : Host.Outcome State Fault Refusal :=
  fUn 0x2F 6 d a g t approxType (fun f _ ftz x => fSinCos f ftz true x) s
/-- FTANH (R131, R132). -/
def execFtanh (d a : BitVec 6) (g t : Bool) (s : State) : Host.Outcome State Fault Refusal :=
  fUn 0x2F 7 d a g t approxType (fun f _ ftz x => fTanh f ftz x) s
/-- FFRACT (R134). -/
def execFfract (d a : BitVec 6) (g t : Bool) (s : State) : Host.Outcome State Fault Refusal :=
  fUn 0x2F 8 d a g t floatType fFract s
/-- FDIV (R131, R132). -/
def execFdiv (d a b : BitVec 6) (g t : Bool) (s : State) : Host.Outcome State Fault Refusal :=
  fBin 0x2F 10 d a b g t floatType fDiv s

/-- FCLASS: one bit of a 32-bit mask in a single register, with no flush and no flag (R133). -/
def execFclass (d a : BitVec 6) (g t : Bool) (s : State) : Host.Outcome State Fault Refusal :=
  let ty := s.w.p.typ t
  ({ word := wordA 0x2F d a 0 9 g t, guard := g, cls := .vector, ok := floatType ty, regs := [vop1 d, vop a ty]
     uses := [useV a ty] } : Gate).run
    (onWarp (fun w act => w.lanesTo false d.toNat act (fun l =>
      (w64 (2 ^ fClass (fmtFor ty) (w.opnd ty a.toNat l)), false)))) s

/-! ### Conversions (R135, R136) -/

/-- `cvt` under the MODE of a path. -/
def cvtBy (p : Path) (src dst x : Nat) : FRes := cvt src dst p.rm p.ftz p.sat x

/-- VCVT (R135). -/
def execVcvt (d a : BitVec 6) (g : Bool) (s : State) : Host.Outcome State Fault Refusal :=
  let ta := s.w.p.ta
  let tb := s.w.p.tb
  let word := wordA 0x2B d a 0 0 g false
  ({ word := word, guard := g, cls := .vector, ok := scalarType ta && scalarType tb, regs := [vop d ta, vop a tb]
     uses := [useV a tb] } : Gate).run
    (fun s act => floatDone word ta d.toNat s act (fun l => cvtBy s.w.p tb ta (s.w.opnd tb a.toNat l))) s

/-- VRNDI (R135, R136). -/
def execVrndi (d a : BitVec 6) (g : Bool) (s : State) : Host.Outcome State Fault Refusal :=
  let ty := s.w.p.ta
  let word := wordA 0x2B d a 0 1 g false
  (vGate word g (floatType ty) ty d [a]).run
    (fun s act => floatDone word ty d.toNat s act (fun l =>
      onFloats s.w.p ty (fun f rm _ x _ => fRndi f rm x) (s.w.opnd ty a.toNat l) 0)) s

/-- VPACK (R135). -/
def execVpack (d a b : BitVec 6) (g : Bool) (s : State) : Host.Outcome State Fault Refusal :=
  let ta := s.w.p.ta
  let tb := s.w.p.tb
  let word := wordA 0x2B d a b 2 g false
  ({ word := word, guard := g, cls := .vector, ok := isPacked ta && scalarType tb, regs := [vop d ta, vop a tb, vop b tb]
     uses := [useV a tb, useV b tb] } : Gate).run
    (fun s act => floatDone word ta d.toNat s act (fun l =>
      let x := cvtBy s.w.p tb (elemOf ta) (s.w.opnd tb a.toNat l)
      let y := cvtBy s.w.p tb (elemOf ta) (s.w.opnd tb b.toNat l)
      (x.1 % 65536 + 65536 * (y.1 % 65536), x.2 ||| y.2))) s

/-- VUNPKL and VUNPKH: one element of a packed value (R135). -/
def unpackOp (fn : BitVec 4) (d a : BitVec 6) (g hi : Bool) (s : State) : Host.Outcome State Fault Refusal :=
  let ta := s.w.p.ta
  let tb := s.w.p.tb
  let word := wordA 0x2B d a 0 fn g false
  ({ word := word, guard := g, cls := .vector, ok := scalarType ta && isPacked tb, regs := [vop d ta, vop a tb]
     uses := [useV a tb] } : Gate).run
    (fun s act => floatDone word ta d.toNat s act (fun l =>
      let x := s.w.opnd tb a.toNat l
      cvtBy s.w.p (elemOf tb) ta (if hi then x / 65536 else x % 65536))) s

/-- VUNPKL (R135). -/
def execVunpkl (d a : BitVec 6) (g : Bool) (s : State) : Host.Outcome State Fault Refusal := unpackOp 3 d a g false s
/-- VUNPKH (R135). -/
def execVunpkh (d a : BitVec 6) (g : Bool) (s : State) : Host.Outcome State Fault Refusal := unpackOp 4 d a g true s

end Sys2Proof.Machine
end

