-- ==== Sys2Proof/Machine/Cross.lean ====
section
/-! DEFINITION. Cross-lane and cross-warp instructions, opcodes 0x31 to 0x38 (R58, R59, R137 to R146). -/

namespace Sys2Proof.Machine

/-! ### LPERM (R138) -/

/-- An LPERM instruction: lane l takes the value of lane `src l` of v[a]; `src` may read the warp as it stood (R138). -/
def lperm (fn : BitVec 4) (d a b : BitVec 6) (g t : Bool) (us : List Use) (src : Warp → Nat → Nat → Nat) (s : State) :
    Host.Outcome State Fault Refusal :=
  let ty := s.w.p.typ t
  let wide := wideType ty
  ({ word := wordA 0x31 d a b fn g t, guard := g, cls := .vector, ok := moveType ty, regs := [vop d ty, vop a ty]
     scals := [b.toNat], uses := us } : Gate).run
    (onWarp (fun w act => w.lanesTo wide d.toNat act (fun l => w.crossV wide a.toNat (src w (w.sr b.toNat).bits.toNat l)))) s

/-- LSHUF: v[d] holds the source lane (R138). -/
def execLshuf (d a b : BitVec 6) (g t : Bool) (s : State) : Host.Outcome State Fault Refusal :=
  lperm 0 d a b g t [useV1 d] (fun w _ l => (w.vl d.toNat l).bits.toNat % 32) s
/-- LROT (R138). -/
def execLrot (d a b : BitVec 6) (g t : Bool) (s : State) : Host.Outcome State Fault Refusal :=
  lperm 1 d a b g t [useS b] (fun _ k l => (l + k) % 32) s
/-- LXORL (R138). -/
def execLxorl (d a b : BitVec 6) (g t : Bool) (s : State) : Host.Outcome State Fault Refusal :=
  lperm 2 d a b g t [useS b] (fun _ k l => l ^^^ (k % 32)) s
/-- LUP (R138). -/
def execLup (d a b : BitVec 6) (g t : Bool) (s : State) : Host.Outcome State Fault Refusal :=
  lperm 3 d a b g t [useS b] (fun _ k l => if k ≤ l then l - k else l) s
/-- LDOWN (R138). -/
def execLdown (d a b : BitVec 6) (g t : Bool) (s : State) : Host.Outcome State Fault Refusal :=
  lperm 4 d a b g t [useS b] (fun _ k l => if l + k < 32 then l + k else l) s
/-- LBCAST (R138). -/
def execLbcast (d a b : BitVec 6) (g t : Bool) (s : State) : Host.Outcome State Fault Refusal :=
  lperm 5 d a b g t [useS b] (fun _ k _ => k % 32) s
/-- LROTW: k = floor(s[b][7:0] × W / 256) (R138). -/
def execLrotw (d a b : BitVec 6) (g t : Bool) (s : State) : Host.Outcome State Fault Refusal :=
  lperm 6 d a b g t [useS b] (fun _ k l => (l + k % 256 * 32 / 256) % 32) s

/-! ### LRED and LSCAN (R139, R140) -/

/-- An operation of a reduction or a scan: on patterns of a type, its identity, and its exact sum where SAT applies. -/
structure RedOp where
  /-- Legal types. -/
  legal : Nat → Bool
  identity : Nat → Nat
  op : Path → Nat → Nat → Nat → FRes
  /-- What a lane finally delivers of its value. -/
  out : Path → Nat → Nat → Nat := fun _ _ x => x
  /-- LREDADD and LSCANADD deliver the exact sum, saturated once (R139, R140). -/
  sums : Bool := false

/-- An integer or bit operation without flags, per element. -/
def plainOp (f : Nat → Nat → Nat → Nat) (_ : Path) (ty x y : Nat) : FRes := (perElem ty (fun x y => f (elemOf ty) x y) x y, 0)

/-- The same pattern in each element of a packed type. -/
def bothElems (ty : Nat) (x : Nat) : Nat := if isPacked ty then x + 65536 * x else x

/-- ADD (R139). -/
def redAdd : RedOp :=
  { legal := intType, identity := fun _ => 0, sums := true
    op := plainOp (fun te x y => intPat te (intOf te x + intOf te y)) }
/-- MIN (R139). -/
def redMin : RedOp :=
  { legal := intType, identity := fun ty => bothElems ty (intPat (elemOf ty) (intMax (elemOf ty)))
    op := plainOp (fun te x y => intPat te (min (intOf te x) (intOf te y))) }
/-- MAX (R139). -/
def redMax : RedOp :=
  { legal := intType, identity := fun ty => bothElems ty (intPat (elemOf ty) (intMin (elemOf ty)))
    op := plainOp (fun te x y => intPat te (max (intOf te x) (intOf te y))) }
/-- AND (R139). -/
def redAnd : RedOp :=
  { legal := wordType, identity := fun ty => 2 ^ typeBits ty - 1, op := fun _ _ x y => (x &&& y, 0) }
/-- OR (R139). -/
def redOr : RedOp := { legal := wordType, identity := fun _ => 0, op := fun _ _ x y => (x ||| y, 0) }
/-- XOR (R139). -/
def redXor : RedOp := { legal := wordType, identity := fun _ => 0, op := fun _ _ x y => (x ^^^ y, 0) }

/-- What a lane delivers of a float value that no step has touched: flushed, and a NaN canonical (R109, R113). -/
def floatOut (p : Path) (ty x : Nat) : Nat := (onFloats p ty (fun f _ _ v _ => (repack f v, 0)) x 0).1

/-- FADD: identity −0 (R139). -/
def redFadd : RedOp :=
  { legal := arithType, identity := fun ty => bothElems ty (signed (fmtFor ty) true 0)
    op := fun p ty x y => onFloats p ty fAdd x y, out := floatOut }
/-- FMIN: identity +∞ (R127, R139). -/
def redFmin : RedOp :=
  { legal := arithType, identity := fun ty => bothElems ty (infPat (fmtFor ty) false)
    op := fun p ty x y => onFloats p ty (fun f _ _ x y => fMinMax f false x y) x y, out := floatOut }
/-- FMAX: identity −∞ (R127, R139). -/
def redFmax : RedOp :=
  { legal := arithType, identity := fun ty => bothElems ty (infPat (fmtFor ty) true)
    op := fun p ty x y => onFloats p ty (fun f _ _ x y => fMinMax f true x y) x y, out := floatOut }

/-- One step over all lanes, each with its value and the flags that the steps behind it have raised: `pair` names the two
lanes that lane l combines, if any. So the flags of every step behind the result of a lane count, those done at lanes outside
`active` among them (R114, R139, R140, DESIGN CHOICE, log 180). -/
def laneStep (op : Nat → Nat → FRes) (pair : Nat → Option (Nat × Nat)) (xs : List FRes) : List FRes :=
  laneList.map (fun l =>
    match pair l with
    | some (i, j) =>
      let x := xs.getD i (0, 0)
      let y := xs.getD j (0, 0)
      let z := op x.1 y.1
      (z.1, x.2 ||| y.2 ||| z.2)
    | none => xs.getD l (0, 0))

/-- The steps k = 0 to log2(W) − 1 (R139, R140). -/
def laneSteps (op : Nat → Nat → FRes) (pair : Nat → Nat → Option (Nat × Nat)) (xs : List Nat) : List FRes :=
  [0, 1, 2, 3, 4].foldl (fun a k => laneStep op (pair k) a) (xs.map (fun x => (x, 0)))

/-- The pairs of the reduction tree (R139). -/
def treePair (k l : Nat) : Option (Nat × Nat) := some (min l (l ^^^ 2 ^ k), max l (l ^^^ 2 ^ k))

/-- The pairs of the scan (R140). -/
def scanPair (k l : Nat) : Option (Nat × Nat) := if 2 ^ k ≤ l then some (l - 2 ^ k, l) else none

/-- The exact sum of values of a type, saturated once, per element (R139, R140). -/
def satSum (ty : Nat) (xs : List Nat) : Nat :=
  let te := elemOf ty
  let one (f : Nat → Nat) : Nat := intPat te (satInt te (xs.foldl (fun a x => a + intOf te (f x)) 0))
  if isPacked ty then one (· % 65536) + 65536 * one (· / 65536) else one id

/-- A reduction or a scan over the lanes of the issuing path (R139, R140). -/
def crossOp (op : BitVec 7) (fn : BitVec 4) (d a : BitVec 6) (g t : Bool) (r : RedOp) (pair : Nat → Nat → Option (Nat × Nat))
    (excl scan : Bool) (s : State) : Host.Outcome State Fault Refusal :=
  let ty := s.w.p.typ t
  let word := wordA op d a 0 fn g t
  (vGate word g (r.legal ty) ty d [a]).run
    (fun s act =>
      let p := s.w.p
      let x (l : Nat) : Nat := if act.getLsbD l then s.w.opnd ty a.toNat l else r.identity ty
      let xs := laneList.map (fun l => if excl then (if l = 0 then r.identity ty else x (l - 1)) else x l)
      if r.sums && p.sat then
        .fall { s with w := s.w.results ty d.toNat act (fun l => satSum ty (if scan then xs.take (l + 1) else xs)) }
      else
        let ys := laneSteps (r.op p ty) pair xs
        withTreeFlags word s act (flagsIn act (fun l => (ys.getD l (0, 0)).2))
          (fun w => w.results ty d.toNat act (fun l => r.out p ty (ys.getD l (0, 0)).1))) s

/-- A reduction (R139). -/
def lred (fn : BitVec 4) (d a : BitVec 6) (g t : Bool) (r : RedOp) (s : State) : Host.Outcome State Fault Refusal :=
  crossOp 0x32 fn d a g t r treePair false false s
/-- A scan (R140). -/
def lscan (fn : BitVec 4) (d a : BitVec 6) (g t : Bool) (r : RedOp) (excl : Bool) (s : State) :
    Host.Outcome State Fault Refusal :=
  crossOp 0x33 fn d a g t r scanPair excl true s

/-- LREDADD (R139). -/
def execLredadd (d a : BitVec 6) (g t : Bool) (s : State) : Host.Outcome State Fault Refusal := lred 0 d a g t redAdd s
/-- LREDMIN (R139). -/
def execLredmin (d a : BitVec 6) (g t : Bool) (s : State) : Host.Outcome State Fault Refusal := lred 1 d a g t redMin s
/-- LREDMAX (R139). -/
def execLredmax (d a : BitVec 6) (g t : Bool) (s : State) : Host.Outcome State Fault Refusal := lred 2 d a g t redMax s
/-- LREDAND (R139). -/
def execLredand (d a : BitVec 6) (g t : Bool) (s : State) : Host.Outcome State Fault Refusal := lred 3 d a g t redAnd s
/-- LREDOR (R139). -/
def execLredor (d a : BitVec 6) (g t : Bool) (s : State) : Host.Outcome State Fault Refusal := lred 4 d a g t redOr s
/-- LREDXOR (R139). -/
def execLredxor (d a : BitVec 6) (g t : Bool) (s : State) : Host.Outcome State Fault Refusal := lred 5 d a g t redXor s
/-- LREDFADD (R139). -/
def execLredfadd (d a : BitVec 6) (g t : Bool) (s : State) : Host.Outcome State Fault Refusal := lred 6 d a g t redFadd s
/-- LREDFMIN (R139). -/
def execLredfmin (d a : BitVec 6) (g t : Bool) (s : State) : Host.Outcome State Fault Refusal := lred 7 d a g t redFmin s
/-- LREDFMAX (R139). -/
def execLredfmax (d a : BitVec 6) (g t : Bool) (s : State) : Host.Outcome State Fault Refusal := lred 8 d a g t redFmax s

/-- LSCANADD (R140). -/
def execLscanadd (d a : BitVec 6) (g t : Bool) (s : State) : Host.Outcome State Fault Refusal := lscan 0 d a g t redAdd false s
/-- LSCANMIN (R140). -/
def execLscanmin (d a : BitVec 6) (g t : Bool) (s : State) : Host.Outcome State Fault Refusal := lscan 1 d a g t redMin false s
/-- LSCANMAX (R140). -/
def execLscanmax (d a : BitVec 6) (g t : Bool) (s : State) : Host.Outcome State Fault Refusal := lscan 2 d a g t redMax false s
/-- LSCANAND (R140). -/
def execLscanand (d a : BitVec 6) (g t : Bool) (s : State) : Host.Outcome State Fault Refusal := lscan 3 d a g t redAnd false s
/-- LSCANOR (R140). -/
def execLscanor (d a : BitVec 6) (g t : Bool) (s : State) : Host.Outcome State Fault Refusal := lscan 4 d a g t redOr false s
/-- LSCANXOR (R140). -/
def execLscanxor (d a : BitVec 6) (g t : Bool) (s : State) : Host.Outcome State Fault Refusal := lscan 5 d a g t redXor false s
/-- LSCANFADD (R140). -/
def execLscanfadd (d a : BitVec 6) (g t : Bool) (s : State) : Host.Outcome State Fault Refusal := lscan 6 d a g t redFadd false s
/-- LXSCANADD (R140). -/
def execLxscanadd (d a : BitVec 6) (g t : Bool) (s : State) : Host.Outcome State Fault Refusal := lscan 8 d a g t redAdd true s
/-- LXSCANMIN (R140). -/
def execLxscanmin (d a : BitVec 6) (g t : Bool) (s : State) : Host.Outcome State Fault Refusal := lscan 9 d a g t redMin true s
/-- LXSCANMAX (R140). -/
def execLxscanmax (d a : BitVec 6) (g t : Bool) (s : State) : Host.Outcome State Fault Refusal := lscan 10 d a g t redMax true s
/-- LXSCANAND (R140). -/
def execLxscanand (d a : BitVec 6) (g t : Bool) (s : State) : Host.Outcome State Fault Refusal := lscan 11 d a g t redAnd true s
/-- LXSCANOR (R140). -/
def execLxscanor (d a : BitVec 6) (g t : Bool) (s : State) : Host.Outcome State Fault Refusal := lscan 12 d a g t redOr true s
/-- LXSCANXOR (R140). -/
def execLxscanxor (d a : BitVec 6) (g t : Bool) (s : State) : Host.Outcome State Fault Refusal := lscan 13 d a g t redXor true s
/-- LXSCANFADD (R140). -/
def execLxscanfadd (d a : BitVec 6) (g t : Bool) (s : State) : Host.Outcome State Fault Refusal := lscan 14 d a g t redFadd true s

/-! ### LBAL and VLANE (R141, R142) -/

/-- LBALLOT (R141). -/
def execLballot (d : BitVec 6) (a : BitVec 3) (g : Bool) (s : State) : Host.Outcome State Fault Refusal :=
  ({ word := wordA 0x34 d (in6 a) 0 0 g false, guard := g, cls := .vector, scals := [d.toNat] } : Gate).run
    (onWarp (fun w act => w.setS d.toNat (zx (w.pred a.toNat &&& act)) false)) s

/-- The value of a lane of an operand, bit for bit: the bits that its type ignores do not count (R109, R111). -/
def Warp.valueBits (w : Warp) (ty n l : Nat) : Nat := if ty = 14 then w.opnd ty n l / 8192 else w.opnd ty n l

/-- LMATCH: the active lanes that hold the same value, in one register at W = 32 (R141). -/
def execLmatch (d a : BitVec 6) (g t : Bool) (s : State) : Host.Outcome State Fault Refusal :=
  let ty := s.w.p.typ t
  ({ word := wordA 0x34 d a 0 1 g t, guard := g, cls := .vector, ok := moveType ty, regs := [vop1 d, vop a ty]
     uses := [useV a ty] } : Gate).run
    (onWarp (fun w act => w.lanesTo false d.toNat act (fun l =>
      (zx (maskOf (fun m => act.getLsbD m && w.valueBits ty a.toNat m == w.valueBits ty a.toNat l)), false)))) s

/-- VLANE: the thread identity (R142). -/
def execVlane (d : BitVec 6) (g : Bool) (s : State) : Host.Outcome State Fault Refusal :=
  ({ word := wordA 0x38 d 0 0 0 g false, guard := g, cls := .vector, regs := [vop1 d] } : Gate).run
    (onWarp (fun w act => w.lanesTo false d.toNat act (fun l => (zx (look 0 w.tid l), false)))) s

/-! ### Transfer slots (R58, R143) -/

/-- What a blocked instruction meets when it is examined again: nothing yet, completion, values, or a trap. -/
def onGrant (code : Nat) (word : W64) (s : State) (act : Mask) (done : W64 → W64 → State → Res) : Res :=
  match s.w.grant with
  | none => .block code s
  | some .done => done 0 0 s
  | some (.value v x) => done v x s
  | some (.trap c _) => trapAct c word act s

/-- The lane words that a sender's register range gives lane l: zero where l is not among its active lanes (R143). -/
def sentLane (s : State) (wid first : Nat) (act : Mask) (i l : Nat) : LW :=
  match s.warp? wid with
  | some w => if act.getLsbD l then look {} w.v (32 * (first + i) + l) else {}
  | none => {}

/-- Move registers from a sender to the active lanes of a receiver (R143). Registers are absolute. -/
def transfer (s : State) (from_ : Nat) (sFirst : Nat) (sAct : Mask) (to_ : Nat) (rFirst : Nat) (rAct : Mask) (n : Nat) : State :=
  let vals := (lanesOf rAct).flatMap (fun l => (List.range n).map (fun i =>
    (32 * (rFirst + i) + l, sentLane s from_ sFirst sAct i l)))
  s.modWarp to_ (fun w => { w with v := vals.foldl (fun v e => put {} v e.1 e.2) w.v })

/-- A transfer slot becomes FREE. -/
def dropXfer (g : WG) (slot : Nat) : WG := { g with xfer := del g.xfer slot }

/-- A transfer slot becomes SEND or RECV (R58). -/
def putXfer (g : WG) (slot wid : Nat) (send : Bool) (n first : Nat) (act : Mask) : WG :=
  let x : Xfer := { busy := true, send := send, wid := wid, n := n, first := first, act := act }
  { g with xfer := put {} g.xfer slot x }

/-- XSEND and XRECV at a slot (R58). -/
def xferOp (word : W64) (slot first n : Nat) (send : Bool) (s : State) (act : Mask) : Res :=
  if s.w.block = some 8 then onGrant 8 word s act (fun _ _ s => .fall s)
  else
    let g := s.wg s.w.wg
    let x := look {} g.xfer slot
    let abs := s.w.p.wbase + first
    let free (s : State) : State := s.setWg s.w.wg (dropXfer (s.wg s.w.wg) slot)
    if !x.busy then .block 8 (s.setWg s.w.wg (putXfer g slot s.w.wid send n abs act))
    else if x.wid = s.w.wid then trapAct 0x19 word act s
    else if x.send = send then trapAct 0x11 word act (giveGrant x.wid (.trap 0x11 0) (free s))
    else if x.n ≠ n then trapAct 0x19 word act (giveGrant x.wid (.trap 0x19 0) (free s))
    else
      let s1 := if send then transfer s s.w.wid abs act x.wid x.first x.act n
        else transfer s x.wid x.first x.act s.w.wid abs act n
      .fall (giveGrant x.wid .done (free s1))

/-- XSEND (R143). -/
def execXsend (d : BitVec 4) (a b : BitVec 6) (g : Bool) (s : State) : Host.Outcome State Fault Refusal :=
  let word := wordA 0x35 (in6 d) a b 0 g false
  ({ word := word, guard := g, cls := .vector, regs := [{ n := a.toNat, cnt := b.toNat }], tx := false } : Gate).run
    (xferOp word d.toNat a.toNat b.toNat true) s

/-- XRECV (R143). -/
def execXrecv (d : BitVec 6) (a : BitVec 4) (b : BitVec 6) (g : Bool) (s : State) : Host.Outcome State Fault Refusal :=
  let word := wordA 0x36 d (in6 a) b 0 g false
  ({ word := word, guard := g, cls := .vector, regs := [{ n := d.toNat, cnt := b.toNat }], tx := false } : Gate).run
    (xferOp word a.toNat d.toNat b.toNat false) s

/-! ### REGROUP (R59, R144 to R146) -/

/-- Whether a warp has live lanes: a path in a slot or stacked. -/
def Warp.live (w : Warp) : Bool :=
  w.p.held || w.q.held || w.recs.any (fun r => match r.body with | .split _ => true | .call _ => false)

/-- The warps of a workgroup that have live lanes, ascending by WARPID. -/
def State.liveWarps (s : State) (wg : Nat) : List Warp := (s.wgWarps wg).filter Warp.live

/-- A record that REGROUP moves (R146). -/
structure RgRec where
  key : LW
  regs : List LW
  tid : W32
deriving DecidableEq, Repr

/-- Insert by key after every record of an equal key (R146: stable, unsigned). -/
def rgInsert (r : RgRec) : List RgRec → List RgRec
  | [] => [r]
  | x :: xs => if r.key.bits.toNat < x.key.bits.toNat then r :: x :: xs else x :: rgInsert r xs

/-- The stable sort of R146. -/
def rgSort (rs : List RgRec) : List RgRec := rs.foldl (fun acc r => rgInsert r acc) []

/-- The lane places of the participants (R146). -/
def rgPlaces (s : State) (wg : Nat) (arr : List RgArrival) : List (Warp × Nat) :=
  (s.wgWarps wg).flatMap (fun w =>
    match arr.find? (fun a => a.wid == w.wid) with
    | some a => (lanesOf a.act).map (fun l => (w, l))
    | none => [])

/-- The record of a lane place. -/
def rgRead (d a n : Nat) (e : Warp × Nat) : RgRec :=
  { key := e.1.vl a e.2, regs := (List.range n).map (fun i => e.1.vl (d + i) e.2), tid := look 0 e.1.tid e.2 }

/-- Write a record into a lane place. -/
def rgWrite (d a : Nat) (w : Warp) (l : Nat) (r : RgRec) : Warp :=
  let w1 := w.setL a l r.key
  let w2 := (r.regs.foldl (fun (acc : Nat × Warp) x => (acc.1 + 1, acc.2.setL (d + acc.1) l x)) (0, w1)).2
  { w2 with tid := put 0 w2.tid l r.tid }

/-- Run the collective once every warp with live lanes has arrived (R145, R146). -/
def regroupTry (wg : Nat) (s : State) : State :=
  let g := s.wg wg
  match g.regroup with
  | [] => s
  | f :: rest =>
    if (s.liveWarps wg).all (fun w => g.regroup.any (fun a => a.wid == w.wid)) then
      let s0 := s.setWg wg { g with regroup := [] }
      if rest.all (fun a => a.d == f.d && a.a == f.a && a.n == f.n) then
        let places := rgPlaces s wg g.regroup
        let recs := rgSort (places.map (rgRead f.d f.a f.n))
        let s1 := (places.zip recs).foldl (fun s e => s.modWarp e.1.1.wid (fun w => rgWrite f.d f.a w e.1.2 e.2)) s0
        g.regroup.foldl (fun s a => giveGrant a.wid .done s) s1
      else g.regroup.foldl (fun s a => giveGrant a.wid (.trap 0x10 0) s) s0
    else s

/-- REGROUP (R59, R144, R145). -/
def execRegroup (d a b : BitVec 6) (g : Bool) (s : State) : Host.Outcome State Fault Refusal :=
  let word := wordA 0x37 d a b 0 g false
  ({ word := word, guard := g, cls := .vector, regs := [{ n := d.toNat, cnt := max 1 b.toNat }, vop1 a], tx := false } : Gate).run
    (fun s act =>
      let w := s.w
      if w.block = some 9 then onGrant 9 word s act (fun _ _ s => .fall s)
      else if w.p.fdepth ≠ 0 ∨ w.recs.any (fun r => match r.body with | .split _ => true | .call _ => false) ∨ w.q.held ∨
          w.p.levels ≠ 0 ∨ w.tlevel ≠ 0 then trapAct 0x10 word act s
      else
        let wgS := s.wg w.wg
        let me : RgArrival := { wid := w.wid, d := d.toNat, a := a.toNat, n := b.toNat, act := act }
        let s1 := s.setWg w.wg { wgS with regroup := wgS.regroup ++ [me] }
        onGrant 9 word (regroupTry w.wg s1) act (fun _ _ s => .fall s)) s

end Sys2Proof.Machine
end

