-- ==== Sys2Proof/Machine/Fetch.lean ====
section
/-! DEFINITION. Fetching an instruction's bytes (R67, R68, R86 step 1, R189, R359). -/

namespace Sys2Proof.Machine

/-- What a fetch meets: the bytes, a trap with its cause, or a page that is not resident (R188, R189). -/
inductive Fetched where
  | bytes (bs : List Byte)
  | trap (cause : Nat)
  | retry

/-- The line of a core's instruction cache that holds a key, where it has one (R359). -/
def icLine (s : State) (core key : Nat) : Line := look {} (s.core core).ic (lineOf key)

/-- Fetch `n` bytes (4, or the aligned 8-byte unit of a literal-bearing instruction) for a warp (R67, R68, R189). -/
def fetch (s : State) (w : Warp) (pc : W64) (n : Nat) : Fetched :=
  match checkPage s w.ctx w.die pc .fetch with
  | .error f => .trap f.cause
  | .ok (_, p) =>
    if !p.resident then .retry
    else
      let ln := icLine s w.core p.key
      if ln.live then
        if ln.bad.getD (p.key % 128 / 8) false then .trap 0x15 else .bytes ((ln.bytes.drop (p.key % 128)).take n)
      else if isBad s p.key then .trap 0x15
      else .bytes (loadBytes s p.key n)

/-- The word at an address, where it can be fetched without a fault (R166). -/
def wordAt (s : State) (w : Warp) (pc : W64) : Option W32 :=
  match fetch s w pc 4 with
  | .bytes bs => some (w32 (field bs 0 4))
  | _ => none

/-- F, when a word is an ENTER with F from 1 to 8 (R166, R168). -/
def enterFrame (x : W32) : Option Nat :=
  let f := bits32 x 3 0
  if bits32 x 31 4 == 0x2200000 && 1 ≤ f && f ≤ 8 then some f else none

/-- The provisional frame of a call to `target` (R166). -/
def provisional (s : State) (target : W64) : Nat :=
  ((wordAt s s.w target).bind enterFrame).getD s.w.p.fsize

end Sys2Proof.Machine
end

