-- ==== Sys2Proof/Machine/TxLog.lean ====
section
/-! DEFINITION. The logs of a transaction: what a read, a write and an atomic of an ACTIVE lane do to them (R244, R246),
the commit of a lane (R254), and the line set of a Tabard (R260). -/

namespace Sys2Proof.Machine

/-- The entries of a lane's read log and write log (R244). -/
def readLogSize : Nat := 32
def writeLogSize : Nat := 16

/-- The transaction state of a lane. -/
def Warp.txl (w : Warp) (l : Nat) : TxLane := look {} w.tx l

/-- Replace the transaction state of a lane. -/
def Warp.setTxl (w : Warp) (l : Nat) (t : TxLane) : Warp := { w with tx := put {} w.tx l t }

/-- One lane aborts, if it is ACTIVE. -/
def abortLane (l cause : Nat) (s : State) : State := { s with w := s.w.abort (1#32 <<< l) cause 0 }

/-- The memory key of the 8-byte word that holds a key. -/
def wordKey (k : Nat) : Nat := k / 8 * 8

/-- The bytes of its word that an access covers. -/
def byteMask (k size : Nat) : BitVec 8 := BitVec.ofNat 8 ((2 ^ size - 1) * 2 ^ (k % 8))

/-- The 64-bit mask of a byte mask. -/
def bitMask (m : BitVec 8) : W64 :=
  (List.range 8).foldl (fun x i => if m.getLsbD i then x ||| w64 (255 * 2 ^ (8 * i)) else x) 0

/-- A log's entry for a word. -/
def logAt (log : List LogEntry) (key : Nat) : Option LogEntry := log.find? (fun e => e.key == key)

/-- The `size` bytes at key `k` of its word. -/
def subWord (x : W64) (k size : Nat) : W64 := w64 (x.toNat / 2 ^ (8 * (k % 8)) % 2 ^ (8 * size))

/-- What a lane sees of an access through its logs, where the word's value in the read log is `base` (R246). -/
def seen (own : LogEntry) (base : W64) (baseBad : Bool) (k size : Nat) : W64 × Bool :=
  let m := bitMask own.bytes
  let need := byteMask k size
  (subWord ((own.val &&& m) ||| (base &&& ~~~m)) k size,
    (own.bad && (own.bytes &&& need) != 0) || (baseBad && (need &&& ~~~own.bytes) != 0))

/-- A read of an ACTIVE lane: its own writes, then its read log, then the word's current value, which it logs; none
where the read log is full and the lane aborts (R246). -/
def logRead (l size : Nat) (p : Pass) (s : State) : State × Option (W64 × Bool) :=
  let t := s.w.txl l
  let k := wordKey p.key
  let own := (logAt t.wlog k).getD {}
  let need := byteMask p.key size
  if need &&& ~~~own.bytes = 0 then (s, some (seen own 0 false p.key size))
  else match logAt t.rlog k with
    | some e => (s, some (seen own e.val e.bad p.key size))
    | none =>
      if readLogSize ≤ t.rlog.length then (abortLane l 2 s, none)
      else
        let r := readVia s s.w.core p.l1 k 8
        let e : LogEntry := { key := k, val := r.1, bad := r.2 }
        ({ s with w := s.w.setTxl l { t with rlog := t.rlog ++ [e] } }, some (seen own r.1 r.2 p.key size))

/-- A log entry with the bytes of a write merged in (R246). -/
def mergeEntry (e : LogEntry) (k size : Nat) (v : W64) (bad : Bool) : LogEntry :=
  let b := byteMask k size
  let m := bitMask b
  { e with val := ((v <<< (8 * (k % 8))) &&& m) ||| (e.val &&& ~~~m), bytes := e.bytes ||| b
           bad := if size = 8 then bad else bad || e.bad }

/-- A write of an ACTIVE lane: merged into its write log; false where that is full and the lane aborts (R246). -/
def logWrite (l size : Nat) (p : Pass) (v : W64) (bad : Bool) (s : State) : State × Bool :=
  let t := s.w.txl l
  let k := wordKey p.key
  match logAt t.wlog k with
  | some _ =>
    ({ s with w := s.w.setTxl l { t with wlog := updFirst (fun e => e.key == k) (fun e => mergeEntry e p.key size v bad) t.wlog } },
      true)
  | none =>
    if writeLogSize ≤ t.wlog.length then (abortLane l 3 s, false)
    else ({ s with w := s.w.setTxl l { t with wlog := t.wlog ++ [mergeEntry { key := k } p.key size v bad] } }, true)

/-- An atomic of an ACTIVE lane: a read and then a write; what it returns, unless the lane aborts (R246). A poisoned
word is left as it is (R202). -/
def logAtomic (l size aop ty : Nat) (p : Pass) (x y : W64) (s : State) : State × Option (W64 × Bool) :=
  match logRead l size p s with
  | (s1, none) => (s1, none)
  | (s1, some (old, true)) => (s1, some (old, true))
  | (s1, some (old, false)) =>
    match logWrite l size p (atomicNew aop ty old x y) false s1 with
    | (s2, true) => (s2, some (old, false))
    | (s2, false) => (s2, none)

/-! ### Line sets (R260) -/

/-- The lines that a holder's IRREVOCABLE lanes touch join its Tabard's line set (R260). -/
def noteLinesOf (wid : Nat) (lines : List Nat) (s : State) : State :=
  { s with tabards := s.tabards.map (fun t =>
      if t.holder == some wid then { t with lines := t.lines ++ lines.filter (fun x => !t.lines.contains x) } else t) }

/-- The same for the warp on turn. -/
def noteLines (lines : List Nat) (s : State) : State := noteLinesOf s.w.wid lines s

/-- The line of an address of a warp, where its page may be read. -/
def readLines (s : State) (w : Warp) (va : W64) : List Nat :=
  match checkPage s w.ctx w.die va .read with
  | .ok (_, p) => [lineOf p.key]
  | .error _ => []

/-- The IRREVOCABLE lanes of a mask. -/
def Warp.irrTx (w : Warp) (m : Mask) : Mask := m &&& w.txMask .irrevocable

/-- An instruction reads the lines of some addresses at once: they are noted where IRREVOCABLE lanes issue it (R260). -/
def noteReads (act : Mask) (vas : List W64) (s : State) : State :=
  if s.w.irrTx act = 0 then s else noteLines (vas.flatMap (readLines s s.w)) s

/-! ### Commit (R254) -/

/-- A read-log word still has the value that the lane read (R254). Its bits alone are compared: poison of the word, then or now,
takes no part (DEDUCED, log 170). -/
def stillSame (s : State) (e : LogEntry) : Bool := w64 (rdMem s.mem e.key 8) == e.val

/-- A line of the lane's logs lies in a Tabard's line set (R260). -/
def meetsTabard (s : State) (t : TxLane) : Bool :=
  (t.rlog ++ t.wlog).any (fun e => s.tabards.any (fun b => b.holder.isSome && b.lines.contains (lineOf e.key)))

/-- The bytes of a write-log entry are written at the home, and every L1 of the writer's cluster drops the line (R197,
R254). -/
def commitWord (cluster : Nat) (s : State) (e : LogEntry) : State :=
  let s1 := dropLine s cluster (lineOf e.key) none
  if e.bytes == 0xFF#8 then storeMem e.key 8 e.val e.bad s1
  else (List.range 8).foldl (fun s i =>
    if e.bytes.getLsbD i then storeMem (e.key + i) 1 (subWord e.val i 1) e.bad s else s) s1

/-- A commit of the lane has lines to lock: it is ACTIVE and its logs are not empty (R254). -/
def TxLane.locks (t : TxLane) : Bool := t.st == .active && !(t.rlog.isEmpty && t.wlog.isEmpty)

/-- The word of TXEND (R253). -/
def txendWord : W32 := 0xB2000000#32

/-- A path of a warp is at its TXEND, which may be under way: it issues there, at level 0, in lanes whose commits have lines to
lock. Where the step in which its commits are made has not come, they may hold their locks (R251, R253, R254). -/
def committing (s : State) (w : Warp) (p : Path) : Bool :=
  p.st == .running && !p.parked && w.tlevel == 0 && w.block.isNone && w.pend.isNone && w.retry.isEmpty &&
    (lanesOf p.mask).any (fun l => (w.txl l).locks) &&
    (match fetch s w p.pc 4 with | .bytes bs => w32 (field bs 0 4) == txendWord | _ => false)

/-- A slice that the commit needs may hold 8 locked commits of other warps: there are lines to lock, and at least 8 other warps,
whose lanes commit one after another, are at a TXEND (R251, R254). -/
def maySliceFill (s : State) (t : TxLane) : Bool :=
  !(t.rlog.isEmpty && t.wlog.isEmpty) && 8 ≤ (s.others.filter (fun w => committing s w w.p || committing s w w.q)).length

/-- The commit of lane l at one moment: it finds a slice full and fails with SLICE_BUSY, the check fails with VALIDATION,
or it writes and the lane's logs are empty (R254). Whether a slice is full is a free value (log 50). -/
def commitLane (l : Nat) (s : State) : State :=
  let t := s.w.txl l
  let may := maySliceFill s t
  let s0 := if may then { s with free := s.free + 1 } else s
  if may && Config.sliceBusy s.free then abortLane l 8 s0
  else if meetsTabard s t || t.rlog.any (fun e => !stillSame s e) then abortLane l 1 s0
  else
    let s1 := t.wlog.foldl (commitWord s.w.cluster) s0
    { s1 with w := s1.w.setTxl l { t with rlog := [], wlog := [] } }

end Sys2Proof.Machine
end

