-- ==== Sys2Proof/Machine/MemIns.lean ====
section
/-! DEFINITION. Loads, stores and atomics: LD, ST, LDU, STU, LDH, STH, ATOM, ATOMA, RED and ATOMH (R186-R188,
R203-R213, R246). -/

namespace Sys2Proof.Machine

/-! ### Checks (R187, R188, R247) -/

/-- The address of a per-lane global form: s[a] + sext(v[b].lane[l], 64) (R209). -/
def Warp.laneAddr (w : Warp) (a b l : Nat) : W64 := (w.sr a).bits + sx (w.vl b l).bits

/-- The warp parks at a retry fault, and each access joins the die's open batch (R188). -/
def parkAt (kind : Nat) (vas : List W64) (s : State) : Res :=
  .block 13 (vas.foldl (fun s va => addFault s.w.die s.w.ctx va kind s) { s with w := { s.w with retry := vas } })

/-- The check that an access fails, and how an access that fails none goes on. -/
def failOf : Except Fail Pass → Option Fail
  | .error f => some f
  | .ok _ => none
def passOf : Except Fail Pass → Pass
  | .error _ => {}
  | .ok p => p

/-- The checks of R187 in every lane of `act`, and what follows them: ACTIVE lanes that touch memory of MT 2 or 3 abort
with SCOPE (R247), a page that is not resident parks the warp with no effect (R188), and `k` goes on with the lanes that
are left. A uniform form makes one access for all its lanes. -/
def withPasses (kind : Nat) (uniform : Bool) (va : Nat → W64) (chk : Nat → Except Fail Pass) (s0 : State) (act0 : Mask)
    (k : State → Mask → (Nat → Pass) → Res) : Res :=
  if act0 = 0 then .fall s0
  else
    failLanes (fun l => failOf (chk l)) s0 act0 (fun s act =>
      let ps := (lanesOf act).map (fun l => (l, passOf (chk l)))
      let pass (l : Nat) : Pass := look {} ps l
      let far := s.w.activeTx (maskOf (fun l => act.getLsbD l && (pass l).far))
      let act' := act &&& ~~~far
      let s1 : State := { s with w := s.w.abort far 7 0 }
      let gone := (lanesOf act').filter (fun l => !(pass l).resident)
      if act' = 0 then .fall s1
      else if gone.isEmpty then k s1 act' pass
      else parkAt kind ((if uniform then gone.take 1 else gone).map va) s0)

/-! ### Issue (R203, R225) -/

/-- An operation issues: it raises its counter, and completes at once where nothing is left to perform (R203, R204). -/
def issueOp (o : MemOp) (s : State) : State :=
  { s with w := ({ s.w with ops := s.w.ops ++ [{ o with seq := s.w.opSeq }], opSeq := s.w.opSeq + 1 } : Warp).complete }

/-- An access of each kind, as a global or scratch instruction makes it in lane l. -/
structure MemSpec where
  cls : OpClass
  acq : Bool := false
  rel : Bool := false
  drop : Bool := false
  dst : Dest := .none
  acc : Nat → Pass → Acc
  /-- What an ACTIVE lane does through its logs, and what it returns (R246). -/
  log : Nat → Pass → State → State × Option (W64 × Bool) := fun _ _ s => (s, none)

/-- An instruction that reads or logs at once goes on after the accesses that the warp has issued before it are performed, those of
its ray batches among them; it waits for these, and for the fabric (R225, R384). -/
def afterOps (s : State) (k : State → Res) : Res :=
  if s.w.raysOpen then .wait 3 s
  else
    let t := runAllOps s.w.wid s
    if t.w.ops.all (fun o => o.todo.isEmpty) then k t else .wait 3 t

/-- An instruction reads some addresses at once: over the fabric the reads set out with the context's GANG, and they are made
again where they are refused, while the warp waits (R384, R385, DEDUCED, log 166). -/
def overFabric (vas : List W64) (s : State) (k : State → Res) : Res :=
  let r := sendAll s.w.ctx (vas.flatMap (readKeys s s.w)) s
  if r.2 then k r.1 else .block 3 r.1

/-- The ACTIVE lanes act through their logs; their results, by lane. -/
def logLanes (m : MemSpec) (tx : Mask) (pass : Nat → Pass) (s : State) : State × List Got :=
  (lanesOf tx).foldl (fun (a : State × List Got) l =>
    let r := m.log l (pass l) a.1
    (r.1, match r.2 with | some x => a.2 ++ [⟨l, x.1, x.2⟩] | none => a.2)) (s, [])

/-- Where lanes of `act` are ACTIVE, what follows comes after the accesses issued before (R246). -/
def withLogs (s : State) (act : Mask) (k : State → Res) : Res := if s.w.activeTx act = 0 then k s else afterOps s k

/-- The operation of the lanes that are not ACTIVE, with the results that the others have already had; `irr` says that some
of them are IRREVOCABLE (R260). -/
def MemSpec.op (m : MemSpec) (lanes : List Nat) (pass : Nat → Pass) (got : List Got) (irr : Bool) : MemOp :=
  { cls := m.cls, acq := m.acq, rel := m.rel, drop := m.drop, irr := irr, dst := m.dst, got := got
    todo := lanes.map (fun l => m.acc l (pass l)) }

/-- A global instruction after its checks: ACTIVE lanes through their logs, the others as an outstanding operation. The line
that an IRREVOCABLE lane names joins its Tabard's line set for every form, CWB included, though that neither reads nor writes
it (DEDUCED, log 168). -/
def perLane (m : MemSpec) (s : State) (act : Mask) (pass : Nat → Pass) : Res :=
  withLogs s act (fun s =>
    let tx := s.w.activeTx act
    let r := logLanes m tx pass s
    let rest := act &&& ~~~tx
    .fall (issueOp (m.op (lanesOf rest) pass r.2 (s.w.irrTx rest != 0)) (noteLines ((lanesOf (s.w.irrTx rest)).map (fun l => lineOf (pass l).key)) r.1)))

/-- A uniform global instruction after its checks (R210, R246): each ACTIVE lane acts through its logs; where some lane
is not ACTIVE, one access is made at memory, and otherwise the lowest lane's result stands. -/
def uniform (m : MemSpec) (s : State) (act : Mask) (pass : Nat → Pass) : Res :=
  withLogs s act (fun s =>
    let tx := s.w.activeTx act
    let r := logLanes m tx pass s
    let rest := act &&& ~~~tx
    let lines := if s.w.irrTx rest = 0 then [] else [lineOf (pass (lowLane rest)).key]
    if rest = 0 then
      match r.2 with
      | [] => .fall (issueOp { m.op [] pass [] false with dst := .none } r.1)
      | g :: _ => .fall (issueOp (m.op [] pass [g] false) r.1)
    else .fall (issueOp (m.op [lowLane rest] pass [] (s.w.irrTx rest != 0)) (noteLines lines r.1)))

/-- Scopes of die or wider: an acquire drops the core's L1 (R197, R225). -/
def wideScope (sc : BitVec 3) : Bool := 4 ≤ sc.toNat

/-- The counter that a class raises stands at 63 (R203). -/
def Warp.counterFull (w : Warp) (c : OpClass) : Bool := match c with | .ld => 63 ≤ w.ld | .st => 63 ≤ w.st

/-- The checks of a per-lane global form. -/
def globalChecks (s : State) (a b size : Nat) (need : Need) (l : Nat) : Except Fail Pass :=
  checkGlobal s s.w (s.w.laneAddr a b l) size need

/-! ### LD and ST (R209) -/

/-- LD (R209). -/
def execLd (d a b : BitVec 6) (sc : BitVec 3) (o : BitVec 2) (g t : Bool) (s : State) : Host.Outcome State Fault Refusal :=
  let ty := s.w.p.typ t
  let size := memBytes ty
  ({ word := wordM 0x40 d a b sc o g t, guard := g, cls := .memory, ok := memType ty, regs := [vop d ty, vop1 b]
     scals := [a.toNat], uses := [useS a, useV1 b], full := s.w.counterFull .ld
     later := fun s l => failOf (globalChecks s a.toNat b.toNat size .read l) } : Gate).run
    (fun s act =>
      withPasses 0 false (s.w.laneAddr a.toNat b.toNat) (globalChecks s a.toNat b.toNat size .read) s act
        (perLane { cls := .ld, acq := o == 1#2, drop := o == 1#2 && wideScope sc
                   dst := .vec (s.w.p.wbase + d.toNat) size (isSigned ty)
                   acc := fun l p => { slot := l, key := p.key, size := size, l1 := p.l1 }
                   log := fun l p s => logRead l size p s })) s

/-- ST (R209). -/
def execSt (d a b : BitVec 6) (sc : BitVec 3) (o : BitVec 2) (g t : Bool) (s : State) : Host.Outcome State Fault Refusal :=
  let ty := s.w.p.typ t
  let size := memBytes ty
  let wide := wideType ty
  let w := s.w
  ({ word := wordM 0x41 d a b sc o g t, guard := g, cls := .memory, ok := memType ty, regs := [vop d ty, vop1 b]
     scals := [a.toNat], uses := [useS a, useV1 b], full := s.w.counterFull .st
     sync := o == 2#2, rel := o == 2#2, later := fun s l => failOf (globalChecks s a.toNat b.toNat size .write l) } : Gate).run
    (fun s act =>
      withPasses 1 false (s.w.laneAddr a.toNat b.toNat) (globalChecks s a.toNat b.toNat size .write) s act
        (perLane { cls := .st, rel := o == 2#2
                   acc := fun l p => { slot := l, kind := .write, key := p.key, size := size, l1 := p.l1
                                       x := w.rawV wide d.toNat l, bad := w.badV wide d.toNat l }
                   log := fun l p s =>
                     ((logWrite l size p (w.rawV wide d.toNat l) (w.badV wide d.toNat l) s).1, none) })) s

/-! ### LDU and STU (R210) -/

/-- LDU (R210, R246). -/
def execLdu (d a b : BitVec 6) (sc : BitVec 3) (o : BitVec 2) (g t : Bool) (s : State) : Host.Outcome State Fault Refusal :=
  let ty := s.w.p.typ t
  let size := memBytes ty
  ({ word := wordM 0x42 d a b sc o g t, guard := g, cls := .memory, ok := memType ty
     scals := [d.toNat, a.toNat, b.toNat], uses := [useS a, useS b], full := s.w.counterFull .ld } : Gate).run
    (fun s act =>
      let ea := (s.w.sr a.toNat).bits + (s.w.sr b.toNat).bits
      withPasses 0 true (fun _ => ea) (fun _ => checkGlobal s s.w ea size .read) s act
        (uniform { cls := .ld, acq := o == 1#2, drop := o == 1#2 && wideScope sc
                   dst := .scalar d.toNat size (isSigned ty)
                   acc := fun _ p => { key := p.key, size := size, l1 := p.l1 }
                   log := fun l p s => logRead l size p s })) s

/-- STU (R210, R246). -/
def execStu (d a b : BitVec 6) (sc : BitVec 3) (o : BitVec 2) (g t : Bool) (s : State) : Host.Outcome State Fault Refusal :=
  let ty := s.w.p.typ t
  let size := memBytes ty
  let x := s.w.sr d.toNat
  ({ word := wordM 0x43 d a b sc o g t, guard := g, cls := .memory, ok := memType ty
     scals := [d.toNat, a.toNat, b.toNat], uses := [useS a, useS b], full := s.w.counterFull .st
     sync := o == 2#2, rel := o == 2#2 } : Gate).run
    (fun s act =>
      let ea := (s.w.sr a.toNat).bits + (s.w.sr b.toNat).bits
      withPasses 1 true (fun _ => ea) (fun _ => checkGlobal s s.w ea size .write) s act
        (uniform { cls := .st, rel := o == 2#2
                   acc := fun _ p => { kind := .write, key := p.key, size := size, l1 := p.l1, x := x.bits, bad := x.bad }
                   log := fun l p s => ((logWrite l size p x.bits x.bad s).1, none) })) s

/-! ### LDH and STH (R211) -/

/-- The checks of a scratch form in lane l: the offset is v[b].lane[l] (R187, R211). -/
def scratchChecks (s : State) (a b size : Nat) (need : Need) (l : Nat) : Except Fail Pass :=
  checkScratch s s.w (s.w.sr a).bits (s.w.vl b l).bits.toNat size size need

/-- A scratch operation of all lanes. -/
def scratchOp (m : MemSpec) (s : State) (act : Mask) (pass : Nat → Pass) : Res :=
  .fall (issueOp (m.op (lanesOf act) pass [] (s.w.irrTx act != 0)) s)

/-- LDH (R211). -/
def execLdh (d a b : BitVec 6) (sc : BitVec 3) (o : BitVec 2) (g t : Bool) (s : State) : Host.Outcome State Fault Refusal :=
  let ty := s.w.p.typ t
  let size := memBytes ty
  ({ word := wordM 0x44 d a b sc o g t, guard := g, cls := .memory, ok := memType ty, regs := [vop d ty, vop1 b]
     scals := [a.toNat], uses := [useS a, useV1 b], full := s.w.counterFull .ld, sync := true
     later := fun s l => failOf (scratchChecks s a.toNat b.toNat size .read l) } : Gate).run
    (fun s act =>
      withPasses 0 false (fun _ => 0) (scratchChecks s a.toNat b.toNat size .read) s act
        (scratchOp { cls := .ld, acq := o == 1#2, dst := .vec (s.w.p.wbase + d.toNat) size (isSigned ty)
                     acc := fun l p => { slot := l, key := p.key, size := size, l1 := false } })) s

/-- STH (R211). -/
def execSth (d a b : BitVec 6) (sc : BitVec 3) (o : BitVec 2) (g t : Bool) (s : State) : Host.Outcome State Fault Refusal :=
  let ty := s.w.p.typ t
  let size := memBytes ty
  let wide := wideType ty
  let w := s.w
  ({ word := wordM 0x45 d a b sc o g t, guard := g, cls := .memory, ok := memType ty, regs := [vop d ty, vop1 b]
     scals := [a.toNat], uses := [useS a, useV1 b], full := s.w.counterFull .st, tx := false
     sync := true, rel := o == 2#2 } : Gate).run
    (fun s act =>
      withPasses 1 false (fun _ => 0) (scratchChecks s a.toNat b.toNat size .write) s act
        (scratchOp { cls := .st, rel := o == 2#2
                     acc := fun l p => { slot := l, kind := .write, key := p.key, size := size, l1 := false
                                         x := w.rawV wide d.toNat l, bad := w.badV wide d.toNat l } })) s

/-! ### Atomics (R212, R213) -/

/-- The types that an AOP allows (R213). -/
def atomLegal (aop ty : Nat) : Bool :=
  let add := 6 ≤ ty && ty ≤ 9
  if aop = 5 ∨ aop = 6 ∨ aop = 7 then add || ty == 30 || ty == 31
  else if aop = 8 ∨ aop = 9 then moveType ty
  else if aop = 10 then ty == 12 || ty == 13 || ty == 26 || ty == 27
  else add

/-- The registers from b at which x begins (R213). -/
def atomX (wide : Bool) : Nat := if wide then 2 else 1

/-- Registers of x, and of y for CAS (R213). -/
def atomRegs (aop : Nat) (wide : Bool) : Nat := (if wide then 2 else 1) * (if aop = 9 then 2 else 1)

/-- The operands of an atomic: the offset, and x and y behind it (R213). -/
def atomVops (b : BitVec 6) (aop : Nat) (wide : Bool) : List VOp :=
  [{ n := b.toNat, even := wide }, { n := b.toNat + atomX wide, cnt := atomRegs aop wide }]

/-- The same as operands whose poison traps (R202). -/
def atomUses (a b : BitVec 6) (aop : Nat) (wide : Bool) : List Use :=
  [useS a, useV1 b, { n := b.toNat, cnt := atomRegs aop wide, off := atomX wide }]

/-- x and y in lane l. -/
def Warp.atomXY (w : Warp) (b : Nat) (wide : Bool) (l : Nat) : W64 × W64 :=
  (w.rawV wide (b + atomX wide) l, w.rawV wide (b + 2 * atomX wide) l)

/-- An access of an atomic in lane l (R213). -/
def atomAcc (w : Warp) (kind : AccKind) (b size : Nat) (wide : Bool) (l : Nat) (p : Pass) : Acc :=
  { slot := l, kind := kind, key := p.key, size := size, x := (w.atomXY b wide l).1, y := (w.atomXY b wide l).2, l1 := false }

/-- ATOM, ATOMA and RED (R212, R213). -/
def globalAtomic (op : BitVec 7) (ret ar : Bool) (d a b : BitVec 6) (aop : BitVec 4) (sc : BitVec 3) (s : State) :
    Host.Outcome State Fault Refusal :=
  let ty := s.w.p.ta
  let wide := wideType ty
  let size := memBytes ty
  let w := s.w
  let cls : OpClass := if ret then .ld else .st
  let n := aop.toNat
  ({ word := wordQ op d a b aop sc, cls := .memory, ok := atomLegal n ty
     regs := (if ret then [vop d ty] else []) ++ atomVops b n wide, scals := [a.toNat]
     uses := atomUses a b n wide, full := s.w.counterFull cls, sync := ar, rel := ar
     later := fun s l => failOf (globalChecks s a.toNat b.toNat size .rmw l) } : Gate).run
    (fun s act =>
      withPasses 2 false (s.w.laneAddr a.toNat b.toNat) (globalChecks s a.toNat b.toNat size .rmw) s act
        (perLane { cls := cls, acq := ar, rel := ar, drop := ar && wideScope sc
                   dst := if ret then .vec (s.w.p.wbase + d.toNat) size false else .none
                   acc := atomAcc w (if ret then .atomic n ty else .reduce n ty) b.toNat size wide
                   log := fun l p s =>
                     let xy := w.atomXY b.toNat wide l
                     match logAtomic l size n ty p xy.1 xy.2 s with
                     | (s1, some r) => if ret then (s1, some r) else (if r.2 then logUnc w.cluster s1 else s1, none)
                     | (s1, none) => (s1, none) })) s

/-- ATOM (R212). -/
def execAtom (d a b : BitVec 6) (aop : BitVec 4) (sc : BitVec 3) (s : State) : Host.Outcome State Fault Refusal :=
  globalAtomic 0x46 true false d a b aop sc s

/-- ATOMA (R212). -/
def execAtoma (d a b : BitVec 6) (aop : BitVec 4) (sc : BitVec 3) (s : State) : Host.Outcome State Fault Refusal :=
  globalAtomic 0x47 true true d a b aop sc s

/-- RED (R212). -/
def execRed (a b : BitVec 6) (aop : BitVec 4) (sc : BitVec 3) (s : State) : Host.Outcome State Fault Refusal :=
  globalAtomic 0x48 false false 0 a b aop sc s

/-- ATOMH (R212). -/
def execAtomh (d a b : BitVec 6) (aop : BitVec 4) (sc : BitVec 3) (s : State) : Host.Outcome State Fault Refusal :=
  let ty := s.w.p.ta
  let wide := wideType ty
  let size := memBytes ty
  let w := s.w
  let n := aop.toNat
  ({ word := wordQ 0x49 d a b aop sc, cls := .memory, ok := atomLegal n ty, regs := vop d ty :: atomVops b n wide
     scals := [a.toNat], uses := atomUses a b n wide, full := s.w.counterFull .ld, tx := false, sync := true } : Gate).run
    (fun s act =>
      withPasses 2 false (fun _ => 0) (scratchChecks s a.toNat b.toNat size .rmw) s act
        (scratchOp { cls := .ld, dst := .vec (s.w.p.wbase + d.toNat) size false
                     acc := atomAcc w (.atomic n ty) b.toNat size wide })) s

end Sys2Proof.Machine
end

