-- ==== Sys2Proof/Machine/Handles.lean ====
section
/-! DEFINITION. Scratch allocation, the wait instructions and cache control: TALLOC, TFREE, TINFO, WAIT, WAITR, PFL1,
PFLLC, CWB, CINV and ICINV (R190-R199, R206, R207, R289). -/

namespace Sys2Proof.Machine

/-! ### TALLOC and TFREE (R193-R195) -/

/-- The lowest number below 64 that satisfies `p`. -/
def firstHandle (p : Nat → Bool) : Option Nat := (List.range 64).find? p

/-- Bytes that an allocation takes from the reservation (R193). -/
def Handle.need (h : Handle) : Nat := roundUp h.bytes 256

/-- The handle of a shape word, before it is allocated; none where R193 does not allow the word. -/
def shapeOf (x : W64) : Option Handle :=
  let h : Handle := { live := true, cluster := x.getLsbD 28, rows := bits x 15 0, rowb := bits x 27 16 }
  if bits x 63 29 = 0 ∧ 1 ≤ h.rows ∧ h.rows ≤ 16384 ∧ 1 ≤ h.rowb ∧ h.rowb ≤ 2048 ∧ h.bytes ≤ 524288 then some h else none

/-- Drop the bytes and the poison of a scratch segment. -/
def dropSeg (seg : Nat) (s : State) : State :=
  let lo := scratchKey seg 0
  let hi := scratchKey (seg + 1) 0
  { s with mem := s.mem.filter (fun e => !(lo ≤ e.1 && e.1 < hi))
           bad := s.bad.filter (fun e => !(lo ≤ 8 * e.1 && 8 * e.1 < hi)) }

/-- Allocate a zeroed segment of a workgroup to handle `n` (R193). -/
def allocIn (wg n : Nat) (h : Handle) (s : State) : State :=
  let g := s.wg wg
  let h1 : Handle := { h with seg := s.nextSeg }
  { s with nextSeg := s.nextSeg + 1 }.setWg wg { g with handles := put {} g.handles n h1, free := g.free - h.need }

/-- Free handle `n` of a workgroup (R195). -/
def freeIn (wg n : Nat) (s : State) : State :=
  let g := s.wg wg
  let h := look {} g.handles n
  (dropSeg h.seg s).setWg wg { g with handles := del g.handles n, free := g.free + h.need }

/-- The first arrival of each workgroup of a launch at its TALLOC or TFREE collectives, where all have one (R194,
R195). -/
def clusterHeads (s : State) (launch : Nat) (free : Bool) : Option (List ClArrival) :=
  (s.launch launch).wgs.foldr (fun g acc =>
    match acc, (s.launch launch).arrivals.find? (fun a => a.wg == g && a.free == free) with
    | some as, some a => some (a :: as)
    | _, _ => none) (some [])

/-- Every participant finds a grant. -/
def grantAll (as : List ClArrival) (f : ClArrival → Grant) (s : State) : State :=
  as.foldl (fun s a => giveGrant a.wid (f a) s) s

/-- The collective CLUSTER-level TALLOC (R194). -/
def clusterAlloc (as : List ClArrival) (s : State) : State :=
  match as with
  | [] => s
  | a :: _ =>
    if as.any (fun b => b.word != a.word) then grantAll as (fun _ => .trap 0x07 0) s
    else
      let h := (shapeOf a.word).getD {}
      match firstHandle (fun n => as.all (fun b => !(look {} (s.wg b.wg).handles n).live)) with
      | some n =>
        if as.all (fun b => h.need ≤ (s.wg b.wg).free) then
          grantAll as (fun b => .value (w64 ((s.wg b.wg).rank * 256 + n)) 0) (as.foldl (fun s b => allocIn b.wg n h s) s)
        else grantAll as (fun _ => .value (BitVec.allOnes 64) 0) s
      | none => grantAll as (fun _ => .value (BitVec.allOnes 64) 0) s

/-- The collective CLUSTER-level TFREE (R195). -/
def clusterFree (as : List ClArrival) (s : State) : State :=
  match as with
  | [] => s
  | a :: _ =>
    if as.any (fun b => bits b.word 5 0 != bits a.word 5 0) then grantAll as (fun _ => .trap 0x07 0) s
    else grantAll as (fun _ => .done) (as.foldl (fun s b => freeIn b.wg (bits a.word 5 0) s) s)

/-- A key lies in one of some segments. -/
def inSegs (segs : List Nat) (k : Nat) : Bool := segs.any (fun g => scratchKey g 0 ≤ k && k < scratchKey (g + 1) 0)

/-- Whether accesses, copies, barrier waits or tile operations of a workgroup to some segments are outstanding (R195). -/
def segsBusy (s : State) (wg : Nat) (segs : List Nat) : Bool :=
  (s.warps.filter (fun w => w.wg == wg)).any (fun w =>
    w.ops.any (fun o => o.todo.any (fun a => inSegs segs a.key)) ||
      (w.block == some 6 && (match w.bwait with | some k => inSegs segs k | none => false)) ||
      (s.core w.core).mxa.any (fun j => j.wid == w.wid && j.op.keys.any (inSegs segs))) ||
    s.copies.any (fun c => c.wg == wg && c.ending == 0 &&
      (c.slices.any (fun x => segs.contains x.seg || (c.form == .cpg && inSegs segs x.index)) ||
        (c.desc.bmode != 0 && inSegs segs c.barKey)))

/-- A collective TFREE whose participants name one handle waits until every access, copy and barrier operation of their workgroups
that has been issued before the free takes effect, and that addresses the handle, has been performed (R195, R214). -/
def freeBusy (s : State) (as : List ClArrival) : Bool :=
  match as with
  | [] => false
  | a :: _ =>
    as.all (fun b => bits b.word 5 0 == bits a.word 5 0) &&
      as.any (fun b => segsBusy s b.wg (as.map (fun c => (look {} (s.wg c.wg).handles (bits a.word 5 0)).seg)))

/-- Run a launch's next collective of a kind once every workgroup has joined it (R194), and a free may take effect (R195). -/
def clusterTry (launch : Nat) (free : Bool) (s : State) : State :=
  match clusterHeads s launch free with
  | none => s
  | some as =>
    if free && freeBusy s as then s else
    let l := s.launch launch
    let s1 := s.setLaunch launch { l with
      arrivals := l.arrivals.filter (fun a => !as.any (fun b => b.wid == a.wid && b.free == a.free)) }
    if free then clusterFree as s1 else clusterAlloc as s1

/-- A warp joins the next collective of its workgroup. -/
def clusterJoin (free : Bool) (word : W64) (s : State) : State :=
  let id := (s.wg s.w.wg).launch
  let l := s.launch id
  let a : ClArrival := { wg := s.w.wg, wid := s.w.wid, free := free, word := word }
  clusterTry id free (s.setLaunch id { l with arrivals := l.arrivals ++ [a] })

/-- TALLOC (R193, R194). -/
def execTalloc (d a : BitVec 6) (g : Bool) (s : State) : Host.Outcome State Fault Refusal :=
  ({ word := wordA 0x4A d a 0 0 g false, guard := g, cls := .memory, scals := [d.toNat, a.toNat], uses := [useS a]
     tx := false } : Gate).run
    (fun s act =>
      let shape := (s.w.sr a.toNat).bits
      let answer (v : W64) (s : State) : Res := .fall { s with w := s.w.setS d.toNat v false }
      if act = 0 then .fall s
      else if s.w.block = some 9 then onGrant 9 shape s act (fun v _ s => answer v s)
      else match shapeOf shape with
        | none => trapAct 0x07 shape act s
        | some h =>
          if h.cluster then onGrant 9 shape (clusterJoin false shape s) act (fun v _ s => answer v s)
          else
            let wg := s.wg s.w.wg
            match firstHandle (fun n => !(look {} wg.handles n).live) with
            | none => answer (BitVec.allOnes 64) s
            | some n =>
              if wg.free < h.need then answer (BitVec.allOnes 64) s
              else answer (w64 (wg.rank * 256 + n)) (allocIn s.w.wg n h s)) s

/-- The arrivals of warp `wid` belong to a collective TFREE which every workgroup has joined, and which waits to take effect (R194,
R195). -/
def freeJoined (s : State) (launch wid : Nat) : Bool :=
  (clusterHeads s launch true).any (fun as => as.any (fun a => a.wid == wid))

/-- TFREE (R195). A collective one is looked at again while its participants wait. -/
def execTfree (a : BitVec 6) (g : Bool) (s : State) : Host.Outcome State Fault Refusal :=
  ({ word := wordA 0x4A 0 a 0 1 g false, guard := g, cls := .memory, scals := [a.toNat], uses := [useS a]
     tx := false } : Gate).run
    (fun s act =>
      let word := (s.w.sr a.toNat).bits
      let n := bits word 5 0
      if act = 0 then .fall s
      else if s.w.block = some 9 then onGrant 9 word (clusterTry (s.wg s.w.wg).launch true s) act (fun _ _ s => .fall s)
      else match handleOf s s.w word with
        | none => trapAct 0x07 word act s
        | some _ =>
          let h := look {} (s.wg s.w.wg).handles n
          if h.cluster then onGrant 9 word (clusterJoin true word s) act (fun _ _ s => .fall s)
          else if segsBusy s s.w.wg [h.seg] then .wait 9 s
          else .fall (freeIn s.w.wg n (withdrawWg s.w.wg (some n) s))) s

/-- TINFO (R196). R247 names it in neither row of its table: it is performed directly in ACTIVE lanes (DESIGN CHOICE,
log 143). -/
def execTinfo (d : BitVec 6) (g : Bool) (s : State) : Host.Outcome State Fault Refusal :=
  ({ word := wordA 0x4A d 0 0 2 g false, guard := g, cls := .memory, scals := [d.toNat] } : Gate).run
    (fun s act =>
      let wg := s.wg s.w.wg
      let hfree := ((List.range 64).filter (fun n => !(look {} wg.handles n).live)).length
      let x := w64 (wg.free + Config.coreScratch / 1024 * 2 ^ 32 + hfree * 2 ^ 48)
      if act = 0 then .fall s else .fall { s with w := s.w.setS d.toNat x false }) s

/-! ### WAIT and WAITR (R206, R207, R289) -/

/-- The oldest unreported copy fault traps, where the instruction reports copy faults (R289). -/
def reportCopies (report : Bool) (s : State) (act : Mask) (k : Res) : Res :=
  match s.w.cpFaults with
  | f :: rest => if report then trapAct 0x0E f act { s with w := { s.w with cpFaults := rest } } else k
  | [] => k

/-- WAIT (R206). -/
def execWait (ld st cp tl : BitVec 6) (s : State) : Host.Outcome State Fault Refusal :=
  ({ word := zx (0x4B#7 ++ ld ++ st ++ cp ++ tl ++ 0#1), cls := .memory } : Gate).run
    (fun s act =>
      let w := s.w
      reportCopies (cp.toNat < 63) s act
        (if w.ld ≤ ld.toNat ∧ w.st ≤ st.toNat ∧ w.cp ≤ cp.toNat ∧ w.tl ≤ tl.toNat then .fall s else .block 5 s)) s

/-- WAITRLD, WAITRST, WAITRCP and WAITRTL (R207). -/
def waitReg (fn : BitVec 4) (a : BitVec 6) (g : Bool) (count : Warp → Nat) (s : State) : Host.Outcome State Fault Refusal :=
  ({ word := wordA 0x4C 0 a 0 fn g false, guard := g, cls := .memory, scals := [a.toNat], uses := [useS a] } : Gate).run
    (fun s act =>
      let x := (s.w.sr a.toNat).bits.toNat
      if act = 0 then .fall s
      else reportCopies (fn == 2 && x < 63) s act (if count s.w ≤ x then .fall s else .block 5 s)) s

/-- WAITRLD (R207). -/
def execWaitrld (a : BitVec 6) (g : Bool) (s : State) : Host.Outcome State Fault Refusal := waitReg 0 a g Warp.ld s
/-- WAITRST (R207). -/
def execWaitrst (a : BitVec 6) (g : Bool) (s : State) : Host.Outcome State Fault Refusal := waitReg 1 a g Warp.st s
/-- WAITRCP (R207). -/
def execWaitrcp (a : BitVec 6) (g : Bool) (s : State) : Host.Outcome State Fault Refusal := waitReg 2 a g Warp.cp s
/-- WAITRTL (R207). -/
def execWaitrtl (a : BitVec 6) (g : Bool) (s : State) : Host.Outcome State Fault Refusal := waitReg 3 a g Warp.tl s

/-! ### Cache control (R199) -/

/-- The gate of a per-lane cache-control form. -/
def cctlGate (fn : BitVec 4) (a b : BitVec 6) (g : Bool) : Gate :=
  { word := wordA 0x4D 0 a b fn g false, guard := g, cls := .memory, regs := [vop1 b], scals := [a.toNat] }

/-- The lines of device or host memory that a prefetch or CINV names: a lane whose check fails is dropped (R199). -/
def hintLines (s : State) (a b : Nat) (act : Mask) : List (Nat × Bool) :=
  (lanesOf act).filterMap (fun l =>
    if (s.w.sr a).bad || (s.w.vl b l).bad then none
    else match checkPage s s.w.ctx s.w.die (s.w.laneAddr a b l) .read with
      | .ok (lf, p) => if p.resident && !p.fabric && !(lf.frm && s.w.tlevel == 0) then some (lineOf p.key, p.l1) else none
      | .error _ => none)

/-- Lines of an L1, and of an instruction cache: 256 KiB and 128 KiB of 128 bytes (R2). -/
def l1Lines : Nat := 2048
def icLines : Nat := 1024

/-- A core's L1 fills a line that it does not hold, where it has room (R2, R197, R199). -/
def fillL1 (core line : Nat) (s : State) : State :=
  let c := s.core core
  if (look {} c.l1 line).live || l1Lines ≤ c.l1.length then s
  else s.setCore core { c with l1 := put {} c.l1 line (homeLine s line) }

/-- PFL1 (R199). -/
def execPfl1 (a b : BitVec 6) (g : Bool) (s : State) : Host.Outcome State Fault Refusal :=
  (cctlGate 0 a b g).run
    (fun s act => .fall ((hintLines s a.toNat b.toNat act).foldl (fun s x => fillL1 s.w.core x.1 s) s)) s

/-- PFLLC: the LLC holds no state that an access can observe (R199). -/
def execPfllc (a b : BitVec 6) (g : Bool) (s : State) : Host.Outcome State Fault Refusal :=
  (cctlGate 1 a b g).run (fun s _ => .fall s) s

/-- The checks of CWB in lane l: as a load of the line (R199, R240). -/
def lineChecks (s : State) (a b l : Nat) : Except Fail Pass :=
  let va := s.w.laneAddr a b l
  match checkPage s s.w.ctx s.w.die va .read with
  | .error f => .error f
  | .ok (lf, p) =>
    let lo := va.toNat / 128 * 128
    if lf.frm && s.w.tlevel == 0 then .error ⟨9, 0x0D, va⟩
    else if lockHits (heldLocks s s.w.core) false s.w.wg lo (lo + 127) .read then .error ⟨10, 0x08, va⟩
    else .ok p

/-- The lanes of a mask whose accesses stay on the device (R182). -/
def localLanes (act : Mask) (pass : Nat → Pass) : Mask := maskOf (fun l => act.getLsbD l && !isRemote (pass l).key)

/-- CWB (R199): it has no effect on fabric pages, once the lanes' checks have passed. -/
def execCwb (a b : BitVec 6) (g : Bool) (s : State) : Host.Outcome State Fault Refusal :=
  ({ cctlGate 2 a b g with uses := [useS a, useV1 b], full := s.w.counterFull .st, tx := false } : Gate).run
    (fun s act =>
      withPasses 0 false (s.w.laneAddr a.toNat b.toNat) (lineChecks s a.toNat b.toNat) s act
        (fun s act pass => perLane
          { cls := .st, acc := fun l p => { slot := l, kind := .writeBack, key := lineOf p.key * 128, size := 128 } }
          s (localLanes act pass) pass)) s

/-- CINV (R199). -/
def execCinv (a b : BitVec 6) (g : Bool) (s : State) : Host.Outcome State Fault Refusal :=
  (cctlGate 3 a b g).run
    (fun s act => .fall ((hintLines s a.toNat b.toNat act).foldl (fun s x =>
      let c := s.core s.w.core
      s.setCore s.w.core { c with l1 := del c.l1 x.1 }) s)) s

/-- A core lies in the scope that ICINV names: cluster, die or device (R199, R218). -/
def inScope (s : State) (n core : Nat) : Bool :=
  match n with
  | 3 => clusterOf s core == clusterOf s s.w.core
  | 4 => dieOf s core == dieOf s s.w.core
  | _ => true

/-- ICINV (R199). -/
def execIcinv (n : BitVec 6) (g : Bool) (s : State) : Host.Outcome State Fault Refusal :=
  ({ word := wordA 0x4D 0 0 n 4 g false, guard := g, cls := .memory, tx := false } : Gate).run
    (fun s act =>
      if act = 0 then .fall s
      else .fall { s with cores := s.cores.map (fun e => if inScope s n.toNat e.1 then (e.1, { e.2 with ic := [] }) else e) }) s

end Sys2Proof.Machine
end

