-- ==== Sys2Proof/Machine/Barrier.lean ====
section
/-! DEFINITION. Ordering and synchronisation: FENCE (R227), barrier objects (R228-R234) and the hardware barriers of a
workgroup and of a cluster launch (R235, R236). -/

namespace Sys2Proof.Machine

/-! ### FENCE (R227) -/

/-- A release stalls until every access that its warp has issued is performed (R225). -/
def afterAll (s : State) (k : State → Res) : Res :=
  if s.w.allPerformed && !s.tileBusy then k s else .wait 3 s

/-- FENCE (R227). -/
def execFence (sc : BitVec 4) (g : Bool) (s : State) : Host.Outcome State Fault Refusal :=
  ({ word := wordA 0x50 0 0 0 sc g false, guard := g, cls := .barrier, tx := false } : Gate).run
    (fun s act =>
      if act = 0 then .fall s
      else if s.w.allPerformed && !s.tileBusy then .fall (acquireL1 s.w.core (sc != 0) (4 ≤ sc.toNat) s)
      else .block 14 s) s

/-! ### Barrier objects (R229, R230) -/

/-- The fields of a barrier object (R229). -/
structure BarObj where
  expect : Nat := 0
  pend : Nat := 0
  txcnt : Nat := 0
  drop : Nat := 0
  flags : BitVec 8 := 0
deriving DecidableEq, Repr

def BarObj.phase (b : BarObj) : Bool := b.flags.getLsbD 0
def BarObj.valid (b : BarObj) : Bool := b.flags.getLsbD 3
def BarObj.retired (b : BarObj) : Bool := b.flags.getLsbD 4
/-- POISON of a parity. -/
def BarObj.poison (b : BarObj) (p : Bool) : Bool := b.flags.getLsbD (if p then 2 else 1)

/-- The object at a memory key. -/
def readBar (s : State) (k : Nat) : BarObj :=
  { expect := rdMem s.mem k 2, pend := rdMem s.mem (k + 2) 2, txcnt := rdMem s.mem (k + 4) 4
    drop := rdMem s.mem (k + 8) 2, flags := s.byte (k + 10) }

/-- Write the object's fields; the words keep their poison. -/
def writeBar (k : Nat) (b : BarObj) (s : State) : State :=
  let lo := b.expect % 65536 + b.pend % 65536 * 2 ^ 16 + b.txcnt % 2 ^ 32 * 2 ^ 32
  storeMem (k + 10) 1 (b.flags.zeroExtend 64) false
    (storeMem (k + 8) 2 (w64 (b.drop % 65536)) false (storeMem k 8 (w64 lo) (isBad s k) s))

/-- Set or clear one bit of FLAGS. -/
def BarObj.setFlag (b : BarObj) (i : Nat) (v : Bool) : BarObj :=
  { b with flags := if v then b.flags ||| (1#8 <<< i) else b.flags &&& ~~~(1#8 <<< i) }

/-- Completion of a phase (R230). -/
def BarObj.complete (b : BarObj) : BarObj :=
  let ph := !b.phase
  let b1 := (b.setFlag 0 ph).setFlag (if ph then 2 else 1) false
  let e := (b1.expect + 65536 - b1.drop % 65536) % 65536
  let b2 : BarObj := { b1 with expect := e, drop := 0, pend := e }
  if e = 0 then b2.setFlag 4 true else b2

/-- The completion check that follows every step (R230). -/
def BarObj.check (b : BarObj) : BarObj := if b.pend = 0 ∧ b.txcnt = 0 then b.complete else b

/-- An arrival (R233): none where it traps with HANDLE. -/
def BarObj.arrive (b : BarObj) (bytes : Nat) (dropping : Bool) : Option BarObj :=
  if !b.valid || b.retired || b.pend = 0 then none
  else some ({ b with txcnt := (b.txcnt + bytes) % 2 ^ 32, drop := b.drop + (if dropping then 1 else 0), pend := b.pend - 1 } : BarObj).check

/-- What BINIT leaves (R229). -/
def barInit (n : Nat) : BarObj := { expect := n, pend := n, flags := 0x08#8 }

/-- The checks of R228 from the second on: the object's memory key, or the cause. -/
def barCheck (s : State) (w : Warp) (word : W64) (own : Bool) : Except Nat Nat :=
  if bits word 15 11 ≠ 0 ∨ bits word 63 36 ≠ 0 then .error 0x07
  else match handleOf s w (w64 (bits word 10 0)) with
    | none => .error 0x07
    | some (_, h) =>
      let off := bits word 35 16
      if off % 16 ≠ 0 then .error 0x03
      else if h.bytes < off + 16 then .error 0x06
      else if own && bits word 10 8 ≠ (s.wg w.wg).rank then .error 0x07
      else .ok (scratchKey h.seg off)

/-- The warp has an access of its own to an object's bytes still to perform (R208). -/
def ownPending (w : Warp) (k : Nat) : Bool :=
  w.ops.any (fun o => o.todo.any (fun a => a.key < k + 16 && k < a.key + a.size))

/-- The warp has an acquire still to perform, or a release where `rel` asks for it: no access that follows an acquire is
performed before it, and no acquire before an earlier release write (R225). -/
def orderPending (w : Warp) (rel : Bool) : Bool := w.ops.any (fun o => !o.todo.isEmpty && (o.acq || (rel && o.rel)))

/-- A barrier-object instruction: its checks, and one step at the object (R228, R231); `acq` marks an acquire (R234). -/
def barOp (op : BitVec 7) (fn : BitVec 4) (d : BitVec 3) (a b : BitVec 6) (g : Bool) (own two acq : Bool)
    (k : State → Mask → W64 → Nat → Res) (s : State) : Host.Outcome State Fault Refusal :=
  ({ word := wordA op (in6 d) a b fn g false, guard := g, cls := .barrier
     scals := a.toNat :: (if two then [b.toNat] else []), uses := useS a :: (if two then [useS b] else [])
     tx := false, sync := true } : Gate).run
    (fun s act =>
      if act = 0 then .fall s
      else
        let word := (s.w.sr a.toNat).bits
        match barCheck s s.w word own with
        | .error c => trapAct c word act s
        | .ok key => if ownPending s.w key || orderPending s.w acq then .wait 3 s else k s act word key) s

/-- BINIT (R232). -/
def execBinit (a b : BitVec 6) (g : Bool) (s : State) : Host.Outcome State Fault Refusal :=
  barOp 0x51 0 0 a b g true true false
    (fun s act _ key =>
      let n := (s.w.sr b.toNat).bits
      if n = 0 ∨ 65535 < n.toNat then trapAct 0x01 n act s
      else .fall (storeMem (key + 8) 8 (w64 0x080000) false
        (storeMem key 8 (w64 (n.toNat + n.toNat * 65536)) false s))) s

/-- BARV, BARVX and BARVD (R233). -/
def arriveOp (fn : BitVec 4) (a b : BitVec 6) (g : Bool) (s : State) : Host.Outcome State Fault Refusal :=
  barOp 0x52 fn 0 a b g false (fn == 1) false
    (fun s act word key =>
      let n := if fn = 1 then (s.w.sr b.toNat).bits else 0
      if 0x7FFFFFFF < n.toNat then trapAct 0x01 n act s
      else afterAll s (fun s =>
        match (readBar s key).arrive n.toNat (fn == 2) with
        | none => trapAct 0x07 word act s
        | some x => .fall (writeBar key x s))) s

/-- BARV (R233). -/
def execBarv (a : BitVec 6) (g : Bool) (s : State) : Host.Outcome State Fault Refusal := arriveOp 0 a 0 g s
/-- BARVX (R233). -/
def execBarvx (a b : BitVec 6) (g : Bool) (s : State) : Host.Outcome State Fault Refusal := arriveOp 1 a b g s
/-- BARVD (R233). -/
def execBarvd (a : BitVec 6) (g : Bool) (s : State) : Host.Outcome State Fault Refusal := arriveOp 2 a 0 g s

/-- What BWAIT and BTEST observe of a phase (R234). -/
inductive BarSeen where
  | bad
  | waiting
  | done (poisoned : Bool)
deriving DecidableEq, Repr

/-- The step of R234. -/
def BarObj.observe (b : BarObj) (p : Bool) : BarSeen :=
  if !b.valid || (b.retired && b.phase == p) then .bad
  else if b.phase == p then .waiting
  else .done (b.poison p)

/-- BWAIT (R234). -/
def execBwait (a b : BitVec 6) (g : Bool) (s : State) : Host.Outcome State Fault Refusal :=
  barOp 0x53 0 0 a b g true true true
    (fun s act word key =>
      match (readBar s key).observe ((s.w.sr b.toNat).bits.getLsbD 0) with
      | .bad => trapAct 0x07 word act s
      | .waiting => .block 6 { s with w := { s.w with bwait := some key } }
      | .done true => trapAct 0x0E word act (syncL1 s.w.core s)
      | .done false => .fall (syncL1 s.w.core s)) s

/-- BTEST (R234). -/
def execBtest (d : BitVec 3) (a b : BitVec 6) (g : Bool) (s : State) : Host.Outcome State Fault Refusal :=
  barOp 0x53 1 d a b g true true true
    (fun s act word key =>
      match (readBar s key).observe ((s.w.sr b.toNat).bits.getLsbD 0) with
      | .bad => trapAct 0x07 word act s
      | .waiting => .fall { s with w := s.w.setP d.toNat act 0 }
      | .done true => trapAct 0x0E word act (syncL1 s.w.core s)
      | .done false => .fall (syncL1 s.w.core { s with w := s.w.setP d.toNat act fullMask })) s

/-! ### Hardware barriers (R235, R236) -/

/-- A token names an incomplete phase (R235). -/
def Token.open_ (t : Token) (b : HwBar) : Bool := t.arrived && t.phase == b.phase

/-- The barrier and the token of the warp on turn: the workgroup's, or the cluster launch's. -/
def hwBar (cluster : Bool) (s : State) : HwBar :=
  if cluster then (s.launch (s.wg s.w.wg).launch).bar else (s.wg s.w.wg).bar
def Warp.token (cluster : Bool) (w : Warp) : Token := if cluster then w.clTok else w.wgTok

/-- The warps whose live lanes EXPECT counts (R235). -/
def expected (cluster : Bool) (wg : Nat) (s : State) : List Warp :=
  if cluster then (s.launch (s.wg wg).launch).wgs.flatMap s.liveWarps else s.liveWarps wg

/-- The phase completes once every warp with live lanes has arrived in it: arrivals of warps that have retired since
count on both sides (R235, R236). -/
def barTry (cluster : Bool) (wg : Nat) (s : State) : State :=
  let id := (s.wg wg).launch
  let b := if cluster then (s.launch id).bar else (s.wg wg).bar
  if 0 < b.count && (expected cluster wg s).all (fun w => (w.token cluster).open_ b) then
    let b' : HwBar := { count := 0, phase := b.phase + 1 }
    if cluster then s.setLaunch id { s.launch id with bar := b' } else s.setWg wg { s.wg wg with bar := b' }
  else s

/-- The arrival of the warp on turn (R236). -/
def barArrive (cluster : Bool) (s : State) : State :=
  let b := hwBar cluster s
  let t : Token := { arrived := true, phase := b.phase }
  let b' : HwBar := { b with count := b.count + 1 }
  let id := (s.wg s.w.wg).launch
  let s1 := if cluster then s.setLaunch id { s.launch id with bar := b' } else s.setWg s.w.wg { s.wg s.w.wg with bar := b' }
  barTry cluster s.w.wg { s1 with w := if cluster then { s1.w with clTok := t } else { s1.w with wgTok := t } }

/-- The wait of R236. -/
def barWait (cluster : Bool) (s : State) : Res :=
  if (s.w.token cluster).open_ (hwBar cluster s) then .block 7 s else .fall (syncL1 s.w.core s)

/-- WGBAR, WGBARA, WGBARW, CBAR, CBARA and CBARW: arrive, wait, or both (R235, R236). A grant marks that the arrival
of an arrive-then-wait has been made. -/
def hwBarOp (op : BitVec 7) (fn : BitVec 4) (g cluster arrive wait : Bool) (s : State) : Host.Outcome State Fault Refusal :=
  ({ word := wordA op 0 0 0 fn g false, guard := g, cls := .barrier, tx := false } : Gate).run
    (fun s act =>
      if act = 0 then .fall s
      else if !arrive || (wait && s.w.block == some 7 && s.w.grant == some .done) then barWait cluster s
      else if (s.w.token cluster).open_ (hwBar cluster s) then .block 7 s
      else afterAll s (fun s =>
        let s1 := barArrive cluster s
        if wait then barWait cluster { s1 with w := { s1.w with grant := some .done } } else .fall s1)) s

/-- WGBAR (R236). -/
def execWgbar (g : Bool) (s : State) : Host.Outcome State Fault Refusal := hwBarOp 0x55 0 g false true true s
/-- WGBARA (R236). -/
def execWgbara (g : Bool) (s : State) : Host.Outcome State Fault Refusal := hwBarOp 0x55 1 g false true false s
/-- WGBARW (R236). -/
def execWgbarw (g : Bool) (s : State) : Host.Outcome State Fault Refusal := hwBarOp 0x55 2 g false false true s
/-- CBARA (R236). -/
def execCbara (g : Bool) (s : State) : Host.Outcome State Fault Refusal := hwBarOp 0x54 0 g true true false s
/-- CBARW (R236). -/
def execCbarw (g : Bool) (s : State) : Host.Outcome State Fault Refusal := hwBarOp 0x54 1 g true false true s
/-- CBAR (R236). -/
def execCbar (g : Bool) (s : State) : Host.Outcome State Fault Refusal := hwBarOp 0x54 2 g true true true s

end Sys2Proof.Machine
end

