-- ==== Sys2Proof/Machine/Control.lean ====
section
/-! DEFINITION. Control flow: branches, calls, frames, returns and hardware loops, opcodes 0x0A to 0x14 (R161 to
R172), and the routing of aborted lanes (R250). -/

namespace Sys2Proof.Machine

/-- A word offset as a 64-bit byte offset (R73). -/
def offset {n : Nat} (x : BitVec n) : W64 := x.signExtend 64 <<< 2

/-- The path on turn moves to an address. -/
def goTo (s : State) (pc : W64) : Res := .jump { s with w := { s.w with p := { s.w.p with pc := pc } } }

/-! ### Uniform branches (R161, R162) -/

/-- BR (R161). -/
def execBr (off : BitVec 22) (s : State) : Host.Outcome State Fault Refusal :=
  ({ word := wordJ 0x0A 0 off, cls := .control } : Gate).run (fun s _ => goTo s (s.w.p.pc + offset off)) s

/-- BRS (R162): the branch condition is (s[a] ≠ 0) XOR N. -/
def execBrs (a : BitVec 6) (n : Bool) (off : BitVec 18) (s : State) : Host.Outcome State Fault Refusal :=
  ({ word := zx (0x0B#7 ++ a ++ BitVec.ofBool n ++ off), cls := .control, scals := [a.toNat], uses := [useS a] } : Gate).run
    (fun s _ => if ((s.w.sr a.toNat).bits != 0) != n then goTo s (s.w.p.pc + offset off) else .fall s) s

/-! ### Divergent branches (R34, R163, R164) -/

/-- The split of the path on turn: the taken part at `tgt` keeps the slot, and the part `q`, already at its own PC, goes
to the other slot, or is stacked where that is held (R34, R163). The issue was also its own (R40). -/
def Warp.splitTo (w : Warp) (p q : Path) : Warp :=
  if w.q.held then { w with p := p }.pushRec (.split { q.out with ran := true })
  else { w with p := p, q := { q.out with ran := true } }

/-- BRC and BRCL (R163): the word, its length, P, N, and the two addresses. The check of a split counts 128 bytes for the part
that is or might be stacked, also beside an EMPTY slot while the path holds group lanes (R252). -/
def branchSplit (word : W64) (len : Nat) (pd : BitVec 3) (n : Bool) (tgt : BitVec 13) (join : W64 → W64) (s : State) :
    Host.Outcome State Fault Refusal :=
  ({ word := word, len := len, cls := .control } : Gate).run
    (fun s act =>
      let w := s.w
      let c := w.pred pd.toNat
      let taken := (if n then ~~~c else c) &&& act
      let rest := w.p.mask &&& ~~~taken
      let dst := w.p.pc + offset tgt
      if taken = 0 then .fall s
      else if rest = 0 then goTo s dst
      else
        let cur : Path := { w.p with age := 0 }
        let j := join w.p.pc
        let q0 := { cur with mask := rest }.fall len
        let p0 : Path := { cur with mask := taken, pc := dst }
        let w' := if j != cur.r0 then w.splitTo (p0.pushR j) (q0.pushR j) else w.splitTo p0 q0
        if w.q.held || (w.group.isSome && w.holdsGroup w.p) then
          let r := w'.resv + (if w.q.held then 0 else 128)
          if w'.resvOk r then .jump { s with w := w'.recordHwm r } else trapAct 0x0B (w64 r) act s
        else .jump { s with w := w' }) s

/-- BRC (R163). -/
def execBrc (p : BitVec 3) (n : Bool) (tgt : BitVec 13) (rcd : BitVec 8) (s : State) : Host.Outcome State Fault Refusal :=
  branchSplit (wordB 0x0C p n tgt rcd) 4 p n tgt (fun pc => pc + (rcd.zeroExtend 64 <<< 2)) s

/-- BRCL (R163). -/
def execBrcl (p : BitVec 3) (n : Bool) (tgt : BitVec 13) (lit : BitVec 32) (s : State) : Host.Outcome State Fault Refusal :=
  branchSplit (wordB 0x0D p n tgt 0) 8 p n tgt (fun pc => pc + offset lit) s

/-! ### Calls (R45, R165 to R167) -/

/-- The CALL record of the path on turn (R52, R165). -/
def callRecord (w : Warp) : CallRec :=
  { retpc := w.p.pc + 4, prev := w.p.frp, wbase := w.p.wbase, fdepth := w.p.fdepth, fsize := w.p.fsize, mode := w.p.mode
    pmask := w.p.mask, r0 := w.p.r0, r1 := w.p.r1, r2 := w.p.r2, r3 := w.p.r3, lc0 := w.p.lc0, lc1 := w.p.lc1
    lc2 := w.p.lc2, scal := (List.range 16).map (fun i => w.sr (48 + i)) }

/-- The warp after a call (R165): the record pushed, the window slid, and the callee pending. -/
def Warp.called (w : Warp) (k prov : Nat) (target : W64) : Warp :=
  let w1 := w.pushRec (.call (callRecord w))
  { w1 with p := { w.p with
      pc := target, frp := w32 w.fsrp, wbase := w.p.wbase + 8 * k, fdepth := w.p.fdepth + 1, fsize := prov
      r0 := noEntry, r1 := noEntry, r2 := noEntry, r3 := noEntry, lc0 := {}, lc1 := {}, lc2 := {}, enter := true } }

/-- The effect of CALL and CALLR once the target is known (R165). -/
def callTo (k : Nat) (target : W64) (s : State) (act : Mask) : Res :=
  if s.w.p.fdepth = 65535 then trapAct 0x0B (BitVec.allOnes 64) act s
  else
    let w' := s.w.called k (provisional s target) target
    let r := w'.resv
    if w'.resvOk r then withSpan s act (w'.recordHwm r) .jump else trapAct 0x0B (w64 r) act s

/-- s48 to s63, which a call saves and the last return restores (R148). -/
def savedScals : List Nat := (List.range 16).map (· + 48)

/-- CALL (R165). -/
def execCall (k : BitVec 3) (off : BitVec 22) (s : State) : Host.Outcome State Fault Refusal :=
  ({ word := wordJ 0x0E k off, cls := .control, ok := k.toNat ≤ s.w.p.fsize, scals := savedScals } : Gate).run
    (fun s act => callTo k.toNat (s.w.p.pc + offset off) s act) s

/-- CALLR (R165). -/
def execCallr (a : BitVec 6) (k : BitVec 3) (s : State) : Host.Outcome State Fault Refusal :=
  ({ word := wordA 0x0F 0 a 0 (k.zeroExtend 4) false false, cls := .control, ok := k.toNat ≤ s.w.p.fsize
     scals := a.toNat :: savedScals, uses := [useS a] } : Gate).run
    (fun s act =>
      let target := (s.w.sr a.toNat).bits
      if bits target 1 0 ≠ 0 then trapAct 0x03 target act s else callTo k.toNat target s act) s

/-! ### Frames and returns (R46, R168, R169) -/

/-- The record at an offset. -/
def Warp.recAt (w : Warp) (off : Nat) : Option Rec := w.recs.find? (fun r => r.off == off)

/-- The CALL record of a path, as the FSE supplies it (R49, R169). -/
def callOf (s : State) (p : Path) : Except (W64 × Bool) CallRec :=
  match s.w.recAt p.frp.toNat with
  | none => .error (s.w.fsbase + zx p.frp, false)
  | some r =>
    match recBody s s.w r with
    | .error e => .error e
    | .ok (.call c) => .ok c
    | .ok (.split _) => .error (s.w.fsbase + zx p.frp, false)

/-- A record that the FSE cannot supply: FRAME_FAULT, or a park at a retry fault (R49). -/
def recFault (e : W64 × Bool) (s : State) (act : Mask) : Res :=
  if e.2 then .block 13 (addFault s.w.die s.w.ctx e.1 5 { s with w := { s.w with retry := [e.1] } })
  else trapAct 0x0C e.1 act s

/-- The registers from which ENTER zeroes: the top of the caller's window, from the record at FRP (R168). -/
def callerTop (s : State) (f : Nat) : Except (W64 × Bool) Nat :=
  if s.w.p.fdepth = 0 then .ok (s.w.p.wbase + 8 * f)
  else match callOf s s.w.p with
    | .error e => .error e
    | .ok c => .ok (c.wbase + 8 * c.fsize)

/-- The absolute registers that ENTER f zeroes: the first, and how many (R168). -/
def zeroedBy (s : State) (f : Nat) : List (Nat × Nat) :=
  match callerTop s f with
  | .error _ => []
  | .ok t =>
    let lo := max s.w.p.wbase t
    let hi := s.w.p.wbase + 8 * f
    if lo < hi then [(lo, hi - lo)] else []

/-- ENTER (R168). -/
def execEnter (f : BitVec 4) (s : State) : Host.Outcome State Fault Refusal :=
  ({ word := wordL 0x11 0 0 (f.zeroExtend 16), cls := .control, isEnter := true, outer := zeroedBy s f.toNat } : Gate).run
    (fun s act =>
      match callerTop s f.toNat with
      | .error e => recFault e s act
      | .ok top =>
        let w := s.w
        let lo := max w.p.wbase top
        let hi := w.p.wbase + 8 * f.toNat
        let w' : Warp := { w with p := { w.p with fsize := f.toNat, enter := false } }
        let r := w'.resv
        if w'.resvOk r then
          withSpan s act (w'.recordHwm r) (fun s => .fall { s with w := { s.w with v := zeroRegs s.w.v lo hi s.w.p.mask } })
        else trapAct 0x0B (w64 r) act s) s

/-- s48 to s63 take the values a record holds (R46). -/
def Warp.restoreScal (w : Warp) (c : CallRec) : Warp :=
  (c.scal.foldl (fun (a : Nat × Warp) x => (a.1 + 1, a.2.setS a.1 x.bits x.bad)) (48, w)).2

/-- The path that returns through a record, and whether it is to wait at RETPC (R169). -/
def returned (p : Path) (c : CallRec) (push : Bool) : Path :=
  let p' : Path := { p with
    pc := c.retpc, frp := c.prev, wbase := c.wbase, fdepth := c.fdepth, fsize := c.fsize, mode := c.mode
    r0 := c.r0, r1 := c.r1, r2 := c.r2, r3 := c.r3, lc0 := c.lc0, lc1 := c.lc1, lc2 := c.lc2 }
  if push then p'.pushR c.retpc else p'

/-- The lanes of a mask leave a CALL record: it keeps what is left of PMASK, or it is freed and s48 to s63 are restored
(R46, R169). -/
def Warp.leaveRec (w : Warp) (off : Nat) (c : CallRec) (m : Mask) : Warp :=
  let pm := c.pmask &&& ~~~m
  if pm = 0 then (w.restoreScal c).freeRec off else w.setRec off (.call { c with pmask := pm, splitRet := true })

/-- A return of path `p` through its record: the warp and the path after it (R169). -/
def Warp.retThrough (w : Warp) (p : Path) (c : CallRec) (wait : Bool) : Warp × Path :=
  let split := c.splitRet || (c.pmask &&& ~~~p.mask) ≠ 0
  (w.leaveRec p.frp.toNat c p.mask, returned p c (split && wait))

/-- The group closes when no lane is a group lane: its TXL set and its Tabard are released (R242, R244, R259). -/
def closeGroup (s : State) : State :=
  if s.w.group.isSome && s.w.tx.all (fun e => e.2.st == .none) then
    releaseTabard s.w.wid { s with w := { s.w with group := none, txset := false } }
  else s

/-- Lanes return to NONE as they are routed, with their TXSTAT bits set (R250). -/
def Warp.unTx (w : Warp) (m : Mask) : Warp :=
  { w with tx := w.tx.map (fun e => if m.getLsbD e.1 then (e.1, { e.2 with st := .none, stat := true }) else e) }

/-- RET of the whole path (R169); a return address that is not a multiple of 4, which only a handler can have stored,
traps with ALIGN as every transfer does (R67). -/
def retAll (s : State) (act : Mask) : Res :=
  match callOf s s.w.p with
  | .error e => recFault e s act
  | .ok c =>
    if bits c.retpc 1 0 ≠ 0 then trapAct 0x03 c.retpc act s else
    let r := s.w.retThrough s.w.p c true
    withSpan s act { r.1 with p := r.2 } .jump

/-- The abort target of the open group. -/
def Warp.abortTarget (w : Warp) : W64 := (w.group.getD {}).target

/-- RET at the group depth with lanes to route (R247, R250): the routed lanes keep the slot at the abort target, and the
others return as a path of their own. -/
def retRouted (s : State) (act routed : Mask) : Res :=
  let w := s.w
  let tgt := w.abortTarget
  if w.p.mask &&& ~~~routed = 0 then
    .jump (closeGroup { s with w := { w.unTx routed with p := { w.p with pc := tgt } } })
  else
    match callOf s w.p with
    | .error e => recFault e s act
    | .ok c =>
      if bits c.retpc 1 0 ≠ 0 then trapAct 0x03 c.retpc act s else
      let r := w.retThrough { w.p with mask := w.p.mask &&& ~~~routed } c true
      let w' := (r.1.unTx routed).splitTo { w.p with mask := routed, pc := tgt, age := 0 } { r.2 with age := 0 }
      withSpan s act w' (fun s => .jump (closeGroup s))

/-- The scalars that a RET of the path on turn restores: s48 to s63 where it frees its record (R46, R205). -/
def retScals (s : State) : List Nat :=
  match callOf s s.w.p with
  | .error _ => []
  | .ok c => if c.pmask &&& ~~~s.w.p.mask = 0 then savedScals else []

/-- RET (R169, R337). -/
def execRet (s : State) : Host.Outcome State Fault Refusal :=
  let atEntry := s.w.tlevel ≠ 0 ∧ s.w.p.fdepth = (s.w.bank s.w.tlevel).depth
  ({ word := wordN 0x10 false, cls := .control, ok := !(s.w.p.fdepth == 0) && !(decide atEntry), scals := retScals s } : Gate).run
    (fun s act =>
      let w := s.w
      if w.tlevel = 0 ∧ w.group.isSome ∧ w.p.fdepth = (w.group.getD {}).depth then
        let w1 := w.abort w.p.mask 10 0
        let routed := w1.p.mask &&& w1.txMask .aborted
        if routed = 0 then retAll s act else retRouted { s with w := w1 } act routed
      else retAll s act) s

/-- Return without waiting until the path stands at the group depth (R250). -/
def unwindTo (depth : Nat) : Nat → State → Except (W64 × Bool) State
  | 0, s => .ok s
  | n + 1, s =>
    if s.w.p.fdepth ≤ depth then .ok s
    else match callOf s s.w.p with
      | .error e => .error e
      | .ok c =>
        let r := s.w.retThrough s.w.p c false
        unwindTo depth n { s with w := { r.1 with p := { r.2 with enter := false } } }

/-- A path all of whose lanes are ABORTED is routed in place of its next issue (R250). Where it returns through records,
no outstanding load may still write s48 to s63 (R205). -/
def routePath (s : State) : Res :=
  let m := s.w.p.mask
  if (s.w.group.getD {}).depth < s.w.p.fdepth && savedScals.any (fun n => s.w.awaitedS.contains n) then .wait 1 s else
  match unwindTo (s.w.group.getD {}).depth (s.w.p.fdepth + 1) s with
  | .error e => recFault e s m
  | .ok s1 =>
    let w' : Warp := { s1.w.unTx m with p := { s1.w.p with pc := s.w.abortTarget } }
    withSpan s m w' (fun s => .jump (closeGroup s))

/-! ### Hardware loops (R56, R57, R170, R172) -/

/-- LOOP and LOOPR, once the count is known (R170). -/
def loopOp (word : W64) (last : BitVec 8) (count : W64) (s : State) (act : Mask) : Res :=
  let p := s.w.p
  let n := p.levels
  let len := last.toNat + 1
  if n = 3 then trapAct 0x16 word act s
  else if n ≠ 0 ∧ p.pc = (p.lc (n - 1)).endAddr then trapAct 0x16 word act s
  else if count = 0 then goTo s (p.pc + w64 (4 + 4 * len))
  else
    let l : Loop := { active := true, start := p.pc + 4, count := lo32 count, len := len }
    .jump { s with w := { s.w with p := { p.setLc n l with pc := p.pc + 4 } } }

/-- LOOP (R170). -/
def execLoop (last : BitVec 8) (count : BitVec 16) (s : State) : Host.Outcome State Fault Refusal :=
  let word := wordH 0x12 last count
  ({ word := word, cls := .control } : Gate).run (loopOp word last (count.zeroExtend 64)) s

/-- LOOPR: a count above 2^32 − 1 traps (R170). -/
def execLoopr (last : BitVec 8) (sc : BitVec 6) (s : State) : Host.Outcome State Fault Refusal :=
  let word := wordH 0x13 last (sc.zeroExtend 16)
  ({ word := word, cls := .control, scals := [sc.toNat], uses := [useS sc] } : Gate).run
    (fun s act =>
      let c := (s.w.sr sc.toNat).bits
      if 0xFFFFFFFF < c.toNat then trapAct 0x16 c act s else loopOp word last c s act) s

/-- LBRK (R172). A target that is not a multiple of 4, which only a handler's change to a record can give, traps with ALIGN as
every transfer does (R53, R67). The level that it makes inactive is cleared to zeros, as CALL clears the callee's, while the end of a
body leaves its START and LEN (DESIGN CHOICE, log 181). -/
def execLbrk (s : State) : Host.Outcome State Fault Refusal :=
  let word := wordN 0x14 false
  ({ word := word, cls := .control } : Gate).run
    (fun s act =>
      let p := s.w.p
      match p.levels with
      | 0 => trapAct 0x16 word act s
      | n + 1 =>
        let l := p.lc n
        let target := l.start + w64 (4 * l.len)
        if bits target 1 0 ≠ 0 then trapAct 0x03 target act s
        else .jump { s with w := { s.w with p := { p.setLc n {} with pc := target } } }) s

end Sys2Proof.Machine
end

