-- ==== Sys2Proof/Machine/Copy.lean ====
section
/-! DEFINITION. The tensor copy engine: descriptors (R275-R279), the copy instructions (R280-R285), the rows of a copy,
its barrier steps, endings, records and range locks (R239, R286-R291). -/

namespace Sys2Proof.Machine

/-! ### Types in memory (R267, R268, R278) -/

/-- The packing unit U of a type (R267). -/
def packUnit (t : Nat) : Nat :=
  if t = 0 ∨ t = 1 ∨ t = 19 then 2 else if t = 17 ∨ t = 18 then 4 else if 20 ≤ t ∧ t ≤ 25 then 32 else 1

/-- Bytes of one packing unit. -/
def unitBytes (t : Nat) : Nat := packUnit t * typeBits t / 8

/-- The block-scaled types: MX and SF4. -/
def isBlock (t : Nat) : Bool := 20 ≤ t && t ≤ 25

/-- The copy dequantises (R278). -/
def TDesc.dequant (d : TDesc) : Bool := isBlock d.mtype && d.htype == 11

/-! ### The descriptor (R275, R276) -/

/-- A descriptor's fields. -/
def descOf (bs : List Byte) : TDesc :=
  { base := w64 (field bs 0 8), rank := field bs 8 1 % 8, mtype := field bs 9 1 % 32, htype := field bs 10 1 % 32
    circ := BitVec.ofNat 5 (field bs 11 1), bmode := field bs 12 1 % 4, stat := field bs 12 1 / 4 % 2 == 1
    ext := (List.range 5).map (fun i => field bs (0x10 + 4 * i) 4)
    stride := 0 :: (List.range 4).map (fun i => field bs (0x24 + 4 * i) 4)
    box := (List.range 5).map (fun i => field bs (0x34 + i) 1 + 1)
    bar := w64 (field bs 0x3C 2 + field bs 0x3E 2 * 2 ^ 20) }

def TDesc.extent (d : TDesc) (i : Nat) : Nat := d.ext.getD i 1
def TDesc.pitch (d : TDesc) (i : Nat) : Nat := d.stride.getD i 0
def TDesc.size (d : TDesc) (i : Nat) : Nat := if i = 4 ∧ d.dequant then 1 else d.box.getD i 1

/-- Row bytes RB and the number of rows NR (R279). -/
def TDesc.rowBytes (d : TDesc) : Nat := roundUp (d.size 0 * typeBits d.htype / 8) 32
def TDesc.rows (d : TDesc) : Nat := d.size 1 * d.size 2 * d.size 3 * d.size 4

/-- The pair of types, with the form, is one of R278. -/
def pairOk (f : CopyForm) (d : TDesc) : Bool :=
  match f with
  | .cpred => d.mtype == d.htype && (d.mtype == 6 || d.mtype == 7 || d.mtype == 10 || d.mtype == 11 || d.mtype == 12)
  | .cpst => d.mtype == d.htype
  | _ => d.mtype == d.htype || d.dequant

/-- The descriptor is legal for a form (R276, R278, R282, R285). -/
def descOk (f : CopyForm) (bs : List Byte) : Bool :=
  let d := descOf bs
  let top (off k : Nat) : Bool := field bs off 1 / 2 ^ k == 0
  let plain (i : Nat) : Bool :=
    d.extent i == 1 && (d.pitch i == 0 || (i == 4 && d.dequant)) && d.box.getD i 1 == 1 && !d.circ.getLsbD i
  top 8 3 && top 9 5 && top 10 5 && top 11 5 && top 12 3 && field bs 13 3 == 0 && field bs 0x39 3 == 0 &&
    1 ≤ d.rank && d.rank ≤ 5 && (List.range 5).all (fun i => if i < d.rank then d.extent i != 0 else plain i) &&
    bits d.base 3 0 == 0 && pairOk f d && (!d.dequant || d.rank ≤ 4) &&
    d.extent 0 % packUnit d.mtype == 0 && d.size 0 % packUnit d.mtype == 0 &&
    (d.bmode != 0 || field bs 0x3C 4 == 0) && d.rowBytes * d.rows ≤ 524288 &&
    (match f with
      | .cpg => d.size 2 == 1 && d.size 3 == 1 && d.size 4 == 1
      | .cpw => d.rank == 4 && d.size 2 == 1 && d.size 3 == 1
      | _ => true)

/-! ### Shape records (R284, R285) -/

/-- A shape record, with p0, r and s of the operand block (R284). -/
def shapeRec (bs : List Byte) (p0 r s : Nat) : Shape :=
  { oh := field bs 0 2, ow := field bs 2 2, sh := field bs 4 1, sw := field bs 5 1, dh := field bs 6 1, dw := field bs 7 1
    ph := field bs 8 2, pw := field bs 10 2, p0 := p0, r := r, s := s }

/-- The limits of R284 and R285. -/
def shapeRecOk (bs : List Byte) (x : Shape) : Bool :=
  let r16 (n : Nat) : Bool := 1 ≤ n && n ≤ 16
  let kh := field bs 12 1
  let kw := field bs 13 1
  x.oh != 0 && x.ow != 0 && r16 x.sh && r16 x.sw && r16 x.dh && r16 x.dw && r16 kh && r16 kw && field bs 14 2 == 0 &&
    x.r < kh && x.s < kw

/-! ### Rows (R277, R279, R282, R285) -/

/-- One coordinate: none where it is out of range; dimensions at or above RANK take no part (R277). -/
def TDesc.coord (d : TDesc) (i : Nat) (x : Int) : Option Nat :=
  if d.rank ≤ i then some 0
  else if d.circ.getLsbD i then some (x.emod (d.extent i : Int)).toNat
  else if x < 0 ∨ (d.extent i : Int) ≤ x then none else some x.toNat

/-- Coordinates 1 to 4 of row n of a slice: none for a CPW row that is wholly out of range (R277, R282, R285). -/
def Copy.rowAt (c : Copy) (sl : Slice) (s : State) (n : Nat) : Option (List Int) :=
  let o (i : Nat) : Int := sl.c.getD i 0
  match c.form with
  | .cpg => some [s32 (w32 (rdMem s.mem (sl.index + 4 * n) 4)), o 2, o 3, o 4]
  | .cpw =>
    let x := c.shape
    let p := x.p0 + n
    if c.desc.extent 3 * x.oh * x.ow ≤ p then none
    else
      let oy := p / x.ow % x.oh
      let ox := p % x.ow
      some [(ox * x.sw : Int) - x.pw + x.s * x.dw, (oy * x.sh : Int) - x.ph + x.r * x.dh, (p / (x.oh * x.ow) : Nat), 0]
  | _ =>
    let b1 := n % c.desc.size 1
    let b2 := n / c.desc.size 1 % c.desc.size 2
    let b3 := n / (c.desc.size 1 * c.desc.size 2) % c.desc.size 3
    let b4 := n / (c.desc.size 1 * c.desc.size 2 * c.desc.size 3)
    some [o 1 + b1, o 2 + b2, o 3 + b3, o 4 + b4]

/-- One packing unit of a row: its place in the row, its address where it is in range, and its scale's address. -/
structure RowUnit where
  u : Nat := 0
  va : Option W64 := none
  scale : W64 := 0
deriving DecidableEq, Repr

/-- The packing units of row n (R277, R278). -/
def Copy.units (c : Copy) (sl : Slice) (s : State) (n : Nat) : List RowUnit :=
  let d := c.desc
  let k := packUnit d.mtype
  let xs : Option (List Nat) := (c.rowAt sl s n).bind (fun cs =>
    ((List.range 4).map (fun i => d.coord (i + 1) (cs.getD i 0))).foldr
      (fun x acc => match x, acc with | some x, some l => some (x :: l) | _, _ => none) (some []))
  (List.range (d.size 0 / k)).map (fun u =>
    match xs, d.coord 0 (sl.c.getD 0 0 + ((u * k : Nat) : Int)) with
    | some ys, some x0 =>
      let y (i : Nat) : Nat := ys.getD i 0
      let base := d.base.toNat + 16 * (y 0 * d.pitch 1 + y 1 * d.pitch 2 + y 2 * d.pitch 3 + (if d.dequant then 0 else y 3 * d.pitch 4))
      let q := x0 / 32 + d.extent 0 / 32 * (y 0 + d.extent 1 * (y 1 + d.extent 2 * y 2))
      { u := u, va := some (w64 (base + x0 * typeBits d.mtype / 8))
        scale := w64 (d.base.toNat + 16 * d.pitch 4 + (if d.mtype = 25 then 16 else 0) + q) }
    | _, _ => { u := u })

/-- The address of SF4's tensor bias. -/
def TDesc.biasAt (d : TDesc) : W64 := d.base + w64 (16 * d.pitch 4)

/-- The global byte ranges that a unit touches: its own bytes, and its scale and bias where the copy dequantises. -/
def Copy.ranges (c : Copy) (x : RowUnit) : List (W64 × Nat) :=
  match x.va with
  | none => []
  | some va => (va, unitBytes c.desc.mtype) ::
      (if c.desc.dequant then (x.scale, 1) :: (if c.desc.mtype = 25 then [(c.desc.biasAt, 1)] else []) else [])

/-- What the accesses of a form need at its global side (R282). -/
def CopyForm.need : CopyForm → Need
  | .cpst => .write
  | .cpred => .rmw
  | _ => .read

/-- The translation check of a row: the 64 KiB pages that it touches with their memory keys, a fault at an address, or
a page that is not resident (R287). -/
inductive RowCheck where
  | ok (pages : List (Nat × Nat))
  | fault (cause : Nat) (va : W64)
  | retry (va : W64)
deriving DecidableEq, Repr

/-- Check the pages of one address of a row, after those that have passed: of several that fail, the first in b0 order gives
CAUSE and FADDR (DESIGN CHOICE, log 144). -/
def checkPageOf (s : State) (c : Copy) (level : Nat) (r : RowCheck) (va : W64) : RowCheck :=
  let one (pages : List (Nat × Nat)) : RowCheck :=
    if pages.any (fun p => p.1 == va.toNat / 65536) then .ok pages
    else match checkPage s c.ctx (dieOf s c.core) va c.form.need with
      | .error f => .fault f.cause va
      | .ok (l, p) =>
        if l.frm && level == 0 then .fault 0x0D va
        else if !p.resident then .retry va
        else .ok (pages ++ [(va.toNat / 65536, p.key - va.toNat % 65536)])
  match r with
  | .ok pages => one pages
  | .fault _ _ => r
  | .retry _ => match one [] with | .fault k v => .fault k v | _ => r

/-- The translation check of row n (R287). -/
def Copy.checkRow (c : Copy) (sl : Slice) (s : State) (n : Nat) : RowCheck :=
  ((c.units sl s n).flatMap c.ranges).foldl (fun r x =>
    let last := x.1 + w64 (x.2 - 1)
    let r1 := checkPageOf s c sl.level r x.1
    if last.toNat / 65536 = x.1.toNat / 65536 then r1 else checkPageOf s c sl.level r1 (w64 (last.toNat / 65536 * 65536))) (.ok [])

/-- The memory key of an address in a checked row. -/
def keyIn (pages : List (Nat × Nat)) (va : W64) : Nat :=
  (match pages.find? (fun p => p.1 == va.toNat / 65536) with | some p => p.2 | none => 0) + va.toNat % 65536

/-! ### Moving bytes -/

/-- Bytes with their poison at the addresses of a unit. -/
def cellsAt (s : State) (pages : List (Nat × Nat)) (va : W64) (n : Nat) : List (Byte × Bool) :=
  (List.range n).map (fun i => let k := keyIn pages (va + w64 i); (s.byte k, isBad s k))

/-- Store bytes at their keys, whole 8-byte words where they are consecutive, and drop the lines from the L1s of a
cluster (R197, R202, R225). -/
def storeCells (cluster : Nat) : Nat → List (Nat × Byte × Bool) → State → State
  | 0, _, s => s
  | _ + 1, [], s => s
  | n + 1, c :: cs, s =>
    let run := (c :: cs).take 8
    let whole := c.1 % 8 == 0 && run.length == 8 && (List.range 8).all (fun i => (run.getD i c).1 == c.1 + i)
    let s1 := dropLine s cluster (lineOf c.1) none
    if whole then
      storeCells cluster n ((c :: cs).drop 8) (storeMem c.1 8 (w64 (ofLe (run.map (·.2.1)))) (run.any (·.2.2)) s1)
    else storeCells cluster n cs (storeMem c.1 1 (c.2.1.zeroExtend 64) c.2.2 s1)

/-- An element times its scale, rounded to BF16 (R278). -/
def dequantOne (t : Nat) (x : Nat) (scale : Option (Nat × Int)) : Nat :=
  match fmtOf t, scale with
  | some f, some (m, e) =>
    (match unpack f x with
      | .nan _ => 0x7FC0
      | .inf neg => infPat fBF16 neg
      | .fin neg n g => (roundTo fBF16 0 false false neg (n * m) (g + e)).1)
  | _, _ => 0x7FC0

/-- A scale byte's value: E8M0 for MX, and for SF4 UE5M3 times 2^bias (R273). -/
def scaleOf (t : Nat) (b : Nat) (bias : Int) : Option (Nat × Int) :=
  if t = 25 then (ue5m3 b).map (fun x => (x.1, x.2 + bias)) else e8m0 b

/-- Element i of packed bytes (R268). -/
def elemAt (t : Nat) (bs : List Byte) (i : Nat) : Nat :=
  let b := typeBits t
  let g := if b = 6 then 3 else if b < 8 then 1 else b / 8
  let per := g * 8 / b
  field bs (i / per * g) g / 2 ^ (b * (i % per)) % 2 ^ b

/-- The 64 bytes that a unit of a dequantising copy delivers, with their poison. -/
def dequantUnit (d : TDesc) (cs : List (Byte × Bool)) (sc bias : Byte × Bool) : List (Byte × Bool) :=
  let bs := cs.map (·.1)
  let v := scaleOf d.mtype sc.1.toNat bias.1.toInt
  (List.range 32).flatMap (fun i =>
    let o := i * typeBits d.mtype / 8
    let n := (typeBits d.mtype + 7) / 8
    let bad := ((cs.drop o).take n).any (·.2) || sc.2 || (d.mtype == 25 && bias.2)
    (leBytes 2 (dequantOne d.mtype (elemAt d.mtype bs i) v)).map (fun x => (x, bad)))

/-- What a row of a loading copy writes to scratch (R278, R279, R282). -/
def Copy.loadRow (c : Copy) (sl : Slice) (s : State) (n : Nat) (pages : List (Nat × Nat)) : List (Byte × Bool) :=
  let d := c.desc
  let ub := unitBytes d.mtype
  let hb := if d.dequant then 64 else ub
  let body := (c.units sl s n).flatMap (fun x =>
    match x.va with
    | none => List.replicate hb (0, false)
    | some va =>
      let cs := cellsAt s pages va ub
      if d.dequant then
        let one (a : W64) : Byte × Bool := let k := keyIn pages a; (s.byte k, isBad s k)
        dequantUnit d cs (one x.scale) (if d.mtype = 25 then one d.biasAt else (0, false))
      else cs)
  body ++ List.replicate (d.rowBytes - body.length) (0, false)

/-- Number bytes from a key on. -/
def placed (key : Nat) (cs : List (Byte × Bool)) : List (Nat × Byte × Bool) := cs.mapIdx (fun i x => (key + i, x.1, x.2))

/-- One element of CPRED at its home (R282). -/
def reduceElem (cluster t : Nat) (key size : Nat) (x : Nat) (bad : Bool) (s : State) : State :=
  let a : Acc := { key := key, size := size, x := w64 x }
  if isBad s key then logUnc cluster s
  else if bad then { dropLine s cluster (lineOf key) none with bad := put false s.bad (key / 8) true }
  else rmwMem cluster (if t = 6 ∨ t = 7 then 0 else 10) t a s

/-- The data movement of row n, once its check has passed (R282). The bits of a poisoned word of CPG's index list name the
row all the same (log 146). -/
def Copy.moveRow (c : Copy) (sl : Slice) (n : Nat) (pages : List (Nat × Nat)) (s : State) : State :=
  let d := c.desc
  let cl := clusterOf s c.core
  let rowKey := scratchKey sl.seg (sl.off + n * d.rowBytes)
  let ub := unitBytes d.mtype
  let cell (i : Nat) : Byte × Bool := let k := rowKey + i; (s.byte k, isBad s k)
  let unit (x : RowUnit) : List (Byte × Bool) := (List.range ub).map (fun i => cell (x.u * ub + i))
  match c.form with
  | .cpst =>
    let cs := (c.units sl s n).flatMap (fun x => match x.va with
      | some va => (unit x).mapIdx (fun i y => (keyIn pages (va + w64 i), y.1, y.2))
      | none => [])
    storeCells cl cs.length cs s
  | .cpred =>
    (c.units sl s n).foldl (fun s x => match x.va with
      | some va =>
        let ys := unit x
        reduceElem cl d.mtype (keyIn pages va) ub (ofLe (ys.map (·.1))) (ys.any (·.2)) s
      | none => s) s
  | _ =>
    let cs := placed rowKey (c.loadRow sl s n pages)
    storeCells cl cs.length cs s

/-! ### Barrier steps (R286) -/

/-- One step of a copy at its object: bytes are subtracted, the arrival of BMODE 3 is made, and a fault poisons the
phase; none where the step is not made (R286). -/
def BarObj.copyStep (b : BarObj) (bmode bytes : Nat) (arrive poison : Bool) : Option BarObj :=
  if !b.valid || b.retired || (bmode == 3 && b.pend == 0) then none
  else
    let b1 : BarObj := { b with txcnt := (b.txcnt + 2 ^ 32 - bytes % 2 ^ 32) % 2 ^ 32
                                pend := if arrive then b.pend - 1 else b.pend }
    some ((if poison then b1.setFlag (if b1.phase then 2 else 1) true else b1).check)

/-- Replace a copy. -/
def setCopy (c : Copy) (s : State) : State :=
  { s with copies := s.copies.map (fun x => if x.id == c.id then c else x) }

/-- The subtraction that follows a row: a step that is not made leaves cause HANDLE for the copy's end (R286). -/
def Copy.subtract (c : Copy) (bytes : Nat) (s : State) : State :=
  if c.desc.bmode = 0 then setCopy c s
  else match (readBar s c.barKey).copyStep c.desc.bmode bytes false false with
    | none => setCopy { c with cause := if c.cause = 0 then 0x07 else c.cause, subtracted := c.subtracted + bytes } s
    | some b => setCopy { c with subtracted := c.subtracted + bytes } (writeBar c.barKey b s)

/-! ### Endings (R287-R289) -/

/-- The number of a form in a record (R288). -/
def CopyForm.num : CopyForm → Nat
  | .cpld => 0
  | .cpst => 1
  | .cpred => 2
  | .cpg => 3
  | .cpc => 4
  | .cpw => 5

/-- The lowest participant's warp, and its number for the copy. -/
def Copy.issuer (c : Copy) (s : State) : Warp := ((c.slices.head?).bind (fun x => s.warp? x.wid)).getD {}
def Copy.seqIn (c : Copy) (w : Warp) : Nat := ((w.tracks.find? (fun t => t.copy == c.id)).getD {}).num

/-- The status record of an ended copy (R288). -/
def Copy.record (c : Copy) (s : State) (kind : Nat) : List Byte :=
  let w := c.issuer s
  recordOf 32 [(0, 8, c.descAddr.toNat), (8, 4, if kind = 1 then c.size else c.done), (0x0C, 1, kind - 1)
    , (0x0D, 1, if kind = 2 then c.cause else 0), (0x0E, 2, c.seqIn w), (0x10, 8, if kind = 2 then c.faddr.toNat else 0)
    , (0x18, 2, w.warpid), (0x1A, 2, c.core), (0x1C, 1, c.form.num)]

/-- A participant sees the copy end: CP falls in issue order, the number's state is kept, and a fault is listed (R204,
R287, R289, R290). -/
def Warp.copyEnds (w : Warp) (c : Copy) (kind : Nat) : Warp :=
  { w with cps := markDone w.cps c.id
           tracks := w.tracks.map (fun t =>
             if t.copy == c.id then { t with state := if kind = 1 then 0 else kind, done := c.done } else t)
           cpFaults := if kind = 2 then w.cpFaults ++ [c.descAddr] else w.cpFaults }

/-- End a copy: kind 1 completed, 2 faulted, 3 cancelled. The last barrier step and the record are made together; they
wait while the copy-status ring has no room (R287, R288, R369). -/
def endCopy (c : Copy) (kind : Nat) (s : State) : State :=
  let k0 := if c.cause = 0x07 then 2 else kind
  let step := if c.desc.bmode = 0 then none
    else (readBar s c.barKey).copyStep c.desc.bmode (c.size - c.subtracted) (c.desc.bmode == 3) (k0 == 2)
  let failed := c.desc.bmode != 0 && step.isNone
  let k := if failed then 2 else k0
  let c1 : Copy := { c with cause := if failed && c.cause == 0 then 0x07 else c.cause }
  let writes := k != 1 || c.desc.stat
  if writes && ringFull s c.ctx 2 then setCopy { c with stop := kind } s
  else
    let s1 := match step with | some b => writeBar c.barKey b s | none => s
    let s2 := if writes then ringWrite c.ctx 2 (c1.record s k) s1 else s1
    let s3 := c.slices.foldl (fun s x => s.modWarp x.wid (fun w => w.copyEnds c1 k)) s2
    setCopy { c1 with ending := k, stop := 0 } s3

/-- An earlier copy holds an entry that conflicts with one of this copy's (R239). -/
def Copy.blocked (c : Copy) (s : State) : Bool :=
  s.cores.any (fun e => e.2.locks.any (fun a => a.copy == c.id && (heldLocks s e.1).any (fun b =>
    decide (b.copy < c.id) && b.scratch == a.scratch && b.owner == a.owner && b.lo ≤ a.hi && a.lo ≤ b.hi && (a.write || b.write))))

/-- The accesses of a row set out; whether every one that goes over the fabric is performed: otherwise the copy sends the
row again (R384, R385). -/
def Copy.sendRow (c : Copy) (sl : Slice) (n : Nat) (pages : List (Nat × Nat)) (s : State) : State × Bool :=
  sendAll c.ctx (((c.units sl s n).flatMap c.ranges).map (fun x => keyIn pages x.1)) s

/-- COPY_ROW: a copy works one row further, ends, or waits (R239, R287). -/
def copyRow (id : Nat) (s : State) : State :=
  match s.copies.find? (fun c => c.id == id && c.ending == 0) with
  | none => s
  | some c =>
    if c.stop ≠ 0 then endCopy c c.stop s
    else if c.cancel then endCopy c 3 s
    else if c.held || c.blocked s then s
    else match c.slices.find? (fun x => x.nextRow < x.rows) with
      | none => endCopy c 1 s
      | some sl =>
        match c.checkRow sl s sl.nextRow with
        | .fault cause va => endCopy { c with cause := if c.cause = 0x07 then 0x07 else cause, faddr := if c.cause = 0x07 then 0 else va } 2 s
        | .retry va => addFault (dieOf s c.core) c.ctx va 6 (setCopy { c with held := true } s)
        | .ok pages =>
          let r := c.sendRow sl sl.nextRow pages s
          if !r.2 then r.1 else
          let s1 := c.moveRow sl sl.nextRow pages r.1
          let next := c.slices.map (fun x => if x.wid == sl.wid then { x with nextRow := x.nextRow + 1 } else x)
          let c1 : Copy := { c with slices := next, done := c.done + c.desc.rowBytes }
          if next.all (fun x => x.rows ≤ x.nextRow) then endCopy c1 1 (setCopy c1 s1)
          else c1.subtract c.desc.rowBytes s1

/-- RANGE_LOCK_RELEASE: the entries of a copy that has ended in an earlier cycle are released (R239, R241). -/
def releaseLocks (id : Nat) (s : State) : State :=
  if s.copies.any (fun c => c.id == id && c.ending != 0 && c.ripe) then
    { dropLocks (fun c => c == id) s with copies := s.copies.filter (fun c => c.id != id) }
  else s

/-! ### Issue (R280, R281) -/

/-- A slice that has passed the checks of R281. -/
structure Prep where
  desc : TDesc
  shape : Shape
  slice : Slice
  size : Nat
  barKey : Nat
  locks : List (Nat × RLock)
deriving DecidableEq, Repr

/-- How the checks of R281 end. -/
inductive PrepRes where
  | ok (p : Prep)
  | trap (cause : Nat) (tval : W64)
  | retry (va : W64)
deriving DecidableEq, Repr

/-- Read `n` bytes of global memory as by LD with SC 0, for a copy's issue (R281). -/
def readGlobal (s : State) (w : Warp) (va : W64) (n : Nat) : Except PrepRes (List Byte) :=
  if va.toNat % n ≠ 0 then .error (.trap 0x03 va)
  else match checkPage s w.ctx w.die va .read with
    | .error f => .error (.trap f.cause f.tval)
    | .ok (l, p) =>
      if l.frm && w.tlevel == 0 then .error (.trap 0x0D va)
      else if !p.resident then .error (.retry va)
      else
        let ws := (List.range (n / 8)).map (fun i => readVia s w.core p.l1 (p.key + 8 * i) 8)
        if ws.any (·.2) then .error (.trap 0x15 va) else .ok (ws.flatMap (fun x => leBytes 8 x.1.toNat))

/-- The operand words of a copy: their must-be-zero parts, the origin and the word that carries c0 (R280). -/
def originOf (f : CopyForm) (x1 x2 x3 : W64) : List Int × W64 :=
  let a (x : W64) : Int := s32 (lo32 x)
  let b (x : W64) : Int := s32 (hi32 x)
  match f with
  | .cpg => ([a x2, 0, b x2, a x3, b x3], x2)
  | .cpw => ([b x2], x2)
  | _ => ([a x1, b x1, a x2, b x2, a x3], x1)

/-- Must-be-zero bits of a scratch word (R228, R280). -/
def scratchWordBad (x : W64) : Bool := bits x 7 6 != 0 || bits x 15 11 != 0 || bits x 63 36 != 0

/-- The first operand word with a must-be-zero part that is not zero (R280). -/
def blockBad (f : CopyForm) (x0 x1 x3 : W64) : Option W64 :=
  if scratchWordBad x0 then some x0
  else match f with
    | .cpg => if scratchWordBad x1 then some x1 else none
    | .cpw => if bits x3 63 16 ≠ 0 then some x3 else none
    | _ => if bits x3 63 32 ≠ 0 then some x3 else none

/-- A range of scratch that a scratch word names (R187, R191, R192): the core that holds the segment, and the segment. -/
def scratchRange (s : State) (w : Warp) (word : W64) (n : Nat) : Except PrepRes (Nat × Nat) :=
  match handleOf s w (w64 (bits word 10 0)) with
  | none => .error (.trap 0x07 word)
  | some (g, h) => if h.bytes < bits word 35 16 + n then .error (.trap 0x06 word) else .ok ((s.wg g).core, h.seg)

/-- The lowest and highest global byte that a slice touches (R239); an empty range where it touches none. -/
def Copy.bounds (c : Copy) (sl : Slice) (s : State) : Nat × Nat :=
  let rs := (List.range c.desc.rows).flatMap (fun n => (c.units sl s n).flatMap c.ranges)
  rs.foldl (fun (b : Nat × Nat) r => (min b.1 r.1.toNat, max b.2 (r.1 + w64 (r.2 - 1)).toNat)) (2 ^ 64, 0)

/-- The checks of R281 for one slice, in their order, up to the wait for range-lock entries. CPG's global range is the one that
its index list gives as scratch holds it now, though the copy reads the list again row by row (DEDUCED, log 167). The check of c0 against U (R277)
stands after those of must-be-zero parts and ALIGN, and before CPW's shape record (DESIGN CHOICE, log 147). -/
def prepare (f : CopyForm) (s : State) (w : Warp) (descAddr : W64) (blk : Nat) : PrepRes :=
  let x (i : Nat) : W64 := (w.sr (blk + i)).bits
  match readGlobal s w descAddr 64 with
  | .error e => e
  | .ok bs =>
    let d := descOf bs
    if !descOk f bs then .trap 0x01 descAddr
    else match (if d.bmode = 0 then .ok 0 else barCheck s w d.bar false) with
      | .error c => .trap c d.bar
      | .ok barKey =>
        let org := originOf f (x 1) (x 2) (x 3)
        match blockBad f (x 0) (x 1) (x 3) with
        | some v => .trap 0x01 v
        | none =>
          if bits (x 0) 35 16 % 32 ≠ 0 then .trap 0x03 (x 0)
          else if f == .cpg && bits (x 1) 35 16 % 4 != 0 then .trap 0x03 (x 1)
          else if org.1.getD 0 0 % (packUnit d.mtype : Int) ≠ 0 then .trap 0x01 org.2
          else match (if f == .cpw then readGlobal s w (x 1) 16 else .ok []) with
            | .error e => e
            | .ok rec_ =>
              let sh := shapeRec rec_ (bits (x 2) 31 0) (bits (x 3) 7 0) (bits (x 3) 15 8)
              if f == .cpw && !shapeRecOk rec_ sh then .trap 0x01 (x 1)
              else
                let n := d.rowBytes * d.rows
                match scratchRange s w (x 0) n with
                | .error e => e
                | .ok (core, seg) =>
                  match (if f == .cpg then scratchRange s w (x 1) (4 * d.size 1) else .ok (0, 0)) with
                  | .error e => e
                  | .ok (icore, iseg) =>
                    let off := bits (x 0) 35 16
                    let ioff := bits (x 1) 35 16
                    let sl : Slice := { wid := w.wid, level := w.tlevel, seg := seg, off := off, c := org.1
                                        index := scratchKey iseg ioff, rows := d.rows, rowBytes := d.rowBytes }
                    let c : Copy := { form := f, ctx := w.ctx, core := w.core, wg := w.wg, desc := d, shape := sh }
                    let b := c.bounds sl s
                    let toScratch := !(f == .cpst || f == .cpred)
                    let own : RLock := { scratch := true, owner := seg, lo := off, hi := off + n - 1, write := toScratch }
                    let glob : RLock := { scratch := false, owner := w.wg, lo := b.1, hi := b.2, write := !toScratch }
                    let idx : RLock := { scratch := true, owner := iseg, lo := ioff, hi := ioff + 4 * d.size 1 - 1 }
                    .ok { desc := d, shape := sh, slice := sl, size := n, barKey := barKey
                          locks := [(core, own), (w.core, glob)] ++ (if f == .cpg then [(icore, idx)] else []) }

/-- Enough range-lock entries are free for all of these (R239). -/
def locksFree (s : State) (ls : List (Nat × RLock)) : Bool :=
  ls.all (fun l => (heldLocks s l.1).length + (ls.filter (fun m => m.1 == l.1)).length ≤ 64)

/-- Take range-lock entries for a copy. -/
def takeLocks (id : Nat) (ls : List (Nat × RLock)) (s : State) : State :=
  ls.foldl (fun s l => let c := s.core l.1; s.setCore l.1 { c with locks := c.locks ++ [{ l.2 with copy := id }] }) s

/-- A participant numbers its copy: CPSEQ and CP rise, and the 64 latest are tracked (R281, R290). -/
def Warp.copyStarts (w : Warp) (id : Nat) : Warp :=
  let ts := w.tracks ++ [{ num := w.cpseq, copy := id }]
  { w with cpseq := (w.cpseq + 1) % 65536, cps := w.cps ++ [(id, false)], tracks := ts.drop (ts.length - 64) }

/-- Start a copy of prepared slices: the barrier step of BMODE 2 and 3, the entries and the numbers (R281); none where
the object is not VALID or is RETIRED. -/
def startCopy (f : CopyForm) (descAddr : W64) (ps : List Prep) (s : State) : Option State :=
  match ps with
  | [] => some s
  | p :: _ =>
    let id := s.nextCopy
    let size := ps.foldl (fun n q => n + q.size) 0
    let w := (s.warp? p.slice.wid).getD {}
    let c : Copy := { id := id, form := f, ctx := w.ctx, core := w.core, wg := w.wg, descAddr := descAddr, desc := p.desc
                      shape := p.shape, slices := ps.map (·.slice), size := size, barKey := p.barKey }
    let b := readBar s p.barKey
    if 2 ≤ p.desc.bmode && (!b.valid || b.retired) then none
    else
      let s1 := if 2 ≤ p.desc.bmode then
          writeBar p.barKey ({ b with txcnt := (b.txcnt + size) % 2 ^ 32 } : BarObj).check s else s
      let s2 := takeLocks id (ps.flatMap (·.locks)) { s1 with nextCopy := id + 1, copies := s1.copies ++ [c] }
      some (ps.foldl (fun s q => s.modWarp q.slice.wid (fun w => w.copyStarts id)) s2)

/-- The addresses that a copy's issue reads: its descriptor and CPW's shape record (R281). -/
def issueReads (f : CopyForm) (w : Warp) (a b : Nat) : List W64 :=
  (w.sr a).bits :: (if f == .cpw then [(w.sr (b + 1)).bits] else [])

/-- A copy's release at its issue: the warp issues nothing further until every access that it has issued is performed (R237,
R281). -/
def afterAllHeld (s : State) (k : State → Res) : Res :=
  if s.w.allPerformed && !s.tileBusy then k s else .block 3 s

/-- The gate of a copy instruction (R280). -/
def copyGate (op : BitVec 7) (fn : BitVec 4) (a b : BitVec 6) (g : Bool) (s : State) : Gate :=
  { word := wordA op 0 a b fn g false, guard := g, cls := .copy, ok := b.toNat % 4 == 0
    scals := a.toNat :: (List.range 4).map (fun i => b.toNat + i)
    uses := useS a :: (List.range 4).map (fun i => { sc := true, n := b.toNat, off := i })
    full := 63 ≤ s.w.cp, tx := false }

/-- The one-warp copies (R281, R282). -/
def copyOp (f : CopyForm) (op : BitVec 7) (fn : BitVec 4) (a b : BitVec 6) (g : Bool) (s : State) :
    Host.Outcome State Fault Refusal :=
  (copyGate op fn a b g s).run
    (fun s act =>
      if act = 0 then .fall s
      else afterAllHeld s (fun s => overFabric (issueReads f s.w a.toNat b.toNat) s (fun s =>
        let da := (s.w.sr a.toNat).bits
        match prepare f s s.w da b.toNat with
        | .trap c v => trapAct c v act s
        | .retry va => parkAt 0 [va] s
        | .ok p =>
          if !locksFree s p.locks then .block 18 s
          else match startCopy f da [p] s with
            | none => trapAct 0x07 p.desc.bar act s
            | some s1 => .fall (noteReads act (issueReads f s.w a.toNat b.toNat) s1)))) s

/-- CPLD (R282). -/
def execCpld (a : BitVec 6) (b : BitVec 4) (g : Bool) (s : State) : Host.Outcome State Fault Refusal := copyOp .cpld 0x5C 0 a (b ++ 0#2) g s
/-- CPST (R282). -/
def execCpst (a : BitVec 6) (b : BitVec 4) (g : Bool) (s : State) : Host.Outcome State Fault Refusal := copyOp .cpst 0x5C 1 a (b ++ 0#2) g s
/-- CPRED (R282). -/
def execCpred (a : BitVec 6) (b : BitVec 4) (g : Bool) (s : State) : Host.Outcome State Fault Refusal := copyOp .cpred 0x5C 2 a (b ++ 0#2) g s
/-- CPG (R282). -/
def execCpg (a : BitVec 6) (b : BitVec 4) (g : Bool) (s : State) : Host.Outcome State Fault Refusal := copyOp .cpg 0x5C 3 a (b ++ 0#2) g s
/-- CPW (R285). -/
def execCpw (a : BitVec 6) (b : BitVec 4) (g : Bool) (s : State) : Host.Outcome State Fault Refusal := copyOp .cpw 0x5E 0 a (b ++ 0#2) g s

/-! ### CPC (R283) -/

/-- A grant whose trap value is the participant's own. -/
def onGrantValue (code : Nat) (s : State) (act : Mask) (done : W64 → W64 → State → Res) : Res :=
  match s.w.grant with
  | none => .block code s
  | some .done => done 0 0 s
  | some (.value v x) => done v x s
  | some (.trap c v) => trapAct c v act s

/-- The copying warps of a workgroup: FEED and GENERAL warps with live lanes (R283). -/
def copyingWarps (s : State) (wg : Nat) : List Warp := (s.liveWarps wg).filter (fun w => w.role != .matrix)

/-- The collective once all have joined: each slice's checks in WARPID order (R283). -/
def cpcRun (wg : Nat) (s : State) : State :=
  let arr := s.wg wg
  let parts := (s.wgWarps wg).filterMap (fun w => (arr.cpc.find? (fun a => a.wid == w.wid)).map (fun a => (w, a)))
  match parts with
  | [] => s
  | p0 :: _ =>
    let clear (s : State) : State := s.setWg wg { s.wg wg with cpc := [] }
    if parts.any (fun p => p.2.desc != p0.2.desc) then
      clear (parts.foldl (fun s p => giveGrant p.1.wid (.trap 0x0E p.2.desc) s) s)
    else
      let rs := parts.map (fun p => (p.1, prepare .cpc s p.1 p.2.desc p.2.blk))
      let held := rs.filterMap (fun r => match r.2 with | .retry va => some (r.1, va) | _ => none)
      let good := rs.filterMap (fun r => match r.2 with | .ok p => some p | _ => none)
      if !held.isEmpty then
        held.foldl (fun s h => addFault h.1.die h.1.ctx h.2 0 (s.modWarp h.1.wid (fun w => { w with retry := [h.2] }))) s
      else if !locksFree s (good.flatMap (·.locks)) then s
      else
        let s1 := rs.foldl (fun s r => match r.2 with | .trap c v => giveGrant r.1.wid (.trap c v) s | _ => s) (clear s)
        match startCopy .cpc p0.2.desc good s1 with
        | some s2 => good.foldl (fun s p => giveGrant p.slice.wid .done s) s2
        | none => good.foldl (fun s p => giveGrant p.slice.wid (.trap 0x07 p.desc.bar) s) s1

/-- Run the collective when every copying warp has joined it, and none of them is parked (R283). -/
def cpcTry (wg : Nat) (s : State) : State :=
  let ws := copyingWarps s wg
  let arr := (s.wg wg).cpc
  if !arr.isEmpty && ws.all (fun w => arr.any (fun a => a.wid == w.wid) && w.retry.isEmpty) then cpcRun wg s else s

/-- CPC (R283). -/
def execCpc (a : BitVec 6) (b : BitVec 4) (g : Bool) (s : State) : Host.Outcome State Fault Refusal :=
  (copyGate 0x5D 0 a (b ++ 0#2) g s).run
    (fun s act =>
      if act = 0 then .fall s
      else
        let joined := s.w.grant.isSome || (s.wg s.w.wg).cpc.any (fun x => x.wid == s.w.wid)
        afterAllHeld s (fun s => overFabric (if joined then [] else issueReads .cpc s.w a.toNat 0) s (fun s =>
        let wg := s.wg s.w.wg
        let da := (s.w.sr a.toNat).bits
        let me : CpcArrival := { wid := s.w.wid, desc := da, blk := 4 * b.toNat, act := act }
        let s1 := if joined then s else s.setWg s.w.wg { wg with cpc := wg.cpc ++ [me] }
        onGrantValue 9 (if s1.w.grant.isSome then s1 else cpcTry s1.w.wg s1) act
          (fun _ _ s => .fall (noteReads act [da] s))))) s

/-! ### CPQ and CPCAN (R290) -/

/-- The tracked copy of a number. -/
def Warp.track (w : Warp) (m : Nat) : Option Track := w.tracks.find? (fun t => t.num == m)

/-- The bytes that a copy has delivered so far. -/
def deliveredBy (s : State) (t : Track) : Nat :=
  if t.state = 1 then ((s.copies.find? (fun c => c.id == t.copy)).getD {}).done else t.done

/-- CPQ (R290): a poisoned s[a] raises no trap and poisons the result (R202, log 61). -/
def execCpq (d a : BitVec 6) (g : Bool) (s : State) : Host.Outcome State Fault Refusal :=
  ({ word := wordA 0x5F d a 0 0 g false, guard := g, cls := .copy, scals := [d.toNat, a.toNat], tx := false } : Gate).run
    (fun s act =>
      let t := s.w.track (bits (s.w.sr a.toNat).bits 15 0)
      let x := s.w.cpseq + (match t with
        | some t => t.state * 65536 + min (deliveredBy s t) 0xFFFFFFFF * 2 ^ 32
        | none => 0)
      if act = 0 then .fall s else .fall { s with w := s.w.setS d.toNat (w64 x) (s.w.sr a.toNat).bad }) s

/-- CPCAN (R290): a poisoned s[a] raises no trap (log 61). -/
def execCpcan (a : BitVec 6) (g : Bool) (s : State) : Host.Outcome State Fault Refusal :=
  ({ word := wordA 0x5F 0 a 0 1 g false, guard := g, cls := .copy, scals := [a.toNat], tx := false } : Gate).run
    (fun s act =>
      match s.w.track (bits (s.w.sr a.toNat).bits 15 0) with
      | some t =>
        if act = 0 ∨ t.state ≠ 1 then .fall s
        else .fall { s with copies := s.copies.map (fun c => if c.id == t.copy then { c with cancel := true } else c) }
      | none => .fall s) s

end Sys2Proof.Machine
end

