-- ==== Sys2Proof/Machine/View.lean ====
section
/-! DEFINITION. View records (R308, R309), warp grids and tiles (R310, R311), the VAM's projection and clipping (R314),
and the WRS's rasterisation (R317), on exact rationals. -/

namespace Sys2Proof.Machine

/-! ### View records (R308, R309) -/

/-- A finite F32 pattern as a rational; zero for the others. -/
def qv (x : W32) : Q := (qF32 x).getD ⟨0, 1⟩

/-- `n` consecutive F32 patterns. -/
def wordsAt (bs : List Byte) (off n : Nat) : List W32 := (List.range n).map (fun i => w32 (field bs (off + 4 * i) 4))

/-- The fields of a view record, and the lens mesh that it names (R308, R322). -/
def viewRecOf (bs : List Byte) (mesh : List W64) : ViewRec :=
  { matrix := wordsAt bs 0 16, ew := field bs 0x40 2, eh := field bs 0x42 2, gw := field bs 0x44 2, gh := field bs 0x46 2
    fov := field bs 0x48 1 % 2 == 1, closers := field bs 0x4C 2, fr := w32 (field bs 0x50 4), fb := w32 (field bs 0x54 4)
    dmin := w32 (field bs 0x58 4), rclust := w32 (field bs 0x5C 4), eye0 := w64 (field bs 0x60 8)
    eye1 := w64 (field bs 0x68 8), bin0 := w64 (field bs 0x70 8), bin1 := w64 (field bs 0x78 8)
    mesh := w64 (field bs 0x80 8), epitch := field bs 0x88 4, binbytes := field bs 0x8C 4
    u := wordsAt bs 0x90 16, v := wordsAt bs 0xD0 16, points := mesh }

/-- The record no longer stands in memory as it was read (R307). -/
def ViewRec.changed (r : ViewRec) (s : State) : Bool := loadBytes s r.addr 320 != r.raw

/-- The pixels of the view's current frame are unpredictable (R307). -/
def View.spoils (v : View) (r : ViewRec) (s : State) : Bool := v.spoilt || r.changed s

/-- Pixel (x, y) of view n: `p`, or where the view's frame is unpredictable a free value (R307). -/
def freePixel (spoilt : Bool) (k n x y : Nat) (p : W32) : W32 :=
  if spoilt then Config.unpredictablePixel k (n * 2 ^ 24 + y * 2 ^ 12 + x) else p

/-- One more set of free pixels has been taken. -/
def tookFree (spoilt : Bool) (s : State) : State := if spoilt then { s with free := s.free + 1 } else s

/-- Control values of WMODE 0 for a grid of `n` samples and `e` pixels (R309). -/
def ctlOk (c : List W32) (n e : Nat) : Bool :=
  c.all (fun x => (qF32 x).isSome) && (qv (c.getD 0 0)).n == 0 && (qv (c.getD 15 0)).eq (Q.ofInt n) &&
    (List.range 15).all (fun i => (⟨e, 60⟩ : Q).le ((qv (c.getD (i + 1) 0)).sub (qv (c.getD i 0))))

/-- An F32 field lies between two numbers. -/
def f32In (x : W32) (lo hi : Nat) : Bool :=
  match qF32 x with
  | some q => (Q.ofInt lo).le q && q.le (Q.ofInt hi)
  | none => false

/-- The checks of R309 on one record, but for the pixel rate; `lclust` is LCLUST. -/
def viewRecOk (bs : List Byte) (r : ViewRec) (lclust : Nat) : Bool :=
  let aligned (x : W64) (n : Nat) : Bool := x.toNat % n == 0
  let dense (e g : Nat) : Bool := (Q.ofInt e).le ((Q.ofInt (4 * g : Nat)).mul (qv r.dmin))
  field bs 0x48 1 / 2 == 0 && field bs 0x49 3 == 0 && field bs 0x4E 2 == 0 && (bs.drop 0x110).all (· == 0) &&
    32 ≤ r.ew && r.ew ≤ 4096 && 32 ≤ r.eh && r.eh ≤ 4096 && r.eh % 16 == 0 &&
    32 ≤ r.gw && r.gw ≤ r.ew && r.gw % 32 == 0 && 32 ≤ r.gh && r.gh ≤ r.eh && r.gh % 32 == 0 &&
    1 ≤ r.closers && f32In r.fr 0 2 && f32In r.fb 0 2 && f32In r.dmin 0 1 && (qv r.dmin).n != 0 &&
    r.rclust != 0 && r.rclust.toNat / 2 ^ lclust == 0 &&
    aligned r.eye0 256 && aligned r.eye1 256 && aligned r.bin0 256 && aligned r.bin1 256 && aligned r.mesh 64 &&
    r.epitch % 256 == 0 && 4 * r.ew ≤ r.epitch && r.binbytes % 64 == 0 &&
    (if r.fov then dense r.ew r.gw && dense r.eh r.gh else ctlOk r.u r.gw r.ew && ctlOk r.v r.gh r.eh)

/-- The eye image of a frame (R308). -/
def ViewRec.eye (r : ViewRec) (frame : Nat) : Nat := (if frame % 2 = 0 then r.eye0 else r.eye1).toNat

/-- Rows of one strip (R306). -/
def ViewRec.rows (r : ViewRec) : Nat := r.eh / 16

/-! ### Warp grids (R310, R311) -/

/-- x_i = −1 + 2i/15. -/
def ctlX (i : Nat) : Q := ⟨2 * (i : Int) - 15, 15⟩

/-- The integral of ρ from g to g + d, for d ≥ 0 (R310). -/
def densityTo (fr fb dmin d : Q) : Q :=
  let one : Q := ⟨1, 1⟩
  let fall := one.sub dmin
  if d.le fr then d
  else if d.lt (fr.add fb) then
    let e := d.sub fr
    d.sub ((fall.mul (e.mul e)).div (fb.add fb))
  else ((fr.add fb).sub ((fall.mul fb).mul ⟨1, 2⟩)).add (dmin.mul (d.sub (fr.add fb)))

/-- The integral of ρ from g to x. -/
def densityFrom (fr fb dmin g x : Q) : Q :=
  if g.le x then densityTo fr fb dmin (x.sub g) else (densityTo fr fb dmin (g.sub x)).neg

/-- The gaze that an axis uses: a NaN is 0, and the rest is clamped to [−1, 1] (R310). -/
def gazeQ (x : W32) : Q :=
  match unpack fF32 x.toNat with
  | .nan _ => ⟨0, 1⟩
  | .inf neg => ⟨if neg then -1 else 1, 1⟩
  | .fin neg n e => ((qDy neg n e).max ⟨-1, 1⟩).min ⟨1, 1⟩

/-- The control values of one axis under WMODE 1 (R310). -/
def foveate (r : ViewRec) (gaze : W32) (n : Nat) : List W32 :=
  let f := densityFrom (qv r.fr) (qv r.fb) (qv r.dmin) (gazeQ gaze)
  let lo := f (ctlX 0)
  let all := (f (ctlX 15)).sub lo
  (List.range 16).map (fun i =>
    if i = 0 then 0 else if i = 15 then q32 (Q.ofInt n) else q32 ((Q.ofInt n).mul (((f (ctlX i)).sub lo).div all)))

/-- The warp grid of a strip (R310). -/
def ViewRec.grid (r : ViewRec) (gx gy : W32) : List W32 × List W32 :=
  if r.fov then (foveate r gx r.gw, foveate r gy r.gh) else (r.u, r.v)

/-- The exact mapping from NDC to samples along an axis (R311). -/
def warpQ (c : List W32) (x : Q) : Q :=
  let i := min 14 ((x.add ⟨1, 1⟩).mul ⟨15, 2⟩).floor.toNat
  let a := qv (c.getD i 0)
  a.add (((qv (c.getD (i + 1) 0)).sub a).mul ((x.sub (ctlX i)).mul ⟨15, 2⟩))

/-- The exact inverse mapping along an axis (R311). -/
def unwarpQ (c : List W32) (u : Q) : Q :=
  let i := ((List.range 14).filter (fun i => (qv (c.getD (i + 1) 0)).le u)).length
  let a := qv (c.getD i 0)
  (ctlX i).add (((u.sub a).mul ⟨2, 15⟩).div ((qv (c.getD (i + 1) 0)).sub a))

/-- The tile that owns a pixel along an axis of `e` pixels and `n` samples (R311). -/
def tileAt (c : List W32) (e n p : Nat) : Nat :=
  min ((warpQ c ⟨2 * (p : Int) + 1 - e, e⟩).mul ⟨1, 32⟩).floor.toNat (n / 32 - 1)

/-- The runs of pixels from `p` on that one tile owns: tile, first pixel, number of pixels. -/
def tileRuns (c : List W32) (e n : Nat) : Nat → Nat → List (Nat × Nat × Nat)
  | _, 0 => []
  | p, k + 1 =>
    let t := tileAt c e n p
    match tileRuns c e n (p + 1) k with
    | r :: rs => if r.1 = t then (t, p, r.2.2 + 1) :: rs else (t, p, 1) :: r :: rs
    | [] => [(t, p, 1)]

/-- The tiles of strip k in ascending ty, then tx (R311, R316). -/
def tilesOf (r : ViewRec) (view frame k : Nat) (g : List W32 × List W32) : List VTile :=
  let cols := tileRuns g.1 r.ew r.gw 0 r.ew
  (tileRuns g.2 r.eh r.gh (k * r.rows) r.rows).flatMap (fun y => cols.map (fun x =>
    { view := view, frame := frame, strip := k, tx := x.1, ty := y.1, px0 := x.2.1, py0 := y.2.1, pw := x.2.2, ph := y.2.2 }))

/-! ### The VAM (R314) -/

/-- A rounded component: an exact value, or an infinity. -/
inductive XQ where
  | fin (q : Q)
  | inf (neg : Bool)
deriving DecidableEq, Repr

/-- A value rounded once to F32. -/
def XQ.round (a : Q) : XQ :=
  match qF32 (q32 a) with
  | some q => .fin q
  | none => .inf (decide (a.n < 0))

def XQ.neg : XQ → XQ
  | .fin q => .fin q.neg
  | .inf n => .inf (!n)

/-- The order of components, the infinities at its ends. -/
def XQ.lt : XQ → XQ → Bool
  | .fin a, .fin b => a.lt b
  | .inf true, .inf n => !n
  | .inf true, .fin _ => true
  | .fin _, .inf n => !n
  | .inf false, _ => false

/-- A vertex in clip space. -/
structure Clip where
  x : XQ
  y : XQ
  z : XQ
  w : XQ
deriving DecidableEq, Repr

/-- Four components rounded to F32. -/
def clipOf (x y z w : Q) : Clip := ⟨.round x, .round y, .round z, .round w⟩

/-- A row of MATRIX times (x, y, z, 1), exact. -/
def dotRow (m : List W32) (i : Nat) (x y z : Q) : Q :=
  let e (j : Nat) : Q := qv (m.getD (4 * i + j) 0)
  ((((e 0).mul x).add ((e 1).mul y)).add ((e 2).mul z)).add (e 3)

/-- The clip position of a vertex, of which a component may round to an infinity (R314 step 1); none where the vertex or the MATRIX
holds a NaN or an infinity, which has no exact dot product (DESIGN CHOICE, log 182). -/
def project (m : List W32) (v : Vertex) : Option Clip :=
  match m.all (fun x => (qF32 x).isSome), qF32 v.x, qF32 v.y, qF32 v.z with
  | true, some x, some y, some z => some <| clipOf (dotRow m 0 x y z) (dotRow m 1 x y z) (dotRow m 2 x y z) (dotRow m 3 x y z)
  | _, _, _, _ => none

/-- The n-th plane: a vertex is inside it where the first value is at most the second (R314 step 2). -/
def Clip.side (c : Clip) : Nat → XQ × XQ
  | 0 => (c.w.neg, c.x)
  | 1 => (c.x, c.w)
  | 2 => (c.w.neg, c.y)
  | 3 => (c.y, c.w)
  | 4 => (.fin ⟨0, 1⟩, c.z)
  | _ => (c.z, c.w)

/-- A vertex is outside the n-th plane, or inside and not on it. -/
def Clip.outside (c : Clip) (n : Nat) : Bool := (c.side n).2.lt (c.side n).1
def Clip.inner (c : Clip) (n : Nat) : Bool := (c.side n).1.lt (c.side n).2

/-- The components of a vertex, where all are finite. -/
def Clip.exact (c : Clip) : Option (Q × Q × Q × Q) :=
  match c.x, c.y, c.z, c.w with
  | .fin x, .fin y, .fin z, .fin w => some (x, y, z, w)
  | _, _, _, _ => none

/-- The distance of a vertex from the n-th plane, where it is finite. -/
def Clip.dist (c : Clip) (n : Nat) : Q :=
  match c.side n with
  | (.fin a, .fin b) => b.sub a
  | _ => ⟨0, 1⟩

/-- The point where an edge crosses the n-th plane (R314 step 2); none at an infinite end of it, which gives no exact interpolation
(DESIGN CHOICE, log 182). -/
def crossing (n : Nat) (a b : Clip) : Option Clip :=
  match a.exact, b.exact with
  | some p, some q =>
    let t := (a.dist n).div ((a.dist n).sub (b.dist n))
    let f (p q : Q) : Q := p.add (t.mul (q.sub p))
    some (clipOf (f p.1 q.1) (f p.2.1 q.2.1) (f p.2.2.1 q.2.2.1) (f p.2.2.2 q.2.2.2))
  | _, _ => none

/-- What an edge from a to b contributes to the polygon clipped against the n-th plane. -/
def clipEdge (n : Nat) (a b : Clip) : List (Option Clip) :=
  (if a.outside n then [] else [some a]) ++
    (if (a.inner n && b.outside n) || (a.outside n && b.inner n) then [crossing n a b] else [])

/-- Every element of a list, when all are present. -/
def allSome {α : Type} : List (Option α) → Option (List α)
  | [] => some []
  | none :: _ => none
  | some a :: as => (allSome as).map (a :: ·)

/-- A polygon clipped against the n-th plane. -/
def clipPlane (n : Nat) (ps : List Clip) : Option (List Clip) :=
  match ps with
  | [] => some []
  | p :: rest => allSome ((ps.zip (rest ++ [p])).flatMap (fun e => clipEdge n e.1 e.2))

/-- A polygon clipped against the six planes in their order (R314 step 2). -/
def clipAll (ps : List Clip) : Option (List Clip) :=
  (List.range 6).foldl (fun acc n => acc.bind (clipPlane n)) (some ps)

/-- Rounded a/w, where that is finite and w is not 0: a finite value over an infinity is 0 (R314 step 4). -/
def XQ.over (a w : XQ) : Option W32 :=
  match a, w with
  | .fin a, .fin w => let x := q32 (a.div w); if w.n = 0 ∨ (qF32 x).isNone then none else some x
  | .fin _, .inf _ => some 0
  | .inf _, _ => none

/-- A vertex as stored: rounded x/w, y/w, z/w and 1/w, where w is not 0 and all four are finite (R314 step 4). -/
def stored (c : Clip) : Option PVert :=
  match c.x.over c.w, c.y.over c.w, c.z.over c.w, (XQ.fin ⟨1, 1⟩).over c.w with
  | some x, some y, some z, some q => some { x := x, y := y, z := z, q := q }
  | _, _, _, _ => none

/-- The triangles of the fan from the first vertex (R314 step 3). -/
def fanOf : List PVert → List (PVert × PVert × PVert)
  | a :: rest => (rest.zip (rest.drop 1)).map (fun e => (a, e.1, e.2))
  | [] => []

/-- Twice the signed area of three points. -/
def area2 (ax ay bx by_ cx cy : Q) : Q := ((bx.sub ax).mul (cy.sub ay)).sub ((cx.sub ax).mul (by_.sub ay))

/-- Twice the signed area of a stored triangle, in NDC. -/
def ndcArea (t : PVert × PVert × PVert) : Q :=
  area2 (qv t.1.x) (qv t.1.y) (qv t.2.1.x) (qv t.2.1.y) (qv t.2.2.x) (qv t.2.2.y)

/-- The strips whose bands meet a stored triangle's y extent (R314 step 5). -/
def stripsOf (t : PVert × PVert × PVert) : List Nat :=
  let ys := [qv t.1.y, qv t.2.1.y, qv t.2.2.y]
  let lo := ys.foldl Q.min (qv t.1.y)
  let hi := ys.foldl Q.max (qv t.1.y)
  (List.range 16).filter (fun k => lo.le ⟨(k : Int) + 1 - 8, 8⟩ && (⟨(k : Int) - 8, 8⟩ : Q).le hi)

/-- Add to a saturating 32-bit count. -/
def bumpBy (n : Nat) (x : W32) : W32 := w32 (min 0xFFFFFFFF (x.toNat + n))

/-- Append a polygon for one strip, unless it would pass BINBYTES (R314 step 5). -/
def appendOne (cap : Nat) (p : Poly) (v : View) : View :=
  let odd := v.g % 2 == 1
  let b := if odd then v.bin1 else v.bin0
  if b.bytes + 64 ≤ cap then
    let b1 : Bin := { b with polys := b.polys ++ [p], bytes := b.bytes + 64 }
    if odd then { v with bin1 := b1 } else { v with bin0 := b1 }
  else { v with vstat := v.vstat ||| 2#3, drops := bumpBy 1 v.drops }

/-- The stored polygon of a primitive: none where step 4 drops it whole, with one count in DROPS. A vertex with w 0, or of which a
stored value is not finite, drops the whole clipped polygon, fan triangles that do not use it among them; zero area and appends are
judged by the triangle of the fan (DESIGN CHOICE, log 182). -/
def polygonOf (r : ViewRec) (p : Prim) : Option (List PVert) :=
  match project r.matrix p.a, project r.matrix p.b, project r.matrix p.c with
  | some a, some b, some c =>
    match (clipAll [a, b, c]).bind (fun cs => allSome (cs.map stored)) with
    | some vs => if vs.length < 3 then none else some vs
    | none => none
  | _, _, _ => none

/-- The VAM processes a primitive for a view (R314). A view without an admitted record takes nothing. -/
def vamView (p : Prim) (v : View) : View :=
  match (if v.admitted then v.recOk else none) with
  | none => v
  | some r =>
    match polygonOf r p with
    | none => { v with drops := bumpBy 1 v.drops }
    | some vs =>
      (fanOf vs).foldl (fun v t =>
        if (ndcArea t).n = 0 then { v with drops := bumpBy 1 v.drops }
        else (stripsOf t).foldl (fun v k =>
          appendOne r.binbytes { strip := k, a := t.1, b := t.2.1, c := t.2.2, word := p.word } v) v) v

/-! ### Rasterisation (R316, R317) -/

/-- A warped corner: u and v, rounded, and the stored z/w and 1/w. -/
structure Corner where
  u : Q
  v : Q
  z : Q
  q : Q
deriving DecidableEq, Repr

/-- A stored vertex warped by a strip's grid (R316). -/
def cornerOf (g : List W32 × List W32) (p : PVert) : Corner :=
  { u := qv (q32 (warpQ g.1 (qv p.x))), v := qv (q32 (warpQ g.2 (qv p.y))), z := qv p.z, q := qv p.q }

/-- The edge function of a to b at a point. -/
def edgeAt (a b : Corner) (u v : Q) : Q := area2 a.u a.v b.u b.v u v

/-- A top edge or a left edge of a triangle whose third corner is `c` (R317). -/
def topLeft (a b c : Corner) : Bool :=
  if a.v.eq b.v then a.v.lt c.v
  else
    let inside := (edgeAt a b c.u c.v).n
    if a.v.lt b.v then decide (inside < 0) else decide (0 < inside)

/-- A sample of a tile buffer (R317). -/
structure Sample where
  depth : W32 := 0x3F800000
  prim : W32 := 0xFFFFFFFF
  bary : W32 := 0
  flags : W32 := 0
deriving DecidableEq, Repr

/-- One polygon at one sample point (R317). Where every q that counts there is 0, the barycentrics are 0 over 0: a free value (DESIGN
CHOICE, log 183). -/
def sampleAt (a b c : Corner) (word : W32) (u v : Q) (s : Sample) : Sample :=
  let area := area2 a.u a.v b.u b.v c.u c.v
  let e0 := (edgeAt b c u v).div area
  let e1 := (edgeAt c a u v).div area
  let e2 := (edgeAt a b u v).div area
  let inside (e : Q) (tl : Bool) : Bool := decide (0 < e.n) || (e.n == 0 && tl)
  if area.n = 0 then s
  else if inside e0 (topLeft b c a) && inside e1 (topLeft c a b) && inside e2 (topLeft a b c) then
    let d := q32 (((e0.mul a.z).add (e1.mul b.z)).add (e2.mul c.z))
    if (qv d).lt (qv s.depth) then
      let sum := ((e0.mul a.q).add (e1.mul b.q)).add (e2.mul c.q)
      let f (e : Q) (k : Corner) : Nat := if sum.n = 0 then (Config.baryFree word).toNat else qRound fF16 ((e.mul k.q).div sum)
      { depth := d, prim := word, bary := w32 (f e1 b + 65536 * f e2 c), flags := if 0 < area.n then 3 else 1 }
    else s
  else s

/-- A sample of a tile, after every polygon of the bin for the strip (R317). -/
def sampleOf (ps : List Poly) (g : List W32 × List W32) (tx ty i j : Nat) : Sample :=
  let u : Q := ⟨2 * (32 * tx + i : Nat) + 1, 2⟩
  let v : Q := ⟨2 * (32 * ty + j : Nat) + 1, 2⟩
  ps.foldl (fun s p => sampleAt (cornerOf g p.a) (cornerOf g p.b) (cornerOf g p.c) p.word u v s) {}

/-- The 16 bytes of a sample as two 8-byte words (R317). -/
def Sample.words (s : Sample) : List Nat :=
  [s.depth.toNat + 2 ^ 32 * s.prim.toNat, s.bary.toNat + 2 ^ 32 * s.flags.toNat]

/-- The samples of a tile, row by row. -/
def rasterTile (b : Bin) (strip : Nat) (g : List W32 × List W32) (tx ty : Nat) : List Sample :=
  let ps := b.polys.filter (fun p => p.strip == strip)
  (List.range 1024).map (fun n => sampleOf ps g tx ty (n % 32) (n / 32))

end Sys2Proof.Machine
end

