-- ==== Sys2Proof/Machine/Display.lean ====
section
/-! DEFINITION. The VTB and the DSR: the register block (R305, R307), the strips' windows, deadlines and outputs (R306,
R315, R316, R321-R323), tile buffers (R316, R325) and the display events. -/

namespace Sys2Proof.Machine

/-! ### Tile buffers (R316, R325) -/

/-- Write a sample of a tile buffer. -/
def writeSample (seg : Nat) (s : State) (n : Nat) (x : Sample) : State := storeWords s (scratchKey seg (16 * n)) x.words

/-- The tile holds a buffer of the WRS. -/
def VTile.holds (t : VTile) : Bool := t.bound && (t.st == .filling || t.st == .finished)

/-- The buffers of some tiles return to the heads of their hand-in lists (R316). -/
def returnBuffers (p : VTile → Bool) (s : State) : State :=
  let back := s.tiles.filter (fun t => p t && t.holds)
  back.foldr (fun t s => s.setCluster t.cluster { s.cluster t.cluster with hand := ⟨t.wg, t.h⟩ :: (s.cluster t.cluster).hand }) s

/-- Withdraw tiles in every state (R307). -/
def withdrawTiles (p : VTile → Bool) (s : State) : State :=
  let s1 := returnBuffers p s
  placeAll { s1 with tiles := s1.tiles.filter (fun t => !p t) }

/-! ### The register block (R305, R307) -/

/-- An output's strip time and line period. -/
def Out.st (o : Out) : Nat := bits o.runTiming 23 0
def Out.linecyc (o : Out) : Nat := bits o.runTiming 39 24

/-- What an output's registers alone reject (R305). -/
def outRejected (ctl timing : W64) : Bool :=
  let st := bits timing 23 0
  let lc := bits timing 39 24
  st < 260416 || 1048575 < st || (ctl.getLsbD 1 && (bits ctl 15 8 < 128 || 192 < bits ctl 15 8)) || lc == 0 ||
    st % lc != 0 || bits ctl 3 2 == 3

/-- The current frame's number of an output; frames begun are one more (R306). -/
def Out.frame (o : Out) : Nat := (o.nW - 1) / 16
def Out.begun (o : Out) : Nat := (o.nW + 15) / 16

/-- A frame is held: the current one of a running output, whose latest window has opened, or the one before it (R319). -/
def Out.holds (o : Out) (f : Nat) : Bool := o.run && 0 < o.nW && f ≤ o.frame && o.frame ≤ f + 1

/-- The deadline of a tile's strip has come, although its step may still be due (R335). -/
def overdue (s : State) (t : VTile) : Bool :=
  let o := s.out t.out
  o.f0 + (16 * t.frame + t.strip + 1) * o.st ≤ s.dclk

/-- A view is enabled in effect, on an output (R307). -/
def View.active (v : View) (o : Nat) : Bool := v.on && v.out == o && v.zeroFrom.isNone

/-- The host writes VCTL of a view (R305, R307, R315): its own EN makes G 0, and that of its output does not (log 179). -/
def writeVctl (n : Nat) (x : W64) (s : State) : State :=
  let v := s.view n
  let x1 := x &&& ~~~0x38#64
  let was := v.vctl.getLsbD 0
  let v1 : View := { v with vctl := x1 }
  if !was && x1.getLsbD 0 then
    s.setView n { v1 with
      subst := 0, late := 0, drops := 0, lat := v.lat.map (fun e => (e.1, { e.2 with valid := false })), g := 0, closes := 0
      deferred := false, bin0 := {}, bin1 := {} }
  else if was && !x1.getLsbD 0 then
    withdrawTiles (fun t => t.view == n) (s.setView n { v1 with
      admitted := false, zeroFrom := if v.on then some (v.zeroFrom.getD (s.out v.out).nW) else none })
  else s.setView n v1

/-- The grids that a view keeps of an output are those from frame f on (R310, R328). -/
def View.keepGrids (v : View) (out f : Nat) : View := { v with grids := v.grids.filter (fun g => g.out != out || f ≤ g.frame) }

/-- An output stops: every tile that it has dealt is withdrawn, and its grids are no longer held (R307). Its views stand admitted
no more, for the sum of rates (R309, log 177) and for close arrivals (R315, log 178). -/
def stopOut (n : Nat) (s : State) : State :=
  let s1 := withdrawTiles (fun t => t.out == n) s
  let s2 := (List.range 16).foldl (fun s i =>
    let v : View := { s.view i with grids := (s.view i).grids.filter (fun g => g.out != n) }
    s.setView i (if v.on && v.out == n then { v with on := false, admitted := false } else v)) s1
  s2.setOut n { s2.out n with run := false, sending := false, line := none, staged := [], pixels := [], vtotal := 0 }

/-- The host writes OUT_CTL (R305-R307). -/
def writeOutCtl (n : Nat) (x : W64) (s : State) : State :=
  let o := s.out n
  let x1 := x &&& 0xFF0F#64
  let s1 := s.setOut n { o with ctl := x1 }
  if !o.ctl.getLsbD 0 && x1.getLsbD 0 then
    let bad := outRejected x1 o.timing
    s1.setOut n { o with ctl := x1, runCtl := x1, runTiming := o.timing, run := !bad, err := o.err || bad, f0 := s.dclk
                         nW := 0, nD := 0, nO := 0, bad := false, sending := false, line := none, staged := [], pixels := [], vtotal := 0 }
  else if o.ctl.getLsbD 0 && !x1.getLsbD 0 then stopOut n s1
  else s1

/-- The host writes GAZE_IN (R307). -/
def writeGaze (n : Nat) (x : W64) (s : State) : State :=
  let v := s.view n
  s.setView n { v with gazeIn := x, gazeAt := s.dclk, gazeOld := if v.gazeAt = s.dclk then v.gazeOld else v.gazeIn }

/-- A host write to the VTB's block, 8 bytes at an offset (R305). -/
def writeVtb (off : Nat) (x : W64) (s : State) : State :=
  if off < 0x400 then
    let n := off / 0x40
    let v := s.view n
    match off % 0x40 with
    | 0x00 => writeVctl n x s
    | 0x08 => writeGaze n x s
    | 0x10 => s.setView n { v with reproj := x &&& 0xFFFFFFFF#64 }
    | 0x18 => s.setView n { v with vstat := v.vstat &&& ~~~(x.truncate 3) }
    | _ => s
  else if off < 0x500 then
    let n := (off - 0x400) / 0x40
    let o := s.out n
    match off % 0x40 with
    | 0x00 => writeOutCtl n x s
    | 0x08 => s.setOut n { o with timing := x &&& 0xFFFFFFFFFF#64 }
    | 0x18 => s.setOut n { o with err := o.err && !x.getLsbD 1 }
    | _ => s
  else s

/-- A host read of the VTB's block (R305). -/
def readVtb (off : Nat) (s : State) : W64 :=
  if off < 0x400 then
    let v := s.view (off / 0x40)
    match off % 0x40 with
    | 0x00 => v.vctl
    | 0x08 => v.gazeIn
    | 0x10 => v.reproj
    | 0x18 => v.vstat.zeroExtend 64
    | 0x20 => pairOf v.subst v.late
    | 0x28 => zx v.drops
    | _ => 0
  else if off < 0x500 then
    let o := s.out ((off - 0x400) / 0x40)
    match off % 0x40 with
    | 0x00 => o.ctl
    | 0x08 => o.timing
    | 0x10 => w64 (o.begun % 2 ^ 32)
    | 0x18 => w64 ((if o.link then 1 else 0) + (if o.err then 2 else 0))
    | _ => 0
  else 0

/-! ### W(f, 0): records, admission and geometry (R304, R305, R307-R309, R315) -/

/-- Empty the bin of a geometry frame (R315). -/
def View.emptyBin (v : View) (g : Nat) : View := if g % 2 = 0 then { v with bin0 := {} } else { v with bin1 := {} }

/-- What W(f, 0) does to a view's geometry frame (R315): it empties the bin that a rise to f + 1 has left as it was while
emission stalled. -/
def View.openFrame (v : View) (f : Nat) : View :=
  if v.g < f then ({ v with g := f, closes := 0, deferred := false } : View).emptyBin f
  else if v.deferred && v.g ≤ f + 1 then ({ v with deferred := false } : View).emptyBin v.g
  else v

/-- The rates of the enabled views below `n` that stand admitted, in pixels per display cycle of a strip (R309). -/
def admittedRate (s : State) (n : Nat) : Q :=
  (List.range n).foldl (fun q i =>
    let v := s.view i
    if v.admitted && v.vctl.getLsbD 0 then q.add ⟨v.pix, v.per⟩ else q) ⟨0, 1⟩

/-- The record that a view names, with its lens mesh (R308, R322). -/
def readRec (s : State) (v : View) : List Byte × ViewRec :=
  let at_ := bits v.vctl 63 6 * 64
  let bs := loadBytes s at_ 320
  let mesh := field bs 0x80 8
  (bs, { viewRecOf bs ((List.range 1089).map (fun i => w64 (rdMem s.mem (mesh + 8 * i) 8))) with addr := at_, raw := bs })

/-- The part of W(f, 0) that concerns view n of output `o` (R307, R309, R315). -/
def beginView (o st f n : Nat) (s : State) : State :=
  let v := s.view n
  let mine := v.on && v.out == o
  if v.vctl.getLsbD 0 && bits v.vctl 2 1 == o && (mine || !v.on) then
    let r := readRec s v
    let v1 := v.openFrame f
    if viewRecOk r.1 r.2 (liveClusters s).length &&
        ((admittedRate s n).add ⟨(r.2.ew * r.2.eh : Nat), st⟩).le ⟨256, 1⟩ then
      s.setView n { v1 with
        on := true, out := o, recOk := some r.2, rdx := v.reproj.extractLsb' 0 16, rdy := v.reproj.extractLsb' 16 16
        zeroFrom := none, spoilt := false, admitted := true, pix := r.2.ew * r.2.eh, per := st }
    else s.setView n { v1 with on := false, recOk := none, admitted := false, zeroFrom := none, vstat := v.vstat ||| 1#3 }
  else if mine then
    let s1 := s.setView n { v with on := false, recOk := none, admitted := false, zeroFrom := none }
    { s1 with tiles := s1.tiles.filter (fun t => t.view != n) }
  else s

/-- The views of an output in the current frame, ascending, with their records. -/
def layout (s : State) (o : Nat) : List (Nat × View × ViewRec) :=
  (List.range 16).filterMap (fun n =>
    let v := s.view n
    if v.on && v.out == o then v.recOk.map (fun r => (n, v, r)) else none)

/-- The views of an output reject it for the frame (R304, R305). -/
def frameRejected (o : Out) (ls : List (Nat × View × ViewRec)) : Bool :=
  let width := ls.foldl (fun n e => n + e.2.2.ew) 0
  let eh := (ls.head?.map (fun e => e.2.2.eh)).getD 0
  let bpp := if o.runCtl.getLsbD 1 then bits o.runCtl 15 8 else 384
  let rate := match bits o.runCtl 3 2 with | 0 => 20 | 1 => 27 | _ => 40
  8192 < width || ls.any (fun e => e.2.2.eh != eh) || o.st < eh / 16 * o.linecyc ||
    o.linecyc * 4 * rate * 128 * 16 < width * bpp * 132 * 2

/-- W(f, 0) of output `n` (R304, R305, R307, R309, R315). -/
def beginFrame (n f : Nat) (s : State) : State :=
  let st := (s.out n).st
  let s0 : State := { s with tiles := s.tiles.filter (fun t => !(t.out == n && t.frame + 1 < f)) }
  let s1 := (List.range 16).foldl (fun s v => beginView n st f v (s.setView v ((s.view v).keepGrids n (f - 1)))) s0
  let bad := frameRejected (s1.out n) (layout s1 n)
  s1.setOut n { s1.out n with bad := bad, err := (s1.out n).err || bad }

/-! ### W(f, k): latches, grids and dealing (R306, R310, R315, R316) -/

/-- The clusters of RCLUST, ascending (R316). -/
def rclustOf (r : ViewRec) : List Nat := (List.range 32).filter (fun i => r.rclust.getLsbD i)

/-- Bin f mod 2 closed with G = f (R315). -/
def View.closedFor (v : View) (f : Nat) : Bool := (if f % 2 = 0 then v.bin0 else v.bin1).closed == some f

/-- The part of W(f, k) that concerns view n. -/
def openView (f k n : Nat) (r : ViewRec) (s : State) : State :=
  let v := s.view n
  let gaze := if v.gazeAt = s.dclk then v.gazeOld else v.gazeIn
  let gx := lo32 gaze
  let gy := hi32 gaze
  let g := r.grid gx gy
  let l : Latch := { gx := gx, gy := gy, frame := f, valid := true }
  let v1 : View := { v with
    spoilt := v.spoils r s, lat := put {} v.lat k l
    grids := v.grids ++ [{ out := v.out, frame := f, strip := k, u := g.1, v := g.2 }] }
  if v.closedFor f then
    let cs := rclustOf r
    let ts := (tilesOf r n f k g).mapIdx (fun i t => { t with out := v.out, cluster := cs.getD (i % cs.length) 0 })
    { s.setView n v1 with tiles := s.tiles ++ ts }
  else s.setView n { v1 with vstat := v1.vstat ||| 4#3 }

/-- The window of strip number m = 16 f + k of output n opens. -/
def openWindow (n : Nat) (s : State) : State :=
  let m := (s.out n).nW
  let s1 := s.setOut n { s.out n with nW := m + 1 }
  let s2 := if m % 16 = 0 then beginFrame n (m / 16) s1 else s1
  placeAll ((layout s2 n).foldl (fun s e => if e.2.1.active n then openView (m / 16) (m % 16) e.1 e.2.2 s else s) s2)

/-! ### D(f, k): substitution and lens correction (R321, R322) -/

/-- Clamp to a range. -/
def clampI (x lo hi : Int) : Int := max lo (min x hi)

/-- The memory key of an eye pixel. -/
def eyeKey (r : ViewRec) (frame x y : Nat) : Nat := r.eye frame + r.epitch * y + 4 * x

/-- Substitute one tile (R321). -/
def substTile (v : View) (r : ViewRec) (s : State) (t : VTile) : State :=
  let f := t.frame
  let sp := v.spoils r s
  let k := s.free
  tookFree sp <| (List.range (t.pw * t.ph)).foldl (fun s n =>
    let x := t.px0 + n % t.pw
    let y := t.py0 + n / t.pw
    let ox := clampI ((x : Int) - v.rdx.toInt) 0 ((r.ew : Int) - 1)
    let oy := clampI ((y : Int) - v.rdy.toInt) 0 ((r.eh : Int) - 1)
    let p := freePixel sp k t.view x y (if f = 0 then 0 else w32 (rdMem s.mem (eyeKey r (f + 1) ox.toNat oy.toNat) 4))
    storeMem (eyeKey r f x y) 4 (w64 p.toNat) false s) s

/-- The grid of a strip of a frame of an output (R310). -/
def View.gridOf (v : View) (out f k : Nat) : Grid :=
  (v.grids.find? (fun x => x.out == out && x.frame == f && x.strip == k)).getD {}

/-- Substitute what a strip of view n has not had in time (R321). -/
def substView (f k n : Nat) (r : ViewRec) (s : State) : State :=
  let v := s.view n
  let mine (t : VTile) : Bool := t.view == n && t.out == v.out && t.frame == f && t.strip == k
  let late (t : VTile) : Bool := mine t && !(t.st == .done)
  let g := v.gridOf v.out f k
  let ts := if s.tiles.any mine then s.tiles.filter late else tilesOf r n f k (g.u, g.v)
  let s1 := returnBuffers late s
  let s2 : State := { s1 with tiles := s1.tiles.map (fun t => if late t then { t with st := .substituted, bound := false } else t) }
  (ts.foldl (substTile v r) s2).setView n { v with subst := bumpBy ts.length v.subst }

/-- One coordinate of a lens sample: the bilinear mix of four mesh values, or 0 where one is not finite (R322). -/
def lensMix (p00 p10 p01 p11 : W32) (fm fn : Q) : Q :=
  let one : Q := ⟨1, 1⟩
  match qF32 p00, qF32 p10, qF32 p01, qF32 p11 with
  | some a, some b, some c, some d =>
    let top := (a.mul (one.sub fm)).add (b.mul fm)
    let bot := (c.mul (one.sub fm)).add (d.mul fm)
    (top.mul (one.sub fn)).add (bot.mul fn)
  | _, _, _, _ => ⟨0, 1⟩

/-- A lens coordinate in 256ths of a pixel, between two half pixels (R322). -/
def lensClamp (e : Q) (lo hi : Nat) : Nat :=
  (clampI (e.mul ⟨256, 1⟩).rne ((256 * lo + 128 : Nat) : Int) ((256 * hi : Nat) - 128 : Int)).toNat

/-- Output pixel (ox, oy) of a view, as R, G and B in ascending bytes (R322). -/
def lensPixel (r : ViewRec) (f k ox oy : Nat) (s : State) : W32 :=
  let px : Q := ⟨32 * (2 * (ox : Int) + 1), 2 * r.ew⟩
  let py : Q := ⟨32 * (2 * (oy : Int) + 1), 2 * r.eh⟩
  let m := min px.floor.toNat 31
  let n := min py.floor.toNat 31
  let fm := px.sub (Q.ofInt m)
  let fn := py.sub (Q.ofInt n)
  let pt (i j : Nat) : W64 := r.points.getD (33 * (n + j) + m + i) 0
  let ex := lensMix (lo32 (pt 0 0)) (lo32 (pt 1 0)) (lo32 (pt 0 1)) (lo32 (pt 1 1)) fm fn
  let ey := lensMix (hi32 (pt 0 0)) (hi32 (pt 1 0)) (hi32 (pt 0 1)) (hi32 (pt 1 1)) fm fn
  let top := k * r.rows
  let x := lensClamp ex 0 r.ew - 128
  let y := lensClamp ey top (top + r.rows) - 128
  let fx := x % 256
  let fy := y % 256
  let c (i j : Nat) : Nat := rdMem s.mem (eyeKey r f (min (x / 256 + i) (r.ew - 1)) (min (y / 256 + j) (top + r.rows - 1))) 4
  let chan (b : Nat) : Nat :=
    let at_ (v : Nat) : Nat := v / 2 ^ b % 256
    let sum := (256 - fx) * (256 - fy) * at_ (c 0 0) + fx * (256 - fy) * at_ (c 1 0) + (256 - fx) * fy * at_ (c 0 1) +
      fx * fy * at_ (c 1 1)
    (⟨sum, 65536⟩ : Q).rne.toNat
  w32 (chan 0 + 256 * chan 8 + 65536 * chan 16)

/-- The pixels of view n in one output line (R307, R322). -/
def lensLine (n : Nat) (v : View) (r : ViewRec) (sp : Bool) (m y : Nat) (s : State) : List W32 :=
  let zero := match v.zeroFrom with | some z => decide (z ≤ m) | none => false
  (List.range r.ew).map (fun x => if zero then 0 else freePixel sp s.free n x y (lensPixel r (m / 16) (m % 16) x y s))

/-- The corrected lines of strip number m (R321, R322). -/
def stageStrip (n m : Nat) (s : State) : State :=
  let o := s.out n
  let ls := (layout s n).map (fun e => (e, e.2.1.spoils e.2.2 s))
  if o.bad then s
  else
    let rows := (ls.head?.map (fun e => e.1.2.2.rows)).getD 0
    tookFree (ls.any (·.2)) (s.setOut n { o with staged := o.staged ++ (List.range rows).map (fun i =>
      (m, i, ls.flatMap (fun e => lensLine e.1.1 e.1.2.1 e.1.2.2 e.2 m (m % 16 * rows + i) s))) })

/-- The deadline of strip number m of output n. -/
def meetDeadline (n : Nat) (s : State) : State :=
  let m := (s.out n).nD
  let s1 := s.setOut n { s.out n with nD := m + 1 }
  let s2 := (layout s1 n).foldl (fun s e => if e.2.1.active n then substView (m / 16) (m % 16) e.1 e.2.2 s else s) s1
  stageStrip n m (placeAll s2)

/-! ### O(f, k) and lines (R306) -/

/-- Strip number m of output n falls due at the connector; a frame that its views reject is not sent (R304). -/
def outputStrip (n : Nat) (s : State) : State :=
  let o := s.out n
  let m := o.nO
  let sending := if m % 16 = 0 then o.link && !o.bad else o.sending && o.link
  let mine := o.staged.filter (fun x => x.1 == m)
  let o1 : Out := { o with nO := m + 1, sending := sending, vtotal := if sending then 16 * o.st / o.linecyc else 0 }
  match mine with
  | (_, _, px) :: rest =>
    if sending then s.setOut n { o1 with line := some 0, pixels := px, staged := rest ++ o.staged.filter (fun x => x.1 != m) }
    else s.setOut n { o1 with line := none, pixels := [], staged := o.staged.filter (fun x => x.1 != m) }
  | [] => s.setOut n { o1 with line := none, pixels := [] }

/-- The next line of the strip that is being sent begins, or its blanking. -/
def nextLine (n : Nat) (s : State) : State :=
  let o := s.out n
  match o.line with
  | none => s
  | some r =>
    match o.staged with
    | (m, i, px) :: rest =>
      if m + 1 = o.nO ∧ i = r + 1 ∧ o.link then s.setOut n { o with line := some i, pixels := px, staged := rest }
      else s.setOut n { o with line := none, pixels := [], staged := o.staged.filter (fun x => x.1 + 1 != o.nO) }
    | [] => s.setOut n { o with line := none, pixels := [] }

/-! ### Moments (R306) -/

def Out.windowAt (o : Out) : Nat := o.f0 + o.nW * o.st
def Out.deadlineAt (o : Out) : Nat := o.f0 + (o.nD + 1) * o.st
def Out.outputAt (o : Out) : Nat := o.f0 + (o.nO + 1) * o.st + 64000
def Out.lineAt (o : Out) : Nat := o.f0 + o.nO * o.st + 64000 + ((o.line.getD 0) + 1) * o.linecyc

/-- What falls due next at an output, and when: a deadline comes before the window that opens with it (R335). -/
def Out.next (o : Out) (n : Nat) : List (Nat × Event) :=
  if o.run then
    (if o.nW = o.nD then [(o.windowAt, .stripWindowOpen n)] else [(o.deadlineAt, .stripDeadline n)]) ++
      (if o.line.isSome then [(o.lineAt, .displayLineStart n)] else []) ++
      (if o.nO < o.nD then [(o.outputAt, .stripOutput n)] else [])
  else []

/-- What falls due next over the four outputs. -/
def displayNext (s : State) : List (Nat × Event) := (List.range 4).flatMap (fun n => (s.out n).next n)

/-- The first display event that is due (R306). -/
def displayDue (s : State) : Option Event := ((displayNext s).find? (fun e => e.1 ≤ s.dclk)).map (·.2)

/-- The display clock advances, at most to the next moment (R303, R306). -/
def displayTick (n : Nat) (s : State) : State :=
  let d := (displayNext s).foldl (fun d e => min d (e.1 - s.dclk)) n
  { s with dclk := s.dclk + d }

/-- An event at an output that takes place when it is due. -/
def whenDue (e : Event) (f : State → State) (s : State) : Host.Outcome State Fault Refusal :=
  .next (if (displayNext s).any (fun x => x.2 == e && x.1 ≤ s.dclk) then f s else s)

/-- STRIP_WINDOW_OPEN (R306). -/
def execStripWindowOpen (out : Nat) (s : State) : Host.Outcome State Fault Refusal :=
  whenDue (.stripWindowOpen out) (openWindow out) s
/-- STRIP_DEADLINE (R321). -/
def execStripDeadline (out : Nat) (s : State) : Host.Outcome State Fault Refusal :=
  whenDue (.stripDeadline out) (meetDeadline out) s
/-- STRIP_OUTPUT (R306). -/
def execStripOutput (out : Nat) (s : State) : Host.Outcome State Fault Refusal :=
  whenDue (.stripOutput out) (outputStrip out) s
/-- DISPLAY_LINE_START (R306). -/
def execDisplayLineStart (out : Nat) (s : State) : Host.Outcome State Fault Refusal :=
  whenDue (.displayLineStart out) (nextLine out) s
/-- The link of an output is trained or not: without one nothing is sent, and one that trains later begins with the next
O(f, 0) (R306). -/
def Out.setLink (o : Out) (up : Bool) : Out :=
  if up then { o with link := true, sending := o.sending && o.link }
  else { o with link := false, sending := false, line := none, pixels := [], vtotal := 0 }

/-- DP_HOT_PLUG (R303, R305): a sink is attached or removed; its link is not trained then. -/
def execDpHotPlug (out : Nat) (attached : Bool) (s : State) : Host.Outcome State Fault Refusal :=
  let o := s.out out
  .next (if out < 4 then s.setOut out ({ o with attached := attached }.setLink (attached && o.link)) else s)
/-- LINK_TRAINING_DONE (R303, R305). -/
def execLinkTrainingDone (out : Nat) (up : Bool) (s : State) : Host.Outcome State Fault Refusal :=
  let o := s.out out
  .next (if out < 4 then s.setOut out (o.setLink (up && o.attached)) else s)
/-- VIEW_ENABLE: a write of VCTL with EN (R307). -/
def execViewEnable (view : Nat) (value : BitVec 64) (s : State) : Host.Outcome State Fault Refusal :=
  .next (if view < 16 then writeVctl view (value ||| 1#64) s else s)
/-- VIEW_DISABLE: a write of VCTL without EN (R307). -/
def execViewDisable (view : Nat) (value : BitVec 64) (s : State) : Host.Outcome State Fault Refusal :=
  .next (if view < 16 then writeVctl view (value &&& ~~~1#64) s else s)
/-- OUTPUT_ENABLE: a write of OUT_CTL with EN (R306, R307). -/
def execOutputEnable (out : Nat) (value : BitVec 64) (s : State) : Host.Outcome State Fault Refusal :=
  .next (if out < 4 then writeOutCtl out (value ||| 1#64) s else s)
/-- OUTPUT_DISABLE: a write of OUT_CTL without EN (R307). -/
def execOutputDisable (out : Nat) (value : BitVec 64) (s : State) : Host.Outcome State Fault Refusal :=
  .next (if out < 4 then writeOutCtl out (value &&& ~~~1#64) s else s)

end Sys2Proof.Machine
end

