-- ==== Sys2Proof/Machine/Digest.lean ====
section
/-! DEFINITION. SHA-256, the digest of the measurements of R397: the standard's constants, message schedule and rounds, on
lists of bytes. -/

namespace Sys2Proof.Machine

/-- The `k`-th root of `n` rounded down, found one bit at a time from bit `b - 1` down, over the bits `r` has so far. -/
def rootDown (k n : Nat) : Nat → Nat → Nat
  | 0, r => r
  | b + 1, r => rootDown k n b (if (r + 2 ^ b) ^ k ≤ n then r + 2 ^ b else r)

/-- The first 32 bits after the point of the `k`-th root of `p`: the root of `p * 2 ^ (32 * k)` modulo `2 ^ 32`. -/
def rootFrac (k p : Nat) : W32 := BitVec.ofNat 32 (rootDown k (p * 2 ^ (32 * k)) 40 0)

/-- The 64 primes below 312. -/
def primes64 : List Nat :=
  (List.range 312).filter (fun p => decide (2 ≤ p) && (List.range 18).all (fun d => decide (d < 2 ∨ p ≤ d) || p % d != 0))

/-- The round constants: the fractions of the cube roots of the first 64 primes. -/
def shaK : List W32 := primes64.map (rootFrac 3)

/-- The eight words before the first block: the fractions of the square roots of the first eight primes. -/
def shaStart : List W32 := (primes64.take 8).map (rootFrac 2)

/-- The exclusive or of three right rotations. -/
def shaMix (x : W32) (i j k : Nat) : W32 := [i, j, k].foldl (fun y n => y ^^^ x.rotateRight n) 0

/-- The same with the last rotation a shift, as the schedule has it. -/
def shaMixS (x : W32) (i j k : Nat) : W32 := x.rotateRight i ^^^ x.rotateRight j ^^^ x >>> k

/-- The schedule grows by a word: the words 16, 15, 7 and 2 places back make it. -/
def shaNext (ws : List W32) : List W32 :=
  let back := fun k => ws.getD (ws.length - k) 0
  ws ++ [shaMixS (back 2) 17 19 10 + back 7 + shaMixS (back 15) 7 18 3 + back 16]

/-- One round over the eight working words: all move down one place, the first and the fifth take in the round's word. -/
def shaRound (h : List W32) (kw : W32) : List W32 :=
  let at' := fun k => h.getD k 0
  let pick := (at' 4 &&& at' 5) ||| (~~~at' 4 &&& at' 6)
  let most := (at' 0 &&& (at' 1 ||| at' 2)) ||| (at' 1 &&& at' 2)
  let into := at' 7 + kw + shaMix (at' 4) 6 11 25 + pick
  (into + shaMix (at' 0) 2 13 22 + most) :: (h.take 7).set 3 (at' 3 + into)

/-- One block of 16 words. -/
def shaBlock (h ws : List W32) : List W32 :=
  let all := (List.range 48).foldl (fun l _ => shaNext l) ws
  let out := (shaK.zip all).foldl (fun x e => shaRound x (e.1 + e.2)) h
  List.zipWith (· + ·) h out

/-- Bytes as big-endian words. -/
def shaWords : List Byte → List W32
  | a :: b :: c :: d :: rest => (a ++ b ++ c ++ d) :: shaWords rest
  | _ => []

/-- A message with its padding: a 1 bit, zeros, and its length in bits. -/
def shaPad (m : List Byte) : List Byte :=
  let n := m.length
  let bits := BitVec.ofNat 64 (8 * n)
  m ++ 0x80 :: List.replicate ((119 - n % 64) % 64) 0 ++ (List.range 8).map (fun i => bits.extractLsb' (56 - 8 * i) 8)

/-- The blocks of a message in turn. -/
def shaRun : Nat → List W32 → List W32 → List W32
  | 0, h, _ => h
  | n + 1, h, ws => shaRun n (shaBlock h (ws.take 16)) (ws.drop 16)

/-- SHA-256 of some bytes. -/
def sha256 (m : List Byte) : BitVec 256 :=
  let ws := shaWords (shaPad m)
  BitVec.ofNat 256 ((shaRun (ws.length / 16) shaStart ws).foldl (fun x w => x * 2 ^ 32 + w.toNat) 0)

end Sys2Proof.Machine
end

