-- ==== Sys2Proof/Machine/GraphIns.lean ====
section
/-! DEFINITION. Geometry and tiles: VAMP, MSEMITV, MSEMITP, GAZE, RTFETCH and VTDONE, and the steps of the VAM and of the
WRS (R312-R320). -/

namespace Sys2Proof.Machine

/-! ### Geometry (R312-R315) -/

/-- The views of a mask, ascending. -/
def viewsOf (m : BitVec 16) : List Nat := (List.range 16).filter (fun i => m.getLsbD i)

/-- Emission for a view stalls until the next W(f, 0) (R315). -/
def viewStalled (s : State) (n : Nat) : Bool :=
  let v := s.view n
  v.admitted && (s.out v.out).frame + 2 ≤ v.g

/-- The VAM processes the head of a cluster's queue, unless a view of it stalls (R314, R315). -/
def vamHead (c : Nat) (s : State) : State :=
  let cl := s.cluster c
  match cl.vamq with
  | [] => s
  | p :: rest =>
    let vs := viewsOf p.views
    if vs.any (viewStalled s) then s
    else vs.foldl (fun s n => s.setView n (vamView p (s.view n))) (s.setCluster c { cl with vamq := rest })

/-- The VAM works through a cluster's queue. -/
def vamDrain (c : Nat) (s : State) : State := (s.cluster c).vamq.foldl (fun s _ => vamHead c s) s

/-- A close arrival for a view (R315). -/
def closeArrival (s : State) (n : Nat) : State :=
  let v := s.view n
  match v.recOk with
  | some r =>
    if v.admitted && v.vctl.getLsbD 0 then
      if v.closes + 1 < r.closers then s.setView n { v with closes := v.closes + 1 }
      else
        let shut (b : Bin) : Bin := { b with closed := some v.g }
        let v1 : View := if v.g % 2 = 0 then { v with bin0 := shut v.bin0 } else { v with bin1 := shut v.bin1 }
        let v2 : View := { v1 with g := v.g + 1, closes := 0 }
        s.setView n (if v2.g = (s.out v.out).frame + 2 then { v2 with deferred := true } else v2.emptyBin v2.g)
    else s
  | none => s

/-- The VAM queue of a cluster is full (R313): an empty one never is. -/
def vamFull (s : State) (c : Nat) : Bool :=
  let q := (s.cluster c).vamq
  !q.isEmpty && decide (Config.vamQueueExtra < q.length)

/-- VAMP (R312, R315). The close arrivals come after the primitives that the cluster's warps have already sent. -/
def execVamp (a : BitVec 6) (g : Bool) (s : State) : Host.Outcome State Fault Refusal :=
  ({ word := wordA 0x6D 0 a 0 0 g false, guard := g, cls := .graphics, scals := [a.toNat], uses := [useS a], tx := false } : Gate).run
    (fun s act =>
      let x := (s.w.sr a.toNat).bits
      let mask : BitVec 16 := x.extractLsb' 0 16
      let start (s : State) : Res := .fall { s with w := { s.w with vmask := mask, verts := [], prims := 0 } }
      if act = 0 then .fall s
      else if bits x 63 17 ≠ 0 then trapAct 0x01 x act s
      else if (viewsOf mask).any (viewStalled s) then .wait 19 s
      else if x.getLsbD 16 then
        let s1 := vamDrain s.w.cluster s
        if (s1.cluster s1.w.cluster).vamq.isEmpty then start ((viewsOf mask).foldl closeArrival s1) else .wait 19 s1
      else start s) s

/-- DROPS of each view of the mask rises by one (R313). -/
def dropFor (s : State) : State :=
  (viewsOf s.w.vmask).foldl (fun s n => s.setView n { s.view n with drops := bumpBy 1 (s.view n).drops }) s

/-- MSEMITV in lane l (R313). -/
def emitVertex (a b : Nat) (s : State) (l : Nat) : State :=
  let i := (s.w.vl b l).bits.toNat
  if 255 < i then dropFor s
  else
    let p : Vertex := { x := (s.w.vl a l).bits, y := (s.w.vl (a + 1) l).bits, z := (s.w.vl (a + 2) l).bits }
    { s with w := { s.w with verts := put none s.w.verts i (some p) } }

/-- MSEMITP in lane l (R313). -/
def emitPrim (a b : Nat) (s : State) (l : Nat) : State :=
  let i := (s.w.vl a l).bits
  let at_ (lo : Nat) : Option Vertex := look none s.w.verts (bits32 i (lo + 7) lo)
  match at_ 0, at_ 8, at_ 16 with
  | some x, some y, some z =>
    if 512 ≤ s.w.prims then dropFor s
    else
      let p : Prim := { wid := s.w.wid, views := s.w.vmask, a := x, b := y, c := z, word := (s.w.vl b l).bits }
      let c := s.w.cluster
      let s1 := s.setCluster c { s.cluster c with vamq := (s.cluster c).vamq ++ [p] }
      { s1 with w := { s1.w with prims := s1.w.prims + 1 } }
  | _, _, _ => dropFor s

/-- MSEMITV and MSEMITP (R313, R315). A full VAM queue blocks the warp (R65); a view that waits for its bin stalls the path. -/
def msemit (fn : BitVec 4) (n : Nat) (a b : BitVec 6) (g : Bool) (emit : Nat → Nat → State → Nat → State) (s : State) :
    Host.Outcome State Fault Refusal :=
  ({ word := wordA 0x6C 0 a b fn g false, guard := g, cls := .graphics, regs := [{ n := a.toNat, cnt := n }, vop1 b]
     uses := [{ n := a.toNat, cnt := n }, useV1 b], tx := false } : Gate).run
    (fun s act =>
      if act = 0 then .fall s
      else if vamFull s s.w.cluster then .block 19 s
      else if (viewsOf s.w.vmask).any (viewStalled s) then .wait 19 s
      else .fall ((lanesOf act).foldl (emit a.toNat b.toNat) s)) s

/-- MSEMITV (R313). -/
def execMsemitv (a b : BitVec 6) (g : Bool) (s : State) : Host.Outcome State Fault Refusal := msemit 0 3 a b g emitVertex s
/-- MSEMITP (R313). -/
def execMsemitp (a b : BitVec 6) (g : Bool) (s : State) : Host.Outcome State Fault Refusal := msemit 1 1 a b g emitPrim s

/-- VAM_PRIMITIVE (R314). -/
def execVamPrimitive (cluster : Nat) (s : State) : Host.Outcome State Fault Refusal := .next (vamHead cluster s)

/-! ### The WRS (R316, R317) -/

/-- A FILLING tile of a cluster is finished (R316, R317): where there are several, the first in the list of tiles, which was dealt
first. This order of finishing fixes which FINISHED tile is the oldest in R318 (DESIGN CHOICE, log 184). -/
def finishTile (c : Nat) (s : State) : State :=
  let mine (t : VTile) : Bool := t.st == .filling && t.bound && t.cluster == c
  match s.tiles.find? mine with
  | none => s
  | some t =>
    let v := s.view t.view
    let g := v.gridOf t.out t.frame t.strip
    let b := if t.frame % 2 = 0 then v.bin0 else v.bin1
    let xs := rasterTile b t.strip (g.u, g.v) t.tx t.ty
    let seg := (look {} (s.wg t.wg).handles t.h).seg
    let s1 := (xs.foldl (fun (a : Nat × State) x => (a.1 + 1, if x.flags = 0 then a.2 else writeSample seg a.2 a.1 x)) (0, s)).2
    let done (t : VTile) : VTile := { t with st := .finished, fin := s.nextFin, empty := xs.all (fun x => x.flags == 0) }
    { s1 with nextFin := s.nextFin + 1, tiles := updFirst mine done s1.tiles }

/-- WRS_TILE_FINISHED (R316). -/
def execWrsTileFinished (cluster : Nat) (s : State) : Host.Outcome State Fault Refusal := .next (finishTile cluster s)

/-! ### RTFETCH (R318) -/

/-- A buffer is handed in: it waits in a list, or holds a tile (R318). -/
def handedIn (s : State) (wg h : Nat) : Bool :=
  s.clusters.any (fun c => c.2.hand.any (fun x => x.wg == wg && x.h == h)) ||
    s.tiles.any (fun t => t.holds && t.wg == wg && t.h == h)

/-- H names a CORE-level tile buffer of the workgroup that is not handed in (R317, R318). -/
def mayHandIn (s : State) (h : Nat) : Bool :=
  let x := look {} (s.wg s.w.wg).handles h
  x.live && !x.cluster && x.rows == 32 && x.rowb == 16 && !handedIn s s.w.wg h

/-- The oldest FINISHED tile of a workgroup (R318); one whose deadline has come is not returned (R335). -/
def oldestTile (s : State) (wg : Nat) : Option VTile :=
  (s.tiles.filter (fun t => t.st == .finished && t.bound && t.wg == wg && !overdue s t)).foldl (fun (a : Option VTile) t =>
    match a with
    | none => some t
    | some u => if t.fin < u.fin then some t else some u) none

/-- The token of a tile (R318). -/
def tokenOf (t : VTile) (rank : Nat) : W64 × W64 :=
  (w64 (t.h + rank * 2 ^ 8 + t.view * 2 ^ 16 + t.strip * 2 ^ 20 + t.tx * 2 ^ 24 + t.ty * 2 ^ 32 + t.frame % 2 ^ 24 * 2 ^ 40),
    w64 (t.px0 + t.py0 * 2 ^ 16 + t.pw * 2 ^ 32 + t.ph * 2 ^ 40 + (if t.empty then 2 ^ 48 else 0)))

/-- Two tiles are one: view, output, frame, strip and place (R319). -/
def VTile.same (a b : VTile) : Bool :=
  a.view == b.view && a.out == b.out && a.frame == b.frame && a.strip == b.strip && a.tx == b.tx && a.ty == b.ty

/-- The warp takes a FINISHED tile: the buffer is no longer handed in (R318). -/
def takeTile (d : Nat) (t : VTile) (s : State) : Res :=
  let k := tokenOf t (s.wg s.w.wg).rank
  .fall { s with
    tiles := updFirst t.same (fun x => { x with st := .fetched, bound := false }) s.tiles
    w := (({ s.w with handed := none } : Warp).setS d k.1 false).setS (d + 1) k.2 false }

/-- RTFETCH once its hand-in is made: it takes a tile, waits, or finds none (R318). -/
def fetchTile (d : Nat) (nowait : Bool) (s : State) : Res :=
  match oldestTile s s.w.wg with
  | some t => takeTile d t s
  | none =>
    if nowait then
      .fall { s with w := (({ s.w with handed := none } : Warp).setS d (BitVec.allOnes 64) false).setS (d + 1) (BitVec.allOnes 64) false }
    else .block 20 s

/-- RTFETCH (R318). -/
def execRtfetch (d a : BitVec 6) (g : Bool) (s : State) : Host.Outcome State Fault Refusal :=
  ({ word := wordA 0x6F d a 0 0 g false, guard := g, cls := .graphics, scals := [d.toNat, d.toNat + 1, a.toNat], uses := [useS a]
     tx := false } : Gate).run
    (fun s act =>
      let x := (s.w.sr a.toNat).bits
      let h := bits x 5 0
      let nowait := x.getLsbD 7
      if act = 0 then .fall s
      else if s.w.block = some 20 then fetchTile d.toNat nowait s
      else if bits x 63 8 ≠ 0 then trapAct 0x01 x act s
      else if x.getLsbD 6 then
        if mayHandIn s h then
          afterAll s (fun s =>
            let c := s.w.cluster
            let g := s.wg s.w.wg
            let s1 := ({ s with w := { s.w with handed := some h } } : State).setWg s.w.wg { g with handOrder := g.handOrder.erase h ++ [h] }
            fetchTile d.toNat nowait
              (placeTiles c (s1.setCluster c { s1.cluster c with hand := (s1.cluster c).hand ++ [⟨s.w.wg, h⟩] })))
        else trapAct 0x07 x act s
      else fetchTile d.toNat nowait s) s

/-! ### VTDONE (R319) -/

/-- The tile of a held frame that a token names (R319). -/
def tileNamed (s : State) (x : W64) : Option VTile :=
  s.tiles.find? (fun t => (s.out t.out).holds t.frame && t.view == bits x 19 16 && t.strip == bits x 23 20 && t.tx == bits x 30 24 && t.ty == bits x 38 32 &&
    t.frame % 2 ^ 24 == bits x 63 40)

/-- The checks of R319 on the pixel word: its segment and offset, or the cause. -/
def pixelBlock (s : State) (t : VTile) (x : W64) : Except Nat (Nat × Nat) :=
  let off := bits x 35 16
  let pitch := 4 * bits x 47 36
  if bits x 7 6 ≠ 0 ∨ bits x 15 11 ≠ 0 ∨ bits x 63 48 ≠ 0 then .error 0x07
  else match handleOf s s.w (w64 (bits x 10 0)) with
    | none => .error 0x07
    | some (_, h) =>
      if bits x 10 8 ≠ (s.wg s.w.wg).rank then .error 0x07
      else if off % 4 ≠ 0 then .error 0x03
      else if pitch < 4 * t.pw then .error 0x01
      else if h.bytes < off + (t.ph - 1) * pitch + 4 * t.pw then .error 0x06
      else .ok (h.seg, off)

/-- The VTB reads the rows of a tile into the eye image: a poisoned word delivers its pixels as zero (R319);
where the view's record has changed within the frame its pixels are free (R307). -/
def readPixels (t : VTile) (r : ViewRec) (base pitch : Nat) (s : State) : State :=
  let src (n : Nat) : Nat := base + n / t.pw * pitch + 4 * (n % t.pw)
  let ns := List.range (t.pw * t.ph)
  let sp := (s.view t.view).spoils r s
  let badWords := ns.foldl (fun (ws : List Nat) n =>
    if isBad s (src n) && !ws.contains (src n / 8) then (src n / 8) :: ws else ws) []
  let s1 := ns.foldl (fun st n =>
    let x := t.px0 + n % t.pw
    let y := t.py0 + n / t.pw
    let p := freePixel sp s.free t.view x y (if isBad s (src n) then 0 else w32 (rdMem s.mem (src n) 4))
    storeMem (eyeKey r t.frame x y) 4 (w64 p.toNat) false st) s
  tookFree sp (badWords.foldl (fun s _ => logUnc s.w.cluster s) s1)

/-- The step at the VTB, and the read that follows it (R316, R319, R335). -/
def tileDone (d : Nat) (t : VTile) (base pitch : Nat) (s : State) : Res :=
  let answer (n : Nat) (s : State) : Res := .fall { s with w := s.w.setS d (w64 n) false }
  let mark (s : State) : State := { s with tiles := updFirst t.same (fun x => { x with named := true }) s.tiles }
  if t.named || t.st == .done then answer 2 s
  else if t.st == .substituted || overdue s t then
    let v := s.view t.view
    answer 1 (mark (s.setView t.view { v with late := bumpBy 1 v.late }))
  else
    let s1 := returnBuffers t.same s
    let s2 : State := { s1 with tiles := updFirst t.same (fun x => { x with st := .done, bound := false, named := true }) s1.tiles }
    answer 0 (readPixels t ((s.view t.view).recOk.getD {}) base pitch (placeTiles t.cluster s2))

/-- VTDONE (R319). -/
def execVtdone (d a : BitVec 6) (g : Bool) (s : State) : Host.Outcome State Fault Refusal :=
  ({ word := wordA 0x73 d a 0 0 g false, guard := g, cls := .graphics, scals := [d.toNat, a.toNat, a.toNat + 1], uses := [useS a]
     tx := false, sync := true } : Gate).run
    (fun s act =>
      let px := s.w.sr (a.toNat + 1)
      if act = 0 then .fall s
      else match tileNamed s (s.w.sr a.toNat).bits with
        | none => .fall { s with w := s.w.setS d.toNat 3 false }
        | some t =>
          if px.bad then trapAct 0x15 (w64 (256 + a.toNat)) act s
          else match pixelBlock s t px.bits with
            | .error c => trapAct c px.bits act s
            | .ok (seg, off) => afterAll s (tileDone d.toNat t (scratchKey seg off) (4 * bits px.bits 47 36))) s

/-! ### GAZE (R320) -/

/-- GAZE (R320). -/
def execGaze (d a : BitVec 6) (g : Bool) (s : State) : Host.Outcome State Fault Refusal :=
  ({ word := wordA 0x6E d a 0 0 g false, guard := g, cls := .graphics, scals := [d.toNat, a.toNat], uses := [useS a], tx := false } : Gate).run
    (fun s act =>
      let x := (s.w.sr a.toNat).bits
      let l := look {} (s.view (bits x 3 0)).lat (bits x 7 4)
      let v := if x.getLsbD 8 then w64 (l.frame % 2 ^ 24 + (if l.valid then 2 ^ 24 else 0)) else pairOf l.gx l.gy
      if act = 0 then .fall s
      else if bits x 63 9 ≠ 0 then trapAct 0x01 x act s
      else .fall { s with w := s.w.setS d.toNat v false }) s

end Sys2Proof.Machine
end

