-- ==== Sys2Proof/Machine/Tx.lean ====
section
/-! DEFINITION. Hardware transactions: TXBEGIN, TXEND, TXABORT, TXSTAT, TXCAUSE and the grants of Tabards (R242-R262). -/

namespace Sys2Proof.Machine

/-! ### Tabards (R259) -/

/-- The domains by number: 0 the device, 1 and 2 the dies, and from 3 on the clusters. -/
def domOf (n : Nat) : Domain := if n = 0 then .device else if n ≤ 2 then .die (n - 1) else .cluster (n - 3)

/-- The die of a logical cluster. -/
def dieOfCluster (s : State) (c : Nat) : Nat := (liveClusters s).getD c 0 / 16

/-- The Tabard of a domain. -/
def tabardOf (s : State) (d : Domain) : Tabard := (s.tabards.find? (fun t => t.dom == d)).getD { dom := d }

/-- Replace the Tabard of a domain. -/
def setTabard (t : Tabard) (s : State) : State :=
  { s with tabards := if s.tabards.any (fun x => x.dom == t.dom) then s.tabards.map (fun x => if x.dom == t.dom then t else x)
      else s.tabards ++ [t] }

/-- Some Tabard that satisfies `p` is held. -/
def heldAny (s : State) (p : Domain → Bool) : Bool := s.tabards.any (fun t => t.holder.isSome && p t.dom)

/-- A request waits at a Tabard. -/
def asked (s : State) (d : Domain) : Bool := !(tabardOf s d).queue.isEmpty

/-- The conditions on a grant by the other Tabards (R259). -/
def grantable (s : State) : Domain → Bool
  | .device => !heldAny s (fun x => match x with | .device => false | _ => true)
  | .die d =>
    !heldAny s (fun x => match x with | .device => true | .cluster c => dieOfCluster s c == d | .die _ => false) &&
      !asked s .device
  | .cluster c =>
    let d := dieOfCluster s c
    !heldAny s (fun x => match x with | .device => true | .die e => e == d | .cluster _ => false) &&
      !asked s .device && !asked s (.die d)

/-- Grant a Tabard to its oldest request, where R259 allows it. -/
def grantTabard (d : Domain) (s : State) : State :=
  let t := tabardOf s d
  match t.queue with
  | w :: rest => if t.holder.isNone && grantable s d then setTabard { t with holder := some w, queue := rest, lines := [] } s else s
  | [] => s

/-- The grants that fall due in one step: the device Tabard, then the dies', then the clusters' (R259). -/
def grantTabards (s : State) : State :=
  (List.range (3 + (liveClusters s).length)).foldl (fun s n => grantTabard (domOf n) s) s

/-- The domain of a scope code (R259). -/
def domainOf (s : State) (sc : Nat) : Domain :=
  if sc ≤ 3 then .cluster s.w.cluster else if sc = 4 then .die s.w.die else .device

/-! ### TXBEGIN (R245) -/

/-- A TXL set is free in the share of the warp's scheduler (R244). -/
def txSetFree (s : State) : Bool :=
  ((s.warps.filter (fun w => w.txset && w.core == s.w.core && w.sched == s.w.sched)).length) < Config.txlSetsPerSched

/-- The lanes of a mask enter a transaction (R245, R257). -/
def Warp.beginTx (w : Warp) (m : Mask) (fb : Bool) : Warp :=
  { w with tx := (lanesOf m).foldl (fun t l => put {} t l { st := if fb then .irrevocable else .active, irr := fb }) w.tx }

/-- The group opens for the path's lanes (R242, R245). -/
def openGroup (sc : Nat) (fb : Bool) (target : W64) (r : Nat) (s : State) : State :=
  let w := s.w.recordHwm r
  { s with w := { w.beginTx w.p.mask fb with
      group := some { target := target, sc := sc, fb := fb, depth := w.p.fdepth }, txset := !fb } }

/-- The reservation of TXBEGIN (R245). -/
def Warp.txResv (w : Warp) : Nat := w.fsrp + 128 + 4 * Config.warpWidth * w.topT

/-- A request joins the queue of a Tabard, once. -/
def askTabard (d : Domain) (s : State) : State :=
  let t := tabardOf s d
  if t.holder == some s.w.wid || t.queue.contains s.w.wid then s else setTabard { t with queue := t.queue ++ [s.w.wid] } s

/-- TXBEGIN (R245, R259). -/
def execTxbegin (sc : BitVec 3) (fb : Bool) (off : BitVec 21) (s : State) : Host.Outcome State Fault Refusal :=
  ({ word := zx (0x58#7 ++ sc ++ BitVec.ofBool fb ++ off), cls := .memory } : Gate).run
    (fun s act =>
      let r := s.w.txResv
      let target := s.w.p.pc + offset off
      if s.w.tlevel ≠ 0 then trapAct 0x12 1 act s
      else if s.w.group.isSome then trapAct 0x12 0 act s
      else if !s.w.resvOk r then trapAct 0x0B (w64 r) act s
      else if !fb then (if txSetFree s then .fall (openGroup sc.toNat false target r s) else .wait 15 s)
      else
        let d := domainOf s sc.toNat
        let s1 := grantTabards (askTabard d s)
        if (tabardOf s1 d).holder == some s.w.wid then .fall (openGroup sc.toNat true target r s1)
        else .block 15 s1) s

/-! ### TXEND (R250, R251, R253-R255) -/

/-- The lanes that are ACTIVE or IRREVOCABLE leave the group as committed (R253). -/
def Warp.commitTx (w : Warp) (m : Mask) : Warp :=
  { w with tx := w.tx.map (fun e =>
      if m.getLsbD e.1 && (e.2.st == .active || e.2.st == .irrevocable) then
        (e.1, { e.2 with st := .none, stat := false, cause := if e.2.st == .irrevocable then 0 else e.2.cause }) else e) }

/-- The ABORTED lanes of the path leave for the abort target, and the others go on (R250). -/
def routeAt (s : State) : Res :=
  let w := s.w
  let routed := w.p.mask &&& w.txMask .aborted
  let rest := w.p.mask &&& ~~~routed
  let tgt := w.abortTarget
  let w1 := w.unTx routed
  if routed = 0 then .fall (closeGroup s)
  else if rest = 0 then .jump (closeGroup { s with w := { w1 with p := { w1.p with pc := tgt } } })
  else
    let p : Path := { w.p with mask := routed, pc := tgt, age := 0 }
    let q : Path := ({ w.p with mask := rest, age := 0 } : Path).fall 4
    .jump (closeGroup { s with w := w1.splitTo p q })

/-- TXEND (R253). At an FDEPTH other than the group's, where R247 aborts the lanes, the path goes on at PC + 4 (DEDUCED,
log 169). -/
def execTxend (s : State) : Host.Outcome State Fault Refusal :=
  ({ word := wordN 0x59 false, cls := .memory } : Gate).run
    (fun s _ =>
      let w := s.w
      let m := w.p.mask
      let act := w.activeTx m
      if w.tlevel ≠ 0 ∨ m &&& (act ||| w.txMask .aborted ||| w.txMask .irrevocable) = 0 then .fall s
      else if w.p.fdepth ≠ (w.group.getD {}).depth then .fall { s with w := w.abort m 10 0 }
      else afterAll s (fun s =>
        let s1 := (lanesOf act).foldl (fun s l => commitLane l s) s
        let ok := s1.w.activeTx m
        let s2 := acquireL1 w.core (ok != 0) (ok != 0 && 4 ≤ (w.group.getD {}).sc) s1
        routeAt { s2 with w := s2.w.commitTx m })) s

/-! ### TXABORT, TXSTAT and TXCAUSE (R256, R257) -/

/-- TXABORT (R256). -/
def execTxabort (code : BitVec 4) (g : Bool) (s : State) : Host.Outcome State Fault Refusal :=
  ({ word := wordA 0x5A 0 0 0 code g false, guard := g, cls := .memory } : Gate).run
    (onWarp (fun w act => if w.tlevel = 0 then w.abort act 6 code.toNat else w)) s

/-- TXSTAT (R257). -/
def execTxstat (d : BitVec 6) (g : Bool) (s : State) : Host.Outcome State Fault Refusal :=
  ({ word := wordA 0x5B d 0 0 0 g false, guard := g, cls := .memory, scals := [d.toNat] } : Gate).run
    (onWarp (fun w act => if act = 0 then w else w.setS d.toNat (zx (maskOf (fun l => (w.txl l).stat))) false)) s

/-- The value of TXCAUSE in a lane (R257). -/
def TxLane.word (t : TxLane) : Nat :=
  t.cause + (if t.cause = 6 then 16 * t.code else 0) + (if t.irr then 256 else 0) + (if t.lost then 512 else 0)

/-- TXCAUSE (R257). -/
def execTxcause (d : BitVec 6) (g : Bool) (s : State) : Host.Outcome State Fault Refusal :=
  ({ word := wordA 0x5B d 0 0 1 g false, guard := g, cls := .memory, regs := [vop1 d] } : Gate).run
    (onWarp (fun w act => w.lanesTo false d.toNat act (fun l => (w64 (w.txl l).word, false)))) s

end Sys2Proof.Machine
end

