-- ==== Sys2Proof/Machine/Matrix.lean ====
section
/-! DEFINITION. The matrix arrays: ownership (R265), tile configurations (R267), the order of work (R269), accumulation
(R271-R274), and the tile and matrix instructions (R292-R302). -/

namespace Sys2Proof.Machine

/-! ### Configurations (R267, R270, R271) -/

def cfgType (c : BitVec 21) : Nat := c.toNat % 32
def cfgRows (c : BitVec 21) : Nat := c.toNat / 32 % 64 + 1
def cfgCols (c : BitVec 21) : Nat := c.toNat / 2048 % 256 + 1
def cfgCol (c : BitVec 21) : Bool := c.toNat / 2 ^ 19 % 4 == 1

/-- The twenty operand formats of R270. -/
def matType (t : Nat) : Bool := t ≤ 3 || (10 ≤ t && t ≤ 25)

/-- A configuration word is legal (R267). -/
def cfgOk (x : W64) : Bool :=
  let c : BitVec 21 := x.extractLsb' 0 21
  let t := cfgType c
  let u := packUnit t
  bits x 63 21 == 0 && matType t && bits x 20 19 ≤ 1 && cfgRows c * cfgCols c * typeBits t ≤ 65536 && cfgCols c % u == 0 &&
    (!cfgCol c || (!isBlock t && cfgRows c % u == 0))

/-- The group of a format (R271): formats of one group may be mixed. -/
def matGroup (t : Nat) : Nat :=
  match t with
  | 0 | 1 => 0
  | 2 | 3 => 1
  | 19 => 2
  | 17 | 18 => 3
  | 15 | 16 => 4
  | 10 | 11 => 5
  | 14 => 6
  | 12 => 7
  | 13 => 8
  | 24 => 9
  | 22 | 23 => 10
  | 20 | 21 => 11
  | _ => 12

/-- Kb of a format (R270). -/
def matKb (t : Nat) : Nat :=
  match t with
  | 2 | 3 | 15 | 16 | 20 | 21 => 16
  | 10 | 11 => 8
  | 12 | 13 => 1
  | 14 => 4
  | _ => 32

/-- The accumulator tag of a format (R270): 1 F32, 2 SI32, 3 F64. -/
def matTag (t : Nat) : Nat := if t ≤ 3 then 2 else if t = 13 then 3 else 1

/-! ### Elements and scales (R268, R273, R274) -/

def Core.tile (c : Core) (t : Nat) : Tile := look {} c.tiles t
def Core.acc (c : Core) (a : Nat) : AccT := look {} c.accs a
def Core.setTile (c : Core) (t : Nat) (x : Tile) : Core := { c with tiles := put {} c.tiles t x }
def Core.setAcc (c : Core) (a : Nat) (x : AccT) : Core := { c with accs := put {} c.accs a x }

/-- Element (i, k) of a tile, as the bits of its type. -/
def Tile.elem (t : Tile) (i k : Nat) : Nat := (look 0 t.el (256 * i + k)).toNat

/-- A scale of row r for element k (R273): 1 without block scales; none for a NaN. -/
def Tile.scaleAt (t : Tile) (r k : Nat) : Option (Nat × Int) :=
  let ty := cfgType t.cfg
  if isBlock ty then scaleOf ty (look (0 : Byte) t.scale (16 * r + k / 32)).toNat t.bias.toInt else some (1, 0)

/-- Element (r, k) times its scale, exactly (R272). -/
def Tile.scaled (t : Tile) (r k : Nat) : FV :=
  match fmtOf (cfgType t.cfg), t.scaleAt r k with
  | some f, some (m, e) => (match unpack f (t.elem r k) with | .fin neg n g => .fin neg (n * m) (g + e) | v => v)
  | _, _ => .nan false

/-- Some element or scale of row r is poisoned (R274). -/
def Tile.rowBad (t : Tile) (r : Nat) : Bool :=
  t.bad.any (fun e => e.1 / 256 == r) || (isBlock (cfgType t.cfg) && t.sbad.any (fun e => e.1 / 16 == r))

/-! ### Accumulation (R272) -/

/-- One block of products added into a floating-point accumulator: none where the element becomes a NaN. -/
def accBlock (f : Fmt) (kb : Nat) (acc : Nat) (ps : List (FV × FV)) : Option Nat :=
  if kb = 1 then
    let r := (fusedSum f 0 false ps (unpack f acc)).1
    if (unpack f r).isNan then none else some r
  else
    let prods := ps.map (fun p => prodOf p.1 p.2)
    if prods.any (·.isNone) then none
    else match sumOf 0 (prods.filterMap id) with
      | none => none
      | some (_, v) =>
        let s := match v with
          | .fin neg n e => (roundTo fF32 0 false false neg n e).1
          | .inf neg => infPat fF32 neg
          | .nan _ => nanPat fF32
        let r := (fAdd fF32 0 false (unpack fF32 acc) (unpack fF32 s)).1
        if (unpack fF32 r).isNan then none else some r

/-- The blocks along K, ascending (R272). -/
def accFloat (f : Fmt) (kb : Nat) (prod : Nat → FV × FV) (k : Nat) : Nat → Nat → Nat → Option Nat
  | 0, _, acc => some acc
  | n + 1, k0, acc =>
    if k ≤ k0 then some acc
    else match accBlock f kb acc ((List.range (min kb (k - k0))).map (fun i => prod (k0 + i))) with
      | none => none
      | some a => accFloat f kb prod k n (k0 + kb) a

/-- The same for integers: wrapping, or saturated after each block (R272). -/
def accInt (sat : Bool) (kb : Nat) (prod : Nat → Int) (k : Nat) : Nat → Nat → Int → Int
  | 0, _, acc => acc
  | n + 1, k0, acc =>
    if k ≤ k0 then acc
    else
      let s := acc + ((List.range (min kb (k - k0))).map (fun i => prod (k0 + i))).foldl (· + ·) 0
      accInt sat kb prod k n (k0 + kb) (if sat then satInt 7 s else (BitVec.ofInt 32 s).toInt)

/-- The format of an accumulator's tag; SI32 is not one. -/
def tagFmt (tag : Nat) : Fmt := if tag = 3 then fF64 else fF32

/-- One accumulator element after an operation (R272): row i of A, where it is given, against row j of B. -/
def accElem (a b : Tile) (row : Option Nat) (j : Nat) (sat : Bool) (old : W64) : W64 :=
  let ta := cfgType a.cfg
  let tb := cfgType b.cfg
  let k := cfgCols a.cfg
  let tag := matTag ta
  if tag = 2 then
    let av (x : Nat) : Int := match row with | some i => intOf ta (a.elem i x) | none => 0
    zx (BitVec.ofInt 32 (accInt sat (matKb ta) (fun x => av x * intOf tb (b.elem j x)) k (k + 1) 0 (lo32 old).toInt))
  else
    let f := tagFmt tag
    let av (x : Nat) : FV := match row with | some i => a.scaled i x | none => .fin false 0 0
    let acc := if tag = 3 then old.toNat else (lo32 old).toNat
    w64 ((accFloat f (matKb ta) (fun x => (av x, b.scaled j x)) k (k + 1) 0 acc).getD (nanPat f))

/-- Row `dst` of an accumulator gathers a row of A against every row of B (R272, R274). -/
def accRow (a b : Tile) (row : Option Nat) (sat extra : Bool) (dst : Nat) (c : AccT) : AccT :=
  let rowBad := extra || (match row with | some i => a.rowBad i | none => false)
  (List.range (cfgRows b.cfg)).foldl (fun (c : AccT) j =>
    let k := 64 * dst + j
    { c with el := put 0 c.el k (accElem a b row j sat (look 0 c.el k))
             bad := if rowBad || b.rowBad j then put false c.bad k true else c.bad }) c

/-- The product of two tiles added into an accumulator (R297). -/
def mmaInto (a b : Tile) (sat : Bool) (c : AccT) : AccT :=
  (List.range (cfgRows a.cfg)).foldl (fun c i => accRow a b (some i) sat false i c) { c with tag := matTag (cfgType a.cfg) }

/-- MMAG: gather by row 0 of the index tile and scatter by row 1 (R298). -/
def mmagInto (a b x : Tile) (sat : Bool) (c : AccT) : AccT :=
  (List.range 64).foldl (fun c i =>
    let dst := x.elem 1 i
    let g := x.elem 0 i
    let bad := look false x.bad (256 + i) || look false x.bad i
    if 64 ≤ dst then c else accRow a b (if g < cfgRows a.cfg then some g else none) sat bad dst c)
    { c with tag := matTag (cfgType a.cfg) }

/-! ### Scratch rows (R268, R294) -/

/-- Elements packed into bytes. -/
def packElems (t : Nat) (xs : List Nat) : List Byte :=
  let b := typeBits t
  let g := if b = 6 then 3 else if b < 8 then 1 else b / 8
  let per := g * 8 / b
  (List.range (xs.length / per)).flatMap (fun q =>
    leBytes g (((xs.drop (per * q)).take per).foldr (fun x acc => x + 2 ^ b * acc) 0))

/-- Scratch rows of a tile, and elements of each (R294). -/
def scratchRows (c : BitVec 21) : Nat × Nat := if cfgCol c then (cfgCols c, cfgRows c) else (cfgRows c, cfgCols c)

/-- Bytes of a scratch row. -/
def rowLen (c : BitVec 21) : Nat := (scratchRows c).2 * typeBits (cfgType c) / 8

/-- The tile element that element e of scratch row q is. -/
def tileIdx (c : BitVec 21) (q e : Nat) : Nat := if cfgCol c then 256 * e + q else 256 * q + e

/-- A poisoned byte among those that hold element e. -/
def elemBad (bits_ : Nat) (bs : List Bool) (e : Nat) : Bool :=
  ((bs.drop (e * bits_ / 8)).take ((bits_ + 15) / 8)).zipIdx.any (fun x => x.1 && decide ((e * bits_ / 8 + x.2) * 8 < (e + 1) * bits_))

/-- TLD (R294): every element from scratch, with its poison. -/
def loadTile (s : State) (key pitch : Nat) (t : Tile) : Tile :=
  let ty := cfgType t.cfg
  let n := scratchRows t.cfg
  (List.range n.1).foldl (fun t q =>
    let k := key + q * pitch
    let bs := loadBytes s k (rowLen t.cfg)
    let bad := (List.range (rowLen t.cfg)).map (fun i => isBad s (k + i))
    (List.range n.2).foldl (fun (t : Tile) e =>
      let i := tileIdx t.cfg q e
      { t with el := put 0 t.el i (w64 (elemAt ty bs e)), bad := put false t.bad i (elemBad (typeBits ty) bad e) }) t) t

/-- TST (R294): the scratch rows' bytes, with the poison of their elements. -/
def storeTile (key pitch : Nat) (t : Tile) (s : State) : State :=
  let ty := cfgType t.cfg
  let b := typeBits ty
  let n := scratchRows t.cfg
  (List.range n.1).foldl (fun s q =>
    let idx := (List.range n.2).map (fun e => tileIdx t.cfg q e)
    let bs := packElems ty (idx.map (fun i => (look 0 t.el i).toNat))
    let bad (i : Nat) : Bool := idx.zipIdx.any (fun x => look false t.bad x.1 && decide (x.2 * b < 8 * i + 8) && decide (8 * i < (x.2 + 1) * b))
    storeCells 0 bs.length (bs.mapIdx (fun i x => (key + q * pitch + i, x, !t.bad.isEmpty && bad i))) s) s

/-- TLDS (R295). -/
def loadScales (s : State) (key pitch : Nat) (bias : BitVec 8) (t : Tile) : Tile :=
  let nb := cfgCols t.cfg / 32
  let cells := (List.range (cfgRows t.cfg)).flatMap (fun q => (List.range nb).map (fun i => (16 * q + i, key + q * pitch + i)))
  let t1 := cells.foldl (fun (t : Tile) c =>
    { t with scale := put 0 t.scale c.1 (s.byte c.2), sbad := put false t.sbad c.1 (isBad s c.2) }) t
  if cfgType t.cfg = 25 then { t1 with bias := bias } else t1

/-- A tile with zeroed contents and scale store (R293, R296). -/
def zeroTile (c : BitVec 21) : Tile := { cfg := c }

/-! ### Results (R301, R302) -/

/-- TMOVV's words of lane l (R301). -/
def movvWords (c : AccT) (row col l : Nat) : List LW :=
  let at_ (m : Nat) : W64 × Bool :=
    let r := row + m
    let k := col + l
    if 64 ≤ r ∨ (if c.tag = 3 then 32 else 64) ≤ k then (0, false) else (look 0 c.el (64 * r + k), look false c.bad (64 * r + k))
  if c.tag = 3 then (List.range 4).flatMap (fun m => let x := at_ m; [⟨lo32 x.1, x.2⟩, ⟨hi32 x.1, x.2⟩])
  else (List.range 8).map (fun m => let x := at_ m; ⟨lo32 x.1, x.2⟩)

/-- The pairs of tag and type that TCVT allows (R302). -/
def tcvtOk (tag t : Nat) : Bool :=
  let f := t == 12 || t == 10 || t == 11 || t == 14 || (15 ≤ t && t ≤ 19)
  let i := t ≤ 3 || t == 12 || t == 10 || t == 11
  match tag with
  | 0 => f || i
  | 1 => f
  | 2 => i
  | _ => t == 13 || t == 12

/-- TCVT (R302). -/
def cvtTile (c : AccT) (rm : Nat) (sat : Bool) (t : Tile) : Tile :=
  let ty := cfgType t.cfg
  let src := if c.tag = 2 then 7 else if c.tag = 3 then 13 else if ty ≤ 3 then 7 else 12
  (List.range (cfgRows t.cfg)).foldl (fun t i =>
    (List.range (cfgCols t.cfg)).foldl (fun (t : Tile) j =>
      let k := 64 * i + j
      let x := if c.tag = 0 then 0 else (look 0 c.el k).toNat
      { t with el := put 0 t.el (256 * i + j) (w64 (cvt src ty rm false sat x).1)
               bad := put false t.bad (256 * i + j) (look false c.bad k) }) t) t

/-! ### The array's order of work (R269) -/

/-- Perform an operation on its core (R269): none where it waits, for B from its leader. -/
def performTile (core : Nat) (j : TileJob) (s : State) : Option State :=
  let c := s.core core
  let onTile (d : Nat) (t : Tile) : Option State := some (s.setCore core (c.setTile d t))
  let onAcc (d : Nat) (a : AccT) : Option State := some (s.setCore core (c.setAcc d a))
  match j.op with
  | .cfg d w => onTile d (zeroTile w)
  | .load d k p => onTile d (loadTile s k p (c.tile d))
  | .store t k p => some (storeTile k p (c.tile t) s)
  | .scales d k p b => onTile d (loadScales s k p b (c.tile d))
  | .tzero d => onTile d (zeroTile (c.tile d).cfg)
  | .azero d => onAcc d {}
  | .mma d a b sat => onAcc d (mmaInto (c.tile a) (c.tile b) sat (c.acc d))
  | .mmag d a b x sat => onAcc d (mmagInto (c.tile a) (c.tile b) (c.tile x) sat (c.acc d))
  | .lead d a b sat pair =>
    let s1 := s.setCore core (c.setAcc d (mmaInto (c.tile a) (c.tile b) sat (c.acc d)))
    let f := core + 1
    let fc := s1.core f
    some (s1.setCore f { fc with fromLeader := fc.fromLeader ++ [(pair, c.tile b)] })
  | .follow d a b sat pair =>
    match c.fromLeader.find? (fun x => x.1 == pair) with
    | none => none
    | some (_, t) =>
      let c1 := { c with fromLeader := c.fromLeader.filter (fun x => x.1 != pair) }.setTile b t
      some (s.setCore core (c1.setAcc d (mmaInto (c1.tile a) (c1.tile b) sat (c1.acc d))))
  | .movv x a row col act =>
    some (s.modWarp j.wid (fun w => { w with v := (lanesOf act).foldl (fun v l =>
      ((movvWords (c.acc a) row col l).zipIdx).foldl (fun v y => put {} v (32 * (x + y.2) + l) y.1) v) w.v }))
  | .cvt d a rm sat => onTile d (cvtTile (c.acc a) rm sat (c.tile d))

/-- The warp's memory accesses issued before a tile operation that accesses scratch are performed (R208, R225). -/
def tileReady (s : State) (j : TileJob) : Bool :=
  j.op.keys.isEmpty || (match s.warp? j.wid with
    | some w => w.ops.all (fun o => j.seq ≤ o.seq || o.todo.isEmpty)
    | none => true)

/-- MXA_OPERATION: the oldest operation of a core's array is performed, and completes (R269). -/
def mxaStep (core : Nat) (s : State) : State :=
  match (s.core core).mxa with
  | [] => s
  | j :: rest =>
    if tileReady s j then
      match performTile core j s with
      | none => s
      | some s1 =>
        let s2 := s1.setCore core { s1.core core with mxa := rest }
        s2.modWarp j.wid (fun w => { w with tls := markDone w.tls j.id })
    else s

/-! ### Issue (R269, R292) -/

/-- The warp's workgroup owns its core's array (R265). -/
def ownsArray (s : State) : Bool := (s.core s.w.core).owner == some s.w.wg

/-- Configurations and tags as issued instructions leave them (R269). -/
def issuedCfg (s : State) (t : Nat) : BitVec 21 := look 0x0FFEC#21 (s.core s.w.core).issuedCfg t
def issuedTag (s : State) (a : Nat) : Nat := look 0 (s.core s.w.core).issuedTag a
def setIssuedCfg (core t : Nat) (c : BitVec 21) (s : State) : State :=
  let k := s.core core
  s.setCore core { k with issuedCfg := put 0x0FFEC#21 k.issuedCfg t c }
def setIssuedTag (core a tag : Nat) (s : State) : State :=
  let k := s.core core
  s.setCore core { k with issuedTag := put 0 k.issuedTag a tag }

/-- The gate of a tile instruction. -/
def tileGate (word : W64) (g : Bool) (s : State) : Gate :=
  { word := word, guard := g, cls := .tile, engine := ownsArray s, full := 63 ≤ s.w.tl }

/-- Queue an operation for a warp: TL rises (R269). -/
def queueTile (wid : Nat) (op : TileOp) (s : State) : State :=
  match s.warp? wid with
  | none => s
  | some w =>
    let j : TileJob := { id := s.nextJob, wid := wid, seq := w.opSeq, op := op }
    let c := s.core w.core
    ({ s with nextJob := s.nextJob + 1 }.setCore w.core { c with mxa := c.mxa ++ [j] }).modWarp wid
      (fun w => { w with tls := w.tls ++ [(j.id, false)] })

/-- The same for the warp on turn, as an outcome. -/
def queued (op : TileOp) (s : State) : Res := .fall (queueTile s.w.wid op s)

/-- TCFG (R293). -/
def execTcfg (d : BitVec 3) (a : BitVec 6) (g : Bool) (s : State) : Host.Outcome State Fault Refusal :=
  ({ tileGate (wordA 0x60 (in6 d) a 0 0 g false) g s with scals := [a.toNat], uses := [useS a] } : Gate).run
    (fun s act =>
      let x := (s.w.sr a.toNat).bits
      let c : BitVec 21 := x.extractLsb' 0 21
      if act = 0 then .fall s
      else if !cfgOk x then trapAct 0x01 x act s
      else queued (.cfg d.toNat c) (setIssuedCfg s.w.core d.toNat c s)) s

/-- The scratch range of TLD, TST and TLDS: its key, or the trap (R187 steps 2 and 7, R294). A misaligned OFFSET traps before a
handle that fails (DESIGN CHOICE, log 175). -/
def tileRange (s : State) (word : W64) (align n : Nat) (need : Need) : Except (Nat × W64) Nat :=
  let off := bits word 35 16
  if off % align ≠ 0 then .error (0x01, word)
  else if scratchWordBad word then .error (0x07, word)
  else match handleOf s s.w (w64 (bits word 10 0)) with
    | none => .error (0x07, word)
    | some (g, h) =>
      if h.bytes < off + n then .error (0x06, word)
      else if lockHits (heldLocks s (s.wg g).core) true h.seg off (off + n - 1) need then
        .error (0x08, w64 (bits word 10 0 + off * 65536))
      else .ok (scratchKey h.seg off)

/-- TLD and TST (R294): the pitch word is checked before the scratch word (DESIGN CHOICE, log 145). -/
def tileMove (op : BitVec 7) (d : BitVec 3) (a b : BitVec 6) (g : Bool) (need : Need) (f : Nat → Nat → Nat → TileOp) (s : State) :
    Host.Outcome State Fault Refusal :=
  ({ tileGate (wordA op (in6 d) a b 0 g false) g s with scals := [a.toNat, b.toNat], uses := [useS a, useS b] } : Gate).run
    (fun s act =>
      let word := (s.w.sr a.toNat).bits
      let pw := (s.w.sr b.toNat).bits
      let c := issuedCfg s d.toNat
      let pitch := bits pw 15 0
      if act = 0 then .fall s
      else if bits pw 63 16 ≠ 0 ∨ pitch = 0 ∨ pitch % 32 ≠ 0 ∨ pitch < rowLen c then trapAct 0x01 pw act s
      else match tileRange s word 32 (((scratchRows c).1 - 1) * pitch + rowLen c) need with
        | .error e => trapAct e.1 e.2 act s
        | .ok key => queued (f d.toNat key pitch) s) s

/-- TLD (R294). -/
def execTld (d : BitVec 3) (a b : BitVec 6) (g : Bool) (s : State) : Host.Outcome State Fault Refusal :=
  tileMove 0x61 d a b g .read .load s
/-- TST (R294). -/
def execTst (d : BitVec 3) (a b : BitVec 6) (g : Bool) (s : State) : Host.Outcome State Fault Refusal :=
  tileMove 0x62 d a b g .write .store s

/-- TLDS (R295): the tile's type is checked first (DESIGN CHOICE, log 171), and the pitch word before the scratch word
(log 145). -/
def execTlds (d : BitVec 3) (a b : BitVec 6) (g : Bool) (s : State) : Host.Outcome State Fault Refusal :=
  let iw := wordA 0x69 (in6 d) a b 0 g false
  ({ tileGate iw g s with scals := [a.toNat, b.toNat], uses := [useS a, useS b] } : Gate).run
    (fun s act =>
      let word := (s.w.sr a.toNat).bits
      let pw := (s.w.sr b.toNat).bits
      let c := issuedCfg s d.toNat
      let t := cfgType c
      let nb := cfgCols c / 32
      let pitch := bits pw 15 0
      if act = 0 then .fall s
      else if !isBlock t then trapAct 0x01 iw act s
      else if bits pw 31 16 ≠ 0 ∨ (if t = 25 then bits pw 63 40 else bits pw 63 32) ≠ 0 ∨ pitch % 16 ≠ 0 ∨ pitch < nb then
        trapAct 0x01 pw act s
      else match tileRange s word 16 ((cfgRows c - 1) * pitch + nb) .read with
        | .error e => trapAct e.1 e.2 act s
        | .ok key => queued (.scales d.toNat key pitch (pw.extractLsb' 32 8)) s) s

/-- TZERO (R296). -/
def execTzero (d : BitVec 3) (g : Bool) (s : State) : Host.Outcome State Fault Refusal :=
  (tileGate (wordA 0x63 (in6 d) 0 0 0 g false) g s).run
    (fun s act => if act = 0 then .fall s else queued (.tzero d.toNat) s) s

/-- AZERO (R296). -/
def execAzero (d : BitVec 2) (g : Bool) (s : State) : Host.Outcome State Fault Refusal :=
  (tileGate (wordA 0x63 (in6 d) 0 0 1 g false) g s).run
    (fun s act => if act = 0 then .fall s else queued (.azero d.toNat) (setIssuedTag s.w.core d.toNat 0 s)) s

/-! ### Matrix operations (R297-R300) -/

/-- The checks of R271 and R297 at issue. -/
def mmaOk (s : State) (d a b : Nat) : Bool :=
  let ca := issuedCfg s a
  let cb := issuedCfg s b
  let tag := matTag (cfgType ca)
  matGroup (cfgType ca) == matGroup (cfgType cb) && cfgCols ca == cfgCols cb &&
    cfgRows cb ≤ (if cfgType ca = 13 then 32 else 64) && (issuedTag s d == 0 || issuedTag s d == tag)

/-- The tag that an operation leaves in its accumulator. -/
def tagAfter (a : Nat) (d : Nat) (s : State) : State := setIssuedTag s.w.core d (matTag (cfgType (issuedCfg s a))) s

/-- MMA (R297). -/
def execMma (d : BitVec 2) (a b : BitVec 3) (g : Bool) (s : State) : Host.Outcome State Fault Refusal :=
  let iw := wordA 0x64 (in6 d) (in6 a) (in6 b) 0 g false
  (tileGate iw g s).run
    (fun s act =>
      if act = 0 then .fall s
      else if !mmaOk s d.toNat a.toNat b.toNat then trapAct 0x01 iw act s
      else queued (.mma d.toNat a.toNat b.toNat s.w.p.sat) (tagAfter a.toNat d.toNat s)) s

/-- X is configured UI8 with 2 rows and 64 columns (R298). -/
def indexTileOk (c : BitVec 21) : Bool := cfgType c == 2 && cfgRows c == 2 && cfgCols c == 64

/-- MMAG (R298). -/
def execMmag (d : BitVec 2) (a : BitVec 3) (b : BitVec 6) (g : Bool) (s : State) : Host.Outcome State Fault Refusal :=
  let iw := wordA 0x66 (in6 d) (in6 a) b 0 g false
  ({ tileGate iw g s with scals := [b.toNat], uses := [useS b] } : Gate).run
    (fun s act =>
      let x := (s.w.sr b.toNat).bits
      let tb := bits x 2 0
      let tx := bits x 6 4
      if act = 0 then .fall s
      else if x.getLsbD 3 ∨ bits x 63 7 ≠ 0 then trapAct 0x01 x act s
      else if !indexTileOk (issuedCfg s tx) ∨ !mmaOk s d.toNat a.toNat tb then trapAct 0x01 iw act s
      else queued (.mmag d.toNat a.toNat tb tx s.w.p.sat) (tagAfter a.toNat d.toNat s)) s

/-- A matched pair: equal configurations queue both halves, and others trap with PAIR_FAULT (R299). What the follower's
t[b] receives when its operation is performed changes no check at issue: those use what its last TCFG left (R269). -/
def pairMatch (lead foll : PairWait) (s : State) : State :=
  match s.warp? lead.wid, s.warp? foll.wid with
  | some lw, some fw =>
    let lc := s.core lw.core
    let fc := s.core fw.core
    let ca := look 0x0FFEC#21 lc.issuedCfg lead.a
    if look 0x0FFEC#21 fc.issuedCfg foll.a ≠ ca then
      giveGrant lead.wid (.trap 0x0F 2) (giveGrant foll.wid (.trap 0x0F 2) s)
    else
      let n := s.nextJob
      let tag := matTag (cfgType ca)
      let s1 := setIssuedTag lw.core lead.d tag (setIssuedTag fw.core foll.d tag s)
      let s2 := queueTile foll.wid (.follow foll.d foll.a foll.b foll.sat n)
        (queueTile lead.wid (.lead lead.d lead.a lead.b lead.sat n) s1)
      giveGrant lead.wid .done (giveGrant foll.wid .done s2)
  | _, _ => s

/-- Match the oldest waits of a pair of workgroups (R299). -/
def pairTry (lead foll : Nat) (s : State) : State :=
  match (s.wg lead).pairWait, (s.wg foll).pairWait with
  | l :: ls, f :: fs =>
    pairMatch l f ((s.setWg lead { s.wg lead with pairWait := ls }).setWg foll { s.wg foll with pairWait := fs })
  | _, _ => s

/-- What the partner's state does to a wait at once (R300). -/
def pairNow (s : State) (partner : Nat) : Option Nat :=
  let ws := s.warps.filter (fun w => w.wg == partner)
  if ws.isEmpty then some 1 else if ws.any (fun w => w.tlevel != 0) then some 0 else none

/-- MMAP and MMAP.F (R299, R300). -/
def pairOp (fn : BitVec 4) (leader : Bool) (d : BitVec 2) (a b : BitVec 3) (g : Bool) (s : State) :
    Host.Outcome State Fault Refusal :=
  let iw := wordA 0x65 (in6 d) (in6 a) (in6 b) fn g false
  let wg := s.w.wg
  ({ tileGate iw g s with engine := ownsArray s && (s.wg wg).pair && (s.w.core % 2 == 0) == leader } : Gate).run
    (fun s act =>
      if act = 0 then .fall s
      else if s.w.block = some 16 then onGrantValue 16 s act (fun _ _ s => .fall s)
      else if !mmaOk s d.toNat a.toNat b.toNat then trapAct 0x01 iw act s
      else match partnerOf s wg with
        | none => trapAct 0x1A iw act s
        | some p =>
          let me : PairWait := { wid := s.w.wid, d := d.toNat, a := a.toNat, b := b.toNat, sat := s.w.p.sat }
          let s1 := s.setWg wg { s.wg wg with pairWait := (s.wg wg).pairWait ++ [me] }
          let s2 := if leader then pairTry wg p s1 else pairTry p wg s1
          match s2.w.grant, pairNow s p with
          | none, some v => trapAct 0x0F (w64 v) act s
          | _, _ => onGrantValue 16 s2 act (fun _ _ s => .fall s)) s

/-- MMAP (R299). -/
def execMmap (d : BitVec 2) (a b : BitVec 3) (g : Bool) (s : State) : Host.Outcome State Fault Refusal := pairOp 0 true d a b g s
/-- MMAP.F (R299). -/
def execMmapF (d : BitVec 2) (a b : BitVec 3) (g : Bool) (s : State) : Host.Outcome State Fault Refusal := pairOp 1 false d a b g s

/-! ### Results out of the accumulators (R301, R302) -/

/-- TMOVV (R301): s[b] is checked before the register number (DESIGN CHOICE, log 176). -/
def execTmovv (d : BitVec 6) (a : BitVec 2) (b : BitVec 6) (g : Bool) (s : State) : Host.Outcome State Fault Refusal :=
  let iw := wordA 0x67 d (in6 a) b 0 g false
  ({ tileGate iw g s with regs := [{ n := d.toNat, cnt := 8 }], scals := [b.toNat], uses := [useS b] } : Gate).run
    (fun s act =>
      let x := (s.w.sr b.toNat).bits
      if act = 0 then .fall s
      else if bits x 7 6 ≠ 0 ∨ bits x 63 14 ≠ 0 then trapAct 0x01 x act s
      else if issuedTag s a.toNat = 3 ∧ d.toNat % 2 ≠ 0 then trapAct 0x01 iw act s
      else queued (.movv (s.w.p.wbase + d.toNat) a.toNat (bits x 5 0) (bits x 13 8) act) s) s

/-- TCVT (R302). -/
def execTcvt (d : BitVec 3) (a : BitVec 2) (g : Bool) (s : State) : Host.Outcome State Fault Refusal :=
  let iw := wordA 0x68 (in6 d) (in6 a) 0 0 g false
  (tileGate iw g s).run
    (fun s act =>
      let c := issuedCfg s d.toNat
      let tag := issuedTag s a.toNat
      if act = 0 then .fall s
      else if !tcvtOk tag (cfgType c) ∨ (if tag = 3 then 32 else 64) < cfgCols c then trapAct 0x01 iw act s
      else queued (.cvt d.toNat a.toNat s.w.p.rm s.w.p.sat) s) s

end Sys2Proof.Machine
end

