-- ==== Sys2Proof/Machine/Rays.lean ====
section
/-! DEFINITION. Rays: acceleration structures (R326), exact intersection (R327), RAYL, RAYLW and RAYR (R328-R330), and
the completion of a traversal. -/

namespace Sys2Proof.Machine

/-! ### Reads (R187, R328) -/

/-- What a checked read of global memory meets. -/
inductive Peek where
  | bytes (bs : List Byte)
  | fail (f : Fail)
  | retry (va : W64)
deriving DecidableEq, Repr

/-- Read `n` bytes, n a multiple of 4, at an address that is a multiple of `n` or of `align`, with the checks of R187 but for
range locks, which R240 does not make for these reads. -/
def peek (s : State) (w : Warp) (va : W64) (n align : Nat) : Peek :=
  if va.toNat % align ≠ 0 then .fail ⟨5, 0x03, va⟩
  else match checkUnlocked s w va 1 .read with
    | .error f => .fail f
    | .ok p =>
      if !p.resident then .retry va
      else
        let ws := (List.range (n / 4)).map (fun i => readVia s w.core p.l1 (p.key + 4 * i) 4)
        if ws.any (·.2) then .fail ⟨7, 0x15, va⟩ else .bytes (ws.flatMap (fun x => leBytes 4 x.1.toNat))

/-- Read `n` 16-byte parts one after another, up to the first that fails. -/
def peekParts (s : State) (w : Warp) (va : W64) : Nat → List Byte → Peek
  | 0, bs => .bytes bs
  | n + 1, bs =>
    match peek s w va 16 16 with
    | .bytes x => peekParts s w (va + 16) n (bs ++ x)
    | e => e

/-! ### Exact geometry (R327) -/

/-- A vector of rationals. -/
structure V3 where
  x : Q
  y : Q
  z : Q
deriving DecidableEq, Repr

def V3.sub (a b : V3) : V3 := ⟨a.x.sub b.x, a.y.sub b.y, a.z.sub b.z⟩
def V3.dot (a b : V3) : Q := ((a.x.mul b.x).add (a.y.mul b.y)).add (a.z.mul b.z)
def V3.cross (a b : V3) : V3 :=
  ⟨(a.y.mul b.z).sub (a.z.mul b.y), (a.z.mul b.x).sub (a.x.mul b.z), (a.x.mul b.y).sub (a.y.mul b.x)⟩

/-- Three F32 patterns, where all are finite. -/
def v3Of (x y z : W32) : Option V3 :=
  match qF32 x, qF32 y, qF32 z with
  | some x, some y, some z => some ⟨x, y, z⟩
  | _, _, _ => none

/-- A ray that may hit: its origin, direction and interval as exact reals (R327). -/
structure RayQ where
  o : V3
  d : V3
  lo : Q
  hi : Q
deriving DecidableEq, Repr

/-- A ray as exact reals; none where it must miss (R327). -/
def rayQ (r : Ray) : Option RayQ :=
  match v3Of r.ox r.oy r.oz, v3Of r.dx r.dy r.dz, qF32 r.tmin, qF32 r.tmax with
  | some o, some d, some lo, some hi =>
    if (d.x.n == 0 && d.y.n == 0 && d.z.n == 0) || hi.lt lo then none else some ⟨o, d, lo, hi⟩
  | _, _, _, _ => none

/-- Narrow an interval by one bound of a slab: o + t·d is at least (or at most) the bound. An infinite bound binds
nothing, or everything; a NaN bound is met by nothing. -/
def boundAt (lower : Bool) (x : W32) (o d : Q) (t : Option (Q × Q)) : Option (Q × Q) :=
  match t, unpack fF32 x.toNat with
  | none, _ => none
  | _, .nan _ => none
  | some t, .inf neg => if neg == lower then some t else none
  | some (a, b), .fin neg n e =>
    let v := (qDy neg n e).sub o
    if d.n = 0 then (if lower then v.le ⟨0, 1⟩ else (⟨0, 1⟩ : Q).le v) |> fun ok => if ok then some (a, b) else none
    else
      let k := v.div d
      let r := if (0 < d.n) == lower then (a.max k, b) else (a, b.min k)
      if r.2.lt r.1 then none else some r

/-- The ray meets a closed box of six F32 values at some t of its interval (R327). -/
def boxMet (r : RayQ) (box : List W32) : Bool :=
  let g (i : Nat) : W32 := box.getD i 0
  let t0 := some (r.lo, r.hi)
  let tx := boundAt false (g 3) r.o.x r.d.x (boundAt true (g 0) r.o.x r.d.x t0)
  let ty := boundAt false (g 4) r.o.y r.d.y (boundAt true (g 1) r.o.y r.d.y tx)
  (boundAt false (g 5) r.o.z r.d.z (boundAt true (g 2) r.o.z r.d.z ty)).isSome

/-- A hit: its exact t, PRIM, the triangle's index, and U and V. -/
structure Hit where
  t : Q
  prim : Nat
  idx : Nat
  u : Q
  v : Q
deriving DecidableEq, Repr

/-- Where a ray hits a triangle (R327). -/
def hitAt (r : RayQ) (a b c : V3) (prim idx : Nat) : Option Hit :=
  let e1 := b.sub a
  let e2 := c.sub a
  let p := r.d.cross e2
  let det := e1.dot p
  if det.n = 0 then none
  else
    let s := r.o.sub a
    let q := s.cross e1
    let u := (s.dot p).div det
    let v := (r.d.dot q).div det
    let t := (e2.dot q).div det
    if u.n < 0 ∨ v.n < 0 ∨ (⟨1, 1⟩ : Q).lt (u.add v) ∨ t.lt r.lo ∨ r.hi.lt t then none else some ⟨t, prim, idx, u, v⟩

/-- The nearer of two hits: the least t, then the least PRIM, then the least index (R327). -/
def nearer (a b : Option Hit) : Option Hit :=
  match a, b with
  | none, x => x
  | x, none => x
  | some x, some y =>
    if x.t.lt y.t then a
    else if y.t.lt x.t then b
    else if x.prim < y.prim ∨ (x.prim = y.prim ∧ x.idx ≤ y.idx) then a else b

/-! ### Traversal (R326, R327) -/

/-- How a traversal ends: the nearest hit, a failed check, or a page that is not resident. -/
inductive Trav where
  | hit (h : Option Hit)
  | fail (f : Fail)
  | retry (va : W64)
deriving DecidableEq, Repr

/-- The triangles of a leaf. -/
def leafHits (s : State) (w : Warp) (tri : W64) (r : RayQ) : Nat → Nat → Option Hit → Trav
  | _, 0, best => .hit best
  | idx, n + 1, best =>
    match peekParts s w (tri + w64 (48 * idx)) 3 [] with
    | .fail f => .fail f
    | .retry va => .retry va
    | .bytes bs =>
      let g (i : Nat) : W32 := w32 (field bs (4 * i) 4)
      let h := match v3Of (g 0) (g 1) (g 2), v3Of (g 3) (g 4) (g 5), v3Of (g 6) (g 7) (g 8) with
        | some a, some b, some c => hitAt r a b c (g 9).toNat idx
        | _, _, _ => none
      leafHits s w tri r (idx + 1) n (nearer best h)

/-- A traversal over references still to be visited, each of whose boxes the ray meets: how it ends, and the references that
it has visited. A node is visited once. -/
def traverse (s : State) (w : Warp) (base tri : W64) (r : RayQ) : Nat → List W32 → List W32 → Option Hit → Trav × List W32
  | 0, _, seen, best => (.hit best, seen)
  | _ + 1, [], seen, best => (.hit best, seen)
  | fuel + 1, ref :: todo, seen, best =>
    if ref.getLsbD 31 then
      match leafHits s w tri r (bits32 ref 23 0) (bits32 ref 30 24 + 1) best with
      | .hit b => traverse s w base tri r fuel todo (ref :: seen) b
      | x => (x, ref :: seen)
    else if seen.contains ref then traverse s w base tri r fuel todo seen best
    else match peek s w (base + w64 (64 * ref.toNat)) 64 64 with
      | .fail f => (.fail f, seen)
      | .retry va => (.retry va, seen)
      | .bytes bs =>
        let child (off : Nat) : List W32 := if boxMet r (wordsAt bs off 6) then [w32 (field bs (off + 24) 4)] else []
        traverse s w base tri r fuel (child 0 ++ child 0x1C ++ todo) (ref :: seen) best

/-- The addresses that a visit of a reference reads: a node's, or the 16-byte parts of a leaf's triangles (R326). -/
def refReads (base tri : W64) (ref : W32) : List W64 :=
  if ref.getLsbD 31 then
    (List.range (3 * (bits32 ref 30 24 + 1))).map (fun i => tri + w64 (48 * bits32 ref 23 0 + 16 * i))
  else [base + w64 (64 * ref.toNat)]

/-- The traversal of one ray through a structure (R326, R327), and the addresses that it has read; at most 2^31 nodes are
visited, each once. -/
def castRay (s : State) (w : Warp) (base : W64) (ray : Ray) : Trav × List W64 :=
  match rayQ ray with
  | none => (.hit none, [])
  | some r =>
    match peek s w base 64 64 with
    | .fail f => (.fail f, [])
    | .retry va => (.retry va, [])
    | .bytes bs =>
      let tri := w64 (field bs 0x20 8)
      if boxMet r (wordsAt bs 4 6) then
        let x := traverse s w base tri r (2 ^ 33) [w32 (field bs 0 4)] [] none
        (x.1, base :: x.2.flatMap (refReads base tri))
      else (.hit none, [base])

/-- The result of a ray (R327). -/
def resultOf (slot : Nat) : Option Hit → RayRes
  | none => { slot := slot }
  | some h => { slot := slot, t := q32 h.t, prim := w32 h.prim, u := q32 h.u, v := q32 h.v }

/-- The rays of a batch are traversed in turn; a ray whose page is not resident waits for the replay (R330). -/
def castRays (s : State) (w : Warp) (b : Batch) : Batch × List W64 :=
  b.rays.foldl (fun (a : Batch × List W64) r =>
    if a.1.results.any (fun x => x.slot == r.slot) then a
    else match (castRay s w b.base r).1 with
      | .hit h => ({ a.1 with results := a.1.results ++ [resultOf r.slot h] }, a.2)
      | .fail f => ({ a.1 with results := a.1.results ++ [{ slot := r.slot, cause := f.cause, addr := f.tval, bad := true }] }, a.2)
      | .retry va => ({ a.1 with held := a.1.held ++ [va] }, a.2 ++ [va])) (b, [])

/-- The lines that the rays of a batch read. -/
def batchLines (s : State) (w : Warp) (b : Batch) : List Nat :=
  let v : Warp := { w with tlevel := b.level }
  b.rays.flatMap (fun x => (castRay s v b.base x).2.flatMap (readLines s v))

/-- A batch may be traversed: it comes after the batches launched before it, and after every access of global memory and every
acquire that its warp has issued before it. Which bytes a batch reads hangs on what it reads, so that all of these may be of one
location with it (R224, R225, R328, DEDUCED, log 83). -/
def mayTraverse (w : Warp) (b : Batch) : Bool :=
  (w.batches.takeWhile (fun e => e.id != b.id)).all (fun e => e.done) &&
    (w.ops.filter (fun o => o.seq < b.seq && !o.todo.isEmpty)).all (fun o =>
      !(o.acq && (!o.rel || o.got.isEmpty)) && o.todo.all (fun a => isScratch a.key))

/-- RAY_TRAVERSAL_COMPLETE of a batch (R328, R330). -/
def finishBatch (wid id : Nat) (s : State) : State :=
  match s.warp? wid with
  | none => s
  | some w =>
    match w.batches.find? (fun b => b.id == id) with
    | none => s
    | some b =>
      if b.done || !b.held.isEmpty || !mayTraverse w b then s
      else
        let out := sendAll w.ctx ((batchLines s w b).map (128 * ·)) s
        if !out.2 then out.1 else
        let s := out.1
        let r := castRays s { w with tlevel := b.level } b
        let b1 : Batch := { r.1 with done := r.1.held.isEmpty }
        let s0 := if b.irr then noteLinesOf wid (batchLines s w b) s else s
        let s1 := s0.modWarp wid (fun x => { x with batches := x.batches.map (fun y => if y.id == id then b1 else y) })
        r.2.foldl (fun s va => addFault w.die w.ctx va 0 s) s1

/-- RAY_TRAVERSAL_COMPLETE (R330). -/
def execRayTraversalComplete (wid batch : Nat) (s : State) : Host.Outcome State Fault Refusal := .next (finishBatch wid batch s)

/-! ### RAYL and RAYLW (R328, R329) -/

/-- A new batch of the warp on turn (R328). -/
def launchRays (d : Nat) (warped : Bool) (base : W64) (rays : List Ray) (act : Mask) (s : State) : Res :=
  let b : Batch :=
    { id := s.w.rseq, warped := warped, base := base, seq := s.w.opSeq, level := s.w.tlevel, irr := s.w.irrTx act != 0, rays := rays }
  .fall { s with w := { s.w.setS d (w64 s.w.rseq) false with rseq := (s.w.rseq + 1) % 65536, batches := s.w.batches ++ [b] } }

/-- The ray of lane l (R328). -/
def laneRay (w : Warp) (a l : Nat) : Ray :=
  let g (i : Nat) : W32 := (w.vl (a + i) l).bits
  { slot := l, ox := g 0, oy := g 1, oz := g 2, dx := g 3, dy := g 4, dz := g 5, tmin := g 6, tmax := g 7 }

/-- RAYL (R328). -/
def execRayl (d a b : BitVec 6) (g : Bool) (s : State) : Host.Outcome State Fault Refusal :=
  ({ word := wordA 0x71 d a b 0 g false, guard := g, cls := .graphics, regs := [{ n := a.toNat, cnt := 8 }]
     scals := [d.toNat, b.toNat], uses := [useS b, { n := a.toNat, cnt := 8 }], tx := false } : Gate).run
    (fun s act =>
      let base := (s.w.sr b.toNat).bits
      if act = 0 then .fall s
      else if bits base 5 0 ≠ 0 then trapAct 0x03 base act s
      else if 8 ≤ s.w.batches.length then .wait 21 s
      else launchRays d.toNat false base ((lanesOf act).map (laneRay s.w a.toNat)) act s) s

/-- The grid that a token names, held for the current or the previous frame of its output (R328). -/
def gridNamed (s : State) (x : W64) : Option Grid :=
  (s.view (bits x 19 16)).grids.find? (fun g =>
    (s.out g.out).holds g.frame && g.strip == bits x 23 20 && g.frame % 2 ^ 24 == bits x 63 40)

/-- One NDC coordinate of a sample, in half samples along an axis: rounded, and open outside the grid (R329). -/
def sampleNdc (c : List W32) (half : Nat) : W32 :=
  let u : Q := ⟨half, 2⟩
  if (qv (c.getD 15 0)).lt u then Config.outsideGrid half else q32 (unwarpQ c u)

/-- A direction component: exact, rounded once; a NaN where a basis value is not finite (R329). -/
def basisDot (m : List W32) (c : Nat) (x y : W32) : W32 :=
  match qF32 (m.getD (3 * c) 0), qF32 (m.getD (3 * c + 1) 0), qF32 (m.getD (3 * c + 2) 0), qF32 x, qF32 y with
  | some p, some q, some r, some x, some y => q32 (((p.mul x).add (q.mul y)).add r)
  | _, _, _, _, _ => 0x7FC00000

/-- The 1,024 rays of a warped launch record (R329). -/
def warpedRays (bs : List Byte) (g : Grid) : List Ray :=
  let tok := w64 (field bs 0 8)
  let f (off : Nat) : W32 := w32 (field bs off 4)
  let m := wordsAt bs 0x1C 9
  let xs := (List.range 32).map (fun i => sampleNdc g.u (2 * (32 * bits tok 30 24 + i) + 1))
  let ys := (List.range 32).map (fun j => sampleNdc g.v (2 * (32 * bits tok 38 32 + j) + 1))
  (List.range 1024).map (fun n =>
    let x := xs.getD (n % 32) 0
    let y := ys.getD (n / 32) 0
    { slot := n, ox := f 8, oy := f 0xC, oz := f 0x10, dx := basisDot m 0 x y, dy := basisDot m 1 x y, dz := basisDot m 2 x y
      tmin := f 0x14, tmax := f 0x18 })

/-- RAYLW (R328, R329). The accesses that the warp has issued are performed before the record is read. -/
def execRaylw (d a b : BitVec 6) (g : Bool) (s : State) : Host.Outcome State Fault Refusal :=
  ({ word := wordA 0x71 d a b 1 g false, guard := g, cls := .graphics, scals := [d.toNat, a.toNat, b.toNat]
     uses := [useS a, useS b], tx := false } : Gate).run
    (fun s act =>
      let base := (s.w.sr b.toNat).bits
      let ra := (s.w.sr a.toNat).bits
      if act = 0 then .fall s
      else if bits base 5 0 ≠ 0 then trapAct 0x03 base act s
      else afterOps s (fun s => overFabric [ra] s (fun s1 =>
        match peek s1 s1.w ra 64 64 with
        | .fail f => trapAct f.cause f.tval act s1
        | .retry va => parkAt 0 [va] s1
        | .bytes bs =>
          match gridNamed s1 (w64 (field bs 0 8)) with
          | none => trapAct 0x01 ra act s1
          | some gr =>
            if 8 ≤ s1.w.batches.length then .wait 21 s1
            else launchRays d.toNat true base (warpedRays bs gr) act (noteReads act [ra] s1)))) s

/-! ### RAYR (R330) -/

/-- The place of a cause in the order of R187. -/
def stageOf : Nat → Nat
  | 0x03 => 5
  | 0x04 => 6
  | 0x15 => 7
  | 0x05 => 8
  | 0x0D => 9
  | _ => 10

/-- The result that lane l receives. -/
def rayFor (b : Batch) (chunk l : Nat) : RayRes :=
  (b.results.find? (fun r => r.slot == (if b.warped then chunk * 32 + l else l))).getD {}

/-- RAYR (R330). It waits until the traversal is complete, so that its traps are precise. -/
def execRayr (d a : BitVec 6) (g : Bool) (s : State) : Host.Outcome State Fault Refusal :=
  ({ word := wordA 0x72 d a 0 0 g false, guard := g, cls := .graphics, regs := [{ n := d.toNat, cnt := 4 }]
     scals := [a.toNat], uses := [useS a], full := s.w.counterFull .ld, tx := false } : Gate).run
    (fun s act =>
      let x := (s.w.sr a.toNat).bits
      let chunk := bits x 21 16
      if act = 0 then .fall s
      else if bits x 30 22 ≠ 0 ∨ bits x 63 32 ≠ 0 then trapAct 0x01 x act s
      else match s.w.batches.find? (fun b => b.id == bits x 15 0) with
        | none => trapAct 0x01 x act s
        | some b =>
          if (b.warped && 32 ≤ chunk) || (!b.warped && chunk != 0) then trapAct 0x01 x act s
          else if !b.done then .wait 3 s
          else
            failLanes (fun l => let r := rayFor b chunk l; if r.bad then some ⟨stageOf r.cause, r.cause, r.addr⟩ else none) s act
              (fun s act =>
                let lanes := (lanesOf act).map (fun l =>
                  let r := rayFor b chunk l
                  (l, [r.t, r.prim, r.u, r.v].map (fun v => ({ bits := v } : LW))))
                let w := if x.getLsbD 31 then { s.w with batches := s.w.batches.filter (fun y => y.id != b.id) } else s.w
                .fall (issueOp { cls := .ld, dst := .vals (s.w.p.wbase + d.toNat) lanes } { s with w := w }))) s

end Sys2Proof.Machine
end

