-- ==== Sys2Proof/Machine/Sample.lean ====
section
/-! DEFINITION. The charge record (R390), the trace triggers (R363), and the records of sampling, tracing and markers
(R361, R362, R364, R365). -/

namespace Sys2Proof.Machine

/-! ### The charge record (R390, R391) -/

/-- The weight of an opcode's class (R23, R390). -/
def weightOf (op : Nat) : Nat :=
  if (0x20 ≤ op && op ≤ 0x2B) || (0x31 ≤ op && op ≤ 0x38) then 2
  else if (0x2C ≤ op && op ≤ 0x2E) || op = 0x30 then 4
  else if op = 0x2F then 6
  else if (0x40 ≤ op && op ≤ 0x4D) || (0x58 ≤ op && op ≤ 0x5F) || (0x6C ≤ op && op ≤ 0x73) then 3
  else if 0x60 ≤ op && op ≤ 0x69 then 64
  else 1

/-- CCR_BUDGET of a cluster: what has been written last, or what the management controller set at reset (R391). -/
def budgetOf (s : State) (c : Nat) : BitVec 24 := (s.cluster c).budget.getD (Config.budgetReset c)

/-- The window: the charges of the last 256 cycles (R390). -/
def Cluster.windowSum (c : Cluster) : Nat := c.window.foldl (· + ·) c.now

/-- OVER (R390). -/
def overOf (s : State) (c : Nat) : Bool := (budgetOf s c).toNat < (s.cluster c).windowSum

/-- An issued instruction adds its charge (R390). -/
def addCharge (c n : Nat) (s : State) : State := s.setCluster c { s.cluster c with now := (s.cluster c).now + n }

/-! ### Triggers (R363) -/

/-- A condition of kind 1 or 4 holds in this cycle. -/
def condHolds (r cycle : W64) : Bool := bits r 3 0 == 1 || (bits r 3 0 == 4 && bits r 63 16 ≤ cycle.toNat)

/-- A start or a stop condition holds in this cycle (R363). -/
def Cluster.starts (c : Cluster) : Bool := c.hitStart || condHolds c.trigstart c.cycle
def Cluster.stops (c : Cluster) : Bool := c.hitStop || condHolds c.trigstop c.cycle

/-- ON in this cycle (R363). -/
def Cluster.onNow (c : Cluster) : Bool := c.trigOn || (c.trigArm && c.starts)

/-- Recording is on: EN and ON are both set (R362). -/
def Cluster.recording (c : Cluster) : Bool := c.sampctl.getLsbD 24 && c.onNow

/-- The instruction at the PC of a warp's path on turn issues: the trigger of KIND 2 (R363). -/
def trigIssue (w : Warp) (s : State) : State :=
  let c := s.cluster w.cluster
  let at_ (r : W64) : Bool := bits r 3 0 == 2 && w.p.pc == (c.trigpc &&& ~~~3#64)
  if sampled c w.ctx then
    s.setCluster w.cluster { c with hitStart := c.hitStart || at_ c.trigstart, hitStop := c.hitStop || at_ c.trigstop }
  else s

/-- The triggers at the end of a cycle (R363): ON is set, and a stop condition clears it with ARM, and sets DONE. -/
def Cluster.endCycle (c : Cluster) : Cluster :=
  let on := c.onNow
  let c1 := { c with hitStart := c.nextStart, hitStop := c.nextStop, nextStart := false, nextStop := false, early := [] }
  if on && c.stops then { c1 with trigOn := false, trigArm := false, trigDone := true } else { c1 with trigOn := on }

/-! ### Records (R362) -/

/-- The 32 bytes of a record of a warp at a trap level. -/
def sampleBytes (w : Warp) (level : Nat) (pc : W64) (mask : Mask) (mark : Nat) (stall : Nat) (issued slotB : Bool) : List Byte :=
  recordOf 32 [(0, 8, pc.toNat), (8, 8, mask.toNat), (0x10, 8, mark), (0x18, 2, w.core)
    , (0x1A, 1, stall + (if issued then 32 else 0) + 64 * w.sched), (0x1B, 1, w.warpid)
    , (0x1C, 4, w.ctx % 2 ^ 24 + level * 2 ^ 24 + (if slotB then 2 ^ 26 else 0))]

/-- Write a record to a cluster's ring, or drop it (R362). -/
def putRecord (c : Nat) (bs : List Byte) (s : State) : State :=
  let k := s.cluster c
  let n := 2 ^ k.sampsize
  if (k.samphead - k.samptail).toNat = n then s.setCluster c { k with sampdrop := bump k.sampdrop }
  else
    (storeBytes s (bits k.sampbase 63 12 * 4096 + 32 * (k.samphead.toNat % n)) bs).setCluster c { k with samphead := k.samphead + 1 }

/-- Records made before ON was set in this cycle are written once it is (R362, R363). -/
def writeEarly (c : Nat) (s : State) : State :=
  let k := s.cluster c
  if k.recording then k.early.foldl (fun s bs => putRecord c bs s) (s.setCluster c { k with early := [] }) else s

/-- A record of an issue or a marker: it is written after the earlier ones of the cycle where recording is on, and kept
where EN is set and ON may still be set in this cycle (R362, R363). -/
def makeRecord (c : Nat) (bs : List Byte) (s : State) : State :=
  let k := s.cluster c
  if k.recording then putRecord c bs (writeEarly c s)
  else if k.sampctl.getLsbD 24 && k.trigArm then s.setCluster c { k with early := k.early ++ [bs] }
  else s

/-- A path that a record shows when none has issued: slot A's, or slot B's where A is EMPTY or parked (R362). -/
def Warp.shownPath (w : Warp) : Path × Bool :=
  let a := if w.onB then w.q else w.p
  let b := if w.onB then w.p else w.q
  if !a.held || a.parked then (b, true) else (a, false)

/-- The stall code of a warp that has not issued in this cycle (R364): of a path that nothing else holds, that of its instruction,
and 25 where that has none. -/
def Warp.stallCode (w : Warp) (stopped : Bool) : Nat :=
  let p := w.shownPath.1
  if stopped then 28
  else if w.pend.isSome then 27
  else match w.block with
    | some c => c
    | none =>
      if p.st == .waiting then 23 else if p.parked then 24 else if w.yielded ≠ 0 then 26
      else p.stall.getD 25

/-- The record of a warp in this cycle (R362). -/
def warpRecord (w : Warp) (stopped : Bool) : List Byte :=
  if w.issued then sampleBytes w w.issLevel w.issPc w.issMask 0 0 true w.issB
  else
    let p := w.shownPath
    sampleBytes w w.tlevel p.1.pc p.1.mask 0 (w.stallCode stopped) false p.2

/-- The next sampled warp of a scheduler in rotation (R362). -/
def nextSampled (s : State) (core sched : Nat) : Option Warp :=
  let c := s.cluster (clusterOf s core)
  let ws := s.warps.filter (fun w => w.core == core && w.sched == sched && sampled c w.ctx)
  let from_ := look 0 (s.core core).rot sched
  let best (p : Warp → Bool) : Option Warp := (ws.filter p).foldl (fun (a : Option Warp) w =>
    match a with | none => some w | some x => if w.place < x.place then some w else some x) none
  match best (fun w => from_ ≤ w.place) with
  | some w => some w
  | none => best (fun _ => true)

/-- One scheduler's MODE 0 sample. -/
def sampleSched (cluster core sched : Nat) (s : State) : State :=
  match nextSampled s core sched with
  | none => s
  | some w =>
    let k := s.core core
    putRecord cluster (warpRecord w ((s.ctx w.ctx).stopped.contains core)) (s.setCore core { k with rot := put 0 k.rot sched (w.place + 1) })

/-- A cluster's schedulers write MODE 0 samples in this cycle: they are due every PERIOD cycles (R362). -/
def sampleDue (c : Nat) (s : State) : Bool :=
  let k := s.cluster c
  k.recording && !k.sampctl.getLsbD 25 && k.cycle.toNat % bits k.sampctl 23 0 == 0 && k.sampledAt != some k.cycle

/-- The MODE 0 samples of a cluster (R362). -/
def sampleNow (c : Nat) (s : State) : State :=
  let k := s.cluster c
  if sampleDue c s then
    let s1 := s.setCluster c { k with sampledAt := some k.cycle }
    (coresOf s c).foldl (fun s core => [0, 1, 2, 3].foldl (fun s d => sampleSched c core d s) s) s1
  else s

/-- SAMPLE_TICK (R362). -/
def execSampleTick (cluster : Nat) (s : State) : Host.Outcome State Fault Refusal := .next (sampleNow cluster s)

/-- TRIGGER_CYCLE_REACHED (R363): the conditions that CYCLE decides are looked at anew. -/
def execTriggerCycleReached (cluster : Nat) (s : State) : Host.Outcome State Fault Refusal :=
  let c := s.cluster cluster
  .next (s.setCluster cluster { c with hitStart := c.starts, hitStop := c.stops })

/-- The record of an issue under MODE 1 (R362). -/
def traceIssue (pc : W64) (mask : Mask) (slotB : Bool) (w : Warp) (s : State) : State :=
  let c := s.cluster w.cluster
  if c.sampctl.getLsbD 25 && sampled c w.ctx then makeRecord w.cluster (sampleBytes w w.tlevel pc mask 0 0 true slotB) s else s

/-- PMARK (R365). -/
def execPmark (imm : BitVec 16) (s : State) : Host.Outcome State Fault Refusal :=
  ({ word := wordL 0x7C 0 0 imm, cls := .control } : Gate).run
    (fun s _ =>
      let s1 := trigHit 3 imm.toNat 16 s
      let w := s1.w
      if sampled (s1.cluster w.cluster) w.ctx then
        .fall (makeRecord w.cluster (sampleBytes w w.tlevel w.p.pc w.p.mask imm.toNat 31 true w.onB) s1)
      else .fall s1) s

/-! ### The registers of sampling and triggers (R361) -/

/-- The register of CSR number 0x200 + i of a cluster. -/
def Cluster.sampReg (c : Cluster) : Nat → W64
  | 0 => c.sampctl
  | 1 => c.sampctx
  | 2 => c.sampbase
  | 3 => w64 c.sampsize
  | 4 => zx c.samphead
  | 5 => zx c.samptail
  | 6 => zx c.sampdrop
  | 7 => w64 ((if c.trigOn then 1 else 0) + (if c.trigDone then 2 else 0) + (if c.trigArm then 4 else 0))
  | 8 => c.trigstart
  | 9 => c.trigstop
  | 10 => c.trigpc
  | _ => 0

/-- A condition register keeps KIND and VALUE. -/
def condMask : W64 := 0xFFFFFFFFFFFF000F#64

/-- Write the register of CSR number 0x200 + i. -/
def Cluster.setSampReg (c : Cluster) (i : Nat) (x : W64) : Cluster :=
  match i with
  | 0 =>
    let n := max 64 (bits x 23 0)
    { c with sampctl := (x &&& 0x3000000#64) ||| w64 n }
  | 1 => { c with sampctx := x &&& 0x1FFFFFF#64 }
  | 2 => { c with sampbase := x &&& ~~~0xFFF#64 }
  | 3 => let n := bits x 4 0; { c with sampsize := if 6 ≤ n ∧ n ≤ 20 then n else 6 }
  | 5 => { c with samptail := lo32 x }
  | 6 => { c with sampdrop := lo32 x }
  | 7 => if x.getLsbD 2 then { c with trigArm := true, trigOn := false, trigDone := false } else { c with trigArm := false }
  | 8 => { c with trigstart := x &&& condMask }
  | 9 => { c with trigstop := x &&& condMask }
  | 10 => { c with trigpc := x &&& ~~~3#64 }
  | _ => c

/-- TRIGSTAT_ARM: the host writes TRIGSTAT (R361, R363). -/
def execTrigstatArm (cluster : Nat) (value : BitVec 64) (s : State) : Host.Outcome State Fault Refusal :=
  .next (s.setCluster cluster ((s.cluster cluster).setSampReg 7 value))

end Sys2Proof.Machine
end

