-- ==== Sys2Proof/Machine/System.lean ====
section
/-! DEFINITION. The CSRs (R50, R258, R338, R347, R350, R361, R391) and the instructions of trap and system state: CSRR,
CSRW, CSRS, CSRC, TRAP, BRK, RETT, YIELD, SLEEP, WAKE and FRAMESYNC (R343, R344, R347-R349). -/

namespace Sys2Proof.Machine

/-! ### Reading CSRs (R350) -/

/-- `n` bytes of the kernel's packet at an offset (R373). -/
def Kernel.pktField (k : Kernel) (off n : Nat) : Nat := field k.pkt off n

/-- The physical cluster of a logical one (R395). -/
def physCluster (s : State) (c : Nat) : Nat := (liveClusters s).getD c 0

/-- The unretired pairs of a logical cluster (R391). -/
def pairsLive (s : State) (c : Nat) : Nat := ((livePairs s).filter (fun p => p / 4 == physCluster s c)).length

/-- GUARD of a physical cluster, in mV (R391, R393). -/
def guardOf (s : State) (c : Nat) : Nat := 20 + Config.guardFusedExtra c + 2 * look 0 s.mc.steps c

/-- The physical pair whose replica YARROW shows: that of the latest reading; the lowest unretired one before it. -/
def yarrowShown (s : State) (c : Nat) : Nat :=
  match (s.cluster c).yarrowPair with
  | some k => 4 * physCluster s c + k
  | none => ((livePairs s).find? (fun p => p / 4 == physCluster s c)).getD 0

/-- A CSR from 0x300 (R391). -/
def readHealth (s : State) (c n : Nat) : W64 :=
  let k := s.cluster c
  match n with
  | 0 => k.throttle.zeroExtend 64
  | 1 => w64 ((budgetOf s c).toNat + (if overOf s c then 2 ^ 24 else 0))
  | 2 => zx k.eccCorr
  | 3 => zx k.eccUnc
  | 4 => zx k.fetchUnrep
  | 5 => w64 (k.yarrow.toNat + Config.yarrowBase (yarrowShown s c) % 65536 * 65536)
  | 6 => w64 (guardOf s (physCluster s c) % 256)
  | 7 => zx (look 0 s.mc.stress (physCluster s c))
  | 8 => k.thrcyc
  | 9 => w64 (pairsLive s c + 8 * (4 - pairsLive s c))
  | _ => 0

/-- TMODE of a bank (R338). -/
def Bank.tmode (b : Bank) : W64 :=
  w64 (b.mode.toNat + b.fsize * 2 ^ 32 + (if b.enter then 2 ^ 36 else 0) + b.wbase % 2 ^ 24 * 2 ^ 40)

/-- TCAUSE of a bank (R338). -/
def Bank.tcause (b : Bank) : W64 :=
  w64 (b.cause + (if b.skip then 256 else 0) + (if b.lit then 512 else 0) + b.arg * 65536)

/-- A CSR of a bank, by its place from 0x110 or 0x120 (R338). -/
def Bank.csr (b : Bank) : Nat → W64
  | 0 => b.tcause
  | 1 => b.tepc
  | 2 => b.tval
  | 3 => zx b.tmask
  | _ => b.tmode

/-- A role's number in CSR ROLE (R24). -/
def Role.num : Role → Nat
  | .general => 0
  | .feed => 1
  | .matrix => 2

/-- The CSRs below 0x100 (R350). -/
def readLow (s : State) (n : Nat) : W64 :=
  let w := s.w
  let g := s.wg w.wg
  let k := s.kernel w.kern
  match n with
  | 0x00 => w64 Config.warpWidth
  | 0x01 => w64 w.warpid
  | 0x02 => w64 g.x
  | 0x03 => w64 g.y
  | 0x04 => w64 g.z
  | 0x05 => w64 (k.pktField 0x10 4)
  | 0x06 => w64 (k.pktField 0x14 4)
  | 0x07 => w64 (k.pktField 0x18 4)
  | 0x08 => w64 (k.pktField 0x1C 1)
  | 0x09 => w64 g.rank
  | 0x0A => w64 (s.launch g.launch).size
  | 0x0B => w64 w.core
  | 0x0C => w64 w.cluster
  | 0x0D => w64 w.die
  | 0x0E => w64 w.role.num
  | 0x0F => w64 (k.pktField 0x08 8)
  | 0x10 => (s.cluster w.cluster).cycle
  | 0x11 => w.fflags.zeroExtend 64
  | 0x12 => w64 w.p.fdepth
  | 0x13 => w.fsbase
  | 0x14 => w.fslim
  | 0x15 => w.fshwm
  | 0x16 => w64 w.headroom
  | 0x17 => w64 w.agelim
  | 0x18 => w64 (w.txretry.toNat + (if w.group.isSome then 256 else 0) + (if holdsTabard s w.wid then 512 else 0))
  | 0x19 => w64 (coreCount s)
  | 0x1A => zx s.devpos
  | 0x1B => w64 w.fsrp
  | 0x1C => zx w.p.frp
  | _ => 0

/-- The value of a CSR, as the path on turn reads it (R347, R350). -/
def readCsr (s : State) (n : Nat) : W64 :=
  let w := s.w
  if n < 0x100 then readLow s n
  else if 0x300 ≤ n then readHealth s w.cluster (n - 0x300)
  else if 0x200 ≤ n then (s.cluster w.cluster).sampReg (n - 0x200)
  else if 0x120 ≤ n then w.bank2.csr (n - 0x120)
  else if 0x110 ≤ n then w.bank1.csr (n - 0x110)
  else match n with
    | 0x100 => w64 w.tlevel
    | 0x101 => w.tvec
    | 0x102 => w.tsave
    | 0x103 => w64 w.hsize
    | 0x104 => w.bank1.tmaskh
    | 0x105 => w.bank2.tmaskh
    | _ => 0

/-! ### Writing CSRs (R16, R347, R350) -/

/-- A write that would leave TMODE with a reserved RM or a reserved bit (R338). -/
def tmodeBad (x : W64) : Bool := 5 ≤ bits x 16 14 || bits x 31 21 != 0

/-- Write the CSR of a bank, by its place (R338). -/
def Bank.setCsr (b : Bank) (n : Nat) (x : W64) : Bank :=
  match n with
  | 0 => { b with skip := x.getLsbD 8 }
  | 1 => { b with tepc := x &&& ~~~3#64 }
  | 2 => { b with tval := x }
  | 4 => { b with mode := lo32 x }
  | _ => b

/-- Write a CSR of the warp (R50, R258, R338). -/
def Warp.setCsr (w : Warp) (n : Nat) (x : W64) : Warp :=
  match n with
  | 0x011 => { w with fflags := x.truncate 5 }
  | 0x015 => if w.tlevel = 0 then w else { w with fshwm := x }
  | 0x016 => { w with headroom := bits x 9 3 * 8 }
  | 0x017 => { w with agelim := max 16 (bits x 31 0) }
  | 0x018 => { w with txretry := x.truncate 8 }
  | 0x101 => { w with tvec := x &&& ~~~3#64 }
  | 0x102 => { w with tsave := x &&& ~~~0x1FF#64 }
  | 0x103 => { w with hsize := max 1 (min 8 (bits x 3 0)) }
  | _ =>
    if 0x120 ≤ n && n ≤ 0x124 then { w with bank2 := w.bank2.setCsr (n - 0x120) x }
    else if 0x110 ≤ n && n ≤ 0x114 then { w with bank1 := w.bank1.setCsr (n - 0x110) x }
    else w

/-- A CSR write by the warp on turn: RO fields and RO registers keep their values (R16, R347). -/
def writeCsr (n : Nat) (x : W64) (s : State) : State :=
  let c := s.w.cluster
  if n = 0x301 then s.setCluster c { s.cluster c with budget := some (x.truncate 24) }
  else if 0x300 ≤ n then s
  else if 0x200 ≤ n then s.setCluster c ((s.cluster c).setSampReg (n - 0x200) x)
  else { s with w := s.w.setCsr n x }

/-- The privilege of a CSR access: (H), (S) and (S on write) (R338, R350, R391). -/
def csrPriv (w : Warp) (n : Nat) (write : Bool) : Bool :=
  if n = 0x104 || n = 0x105 || (0x110 ≤ n && n ≤ 0x124) then w.tlevel ≠ 0
  else if 0x200 ≤ n && n ≤ 0x20A then w.sys
  else if n = 0x301 && write then w.sys
  else true

/-- CSRW, CSRS and CSRC: the new value from the current one and s[d] (R347). -/
def csrStore (fn : BitVec 3) (d : BitVec 6) (csr : BitVec 12) (f : W64 → W64 → W64) (s : State) :
    Host.Outcome State Fault Refusal :=
  let n := csr.toNat
  ({ word := wordL 0x76 d fn (csr.zeroExtend 16), cls := .control, priv := csrPriv s.w n true, scals := [d.toNat]
     uses := [useS d], tx := false } : Gate).run
    (fun s act =>
      let x := f (readCsr s n) (s.w.sr d.toNat).bits
      if (n = 0x114 ∨ n = 0x124) ∧ tmodeBad x then trapAct 0x01 x act s else .fall (writeCsr n x s)) s

/-- CSRR (R347). -/
def execCsrr (d : BitVec 6) (csr : BitVec 12) (s : State) : Host.Outcome State Fault Refusal :=
  ({ word := wordL 0x76 d 0 (csr.zeroExtend 16), cls := .control, priv := csrPriv s.w csr.toNat false
     scals := [d.toNat] } : Gate).run
    (fun s _ => .fall { s with w := s.w.setS d.toNat (readCsr s csr.toNat) false }) s
/-- CSRW (R347). -/
def execCsrw (d : BitVec 6) (csr : BitVec 12) (s : State) : Host.Outcome State Fault Refusal :=
  csrStore 1 d csr (fun _ x => x) s
/-- CSRS (R347). -/
def execCsrs (d : BitVec 6) (csr : BitVec 12) (s : State) : Host.Outcome State Fault Refusal :=
  csrStore 2 d csr (fun c x => c ||| x) s
/-- CSRC (R347). -/
def execCsrc (d : BitVec 6) (csr : BitVec 12) (s : State) : Host.Outcome State Fault Refusal :=
  csrStore 3 d csr (fun c x => c &&& ~~~x) s

/-! ### TRAP, BRK and RETT (R343, R344) -/

/-- TRAP and BRK (R344). -/
def softTrap (fn : BitVec 3) (cause : Nat) (imm : BitVec 16) (s : State) : Host.Outcome State Fault Refusal :=
  ({ word := wordL 0x77 0 fn imm, cls := .control } : Gate).run
    (fun s act => .trap s { cause := cause, tval := imm.zeroExtend 64, lanes := act, act := act, arg := imm.toNat }) s

/-- TRAP (R344). -/
def execTrap (imm : BitVec 16) (s : State) : Host.Outcome State Fault Refusal := softTrap 0 0x14 imm s
/-- BRK (R344). -/
def execBrk (imm : BitVec 16) (s : State) : Host.Outcome State Fault Refusal := softTrap 1 0x13 imm s
/-- RETT (R343). -/
def execRett (s : State) : Host.Outcome State Fault Refusal :=
  ({ word := wordN 0x78 false, cls := .control, priv := s.w.tlevel != 0 } : Gate).run returnTrap s

/-! ### YIELD, SLEEP and WAKE (R348) -/

/-- What the forms of OP 0x79 need. -/
def yieldGate (fn : BitVec 4) (a : BitVec 6) (g : Bool) (us : List Use) : Gate :=
  { word := wordA 0x79 0 a 0 fn g false, guard := g, cls := .control, scals := us.map (·.n), uses := us, tx := false }

/-- YIELD: the scheduler passes the warp over until the end of the next cycle (R348). -/
def execYield (g : Bool) (s : State) : Host.Outcome State Fault Refusal :=
  (yieldGate 0 0 g []).run
    (fun s act => if act = 0 then .fall s else .fall { s with w := { s.w with yielded := 2 } }) s

/-- SLEEP (R348). -/
def execSleep (a : BitVec 6) (g : Bool) (s : State) : Host.Outcome State Fault Refusal :=
  (yieldGate 1 a g [useS a]).run
    (fun s act =>
      let t := (s.w.sr a.toNat).bits.toNat
      if act = 0 then .fall s
      else if s.w.wake then .fall { s with w := { s.w with wake := false, sleep := none } }
      else if s.w.block = some 12 then
        (if s.w.grant = some .done then .fall { s with w := { s.w with sleep := none } } else .block 12 s)
      else .block 12 { s with w := { s.w with sleep := if t = 0 then none else some t } }) s

/-- A warp whose SLEEP has a timeout that has elapsed resumes (R348). -/
def Warp.timeout (w : Warp) : Warp := if w.block = some 12 ∧ w.sleep = some 0 then { w with grant := some .done } else w

/-- SLEEP_TIMEOUT: the timeout of a sleeping warp has elapsed (R348). -/
def execSleepTimeout (wid : Nat) (s : State) : Host.Outcome State Fault Refusal := .next (s.modWarp wid Warp.timeout)

/-- The warps that a WAKE names. -/
def wakes (me : Warp) (x : W64) (w : Warp) : Bool :=
  w.wg == me.wg && (if x.getLsbD 5 then w.wid != me.wid else w.warpid == bits x 4 0)

/-- WAKE (R348). -/
def execWake (a : BitVec 6) (g : Bool) (s : State) : Host.Outcome State Fault Refusal :=
  (yieldGate 2 a g [useS a]).run
    (fun s act =>
      let x := (s.w.sr a.toNat).bits
      if act = 0 then .fall s
      else if bits x 63 6 ≠ 0 ∨ (!x.getLsbD 5 ∧ (s.kernel s.w.kern).pktField 0x1C 1 ≤ bits x 4 0) then trapAct 0x01 x act s
      else
        let me := s.w
        .fall (s.mapWarps (fun w => if wakes me x w then { w with wake := true } else w))) s

/-! ### FRAMESYNC (R349) -/

/-- FRAMESYNC (R49, R349): it waits for the spills and fills that the FSE has still to make. -/
def execFramesync (s : State) : Host.Outcome State Fault Refusal :=
  ({ word := wordN 0x7D false, cls := .control } : Gate).run
    (fun s act =>
      match s.w.fse.find? (fun f => !f.retry) with
      | some f => trapAct 0x0C f.addr act { s with w := s.w.clearFail f.addr }
      | none =>
        if s.w.fse.any (fun f => f.retry) then .block 13 s
        else if s.w.fseBusy then .block 4 s
        else if s.w.raysBehind || s.w.raysFrame then .wait 3 s
        else match syncRecords s s.w with
          | .ok t => .fall t
          | .error (va, true) =>
            .block 13 (addFault s.w.die s.w.ctx va (syncKind s s.w) { s with w := { s.w with retry := [va] } })
          | .error (va, false) => trapAct 0x0C va act s) s

end Sys2Proof.Machine
end

