-- ==== Sys2Proof/Machine/Retire.lean ====
section
/-! DEFINITION. EXIT, the retirement of warps, workgroups and kernels (R60, R61, R173), and the completion of a warp's
outstanding operations, which retirement waits for (R203, R204, R269, R287). -/

namespace Sys2Proof.Machine

/-! ### Workgroups and kernels (R61, R325) -/

/-- Free the handles of a workgroup that satisfy `p`; their segments' bytes go with them. -/
def freeHandles (wg : Nat) (p : Handle → Bool) (s : State) : State :=
  let g := s.wg wg
  let gone := g.handles.filter (fun e => p e.2)
  (gone.foldl (fun s e => dropSeg e.2.seg s) s).setWg wg { g with handles := g.handles.filter (fun e => !p e.2) }

/-- Bytes of the reservation that CLUSTER-level handles still hold. -/
def WG.kept (g : WG) : Nat := ((g.handles.filter (fun e => e.2.cluster)).map (fun e => e.2.need)).foldl (· + ·) 0

/-- A core's array is released by its owner (R265). -/
def releaseArray (wg : Nat) (s : State) : State :=
  { s with cores := s.cores.map (fun e =>
      if e.2.owner == some wg then (e.1, { e.2 with owner := none, mxa := [], fromLeader := [] }) else e) }

/-- A launch ends with its last workgroup: CLUSTER-level handles and their segments are freed (R61). -/
def endLaunch (id : Nat) (s : State) : State :=
  let l := s.launch id
  if l.wgs.any (fun g => (s.wg g).live) then s
  else
    let s1 := l.wgs.foldl (fun s g => freeHandles g (fun _ => true) s) s
    { s1 with wgs := s1.wgs.filter (fun e => !l.wgs.contains e.1), launches := del s1.launches id }

/-- A kernel counts a retired workgroup; with its last one the DONE_SIG increment is due (R61, R378). -/
def Kernel.countRetired (k : Kernel) (die : Nat) : Kernel :=
  let n := k.retired + 1
  { k with retired := n, lastDie := die, st := if n = k.total ∧ k.st = .running then .signal else k.st }

/-- A workgroup retires with its last warp (R61, R265, R300, R325). -/
def retireWg (wg : Nat) (s : State) : State :=
  let s1 := freeHandles wg (fun h => !h.cluster) (releaseArray wg (pairEvent wg 1 (withdrawWg wg none s)))
  let g := s1.wg wg
  let s2 := s1.setWg wg { g with live := false, reserve := g.kept, free := 0, xfer := [], regroup := [], cpc := [] }
  endLaunch g.launch (s2.setKernel g.kern ((s2.kernel g.kern).countRetired (dieOf s2 g.core)))

/-! ### Warps (R60) -/

/-- A warp whose lanes have all exited leaves once its operations are complete (R60). -/
def Warp.gone (w : Warp) : Bool := !w.live && w.ops.isEmpty && w.cps.isEmpty && w.tls.isEmpty

/-- Take a warp off the device. -/
def removeWarp (wid : Nat) (s : State) : State :=
  if s.w.resident && s.w.wid == wid then { s with w := { s.w with resident := false } }
  else { s with others := s.others.filter (fun w => !(w.wid == wid)) }

/-- The retirement of a warp, when nothing holds it (R60, R259). -/
def tryRetire (wid : Nat) (s : State) : State :=
  match s.warp? wid with
  | none => s
  | some w =>
    if w.gone then
      let s1 := removeWarp wid (releaseTabard wid s)
      if s1.warps.any (fun x => x.wg == w.wg) then s1 else retireWg w.wg s1
    else s

/-- Every warp that can retire does. -/
def retireGone (s : State) : State := ((s.warps.filter Warp.gone).map (·.wid)).foldl (fun s n => tryRetire n s) s

/-- What the departure of a warp can complete in its workgroup and its cluster launch (R145, R236, R283). -/
def departed (wg : Nat) (s : State) : State := cpcTry wg (barTry true wg (barTry false wg (regroupTry wg s)))

/-! ### EXIT (R173) -/

/-- A CALL record as it is restored (R53), where a record is one. -/
def callBody (s : State) (r : Rec) : Except (W64 × Bool) (Option CallRec) :=
  match r.body with
  | .split _ => .ok none
  | .call _ =>
    match recBody s s.w r with
    | .error e => .error e
    | .ok (.split _) => .ok none
    | .ok (.call c) => .ok (some c)

/-- The lanes of `m` leave a CALL record: with an empty PMASK it is freed, and s48 to s63 are restored (R173). -/
def exitRec (m : Mask) (s : State) (r : Rec) : Except (W64 × Bool) State :=
  match callBody s r with
  | .error e => .error e
  | .ok none => .ok s
  | .ok (some c) =>
    if c.pmask &&& m = 0 then .ok s
    else
      let pm := c.pmask &&& ~~~m
      .ok { s with w := if pm = 0 then (s.w.restoreScal c).freeRec r.off else s.w.setRec r.off (.call { c with pmask := pm }) }

/-- The scalars that an EXIT of the lanes of `m` restores: s48 to s63 where it frees a record (R46, R205). -/
def exitScals (s : State) (m : Mask) : List Nat :=
  if s.w.recs.any (fun r => match callBody s r with
    | .ok (some c) => c.pmask &&& m != 0 && c.pmask &&& ~~~m == 0
    | _ => false) then savedScals else []

/-- The lanes leave every CALL record, the innermost first. -/
def exitRecs (m : Mask) (s : State) : Except (W64 × Bool) State :=
  s.w.recs.foldl (fun (acc : Except (W64 × Bool) State) r =>
    match acc with
    | .error e => .error e
    | .ok t => exitRec m t r) (.ok s)

/-- The effect of EXIT in the lanes of `act`: a path without lanes leaves its slot (R60, R173). IRREVOCABLE lanes leave their group
as at a TXEND, once every access before it is performed, so that no transaction of another warp meets a part of the group's work
(R255, R260). -/
def exitLanes (s : State) (act : Mask) : Res :=
  if act = 0 then .fall s
  else if s.w.irrTx act ≠ 0 ∧ !(s.w.allPerformed && !s.tileBusy) then .wait 3 s
  else match exitRecs act s with
    | .error e => recFault e s act
    | .ok s1 =>
      let w := s1.w.commitTx act
      let m := w.p.mask &&& ~~~act
      if m = 0 then .jump (closeGroup { s1 with w := { w with p := {} } })
      else .fall (closeGroup { s1 with w := { w with p := { w.p with mask := m } } })

/-- A warp without live lanes departs after its EXIT (R60). -/
def afterExit (s : State) : State :=
  if s.w.resident && !s.w.live then tryRetire s.w.wid (departed s.w.wg s) else s

/-- EXIT (R60, R173, R337). -/
def execExit (g : Bool) (s : State) : Host.Outcome State Fault Refusal :=
  let gt : Gate := { word := wordN 0x15 g, guard := g, cls := .control, ok := s.w.tlevel == 0, tx := false
                     scals := exitScals s (s.w.active g) }
  match gt.run exitLanes s with
  | .next t => .next (afterExit t)
  | o => o

/-! ### Completions (R203, R204, R269, R287) -/

/-- MEMORY_OP_COMPLETE: accesses of an outstanding operation are performed, those of the places that `lanes` selects,
and the operation completes with the last (R203, R204, R225). -/
def execMemoryOpComplete (wid seq : Nat) (lanes : BitVec 32) (s : State) : Host.Outcome State Fault Refusal :=
  .next (tryRetire wid (runOp wid seq false (fun k => lanes.getLsbD (k % 32)) s))

/-- MXA_OPERATION (R269). -/
def execMxaOperation (core : Nat) (s : State) : Host.Outcome State Fault Refusal := .next (retireGone (mxaStep core s))

/-- COPY_ROW (R287). -/
def execCopyRow (copy : Nat) (s : State) : Host.Outcome State Fault Refusal := .next (retireGone (copyRow copy s))

/-- RANGE_LOCK_RELEASE (R239). -/
def execRangeLockRelease (copy : Nat) (s : State) : Host.Outcome State Fault Refusal := .next (releaseLocks copy s)

/-- TABARD_GRANT: the oldest request at the Tabard of a domain is granted, where R259 allows it. -/
def execTabardGrant (dom : Nat) (s : State) : Host.Outcome State Fault Refusal := .next (grantTabard (domOf dom) s)

end Sys2Proof.Machine
end

