-- ==== Sys2Proof/Machine/Launch.lean ====
section
/-! DEFINITION. Queues and launch: the launch packet and its checks (R373, R377), readiness (R374), the order of choice
(R375), placement (R20, R21, R24-R28, R31, R265, R376, R379), breakpoints (R358), DONE_SIG (R378), and DLAUNCH and DJOIN
(R62-R64, R381). -/

namespace Sys2Proof.Machine

/-! ### Queues (R372) -/

def Queue.en (q : Queue) : Bool := q.ctl.getLsbD 0
def Queue.dl (q : Queue) : Bool := q.ctl.getLsbD 1
def Queue.isSys (q : Queue) : Bool := q.ctl.getLsbD 2
def Queue.pe (q : Queue) : Bool := q.ctl.getLsbD 3
def Queue.qprio (q : Queue) : Nat := bits q.ctl 6 4
def Queue.cx (q : Queue) : Nat := bits q.ctl 39 16

/-- Packets in the ring. -/
def Queue.waiting (q : Queue) : Nat := (q.tail - q.head).toNat

/-- The memory key of packet k (R372). -/
def Queue.slot (q : Queue) (k : Nat) : Nat := bits q.base 63 12 * 4096 + 128 * (k % 2 ^ q.log2n)

/-- A logical core's bit of the mask; bits at and above CORES are ignored (R372). -/
def Queue.inMask (q : Queue) (s : State) (core : Nat) : Bool :=
  core < coreCount s && (match core / 64 with | 0 => q.mask0 | 1 => q.mask1 | 2 => q.mask2 | _ => q.mask3).getLsbD (core % 64)

/-- TAIL is written, which makes packets visible in the order of arrival of such writes (R372, R375). -/
def setTail (q : Nat) (t : W32) (s : State) : State :=
  let x := s.queue q
  if t = x.tail then s
  else { s with nextStamp := s.nextStamp + 1 }.setQueue q { x with tail := t, arrivals := x.arrivals ++ [(t, s.nextStamp)] }

/-! ### The packet (R373, R377) -/

/-- A launch packet's bytes, with its fields by offset and size. -/
abbrev Pkt := List Byte

def Pkt.f (p : Pkt) (off n : Nat) : Nat := field p off n
def Pkt.gx (p : Pkt) : Nat := p.f 0x10 4
def Pkt.gy (p : Pkt) : Nat := p.f 0x14 4
def Pkt.gz (p : Pkt) : Nat := p.f 0x18 4
def Pkt.warps (p : Pkt) : Nat := p.f 0x1C 1
def Pkt.shape (p : Pkt) : Nat := p.f 0x1D 1
def Pkt.pair (p : Pkt) : Bool := p.f 0x1E 1 % 2 == 1
def Pkt.feed (p : Pkt) : Nat := p.f 0x20 1
def Pkt.matrix (p : Pkt) : Nat := p.f 0x21 1
def Pkt.general (p : Pkt) : Nat := p.f 0x22 1
def Pkt.scratch (p : Pkt) : Nat := p.f 0x28 4
def Pkt.frame (p : Pkt) : Nat := p.f 0x2C 4
def Pkt.mxa (p : Pkt) : Bool := p.f 0x48 4 % 2 == 1
def Pkt.barrier (p : Pkt) : Bool := p.f 0x48 4 / 2 % 2 == 1

/-- The role and the budget of warp i (R24, R26). -/
def Pkt.roleOf (p : Pkt) (i : Nat) : Role × Nat :=
  if i < p.feed then (.feed, 16 * p.f 0x24 1)
  else if i < p.feed + p.matrix then (.matrix, 16 * p.f 0x25 1)
  else (.general, 16 * p.f 0x26 1)

/-- What one core must have free for a workgroup: warps and registers by scheduler, in the order of warp indices (R27). -/
def Pkt.load (p : Pkt) (r : Nat) : Nat × Nat :=
  let is := (List.range p.warps).filter (fun i => i % 4 == r)
  (is.length, (is.map (fun i => (p.roleOf i).2)).foldl (· + ·) 0)

/-- An idle core could hold one workgroup (R28, R377). -/
def Pkt.fitsIdle (p : Pkt) : Bool := [0, 1, 2, 3].all (fun r => (p.load r).1 ≤ 16 && (p.load r).2 ≤ Config.schedRegs)

/-- The clusters, or for CL_SHAPE 1 the cores, of a mask that could hold one launch while idle (R377). -/
def couldHold (s : State) (q : Queue) (p : Pkt) : Bool :=
  let cores := (List.range (coreCount s)).filter (q.inMask s)
  let need := p.shape
  p.fitsIdle &&
    (if need ≤ 1 then !cores.isEmpty
    else (List.range (liveClusters s).length).any (fun c =>
      let mine := cores.filter (fun k => clusterOf s k == c)
      if p.pair then need / 2 ≤ (mine.filter (fun k => k % 2 == 0 && mine.contains (k + 1))).length else need ≤ mine.length))

/-- A budget byte is within its limits, or its count is 0 (R373). -/
def budgetOk (count b : Nat) : Bool := count == 0 || (4 ≤ b && b ≤ 32)

/-- The lowest REASON from 1 to 9 with which a packet is rejected (R377). -/
def Pkt.reason (p : Pkt) (s : State) (q : Queue) : Option Nat :=
  let shapes := p.shape == 1 || p.shape == 2 || p.shape == 4 || p.shape == 8
  if p.f 0x1E 1 / 2 ≠ 0 ∨ p.f 0x23 1 ≠ 0 ∨ p.f 0x27 1 ≠ 0 ∨ p.f 0x48 4 / 4 ≠ 0 ∨ p.f 0x4C 52 ≠ 0 then some 1
  else if p.f 0 8 % 8 ≠ 0 ∨ p.f 0x30 8 % 8 ≠ 0 ∨ p.f 0x40 8 % 8 ≠ 0 then some 2
  else if p.gx = 0 ∨ p.gy = 0 ∨ p.gz = 0 then some 3
  else if p.warps = 0 ∨ 32 < p.warps ∨ p.feed + p.matrix + p.general ≠ p.warps then some 4
  else if !(budgetOk p.feed (p.f 0x24 1) && budgetOk p.matrix (p.f 0x25 1) && budgetOk p.general (p.f 0x26 1)) then some 5
  else if !shapes ∨ p.gx % p.shape ≠ 0 ∨ (p.pair ∧ p.shape = 1) then some 6
  else if 524288 < p.scratch ∨ p.frame % 4096 ≠ 0 ∨ (s.ctx q.cx).fstride < p.frame then some 7
  else if 7 < p.f 0x1F 1 then some 8
  else if !couldHold s q p then some 9
  else none

/-! ### Heads (R374, R375, R377) -/

/-- The queue presents its head packet (R374, R380): it is enabled, its context is registered and runs, a packet waits,
and no image waits for a place. -/
def presents (s : State) (n : Nat) : Bool :=
  let q := s.queue n
  let c := s.ctx q.cx
  q.en && c.live && !c.killed && c.stop == 0 && !s.mc.recovery && q.waiting != 0 && !s.resumes.any (fun u => u.queue == n)

/-- The head packet's bytes. -/
def headPkt (s : State) (n : Nat) : Pkt := loadBytes s ((s.queue n).slot (s.queue n).head.toNat) 128

/-- The kernel of a queue's head, or its packet before any workgroup is placed. -/
def headOf (s : State) (n : Nat) : Pkt :=
  match (s.queue n).headKern with
  | some k => (s.kernel k).pkt
  | none => headPkt s n

/-- A kernel has not completed (R374, R381). -/
def Kernel.open_ (k : Kernel) : Bool :=
  match k.st with
  | .running | .signal | .held _ => true
  | _ => false

/-- Every earlier packet of the queue has completed (R374). -/
def earlierDone (s : State) (n : Nat) : Bool := !s.kernels.any (fun e => e.2.live && e.2.queue == n && e.2.open_)

/-- The cluster whose error log takes what a die's dispatcher meets: the lowest of the die. -/
def logCluster (s : State) (die : Nat) : Nat := (liveClusters s).findIdx (fun c => c / 16 == die)

/-- A packet that leaves the ring needs no release any more (R358), and no die holds its read (R374). -/
def dropPass (n idx : Nat) (s : State) : State :=
  { s with dies := s.dies.map (fun e => (e.1, { e.2 with
      pass := e.2.pass.filter (fun p => p != (n, idx)), heldHeads := e.2.heldHeads.filter (fun p => p != (n, idx)) })) }

/-- The head leaves the ring as a kernel of its own: its number in the list of children, where it is a child (R63). -/
def takeHead (n : Nat) (k : Kernel) (s : State) : State :=
  let q := s.queue n
  let idx := q.head.toNat
  let child := q.pending.find? (fun p => p.1 == idx)
  let k1 : Kernel := { k with parent := child.map (fun p => p.2.1) }
  let s1 := { s with nextKern := s.nextKern + 1 }.setKernel s.nextKern k1
  let s2 := dropPass n idx
    (s1.setQueue n { s1.queue n with pending := q.pending.filter (fun p => p.1 != idx), headKern := some s.nextKern })
  match child with
  | none => s2
  | some (_, parent, id) =>
    let p := s2.kernel parent
    s2.setKernel parent { p with
      children := p.children.map (fun c => if c.1 == id && c.2 == 0 then (c.1, s.nextKern) else c) }

/-- The head is rejected: it is consumed, nothing of it runs, and a host queue's context receives a KIND 1 record; a
child completes FAULTED with ILLEGAL_OP (R63, R370, R377). -/
def rejectHead (n reason : Nat) (s : State) : State :=
  let q := s.queue n
  let pkt := headPkt s n
  let idx := q.head.toNat
  let s1 := takeHead n { live := true, ctx := q.cx, queue := n, index := idx, pkt := pkt, st := .faulted 0x01 } s
  let s2 := s1.setQueue n (s1.queue n).advance
  if q.dl then s2
  else ringOrHold q.cx 3 (patch (recordOf 256 [(0, 4, q.cx), (4, 1, reason), (7, 1, 1), (8, 8, n), (0x10, 8, idx % 2 ^ q.log2n)])
    0x80 pkt) s2

/-- A die's dispatcher examines the head of a queue (R374, R377). A rejection waits until its record finds room (R369); a read
over the fabric that is refused leaves the head not ready, to be examined again (R385). -/
def examineHead (die n : Nat) (s : State) : State :=
  let q := s.queue n
  let p := headPkt s n
  let reject (r : Nat) (t : State) : State := if q.dl || ringReady s q.cx 3 then rejectHead n r t else s
  if !presents s n || q.headKern.isSome || q.ready || (s.die die).heldHeads.contains (n, q.head.toNat) then s
  else match p.reason s q with
    | some r => reject r s
    | none =>
      if p.barrier && !earlierDone s n then s
      else if p.f 0x38 8 = 0 then s.setQueue n { q with ready := true }
      else
        let va := w64 (p.f 0x30 8)
        match checkPage s q.cx die va .read with
        | .error _ => reject 10 s
        | .ok (_, x) =>
          if !x.resident then
            addFault die q.cx va 0 (s.setDie die { s.die die with heldHeads := (s.die die).heldHeads ++ [(n, q.head.toNat)] })
          else
          let out := sendAll q.cx [x.key] s
          let s := out.1
          if !out.2 then s
          else if isBad s x.key then reject 10 (logUnc (logCluster s die) s)
          else if p.f 0x38 8 ≤ rdMem s.mem x.key 8 then s.setQueue n { q with ready := true }
          else s

/-- A head that a dispatcher may choose (R374, R358). -/
def choosable (s : State) (n : Nat) : Bool :=
  presents s n && !(s.queue n).halted && ((s.queue n).ready || (s.queue n).headKern.isSome)

/-- The order of choice: SYS queues first, then the higher effective priority, then the earlier arrival (R375). -/
def before (s : State) (a b : Nat) : Bool :=
  let key (n : Nat) : Nat × Nat × Nat :=
    let q := s.queue n
    (if q.isSys then 0 else 1, 8 - min ((headOf s n).f 0x1F 1) q.qprio, (q.arrivals.head?.map (·.2)).getD 0)
  let x := key a
  let y := key b
  x.1 < y.1 || (x.1 == y.1 && (x.2.1 < y.2.1 || (x.2.1 == y.2.1 && x.2.2 < y.2.2)))

/-- Insert in the order of choice. -/
def insHead (s : State) (n : Nat) : List Nat → List Nat
  | [] => [n]
  | m :: ms => if before s n m then n :: m :: ms else m :: insHead s n ms

/-- The heads that may be chosen, in the order of choice (R375). -/
def headsInOrder (s : State) : List Nat := ((List.range 64).filter (choosable s)).foldl (fun l n => insHead s n l) []

/-! ### Room on a core (R22, R26, R28, R265) -/

/-- Warps and registers that a scheduler of a core holds. -/
def schedLoad (s : State) (core d : Nat) : Nat × Nat :=
  let ws := s.warps.filter (fun w => w.core == core && w.sched == d)
  (ws.length, (ws.map (·.budget)).foldl (· + ·) 0)

/-- Scratch that is reserved on a core (R28, R61). -/
def reservedOn (s : State) (core : Nat) : Nat :=
  ((s.wgs.filter (fun e => e.2.core == core)).map (fun e => e.2.reserve)).foldl (· + ·) 0

/-- What a workgroup asks of a core: warps and registers by scheduler, scratch, and the array. -/
structure Ask where
  sched : Nat → Nat × Nat
  scratch : Nat
  mxa : Bool

/-- The conditions of R28 and R265 on one core. -/
def coreFits (s : State) (a : Ask) (core : Nat) : Bool :=
  [0, 1, 2, 3].all (fun d =>
    let h := schedLoad s core d
    h.1 + (a.sched d).1 ≤ 16 && h.2 + (a.sched d).2 ≤ Config.schedRegs) &&
  reservedOn s core + roundUp a.scratch 256 ≤ Config.coreScratch && !(a.mxa && (s.core core).owner.isSome)

/-- A packet's workgroup asks each core by that core's scheduler pointer (R27). -/
def Pkt.ask (p : Pkt) (s : State) (core : Nat) : Ask :=
  { sched := fun d => p.load ((d + 4 - (s.core core).sptr % 4) % 4), scratch := p.scratch, mxa := p.mxa }

/-- The cores that a launch of n workgroups may take, by rank, in the cluster of a core (R21, R376): whole pairs in pair
mode. -/
def placesIn (ok : Nat → Nat → Bool) (pair : Bool) (n : Nat) (cores : List Nat) : Option (List Nat) :=
  let pick :=
    if pair then (cores.filter (fun k => k % 2 == 0 && cores.contains (k + 1))).foldl (fun (l : List Nat) k =>
      if ok l.length k && ok (l.length + 1) (k + 1) then l ++ [k, k + 1] else l) []
    else cores.foldl (fun (l : List Nat) k => if ok l.length k then l ++ [k] else l) []
  if n ≤ pick.length then some (pick.take n) else none

/-- A list of cores is a place for a launch of n workgroups (R21, R376). -/
def placeOk (s : State) (q : Queue) (die : Nat) (ok : Nat → Nat → Bool) (pair : Bool) (n : Nat) (cores : List Nat) : Bool :=
  cores.length == n && cores.eraseDups.length == n &&
    cores.all (fun k => q.inMask s k && dieOf s k == die && clusterOf s k == clusterOf s (cores.headD 0)) &&
    (List.range n).all (fun r => ok r (cores.getD r 0)) &&
    (!pair || (List.range (n / 2)).all (fun i =>
      cores.getD (2 * i) 0 % 2 == 0 && cores.getD (2 * i + 1) 0 == cores.getD (2 * i) 0 + 1))

/-- The place of a launch on a die: the one that is asked for where it serves, and otherwise the first that does. -/
def findPlace (s : State) (q : Queue) (die : Nat) (ok : Nat → Nat → Bool) (pair : Bool) (n : Nat) (asked : List Nat) :
    Option (List Nat) :=
  if placeOk s q die ok pair n asked then some asked
  else
    let mine := (List.range (coreCount s)).filter (fun k => q.inMask s k && dieOf s k == die)
    (List.range (liveClusters s).length).findSome? (fun c => placesIn ok pair n (mine.filter (fun k => clusterOf s k == c)))

/-! ### Placement (R20, R24, R27, R31, R142, R266, R376, R379) -/

/-- Frame slots that a context's warps hold, resident, waiting for a place, or saved in an image that no RESUME has taken up
(R379). -/
def slotsUsed (s : State) (ctx : Nat) : List Nat :=
  ((s.warps ++ s.resumes.flatMap (·.warps)).filter (fun w => w.ctx == ctx)).map (·.fslot) ++ (s.ctx ctx).saved

/-- The lowest free frame slot of a context (R379). -/
def freeSlot (s : State) (ctx : Nat) : Nat :=
  let used := slotsUsed s ctx
  ((List.range (used.length + 1)).find? (fun n => !used.contains n)).getD 0

/-- The lowest free place on a scheduler (R22, R362). -/
def freePlace (s : State) (core d : Nat) : Nat :=
  let used := (s.warps.filter (fun w => w.core == core && w.sched == d)).map (·.place)
  ((List.range 16).find? (fun n => !used.contains n)).getD 0

/-- Add a warp to the resident warps. -/
def addWarp (w : Warp) (s : State) : State :=
  if s.w.resident then { s with others := insWarp w s.others } else { s with w := w }

/-- A new warp of a workgroup (R31, R142, R379). -/
def newWarp (s : State) (ctx kern wg core i : Nat) (pkt : Pkt) (sys : Bool) : Warp :=
  let r := pkt.roleOf i
  let d := ((s.core core).sptr + i) % 4
  let c := s.ctx ctx
  let slot := freeSlot s ctx
  let base := c.fpool + w64 (slot * c.fstride)
  { resident := true, wid := s.nextWid, ctx := ctx, kern := kern, wg := wg, warpid := i, role := r.1, sched := d
    place := freePlace s core d, core := core, cluster := clusterOf s core, die := dieOf s core, budget := r.2, sys := sys
    fslot := slot, p := { st := .running, pc := w64 (pkt.f 0 8), mask := fullMask }
    tid := laneList.foldl (fun t l => put 0 t l (w32 (i * Config.warpWidth + l))) []
    fsbase := base, fslim := base + w64 pkt.frame }

/-- The warps of a workgroup are placed on its core, and the pointer advances (R20, R27). -/
def placeWarps (ctx kern wg core : Nat) (pkt : Pkt) (sys : Bool) (s : State) : State :=
  let s1 := (List.range pkt.warps).foldl (fun (s : State) i =>
    addWarp (newWarp s ctx kern wg core i pkt sys) { s with nextWid := s.nextWid + 1 }) s
  s1.setCore core { s1.core core with sptr := ((s1.core core).sptr + pkt.warps) % 4 }

/-- A workgroup takes its core's array, in the state of R266. -/
def takeArray (wg core : Nat) (s : State) : State :=
  s.setCore core { s.core core with
    owner := some wg, issuedCfg := [], issuedTag := [], tiles := [], accs := [], mxa := [], fromLeader := [] }

/-- Place the workgroup of linear index `i` and of a rank on a core (R20, R376). What the launch is ordered after is visible
to it: the core's L1 drops its lines (R63, R221, R374). -/
def placeWg (ctx kern launch rank core i : Nat) (pkt : Pkt) (sys : Bool) (s : State) : State :=
  let wg := s.nextWg
  let g : WG :=
    { live := true, kern := kern, launch := launch, core := core, x := i % pkt.gx, y := i / pkt.gx % pkt.gy
      z := i / pkt.gx / pkt.gy, rank := rank, pair := pkt.pair, owns := pkt.mxa, reserve := roundUp pkt.scratch 256
      free := roundUp pkt.scratch 256 }
  let s1 := { dropL1 core s with nextWg := wg + 1 }.setWg wg g
  placeWarps ctx kern wg core pkt sys (if pkt.mxa then takeArray wg core s1 else s1)

/-- Place the next workgroup or cluster launch of a kernel on cores, by rank (R21, R376). -/
def placeLaunch (kern : Nat) (cores : List Nat) (sys : Bool) (s : State) : State :=
  let k := s.kernel kern
  let id := s.nextLaunch
  let n := cores.length
  let l : Launch := { live := true, wgs := (List.range n).map (fun r => s.nextWg + r), size := n }
  let s1 := { s with nextLaunch := id + 1 }.setLaunch id l
  let s2 := cores.zipIdx.foldl (fun s c => placeWg k.ctx kern id c.2 c.1 (k.placed + c.2) k.pkt sys s) s1
  s2.setKernel kern { s2.kernel kern with placed := k.placed + n }

/-! ### Breakpoints (R358) -/

/-- Breakpoint register n of a die. -/
def Die.dbp (d : Die) (n : Nat) : W64 := match n with | 0 => d.dbp0 | 1 => d.dbp1 | 2 => d.dbp2 | _ => d.dbp3

/-- The lowest breakpoint of a die that matches a queue's packet (R358). -/
def matchBp (s : State) (die n : Nat) : Option Nat :=
  let d := s.die die
  let code := (headPkt s n).f 0 8
  [0, 1, 2, 3].find? (fun i =>
    let b := d.dbp i
    b.getLsbD 0 && (if b.getLsbD 1 then bits b 8 3 == n else bits b 63 3 == code / 8))

/-- The head of a queue is to be matched: nothing of it is placed, and this die has not released it (R358). -/
def toMatch (s : State) (die n : Nat) : Bool :=
  (s.queue n).headKern.isNone && !(s.die die).pass.contains (n, (s.queue n).head.toNat)

/-- The packet is halted (R358). -/
def haltHead (die n bp : Nat) (s : State) : State :=
  (s.setQueue n { s.queue n with halted := true }).setDie die { s.die die with halt := true, haltQueue := n, haltBp := bp }

/-- DBPSTAT.HALT is written with 1: the packet goes on without being matched again (R358). -/
def releaseHalt (die : Nat) (s : State) : State :=
  let d := s.die die
  if d.halt then
    let n := d.haltQueue
    (s.setQueue n { s.queue n with halted := false }).setDie die { d with
      halt := false, pass := d.pass ++ [(n, (s.queue n).head.toNat)] }
  else s

/-! ### A dispatch step (R375, R376) -/

/-- The place of the next workgroup or launch of a queue's head on a die. -/
def headPlace (s : State) (die n : Nat) (asked : List Nat) : Option (List Nat) :=
  let p := headOf s n
  let room := (slotsUsed s (s.queue n).cx).length + p.warps * p.shape ≤ 16384
  if room then findPlace s (s.queue n) die (fun _ k => coreFits s (p.ask s k) k) p.pair p.shape asked else none

/-- The kernel of a head, created when its first workgroup is placed. -/
def openKernel (n : Nat) (s : State) : State :=
  let q := s.queue n
  match q.headKern with
  | some _ => s
  | none =>
    let p := headPkt s n
    takeHead n { live := true, ctx := q.cx, queue := n, index := q.head.toNat, pkt := p, total := p.gx * p.gy * p.gz } s

/-- Place the next workgroup or launch of the head; with the last one HEAD advances (R374, R376). -/
def placeHead (n : Nat) (cores : List Nat) (s : State) : State :=
  let s1 := openKernel n s
  let k := (s1.queue n).headKern.getD 0
  let s2 := placeLaunch k cores (s1.queue n).isSys s1
  if (s2.kernel k).placed = (s2.kernel k).total then s2.setQueue n (s2.queue n).advance else s2

/-- Choose a head that can be placed on the die, in the order of choice, and place or halt it (R358, R375). -/
def chooseHead (die : Nat) (asked : List Nat) : List Nat → State → State
  | [], s => s
  | n :: ns, s =>
    match headPlace s die n asked with
    | none => chooseHead die asked ns s
    | some cores =>
      match (if toMatch s die n then matchBp s die n else none) with
      | none => placeHead n cores s
      | some bp => if (s.die die).halt then chooseHead die asked ns s else haltHead die n bp s

/-! ### Launches of images (R354, R380) -/

/-- What a saved workgroup asks of a core: its warps keep their scheduler indices (R27, R354). -/
def ResUnit.ask (u : ResUnit) (wg : Nat) (g : WG) : Ask :=
  { sched := fun d =>
      let ws := u.warps.filter (fun w => w.wg == wg && w.sched == d)
      (ws.length, (ws.map (·.budget)).foldl (· + ·) 0)
    scratch := g.reserve, mxa := g.owns }

/-- A saved warp on its new core (R354). -/
def seatWarp (core : Nat) (w : Warp) (s : State) : State :=
  addWarp { w with wid := s.nextWid, core := core, cluster := clusterOf s core, die := dieOf s core
                   place := freePlace s core w.sched, resident := true } { s with nextWid := s.nextWid + 1 }

/-- A saved workgroup on its new core, with its array and its buffers (R325, R354). No line that the core's L1 holds is
older than what the workgroup's warps have seen: it drops them (R224). -/
def seatWg (u : ResUnit) (core : Nat) (e : Nat × WG) (s : State) : State :=
  let s1 := (dropL1 core s).setWg e.1 { e.2 with core := core }
  let s2 := if e.2.owns && e.2.live then
    let s2 := takeArray e.1 core s1
    s2.setCore core { s2.core core with
      tiles := look [] u.tiles e.1, accs := look [] u.accs e.1, issuedCfg := look [] u.cfgs e.1, issuedTag := look [] u.tags e.1 }
    else s1
  let s3 := (u.warps.filter (fun w => w.wg == e.1)).foldl (fun s w => seatWarp core w s) s2
  let c := clusterOf s3 core
  let s4 := s3.setWg e.1 { s3.wg e.1 with handed := [] }
  s4.setCluster c { s4.cluster c with hand := (s4.cluster c).hand ++ e.2.handed.map (fun h => ⟨e.1, h⟩) }

/-- Place a waiting launch of an image on a die, when it finds a place (R354). -/
def placeUnit (die : Nat) (asked : List Nat) (u : ResUnit) (s : State) : Option State :=
  let g (r : Nat) : Nat × WG := u.wgs.getD r (0, {})
  let pair := (g 0).2.pair
  match findPlace s (s.queue u.queue) die (fun r k => coreFits s (u.ask (g r).1 (g r).2) k) pair u.wgs.length asked with
  | none => none
  | some cores =>
    let s1 := ({ s with resumes := s.resumes.filter (fun x => x.launch != u.launch) } : State).setLaunch u.launch u.body
    some (placeAll ((u.wgs.zip cores).foldl (fun s e => seatWg u e.2 e.1 s) s1))

/-- The first waiting launch that finds a place on the die. -/
def placeUnits (die : Nat) (asked : List Nat) (s : State) : List ResUnit → Option State
  | [] => none
  | u :: us =>
    match (if (s.ctx (s.kernel u.kern).ctx).stop = 0 ∧ !(s.ctx (s.kernel u.kern).ctx).killed then placeUnit die asked u s else none) with
    | some t => some t
    | none => placeUnits die asked s us

/-- A dispatch step of a die: launches of images first, then a ready head (R375, R376, R380). -/
def dispatch (die : Nat) (asked : List Nat) (s : State) : State :=
  if s.mc.recovery then s
  else match placeUnits die asked s s.resumes with
    | some t => t
    | none =>
      let s1 := (List.range 64).foldl (fun s n => examineHead die n s) s
      chooseHead die asked (headsInOrder s1) s1

/-- DISPATCH_STEP (R375, R376): `cores` asks for a place, which is not architectural. -/
def execDispatchStep (die : Nat) (cores : List Nat) (s : State) : Host.Outcome State Fault Refusal :=
  .next (dispatch die cores s)

/-- HEAD_READINESS_CHECK (R374). -/
def execHeadReadinessCheck (die queue : Nat) (s : State) : Host.Outcome State Fault Refusal :=
  .next (if queue < 64 then examineHead die queue s else s)

/-- DBPSTAT_HALT_CLEAR (R358). -/
def execDbpstatHaltClear (die : Nat) (s : State) : Host.Outcome State Fault Refusal := .next (releaseHalt die s)

/-- The host writes QTAIL; a device-launch queue discards the write (R372). -/
def hostTail (q : Nat) (t : W32) (s : State) : State := if (s.queue q).dl || s.mc.recovery then s else setTail q t s

/-- QTAIL_WRITE (R372). -/
def execQtailWrite (queue : Nat) (tail : BitVec 64) (s : State) : Host.Outcome State Fault Refusal :=
  .next (if queue < 64 then hostTail queue (lo32 tail) s else s)

/-! ### DONE_SIG (R378) -/

/-- The record of an increment that has failed (R370, R378). -/
def doneFailed (k : Kernel) (cause : Nat) (s : State) : State :=
  ringOrHold k.ctx 3 (recordOf 256 [(0, 4, k.ctx), (4, 1, cause), (7, 1, 4), (8, 8, k.pktField 0x40 8)
    , (0x10, 8, k.pktField 0 8), (0x18, 8, k.queue)]) s

/-- The increment of a kernel's DONE_SIG (R378); one that fails ends when its record finds room (R369), and one that the fabric
refuses is made again (R385). -/
def doneSig (kern : Nat) (s : State) : State :=
  let k := s.kernel kern
  let ended (st : KSt) (s : State) : State := s.setKernel kern { s.kernel kern with st := st }
  if k.st ≠ .signal then s
  else if k.pktField 0x40 8 = 0 then ended .done s
  else
    let va := w64 (k.pktField 0x40 8)
    match checkPage s k.ctx k.lastDie va .rmw with
    | .error f =>
      let counted (s : State) : State := if f.cause = cEcc then logUnc (logCluster s k.lastDie) s else s
      if ringReady s k.ctx 3 then doneFailed k f.cause (counted (ended .done s)) else s
    | .ok (_, p) =>
      if !p.resident then addFault k.lastDie k.ctx va 2 (ended (.held k.lastDie) s)
      else
      let out := sendAll k.ctx [p.key] s
      let s := out.1
      if !out.2 then s
      else if isBad s p.key then
        if ringReady s k.ctx 3 then doneFailed k cEcc (logUnc (logCluster s k.lastDie) (ended .done s)) else s
      else ended .done (storeMem p.key 8 (w64 (rdMem s.mem p.key 8 + 1)) false s)

/-- DONE_SIG_INCREMENT (R378). -/
def execDoneSigIncrement (kernel : Nat) (s : State) : Host.Outcome State Fault Refusal := .next (doneSig kernel s)

/-! ### DLAUNCH and DJOIN (R62 to R64, R381) -/

/-- Children of a kernel that have not completed (R381). -/
def openChildren (s : State) (kern : Nat) : Nat :=
  ((s.kernels.filter (fun e => e.2.live && e.2.parent == some kern && e.2.open_)).length) +
    ((s.queues.flatMap (fun q => q.2.pending)).filter (fun p => p.2.1 == kern)).length

/-- A queue is open to device launch from a context (R381). -/
def openToLaunch (s : State) (q ctx : Nat) : Bool :=
  (s.queue q).en && (s.queue q).dl && (s.queue q).pctx == ctx

/-- Append a packet to a queue for a kernel: the child's id (R63, R381). -/
def appendPkt (q : Nat) (pkt : List Byte) (kern : Nat) (s : State) : State × Nat :=
  let x := s.queue q
  let id := x.tail.toNat % 2 ^ 26 * 64 + q
  let s1 := setTail q (x.tail + 1) (storeBytes s (x.slot x.tail.toNat) pkt)
  let s2 := s1.setQueue q { s1.queue q with pending := (s1.queue q).pending ++ [(x.tail.toNat, kern, id)] }
  (s2.setKernel kern { s2.kernel kern with children := ((id, 0) :: (s2.kernel kern).children).take 65536 }, id)

/-- DLAUNCH (R63, R381). A poisoned word of the packet's 128 bytes traps with ECC_UNCORRECTABLE and TVAL s[a], and nothing is
appended (DESIGN CHOICE, log 139). -/
def execDlaunch (d a b : BitVec 6) (g : Bool) (s : State) : Host.Outcome State Fault Refusal :=
  ({ word := wordA 0x7A d a b 0 g false, guard := g, cls := .control, scals := [d.toNat, a.toNat, b.toNat]
     uses := [useS a, useS b], tx := false } : Gate).run
    (fun s act =>
      let va := (s.w.sr a.toNat).bits
      let qn := (s.w.sr b.toNat).bits
      let q := qn.toNat
      if act = 0 then .fall s
      else if bits va 6 0 ≠ 0 then trapAct 0x03 va act s
      else if 63 < q then trapAct 0x01 qn act s
      else if !openToLaunch s q s.w.ctx then trapAct 0x17 qn act s
      else afterAll s (fun s =>
        let x := s.queue q
        if x.waiting = 2 ^ x.log2n ∨ 4096 ≤ openChildren s s.w.kern then .block 11 s
        else
          let s0 := noteReads act [va] (dropL1 s.w.core s)
          overFabric [va] s0 (fun s0 => match peek s0 s0.w va 128 128 with
          | .fail f => trapAct f.cause f.tval act s
          | .retry v => parkAt 0 [v] s
          | .bytes bs =>
            let r := appendPkt q bs s.w.kern s0
            .fall { r.1 with w := r.1.w.setS d.toNat (w64 r.2) false }))) s

/-- The status that DJOIN reads of a child, once it has completed (R64). -/
def joinStatus (s : State) (kern id : Nat) : Option Nat :=
  match (s.kernel kern).children.find? (fun c => c.1 == id) with
  | none => some 0xFF
  | some (_, k) =>
    if k = 0 then none
    else match (s.kernel k).st with
      | .done => some 0
      | .faulted c => some (1 + 256 * c)
      | .killed => some 2
      | _ => none

/-- DJOIN (R64). -/
def execDjoin (d a : BitVec 6) (g : Bool) (s : State) : Host.Outcome State Fault Refusal :=
  ({ word := wordA 0x7B d a 0 0 g false, guard := g, cls := .control, scals := [d.toNat, a.toNat]
     uses := [useS a], tx := false } : Gate).run
    (fun s act =>
      if act = 0 then .fall s
      else match joinStatus s s.w.kern (s.w.sr a.toNat).bits.toNat with
        | none => .block 10 s
        | some x =>
          let s1 := if x = 0 then dropL1 s.w.core s else s
          .fall { s1 with w := s1.w.setS d.toNat (w64 x) false }) s

end Sys2Proof.Machine
end

