-- ==== Sys2Proof/Machine/Preempt.lean ====
section
/-! DEFINITION. Commands (R371), contexts (R369), pre-emption, context images and resumption (R263, R325, R351-R356,
R380), KILL (R345), the replay doorbell (R188), TLB invalidation (R185) and gang slices (R386). -/

namespace Sys2Proof.Machine

/-! ### Commands (R368, R371) -/

/-- STATUS values (R368). -/
def stDone : Nat := 0
def stBad : Nat := 1
def stUnknown : Nat := 2
def stRefused : Nat := 3
def stNoCode : Nat := 4

/-- A command that the host writes to CMD: discarded while another is in progress, refused in recovery; it ends with
STATUS (R368, R371, R396). -/
def command (code : Nat) (ctx : BitVec 24) (f : Nat → State → State × Nat) (s : State) : State :=
  if s.cmdbusy then s
  else
    let s1 : State := { s with cmd := w32 (code + 256 * ctx.toNat) }
    if s.mc.recovery then { s1 with cmdstatus := stRefused }
    else
      let r := f ctx.toNat s1
      { r.1 with cmdstatus := r.2 }

/-- A command on a registered context. -/
def onCtx (f : Nat → State → State × Nat) (n : Nat) (s : State) : State × Nat :=
  if (s.ctx n).live then f n s else (s, stUnknown)

/-! ### REGISTER and UNREGISTER (R369, R371) -/

/-- A ring field of a descriptor is legal (R369). -/
def ringOk (bs : List Byte) (off : Nat) : Bool :=
  field bs off 8 % 4096 == 0 && 4 ≤ field bs (off + 8) 1 && field bs (off + 8) 1 ≤ 16 && field bs (off + 9) 7 == 0

/-- A descriptor keeps the limits of R369. -/
def ctxDescOk (bs : List Byte) : Bool :=
  field bs 0 8 % 65536 == 0 && field bs 8 8 % 65536 == 0 && field bs 0x10 4 % 4096 == 0 && field bs 0x16 10 == 0 &&
    field bs 0x80 128 == 0 && ringOk bs 0x20 && ringOk bs 0x40 && ringOk bs 0x60

/-- REGISTER (R371); records that an earlier context of the number still holds stay held (R369). -/
def register (n : Nat) (s : State) : State × Nat :=
  let a := s.cmdarg0.toNat
  let bs := loadBytes s a 256
  if n = 0 ∨ a % 256 ≠ 0 ∨ !(inRange s 0 a 256 || inRange s 1 a 256) ∨ !ctxDescOk bs then (s, stBad)
  else if (s.ctx n).live ∨ 1024 ≤ (s.ctxs.filter (fun e => e.2.live)).length then (s, stRefused)
  else
    let c : Ctx :=
      { live := true, desc := a, ptroot := field bs 0 8, fpool := w64 (field bs 8 8), fstride := field bs 0x10 4
        gang := field bs 0x14 2, held := (s.ctx n).held }
    (s.setCtx n c, stDone)

/-- A context has resident work: warps, launches that wait for a place, or kernels that have not completed. -/
def hasWork (s : State) (n : Nat) : Bool :=
  s.warps.any (fun w => w.ctx == n) || s.resumes.any (fun u => (s.kernel u.kern).ctx == n) ||
    s.kernels.any (fun e => e.2.live && e.2.ctx == n && (match e.2.st with | .signal | .held _ => true | _ => false))

/-- UNREGISTER (R371). -/
def unregister (n : Nat) (s : State) : State × Nat :=
  if hasWork s n || s.queues.any (fun e => e.2.en && e.2.cx == n) then (s, stRefused)
  else (s.setCtx n { desc := (s.ctx n).desc, held := (s.ctx n).held }, stDone)

/-! ### TLBINV (R185) -/

/-- An entry of a context lies in a range; 0 bytes is the whole context. -/
def TlbEntry.inRange (t : TlbEntry) (n va len : Nat) : Bool :=
  t.ctx == n && (len == 0 || (t.page * t.size < va + len && va < (t.page + 1) * t.size))

/-- Accesses of a context that were translated are still to be performed; those that ACTIVE lanes have logged are, until the
transaction ends (R185, R214, R246). -/
def inFlight (s : State) (n : Nat) : Bool :=
  s.warps.any (fun w => w.ctx == n && (w.ops.any (fun o => !o.todo.isEmpty) ||
    w.tx.any (fun e => e.2.st == .active && !(e.2.rlog.isEmpty && e.2.wlog.isEmpty))))

/-- TLBINV: the entries go at once, and the command ends when the context's accesses have been performed (R185, R371). -/
def tlbInv (n : Nat) (s : State) : State × Nat :=
  let va := s.cmdarg0.toNat
  let len := s.cmdarg1.toNat
  if va % 65536 ≠ 0 ∨ len % 65536 ≠ 0 then (s, stBad)
  else
    let drop (d : Die) : Die := { d with tlb := d.tlb.filter (fun t => !t.inRange n va len) }
    let s1 : State := { s with dies := s.dies.map (fun (e : Nat × Die) => (e.1, drop e.2)) }
    ({ s1 with cmdbusy := inFlight s1 n }, stDone)

/-- A TLBINV in progress ends (R185). -/
def endTlbInv (n : Nat) (s : State) : State :=
  if s.cmdbusy && bits32 s.cmd 31 8 == n && !inFlight s n then { s with cmdbusy := false, cmdstatus := stDone } else s

/-! ### REPLAY (R49, R188, R287, R330, R374, R378) -/

/-- The fault record of an address waits for room in the context's ring: the warps of its batch stay parked (R369). -/
def recordWaits (s : State) (n die : Nat) (va : W64) : Bool :=
  (s.ctx n).held.any (fun h => h.1 == 1 && field h.2 0 8 == va.toNat / 65536 * 65536 && field h.2 0x0D 1 == die)

/-- A parked warp reissues its instruction, and a held batch goes on, but where the record of a page that it met still waits
(R369). -/
def Warp.replayed (stay : W64 → Bool) (w : Warp) : Warp :=
  let back := !w.retry.any stay
  { w with retry := if back then [] else w.retry, block := if w.block = some 13 ∧ back then none else w.block
           fse := w.fse.filter (fun f => !f.retry || stay f.addr)
           batches := w.batches.map (fun b => if b.held.any stay then b else { b with held := [] }) }

/-- The replay doorbell of a context on the dies that `on` names. -/
def replay (on : Nat → Bool) (n : Nat) (s : State) : State :=
  let s1 := s.mapWarps (fun w => if w.ctx == n && on w.die then w.replayed (recordWaits s n w.die) else w)
  { s1 with
    copies := s1.copies.map (fun c => if c.ctx == n && on (dieOf s1 c.core) then { c with held := false } else c)
    kernels := s1.kernels.map (fun e => match e.2.st with
      | .held d => if e.2.ctx == n && on d then (e.1, { e.2 with st := .signal }) else e
      | _ => e)
    dies := s1.dies.map (fun e => if on e.1 then
      (e.1, { e.2 with heldHeads := e.2.heldHeads.filter (fun q => (s1.queue q.1).cx != n) }) else e) }

/-- REPLAY (R371). -/
def replayCmd (n : Nat) (s : State) : State × Nat := (replay (fun d => s.cmdarg0.getLsbD d) n s, stDone)

/-! ### KILL (R345, R371) -/

/-- The resident warp of a context with the lowest DIE_ID, CORE_ID and WARPID; logical cores ascend with dies (R395). -/
def firstWarp (s : State) (n : Nat) : Option Warp :=
  (s.warps.filter (fun w => w.ctx == n)).foldl (fun (a : Option Warp) w =>
    match a with
    | none => some w
    | some x => if w.core < x.core || (w.core == x.core && (w.warpid < x.warpid || (w.warpid == x.warpid && w.wid < x.wid)))
        then some w else some x) none

/-- EN of a context's queues is cleared (R371). -/
def disableQueues (n : Nat) (s : State) : State :=
  { s with queues := s.queues.map (fun e => if e.2.cx == n then (e.1, { e.2 with ctl := e.2.ctl &&& ~~~(1#64) }) else e) }

/-- The host's KILL (R345, R346, R371): a kill that a trap has met comes first, and a context that is already killed writes no
second record. -/
def killCmd (n : Nat) (s0 : State) : State × Nat :=
  let s := endKill n s0
  if (s.ctx n).killed then (disableQueues n s, stDone)
  else
    let record := match firstWarp s n with
      | some w => killRecord s n 3 0 w.tlevel w.shownPath.1.pc 0 0 w
      | none => recordOf 256 [(0, 4, n), (4, 1, 3)]
    (disableQueues n (killCtx n 3 0 record s), stDone)

/-! ### The stop of pre-emption (R263, R351, R352) -/

/-- Request the pre-emption of a context, its images to be written from an address on (R351, R380). -/
def requestStop (n at_ : Nat) (s : State) : State :=
  let c := s.ctx n
  let ks := (s.kernels.filter (fun e => e.2.live && e.2.ctx == n && e.2.st == .running &&
    (s.warps.any (fun w => w.kern == e.1) || s.resumes.any (fun u => u.kern == e.1)))).map (·.1)
  s.setCtx n { c with stop := 1, imageAt := at_, stopKerns := ks, stopped := [], gstart := none, accepted := false }

/-- A PREEMPT, or a RESUME with its queue, waits for the stop in progress to end (log 173). -/
def deferred (n : Nat) (q : Option Nat) (at_ : Nat) (s : State) : State :=
  s.setCtx n { s.ctx n with later := (s.ctx n).later ++ [(q, at_)] }

/-- PREEMPT (R371, R380). A context that is pre-empted or killed has no work: no image, and a record of none (log 173). -/
def preemptCmd (n : Nat) (s : State) : State × Nat :=
  let at_ := s.cmdarg0.toNat
  if at_ % 4096 ≠ 0 then (s, stBad)
  else if !s.queues.any (fun e => e.2.pe && e.2.cx == n) then (s, stRefused)
  else (if (s.ctx n).stop = 1 then deferred n none at_ s else requestStop n at_ s, stDone)

/-- A blocked or stalled instruction that has had no effect is to reissue; a collective's result stays, and one that all have joined
completes in the drain, which `joined` says of a TFREE (R194, R195, R351, R352). An EXIT may still issue in the stop cycle, where
nothing blocked the warp as it began (R351). -/
def Warp.stopped (joined : Bool) (w : Warp) : Warp :=
  let lost := w.tx.any (fun e => e.2.st == .irrevocable)
  let w1 := w.abort fullMask 5 0
  let w2 : Warp := { w1 with
    tx := if lost then w1.tx.map (fun e => if e.2.st == .irrevocable then (e.1, { e.2 with lost := true }) else e) else w1.tx
    txset := false, retry := [], sleep := none, handed := none, bwait := none, yielded := 0
    lastCycle := w.block.isNone && w.retry.isEmpty && w.pend.isNone }
  if w.grant.isSome || joined then w2 else { w2 with block := none, arrivedB := false }

/-- Arrivals of a warp at collectives that have not run are cancelled (R58, R145, R194, R283, R300). -/
def cancelArrivals (w : Warp) (s : State) : State :=
  let g := s.wg w.wg
  let s1 := s.setWg w.wg { g with
    xfer := g.xfer.filter (fun e => e.2.wid != w.wid), regroup := g.regroup.filter (fun a => a.wid != w.wid)
    cpc := g.cpc.filter (fun a => a.wid != w.wid), pairWait := g.pairWait.filter (fun a => a.wid != w.wid) }
  let l := s1.launch g.launch
  if g.live then s1.setLaunch g.launch { l with arrivals := l.arrivals.filter (fun a => a.wid != w.wid) } else s1

/-- A workgroup's handed-in buffers, bound to tiles or still in the hand-in list, in the order of their hand-ins (R325). -/
def handedOf (s : State) (wg : Nat) : List Nat := (s.wg wg).handOrder.filter (handedIn s wg)

/-- Withdraw the hand-ins of a stopped workgroup, but for those of blocked RTFETCHs, and record the others (R325). -/
def stopWg (wg : Nat) (s : State) : State :=
  let own := (s.warps.filter (fun w => w.wg == wg)).filterMap (·.handed)
  let hs := (handedOf s wg).filter (fun h => !own.contains h)
  let s1 := withdrawWg wg none s
  s1.setWg wg { s1.wg wg with handed := (s1.wg wg).handed ++ hs }

/-- The stop cycle of a context on a core (R351, R352). -/
def stopCore (core n : Nat) (s : State) : State :=
  let c := s.ctx n
  if c.stop ≠ 1 ∨ c.stopped.contains core then s
  else
    let ws := s.warps.filter (fun w => w.ctx == n && w.core == core)
    let joined (w : Warp) : Bool := freeJoined s (s.wg w.wg).launch w.wid
    let s1 := ws.foldl (fun s w => releaseTabard w.wid (if w.grant.isNone && !joined w then cancelArrivals w s else s)) s
    let s2 := ((ws.map (·.wg)).eraseDups).foldl (fun s g => stopWg g s) s1
    let s3 := s2.mapWarps (fun w => if w.ctx == n && w.core == core then w.stopped (joined w) else w)
    placeAll (s3.setCtx n { s3.ctx n with stopped := (s3.ctx n).stopped ++ [core] })

/-- PREEMPTION_STOP (R351). -/
def execPreemptionStop (core : Nat) (ctx : BitVec 24) (s : State) : Host.Outcome State Fault Refusal :=
  .next (stopCore core ctx.toNat s)

/-! ### The image (R352, R353) -/

/-- A spill or fill of a warp is pending: one that its FSE may make, or that a retry fault holds (R47, R49, R352). -/
def Warp.fsePending (w : Warp) : Bool := w.fseBusy || w.fse.any (fun f => f.retry)

/-- The drain is done: the context is stopped wherever it has warps, the stop cycle is over there, and nothing of theirs is
outstanding (R351, R352). A kill that the context has met wins (R345). -/
def drained (s : State) (n : Nat) : Bool :=
  let c := s.ctx n
  c.stop == 1 && c.dying.isNone &&
    (s.warps.filter (fun w => w.ctx == n)).all (fun w =>
      c.stopped.contains w.core && !w.lastCycle && w.ops.isEmpty && w.cps.isEmpty && w.tls.isEmpty && w.pend.isNone &&
        w.batches.all (fun b => b.done) && !w.fsePending) &&
    !s.copies.any (fun x => x.ctx == n) && c.stopKerns.all (fun k => (s.kernel k).st != .signal)

/-- The segments of some workgroups. -/
def segsOf (wgs : List (Nat × WG)) : List Nat := wgs.flatMap (fun e => e.2.handles.map (fun h => h.2.seg))

/-- A failed read of a path's record, as a failed access of the FSE (R49). -/
def Path.lostFault (p : Path) : List FseFault :=
  (p.lost.bind (fun l => l.failed.map (fun a => ({ record := true, blk := l.off, fill := true, addr := a } : FseFault)))).toList

/-- A path as an image holds it: a failed read of its record is among the pending frame faults. -/
def Path.saved (p : Path) : Path :=
  { p with stall := none, want := none, lost := p.lost.map (fun l => { l with failed := none }) }

/-- A warp as its image holds it: its records are current in memory (R53), and an FSE access that has failed is a pending
frame fault, which is taken before its next issue (R49). -/
def Warp.saved (w : Warp) : Warp :=
  { w with
    p := w.p.saved, q := w.q.saved
    fse := (w.fse ++ w.p.lostFault ++ w.q.lostFault).map (fun f => { f with due := true }), issued := false, examA := false, examB := false }

/-- What an image holds of a cluster launch (R353). -/
def saveLaunch (s : State) (kern id : Nat) : ResUnit :=
  let l := s.launch id
  let wgs := l.wgs.filterMap (fun g => if s.wgs.any (fun e => e.1 == g) then some (g, s.wg g) else none)
  let segs := segsOf wgs
  let own := wgs.filter (fun e => e.2.owns && e.2.live)
  { kern := kern, launch := id, body := l, wgs := wgs
    warps := (s.warps.filter (fun w => l.wgs.contains w.wg)).map Warp.saved
    scratch := s.mem.filter (fun e => inSegs segs e.1), sbad := s.bad.filter (fun e => inSegs segs (8 * e.1))
    tiles := own.map (fun e => (e.1, (s.core e.2.core).tiles)), accs := own.map (fun e => (e.1, (s.core e.2.core).accs))
    cfgs := own.map (fun e => (e.1, (s.core e.2.core).issuedCfg)), tags := own.map (fun e => (e.1, (s.core e.2.core).issuedTag)) }

/-- What an image holds of a kernel: its launches on the device, and those that wait for a place. -/
def saveUnits (s : State) (kern : Nat) : List ResUnit :=
  let ids := (s.launches.filter (fun e => e.2.wgs.any (fun g => (s.wg g).kern == kern && s.wgs.any (fun x => x.1 == g)))).map (·.1)
  let staged := (s.resumes.filter (fun u => u.kern == kern)).map (fun u =>
    let segs := segsOf u.wgs
    { u with scratch := s.mem.filter (fun e => inSegs segs e.1), sbad := s.bad.filter (fun e => inSegs segs (8 * e.1)) })
  ids.map (saveLaunch s kern) ++ staged

/-- Live workgroups of an image: NWG. -/
def unitsWgs (us : List ResUnit) : Nat := ((us.flatMap (·.wgs)).filter (fun e => e.2.live)).length

/-- The bound on the bytes of an image (R353). -/
def imageBound (us : List ResUnit) : Nat :=
  256 + ((us.flatMap (·.wgs)).map (fun e => 4096 + roundUp e.2.reserve 256 + (if e.2.owns then 139520 else 0))).foldl (· + ·) 0 +
    ((us.flatMap (·.warps)).map (fun w => 16384 + 4 * w.budget * Config.warpWidth + 131072)).foldl (· + ·) 0

/-- SIZE: the header alone where no workgroup remains, and otherwise a size within the bound. -/
def imageSize (id : Nat) (us : List ResUnit) : Nat :=
  if unitsWgs us = 0 then 256 else 512 + 256 * (Config.imageUnits id % ((imageBound us - 512) / 256 + 1))

/-- The kernel counts as complete in its image (R353, R356, R378). -/
def Kernel.complete (k : Kernel) : Bool := match k.st with | .done => true | _ => false

/-- A field of a gang's shape: GXN, GYN, GI and GJ; a context without a gang is alone (R353). -/
def gangField (gang i : Nat) : Nat := if gang = 0 then (if i ≤ 1 then 1 else 0) else Config.gangShape gang i % 256

/-- IFLAGS of an image: XWRAP and YWRAP say that the gang spans its dimension of the torus (R353, R383). -/
def imageFlags (k : Kernel) (gang : Nat) (devpos : W32) : Nat :=
  let spans (i lo : Nat) : Bool := gang != 0 && gangField gang i == bits32 devpos (lo + 7) lo
  (if k.complete then 1 else 0) + (if spans 0 16 then 2 else 0) + (if spans 1 24 then 4 else 0)

/-- The header of an image (R353). -/
def imageHeader (k : Kernel) (n gang flags size nwg : Nat) : List Byte :=
  let g (i : Nat) : Nat := gangField gang i
  patch (recordOf 256 [(0, 4, 1), (4, 4, n), (8, 8, size), (0x10, 4, nwg), (0x14, 1, Config.warpWidth)
    , (0x15, 1, flags), (0x16, 1, g 0), (0x17, 1, g 1), (0x18, 1, g 2), (0x19, 1, g 3)]) 0x20 k.pkt

/-- The opaque sections of an image: its number, and bytes of their own. -/
def imageSections (id size : Nat) : List Byte := leBytes 8 id ++ (List.range (size - 264)).map (fun i => Config.imageByte id i)

/-- An image's bytes: the header and the opaque sections. -/
def imageBytes (k : Kernel) (n gang flags id : Nat) (us : List ResUnit) : List Byte :=
  let size := imageSize id us
  let head := imageHeader k n gang flags size (unitsWgs us)
  if size = 256 then head else head ++ imageSections id size

/-- Every record of a context's warps is made current in memory (R53). A write that fails leaves a pending frame fault; one
that meets a retry fault is made again after the replay (R49, R352). -/
def syncAll (n : Nat) (s : State) : State :=
  (s.warps.filter (fun w => w.ctx == n)).foldl (fun s w => match syncRecords s w with
    | .ok t => t
    | .error e => fseFault s w 0 (syncKind s w == 5) e.1 e.2) s

/-- Write the image of a kernel at the next address. -/
def writeImage (n : Nat) (s : State) (kern : Nat) : State :=
  let c := s.ctx n
  let k := s.kernel kern
  let us := saveUnits s kern
  let id := s.nextImage
  let flags := imageFlags k c.gang s.devpos
  let bs := imageBytes k n c.gang flags id us
  let at_ := if c.nImg = 0 then c.imageAt else roundUp c.imageAt 4096
  let c1 : Ctx := { c with
    imageAt := at_ + bs.length, nImg := c.nImg + 1, imgBytes := c.imgBytes + bs.length, imgFlags := flags
    saved := c.saved ++ (us.flatMap (·.warps)).map (·.fslot) }
  let s1 := storeBytes s at_ bs
  let img : Image := { id := id, ctx := n, cores := coreCount s, kern := kern, pkt := k.pkt, units := us }
  ({ s1 with nextImage := id + 1, images := s1.images ++ [img] } : State).setCtx n c1

/-- The context's work leaves the device (R351). -/
def clearStopped (n : Nat) (s : State) : State :=
  let mine := (s.wgs.filter (fun e => (s.kernel e.2.kern).ctx == n)).map (·.1)
  { s with
    cores := s.cores.map (fun e => match e.2.owner with
      | some g => if mine.contains g then (e.1, { e.2 with owner := none, mxa := [], fromLeader := [] }) else e
      | none => e)
    wgs := s.wgs.filter (fun e => !mine.contains e.1)
    launches := s.launches.filter (fun e => !(e.2.wgs.any mine.contains))
    resumes := s.resumes.filter (fun u => (s.kernel u.kern).ctx != n)
    others := s.others.filter (fun w => w.ctx != n)
    w := if s.w.ctx == n then { s.w with resident := false } else s.w }

/-! ### RESUME (R354, R380) -/

/-- The place of an element in a list. -/
def indexIn (x : Nat) (l : List Nat) : Nat := l.findIdx (· == x)

/-- A segment's key under new segment numbers. -/
def rekey (first : Nat) (segs : List Nat) (k : Nat) : Nat :=
  scratchKey (first + indexIn ((k - 2 ^ 100) / 2 ^ 20) segs) (k % 2 ^ 20)

/-- A workgroup of an image under new numbers. -/
def renumberWg (s : State) (kern : Nat) (segs : List Nat) (g : WG) : WG :=
  { g with kern := kern, launch := s.nextLaunch
           handles := g.handles.map (fun h => (h.1, { h.2 with seg := s.nextSeg + indexIn h.2.seg segs })) }

/-- A launch of an image waits for a place, under new numbers, with the bytes of its segments (R354). -/
def stageUnit (queue kern : Nat) (s : State) (u : ResUnit) : State :=
  let ids := u.wgs.map (·.1)
  let segs := segsOf u.wgs
  let new (g : Nat) : Nat := s.nextWg + indexIn g ids
  let u1 : ResUnit := { u with
    queue := queue, kern := kern, launch := s.nextLaunch, body := { u.body with wgs := u.body.wgs.map new }
    wgs := u.wgs.map (fun e => (new e.1, renumberWg s kern segs e.2))
    warps := u.warps.map (fun w => { w with wg := new w.wg, kern := kern })
    tiles := u.tiles.map (fun e => (new e.1, e.2)), accs := u.accs.map (fun e => (new e.1, e.2))
    cfgs := u.cfgs.map (fun e => (new e.1, e.2)), tags := u.tags.map (fun e => (new e.1, e.2)), scratch := [], sbad := [] }
  { s with
    mem := u.scratch.foldl (fun m e => put 0 m (rekey s.nextSeg segs e.1) e.2) s.mem
    bad := u.sbad.foldl (fun m e => put false m (rekey s.nextSeg segs (8 * e.1) / 8) e.2) s.bad
    nextSeg := s.nextSeg + segs.length, nextWg := s.nextWg + u.body.wgs.length, nextLaunch := s.nextLaunch + 1
    resumes := s.resumes ++ [u1] }

/-- The kernel of an image: its own where the device still keeps its count, and otherwise a new one (R380). -/
def kernelOfImage (n queue : Nat) (i : Image) (s : State) : State × Nat :=
  let k := s.kernel i.kern
  if k.live && k.ctx == n && k.st == .running then (s, i.kern)
  else
    let total := unitsWgs i.units
    ({ s with nextKern := s.nextKern + 1 }.setKernel s.nextKern
      { live := true, ctx := n, queue := queue, pkt := i.pkt, placed := total, total := total }, s.nextKern)

/-- The image that stands at an address, its bytes, and whether the R10 parameters of this part, W and CORES, are its writer's:
its header names the context. Sections that this device has written are those of the image of their number; what other sections
hold, and the part that wrote them, are free values of their bytes (R353, log 156). -/
def imageAtAddr (s : State) (n addr : Nat) : Option (Option Image × Nat × Bool) :=
  let head := loadBytes s addr 256
  let size := field head 8 8
  let width := field head 0x14 1 == Config.warpWidth
  if field head 0 4 ≠ 1 ∨ field head 4 4 ≠ n then none
  else if field head 0x10 4 = 0 then some (none, size, width)
  else
    let body := loadBytes s (addr + 256) (size - 256)
    let i := (s.images.find? (fun i => i.ctx == n && i.pkt == (head.drop 0x20).take 128 && imageSections i.id size == body)).getD
      { ctx := n, pkt := (head.drop 0x20).take 128, units := Config.foreignUnits (head ++ body)
        cores := Config.foreignCores (head ++ body) }
    some (some i, size, width && i.cores == coreCount s)

/-- The images from an address onward, with what `imageAtAddr` says of the parts (R380): no more than memory lists bytes, since a
header is not zero. -/
def imagesFrom (s : State) (n : Nat) : Nat → Nat → List (Option Image × Bool)
  | 0, _ => []
  | fuel + 1, addr =>
    match imageAtAddr s n addr with
    | none => []
    | some (i, size, ok) => (i, ok) :: imagesFrom s n fuel (roundUp (addr + max size 1) 4096)

/-- The images from an address on wait for places in a queue's mask, and dispatch of the context's queues resumes (R380): a
killed context runs again (log 173). -/
def resumeAt (n q : Nat) (is : List (Option Image × Bool)) (s : State) : State :=
  let s1 := (is.filterMap (·.1)).foldl (fun s i =>
    let r := kernelOfImage n q i s
    i.units.foldl (stageUnit q r.2) r.1) s
  let back := (s1.resumes.drop s.resumes.length).flatMap (fun u => u.warps.map (·.fslot))
  let c := s1.ctx n
  s1.setCtx n { c with stop := 0, killed := false, saved := c.saved.filter (fun x => !back.contains x) }

/-- RESUME (R371, R380), whose images resume only on a part whose R10 parameters are those of the part that wrote them (R353):
where some do not, none is placed (log 174). An ARG0 that is not a multiple of 4 KiB is refused with STATUS 1, as PREEMPT's is
(DESIGN CHOICE, log 186). -/
def resumeCmd (n : Nat) (s : State) : State × Nat :=
  let addr := s.cmdarg0.toNat
  let q := bits s.cmdarg1 5 0
  let is := imagesFrom s n (s.mem.length + 1) addr
  if addr % 4096 ≠ 0 then (s, stBad)
  else if (s.ctx n).stop = 1 then (deferred n (some q) addr s, stDone)
  else if is.all (·.2) then (resumeAt n q is s, stDone)
  else (s, stBad)

/-- The commands that have waited for a stop to end, in order; one that stops the context again lets the rest wait (log 173). -/
def runLater (n : Nat) : List (Option Nat × Nat) → State → State
  | [], s => s
  | (none, at_) :: rest, s => let t := requestStop n at_ s; t.setCtx n { t.ctx n with later := rest }
  | (some q, at_) :: rest, s =>
    let is := imagesFrom s n (s.mem.length + 1) at_
    runLater n rest (if is.all (·.2) then resumeAt n q is s else s)

/-! ### The end of a pre-emption (R352, R353, R380) -/

/-- The images of a drained context, and a KIND 2 record (R353, R370, R380); then what has waited for the stop to end. -/
def imagesOut (n : Nat) (s0 : State) : State :=
  let first := (s0.ctx n).imageAt
  let s1 := s0.setCtx n { s0.ctx n with nImg := 0, imgBytes := 0, imgFlags := 0 }
  let s2 := clearStopped n ((s1.ctx n).stopKerns.foldl (fun s k => writeImage n s k) s1)
  let c := s2.ctx n
  let s3 := ringOrHold n 3 (recordOf 256 [(0, 4, n), (7, 1, 2), (8, 8, first), (0x10, 8, c.imgBytes), (0x18, 8, c.nImg)
    , (0x20, 8, c.imgFlags)]) (s2.setCtx n { c with stop := 2, stopKerns := [], stopped := [], later := [] })
  runLater n c.later s3

/-- The collective TFREEs that every workgroup of a context's launches has joined take effect (R194, R195, R352). -/
def freesJoined (n : Nat) (s : State) : State :=
  (s.launches.filter (fun e => e.2.wgs.any (fun g => (s.kernel (s.wg g).kern).ctx == n))).foldl (fun s e => clusterTry e.1 true s) s

/-- After the drain: the images, once the record of KIND 2 finds room (R352, R353, R369). -/
def writeImages (n : Nat) (s : State) : State :=
  if drained s n && ringReady s n 3 then
    let s0 := syncAll n (freesJoined n s)
    if drained s0 n then imagesOut n s0 else s0
  else s

/-- CONTEXT_IMAGE_WRITE (R353). -/
def execContextImageWrite (ctx : BitVec 24) (s : State) : Host.Outcome State Fault Refusal := .next (writeImages ctx.toNat s)

/-! ### Gangs (R385, R386) -/

/-- GSTART (R371, R386): its timeout falls due GANG_TIMEOUT microseconds on. An ARG0 that is not a multiple of 4 KiB is refused with
STATUS 1, as PREEMPT's is (DESIGN CHOICE, log 186). -/
def gstartCmd (n : Nat) (s : State) : State × Nat :=
  let t := bits s.cmdarg1 19 0
  if s.cmdarg0.toNat % 4096 ≠ 0 ∨ t = 0 ∨ 1000000 < t ∨ (s.ctx n).gang = 0 then (s, stBad)
  else (s.setCtx n { s.ctx n with gstart := some (s.cmdarg0.toNat, s.mc.us + t), accepted := false }, stDone)

/-- The gang's work is placed, and every outgoing pre-emption has completed (R386). -/
def mayAccept (s : State) (n : Nat) : Bool :=
  s.warps.any (fun w => w.ctx == n) && !s.resumes.any (fun u => (s.kernel u.kern).ctx == n) && s.ctxs.all (fun e => e.2.stop != 1)

/-- GANG_ACCEPT (R386): not in the microsecond in which the timeout falls due, which wins. -/
def execGangAccept (ctx : BitVec 24) (s : State) : Host.Outcome State Fault Refusal :=
  let n := ctx.toNat
  .next (match (s.ctx n).gstart with
    | some (_, due) => if s.mc.us < due && mayAccept s n then s.setCtx n { s.ctx n with accepted := true } else s
    | none => s)

/-- The device pre-empts a gang's context to the image address of its GSTART, and writes a KIND 3 record (R370, R386). Where
the ring has no room the record is held, and the pre-emption that produces it does not end before it is written (R369). As a
PREEMPT does, it waits for a stop in progress to end, and for a RESUME that waits for that; and a context that is pre-empted or
killed has no work (log 173). -/
def gangLate (n role at_ : Nat) (s : State) : State :=
  let gang := (s.ctx n).gang
  let s0 := s.setCtx n { s.ctx n with gstart := none }
  let s1 := if (s.ctx n).stop = 1 then deferred n none at_ s0 else requestStop n at_ s0
  ringOrHold n 3 (recordOf 256 [(0, 4, n), (4, 1, role), (7, 1, 3), (8, 8, gang)]) s1

/-- This device has not accepted a gang's context in time: it floods a gang-abort flit (R386). -/
def gangTimeout (n : Nat) (s : State) : State :=
  match (s.ctx n).gstart with
  | some (at_, due) =>
    if (s.ctx n).accepted || s.mc.us < due then s
    else gangLate n 0 at_ { s with mc := { s.mc with aborts := s.mc.aborts ++ [(s.ctx n).gang] } }
  | none => s

/-- A microsecond passes; timeouts that have fallen due come first (R386). -/
def microsecond (s : State) : State :=
  let t := s.ctxs.foldl (fun s e => gangTimeout e.1 s) s
  { t with mc := { t.mc with us := t.mc.us + 1 } }

/-- GANG_TIMEOUT (R386). -/
def execGangTimeout (ctx : BitVec 24) (s : State) : Host.Outcome State Fault Refusal := .next (gangTimeout ctx.toNat s)

/-- GANG_ABORT: a gang-abort flit arrives (R386). -/
def execGangAbort (gang : BitVec 16) (s : State) : Host.Outcome State Fault Refusal :=
  let mine := (s.ctxs.filter (fun e => e.2.live && e.2.gang == gang.toNat && gang != 0)).map (·.1)
  .next (mine.foldl (fun s n => match (s.ctx n).gstart with | some (at_, _) => gangLate n 1 at_ s | none => s) s)

/-! ### The commands as events (R371) -/

/-- REGISTER (R371). -/
def execRegister (ctx : BitVec 24) (s : State) : Host.Outcome State Fault Refusal := .next (command 1 ctx register s)
/-- UNREGISTER (R371). -/
def execUnregister (ctx : BitVec 24) (s : State) : Host.Outcome State Fault Refusal :=
  .next (command 2 ctx (onCtx unregister) s)
/-- TLBINV (R185, R371): the command, or the end of the one in progress. -/
def execTlbinv (ctx : BitVec 24) (s : State) : Host.Outcome State Fault Refusal :=
  .next (if s.cmdbusy then endTlbInv ctx.toNat s else command 3 ctx (onCtx tlbInv) s)
/-- REPLAY (R188, R371). -/
def execReplay (ctx : BitVec 24) (s : State) : Host.Outcome State Fault Refusal := .next (command 4 ctx (onCtx replayCmd) s)
/-- PREEMPT (R371, R380). -/
def execPreempt (ctx : BitVec 24) (s : State) : Host.Outcome State Fault Refusal := .next (command 5 ctx (onCtx preemptCmd) s)
/-- RESUME (R371, R380). -/
def execResume (ctx : BitVec 24) (s : State) : Host.Outcome State Fault Refusal := .next (command 6 ctx (onCtx resumeCmd) s)
/-- KILL (R345, R371). -/
def execKill (ctx : BitVec 24) (s : State) : Host.Outcome State Fault Refusal := .next (command 7 ctx (onCtx killCmd) s)
/-- GSTART (R371, R386). -/
def execGstart (ctx : BitVec 24) (s : State) : Host.Outcome State Fault Refusal := .next (command 8 ctx (onCtx gstartCmd) s)

/-- A write of CMD: the command of its code, or STATUS 4 (R368, R371). -/
def writeCmd (x : W64) (s : State) : State :=
  let ctx : BitVec 24 := x.extractLsb' 8 24
  match bits x 7 0 with
  | 1 => command 1 ctx register s
  | 2 => command 2 ctx (onCtx unregister) s
  | 3 => command 3 ctx (onCtx tlbInv) s
  | 4 => command 4 ctx (onCtx replayCmd) s
  | 5 => command 5 ctx (onCtx preemptCmd) s
  | 6 => command 6 ctx (onCtx resumeCmd) s
  | 7 => command 7 ctx (onCtx killCmd) s
  | 8 => command 8 ctx (onCtx gstartCmd) s
  | n => command n ctx (fun _ s => (s, stNoCode)) s

/-- CMD_UNKNOWN_CODE (R368). -/
def execCmdUnknownCode (value : BitVec 64) (s : State) : Host.Outcome State Fault Refusal := .next (writeCmd value s)

end Sys2Proof.Machine
end

