-- ==== Sys2Proof/Machine/Host.lean ====
section
/-! DEFINITION. The host's window: the registers of the BAR (R358, R361, R367, R368, R372, R391), host accesses to memory
(R366), fault batches and held records (R188, R369), and the Lasia fabric (R383-R385). -/

namespace Sys2Proof.Machine

/-! ### The device block (R368) -/

/-- DEVINFO. -/
def devInfo (s : State) : W64 :=
  w64 (0x0960 + Config.silicon_rev.toNat * 2 ^ 16 + coreCount s * 2 ^ 24 + (liveClusters s).length * 2 ^ 33)

/-- CLMAP: two bits for each logical cluster. -/
def clMap (s : State) : W64 :=
  w64 ((List.range (liveClusters s).length).foldl (fun x c => x + (pairsLive s c - 1) * 4 ^ c) 0)

/-- A read of the device block. -/
def readDevice (s : State) (off : Nat) : W64 :=
  match off with
  | 0x000 => devInfo s
  | 0x008 => s.mc.retired.extractLsb' 0 64
  | 0x010 => s.mc.retired.extractLsb' 64 64
  | 0x018 => clMap s
  | 0x020 => zx s.devpos
  | 0x028 => zx s.cmd
  | 0x030 => s.cmdarg0
  | 0x038 => s.cmdarg1
  | 0x040 => w64 ((if s.cmdbusy then 1 else 0) + s.cmdstatus * 256)
  | _ => 0

/-- A write of the device block. -/
def writeDevice (off : Nat) (x : W64) (s : State) : State :=
  match off with
  | 0x020 => if s.ctxs.any (fun e => e.2.live) then s else { s with devpos := lo32 x }
  | 0x028 => writeCmd x s
  | 0x030 => { s with cmdarg0 := x }
  | 0x038 => { s with cmdarg1 := x }
  | _ => s

/-! ### Queue registers (R372) -/

/-- A read of a queue's register. -/
def readQueue (s : State) (n off : Nat) : W64 :=
  let q := s.queue n
  match off with
  | 0x00 => q.ctl
  | 0x08 => q.base
  | 0x10 => w64 q.log2n
  | 0x18 => zx q.tail
  | 0x20 => zx q.head
  | 0x28 => q.mask0
  | 0x30 => q.mask1
  | 0x38 => q.mask2
  | 0x40 => q.mask3
  | 0x48 => w64 q.pctx
  | 0x50 => if q.halted then 1 else 0
  | _ => 0

/-- A write of QCTL: what the head was found to be in another context is forgotten. -/
def Queue.setCtl (q : Queue) (x : W64) : Queue :=
  let y := x &&& 0xFFFFFF007F#64
  { q with ctl := y, ready := q.ready && bits y 39 16 == q.cx }

/-- A write of a queue's register. -/
def writeQueue (n off : Nat) (x : W64) (s : State) : State :=
  let q := s.queue n
  match off with
  | 0x00 => s.setQueue n (q.setCtl x)
  | 0x08 => s.setQueue n { q with base := x &&& ~~~0xFFF#64 }
  | 0x10 => let k := bits x 4 0; s.setQueue n { q with log2n := if 4 ≤ k ∧ k ≤ 16 then k else 4 }
  | 0x18 => hostTail n (lo32 x) s
  | 0x28 => s.setQueue n { q with mask0 := x }
  | 0x30 => s.setQueue n { q with mask1 := x }
  | 0x38 => s.setQueue n { q with mask2 := x }
  | 0x40 => s.setQueue n { q with mask3 := x }
  | 0x48 => s.setQueue n { q with pctx := bits x 23 0 }
  | _ => s

/-! ### Debug blocks (R358, R361, R391) -/

/-- A read of a dispatcher's debug block. -/
def readDbp (s : State) (die off : Nat) : W64 :=
  let d := s.die die
  match off with
  | 0x00 => d.dbp0
  | 0x08 => d.dbp1
  | 0x10 => d.dbp2
  | 0x18 => d.dbp3
  | 0x20 => w64 ((if d.halt then 1 else 0) + d.haltQueue * 2 + d.haltBp * 128)
  | _ => 0

/-- A write of a dispatcher's debug block. -/
def writeDbp (die off : Nat) (x : W64) (s : State) : State :=
  let d := s.die die
  let y := x &&& ~~~4#64
  match off with
  | 0x00 => s.setDie die { d with dbp0 := y }
  | 0x08 => s.setDie die { d with dbp1 := y }
  | 0x10 => s.setDie die { d with dbp2 := y }
  | 0x18 => s.setDie die { d with dbp3 := y }
  | 0x20 => if x.getLsbD 0 then releaseHalt die s else s
  | _ => s

/-- A read of a cluster's debug block. -/
def readCluster (s : State) (c off : Nat) : W64 :=
  if off < 0x58 then (s.cluster c).sampReg (off / 8)
  else if off = 0x100 then (s.cluster c).throttle.zeroExtend 64
  else 0

/-- A write of a cluster's debug block; THROTTLE_WHY is W1C. -/
def writeCluster (c off : Nat) (x : W64) (s : State) : State :=
  let k := s.cluster c
  if off < 0x58 then s.setCluster c (k.setSampReg (off / 8) x)
  else if off = 0x100 then s.setCluster c { k with throttle := k.throttle &&& ~~~(x.truncate 5) }
  else s

/-! ### The management mailbox (R367, R384, R388, R392, R396, R397) -/

/-- A read of the mailbox: which register stands at an offset is free (log 112). -/
def readMailbox (s : State) (off : Nat) : W64 :=
  match Config.mailboxReg off with
  | 1 => w64 s.mc.cap
  | 2 => zx s.mc.linkLog
  | 3 => zx s.mc.memLog
  | 4 => Config.mailboxStatus 4 s.mc.spdm
  | 5 => Config.mailboxStatus 5 (if s.mc.recovery then 1 else 0)
  | _ => 0

/-- A write of the mailbox: it sets the board power cap (R392), or requests the retirement of the physical pair that it names
(R394, log 172); firmware images and SPDM requests arrive as events of their own (R396, R397). -/
def writeMailbox (off : Nat) (x : W64) (s : State) : State :=
  match Config.mailboxReg off with
  | 1 => { s with mc := { s.mc with cap := x.toNat } }
  | 6 => { s with mc := { s.mc with asked := s.mc.asked ||| (1#128 <<< x.toNat) } }
  | _ => s

/-! ### The BAR (R367) -/

/-- A host read of a register. -/
def readBar64 (s : State) (off : Nat) : W64 :=
  if off % 8 ≠ 0 then 0
  else if off < 0x1000 then readDevice s off
  else if 0x10000 ≤ off ∧ off < 0x14000 then readQueue s ((off - 0x10000) / 0x100) (off % 0x100)
  else if 0x20000 ≤ off ∧ off < 0x21000 then readVtb (off - 0x20000) s
  else if 0x30000 ≤ off ∧ off < 0x32000 then readDbp s ((off - 0x30000) / 0x1000) (off % 0x1000)
  else if 0x40000 ≤ off ∧ off < 0x60000 ∧ (off - 0x40000) / 0x1000 < (liveClusters s).length then
    readCluster s ((off - 0x40000) / 0x1000) (off % 0x1000)
  else if 0x80000 ≤ off ∧ off < 0x90000 then readMailbox s (off - 0x80000)
  else 0

/-- A host write of a register; what the map does not list discards it (R15, R367). -/
def writeBar64 (off : Nat) (x : W64) (s : State) : State :=
  if off % 8 ≠ 0 then s
  else if off < 0x1000 then writeDevice off x s
  else if 0x10000 ≤ off ∧ off < 0x14000 then writeQueue ((off - 0x10000) / 0x100) (off % 0x100) x s
  else if 0x20000 ≤ off ∧ off < 0x21000 then writeVtb (off - 0x20000) x s
  else if 0x30000 ≤ off ∧ off < 0x32000 then writeDbp ((off - 0x30000) / 0x1000) (off % 0x1000) x s
  else if 0x40000 ≤ off ∧ off < 0x60000 ∧ (off - 0x40000) / 0x1000 < (liveClusters s).length then
    writeCluster ((off - 0x40000) / 0x1000) (off % 0x1000) x s
  else if 0x80000 ≤ off ∧ off < 0x90000 then writeMailbox (off - 0x80000) x s
  else s

/-- REGISTER_WRITE (R15, R16, R367). -/
def execRegisterWrite (off : Nat) (value : BitVec 64) (s : State) : Host.Outcome State Fault Refusal :=
  .next (writeBar64 off value s)

/-! ### Host memory accesses (R181, R198, R366) -/

/-- Write up to eight bytes: an aligned 8-byte write as one, and otherwise byte by byte (R202). -/
def pokeBytes (k size : Nat) (x : W64) (s : State) : State :=
  if size = 8 ∧ k % 8 = 0 then storeMem k 8 x false s
  else (List.range (min size 8)).foldl (fun s i => storeMem (k + i) 1 (x >>> (8 * i)) false s) s

/-- Read up to eight bytes, with their poison. -/
def peekBytes (k size : Nat) (s : State) : State :=
  let n := min size 8
  { s with hostRead := w64 (rdMem s.mem k n), hostBad := (List.range n).any (fun i => isBad s (k + i)) }

/-- Device memory of either tier (R366, R387). -/
def isDevice (s : State) (pa size : Nat) : Bool := inRange s 0 pa size || inRange s 1 pa size

/-- HOST_MEMORY_ACCESS (R366): resolved at the home. -/
def execHostMemoryAccess (write : Bool) (pa size : Nat) (value : BitVec 64) (s : State) : Host.Outcome State Fault Refusal :=
  .next (if s.mc.recovery || !isDevice s pa (min size 8) then s
    else if write then pokeBytes pa size value s else peekBytes pa size s)

/-! ### The fabric (R383 to R386) -/

/-- A context takes a gang's fabric traffic: it is resident, or accepted. While its GSTART has not been accepted its ports
refuse that traffic (R385, R386). -/
def Ctx.takesGang (c : Ctx) (resident : Bool) : Bool := if c.gstart.isSome then c.accepted else c.accepted || resident

/-- The device performs the fabric accesses of a gang (R385). -/
def gangHere (s : State) (gang : Nat) : Bool :=
  gang != 0 && s.ctxs.any (fun e => e.2.live && e.2.gang == gang && e.2.takesGang (s.warps.any (fun w => w.ctx == e.1)))

/-- What a fabric access does at this device, its home (R182, R202, R212). A poisoned word is left as it is by an atomic and by
a RED. -/
def fabricOp (op : FabricOp) (pa size : Nat) (x : W64) (s : State) : State :=
  match op with
  | .read => peekBytes pa size s
  | .write => pokeBytes pa size x s
  | .atomic aop ty y =>
    let s1 := peekBytes pa size s
    if isBad s pa then s1 else storeMem pa size (atomicNew aop ty (w64 (rdMem s.mem pa size)) x y) false s1
  | .reduce aop ty y =>
    if isBad s pa then logUnc 0 s
    else storeMem pa size (atomicNew aop ty (w64 (rdMem s.mem pa size)) x y) false s

/-- FABRIC_ACCESS: performed here, or refused (R385). -/
def execFabricAccess (gang : BitVec 16) (op : FabricOp) (pa size : Nat) (x : BitVec 64) (s : State) :
    Host.Outcome State Fault Refusal :=
  .next (if gangHere s gang.toNat && isDevice s pa (min size 8) then
      { fabricOp op pa size x s with fabricRefused := false }
    else { s with fabricRefused := true })

/-- LASIA_PORT_FAIL (R384): the mailbox's error log reports it. -/
def execLasiaPortFail (port : Nat) (s : State) : Host.Outcome State Fault Refusal :=
  .next { s with mc := { s.mc with lasia := s.mc.lasia &&& ~~~(1#8 <<< port), linkLog := bump s.mc.linkLog } }

/-- LASIA_PORT_TRAINED (R384). -/
def execLasiaPortTrained (port : Nat) (s : State) : Host.Outcome State Fault Refusal :=
  .next { s with mc := { s.mc with lasia := s.mc.lasia ||| (1#8 <<< port) } }

/-! ### Fault batches (R188) -/

/-- A fault record. -/
def FaultRec.bytes (r : FaultRec) (die : Nat) : List Byte :=
  recordOf 16 [(0, 8, r.vpage.toNat), (8, 4, r.ctx), (0x0C, 1, r.kind), (0x0D, 1, die), (0x0E, 2, r.count)]

/-- A context's records in a die's open batch. -/
def batchOf (s : State) (die n : Nat) : List FaultRec := (s.die die).batch.filter (fun r => r.ctx == n)

/-- Write a batch to the context's host fault ring (R188, R369). -/
def writeBatch (die n : Nat) (s : State) : State :=
  let rs := batchOf s die n
  let d := s.die die
  rs.foldl (fun s r => ringOrHold n 1 (r.bytes die) s) (s.setDie die { d with batch := d.batch.filter (fun r => r.ctx != n) })

/-- FAULT_BATCH_FULL: a batch holds 32 records (R188). -/
def execFaultBatchFull (die : Nat) (ctx : BitVec 24) (s : State) : Host.Outcome State Fault Refusal :=
  .next (if 32 ≤ (batchOf s die ctx.toNat).length then writeBatch die ctx.toNat s else s)

/-- FAULT_BATCH_TIMEOUT: 4 µs have passed since the batch's first record (R188). -/
def execFaultBatchTimeout (die : Nat) (ctx : BitVec 24) (s : State) : Host.Outcome State Fault Refusal :=
  .next (writeBatch die ctx.toNat s)

/-! ### Held records (R288, R369) -/

/-- Drop the first element that satisfies `p`. -/
def dropFirst {α : Type} (p : α → Bool) : List α → List α
  | [] => []
  | a :: as => if p a then as else a :: dropFirst p as

/-- A held record is written once the ring has room; a copy's ending that waits for the copy-status ring is made. -/
def writeHeld (n ring : Nat) (s : State) : State :=
  let c := s.ctx n
  match c.held.find? (fun h => h.1 == ring) with
  | some h =>
    if ringFull s n ring then s
    else ringWrite n ring h.2 (s.setCtx n { c with held := dropFirst (fun x => x.1 == ring) c.held })
  | none =>
    match s.copies.find? (fun x => ring == 2 && x.ctx == n && x.stop != 0) with
    | some x => retireGone (copyRow x.id s)
    | none => s

/-- HELD_RECORD_WRITE (R369). -/
def execHeldRecordWrite (ctx : BitVec 24) (ring : Nat) (s : State) : Host.Outcome State Fault Refusal :=
  .next (writeHeld ctx.toNat ring s)

end Sys2Proof.Machine
end

