-- ==== Sys2Proof/Machine/Manage.lean ====
section
/-! DEFINITION. The management controller: throttling loops (R392), Yarrow readings and GUARD (R393), errors (R200, R202,
R360, R388), device reset and retirement (R394, R395), firmware (R396) and SPDM (R397). -/

namespace Sys2Proof.Machine

/-! ### Throttling (R391, R392) -/

/-- A cluster after a run of the loops: the bits of THROTTLE_WHY, and BUDGET (R392). -/
def loopCluster (thermal : BitVec 32) (current slew cap : Bool) (reliability : BitVec 32) (step : Nat) (s : State) (c : Nat) :
    State :=
  let k := s.cluster c
  let b := (budgetOf s c).toNat
  let low := if current || cap then b - step else b
  let new := if slew then low + low / 20 else low
  let why : BitVec 5 := BitVec.ofBool (reliability.getLsbD c) ++ BitVec.ofBool cap ++ BitVec.ofBool slew ++
    BitVec.ofBool current ++ BitVec.ofBool (thermal.getLsbD c)
  let k1 : Cluster := { k with
    throttle := k.throttle ||| why, acting := why != 0
    budget := if current || cap || slew then some (BitVec.ofNat 24 (min new 0xFFFFFF)) else k.budget }
  s.setCluster c k1

/-- The supplies that a run of the loops lowers, in steps (R392). -/
def lowerSupply (thermal : BitVec 32) (cap : Bool) (s : State) (c : Nat) : State :=
  if thermal.getLsbD c || cap then
    let p := physCluster s c
    { s with mc := { s.mc with supply := upd 0 s.mc.supply p (· + 1) } }
  else s

/-- MC_LOOP_TICK (R392): which loops act, on which logical clusters, and the board's power in W; the power loop acts above the
mailbox's cap. -/
def execMcLoopTick (thermal : BitVec 32) (current slew : Bool) (power : Nat) (reliability : BitVec 32) (s : State) :
    Host.Outcome State Fault Refusal :=
  let cap := decide (s.mc.cap < power)
  let cs := List.range (liveClusters s).length
  let step := Config.budgetStep s.mc.actions
  let s1 := cs.foldl (fun s c => lowerSupply thermal cap (loopCluster thermal current slew cap reliability step s c) c) s
  .next { s1 with mc := { s1.mc with actions := s1.mc.actions + 1 } }

/-! ### Yarrow (R393) -/

/-- The unretired physical pairs of a physical cluster. -/
def pairsOf (s : State) (c : Nat) : List Nat := (livePairs s).filter (fun p => p / 4 == c)

/-- The unretired pair of a cluster whose replica was slowest at the latest reading. -/
def worstPair (s : State) (c : Nat) : Option Nat :=
  (pairsOf s c).foldl (fun (a : Option Nat) p =>
    match a with
    | none => some p
    | some q => if look 0 s.mc.delays q < look 0 s.mc.delays p then some p else some q) none

/-- A delay exceeds a pair's limit after k steps: B × (1.02 + 0.02 k) (R393). -/
def overLimit (p d k : Nat) : Bool := Config.yarrowBase p * (102 + 2 * k) < 100 * d

/-- GUARD of a physical cluster rises by a step where some unretired pair exceeds its limit (R393). -/
def raiseGuard (s : State) (c : Nat) : State :=
  let k := look 0 s.mc.steps c
  if (pairsOf s c).any (fun p => overLimit p (look 0 s.mc.delays p) k) then
    { s with mc := { s.mc with steps := put 0 s.mc.steps c (k + 1) } }
  else s

/-- YARROW of every logical cluster shows its worst pair (R391, R393). -/
def showYarrow (s : State) : State :=
  (List.range (liveClusters s).length).foldl (fun s c =>
    let p := worstPair s (physCluster s c)
    s.setCluster c { s.cluster c with
      yarrow := BitVec.ofNat 16 (look 0 s.mc.delays (p.getD 0)), yarrowPair := p.map (fun p => p % 4) }) s

/-- What a reading adds to a physical cluster's STRESS: its powered hours, weighted by its supply, which is the nominal one
with GUARD and less the steps by which the loops have lowered it, and by its temperature (R392, R393). -/
def stressAdded (s : State) (r : Reading) (c : Nat) : W32 :=
  w32 (Config.stressWeight (guardOf s c) (look 0 s.mc.supply c) (r.temps.getD c 0) r.hours)

/-- YARROW_READING (R393): the replica delays by physical pair, the powered hours since the last reading, and the
temperatures by physical cluster. -/
def execYarrowReading (delays : List Nat) (reading : Reading) (s : State) : Host.Outcome State Fault Refusal :=
  let cs := liveClusters s
  let ds := delays.zipIdx.foldl (fun m e => put 0 m e.2 e.1) s.mc.delays
  let s1 : State := { s with mc := { s.mc with delays := ds } }
  let s2 := cs.foldl raiseGuard s1
  let st := cs.foldl (fun m c => upd 0 m c (fun h => h + stressAdded s reading c)) s2.mc.stress
  .next (showYarrow { s2 with mc := { s2.mc with stress := st } })

/-! ### Errors (R200, R202, R360, R388, R391) -/

/-- CORRECTED_ERROR (R200). -/
def execCorrectedError (cluster : Nat) (s : State) : Host.Outcome State Fault Refusal :=
  let c := s.cluster cluster
  .next (s.setCluster cluster { c with eccCorr := bump c.eccCorr })

/-- The number of a lane word, and of a scalar register, of a warp, among the places of an error. -/
def lanePlace (wid n : Nat) : Nat := 2 ^ 120 + wid * 2 ^ 32 + n
def scalarPlace (wid n : Nat) : Nat := 2 ^ 121 + wid * 2 ^ 32 + n
/-- The number of the place of unit `n` of a core's SRAM: kind 0 an L1 word and 1 an instruction-cache word, by its word key;
2 a tile element and 3 an accumulator element, by 2^16 times the register and the element. -/
def corePlace (kind core n : Nat) : Nat := 2 ^ 128 + kind * 2 ^ 124 + core * 2 ^ 104 + n

/-- The core whose SRAM holds a place: a cache or the array of a core, a warp's registers, or the scratch of a workgroup. -/
def coreOfPlace (s : State) (place : Nat) : Option Nat :=
  if 2 ^ 128 ≤ place then some (place % 2 ^ 124 / 2 ^ 104)
  else if 2 ^ 120 ≤ place then (s.warp? (place % 2 ^ 120 / 2 ^ 32)).map (·.core)
  else if 2 ^ 100 ≤ place then
    (s.wgs.find? (fun e => e.2.handles.any (fun h => inSegs [h.2.seg] place))).map (fun e => e.2.core)
  else none

/-- A word of a cached line is poisoned, where the cache holds the line (R202). -/
def poisonLine (ls : List (Nat × Line)) (word : Nat) : List (Nat × Line) :=
  ls.map (fun e => if e.1 == word / 16 then (e.1, { e.2 with bad := e.2.bad.mapIdx (fun i b => b || i == word % 16) }) else e)

/-- Data that a core's SRAM holds is poisoned (R200, R202). -/
def poisonCore (kind n : Nat) (c : Core) : Core :=
  match kind with
  | 0 => { c with l1 := poisonLine c.l1 n }
  | 1 => { c with ic := poisonLine c.ic n }
  | 2 => { c with tiles := upd {} c.tiles (n / 2 ^ 16) (fun t => { t with bad := put false t.bad (n % 2 ^ 16) true }) }
  | _ => { c with accs := upd {} c.accs (n / 2 ^ 16) (fun t => { t with bad := put false t.bad (n % 2 ^ 16) true }) }

/-- The data at a place is poisoned: an 8-byte word by memory key, a lane word, a scalar register, or a unit of a core's
caches or array (R202). -/
def poisonAt (place : Nat) (s : State) : State :=
  if 2 ^ 128 ≤ place then
    let core := place % 2 ^ 124 / 2 ^ 104
    s.setCore core (poisonCore (place % 2 ^ 128 / 2 ^ 124) (place % 2 ^ 104) (s.core core))
  else if place < 2 ^ 120 then { s with bad := put false s.bad (place / 8) true }
  else
    let n := place % 2 ^ 32
    s.modWarp (place % 2 ^ 120 / 2 ^ 32) (fun w =>
      if place < 2 ^ 121 then { w with v := upd {} w.v n (fun x => { x with bad := true }) }
      else { w with s := upd {} w.s n (fun x => { x with bad := true }) })

/-- UNCORRECTABLE_ERROR (R202): on data, or on a word fetched ahead and never issued (R189, R360); the SRAMs of a pair log
either (R394). -/
def execUncorrectableError (cluster place : Nat) (fetch : Bool) (s : State) : Host.Outcome State Fault Refusal :=
  let c := s.cluster cluster
  let s1 := if fetch then s.setCluster cluster { c with fetchUnrep := bump c.fetchUnrep } else poisonAt place (logUnc cluster s)
  .next (match coreOfPlace s place with
    | some k => { s1 with mc := { s1.mc with pairUnc := upd 0 s1.mc.pairUnc (physPair s k) (· + 1) } }
    | none => s1)

/-- EXPANDER_FAILURE (R388): what the expander holds reads as poison, and the failure is logged. -/
def execExpanderFailure (port : Nat) (s : State) : Host.Outcome State Fault Refusal :=
  .next { s with mc := { s.mc with failed := s.mc.failed ++ [port], memLog := bump s.mc.memLog } }

/-! ### Reset and retirement (R16, R394 to R396) -/

/-- A pair's replica would need GUARD above 80 mV (R394). -/
def agedOut (s : State) (p : Nat) : Bool :=
  let fused := 20 + Config.guardFusedExtra (p / 4)
  80 < fused || overLimit p (look 0 s.mc.delays p) ((80 - fused) / 2)

/-- The pairs that a reset retires: those that fail their self-test, those that the host has asked to retire, those that have
aged, and those with more than 16 uncorrectable errors (R394). -/
def toRetire (s : State) (failed : BitVec 128) : BitVec 128 :=
  (List.range Config.physicalPairs).foldl (fun m p =>
    if agedOut s p || 16 < look 0 s.mc.pairUnc p then m ||| (1#128 <<< p) else m) (failed ||| s.mc.asked)

/-- The capacities that the ports' expanders give (R388). -/
def portMap (expanders : List Nat) : List Nat := (List.range 4).map (fun i => min 1024 (expanders.getD i 0))

/-- The controller's store after a reset, which retires pairs and sets the map of the memory ports (R388, R394): with firmware
that fails its check, or with no pair left, the device stays in recovery (R394, R396). -/
def mcAfterReset (s : State) (failed : BitVec 128) (expanders : List Nat) : Mc :=
  let gone := s.mc.retired ||| toRetire s failed
  { s.mc with
    aborts := [], supply := [], spdm := 0, answers := 0, answer := [], actions := 0
    retired := gone, asked := 0, ports := portMap expanders, failed := []
    recovery := !Config.firmwareAccepted s.mc.flash || gone == BitVec.allOnes 128 }

/-- The device after a reset: kept are the controller's store, what memory outside scratch holds, and which sinks are
attached (R16, R391). An image in memory is as good as before (R353), so what the sections of each hold is kept with it; the
numbers of images and kernels and the count of free values go on. -/
def afterReset (failed : BitVec 128) (expanders : List Nat) (s : State) : State :=
  showYarrow { State.reset with
    mc := mcAfterReset s failed expanders, mem := s.mem.filter (fun e => e.1 < 2 ^ 100)
    bad := s.bad.filter (fun e => 8 * e.1 < 2 ^ 100)
    images := s.images, nextImage := s.nextImage, nextKern := s.nextKern, free := s.free
    outs := (List.range 4).foldl (fun m n => put {} m n { attached := (s.out n).attached }) [] }

/-- DEVICE_RESET (R394). -/
def execDeviceReset (failed : BitVec 128) (expanders : List Nat) (s : State) : Host.Outcome State Fault Refusal :=
  .next (afterReset failed expanders s)

/-- FIRMWARE_RECOVERY (R396): an image that passes is written to flash, and the device resets, with the self-tests and the
expanders of that reset. -/
def execFirmwareRecovery (image : Recovery) (s : State) : Host.Outcome State Fault Refusal :=
  .next (if Config.firmwareAccepted image.bytes then
    afterReset image.failed image.expanders { s with mc := { s.mc with flash := image.bytes } } else s)

/-! ### SPDM (R397) -/

/-- An answer to a request of a kind, about what a number stands for. -/
def spdmAnswer (kind n : Nat) (step : Nat) (s : State) : State :=
  { s with mc := { s.mc with spdm := step, answers := s.mc.answers + 1, answer := [Config.spdmPayload kind n] } }

/-- A request that is answered only once the algorithms have been negotiated; before that the answer is an error. -/
def spdmAfter (need kind n step : Nat) (s : State) : State :=
  if need ≤ s.mc.spdm then spdmAnswer kind n step s
  else { s with mc := { s.mc with answers := s.mc.answers + 1, answer := [] } }

/-- What a measurement covers, as bytes: the boot ROM, the image, the fuses with the fused GUARD values, RETIRED0 with
RETIRED1 and CLMAP, and the memory-port map (R397). -/
def measured (s : State) (index : Nat) : List Byte :=
  match index with
  | 1 => Config.bootRom
  | 2 => s.mc.flash
  | 3 => Config.fuses ++ (List.range 32).map (fun c => BitVec.ofNat 8 (20 + Config.guardFusedExtra c))
  | 4 => leBytes 16 s.mc.retired.toNat ++ leBytes 8 (clMap s).toNat
  | _ => Config.portMapBytes s.mc.ports

/-- The answer to GET_MEASUREMENTS: the SHA-256 digest, and the signature over it (R397). -/
def measureAnswer (index : Nat) (s : State) : State :=
  let d := sha256 (measured s index)
  { s with mc := { s.mc with answers := s.mc.answers + 1
                             answer := [d.setWidth 384, Config.spdmPayload (16 + index) (d.toNat + 2 ^ 256 * s.mc.answers)] } }

/-- GET_VERSION (R397). -/
def execGetVersion (s : State) : Host.Outcome State Fault Refusal := .next (spdmAnswer 0 0 1 s)
/-- GET_CAPABILITIES (R397). -/
def execGetCapabilities (s : State) : Host.Outcome State Fault Refusal := .next (spdmAfter 1 1 0 2 s)
/-- NEGOTIATE_ALGORITHMS (R397). -/
def execNegotiateAlgorithms (s : State) : Host.Outcome State Fault Refusal := .next (spdmAfter 2 2 0 3 s)
/-- GET_DIGESTS (R397). -/
def execGetDigests (s : State) : Host.Outcome State Fault Refusal := .next (spdmAfter 3 3 0 3 s)
/-- GET_CERTIFICATE (R397). -/
def execGetCertificate (slot : Nat) (s : State) : Host.Outcome State Fault Refusal := .next (spdmAfter 3 4 slot 3 s)
/-- CHALLENGE (R397): signed, by the number of the answer. -/
def execChallenge (nonce : BitVec 256) (s : State) : Host.Outcome State Fault Refusal :=
  .next (spdmAfter 3 5 (nonce.toNat + 2 ^ 256 * s.mc.answers) 3 s)
/-- GET_MEASUREMENTS (R397): the digest of what index 1 to 5 measures. -/
def execGetMeasurements (index : Nat) (s : State) : Host.Outcome State Fault Refusal :=
  .next (if 1 ≤ index ∧ index ≤ 5 ∧ 3 ≤ s.mc.spdm then measureAnswer index s
    else { s with mc := { s.mc with answers := s.mc.answers + 1, answer := [] } })

end Sys2Proof.Machine
end

