-- ==== Sys2Proof/Machine/Events.lean ====
section
/-! DEFINITION. The steps of a warp's own engines: trap entry (R339), the Frame Spill Engine (R47, R49), ageing swaps and
releases (R38, R41, R44), and the passing of a cluster's cycle (R9, R40, R348, R390). -/

namespace Sys2Proof.Machine

/-- Act on a warp as the warp on turn; the warp on turn stays as it was when there is no such warp. -/
def withWarp (wid : Nat) (f : State → State) (s : State) : State :=
  match s.warp? wid with
  | none => s
  | some _ => f (s.bring wid)

/-! ### Trap entry and the FSE (R47, R49, R339) -/

/-- TRAP_ENTRY: a raised trap enters, once the FSE allows it (R339). -/
def execTrapEntry (wid : Nat) (s : State) : Host.Outcome State Fault Refusal := .next (withWarp wid enterTrap s)

/-- A block holds registers that outstanding operations will write (R205). -/
def blockAwaited (s : State) (w : Warp) (j : Nat) : Bool :=
  (w.awaitedV ++ awaitedMovv s w).any (fun r => rangesMeet r (8 * j, 8))

/-- FSE_SPILL: a block that may leave the ring is written to the block area (R47). -/
def execFseSpill (wid blk : Nat) (s : State) : Host.Outcome State Fault Refusal :=
  .next (match s.warp? wid with
    | none => s
    | some w => if w.maySpill.contains blk && !blockAwaited s w blk then spillBlock s w blk else s)

/-- FSE_FILL: a block is read back into the ring (R47). -/
def execFseFill (wid blk : Nat) (s : State) : Host.Outcome State Fault Refusal :=
  .next (match s.warp? wid with
    | none => s
    | some w => if w.mayFill == some blk then fillBlock s w blk else s)

/-! ### Ageing (R38, R41, R44) -/

/-- The warp is not blocked: no collective, retry park or trap entry holds it (R41, R65). -/
def Warp.free (w : Warp) : Bool := w.block.isNone && w.retry.isEmpty && w.pend.isNone

/-- The stacked path that is to swap: the highest age from AGELIM on, and among equal ages the one pushed earliest; none that is
frozen (R41, R340). -/
def Warp.agedRec (w : Warp) : Option (Rec × Path) :=
  (w.stacked.filter (fun x => w.agelim ≤ x.2.age)).foldl (fun (a : Option (Rec × Path)) x =>
    match a with
    | none => some x
    | some y => if y.2.age < x.2.age || (y.2.age == x.2.age && x.1.order < y.1.order) then some x else some y) none

/-- The slot that an ageing swap takes is the one on turn: EMPTY first, then the lower age, then slot B (R41). -/
def Warp.swapHere (w : Warp) : Bool :=
  if !w.p.held then w.q.held || !w.onB
  else if !w.q.held then false
  else w.p.age < w.q.age || (w.p.age == w.q.age && w.onB)

/-- A path enters the slot on turn: the other slot's path is parked where the span would exceed B (R41, R44). -/
def Warp.enterSlot (w : Warp) (p : Path) : Warp :=
  Warp.arrive w.fuel false ({ w with p := p.out } : Warp).parkOther

/-- The ageing swap with the slot on turn (R41). -/
def Warp.swapIn (w : Warp) (r : Rec) (t : Path) : Warp :=
  if w.p.held then (w.setRec r.off (.split w.p.out)).enterSlot t else (w.freeRec r.off).enterSlot t

/-- AGEING_SWAP: at most one takes place in a cycle (R41). -/
def Warp.ageSwap (w : Warp) : Warp :=
  if !w.free || w.swapped then w
  else match w.agedRec with
    | none => w
    | some (r, t) => if r.shut then w else { (if w.swapHere then w.swapIn r t else (w.flip.swapIn r t).flip) with swapped := true }

/-- The records that wait to be restored while a retry fault keeps them from being read (R49), by their offsets: those of the
paths of the slots, and the top one, or the one that an ageing swap is to take (R41). -/
def Warp.heldRecs (w : Warp) : List Nat :=
  w.lostOffs ++ (if w.shutWanted then w.topStack.map (·.1.off)
    else if w.free then ((w.agedRec.map (·.1)).filter (fun r => r.shut)).map (·.off) else none).toList

/-- A warp changes by `f` and settles; its records are looked at as memory has them where FRAMESYNC has made that current
(R53), and a read that meets a retry fault is held (R49). -/
def reWarp (wid : Nat) (f : Warp → Warp) (s : State) : State :=
  match s.warp? wid with
  | none => s
  | some w =>
    let w1 := settleWith (fun x => (f x).resettle) s w
    w1.heldRecs.foldl (fun s off => holdRecord w1 off s) (s.modWarp wid (fun _ => w1))

/-- AGEING_SWAP (R41). -/
def execAgeingSwap (wid : Nat) (s : State) : Host.Outcome State Fault Refusal := .next (reWarp wid Warp.ageSwap s)

/-- A WAITING path of the slot on turn whose AGE has reached AGELIM pops its RSTK (R38). -/
def Warp.ageFree (w : Warp) : Warp :=
  if w.p.st == .waiting && w.agelim ≤ w.p.age then Warp.arrive w.fuel true { w with p := releasePath w.p } else w

/-- A stacked WAITING path whose AGE has reached AGELIM pops its RSTK (R38). -/
def Warp.ageFreeRecs (w : Warp) : Warp :=
  { w with recs := w.recs.map (fun r => match r.body with
      | .split p => if w.agelim ≤ p.age then w.releaseRec r else r
      | .call _ => r) }

/-- The path of slot A or B, and the stacked paths, where their AGE has reached AGELIM (R38). -/
def Warp.ageRelease (slotB : Bool) (w : Warp) : Warp :=
  (if w.onB == slotB then w.ageFree else w.flip.ageFree.flip).ageFreeRecs

/-- AGE_RELEASE of the path of slot A or B, and of the stacked paths (R38). -/
def execAgeRelease (wid : Nat) (slotB : Bool) (s : State) : Host.Outcome State Fault Refusal :=
  .next (reWarp wid (Warp.ageRelease slotB) s)

/-- The parked path of the slot on turn has reached AGELIM: it is unparked, and the other slot's path is parked (R44). -/
def Warp.unparkAged (w : Warp) : Warp :=
  if w.p.parked && w.agelim ≤ w.p.age then
    Warp.arrive w.fuel false { w with
      p := { w.p with parked := false }, q := if w.q.held then w.q.park else w.q }
  else w

/-- The exchange of a parked path at AGELIM (R44). -/
def Warp.parkedSwap (w : Warp) : Warp := if w.p.parked then w.unparkAged else w.flip.unparkAged.flip

/-- PARKED_AGE_SWAP (R44). -/
def execParkedAgeSwap (wid : Nat) (s : State) : Host.Outcome State Fault Refusal := .next (reWarp wid Warp.parkedSwap s)

/-! ### A cycle of a cluster (R9, R40, R348, R363, R390) -/

/-- A warp at the end of a cycle: ages, and the counts of SLEEP and YIELD (R40, R348). -/
def Warp.endCycle (w : Warp) : Warp :=
  { w.olderRecs with
    p := w.p.older, q := w.q.older, issued := false, swapped := false
    examA := false, examB := false, lastCycle := false, sleep := w.sleep.map (· - 1), yielded := w.yielded - 1 }

/-- Some path of the warp has reached AGELIM (R38, R41, R44). -/
def Warp.agedAny (w : Warp) : Bool :=
  (w.p.held && w.agelim ≤ w.p.age) || (w.q.held && w.agelim ≤ w.q.age) || w.stacked.any (fun x => w.agelim ≤ x.2.age) ||
    w.fromMem

/-- What the end of a cycle brings to a warp: parked paths change places, WAITING paths are released, and an ageing swap
is judged on the ages then reached (R38, R41, R44, R176); a SLEEP ends at its timeout (R348). -/
def dueNow (s : State) (wid : Nat) : State :=
  match s.warp? wid with
  | none => s
  | some w =>
    let s1 := if w.agedAny then
      reWarp wid Warp.ageSwap (reWarp wid (Warp.ageRelease true) (reWarp wid (Warp.ageRelease false) (reWarp wid Warp.parkedSwap s)))
      else s
    s1.modWarp wid Warp.timeout

/-- Range-lock entries leave in the cycle after their copy has ended: those of an earlier cycle that are still held go, and
those of the cycle that ends may go from now on (R239, R241). -/
def lockCycle (c : Nat) (s : State) : State :=
  let s1 := (s.copies.filter (fun x => x.ripe && clusterOf s x.core == c)).foldl (fun s x => releaseLocks x.id s) s
  { s1 with copies := s1.copies.map (fun x => if x.ending != 0 && clusterOf s1 x.core == c then { x with ripe := true } else x) }

/-- One cycle of a cluster's clock. Kills that traps have met in it take effect (R345, log 154). -/
def tickCluster (c : Nat) (s : State) : State :=
  let s1 := endKills (writeEarly c (sampleNow c s))
  let s2 := s1.mapWarps (fun w => if w.cluster == c then w.endCycle else w)
  let s3 : State := { s2 with cores := s2.cores.map (fun e => if clusterOf s2 e.1 == c then (e.1, { e.2 with used := [] }) else e) }
  let k := (s3.cluster c).endCycle
  let s4 := s3.setCluster c { k with
    cycle := k.cycle + 1, window := (k.now :: k.window).take 255, now := 0
    thrcyc := if k.acting then k.thrcyc + 1 else k.thrcyc }
  lockCycle c (((s4.warps.filter (fun w => w.cluster == c)).map (·.wid)).foldl dueNow s4)

end Sys2Proof.Machine
end

