-- ==== Sys2Proof/Machine/Scalar.lean ====
section
/-! DEFINITION. The scalar and predicate instructions, opcodes 0x00 to 0x09, and the MODE accesses, opcodes 0x16 and
0x17 (R80, R88, R147 to R160, R174, R175). -/

namespace Sys2Proof.Machine

/-! ### Scalar arithmetic (R149, R151, R152) -/

/-- The value of a scalar operation marked 32: on bits [31:0] with the result sign-extended where T = 1, and on 64
bits otherwise (R75, R149). -/
def width32 (t : Bool) (op : (n : Nat) → BitVec n → BitVec n → BitVec n) (x y : W64) : W64 :=
  if t then sx (op 32 (lo32 x) (lo32 y)) else op 64 x y

/-- What an SALU instruction needs (R151): class Control, and the source operands `src`. -/
def saluGate (fn : BitVec 4) (d a b : BitVec 6) (g t : Bool) (src : List (BitVec 6)) : Gate :=
  { word := wordA 1 d a b fn g t, guard := g, cls := .control, scals := d.toNat :: src.map BitVec.toNat, uses := src.map useS }

/-- An SALU instruction of two sources (R151). -/
def salu (fn : BitVec 4) (d a b : BitVec 6) (g t : Bool) (op : (n : Nat) → BitVec n → BitVec n → BitVec n) (s : State) :
    Host.Outcome State Fault Refusal :=
  (saluGate fn d a b g t [a, b]).run
    (onWarp (fun w _ => w.setS d.toNat (width32 t op (w.sr a.toNat).bits (w.sr b.toNat).bits) false)) s

/-- An SALU instruction of one source (R151). -/
def salu1 (fn : BitVec 4) (d a : BitVec 6) (g t : Bool) (op : (n : Nat) → BitVec n → BitVec n) (s : State) :
    Host.Outcome State Fault Refusal :=
  (saluGate fn d a 0 g t [a]).run
    (onWarp (fun w _ => w.setS d.toNat (width32 t (fun n x _ => op n x) (w.sr a.toNat).bits 0) false)) s

/-- The high n bits of the signed product (R151). -/
def mulHigh (n : Nat) (x y : BitVec n) : BitVec n := BitVec.ofInt n (x.toInt * y.toInt / (2 ^ n : Nat))

/-- NOP (R88). -/
def execNop (s : State) : Host.Outcome State Fault Refusal :=
  ({ word := 0, cls := .control } : Gate).run (onWarp (fun w _ => w)) s
/-- SADD: x + y (R151). -/
def execSadd (d a b : BitVec 6) (g t : Bool) (s : State) : Host.Outcome State Fault Refusal :=
  salu 0 d a b g t (fun _ x y => x + y) s
/-- SSUB: x − y (R151). -/
def execSsub (d a b : BitVec 6) (g t : Bool) (s : State) : Host.Outcome State Fault Refusal :=
  salu 1 d a b g t (fun _ x y => x - y) s
/-- SMUL: the low bits of x × y (R151). -/
def execSmul (d a b : BitVec 6) (g t : Bool) (s : State) : Host.Outcome State Fault Refusal :=
  salu 2 d a b g t (fun _ x y => x * y) s
/-- SMULH: the high bits of the signed product (R151). -/
def execSmulh (d a b : BitVec 6) (g t : Bool) (s : State) : Host.Outcome State Fault Refusal :=
  salu 3 d a b g t mulHigh s
/-- SAND (R151). -/
def execSand (d a b : BitVec 6) (g t : Bool) (s : State) : Host.Outcome State Fault Refusal :=
  salu 4 d a b g t (fun _ x y => x &&& y) s
/-- SOR (R151). -/
def execSor (d a b : BitVec 6) (g t : Bool) (s : State) : Host.Outcome State Fault Refusal :=
  salu 5 d a b g t (fun _ x y => x ||| y) s
/-- SXOR (R151). -/
def execSxor (d a b : BitVec 6) (g t : Bool) (s : State) : Host.Outcome State Fault Refusal :=
  salu 6 d a b g t (fun _ x y => x ^^^ y) s
/-- SSHL: c is y[4:0] or y[5:0], which is y modulo n (R151). -/
def execSshl (d a b : BitVec 6) (g t : Bool) (s : State) : Host.Outcome State Fault Refusal :=
  salu 7 d a b g t (fun n x y => x <<< (y.toNat % n)) s
/-- SSHR (R151). -/
def execSshr (d a b : BitVec 6) (g t : Bool) (s : State) : Host.Outcome State Fault Refusal :=
  salu 8 d a b g t (fun n x y => x >>> (y.toNat % n)) s
/-- SSAR (R151). -/
def execSsar (d a b : BitVec 6) (g t : Bool) (s : State) : Host.Outcome State Fault Refusal :=
  salu 9 d a b g t (fun n x y => x.sshiftRight (y.toNat % n)) s
/-- SMIN, signed (R151). -/
def execSmin (d a b : BitVec 6) (g t : Bool) (s : State) : Host.Outcome State Fault Refusal :=
  salu 10 d a b g t (fun _ x y => if x.sle y then x else y) s
/-- SMAX, signed (R151). -/
def execSmax (d a b : BitVec 6) (g t : Bool) (s : State) : Host.Outcome State Fault Refusal :=
  salu 11 d a b g t (fun _ x y => if x.sle y then y else x) s
/-- SMINU, unsigned (R151). -/
def execSminu (d a b : BitVec 6) (g t : Bool) (s : State) : Host.Outcome State Fault Refusal :=
  salu 12 d a b g t (fun _ x y => if x.ule y then x else y) s
/-- SMAXU, unsigned (R151). -/
def execSmaxu (d a b : BitVec 6) (g t : Bool) (s : State) : Host.Outcome State Fault Refusal :=
  salu 13 d a b g t (fun _ x y => if x.ule y then y else x) s
/-- SCLZ: leading zeros, 0 to n (R151). -/
def execSclz (d a : BitVec 6) (g t : Bool) (s : State) : Host.Outcome State Fault Refusal :=
  salu1 14 d a g t (fun n x => BitVec.ofNat n (clzOf n x.toNat)) s
/-- SPOP: set bits (R151). -/
def execSpop (d a : BitVec 6) (g t : Bool) (s : State) : Host.Outcome State Fault Refusal :=
  salu1 15 d a g t (fun n x => BitVec.ofNat n (popOf n x.toNat)) s

/-- SADDI: s[a] + sext(IMM12) (R152). -/
def execSaddi (d a : BitVec 6) (imm : BitVec 12) (g : Bool) (s : State) : Host.Outcome State Fault Refusal :=
  ({ word := wordI 2 d a imm g, guard := g, cls := .control, scals := [d.toNat, a.toNat], uses := [useS a] } : Gate).run
    (onWarp (fun w _ => w.setS d.toNat ((w.sr a.toNat).bits + imm.signExtend 64) false)) s

/-! ### Scalar comparison (R153) -/

/-- SCMP: the condition, one value for the warp, goes to p[d] in the active lanes (R153). -/
def scmp (fn : BitVec 4) (d : BitVec 3) (a b : BitVec 6) (g t : Bool) (c : (n : Nat) → BitVec n → BitVec n → Bool)
    (s : State) : Host.Outcome State Fault Refusal :=
  ({ word := wordA 3 (in6 d) a b fn g t, guard := g, cls := .control, scals := [a.toNat, b.toNat]
     uses := [useS a, useS b] } : Gate).run
    (onWarp (fun w act =>
      let x := (w.sr a.toNat).bits
      let y := (w.sr b.toNat).bits
      w.setP d.toNat act (if (if t then c 32 (lo32 x) (lo32 y) else c 64 x y) then fullMask else 0))) s

/-- SCMPEQ (R153). -/
def execScmpeq (d : BitVec 3) (a b : BitVec 6) (g t : Bool) (s : State) : Host.Outcome State Fault Refusal :=
  scmp 0 d a b g t (fun _ x y => x == y) s
/-- SCMPNE (R153). -/
def execScmpne (d : BitVec 3) (a b : BitVec 6) (g t : Bool) (s : State) : Host.Outcome State Fault Refusal :=
  scmp 1 d a b g t (fun _ x y => x != y) s
/-- SCMPLT, signed (R153). -/
def execScmplt (d : BitVec 3) (a b : BitVec 6) (g t : Bool) (s : State) : Host.Outcome State Fault Refusal :=
  scmp 2 d a b g t (fun _ x y => x.slt y) s
/-- SCMPLE, signed (R153). -/
def execScmple (d : BitVec 3) (a b : BitVec 6) (g t : Bool) (s : State) : Host.Outcome State Fault Refusal :=
  scmp 3 d a b g t (fun _ x y => x.sle y) s
/-- SCMPLTU, unsigned (R153). -/
def execScmpltu (d : BitVec 3) (a b : BitVec 6) (g t : Bool) (s : State) : Host.Outcome State Fault Refusal :=
  scmp 4 d a b g t (fun _ x y => x.ult y) s
/-- SCMPLEU, unsigned (R153). -/
def execScmpleu (d : BitVec 3) (a b : BitVec 6) (g t : Bool) (s : State) : Host.Outcome State Fault Refusal :=
  scmp 5 d a b g t (fun _ x y => x.ule y) s
/-- SCMPGT, signed (R153). -/
def execScmpgt (d : BitVec 3) (a b : BitVec 6) (g t : Bool) (s : State) : Host.Outcome State Fault Refusal :=
  scmp 6 d a b g t (fun _ x y => y.slt x) s
/-- SCMPGE, signed (R153). -/
def execScmpge (d : BitVec 3) (a b : BitVec 6) (g t : Bool) (s : State) : Host.Outcome State Fault Refusal :=
  scmp 7 d a b g t (fun _ x y => y.sle x) s
/-- SCMPGTU, unsigned (R153). -/
def execScmpgtu (d : BitVec 3) (a b : BitVec 6) (g t : Bool) (s : State) : Host.Outcome State Fault Refusal :=
  scmp 8 d a b g t (fun _ x y => y.ult x) s
/-- SCMPGEU, unsigned (R153). -/
def execScmpgeu (d : BitVec 3) (a b : BitVec 6) (g t : Bool) (s : State) : Host.Outcome State Fault Refusal :=
  scmp 9 d a b g t (fun _ x y => y.ule x) s

/-! ### Immediates and literals (R154 to R156) -/

/-- OP 0x04: s[d] from its old value and the immediate; the old value is no operand, and its poison stays where `keep`
holds (R154, R202). -/
def smov16 (fn : BitVec 3) (d : BitVec 6) (imm : BitVec 16) (keep : Bool) (f : W64 → W64) (s : State) :
    Host.Outcome State Fault Refusal :=
  ({ word := wordL 4 d fn imm, cls := .control, scals := [d.toNat] } : Gate).run
    (onWarp (fun w _ => w.setS d.toNat (f (w.sr d.toNat).bits) (keep && (w.sr d.toNat).bad))) s

/-- Insert 16 bits at bit `lo` (R154). -/
def insert16 (lo : Nat) (imm : BitVec 16) (x : W64) : W64 :=
  (x &&& ~~~(0xFFFF#64 <<< lo)) ||| (imm.zeroExtend 64 <<< lo)

/-- SMOVI: sext(IMM16) (R154). -/
def execSmovi (d : BitVec 6) (imm : BitVec 16) (s : State) : Host.Outcome State Fault Refusal :=
  smov16 0 d imm false (fun _ => imm.signExtend 64) s
/-- SINS16 (R154). -/
def execSins16 (d : BitVec 6) (imm : BitVec 16) (s : State) : Host.Outcome State Fault Refusal :=
  smov16 1 d imm true (insert16 16 imm) s
/-- SINS32 (R154). -/
def execSins32 (d : BitVec 6) (imm : BitVec 16) (s : State) : Host.Outcome State Fault Refusal :=
  smov16 2 d imm true (insert16 32 imm) s
/-- SINS48 (R154). -/
def execSins48 (d : BitVec 6) (imm : BitVec 16) (s : State) : Host.Outcome State Fault Refusal :=
  smov16 3 d imm true (insert16 48 imm) s

/-- OP 0x05: s[d] from its old value and the literal (R155). -/
def smov32 (fn : BitVec 3) (d : BitVec 6) (g : Bool) (keep : Bool) (f : W64 → W64) (s : State) :
    Host.Outcome State Fault Refusal :=
  ({ word := wordX 5 d fn g, len := 8, guard := g, cls := .control, scals := [d.toNat] } : Gate).run
    (onWarp (fun w _ => w.setS d.toNat (f (w.sr d.toNat).bits) (keep && (w.sr d.toNat).bad))) s

/-- SMOVL: sext(literal) (R155). -/
def execSmovl (d : BitVec 6) (g : Bool) (lit : BitVec 32) (s : State) : Host.Outcome State Fault Refusal :=
  smov32 0 d g false (fun _ => sx lit) s
/-- SMOVLZ: zext(literal) (R155). -/
def execSmovlz (d : BitVec 6) (g : Bool) (lit : BitVec 32) (s : State) : Host.Outcome State Fault Refusal :=
  smov32 1 d g false (fun _ => zx lit) s
/-- SMOVLH: the literal into bits [63:32] (R155). -/
def execSmovlh (d : BitVec 6) (g : Bool) (lit : BitVec 32) (s : State) : Host.Outcome State Fault Refusal :=
  smov32 2 d g true (fun x => pairOf (lo32 x) lit) s

/-- SSEL: s[c] is a condition; the value chosen moves with its poison (R156, R202). -/
def execSsel (d a b c : BitVec 6) (g : Bool) (s : State) : Host.Outcome State Fault Refusal :=
  ({ word := wordC 6 d a b c g, guard := g, cls := .control, scals := [d.toNat, a.toNat, b.toNat, c.toNat]
     uses := [useS c] } : Gate).run
    (onWarp (fun w _ =>
      let x := if (w.sr c.toNat).bits ≠ 0 then w.sr a.toNat else w.sr b.toNat
      w.setS d.toNat x.bits x.bad)) s

/-! ### Scalar division (R157) -/

/-- Quotient and remainder of n-bit operands as R157 and R123 state them. -/
def divRem (n : Nat) (sgn : Bool) (x y : BitVec n) : BitVec n × BitVec n :=
  if y = 0 then (BitVec.allOnes n, x)
  else if sgn then (if x = BitVec.intMin n ∧ y = BitVec.allOnes n then (x, 0) else (x.sdiv y, x.srem y))
  else (x / y, x % y)

/-- SDIV in its four forms (R157). -/
def sdivOp (fn : BitVec 4) (d a b : BitVec 6) (g t sgn rem : Bool) (s : State) : Host.Outcome State Fault Refusal :=
  let word := wordA 7 d a b fn g t
  ({ word := word, guard := g, cls := .control, scals := [d.toNat, a.toNat, b.toNat], uses := [useS a, useS b] } : Gate).run
    (fun s act =>
      let x := (s.w.sr a.toNat).bits
      let y := (s.w.sr b.toNat).bits
      if (if t then lo32 y = 0 else y = 0) ∧ s.w.p.dzt then trapAct 0x09 word act s
      else
        let pick (n : Nat) (x y : BitVec n) : BitVec n := if rem then (divRem n sgn x y).2 else (divRem n sgn x y).1
        .fall { s with w := s.w.setS d.toNat (width32 t pick x y) false }) s

/-- SDIV (R157). -/
def execSdiv (d a b : BitVec 6) (g t : Bool) (s : State) : Host.Outcome State Fault Refusal :=
  sdivOp 0 d a b g t true false s
/-- SDIVU (R157). -/
def execSdivu (d a b : BitVec 6) (g t : Bool) (s : State) : Host.Outcome State Fault Refusal :=
  sdivOp 1 d a b g t false false s
/-- SREM (R157). -/
def execSrem (d a b : BitVec 6) (g t : Bool) (s : State) : Host.Outcome State Fault Refusal :=
  sdivOp 2 d a b g t true true s
/-- SREMU (R157). -/
def execSremu (d a b : BitVec 6) (g t : Bool) (s : State) : Host.Outcome State Fault Refusal :=
  sdivOp 3 d a b g t false true s

/-! ### Predicates (R158 to R160) -/

/-- PLOG: p[d] in the active lanes (R158). -/
def plog (fn : BitVec 4) (d a b : BitVec 3) (g : Bool) (f : Mask → Mask → Mask) (s : State) :
    Host.Outcome State Fault Refusal :=
  ({ word := wordA 8 (in6 d) (in6 a) (in6 b) fn g false, guard := g, cls := .control } : Gate).run
    (onWarp (fun w act => w.setP d.toNat act (f (w.pred a.toNat) (w.pred b.toNat)))) s

/-- PAND (R158). -/
def execPand (d a b : BitVec 3) (g : Bool) (s : State) : Host.Outcome State Fault Refusal :=
  plog 0 d a b g (fun x y => x &&& y) s
/-- POR (R158). -/
def execPor (d a b : BitVec 3) (g : Bool) (s : State) : Host.Outcome State Fault Refusal :=
  plog 1 d a b g (fun x y => x ||| y) s
/-- PXOR (R158). -/
def execPxor (d a b : BitVec 3) (g : Bool) (s : State) : Host.Outcome State Fault Refusal :=
  plog 2 d a b g (fun x y => x ^^^ y) s
/-- PANDN (R158). -/
def execPandn (d a b : BitVec 3) (g : Bool) (s : State) : Host.Outcome State Fault Refusal :=
  plog 3 d a b g (fun x y => x &&& ~~~y) s
/-- PNOT (R158). -/
def execPnot (d a : BitVec 3) (g : Bool) (s : State) : Host.Outcome State Fault Refusal :=
  plog 4 d a 0 g (fun x _ => ~~~x) s
/-- PMOV (R158). -/
def execPmov (d a : BitVec 3) (g : Bool) (s : State) : Host.Outcome State Fault Refusal :=
  plog 5 d a 0 g (fun x _ => x) s
/-- PSET (R158). -/
def execPset (d : BitVec 3) (g : Bool) (s : State) : Host.Outcome State Fault Refusal :=
  plog 6 d 0 0 g (fun _ _ => fullMask) s
/-- PCLR (R158). -/
def execPclr (d : BitVec 3) (g : Bool) (s : State) : Host.Outcome State Fault Refusal :=
  plog 7 d 0 0 g (fun _ _ => 0) s

/-- OP 0x09 into a scalar: a value of p[a] and `active` (R159, R160). -/
def predS (fn : BitVec 4) (d : BitVec 6) (a : BitVec 3) (g : Bool) (f : Mask → Mask → W64) (s : State) :
    Host.Outcome State Fault Refusal :=
  ({ word := wordA 9 d (in6 a) 0 fn g false, guard := g, cls := .control, scals := [d.toNat] } : Gate).run
    (onWarp (fun w act => w.setS d.toNat (f (w.pred a.toNat) act) false)) s

/-- PANY (R159). -/
def execPany (d : BitVec 6) (a : BitVec 3) (g : Bool) (s : State) : Host.Outcome State Fault Refusal :=
  predS 0 d a g (fun p act => if p &&& act = 0 then 0 else 1) s
/-- PALL (R159). -/
def execPall (d : BitVec 6) (a : BitVec 3) (g : Bool) (s : State) : Host.Outcome State Fault Refusal :=
  predS 1 d a g (fun p act => if p &&& act = act then 1 else 0) s
/-- PPOP (R159). -/
def execPpop (d : BitVec 6) (a : BitVec 3) (g : Bool) (s : State) : Host.Outcome State Fault Refusal :=
  predS 2 d a g (fun p act => w64 (popMask (p &&& act))) s
/-- PTOS: the whole predicate register, whatever the mask (R160). -/
def execPtos (d : BitVec 6) (a : BitVec 3) (g : Bool) (s : State) : Host.Outcome State Fault Refusal :=
  predS 3 d a g (fun p _ => zx p) s
/-- STOP: bits of s[a] into p[d] in the active lanes (R160). -/
def execStop (d : BitVec 3) (a : BitVec 6) (g : Bool) (s : State) : Host.Outcome State Fault Refusal :=
  ({ word := wordA 9 (in6 d) a 0 4 g false, guard := g, cls := .control, scals := [a.toNat], uses := [useS a] } : Gate).run
    (onWarp (fun w act => w.setP d.toNat act (lo32 (w.sr a.toNat).bits))) s

/-! ### MODE (R80, R174, R175) -/

/-- Whether MODE may hold a value: RM is not 5 to 7, and bits [31:21] are zero (R79, R80). -/
def modeOk (m : W32) : Bool := bits32 m 16 14 ≤ 4 && bits32 m 31 21 == 0

/-- The SETM forms: MODE takes `f` of itself and s[d], or the instruction traps with ILLEGAL_OP (R80, R174). -/
def setMode (word : W64) (scals : List Nat) (us : List Use) (f : Warp → W32) (s : State) : Host.Outcome State Fault Refusal :=
  ({ word := word, cls := .control, scals := scals, uses := us } : Gate).run
    (fun s act =>
      let m := f s.w
      if modeOk m then .fall { s with w := { s.w with p := { s.w.p with mode := m } } }
      else trapAct 0x01 (zx m) act s) s

/-- SETMG: MODE[3:0] (R80). -/
def execSetmg (imm : BitVec 4) (s : State) : Host.Outcome State Fault Refusal :=
  setMode (wordL 0x16 0 0 (imm.zeroExtend 16)) [] [] (fun w => (w.p.mode &&& ~~~0xF#32) ||| imm.zeroExtend 32) s
/-- SETMT: MODE[13:4] (R80). -/
def execSetmt (imm : BitVec 10) (s : State) : Host.Outcome State Fault Refusal :=
  setMode (wordL 0x16 0 1 (imm.zeroExtend 16)) [] [] (fun w => (w.p.mode &&& ~~~0x3FF0#32) ||| (imm.zeroExtend 32 <<< 4)) s
/-- SETMR: MODE[20:14] (R80). -/
def execSetmr (imm : BitVec 7) (s : State) : Host.Outcome State Fault Refusal :=
  setMode (wordL 0x16 0 2 (imm.zeroExtend 16)) [] [] (fun w => (w.p.mode &&& ~~~0x1FC000#32) ||| (imm.zeroExtend 32 <<< 14)) s
/-- SETM: MODE from s[d] (R80). -/
def execSetm (d : BitVec 6) (s : State) : Host.Outcome State Fault Refusal :=
  setMode (wordL 0x16 d 3 0) [d.toNat] [useS d] (fun w => lo32 (w.sr d.toNat).bits) s
/-- GETM: s[d] from the issuing path's MODE (R175). -/
def execGetm (d : BitVec 6) (s : State) : Host.Outcome State Fault Refusal :=
  ({ word := wordL 0x17 d 0 0, cls := .control, scals := [d.toNat] } : Gate).run
    (onWarp (fun w _ => w.setS d.toNat (zx w.p.mode) false)) s

end Sys2Proof.Machine
end

