-- ==== Sys2Proof/Machine/Tex.lean ====
section
/-! DEFINITION. Texture: descriptors (R331), sampling (R332), residency (R333) and TEX, TEXL, TEXG, TEXF and TEXQ
(R334). -/

namespace Sys2Proof.Machine

/-! ### Descriptors (R331) -/

/-- A texture descriptor (R331). -/
structure TexDesc where
  base : W64
  w : Nat
  h : Nat
  levels : Nat
  fmt : Nat
  park : Bool
  magLinear : Bool
  minLinear : Bool
  mipLinear : Bool
  modeU : Nat
  modeV : Nat
  bias : W32
  minmap : W64
  fbmap : W64
deriving DecidableEq, Repr

/-- The fields of a descriptor (R331). -/
def texDescOf (bs : List Byte) : TexDesc :=
  let f := field bs 0x0F 1
  { base := w64 (field bs 0 8), w := field bs 8 2, h := field bs 0xA 2, levels := field bs 0xC 1, fmt := field bs 0xD 1
    park := field bs 0xE 1 % 2 == 1, magLinear := f % 2 == 1, minLinear := f / 2 % 2 == 1, mipLinear := f / 4 % 2 == 1
    modeU := field bs 0x10 1 % 4, modeV := field bs 0x10 1 / 4 % 4, bias := w32 (field bs 0x14 4)
    minmap := w64 (field bs 0x18 8), fbmap := w64 (field bs 0x20 8) }

/-- No reserved bit is set, and every field is in range (R331, R334). -/
def texDescOk (bs : List Byte) (d : TexDesc) : Bool :=
  let size (n : Nat) : Bool := 1 ≤ n && n ≤ 16384
  d.base.toNat % 256 == 0 && size d.w && size d.h && 1 ≤ d.levels && d.levels ≤ ilog2 (max d.w d.h) + 1 && d.fmt ≤ 3 &&
    field bs 0xE 1 / 2 == 0 && field bs 0xF 1 / 8 == 0 && field bs 0x10 1 / 16 == 0 && d.modeU ≤ 2 && d.modeV ≤ 2 &&
    field bs 0x11 3 == 0 && (bs.drop 0x28).all (· == 0)

def TexDesc.lw (d : TexDesc) (l : Nat) : Nat := max 1 (d.w / 2 ^ min l 15)
def TexDesc.lh (d : TexDesc) (l : Nat) : Nat := max 1 (d.h / 2 ^ min l 15)
/-- Bytes per texel (R331). -/
def TexDesc.texel (d : TexDesc) : Nat := if d.fmt = 1 then 8 else 4
/-- The pitch of a level (R331). -/
def TexDesc.pitch (d : TexDesc) (l : Nat) : Nat := roundUp (d.lw l * d.texel) 256
/-- The offset of a level (R331). -/
def TexDesc.levelOff (d : TexDesc) : Nat → Nat
  | 0 => 0
  | l + 1 => roundUp (d.levelOff l + d.pitch l * d.lh l) 65536
/-- The address of a texel (R331). -/
def TexDesc.addr (d : TexDesc) (l x y : Nat) : W64 := d.base + w64 (d.levelOff l + y * d.pitch l + x * d.texel)
/-- The index of the region of a level-0 texel (R331). -/
def TexDesc.region (d : TexDesc) (x y : Nat) : Nat := y / 128 * ((d.w + 127) / 128) + x / 128
/-- How many of the four channels a format has. -/
def TexDesc.chans (d : TexDesc) : Nat := match d.fmt with | 0 => 4 | 1 => 4 | 2 => 1 | _ => 2

/-! ### Coordinates (R332) -/

/-- A texel coordinate under an address mode, in a level of `n` texels (R332). -/
def mapCoord (mode n : Nat) (x : Int) : Nat :=
  match mode with
  | 0 => (x.emod n).toNat
  | 1 => (max 0 (min ((n : Int) - 1) x)).toNat
  | _ =>
    let m := (x.emod (2 * n : Nat)).toNat
    if m < n then m else 2 * n - 1 - m

/-- X = round(256 (u n − 0.5)) for linear filtering: its integer part and its fraction in 256ths (R332). -/
def linearAt (u : W32) (n : Nat) : Int × Nat :=
  let x : Int := match unpack fF32 u.toNat with
    | .nan _ => -128
    | .inf _ => Config.texCoordFree u n
    | .fin neg m e => (((qDy neg m e).mul (Q.ofInt n)).sub ⟨1, 2⟩ |>.mul ⟨256, 1⟩).rne
  (x.ediv 256, (x.emod 256).toNat)

/-- floor(u n) for nearest filtering (R332). -/
def nearestAt (u : W32) (n : Nat) : Int :=
  match unpack fF32 u.toNat with
  | .nan _ => 0
  | .inf _ => Config.texCoordFree u n
  | .fin neg m e => ((qDy neg m e).mul (Q.ofInt n)).floor

/-! ### λ (R332) -/

/-- λ from two summands; an infinite one selects the last level or level 0 (R332). -/
def lodSum (key : Nat) (a b : FV) : Q :=
  match a, b with
  | .nan _, _ => ⟨Config.lodFree key, 256⟩
  | _, .nan _ => ⟨Config.lodFree key, 256⟩
  | .inf x, .inf y => if x == y then Q.ofInt (if x then -1 else 64) else ⟨Config.lodFree key, 256⟩
  | .inf x, _ => Q.ofInt (if x then -1 else 64)
  | _, .inf y => Q.ofInt (if y then -1 else 64)
  | .fin x n e, .fin y m f => (qDy x n e).add (qDy y m f)

/-- The base-2 logarithm of p/q > 0 as a rational: exact for a power of two, and otherwise within 2^-200 and never a
tie. -/
def log2Q (p q : Nat) : Q :=
  let k : Int := if q ≤ p then (ilog2 (p / q) : Int)
    else let j := ilog2 (q / p); if q ≤ p * 2 ^ j then -(j : Int) else -((j : Int) + 1)
  let up := if k < 0 then p * 2 ^ k.natAbs else p
  let down := if k < 0 then q else q * 2 ^ k.natAbs
  if up = down then Q.ofInt k
  else (Q.ofInt k).add ⟨2 * (fxLogBits 200 (up * 2 ^ fxB / down) 0 : Int) + 1, 2 ^ 201⟩

/-- A coordinate as a rational, a NaN counting as 0; none where it is infinite (R332). -/
def coordQ (u : W32) : Option Q :=
  match unpack fF32 u.toNat with
  | .nan _ => some ⟨0, 1⟩
  | .inf _ => none
  | .fin neg n e => some (qDy neg n e)

/-- The square of the exact length of (Δu·WIDTH, Δv·HEIGHT) between two lanes of a quad; zero where one of them is outside the
mask (R332). -/
def deltaSq (d : TexDesc) (w : Warp) (a l0 l1 : Nat) : Option Q :=
  if !(w.p.mask.getLsbD l0 && w.p.mask.getLsbD l1) then some ⟨0, 1⟩
  else
    let c (r l : Nat) : Option Q := coordQ (w.vl (a + r) l).bits
    match c 0 l0, c 0 l1, c 1 l0, c 1 l1 with
    | some u0, some u1, some v0, some v1 =>
      let x := (u1.sub u0).mul (Q.ofInt d.w)
      let y := (v1.sub v0).mul (Q.ofInt d.h)
      some ((x.mul x).add (y.mul y))
    | _, _, _, _ => none

/-- What the free values of a lane's λ depend on. -/
def lodKey (w : Warp) (a l : Nat) : Nat := (w.vl a l).bits.toNat * 2 ^ 32 + (w.vl (a + 1) l).bits.toNat

/-- λ of TEX in a lane, a multiple of 1/256 (R332). -/
def lodTex (d : TexDesc) (w : Warp) (a l : Nat) : Q :=
  let q := l / 4 * 4
  let bias := unpack fF32 d.bias.toNat
  match deltaSq d w a q (q + 1), deltaSq d w a q (q + 2) with
  | some x, some y =>
    let m := x.max y
    if m.n ≤ 0 then lodSum (lodKey w a l) (.inf true) bias
    else match bias with
      | .fin neg n e => ⟨(((log2Q m.n.natAbs m.d).mul ⟨1, 2⟩).add (qDy neg n e) |>.mul ⟨256, 1⟩).rne, 256⟩
      | b => lodSum (lodKey w a l) (.fin false 0 0) b
  | _, _ => ⟨Config.lodFree (lodKey w a l), 256⟩

/-! ### Texels (R332, R333) -/

/-- A texel of a sample with its weight. -/
structure TexRef where
  l : Nat
  x : Nat
  y : Nat
  num : Nat
  den : Nat
deriving DecidableEq, Repr

/-- The four texels of a linear sample of a level, with their weights in 65,536ths (R332). -/
def linearRefs (d : TexDesc) (l : Nat) (u v : W32) : List TexRef :=
  let w := d.lw l
  let h := d.lh l
  let x := linearAt u w
  let y := linearAt v h
  let x0 := mapCoord d.modeU w x.1
  let x1 := mapCoord d.modeU w (x.1 + 1)
  let y0 := mapCoord d.modeV h y.1
  let y1 := mapCoord d.modeV h (y.1 + 1)
  [⟨l, x0, y0, (256 - x.2) * (256 - y.2), 65536⟩, ⟨l, x1, y0, x.2 * (256 - y.2), 65536⟩,
    ⟨l, x0, y1, (256 - x.2) * y.2, 65536⟩, ⟨l, x1, y1, x.2 * y.2, 65536⟩]

/-- The texel of a nearest sample of a level (R332). -/
def nearestRef (d : TexDesc) (l : Nat) (u v : W32) : TexRef :=
  ⟨l, mapCoord d.modeU (d.lw l) (nearestAt u (d.lw l)), mapCoord d.modeV (d.lh l) (nearestAt v (d.lh l)), 1, 1⟩

/-- The levels that λ uses with their weights, and whether their filter is linear (R332). -/
def lodLevels (d : TexDesc) (lod : Q) : List (Nat × Nat × Nat) × Bool :=
  if lod.n ≤ 0 then ([(0, 1, 1)], d.magLinear)
  else
    let top := d.levels - 1
    let k := lod.floor.toNat
    if d.mipLinear then
      let f := lod.sub (Q.ofInt k)
      ([(min k top, f.d - f.n.natAbs, f.d), (min (k + 1) top, f.n.natAbs, f.d)].filter (fun e => e.2.1 != 0), d.minLinear)
    else ([(min (lod.add ⟨1, 2⟩).floor.toNat top, 1, 1)], d.minLinear)

/-- The texels of a filtered sample, those of weight zero left out; `raise` is the least level under CLAMP (R332, R333). -/
def sampleRefs (d : TexDesc) (lod : Q) (raise_ : Nat) (u v : W32) : List TexRef :=
  let ls := lodLevels d lod
  let up (l : Nat) : Nat := min (max l raise_) (d.levels - 1)
  (ls.1.flatMap (fun e =>
    (if ls.2 then linearRefs d (up e.1) u v else [nearestRef d (up e.1) u v]).map (fun r =>
      { r with num := r.num * e.2.1, den := r.den * e.2.2 }))).filter (fun r => r.num != 0)

/-- The level that a sample wants before raising (R333). -/
def wantedLevel (d : TexDesc) (lod : Q) : Nat := ((lodLevels d lod).1.foldl (fun m e => min m e.1) (d.levels - 1))

/-! ### What a lane accesses (R333, R334) -/

/-- The forms that read texels (R334). -/
inductive TexForm where
  | tex
  | texl
  | texg
  | texf
deriving DecidableEq, Repr

/-- What a lane's sample comes to: a check that fails, pages that are not resident, or its accesses and its four outputs. -/
inductive TexLane where
  | fail (f : Fail)
  | retry (vas : List W64)
  | ok (accs : List Acc) (outs : List (Nat × List Tap))
deriving DecidableEq, Repr

/-- The texels of each output of a lane, and the wanted level where the form has one (R332-R334). -/
def texOuts (d : TexDesc) (form : TexForm) (w : Warp) (a l raise_ : Nat) : List (Nat × List TexRef) × Option Nat :=
  let r (i : Nat) : W32 := (w.vl (a + i) l).bits
  let all (refs : List TexRef) : List (Nat × List TexRef) :=
    (List.range 4).map (fun c => (if c < d.chans then c else if c = 3 then 4 else c, if c < d.chans then refs else []))
  let filtered (lod : Q) : List (Nat × List TexRef) × Option Nat := (all (sampleRefs d lod raise_ (r 0) (r 1)), some (wantedLevel d lod))
  match form with
  | .tex => filtered (lodTex d w a l)
  | .texl => filtered (lodSum (lodKey w a l) (unpack fF32 (r 2).toNat) (unpack fF32 d.bias.toNat))
  | .texg =>
    let c := bits32 (r 2) 1 0
    let refs := linearRefs d (min raise_ (d.levels - 1)) (r 0) (r 1)
    (refs.map (fun t => (if c < d.chans then c else if c = 3 then 4 else c, if c < d.chans then [{ t with num := 1, den := 1 }] else [])), some 0)
  | .texf =>
    let x := s32 (r 0)
    let y := s32 (r 1)
    let k := s32 (r 2)
    let lv := k.toNat
    if 0 ≤ k ∧ k < d.levels ∧ 0 ≤ x ∧ x < d.lw lv ∧ 0 ≤ y ∧ y < d.lh lv then (all [⟨lv, x.toNat, y.toNat, 1, 1⟩], none)
    else ((List.range 4).map (fun _ => (0, [])), none)

/-- The texels of a lane, each once. -/
def refsOf (outs : List (Nat × List TexRef)) : List (Nat × Nat × Nat) :=
  outs.foldl (fun acc o => o.2.foldl (fun acc t => if acc.contains (t.l, t.x, t.y) then acc else acc ++ [(t.l, t.x, t.y)]) acc) []

/-- Check the accesses of a lane and lay them out (R186, R187, R333). A texel of a page that is not resident is dropped
under CLAMP, and reads as zero. -/
def texAccs (s : State) (d : TexDesc) (l : Nat) (outs : List (Nat × List TexRef)) (fb : Option (W64 × Nat)) : TexLane :=
  let refs := (refsOf outs).mapIdx (fun i t => (i, t, checkUnlocked s s.w (d.addr t.1 t.2.1 t.2.2) d.texel .read))
  let fbc := fb.map (fun f => (f, checkUnlocked s s.w f.1 4 .rmw))
  let fails := (refs.filterMap (fun r => match r.2.2 with | .error f => some f | .ok _ => none)) ++
    (match fbc with | some (_, .error f) => [f] | _ => [])
  let gone := (refs.filterMap (fun r => match r.2.2 with
      | .ok p => if !p.resident && d.park then some (d.addr r.2.1.1 r.2.1.2.1 r.2.1.2.2) else none
      | .error _ => none)) ++
    (match fbc with | some (f, .ok p) => if p.resident then [] else [f.1] | _ => [])
  match fails with
  | f :: more => .fail (more.foldl (fun (m : Fail) g => if g.stage < m.stage then g else m) f)
  | [] =>
    if !gone.isEmpty then .retry gone
    else
      let reads := refs.filterMap (fun r => match r.2.2 with
        | .ok p => if p.resident then some ({ slot := 16 * l + r.1, key := p.key, size := d.texel, l1 := p.l1 } : Acc) else none
        | .error _ => none)
      let mins := match fbc with
        | some (f, .ok p) => [({ slot := 16 * l + 15, kind := .reduce 3 6, key := p.key, x := w64 f.2, l1 := false } : Acc)]
        | _ => []
      let tap (t : TexRef) : Tap := { acc := 16 * l + (refsOf outs).findIdx (fun k => k == (t.l, t.x, t.y)), num := t.num, den := t.den }
      .ok (reads ++ mins) (outs.map (fun o => (o.1, o.2.map tap)))

/-- The address of the map byte that a lane reads first under CLAMP (R333). -/
def mapByte (s : State) (d : TexDesc) (form : TexForm) (a l : Nat) : Option W64 :=
  if d.park || form == .texf then none
  else
    let near := nearestRef d 0 (s.w.vl a l).bits (s.w.vl (a + 1) l).bits
    some (d.minmap + w64 (d.region near.x near.y))

/-- What a lane's sample comes to (R333): under CLAMP, the map byte of its region is read first. -/
def texLane (s : State) (d : TexDesc) (form : TexForm) (a l : Nat) : TexLane :=
  match mapByte s d form a l with
  | none => texAccs s d l (texOuts d form s.w a l 0).1 none
  | some va =>
    let reg := (va - d.minmap).toNat
    match checkUnlocked s s.w va 1 .read with
    | .error f => .fail f
    | .ok p =>
      if !p.resident then .retry [va]
      else
        let m := readVia s s.w.core p.l1 p.key 1
        if m.2 then .fail ⟨7, 0x15, va⟩
        else
          let o := texOuts d form s.w a l m.1.toNat
          texAccs s d l o.1 (o.2.map (fun k => (d.fbmap + w64 (4 * reg), k)))

/-! ### The instructions (R334) -/

/-- The descriptor of a texture instruction, once its checks have passed (R334). The accesses that the warp has issued
are performed before it is read. -/
def withDesc (b : Nat) (s : State) (act : Mask) (k : State → TexDesc → Res) : Res :=
  let va := (s.w.sr b).bits
  if act = 0 then .fall s
  else afterOps s (fun s => overFabric [va] s (fun s1 =>
    match peek s1 s1.w va 64 64 with
    | .fail f => trapAct f.cause f.tval act s1
    | .retry va => parkAt 7 [va] s1
    | .bytes bs => if texDescOk bs (texDescOf bs) then k (noteReads act [va] s1) (texDescOf bs) else trapAct 0x01 va act s1))

/-- A texture form that reads `n` registers from a (R334). -/
def texOp (fn : BitVec 4) (n : Nat) (form : TexForm) (d a b : BitVec 6) (g : Bool) (s : State) : Host.Outcome State Fault Refusal :=
  ({ word := wordA 0x70 d a b fn g false, guard := g, cls := .graphics
     regs := [{ n := d.toNat, cnt := 4 }, { n := a.toNat, cnt := n }], scals := [b.toNat]
     uses := [useS b, { n := a.toNat, cnt := n }], full := s.w.counterFull .ld, tx := false } : Gate).run
    (fun s act => withDesc b.toNat s act (fun s t => overFabric ((lanesOf act).filterMap (mapByte s t form a.toNat)) s (fun s =>
      failLanes (fun l => match texLane s t form a.toNat l with | .fail f => some f | _ => none) s act (fun s act =>
        let ls := (lanesOf act).map (fun l => (l, texLane s t form a.toNat l))
        let gone := ls.flatMap (fun e => match e.2 with | .retry vas => vas | _ => [])
        let accs := ls.flatMap (fun e => match e.2 with | .ok as _ => as | _ => [])
        let lanes := ls.filterMap (fun e => match e.2 with | .ok _ os => some (e.1, os) | _ => none)
        let irr := s.w.irrTx act
        let mine := ls.flatMap (fun e => match e.2 with
          | .ok as _ => if irr.getLsbD e.1 then as.map (fun x => lineOf x.key) else []
          | _ => [])
        if gone.isEmpty then
          .fall (issueOp { cls := .ld, irr := irr != 0, dst := .tex (s.w.p.wbase + d.toNat) t.fmt lanes, todo := accs }
            (noteLines mine (noteReads act ((lanesOf irr).filterMap (mapByte s t form a.toNat)) s)))
        else parkAt 7 gone s)))) s

/-- TEX (R334). -/
def execTex (d a b : BitVec 6) (g : Bool) (s : State) : Host.Outcome State Fault Refusal := texOp 0 2 .tex d a b g s
/-- TEXL (R334). -/
def execTexl (d a b : BitVec 6) (g : Bool) (s : State) : Host.Outcome State Fault Refusal := texOp 1 3 .texl d a b g s
/-- TEXG (R334). -/
def execTexg (d a b : BitVec 6) (g : Bool) (s : State) : Host.Outcome State Fault Refusal := texOp 2 3 .texg d a b g s
/-- TEXF (R334). -/
def execTexf (d a b : BitVec 6) (g : Bool) (s : State) : Host.Outcome State Fault Refusal := texOp 3 3 .texf d a b g s

/-- TEXQ (R334). -/
def execTexq (d a b : BitVec 6) (g : Bool) (s : State) : Host.Outcome State Fault Refusal :=
  ({ word := wordA 0x70 d a b 4 g false, guard := g, cls := .graphics, regs := [{ n := d.toNat, cnt := 4 }, vop1 a]
     scals := [b.toNat], uses := [useS b, useV1 a], full := s.w.counterFull .ld, tx := false } : Gate).run
    (fun s act => withDesc b.toNat s act (fun s t =>
      let lanes := (lanesOf act).map (fun l =>
        let k := (s.w.vl a.toNat l).bits.toNat
        (l, [t.lw k, t.lh k, t.levels, if t.park then 1 else 0].map (fun n => ({ bits := w32 n } : LW))))
      .fall (issueOp { cls := .ld, dst := .vals (s.w.p.wbase + d.toNat) lanes } s))) s

end Sys2Proof.Machine
end

