-- ==== Sys2Proof/Machine/Dispatch.lean ====
section
/-! DEFINITION. One arm per constructor of Instr: each is one call of its meaning. -/

namespace Sys2Proof.Machine

/-- What an instruction or event does (Sys2Proof.Syntax lists them). -/
def exec (i : Instr) (s : State) : Host.Outcome State Fault Refusal :=
  match i with
  | .nop => Sys2Proof.Machine.execNop s
  | .sadd d a b g t => Sys2Proof.Machine.execSadd d a b g t s
  | .ssub d a b g t => Sys2Proof.Machine.execSsub d a b g t s
  | .smul d a b g t => Sys2Proof.Machine.execSmul d a b g t s
  | .smulh d a b g t => Sys2Proof.Machine.execSmulh d a b g t s
  | .sand d a b g t => Sys2Proof.Machine.execSand d a b g t s
  | .sor d a b g t => Sys2Proof.Machine.execSor d a b g t s
  | .sxor d a b g t => Sys2Proof.Machine.execSxor d a b g t s
  | .sshl d a b g t => Sys2Proof.Machine.execSshl d a b g t s
  | .sshr d a b g t => Sys2Proof.Machine.execSshr d a b g t s
  | .ssar d a b g t => Sys2Proof.Machine.execSsar d a b g t s
  | .smin d a b g t => Sys2Proof.Machine.execSmin d a b g t s
  | .smax d a b g t => Sys2Proof.Machine.execSmax d a b g t s
  | .sminu d a b g t => Sys2Proof.Machine.execSminu d a b g t s
  | .smaxu d a b g t => Sys2Proof.Machine.execSmaxu d a b g t s
  | .sclz d a g t => Sys2Proof.Machine.execSclz d a g t s
  | .spop d a g t => Sys2Proof.Machine.execSpop d a g t s
  | .saddi d a imm g => Sys2Proof.Machine.execSaddi d a imm g s
  | .scmpeq d a b g t => Sys2Proof.Machine.execScmpeq d a b g t s
  | .scmpne d a b g t => Sys2Proof.Machine.execScmpne d a b g t s
  | .scmplt d a b g t => Sys2Proof.Machine.execScmplt d a b g t s
  | .scmple d a b g t => Sys2Proof.Machine.execScmple d a b g t s
  | .scmpltu d a b g t => Sys2Proof.Machine.execScmpltu d a b g t s
  | .scmpleu d a b g t => Sys2Proof.Machine.execScmpleu d a b g t s
  | .scmpgt d a b g t => Sys2Proof.Machine.execScmpgt d a b g t s
  | .scmpge d a b g t => Sys2Proof.Machine.execScmpge d a b g t s
  | .scmpgtu d a b g t => Sys2Proof.Machine.execScmpgtu d a b g t s
  | .scmpgeu d a b g t => Sys2Proof.Machine.execScmpgeu d a b g t s
  | .smovi d imm => Sys2Proof.Machine.execSmovi d imm s
  | .sins16 d imm => Sys2Proof.Machine.execSins16 d imm s
  | .sins32 d imm => Sys2Proof.Machine.execSins32 d imm s
  | .sins48 d imm => Sys2Proof.Machine.execSins48 d imm s
  | .smovl d g lit => Sys2Proof.Machine.execSmovl d g lit s
  | .smovlz d g lit => Sys2Proof.Machine.execSmovlz d g lit s
  | .smovlh d g lit => Sys2Proof.Machine.execSmovlh d g lit s
  | .ssel d a b c g => Sys2Proof.Machine.execSsel d a b c g s
  | .sdiv d a b g t => Sys2Proof.Machine.execSdiv d a b g t s
  | .sdivu d a b g t => Sys2Proof.Machine.execSdivu d a b g t s
  | .srem d a b g t => Sys2Proof.Machine.execSrem d a b g t s
  | .sremu d a b g t => Sys2Proof.Machine.execSremu d a b g t s
  | .pand d a b g => Sys2Proof.Machine.execPand d a b g s
  | .por d a b g => Sys2Proof.Machine.execPor d a b g s
  | .pxor d a b g => Sys2Proof.Machine.execPxor d a b g s
  | .pandn d a b g => Sys2Proof.Machine.execPandn d a b g s
  | .pnot d a g => Sys2Proof.Machine.execPnot d a g s
  | .pmov d a g => Sys2Proof.Machine.execPmov d a g s
  | .pset d g => Sys2Proof.Machine.execPset d g s
  | .pclr d g => Sys2Proof.Machine.execPclr d g s
  | .pany d a g => Sys2Proof.Machine.execPany d a g s
  | .pall d a g => Sys2Proof.Machine.execPall d a g s
  | .ppop d a g => Sys2Proof.Machine.execPpop d a g s
  | .ptos d a g => Sys2Proof.Machine.execPtos d a g s
  | .stop d a g => Sys2Proof.Machine.execStop d a g s
  | .br off => Sys2Proof.Machine.execBr off s
  | .brs a n off => Sys2Proof.Machine.execBrs a n off s
  | .brc p n tgt rcd => Sys2Proof.Machine.execBrc p n tgt rcd s
  | .brcl p n tgt lit => Sys2Proof.Machine.execBrcl p n tgt lit s
  | .call k off => Sys2Proof.Machine.execCall k off s
  | .callr a k => Sys2Proof.Machine.execCallr a k s
  | .ret => Sys2Proof.Machine.execRet s
  | .enter f => Sys2Proof.Machine.execEnter f s
  | .loop last count => Sys2Proof.Machine.execLoop last count s
  | .loopr last sc => Sys2Proof.Machine.execLoopr last sc s
  | .lbrk => Sys2Proof.Machine.execLbrk s
  | .exit g => Sys2Proof.Machine.execExit g s
  | .setmg imm => Sys2Proof.Machine.execSetmg imm s
  | .setmt imm => Sys2Proof.Machine.execSetmt imm s
  | .setmr imm => Sys2Proof.Machine.execSetmr imm s
  | .setm d => Sys2Proof.Machine.execSetm d s
  | .getm d => Sys2Proof.Machine.execGetm d s
  | .vadd d a b g t => Sys2Proof.Machine.execVadd d a b g t s
  | .vsub d a b g t => Sys2Proof.Machine.execVsub d a b g t s
  | .vmul d a b g t => Sys2Proof.Machine.execVmul d a b g t s
  | .vmulh d a b g t => Sys2Proof.Machine.execVmulh d a b g t s
  | .vmulhu d a b g t => Sys2Proof.Machine.execVmulhu d a b g t s
  | .vmin d a b g t => Sys2Proof.Machine.execVmin d a b g t s
  | .vmax d a b g t => Sys2Proof.Machine.execVmax d a b g t s
  | .vabs d a g t => Sys2Proof.Machine.execVabs d a g t s
  | .vneg d a g t => Sys2Proof.Machine.execVneg d a g t s
  | .vabsdiff d a b g t => Sys2Proof.Machine.execVabsdiff d a b g t s
  | .vavg d a b g t => Sys2Proof.Machine.execVavg d a b g t s
  | .vand d a b g t => Sys2Proof.Machine.execVand d a b g t s
  | .vor d a b g t => Sys2Proof.Machine.execVor d a b g t s
  | .vxor d a b g t => Sys2Proof.Machine.execVxor d a b g t s
  | .vandn d a b g t => Sys2Proof.Machine.execVandn d a b g t s
  | .vnot d a g t => Sys2Proof.Machine.execVnot d a g t s
  | .vshl d a b g t => Sys2Proof.Machine.execVshl d a b g t s
  | .vshr d a b g t => Sys2Proof.Machine.execVshr d a b g t s
  | .vsar d a b g t => Sys2Proof.Machine.execVsar d a b g t s
  | .vrol d a b g t => Sys2Proof.Machine.execVrol d a b g t s
  | .vror d a b g t => Sys2Proof.Machine.execVror d a b g t s
  | .vclz d a g t => Sys2Proof.Machine.execVclz d a g t s
  | .vpop d a g t => Sys2Proof.Machine.execVpop d a g t s
  | .vbrev d a g t => Sys2Proof.Machine.execVbrev d a g t s
  | .vimad d a b c g => Sys2Proof.Machine.execVimad d a b c g s
  | .vbfe d a b g t => Sys2Proof.Machine.execVbfe d a b g t s
  | .vbfes d a b g t => Sys2Proof.Machine.execVbfes d a b g t s
  | .vbfi d a b c g => Sys2Proof.Machine.execVbfi d a b c g s
  | .vcmpeq d a b g t => Sys2Proof.Machine.execVcmpeq d a b g t s
  | .vcmpne d a b g t => Sys2Proof.Machine.execVcmpne d a b g t s
  | .vcmplt d a b g t => Sys2Proof.Machine.execVcmplt d a b g t s
  | .vcmple d a b g t => Sys2Proof.Machine.execVcmple d a b g t s
  | .vcmpltu d a b g t => Sys2Proof.Machine.execVcmpltu d a b g t s
  | .vcmpleu d a b g t => Sys2Proof.Machine.execVcmpleu d a b g t s
  | .vcmpgt d a b g t => Sys2Proof.Machine.execVcmpgt d a b g t s
  | .vcmpge d a b g t => Sys2Proof.Machine.execVcmpge d a b g t s
  | .vcmpgtu d a b g t => Sys2Proof.Machine.execVcmpgtu d a b g t s
  | .vcmpgeu d a b g t => Sys2Proof.Machine.execVcmpgeu d a b g t s
  | .vsel d a b c g => Sys2Proof.Machine.execVsel d a b c g s
  | .vmov d a g t => Sys2Proof.Machine.execVmov d a g t s
  | .vbcast d a g t => Sys2Proof.Machine.execVbcast d a g t s
  | .vtos d a b g t => Sys2Proof.Machine.execVtos d a b g t s
  | .stov d a b g t => Sys2Proof.Machine.execStov d a b g t s
  | .vrdout d n g t => Sys2Proof.Machine.execVrdout d n g t s
  | .vwrout n a g t => Sys2Proof.Machine.execVwrout n a g t s
  | .vmovi d imm g => Sys2Proof.Machine.execVmovi d imm g s
  | .vmovl d g lit => Sys2Proof.Machine.execVmovl d g lit s
  | .vdiv d a b g t => Sys2Proof.Machine.execVdiv d a b g t s
  | .vrem d a b g t => Sys2Proof.Machine.execVrem d a b g t s
  | .vcvt d a g => Sys2Proof.Machine.execVcvt d a g s
  | .vrndi d a g => Sys2Proof.Machine.execVrndi d a g s
  | .vpack d a b g => Sys2Proof.Machine.execVpack d a b g s
  | .vunpkl d a g => Sys2Proof.Machine.execVunpkl d a g s
  | .vunpkh d a g => Sys2Proof.Machine.execVunpkh d a g s
  | .fadd d a b g t => Sys2Proof.Machine.execFadd d a b g t s
  | .fsub d a b g t => Sys2Proof.Machine.execFsub d a b g t s
  | .fmul d a b g t => Sys2Proof.Machine.execFmul d a b g t s
  | .fmin d a b g t => Sys2Proof.Machine.execFmin d a b g t s
  | .fmax d a b g t => Sys2Proof.Machine.execFmax d a b g t s
  | .fabs d a g t => Sys2Proof.Machine.execFabs d a g t s
  | .fneg d a g t => Sys2Proof.Machine.execFneg d a g t s
  | .fcopysign d a b g t => Sys2Proof.Machine.execFcopysign d a b g t s
  | .fscale d a b g t => Sys2Proof.Machine.execFscale d a b g t s
  | .ffma d a b c g => Sys2Proof.Machine.execFfma d a b c g s
  | .fcmpeq d a b g t => Sys2Proof.Machine.execFcmpeq d a b g t s
  | .fcmpne d a b g t => Sys2Proof.Machine.execFcmpne d a b g t s
  | .fcmplt d a b g t => Sys2Proof.Machine.execFcmplt d a b g t s
  | .fcmple d a b g t => Sys2Proof.Machine.execFcmple d a b g t s
  | .fcmpgt d a b g t => Sys2Proof.Machine.execFcmpgt d a b g t s
  | .fcmpge d a b g t => Sys2Proof.Machine.execFcmpge d a b g t s
  | .fcmpueq d a b g t => Sys2Proof.Machine.execFcmpueq d a b g t s
  | .fcmpune d a b g t => Sys2Proof.Machine.execFcmpune d a b g t s
  | .fcmpult d a b g t => Sys2Proof.Machine.execFcmpult d a b g t s
  | .fcmpule d a b g t => Sys2Proof.Machine.execFcmpule d a b g t s
  | .fcmpugt d a b g t => Sys2Proof.Machine.execFcmpugt d a b g t s
  | .fcmpuge d a b g t => Sys2Proof.Machine.execFcmpuge d a b g t s
  | .fcmpord d a b g t => Sys2Proof.Machine.execFcmpord d a b g t s
  | .fcmpunord d a b g t => Sys2Proof.Machine.execFcmpunord d a b g t s
  | .frcp d a g t => Sys2Proof.Machine.execFrcp d a g t s
  | .frsq d a g t => Sys2Proof.Machine.execFrsq d a g t s
  | .fsqrt d a g t => Sys2Proof.Machine.execFsqrt d a g t s
  | .fexp2 d a g t => Sys2Proof.Machine.execFexp2 d a g t s
  | .flog2 d a g t => Sys2Proof.Machine.execFlog2 d a g t s
  | .fsin d a g t => Sys2Proof.Machine.execFsin d a g t s
  | .fcos d a g t => Sys2Proof.Machine.execFcos d a g t s
  | .ftanh d a g t => Sys2Proof.Machine.execFtanh d a g t s
  | .ffract d a g t => Sys2Proof.Machine.execFfract d a g t s
  | .fclass d a g t => Sys2Proof.Machine.execFclass d a g t s
  | .fdiv d a b g t => Sys2Proof.Machine.execFdiv d a b g t s
  | .fdot d a b c g => Sys2Proof.Machine.execFdot d a b c g s
  | .lshuf d a b g t => Sys2Proof.Machine.execLshuf d a b g t s
  | .lrot d a b g t => Sys2Proof.Machine.execLrot d a b g t s
  | .lxorl d a b g t => Sys2Proof.Machine.execLxorl d a b g t s
  | .lup d a b g t => Sys2Proof.Machine.execLup d a b g t s
  | .ldown d a b g t => Sys2Proof.Machine.execLdown d a b g t s
  | .lbcast d a b g t => Sys2Proof.Machine.execLbcast d a b g t s
  | .lrotw d a b g t => Sys2Proof.Machine.execLrotw d a b g t s
  | .lredadd d a g t => Sys2Proof.Machine.execLredadd d a g t s
  | .lredmin d a g t => Sys2Proof.Machine.execLredmin d a g t s
  | .lredmax d a g t => Sys2Proof.Machine.execLredmax d a g t s
  | .lredand d a g t => Sys2Proof.Machine.execLredand d a g t s
  | .lredor d a g t => Sys2Proof.Machine.execLredor d a g t s
  | .lredxor d a g t => Sys2Proof.Machine.execLredxor d a g t s
  | .lredfadd d a g t => Sys2Proof.Machine.execLredfadd d a g t s
  | .lredfmin d a g t => Sys2Proof.Machine.execLredfmin d a g t s
  | .lredfmax d a g t => Sys2Proof.Machine.execLredfmax d a g t s
  | .lscanadd d a g t => Sys2Proof.Machine.execLscanadd d a g t s
  | .lscanmin d a g t => Sys2Proof.Machine.execLscanmin d a g t s
  | .lscanmax d a g t => Sys2Proof.Machine.execLscanmax d a g t s
  | .lscanand d a g t => Sys2Proof.Machine.execLscanand d a g t s
  | .lscanor d a g t => Sys2Proof.Machine.execLscanor d a g t s
  | .lscanxor d a g t => Sys2Proof.Machine.execLscanxor d a g t s
  | .lscanfadd d a g t => Sys2Proof.Machine.execLscanfadd d a g t s
  | .lxscanadd d a g t => Sys2Proof.Machine.execLxscanadd d a g t s
  | .lxscanmin d a g t => Sys2Proof.Machine.execLxscanmin d a g t s
  | .lxscanmax d a g t => Sys2Proof.Machine.execLxscanmax d a g t s
  | .lxscanand d a g t => Sys2Proof.Machine.execLxscanand d a g t s
  | .lxscanor d a g t => Sys2Proof.Machine.execLxscanor d a g t s
  | .lxscanxor d a g t => Sys2Proof.Machine.execLxscanxor d a g t s
  | .lxscanfadd d a g t => Sys2Proof.Machine.execLxscanfadd d a g t s
  | .lballot d a g => Sys2Proof.Machine.execLballot d a g s
  | .lmatch d a g t => Sys2Proof.Machine.execLmatch d a g t s
  | .xsend d a b g => Sys2Proof.Machine.execXsend d a b g s
  | .xrecv d a b g => Sys2Proof.Machine.execXrecv d a b g s
  | .regroup d a b g => Sys2Proof.Machine.execRegroup d a b g s
  | .vlane d g => Sys2Proof.Machine.execVlane d g s
  | .ld d a b sc ord g t => Sys2Proof.Machine.execLd d a b sc ord g t s
  | .st d a b sc ord g t => Sys2Proof.Machine.execSt d a b sc ord g t s
  | .ldu d a b sc ord g t => Sys2Proof.Machine.execLdu d a b sc ord g t s
  | .stu d a b sc ord g t => Sys2Proof.Machine.execStu d a b sc ord g t s
  | .ldh d a b sc ord g t => Sys2Proof.Machine.execLdh d a b sc ord g t s
  | .sth d a b sc ord g t => Sys2Proof.Machine.execSth d a b sc ord g t s
  | .atom d a b aop sc => Sys2Proof.Machine.execAtom d a b aop sc s
  | .atoma d a b aop sc => Sys2Proof.Machine.execAtoma d a b aop sc s
  | .red a b aop sc => Sys2Proof.Machine.execRed a b aop sc s
  | .atomh d a b aop sc => Sys2Proof.Machine.execAtomh d a b aop sc s
  | .talloc d a g => Sys2Proof.Machine.execTalloc d a g s
  | .tfree a g => Sys2Proof.Machine.execTfree a g s
  | .tinfo d g => Sys2Proof.Machine.execTinfo d g s
  | .wait ld st cp tl => Sys2Proof.Machine.execWait ld st cp tl s
  | .waitrld a g => Sys2Proof.Machine.execWaitrld a g s
  | .waitrst a g => Sys2Proof.Machine.execWaitrst a g s
  | .waitrcp a g => Sys2Proof.Machine.execWaitrcp a g s
  | .waitrtl a g => Sys2Proof.Machine.execWaitrtl a g s
  | .pfl1 a b g => Sys2Proof.Machine.execPfl1 a b g s
  | .pfllc a b g => Sys2Proof.Machine.execPfllc a b g s
  | .cwb a b g => Sys2Proof.Machine.execCwb a b g s
  | .cinv a b g => Sys2Proof.Machine.execCinv a b g s
  | .icinv n g => Sys2Proof.Machine.execIcinv n g s
  | .fence sc g => Sys2Proof.Machine.execFence sc g s
  | .binit a b g => Sys2Proof.Machine.execBinit a b g s
  | .barv a g => Sys2Proof.Machine.execBarv a g s
  | .barvx a b g => Sys2Proof.Machine.execBarvx a b g s
  | .barvd a g => Sys2Proof.Machine.execBarvd a g s
  | .bwait a b g => Sys2Proof.Machine.execBwait a b g s
  | .btest d a b g => Sys2Proof.Machine.execBtest d a b g s
  | .cbara g => Sys2Proof.Machine.execCbara g s
  | .cbarw g => Sys2Proof.Machine.execCbarw g s
  | .cbar g => Sys2Proof.Machine.execCbar g s
  | .wgbar g => Sys2Proof.Machine.execWgbar g s
  | .wgbara g => Sys2Proof.Machine.execWgbara g s
  | .wgbarw g => Sys2Proof.Machine.execWgbarw g s
  | .txbegin sc fb off => Sys2Proof.Machine.execTxbegin sc fb off s
  | .txend => Sys2Proof.Machine.execTxend s
  | .txabort code g => Sys2Proof.Machine.execTxabort code g s
  | .txstat d g => Sys2Proof.Machine.execTxstat d g s
  | .txcause d g => Sys2Proof.Machine.execTxcause d g s
  | .cpld a b g => Sys2Proof.Machine.execCpld a b g s
  | .cpst a b g => Sys2Proof.Machine.execCpst a b g s
  | .cpred a b g => Sys2Proof.Machine.execCpred a b g s
  | .cpg a b g => Sys2Proof.Machine.execCpg a b g s
  | .cpc a b g => Sys2Proof.Machine.execCpc a b g s
  | .cpw a b g => Sys2Proof.Machine.execCpw a b g s
  | .cpq d a g => Sys2Proof.Machine.execCpq d a g s
  | .cpcan a g => Sys2Proof.Machine.execCpcan a g s
  | .tcfg d a g => Sys2Proof.Machine.execTcfg d a g s
  | .tld d a b g => Sys2Proof.Machine.execTld d a b g s
  | .tst d a b g => Sys2Proof.Machine.execTst d a b g s
  | .tzero d g => Sys2Proof.Machine.execTzero d g s
  | .azero d g => Sys2Proof.Machine.execAzero d g s
  | .mma d a b g => Sys2Proof.Machine.execMma d a b g s
  | .mmap d a b g => Sys2Proof.Machine.execMmap d a b g s
  | .mmapF d a b g => Sys2Proof.Machine.execMmapF d a b g s
  | .mmag d a b g => Sys2Proof.Machine.execMmag d a b g s
  | .tmovv d a b g => Sys2Proof.Machine.execTmovv d a b g s
  | .tcvt d a g => Sys2Proof.Machine.execTcvt d a g s
  | .tlds d a b g => Sys2Proof.Machine.execTlds d a b g s
  | .msemitv a b g => Sys2Proof.Machine.execMsemitv a b g s
  | .msemitp a b g => Sys2Proof.Machine.execMsemitp a b g s
  | .vamp a g => Sys2Proof.Machine.execVamp a g s
  | .gaze d a g => Sys2Proof.Machine.execGaze d a g s
  | .rtfetch d a g => Sys2Proof.Machine.execRtfetch d a g s
  | .tex d a b g => Sys2Proof.Machine.execTex d a b g s
  | .texl d a b g => Sys2Proof.Machine.execTexl d a b g s
  | .texg d a b g => Sys2Proof.Machine.execTexg d a b g s
  | .texf d a b g => Sys2Proof.Machine.execTexf d a b g s
  | .texq d a b g => Sys2Proof.Machine.execTexq d a b g s
  | .rayl d a b g => Sys2Proof.Machine.execRayl d a b g s
  | .raylw d a b g => Sys2Proof.Machine.execRaylw d a b g s
  | .rayr d a g => Sys2Proof.Machine.execRayr d a g s
  | .vtdone d a g => Sys2Proof.Machine.execVtdone d a g s
  | .csrr d csr => Sys2Proof.Machine.execCsrr d csr s
  | .csrw d csr => Sys2Proof.Machine.execCsrw d csr s
  | .csrs d csr => Sys2Proof.Machine.execCsrs d csr s
  | .csrc d csr => Sys2Proof.Machine.execCsrc d csr s
  | .trap imm => Sys2Proof.Machine.execTrap imm s
  | .brk imm => Sys2Proof.Machine.execBrk imm s
  | .rett => Sys2Proof.Machine.execRett s
  | .yield g => Sys2Proof.Machine.execYield g s
  | .sleep a g => Sys2Proof.Machine.execSleep a g s
  | .wake a g => Sys2Proof.Machine.execWake a g s
  | .dlaunch d a b g => Sys2Proof.Machine.execDlaunch d a b g s
  | .djoin d a g => Sys2Proof.Machine.execDjoin d a g s
  | .pmark imm => Sys2Proof.Machine.execPmark imm s
  | .framesync => Sys2Proof.Machine.execFramesync s
  | .trapEntry wid => Sys2Proof.Machine.execTrapEntry wid s
  | .fseSpill wid blk => Sys2Proof.Machine.execFseSpill wid blk s
  | .fseFill wid blk => Sys2Proof.Machine.execFseFill wid blk s
  | .ageingSwap wid => Sys2Proof.Machine.execAgeingSwap wid s
  | .ageRelease wid slotB => Sys2Proof.Machine.execAgeRelease wid slotB s
  | .parkedAgeSwap wid => Sys2Proof.Machine.execParkedAgeSwap wid s
  | .sleepTimeout wid => Sys2Proof.Machine.execSleepTimeout wid s
  | .memoryOpComplete wid seq lanes => Sys2Proof.Machine.execMemoryOpComplete wid seq lanes s
  | .mxaOperation core => Sys2Proof.Machine.execMxaOperation core s
  | .copyRow copy => Sys2Proof.Machine.execCopyRow copy s
  | .rangeLockRelease copy => Sys2Proof.Machine.execRangeLockRelease copy s
  | .tabardGrant dom => Sys2Proof.Machine.execTabardGrant dom s
  | .vamPrimitive cluster => Sys2Proof.Machine.execVamPrimitive cluster s
  | .wrsTileFinished cluster => Sys2Proof.Machine.execWrsTileFinished cluster s
  | .rayTraversalComplete wid batch => Sys2Proof.Machine.execRayTraversalComplete wid batch s
  | .stripWindowOpen out => Sys2Proof.Machine.execStripWindowOpen out s
  | .stripDeadline out => Sys2Proof.Machine.execStripDeadline out s
  | .stripOutput out => Sys2Proof.Machine.execStripOutput out s
  | .displayLineStart out => Sys2Proof.Machine.execDisplayLineStart out s
  | .dpHotPlug out attached => Sys2Proof.Machine.execDpHotPlug out attached s
  | .viewEnable view value => Sys2Proof.Machine.execViewEnable view value s
  | .viewDisable view value => Sys2Proof.Machine.execViewDisable view value s
  | .outputEnable out value => Sys2Proof.Machine.execOutputEnable out value s
  | .outputDisable out value => Sys2Proof.Machine.execOutputDisable out value s
  | .sampleTick cluster => Sys2Proof.Machine.execSampleTick cluster s
  | .trigstatArm cluster value => Sys2Proof.Machine.execTrigstatArm cluster value s
  | .register ctx => Sys2Proof.Machine.execRegister ctx s
  | .unregister ctx => Sys2Proof.Machine.execUnregister ctx s
  | .tlbinv ctx => Sys2Proof.Machine.execTlbinv ctx s
  | .replay ctx => Sys2Proof.Machine.execReplay ctx s
  | .preempt ctx => Sys2Proof.Machine.execPreempt ctx s
  | .resume ctx => Sys2Proof.Machine.execResume ctx s
  | .kill ctx => Sys2Proof.Machine.execKill ctx s
  | .gstart ctx => Sys2Proof.Machine.execGstart ctx s
  | .preemptionStop core ctx => Sys2Proof.Machine.execPreemptionStop core ctx s
  | .contextImageWrite ctx => Sys2Proof.Machine.execContextImageWrite ctx s
  | .qtailWrite queue tail => Sys2Proof.Machine.execQtailWrite queue tail s
  | .dbpstatHaltClear die => Sys2Proof.Machine.execDbpstatHaltClear die s
  | .registerWrite off value => Sys2Proof.Machine.execRegisterWrite off value s
  | .dispatchStep die cores => Sys2Proof.Machine.execDispatchStep die cores s
  | .headReadinessCheck die queue => Sys2Proof.Machine.execHeadReadinessCheck die queue s
  | .doneSigIncrement kernel => Sys2Proof.Machine.execDoneSigIncrement kernel s
  | .faultBatchFull die ctx => Sys2Proof.Machine.execFaultBatchFull die ctx s
  | .faultBatchTimeout die ctx => Sys2Proof.Machine.execFaultBatchTimeout die ctx s
  | .heldRecordWrite ctx ring => Sys2Proof.Machine.execHeldRecordWrite ctx ring s
  | .gangAccept ctx => Sys2Proof.Machine.execGangAccept ctx s
  | .gangTimeout ctx => Sys2Proof.Machine.execGangTimeout ctx s
  | .gangAbort gang => Sys2Proof.Machine.execGangAbort gang s
  | .fabricAccess gang op pa size x => Sys2Proof.Machine.execFabricAccess gang op pa size x s
  | .lasiaPortFail port => Sys2Proof.Machine.execLasiaPortFail port s
  | .hostMemoryAccess write pa size value => Sys2Proof.Machine.execHostMemoryAccess write pa size value s
  | .correctedError cluster => Sys2Proof.Machine.execCorrectedError cluster s
  | .uncorrectableError cluster place fetch => Sys2Proof.Machine.execUncorrectableError cluster place fetch s
  | .expanderFailure port => Sys2Proof.Machine.execExpanderFailure port s
  | .mcLoopTick thermal current slew power reliability => Sys2Proof.Machine.execMcLoopTick thermal current slew power reliability s
  | .yarrowReading delays reading => Sys2Proof.Machine.execYarrowReading delays reading s
  | .deviceReset failed expanders => Sys2Proof.Machine.execDeviceReset failed expanders s
  | .firmwareRecovery image => Sys2Proof.Machine.execFirmwareRecovery image s
  | .getVersion => Sys2Proof.Machine.execGetVersion s
  | .getCapabilities => Sys2Proof.Machine.execGetCapabilities s
  | .negotiateAlgorithms => Sys2Proof.Machine.execNegotiateAlgorithms s
  | .getDigests => Sys2Proof.Machine.execGetDigests s
  | .getCertificate slot => Sys2Proof.Machine.execGetCertificate slot s
  | .challenge nonce => Sys2Proof.Machine.execChallenge nonce s
  | .getMeasurements index => Sys2Proof.Machine.execGetMeasurements index s
  | .triggerCycleReached cluster => Sys2Proof.Machine.execTriggerCycleReached cluster s
  | .linkTrainingDone out up => Sys2Proof.Machine.execLinkTrainingDone out up s
  | .lasiaPortTrained port => Sys2Proof.Machine.execLasiaPortTrained port s
  | .cmdUnknownCode value => Sys2Proof.Machine.execCmdUnknownCode value s

end Sys2Proof.Machine
end

