-- ==== Sys2Proof/Machine/Schedule.lean ====
section
/-! DEFINITION. What a step does: the issue of a path (R65, R66, R86), the events of the other agents, the clocks, and the
turns that the scheduler takes where the agenda names none. The manual leaves the order between agents to the hardware's
timing (R9): the agenda may name any, and what is chosen here is one of them. -/

namespace Sys2Proof.Machine

/-! ### Events -/

/-- An event takes place. -/
def runEvent (e : Event) (s : State) : Host.Outcome State Fault Refusal :=
  match e with
  | .trapEntry wid => execTrapEntry wid s
  | .fseSpill wid blk => execFseSpill wid blk s
  | .fseFill wid blk => execFseFill wid blk s
  | .ageingSwap wid => execAgeingSwap wid s
  | .ageRelease wid slotB => execAgeRelease wid slotB s
  | .parkedAgeSwap wid => execParkedAgeSwap wid s
  | .sleepTimeout wid => execSleepTimeout wid s
  | .memoryOpComplete wid seq lanes => execMemoryOpComplete wid seq lanes s
  | .mxaOperation core => execMxaOperation core s
  | .copyRow copy => execCopyRow copy s
  | .rangeLockRelease copy => execRangeLockRelease copy s
  | .tabardGrant dom => execTabardGrant dom s
  | .vamPrimitive cluster => execVamPrimitive cluster s
  | .wrsTileFinished cluster => execWrsTileFinished cluster s
  | .rayTraversalComplete wid batch => execRayTraversalComplete wid batch s
  | .stripWindowOpen out => execStripWindowOpen out s
  | .stripDeadline out => execStripDeadline out s
  | .stripOutput out => execStripOutput out s
  | .displayLineStart out => execDisplayLineStart out s
  | .dpHotPlug out attached => execDpHotPlug out attached s
  | .viewEnable view value => execViewEnable view value s
  | .viewDisable view value => execViewDisable view value s
  | .outputEnable out value => execOutputEnable out value s
  | .outputDisable out value => execOutputDisable out value s
  | .sampleTick cluster => execSampleTick cluster s
  | .trigstatArm cluster value => execTrigstatArm cluster value s
  | .register ctx => execRegister ctx s
  | .unregister ctx => execUnregister ctx s
  | .tlbinv ctx => execTlbinv ctx s
  | .replay ctx => execReplay ctx s
  | .preempt ctx => execPreempt ctx s
  | .resume ctx => execResume ctx s
  | .kill ctx => execKill ctx s
  | .gstart ctx => execGstart ctx s
  | .preemptionStop core ctx => execPreemptionStop core ctx s
  | .contextImageWrite ctx => execContextImageWrite ctx s
  | .qtailWrite queue tail => execQtailWrite queue tail s
  | .dbpstatHaltClear die => execDbpstatHaltClear die s
  | .registerWrite off value => execRegisterWrite off value s
  | .dispatchStep die cores => execDispatchStep die cores s
  | .headReadinessCheck die queue => execHeadReadinessCheck die queue s
  | .doneSigIncrement kernel => execDoneSigIncrement kernel s
  | .faultBatchFull die ctx => execFaultBatchFull die ctx s
  | .faultBatchTimeout die ctx => execFaultBatchTimeout die ctx s
  | .heldRecordWrite ctx ring => execHeldRecordWrite ctx ring s
  | .gangAccept ctx => execGangAccept ctx s
  | .gangTimeout ctx => execGangTimeout ctx s
  | .gangAbort gang => execGangAbort gang s
  | .fabricAccess gang op pa size x => execFabricAccess gang op pa size x s
  | .lasiaPortFail port => execLasiaPortFail port s
  | .hostMemoryAccess write pa size value => execHostMemoryAccess write pa size value s
  | .correctedError cluster => execCorrectedError cluster s
  | .uncorrectableError cluster place fetch => execUncorrectableError cluster place fetch s
  | .expanderFailure port => execExpanderFailure port s
  | .mcLoopTick thermal current slew power reliability => execMcLoopTick thermal current slew power reliability s
  | .yarrowReading delays reading => execYarrowReading delays reading s
  | .deviceReset failed expanders => execDeviceReset failed expanders s
  | .firmwareRecovery image => execFirmwareRecovery image s
  | .getVersion => execGetVersion s
  | .getCapabilities => execGetCapabilities s
  | .negotiateAlgorithms => execNegotiateAlgorithms s
  | .getDigests => execGetDigests s
  | .getCertificate slot => execGetCertificate slot s
  | .challenge nonce => execChallenge nonce s
  | .getMeasurements index => execGetMeasurements index s
  | .triggerCycleReached cluster => execTriggerCycleReached cluster s
  | .linkTrainingDone out up => execLinkTrainingDone out up s
  | .lasiaPortTrained port => execLasiaPortTrained port s
  | .cmdUnknownCode value => execCmdUnknownCode value s

/-! ### Fetching and reading a word (R67, R68, R86) -/

/-- The first word of fetched bytes. -/
def firstWord (bs : List Byte) : W32 := w32 (field bs 0 4)

/-- Step 1 of R86: the word at the PC of a warp's path on turn, or its aligned 8-byte unit where it bears a literal. At
an address with bit 2 set, where the instruction traps with ALIGN once it is legal, the literal is the word at PC + 4
(R68); where that word cannot be fetched its place holds 1, and ALIGN is raised (log 135). -/
def fetchInstr (s : State) (w : Warp) : Fetched :=
  match fetch s w w.p.pc 4 with
  | .bytes bs =>
    if isLiteralOp (firstWord bs) then
      if w.p.pc.getLsbD 2 then
        match fetch s w (w.p.pc + 4) 4 with
        | .bytes ls => .bytes (bs ++ ls)
        | _ => .bytes (bs ++ [1, 0, 0, 0])
      else fetch s w w.p.pc 8
    else .bytes bs
  | r => r

/-- The guard bit of an OP whose format has one that guards (R72, R74, R91 to R98). -/
def guardBit (op : Nat) : Option Nat :=
  if [0x02, 0x05, 0x06, 0x15, 0x22, 0x24, 0x26, 0x28, 0x29, 0x2D, 0x30].contains op then some 0
  else if 0x40 ≤ op && op ≤ 0x45 then some 1
  else if [0x01, 0x03, 0x07, 0x08, 0x09, 0x20, 0x21, 0x23, 0x25, 0x27, 0x2A, 0x2B, 0x2C, 0x2E, 0x2F].contains op ||
      (0x31 ≤ op && op ≤ 0x38) || (0x4A ≤ op && op ≤ 0x4D && op != 0x4B) || (0x50 ≤ op && op ≤ 0x55) ||
      (0x5A ≤ op && op ≤ 0x69) || (0x6C ≤ op && op ≤ 0x73) || (0x79 ≤ op && op ≤ 0x7B) then some 2
  else none

/-- A word is guarded: its format has a G bit that guards, and it is set. -/
def guarded (word : W32) : Bool := ((guardBit (opOf word).toNat).map word.getLsbD).getD false

/-- `active` for a word (R81). -/
def activeFor (w : Warp) (word : W32) : Mask := w.active (guarded word)

/-- The charge of the instruction that a word holds (R390). -/
def chargeFor (w : Warp) (word : W32) : Nat := weightOf (opOf word).toNat * popMask (activeFor w word)

/-- A word that does not decode: it has no effect where it is guarded and `active` is empty, and otherwise traps with
ILLEGAL_OP (R86, R87), as one instruction with its literal where its OP bears one (R71, R338). -/
def illegalWord (word : W32) (s : State) : Host.Outcome State Fault Refusal :=
  let act := activeFor s.w word
  let lit := isLiteralOp word
  finish (if lit then 8 else 4) (if guarded word && act == 0 then .fall s
    else .trap s { cause := 0x01, tval := zx word, lanes := act, act := act, lit := lit })

/-- A failure to read the path's record has been reported: the FSE reads it again when the path is next on turn (R49). -/
def Path.reported (p : Path) (a : W64) : Path :=
  { p with lost := p.lost.map (fun l => if l.failed == some a then { l with failed := none } else l) }

/-- The instruction whose word is `word` reports a failed access of the FSE (R49, R71). -/
def frameFault (word : W32) (a : W64) (s : State) : Host.Outcome State Fault Refusal :=
  let act := s.w.active false
  finish 4 (.trap { s with w := { s.w.clearFail a with p := s.w.p.reported a } }
    { cause := 0x0C, tval := a, lanes := act, act := act, lit := isLiteralOp word })

/-- The address at which the FSE failed to read the path's record, where that is still to be reported (R49). -/
def Path.failed (p : Path) : Option W64 := p.lost.bind (·.failed)

/-- A fetch that has failed (R86 step 1, R188, R189). -/
def fetchFailed (f : Fetched) (s : State) : Host.Outcome State Fault Refusal :=
  match f, s.w.p.failed with
  | .trap _, some a => frameFault 0 a s
  | .trap c, none => finish 4 (trapAct c s.w.p.pc (s.w.active false) s)
  | _, _ => finish 4 (parkAt 3 [s.w.p.pc] s)

/-- The instruction that bytes hold. -/
noncomputable def execBytes (bs : List Byte) (s : State) : Host.Outcome State Fault Refusal :=
  match decode bs with
  | .ok (i, _) => exec i s
  | .error _ => illegalWord (firstWord bs) s

/-! ### The issue of a path (R65, R66, R86) -/

/-- The context of a warp lets it issue on its core (R351). -/
def runs (s : State) (w : Warp) : Bool := !((s.ctx w.ctx).stopped.contains w.core && (s.ctx w.ctx).stop != 0)

/-- Every lane of the path on turn is ABORTED at trap level 0: the path is routed in place of its next issue (R250). A path whose
record is still to be read waits for it first (R49). -/
def toRoute (w : Warp) : Bool :=
  w.tlevel == 0 && w.group.isSome && w.p.lost.isNone && (w.p.mask &&& ~~~w.txMask .aborted) == 0

/-- The word of EXIT, with either guard bit (R173). -/
def isExit (word : W32) : Bool := word &&& ~~~1#32 == 0x2A000000#32

/-- The stop cycle of the warp's core is not over, and the path of a slot presents EXIT in it (R351). -/
def presentsExit (s : State) (w : Warp) (slotB : Bool) : Bool :=
  let v := if w.onB == slotB then w else w.flip
  w.lastCycle && !toRoute v && (match fetchInstr s v with
    | .bytes bs => isExit (firstWord bs)
    | _ => false)

/-- The scheduler of a warp has issued in this cycle (R66). -/
def schedUsed (s : State) (w : Warp) : Bool := (s.core w.core).used.contains w.sched

/-- The path of a slot may be examined for issue: it is RUNNING and unparked, its warp is not parked at a retry fault, no
instruction of the other slot blocks the warp (R65), and its context runs, but for an EXIT in the stop cycle (R351). -/
def mayExamine (s : State) (w : Warp) (slotB : Bool) : Bool :=
  (w.pathOf slotB).st == .running && !(w.pathOf slotB).parked && w.retry.isEmpty && (w.block.isNone || w.arrivedB == slotB) &&
    (runs s w || presentsExit s w slotB) && !schedUsed s w

/-- The paths of a warp have been examined in this cycle. -/
def Warp.examined (a b : Bool) (w : Warp) : Warp := { w with examA := w.examA || a, examB := w.examB || b }

/-- What a cycle records of an examination of a slot's path that did not lead to an issue. -/
def noteIdle (slotB : Bool) (s : State) : State :=
  if s.w.resident then { s with w := s.w.examined (!slotB) slotB } else s

/-- What a cycle records of an attempt at trap entry: the entry issues nothing in it. -/
def noteEntry (s : State) : State := if s.w.resident then { s with w := s.w.examined true true } else s

/-- What a cycle records of an issue: its scheduler, and what samples show of it (R66, R362). -/
def noteIssue (slotB : Bool) (before : Warp) (s : State) : State :=
  let c := s.core before.core
  let s1 := s.setCore before.core { c with used := before.sched :: c.used }
  let w := s1.w
  { s1 with w := { w with issPc := before.p.pc, issMask := before.p.mask, issB := slotB, issLevel := before.tlevel } }

/-- An issue takes the scheduler of its warp in the cycle, meets the triggers and is traced (R66, R362, R363). -/
def traceOf (slotB : Bool) (before : Warp) (s : State) : State :=
  traceIssue before.p.pc before.p.mask slotB before (trigIssue before (noteIssue slotB before s))

/-- An instruction that has arrived and waits keeps the bytes that were fetched of it (R65, R67). -/
def noteWaits (bs : List Byte) (s : State) : State :=
  if s.w.resident then { s with w := { s.w with waits := if s.w.block.isSome then bs else [] } } else s

/-- What follows an instruction: an issue, be it one that a trap ends (R86), is recorded and adds its charge (R390). -/
def afterExec (slotB : Bool) (before : Warp) (bs : List Byte) (s : State) : State :=
  noteWaits bs (if s.w.issued then addCharge before.cluster (chargeFor before (firstWord bs)) (traceOf slotB before s)
    else noteIdle slotB s)

/-- What follows an issue of which no word is known: it has no charge. -/
def afterOther (slotB : Bool) (before : Warp) (s : State) : State :=
  if s.w.issued then traceOf slotB before s else noteIdle slotB s

/-- A state that an outcome leads to. -/
def onNext (f : State → State) : Host.Outcome State Fault Refusal → Host.Outcome State Fault Refusal
  | .next s => .next (f s)
  | o => o

/-- What the path on turn meets with the FSE: the record that it was restored from must have been read, and its window must
be resident, except where its own stalled instruction has asked for another in its place, which the instruction itself then
looks at (R48, R49). -/
def spanMet (w : Warp) : SpanNeed :=
  match w.p.lost with
  | some l =>
    match l.failed with
    | some a => .failed a
    | none => if w.recHeld l.off then .parked else .stall
  | none => if w.p.want.isSome then .ready else w.need w.p.window w.p.window

/-- A failed access of the FSE that an image has saved, which the warp's next issue reports (R49). -/
def Warp.dueFault (w : Warp) : Option W64 := (w.fse.find? (fun f => f.due && !f.retry)).map (·.addr)

/-- The fetched instruction issues, once the FSE allows it (R48, R49, R86). -/
noncomputable def issueBytes (bs : List Byte) (s : State) : Host.Outcome State Fault Refusal :=
  let word := firstWord bs
  match s.w.dueFault with
  | some a => frameFault word a s
  | none =>
    match spanMet s.w with
    | .failed a => frameFault word a s
    | .stall => finish 4 (.wait 4 s)
    | .parked => finish 4 (.block 13 s)
    | .ready => execBytes bs s

/-- The bytes of the instruction of the path on turn, where it has arrived and waits: it goes on as it was fetched, and what the FSE
owes the warp's next issue is not for it (R49, R58, R65, R145). -/
def Warp.arrived (w : Warp) : Option (List Byte) :=
  if w.arrivedIn w.onB && !w.waits.isEmpty then some w.waits else none

/-- The record of the path on turn is to be read again before anything of the path is known (R49). -/
def Warp.unread (w : Warp) : Bool := w.p.lost.any (fun l => l.failed.isNone)

/-- The path on turn is examined: an ABORTED path is routed (R250), and any other issues the instruction at its PC (R86). -/
noncomputable def examineHere (s : State) : Host.Outcome State Fault Refusal :=
  if toRoute s.w then onNext (afterOther s.w.onB s.w) (finish 4 (routePath s))
  else match s.w.arrived with
    | some bs => onNext (afterExec s.w.onB s.w bs) (execBytes bs s)
    | none =>
      if s.w.unread then onNext (afterOther s.w.onB s.w) (issueBytes [] s)
      else match fetchInstr s s.w with
        | .bytes bs => onNext (afterExec s.w.onB s.w bs) (issueBytes bs s)
        | f => onNext (afterOther s.w.onB s.w) (fetchFailed f s)

/-! ### Stall codes (R362, R364) -/

/-- The path that a record of the warp shows has not been examined in this cycle, and nothing but its own instruction keeps it from
issuing (R65). -/
def Warp.unseen (w : Warp) : Bool :=
  let sh := w.shownPath
  !w.issued && w.pend.isNone && w.block.isNone && w.retry.isEmpty && w.yielded == 0 && sh.1.st == .running && !sh.1.parked &&
    !(if sh.2 then w.examB else w.examA)

/-- The stall code that an examination leaves; none where it leads to an issue, or to an arrival. -/
def codeAfter (o : Host.Outcome State Fault Refusal) : Option Nat :=
  match o with
  | .next t => if t.w.issued || t.w.block.isSome then none else t.w.p.stall
  | _ => none

/-- A slot's path has a stall code. -/
def Warp.setStall (w : Warp) (slotB : Bool) (c : Option Nat) : Warp :=
  if slotB == w.onB then { w with p := { w.p with stall := c } } else { w with q := { w.q with stall := c } }

/-- The stall code of the instruction of a path that another one has kept from being examined in this cycle: that which an examination
would find now, which does not take place (R364). -/
noncomputable def stallNow (s : State) (w : Warp) : Warp :=
  if w.resident && w.unseen then
    let v := s.bring w.wid
    w.setStall w.shownPath.2 (codeAfter (examineHere (if v.w.onB == w.shownPath.2 then v else { v with w := v.w.flip })))
  else w

/-- The stall codes of a cluster's warps, where its schedulers write samples in this cycle. -/
noncomputable def stallsNow (c : Nat) (s : State) : State :=
  if sampleDue c s then s.mapWarps (fun w => if w.cluster == c && sampled (s.cluster c) w.ctx then stallNow s w else w) else s

/-! ### The choice of a scheduler (R65, R66) -/

/-- The charge that power pairing looks at, while OVER holds (R66, R390). -/
def pairingKey (s : State) (w : Warp) (slotB : Bool) : Nat :=
  if overOf s w.cluster then
    let v := if w.onB == slotB then w else w.flip
    match fetch s v v.p.pc 4 with
    | .bytes bs => chargeFor v (firstWord bs)
    | _ => 0
  else 0

/-- The keys of R66 of a slot's path, the lower the better; a warp that has issued a YIELD comes last (R348). Key 5 is the
warp's number: warps that are placed in one cycle count as placed in the order of their numbers (log 136). -/
def issueKeys (s : State) (w : Warp) (slotB : Bool) : List Nat :=
  [if w.yielded = 0 then 0 else 1, 2 - w.tlevel, if w.sys then 0 else 1, pairingKey s w slotB, 2 ^ 64 - (w.pathOf slotB).age
    , w.wid, if slotB then 1 else 0]

/-- Lists of keys in their order. -/
def keysBefore : List Nat → List Nat → Bool
  | a :: as, b :: bs => a < b || (a == b && keysBefore as bs)
  | _, _ => false

/-- The paths of a slot that may still issue in this cycle: one that has been examined in it and did not issue is not
eligible (R65). -/
def mayIssue (s : State) (w : Warp) (slotB : Bool) : Bool :=
  w.pend.isNone && !(if slotB then w.examB else w.examA) && mayExamine s w slotB

/-- No path of the same scheduler that may issue in this cycle comes before a slot's path by the keys of R66. -/
def firstChoice (s : State) (w : Warp) (slotB : Bool) : Bool :=
  (s.warps.filter (fun v => v.core == w.core && v.sched == w.sched)).all (fun v => [false, true].all (fun b =>
    !(mayIssue s v b && keysBefore (issueKeys s v b) (issueKeys s w slotB))))

/-- The turn of a path: the warp comes on turn with the path of that slot, which is examined where no other path of its
scheduler comes before it (R66); a trap that awaits entry enters first (R339). -/
noncomputable def issueTurn (wid : Nat) (slotB : Bool) (s0 : State) : Host.Outcome State Fault Refusal :=
  match s0.warp? wid with
  | none => .next s0
  | some _ =>
    let s := s0.bring wid
    if s.w.pend.isSome then .next (noteEntry (enterTrap s))
    else if !mayExamine s s.w slotB || !firstChoice s s.w slotB then .next s
    else examineHere (if s.w.onB == slotB then s else { s with w := s.w.flip })

/-! ### Caches and TLBs (R183, R184, R197, R359) -/

/-- The entry that a hinted set gives: 32 leaves that agree in R, W, X, FRM and MT and run consecutively from a 2 MiB-aligned
page (R183). They must agree in DX and DY as well (log 39). -/
def hintedSet (s : State) (root : Nat) (va : W64) : Option W64 :=
  let base := va.toNat / 2 ^ 21 * 2 ^ 21
  match walk s root (w64 base) with
  | .ok (e0, 65536) =>
    let ok (i : Nat) : Bool :=
      match walk s root (w64 (base + 65536 * i)) with
      | .ok (e, 65536) =>
        e.getLsbD 6 && e.getLsbD 7 && bits e 5 2 == bits e0 5 2 && bits e 9 8 == bits e0 9 8 && bits e 63 52 == bits e0 63 52 &&
          bits e 51 16 == bits e0 51 16 + i
      | _ => false
    if bits e0 51 16 % 32 == 0 && (List.range 32).all ok then some e0 else none
  | _ => none

/-- The entry of an address that a TLB may take: valid, resident and not faulting (R184). -/
def tlbEntryFor (s : State) (ctx : Nat) (va : W64) : Option TlbEntry :=
  if !canonical va then none
  else match walk s (s.ctx ctx).ptroot va with
    | .error _ => none
    | .ok (e, n) =>
      if !(leafOf e).res then none
      else match (if n = 65536 then hintedSet s (s.ctx ctx).ptroot va else none) with
        | some h => some { ctx := ctx, size := 2 ^ 21, page := va.toNat / 2 ^ 21, leaf := h }
        | none => some { ctx := ctx, size := n, page := va.toNat / n, leaf := e }

/-- A TLB has room for an entry (R184). -/
def tlbRoom (d : Die) (n : Nat) : Bool :=
  if n = 2 ^ 29 then (d.tlb.filter (fun t => t.size == 2 ^ 29)).length < 1024
  else (d.tlb.filter (fun t => t.size != 2 ^ 29)).length < 8192

/-- A die's TLB takes the entry of an address that it does not hold. -/
def takeTlb (die ctx : Nat) (va : W64) (s : State) : State :=
  let d := s.die die
  if d.tlb.any (fun t => t.ctx == ctx && t.page == va.toNat / t.size) then s
  else match tlbEntryFor s ctx va with
    | none => s
    | some t => if tlbRoom d t.size then s.setDie die { d with tlb := d.tlb ++ [t] } else s

/-- A line may be held in an L1: one of memory of MT 0 to 2 (R197). -/
def l1Line (line : Nat) : Bool := 128 * line < 2 ^ 80

/-- A core's L1 takes a line, as its home holds it, where it has room (R2). -/
def takeL1 (core line : Nat) (s : State) : State :=
  if core < coreCount s && l1Line line then fillL1 core line s else s

/-- A core's instruction cache takes a line, where it has room (R2, R359). -/
def takeIc (core line : Nat) (s : State) : State :=
  let c := s.core core
  if core < coreCount s && 128 * line < 2 ^ 100 && !(look {} c.ic line).live && c.ic.length < icLines then
    s.setCore core { c with ic := put {} c.ic line (homeLine s line) }
  else s

/-! ### One turn -/

/-- A turn is taken. -/
noncomputable def runTurn (t : Turn) (s : State) : Host.Outcome State Fault Refusal :=
  match t with
  | .issue wid slotB => issueTurn wid slotB s
  | .act (.sampleTick c) => runEvent (.sampleTick c) (stallsNow c s)
  | .act e => runEvent e s
  | .tick c => .next (if c < (liveClusters s).length then tickCluster c (stallsNow c s) else s)
  | .display n => .next (displayTick n s)
  | .tlbFill die ctx va => .next (takeTlb die ctx.toNat va s)
  | .tlbEvict die index => .next (s.setDie die { s.die die with tlb := (s.die die).tlb.eraseIdx index })
  | .l1Fill core line => .next (takeL1 core line s)
  | .l1Evict core line => .next (s.setCore core { s.core core with l1 := del (s.core core).l1 line })
  | .icFill core line => .next (takeIc core line s)
  | .icEvict core line => .next (s.setCore core { s.core core with ic := del (s.core core).ic line })
  | .micro => .next (microsecond s)

/-! ### The scheduler's own choice of turns -/

/-- A context number of an event. -/
def ctxNo (n : Nat) : BitVec 24 := BitVec.ofNat 24 n

/-- The events of a context that may be due. -/
def ctxEvents (s : State) (n : Nat) (c : Ctx) : List Event :=
  (if c.stop == 1 then
    ((((s.warps.filter (fun w => w.ctx == n)).map (·.core)).eraseDups).map (fun k => Event.preemptionStop k (ctxNo n))) ++
      [.contextImageWrite (ctxNo n)] else []) ++
  (if c.gstart.isSome && !c.accepted then [.gangAccept (ctxNo n)] else []) ++
  c.held.map (fun h => .heldRecordWrite (ctxNo n) h.1) ++
  ([0, 1].filter (fun d => 32 ≤ (batchOf s d n).length)).map (fun d => .faultBatchFull d (ctxNo n))

/-- The events of a warp's own engines that may be due. -/
def warpEvents (w : Warp) : List Event :=
  w.ops.map (fun o => Event.memoryOpComplete w.wid o.seq (BitVec.allOnes 32)) ++
  w.maySpill.map (fun j => .fseSpill w.wid j) ++ w.mayFill.toList.map (fun j => .fseFill w.wid j) ++
  (w.batches.filter (fun b => !b.done && b.held.isEmpty)).map (fun b => .rayTraversalComplete w.wid b.id)

/-- The number of a Tabard's domain, as TABARD_GRANT names it. -/
def domNo : Domain → Nat
  | .device => 0
  | .die d => d + 1
  | .cluster c => c + 3

/-- The events of the engines that may be due. -/
def engineEvents (s : State) : List Event :=
  (displayDue s).toList ++
  (if s.cmdbusy then [.tlbinv (s.cmd.extractLsb' 8 24)] else []) ++
  s.ctxs.flatMap (fun (e : Nat × Ctx) => ctxEvents s e.1 e.2) ++
  ((s.kernels.filter (fun (e : Nat × Kernel) => e.2.st == .signal)).map (fun e => .doneSigIncrement e.1)) ++
  s.warps.flatMap warpEvents ++
  ((s.cores.filter (fun (e : Nat × Core) => !e.2.mxa.isEmpty)).map (fun e => .mxaOperation e.1)) ++
  s.copies.map (fun c => .copyRow c.id) ++
  s.cores.flatMap (fun (e : Nat × Core) => e.2.locks.map (fun l => .rangeLockRelease l.copy)) ++
  s.tabards.map (fun t => .tabardGrant (domNo t.dom)) ++
  s.clusters.flatMap (fun (e : Nat × Cluster) => (if e.2.vamq.isEmpty then [] else [.vamPrimitive e.1])) ++
  ((s.tiles.filter (fun t => t.st == .filling)).map (fun t => .wrsTileFinished t.cluster)) ++
  (if s.queues.isEmpty then [] else [.dispatchStep 0 [], .dispatchStep 1 []])

/-- An event changes the state. -/
def changes (s : State) (e : Event) : Bool :=
  match runEvent e s with
  | .next t => decide (t ≠ s)
  | _ => false

/-- A path that may issue, or whose warp's trap awaits entry, with its keys. -/
structure Candidate where
  wid : Nat
  slotB : Bool
  keys : List Nat

/-- The candidate of a slot. -/
def candidate (s : State) (w : Warp) (slotB : Bool) : Option Candidate :=
  if mayIssue s w slotB || (w.pend.isSome && !(if slotB then w.examB else w.examA)) then
    some { wid := w.wid, slotB := slotB, keys := issueKeys s w slotB }
  else none

/-- The path that is examined next: the best by the keys of R66. -/
def chosen (s : State) : Option Candidate :=
  (s.warps.flatMap (fun w => (candidate s w false).toList ++ (candidate s w true).toList)).foldl
    (fun (a : Option Candidate) c => match a with
      | none => some c
      | some b => if keysBefore c.keys b.keys then some c else some b) none

/-- The cluster whose clock is furthest behind. -/
def laggard (s : State) : Option Nat :=
  (List.range (liveClusters s).length).foldl (fun (a : Option Nat) c => match a with
    | none => some c
    | some b => if (s.cluster c).cycle.toNat < (s.cluster b).cycle.toNat then some c else some b) none

/-- The end of a cycle: open fault batches are written, a cluster's clock advances, and with it the display clock and, where
it counts towards a timeout, the controller's. -/
def cycleTurns (s : State) : List Turn :=
  ([0, 1].flatMap (fun d => ((s.die d).batch.map (fun r => Turn.act (.faultBatchTimeout d (ctxNo r.ctx)))))) ++
  (match laggard s with
    | some c => [.tick c]
    | none => []) ++
  (if s.outs.any (fun (e : Nat × Out) => e.2.run) then [.display 1] else []) ++
  (if s.ctxs.any (fun (e : Nat × Ctx) => e.2.gstart.isSome && !e.2.accepted) then [.micro] else [])

/-- The turns that follow where the agenda names none: engines first, then issues, then the end of a cycle. -/
def ownTurns (s : State) : List Turn :=
  match (engineEvents s).find? (changes s) with
  | some e => [.act e]
  | none =>
    match chosen s with
    | some c => [.issue c.wid c.slotB]
    | none => cycleTurns s

/-- The turns of a step: the agenda's, or where it names none the scheduler's. -/
def turnsOf (s : State) : List Turn := if s.agenda.isEmpty then ownTurns s else s.agenda

/-! ### A word where the next fetch finds it -/

/-- The memory key of the next fetch of a warp, where its page is mapped. -/
def fetchKey (s : State) (w : Warp) : Nat :=
  match checkPage s w.ctx w.die w.p.pc .fetch with
  | .ok (_, p) => p.key
  | .error _ => 0

/-- Place the two words of an instruction at a key. -/
def placeWords (k nbits w : Nat) (s : State) : State := storeMem k 8 (w64 (w % 2 ^ nbits)) false s

/-- The packet of a kernel of one workgroup of one warp, with its code at 0x10000. -/
def onePacket : List Byte :=
  recordOf 128 [(0x00, 8, 0x10000), (0x10, 4, 1), (0x14, 4, 1), (0x18, 4, 1), (0x1C, 1, 1), (0x1D, 1, 1), (0x22, 1, 1), (0x26, 1, 4)]

/-- The other paths of a scheduler have been examined in this cycle, so that one warp's path on turn comes first (R66). -/
def Warp.standAside (me v : Warp) : Warp :=
  if v.core == me.core && v.sched == me.sched then
    (if v.wid == me.wid then v.examined v.onB (!v.onB) else v.examined true true)
  else v

/-- The one warp of such a kernel, as R31 places it. -/
def oneWarp : Warp :=
  { resident := true, ctx := 1, kern := 1, wg := 1, p := { st := .running, pc := 0x10000, mask := fullMask }
    tid := laneList.foldl (fun t l => put 0 t l (w32 l)) [] }

/-- What a launch of such a kernel leaves: a registered context whose tables map its code page, the kernel, its workgroup
and the warp (R31, R179, R369, R376). -/
def launchOne (s : State) : State :=
  let tables := storeMem 0x10000 8 0x20003 false (storeMem 0x20000 8 0x30003 false (storeMem 0x30008 8 0x40091 false s))
  let s1 := tables.setCtx 1 { live := true, desc := 0x50000, ptroot := 0x10000 }
  let s2 := s1.setKernel 1 { live := true, ctx := 1, pkt := onePacket, placed := 1, total := 1 }
  let s3 := s2.setWg 1 { live := true, kern := 1, launch := 1 }
  let s4 := s3.setLaunch 1 { live := true, wgs := [1] }
  { s4 with w := oneWarp, nextWid := max 1 s.nextWid, nextWg := max 2 s.nextWg, nextLaunch := max 2 s.nextLaunch, nextKern := max 2 s.nextKern }

end Sys2Proof.Machine
end

