-- ==== Sys2Proof/Machine/Step.lean ====
section
/-! DEFINITION. One step of the machine, and a word placed where the next step fetches it. -/

namespace Sys2Proof.Machine

/-- A step takes the first turn of the agenda, or where the agenda is empty the first that the scheduler chooses. -/
noncomputable def step (s : State) : Host.Outcome State Fault Refusal :=
  match turnsOf s with
  | t :: ts => runTurn t { s with agenda := ts }
  | [] => .fault .idle

/-- The state in which the next step fetches and runs a given word: the word stands at the PC of the path on turn, which
issues next, the other paths of its scheduler having been examined; an instruction that had arrived there no longer stands.
Where no warp is resident, a kernel of one warp has been launched first. -/
noncomputable def State.withFetchWord (s : State) (nbits w : Nat) : State :=
  let s1 := if s.w.resident then s else launchOne s
  let s2 := (placeWords (fetchKey s1 s1.w) nbits w s1).mapWarps s1.w.standAside
  { s2 with w := { s2.w with waits := [] }, agenda := [.issue s1.w.wid s1.w.onB] }

end Sys2Proof.Machine
end

