-- ==== Sys2Proof/Safety.lean ====
section
/-! DEFINITION. The terms in which claims are made: the canonical form of memory, what an instruction asks of the path on
turn before it can issue (R86), and the states that an instruction leaves when it completes. -/

namespace Sys2Proof.Machine

/-- The memory of the device is in its canonical form. -/
def State.memOk (s : State) : Prop := Memory.wf s.mem

/-- A safe state: memory in its canonical form. -/
def Safe (s : State) : Prop := s.memOk

/-! ### What an issue asks of the state (R86) -/

/-- What an instruction asks of the path on turn: its guard bit, its length, whether it is ENTER, its class, the vector
registers and scalar registers that it names, registers outside the window, and the operands whose poison traps. -/
structure Demand where
  guard : Bool := false
  len : Nat := 4
  enter : Bool := false
  cls : Cls
  regs : List VOp := []
  outer : List (Nat × Nat) := []
  scals : List Nat := []
  uses : List Use := []

/-- Nothing keeps the path on turn from issuing an instruction with these demands in the lanes of `active`: some lane is
active; an ENTER is pending for ENTER alone, which may also be a warp's first instruction (R45); vector registers lie in the frame, even where they must be (R43, R78); an instruction
with a literal stands at an aligned address (R68); the role may issue the class (R23); no operand awaits an outstanding
write (R205); and no operand is poisoned in an active lane (R202). -/
structure Clear (s : State) (d : Demand) : Prop where
  lanes : s.w.active d.guard ≠ 0
  entered : s.w.p.enter = d.enter ∨ (d.enter = true ∧ s.w.fresh = true ∧ s.w.p.fdepth = 0)
  regs : ∀ r ∈ d.regs, r.legal s.w.p = true
  aligned : d.len = 8 → s.w.p.pc.getLsbD 2 = false
  role : s.w.tlevel = 0 → s.w.role.may d.cls = true
  vquiet : ∀ r ∈ d.regs, ∀ a ∈ s.w.awaitedV ++ awaitedMovv s s.w, rangesMeet (s.w.p.wbase + r.n, r.cnt) a = false
  oquiet : ∀ r ∈ d.outer, ∀ a ∈ s.w.awaitedV ++ awaitedMovv s s.w, rangesMeet r a = false
  squiet : ∀ n ∈ d.scals, n ∉ s.w.awaitedS
  clean : ∀ u ∈ d.uses, ∀ l, (s.w.active d.guard).getLsbD l = true → u.bad s.w l = false

/-! ### The states that an instruction leaves -/

/-- What an instruction of `len` bytes leaves of the state that its effect gives, when it completes by falling through
(R56, R68). -/
def fell (len : Nat) (s : State) : State := issued { s with w := { s.w with p := s.w.p.fall len } }

/-- The state after an instruction that only changes the warp and falls through. -/
def fellW (len : Nat) (s : State) (w : Warp) : State := fell len { s with w := w }

/-- The state in which the instruction of the path on turn has not issued in this cycle, with its stall code (R364). -/
def waits (code : Nat) (s : State) : State := { s with w := { s.w with p := { s.w.p with stall := some code } } }

/-- The state in which the instruction of the path on turn blocks its whole warp (R65). -/
def blocked (code : Nat) (s : State) : State :=
  { s with w := { s.w with p := { s.w.p with stall := some code }, block := some code, arrivedB := s.w.onB } }

/-- No lane of `active` is in a logged transaction that has not aborted (R242). -/
def NoTx (s : State) (g : Bool) : Prop := s.w.activeTx (s.w.active g) = 0

/-- The trap that the path on turn raises in its active lanes (R339). -/
def trapOf (cause : Nat) (tval : W64) (act : Mask) (lit : Bool) : TrapInfo :=
  { cause := cause, tval := tval, lanes := act, act := act, lit := lit }

/-- Every lane of a mask passes the checks of R187 at a resident page (R188). -/
def Passes (chk : Nat → Except Fail Pass) (act : Mask) (pass : Nat → Pass) : Prop :=
  ∀ l, act.getLsbD l = true → chk l = .ok (pass l) ∧ (pass l).resident = true

/-- The state in which an instruction's reads of some addresses have set out, and whether each of them is performed: one that
stays on the device always is, and one that goes over the fabric is where a port of its route is up and the target accepts it
(R384, R385). -/
def readsOut (s : State) (vas : List W64) : State × Bool := sendAll s.w.ctx (vas.flatMap (readKeys s s.w)) s

/-- No lane of `active` has begun a transaction (R242). -/
def Untouched (s : State) (g : Bool) : Prop := NoTx s g ∧ s.w.irrTx (s.w.active g) = 0

end Sys2Proof.Machine
end

