-- ==== Sys2Proof/Certificates/Slice0/Obligations.lean ====
section
/-! DEFINITION. The statements for the provers: what each instruction does where it completes, what it traps on, what stays
as it was, and what holds of the machine as a whole. -/

open Sys2Proof Sys2Proof.Machine

/-- SALU and SADDI (R149, R151, R152): s[d] takes the result on 64 bits, or where T = 1 the 32-bit result sign-extended;
nothing else of the warp changes but what completion does. NOP changes nothing (R88).
SDIV, SDIVU, SREM and SREMU (R157): a zero divisor gives all ones or the dividend, or traps with DIV_ZERO and the
first word where MODE.DZT is set; the most negative number divided by −1 gives itself with remainder 0. -/
def Obligations.ScalarArithmeticCompletes : Prop :=
  (∀ (s : State) (d a b : BitVec 6) (imm : BitVec 12) (g t : Bool),
    let x := (s.w.sr a.toNat).bits
    let y := (s.w.sr b.toNat).bits
    let x' : W32 := lo32 x
    let y' : W32 := lo32 y
    let gives (i : Instr) (r : W64) (r' : W32) : Prop :=
      exec i s = .next (fellW 4 s (s.w.setS d.toNat (if t then r'.signExtend 64 else r) false))
    (Clear s { cls := .control } → exec .nop s = .next (fell 4 s)) ∧
    (Clear s { guard := g, cls := .control, scals := [d.toNat, a.toNat], uses := [useS a] } →
      exec (.saddi d a imm g) s = .next (fellW 4 s (s.w.setS d.toNat (x + imm.signExtend 64) false))) ∧
    (Clear s { guard := g, cls := .control, scals := [d.toNat, a.toNat], uses := [useS a] } →
      gives (.sclz d a g t) (BitVec.ofNat 64 (if x = 0 then 64 else 63 - Nat.log2 x.toNat))
        (BitVec.ofNat 32 (if x' = 0 then 32 else 31 - Nat.log2 x'.toNat)) ∧
      gives (.spop d a g t) (BitVec.ofNat 64 ((List.range 64).filter (fun i => x.getLsbD i)).length)
        (BitVec.ofNat 32 ((List.range 32).filter (fun i => x'.getLsbD i)).length)) ∧
    (Clear s { guard := g, cls := .control, scals := [d.toNat, a.toNat, b.toNat], uses := [useS a, useS b] } →
      gives (.sadd d a b g t) (x + y) (x' + y') ∧
      gives (.ssub d a b g t) (x - y) (x' - y') ∧
      gives (.smul d a b g t) (x * y) (x' * y') ∧
      gives (.smulh d a b g t) (BitVec.ofInt 64 (x.toInt * y.toInt / 2 ^ 64)) (BitVec.ofInt 32 (x'.toInt * y'.toInt / 2 ^ 32)) ∧
      gives (.sand d a b g t) (x &&& y) (x' &&& y') ∧
      gives (.sor d a b g t) (x ||| y) (x' ||| y') ∧
      gives (.sxor d a b g t) (x ^^^ y) (x' ^^^ y') ∧
      gives (.sshl d a b g t) (x <<< (y.toNat % 64)) (x' <<< (y'.toNat % 32)) ∧
      gives (.sshr d a b g t) (x >>> (y.toNat % 64)) (x' >>> (y'.toNat % 32)) ∧
      gives (.ssar d a b g t) (x.sshiftRight (y.toNat % 64)) (x'.sshiftRight (y'.toNat % 32)) ∧
      gives (.smin d a b g t) (if x.toInt ≤ y.toInt then x else y) (if x'.toInt ≤ y'.toInt then x' else y') ∧
      gives (.smax d a b g t) (if x.toInt ≤ y.toInt then y else x) (if x'.toInt ≤ y'.toInt then y' else x') ∧
      gives (.sminu d a b g t) (if x.toNat ≤ y.toNat then x else y) (if x'.toNat ≤ y'.toNat then x' else y') ∧
      gives (.smaxu d a b g t) (if x.toNat ≤ y.toNat then y else x) (if x'.toNat ≤ y'.toNat then y' else x'))) ∧
  (∀ (s : State) (d a b : BitVec 6) (g t : Bool),
    Clear s { guard := g, cls := .control, scals := [d.toNat, a.toNat, b.toNat], uses := [useS a, useS b] } →
    let x := (s.w.sr a.toNat).bits
    let y := (s.w.sr b.toNat).bits
    let x' : W32 := lo32 x
    let y' : W32 := lo32 y
    let zero : Bool := if t then y' == 0 else y == 0
    let gives (i : Instr) (word : W64) (r : W64) (r' : W32) : Prop :=
      exec i s = if zero && s.w.p.dzt then .next (raise (trapOf 0x09 word (s.w.active g) false) s)
        else .next (fellW 4 s (s.w.setS d.toNat (if t then r'.signExtend 64 else r) false))
    let bitsOf (fn : BitVec 4) : W64 := zx (0x07#7 ++ d ++ a ++ b ++ fn ++ BitVec.ofBool g ++ BitVec.ofBool t ++ 0#1)
    gives (.sdiv d a b g t) (bitsOf 0)
      (if y = 0 then BitVec.allOnes 64 else BitVec.ofInt 64 (x.toInt.tdiv y.toInt))
      (if y' = 0 then BitVec.allOnes 32 else BitVec.ofInt 32 (x'.toInt.tdiv y'.toInt)) ∧
    gives (.sdivu d a b g t) (bitsOf 1) (if y = 0 then BitVec.allOnes 64 else x / y) (if y' = 0 then BitVec.allOnes 32 else x' / y') ∧
    gives (.srem d a b g t) (bitsOf 2)
      (if y = 0 then x else BitVec.ofInt 64 (x.toInt.tmod y.toInt)) (if y' = 0 then x' else BitVec.ofInt 32 (x'.toInt.tmod y'.toInt)) ∧
    gives (.sremu d a b g t) (bitsOf 3) (if y = 0 then x else x % y) (if y' = 0 then x' else x' % y'))

/-- SCMP (R153): the condition, one value for the warp, goes to p[d] in the active lanes; a write to p7 is discarded, since
`setP` leaves the warp as it is where d is 7 (R77). -/
def Obligations.ScalarComparisonCompletes : Prop :=
  ∀ (s : State) (d : BitVec 3) (a b : BitVec 6) (g t : Bool),
    Clear s { guard := g, cls := .control, scals := [a.toNat, b.toNat], uses := [useS a, useS b] } →
    let x := (s.w.sr a.toNat).bits
    let y := (s.w.sr b.toNat).bits
    let x' : W32 := lo32 x
    let y' : W32 := lo32 y
    let act := s.w.active g
    let gives (i : Instr) (c c' : Bool) : Prop :=
      exec i s = .next (fellW 4 s
        (if d = 7 then s.w
        else { s.w with pr := put 0 s.w.pr d.toNat (if (if t then c' else c) then s.w.pred d.toNat ||| act else s.w.pred d.toNat &&& ~~~act) }))
    gives (.scmpeq d a b g t) (x == y) (x' == y') ∧
    gives (.scmpne d a b g t) (x != y) (x' != y') ∧
    gives (.scmplt d a b g t) (decide (x.toInt < y.toInt)) (decide (x'.toInt < y'.toInt)) ∧
    gives (.scmple d a b g t) (decide (x.toInt ≤ y.toInt)) (decide (x'.toInt ≤ y'.toInt)) ∧
    gives (.scmpltu d a b g t) (decide (x.toNat < y.toNat)) (decide (x'.toNat < y'.toNat)) ∧
    gives (.scmpleu d a b g t) (decide (x.toNat ≤ y.toNat)) (decide (x'.toNat ≤ y'.toNat)) ∧
    gives (.scmpgt d a b g t) (decide (x.toInt > y.toInt)) (decide (x'.toInt > y'.toInt)) ∧
    gives (.scmpge d a b g t) (decide (x.toInt ≥ y.toInt)) (decide (x'.toInt ≥ y'.toInt)) ∧
    gives (.scmpgtu d a b g t) (decide (x.toNat > y.toNat)) (decide (x'.toNat > y'.toNat)) ∧
    gives (.scmpgeu d a b g t) (decide (x.toNat ≥ y.toNat)) (decide (x'.toNat ≥ y'.toNat))

/-- Immediates, literals and SSEL (R154 to R156): s[d] takes the extended value or the inserted bits; an insertion keeps
the poison of s[d], SSEL moves the chosen value with its poison (R202), and the others leave s[d] unpoisoned. -/
def Obligations.ScalarMovesComplete : Prop :=
  ∀ (s : State) (d a b c : BitVec 6) (imm : BitVec 16) (lit : BitVec 32) (g : Bool),
    let old := s.w.sr d.toNat
    let gives (i : Instr) (len : Nat) (r : W64) (bad : Bool) : Prop :=
      exec i s = .next (fellW len s (s.w.setS d.toNat r bad))
    (Clear s { cls := .control, scals := [d.toNat] } →
      gives (.smovi d imm) 4 (imm.signExtend 64) false ∧
      gives (.sins16 d imm) 4 (old.bits.extractLsb' 32 32 ++ imm ++ old.bits.extractLsb' 0 16) old.bad ∧
      gives (.sins32 d imm) 4 (old.bits.extractLsb' 48 16 ++ imm ++ old.bits.extractLsb' 0 32) old.bad ∧
      gives (.sins48 d imm) 4 (imm ++ old.bits.extractLsb' 0 48) old.bad) ∧
    (Clear s { guard := g, len := 8, cls := .control, scals := [d.toNat] } →
      gives (.smovl d g lit) 8 (lit.signExtend 64) false ∧
      gives (.smovlz d g lit) 8 (lit.zeroExtend 64) false ∧
      gives (.smovlh d g lit) 8 (lit ++ old.bits.extractLsb' 0 32) old.bad) ∧
    (Clear s { guard := g, cls := .control, scals := [d.toNat, a.toNat, b.toNat, c.toNat], uses := [useS c] } →
      let r := if (s.w.sr c.toNat).bits ≠ 0 then s.w.sr a.toNat else s.w.sr b.toNat
      gives (.ssel d a b c g) 4 r.bits r.bad)

/-- PLOG and PRED (R158 to R160): p[d] takes the bit in the active lanes, and a write to p7 is discarded (R77); PANY, PALL
and PPOP write a value of the active lanes to s[d], PTOS the whole register, and STOP takes its bits from s[a].
SETM and GETM (R80, R174, R175): MODE takes the field or s[d], other bits stand, and a value with RM 5 to 7 or a
reserved bit set traps with ILLEGAL_OP and the value as TVAL; GETM reads MODE. -/
def Obligations.PredicatesAndModeComplete : Prop :=
  (∀ (s : State) (pd pa pb : BitVec 3) (d a : BitVec 6) (g : Bool),
    let act := s.w.active g
    let p := s.w.pred pa.toNat
    let q := s.w.pred pb.toNat
    let writes (i : Instr) (m : Mask) : Prop :=
      exec i s = .next (fellW 4 s
        (if pd = 7 then s.w else { s.w with pr := put 0 s.w.pr pd.toNat ((s.w.pred pd.toNat &&& ~~~act) ||| (m &&& act)) }))
    let gives (i : Instr) (r : W64) : Prop := exec i s = .next (fellW 4 s (s.w.setS d.toNat r false))
    (Clear s { guard := g, cls := .control } →
      writes (.pand pd pa pb g) (p &&& q) ∧ writes (.por pd pa pb g) (p ||| q) ∧ writes (.pxor pd pa pb g) (p ^^^ q) ∧
      writes (.pandn pd pa pb g) (p &&& ~~~q) ∧ writes (.pnot pd pa g) (~~~p) ∧ writes (.pmov pd pa g) p ∧
      writes (.pset pd g) 0xFFFFFFFF#32 ∧ writes (.pclr pd g) 0) ∧
    (Clear s { guard := g, cls := .control, scals := [d.toNat] } →
      gives (.pany d pa g) (if p &&& act ≠ 0 then 1 else 0) ∧
      gives (.pall d pa g) (if act &&& ~~~p = 0 then 1 else 0) ∧
      gives (.ppop d pa g) (BitVec.ofNat 64 ((List.range 32).filter (fun l => (p &&& act).getLsbD l)).length) ∧
      gives (.ptos d pa g) (p.zeroExtend 64)) ∧
    (Clear s { guard := g, cls := .control, scals := [a.toNat], uses := [useS a] } →
      writes (.stop pd a g) ((s.w.sr a.toNat).bits.extractLsb' 0 32))) ∧
  (∀ (s : State) (d : BitVec 6) (i4 : BitVec 4) (i10 : BitVec 10) (i7 : BitVec 7),
    let m := s.w.p.mode
    let sets (i : Instr) (v : W32) : Prop :=
      exec i s = if bits32 v 16 14 ≤ 4 ∧ bits32 v 31 21 = 0
        then .next (fellW 4 s ({ s.w with p := { s.w.p with mode := v } }))
        else .next (raise (trapOf 0x01 (v.zeroExtend 64) (s.w.active false) false) s)
    (Clear s { cls := .control } →
      sets (.setmg i4) (m.extractLsb' 4 28 ++ i4) ∧
      sets (.setmt i10) (m.extractLsb' 14 18 ++ i10 ++ m.extractLsb' 0 4) ∧
      sets (.setmr i7) (m.extractLsb' 21 11 ++ i7 ++ m.extractLsb' 0 14)) ∧
    (Clear s { cls := .control, scals := [d.toNat], uses := [useS d] } → sets (.setm d) ((s.w.sr d.toNat).bits.extractLsb' 0 32)) ∧
    (Clear s { cls := .control, scals := [d.toNat] } →
      exec (.getm d) s = .next (fellW 4 s (s.w.setS d.toNat (m.zeroExtend 64) false))))

/-- BR and BRS (R161, R162): the path goes on at PC + 4 × OFF; BRS only where (s[a] ≠ 0) XOR N holds, and otherwise it
falls through.
BRC and BRCL (R34, R163): no lane taken, the path falls through; no lane left, it goes on at the target; otherwise it
splits: the taken lanes keep the slot and go on at the target, and the rest fall through in the other slot, or in a SPLIT
record where that slot is held, which must leave room (FRAME_OVERFLOW), as a split of a path that holds group lanes must,
with 128 bytes for the part that might be stacked (R252); the reconvergence address is pushed on both where it is not their
entry 0 already. That both parts have AGE 0, the AGE of P at its issue, and that the fall-through part counts as issued in
this cycle is the model's reading (log 24): R40 says that AGE becomes 0 at an issue and that both sides keep the AGE that P
had. -/
def Obligations.BranchesComplete : Prop :=
  (∀ (s : State) (a : BitVec 6) (n : Bool) (o22 : BitVec 22) (o18 : BitVec 18),
    let moved (t : W64) : State := { s with w := { s.w with p := { s.w.p with pc := t } } }
    (Clear s { cls := .control } → exec (.br o22) s = .next (issued (moved (s.w.p.pc + BitVec.ofInt 64 (4 * o22.toInt))))) ∧
    (Clear s { cls := .control, scals := [a.toNat], uses := [useS a] } →
      exec (.brs a n o18) s =
        if ((s.w.sr a.toNat).bits != 0) != n then .next (issued (moved (s.w.p.pc + BitVec.ofInt 64 (4 * o18.toInt))))
        else .next (fell 4 s))) ∧
  (∀ (s : State) (p : BitVec 3) (n : Bool) (tgt : BitVec 13) (rcd : BitVec 8) (lit : BitVec 32),
    let splits (i : Instr) (len : Nat) (j : W64) : Prop :=
      let c := s.w.pred p.toNat
      let taken := (if n then ~~~c else c) &&& s.w.active false
      let rest := s.w.p.mask &&& ~~~taken
      let dst := s.w.p.pc + BitVec.ofInt 64 (4 * tgt.toInt)
      let join (x : Path) : Path := if s.w.p.r0 = j then x else { x with r0 := j, r1 := s.w.p.r0, r2 := s.w.p.r1, r3 := s.w.p.r2 }
      let p0 := join { s.w.p with age := 0, mask := taken, pc := dst }
      let q0 := join ({ s.w.p with age := 0, mask := rest }.fall len)
      (taken = 0 → exec i s = .next (fell len s)) ∧
      (taken ≠ 0 → rest = 0 → exec i s = .next (issued { s with w := { s.w with p := { s.w.p with pc := dst } } })) ∧
      (taken ≠ 0 → rest ≠ 0 →
        let qr : Path := { q0 with parked := false, stall := none, want := none, owed := none, ran := true }
        let w := if s.w.q.held then { s.w with p := p0 }.pushRec (.split qr) else { s.w with p := p0, q := qr }
        let checked := s.w.q.held || (s.w.group.isSome && s.w.holdsGroup s.w.p)
        let r := w.resv + if s.w.q.held then 0 else 128
        exec i s = if !checked then .next (issued { s with w := w })
          else if s.w.fsbase.toNat + r ≤ s.w.fslim.toNat then .next (issued { s with w := w.recordHwm r })
          else .next (raise (trapOf 0x0B (BitVec.ofNat 64 r) (s.w.active false) (len == 8)) s))
    (Clear s { cls := .control } → splits (.brc p n tgt rcd) 4 (s.w.p.pc + BitVec.ofNat 64 (4 * rcd.toNat))) ∧
    (Clear s { cls := .control, len := 8 } → splits (.brcl p n tgt lit) 8 (s.w.p.pc + BitVec.ofInt 64 (4 * lit.toInt))))

/-- CALL, CALLR and ENTER (R45, R54, R165, R166, R168): a call pushes a CALL record of the caller, slides the window by 8K,
and goes on at the target with an ENTER pending; at depth 65,535 or without room it traps with FRAME_OVERFLOW, and a
misaligned CALLR target with ALIGN. ENTER F sets the frame and zeroes the registers above the caller's window, as the record at
FRP has it (log 28). Each completes where the span it establishes has the ring and its own window is filled (R48, log 161), a
call once no load to s48 to s63 is outstanding, and ENTER once none to the registers that it zeroes is (R205). -/
def Obligations.CallsAndEnterComplete : Prop :=
  ∀ (s : State) (a : BitVec 6) (k : BitVec 3) (off : BitVec 22) (f : BitVec 4),
    let w := s.w
    let act := w.active false
    let calls (i : Instr) (target : W64) : Prop :=
      let r : CallRec := { retpc := w.p.pc + 4, prev := w.p.frp, wbase := w.p.wbase, fdepth := w.p.fdepth, fsize := w.p.fsize
                           mode := w.p.mode, pmask := w.p.mask, r0 := w.p.r0, r1 := w.p.r1, r2 := w.p.r2, r3 := w.p.r3
                           lc0 := w.p.lc0, lc1 := w.p.lc1, lc2 := w.p.lc2, scal := (List.range 16).map (fun n => w.sr (48 + n)) }
      let callee : Path := { w.p with
        pc := target, frp := BitVec.ofNat 32 w.fsrp, wbase := w.p.wbase + 8 * k.toNat, fdepth := w.p.fdepth + 1
        fsize := provisional s target, r0 := BitVec.allOnes 64, r1 := BitVec.allOnes 64, r2 := BitVec.allOnes 64
        r3 := BitVec.allOnes 64, lc0 := {}, lc1 := {}, lc2 := {}, enter := true }
      let w1 : Warp := { w with recs := { off := w.fsrp, order := w.pushes, body := .call r } :: w.recs, fsrp := w.fsrp + 256
                                pushes := w.pushes + 1, p := callee }
      let w2 := (w1.recordHwm w1.resv).parkOther
      (w.p.fdepth = 65535 → exec i s = .next (raise (trapOf 0x0B (BitVec.allOnes 64) act false) s)) ∧
      (w.p.fdepth ≠ 65535 → w.fslim.toNat < w.fsbase.toNat + w1.resv →
        exec i s = .next (raise (trapOf 0x0B (BitVec.ofNat 64 w1.resv) act false) s)) ∧
      (w.p.fdepth ≠ 65535 → w.fsbase.toNat + w1.resv ≤ w.fslim.toNat → w2.need w2.span w2.p.window = .ready →
        exec i s = .next (issued { s with w := w2 }))
    (Clear s { cls := .control, scals := (List.range 16).map (· + 48) } → k.toNat ≤ w.p.fsize →
      calls (.call k off) (w.p.pc + BitVec.ofInt 64 (4 * off.toInt))) ∧
    (Clear s { cls := .control, scals := a.toNat :: (List.range 16).map (· + 48), uses := [useS a] } → k.toNat ≤ w.p.fsize →
      ((w.sr a.toNat).bits.extractLsb' 0 2 ≠ 0 → exec (.callr a k) s = .next (raise (trapOf 0x03 (w.sr a.toNat).bits act false) s)) ∧
      ((w.sr a.toNat).bits.extractLsb' 0 2 = 0 → calls (.callr a k) (w.sr a.toNat).bits)) ∧
    (∀ caller, Clear s { cls := .control, enter := true, outer := zeroedBy s f.toNat } → callerTop s f.toNat = .ok caller →
      let w1 : Warp := { w with p := { w.p with fsize := f.toNat, enter := false } }
      let w2 := (w1.recordHwm w1.resv).parkOther
      let top := max w.p.wbase caller
      (w.fslim.toNat < w.fsbase.toNat + w1.resv → exec (.enter f) s = .next (raise (trapOf 0x0B (BitVec.ofNat 64 w1.resv) act false) s)) ∧
      (w.fsbase.toNat + w1.resv ≤ w.fslim.toNat → w2.need w2.span w2.p.window = .ready →
        exec (.enter f) s = .next (fellW 4 s ({ w2 with
          v := w2.v.filter (fun e => !(32 * top ≤ e.1 && e.1 < 32 * (w.p.wbase + 8 * f.toNat) && w.p.mask.getLsbD (e.1 % 32))) }))))

/-- RET (R46, R169): the path takes up the state of its CALL record, as the FSE supplies it (R53), and goes on at RETPC; its
lanes leave PMASK; with an empty PMASK the record is freed and s48 to s63 are restored, and otherwise, or where the record's
frame was split, RETPC is pushed as a reconvergence address. It completes where the caller's window is in the ring, no group
is open and no load to the scalars that it restores is outstanding (R205). A RETPC that is not a multiple of 4, which only a
handler can have stored, traps with ALIGN (R67). -/
def Obligations.ReturnCompletes : Prop :=
  ∀ (s : State) (c : CallRec), Clear s { cls := .control, scals := retScals s } → s.w.p.fdepth ≠ 0 → s.w.group = none →
    (s.w.tlevel ≠ 0 → s.w.p.fdepth ≠ (s.w.bank s.w.tlevel).depth) → callOf s s.w.p = .ok c →
    (c.retpc.extractLsb' 0 2 ≠ 0 → exec .ret s = .next (raise (trapOf 0x03 c.retpc (s.w.active false) false) s)) ∧
    (c.retpc.extractLsb' 0 2 = 0 →
    let m := c.pmask &&& ~~~s.w.p.mask
    let p : Path := { s.w.p with
      pc := c.retpc, frp := c.prev, wbase := c.wbase, fdepth := c.fdepth, fsize := c.fsize, mode := c.mode
      r0 := c.r0, r1 := c.r1, r2 := c.r2, r3 := c.r3, lc0 := c.lc0, lc1 := c.lc1, lc2 := c.lc2 }
    let w1 := if m = 0 then (s.w.restoreScal c).freeRec s.w.p.frp.toNat
      else s.w.setRec s.w.p.frp.toNat (.call { c with pmask := m, splitRet := true })
    let w2 : Warp := { w1 with p := if c.splitRet ∨ m ≠ 0 then { p with r0 := c.retpc, r1 := c.r0, r2 := c.r1, r3 := c.r2 } else p }
    w2.parkOther.need w2.parkOther.span w2.parkOther.p.window = .ready →
      exec .ret s = .next (issued { s with w := w2.parkOther }))

/-- LOOP, LOOPR and LBRK (R56, R170, R172): a zero count goes on past the end address; another count makes the next level
active, with START after the loop instruction; LBRK ends the innermost level and goes on after its end, or traps with ALIGN
where that address is not a multiple of 4, which only a handler's change to a record can give (R67).
The end of a loop's body (R56, R70): an instruction that occupies the end address of the innermost level, with its
first word or its literal, goes on at START while the count allows it, and otherwise ends the level, after which the same check
is made of the next level outward (R171). Elsewhere the path goes on behind the instruction. -/
def Obligations.LoopsComplete : Prop :=
  (∀ (s : State) (last : BitVec 8) (count : BitVec 16) (sc : BitVec 6),
    let p := s.w.p
    let len := last.toNat + 1
    let loops (i : Instr) (n : W64) : Prop :=
      (p.lc2.active = false → (p.levels ≠ 0 → p.pc ≠ (p.lc (p.levels - 1)).endAddr) →
        exec i s = .next (issued { s with w := { s.w with p :=
          if n = 0 then { p with pc := p.pc + BitVec.ofNat 64 (4 + 4 * len) }
          else { p.setLc p.levels { active := true, start := p.pc + 4, count := n.extractLsb' 0 32, len := len } with pc := p.pc + 4 } } }))
    (Clear s { cls := .control } → loops (.loop last count) (count.zeroExtend 64)) ∧
    (Clear s { cls := .control, scals := [sc.toNat], uses := [useS sc] } →
      ((s.w.sr sc.toNat).bits.toNat < 2 ^ 32 → loops (.loopr last sc) (s.w.sr sc.toNat).bits) ∧
      (2 ^ 32 ≤ (s.w.sr sc.toNat).bits.toNat →
        exec (.loopr last sc) s = .next (raise (trapOf 0x16 (s.w.sr sc.toNat).bits (s.w.active false) false) s))) ∧
    (Clear s { cls := .control } → p.levels ≠ 0 →
      let l := p.lc (p.levels - 1)
      let after := l.start + BitVec.ofNat 64 (4 * l.len)
      (after.extractLsb' 0 2 ≠ 0 → exec .lbrk s = .next (raise (trapOf 0x03 after (s.w.active false) false) s)) ∧
      (after.extractLsb' 0 2 = 0 →
        exec .lbrk s = .next (issued { s with w := { s.w with p := { p.setLc (p.levels - 1) {} with pc := after } } })))) ∧
  (∀ (p : Path) (len : Nat), len = 4 ∨ len = 8 →
    let next := p.pc + BitVec.ofNat 64 len
    (p.levels = 0 → p.fall len = { p with pc := next }) ∧
    (∀ n < 3, p.levels = n + 1 → (∀ k < n, (p.lc k).active = true) →
      let l := p.lc n
      let e := l.start + BitVec.ofNat 64 (4 * (l.len - 1))
      let ends := p.pc = e ∨ (len = 8 ∧ p.pc + 4 = e)
      (¬ ends → p.fall len = { p with pc := next }) ∧
      (ends → l.count ≠ 1 → p.fall len = { p.setLc n { l with count := l.count - 1 } with pc := l.start }) ∧
      (ends → l.count = 1 → p.fall len = (p.setLc n { l with active := false, count := 0 }).fall len)))

/-- LOOP or LOOPR with three levels active, and LBRK with none active, trap with LOOP_STATE (0x16) (R57), and so does a LOOP or
LOOPR that stands at the end address of the innermost active level (R170). TVAL holds the word, or for LOOPR the count where
that is above 2^32 − 1, which traps first. -/
def Obligations.LoopStateTraps : Prop :=
  ∀ (s : State) (last : BitVec 8) (count : BitVec 16) (sc : BitVec 6),
    let traps (i : Instr) (v : W64) : Prop := exec i s = .next (raise (trapOf 0x16 v (s.w.active false) false) s)
    let full := s.w.p.lc2.active = true ∨
      (s.w.p.levels ≠ 0 ∧ s.w.p.pc = (s.w.p.lc (s.w.p.levels - 1)).start + BitVec.ofNat 64 (4 * ((s.w.p.lc (s.w.p.levels - 1)).len - 1)))
    let c := (s.w.sr sc.toNat).bits
    (Clear s { cls := .control } → full → traps (.loop last count) (zx (0x12#7 ++ last ++ count ++ 0#1))) ∧
    (Clear s { cls := .control, scals := [sc.toNat], uses := [useS sc] } → full →
      traps (.loopr last sc) (if 2 ^ 32 ≤ c.toNat then c else zx (0x13#7 ++ last ++ (0#10 ++ sc) ++ 0#1))) ∧
    (Clear s { cls := .control } → s.w.p.levels = 0 → traps .lbrk 0x28000000#64)

/-- EXIT (R60, R173): the active lanes leave the path and every CALL record that holds them, and a path without lanes leaves its
slot; the warp then departs where none of its lanes is live. With G set and no lane selected it only falls through. It
completes at trap level 0 where no load to the scalars that it restores is outstanding (R205); at levels 1 and 2 it is illegal
(R337). ACTIVE lanes abort with UNSUPPORTED and stay (R247), IRREVOCABLE ones commit, and the group closes with its last lane
(R242, R260); while accesses of the warp are still to be performed, an EXIT of IRREVOCABLE lanes waits, with stall code 3 (R255, R260,
log 43). A CALL record that holds some of the lanes keeps the rest of its PMASK, and one that holds no other is freed, its
s48 to s63 restored, the outermost record's last (R46); where no CALL record holds the lanes, no record changes. -/
def Obligations.ExitCompletes : Prop :=
  ∀ (s : State) (g : Bool),
    let w := s.w
    let act := w.active g
    (s.w.active true = 0 → exec (.exit true) s = .next (afterExit (fell 4 s))) ∧
    (Clear s { guard := g, cls := .control } → s.w.tlevel ≠ 0 → exec (.exit g) s =
      .next (afterExit (raise (trapOf 0x01 (zx (0x15#7 ++ 0#24 ++ BitVec.ofBool g)) act false) s))) ∧
    (Clear s { guard := g, cls := .control, scals := exitScals s act } → s.w.tlevel = 0 →
      let tx := s.w.activeTx act
      let s0 := if tx = 0 then s else { s with w := s.w.abort tx 10 0 }
      let left := act &&& ~~~tx
      let quiet : Prop := s0.w.irrTx left = 0 ∨ (w.allPerformed = true ∧ s.tileBusy = false)
      (left = 0 → exec (.exit g) s = .next (afterExit (fell 4 s0))) ∧
      (left ≠ 0 → ¬quiet → exec (.exit g) s = .next (afterExit (waits 3 s0))) ∧
      (left ≠ 0 → quiet → ∀ t, exitRecs left s0 = .ok t →
        let w := t.w.commitTx left
        let m := w.p.mask &&& ~~~left
        exec (.exit g) s = .next (afterExit (if m = 0 then issued (closeGroup { t with w := { w with p := {} } })
          else fell 4 (closeGroup { t with w := { w with p := { w.p with mask := m } } }))))) ∧
    (Clear s { guard := g, cls := .control, scals := exitScals s act } → s.w.tlevel = 0 → s.w.group = none →
      (∀ e ∈ s.w.tx, e.2.st = .none) →
      let m := s.w.p.mask &&& ~~~act
      let leaves (t : State) : State := afterExit (if m = 0 then issued { t with w := { t.w with p := {} } }
        else fell 4 { t with w := { t.w with p := { t.w.p with mask := m } } })
      (∀ t, exitRecs act s = .ok t → exec (.exit g) s = .next (leaves t)) ∧
      ((∀ r ∈ s.w.recs, r.inMem = false) → s.w.recs.Pairwise (fun r x => r.off ≠ x.off) →
        let holds (r : Rec) : Option CallRec := match r.body with
          | .split _ => none
          | .call c => if c.pmask &&& act = 0 then none else some c
        let freed := s.w.recs.filterMap (fun r => (holds r).filter (fun c => decide (c.pmask &&& ~~~act = 0)))
        let recs := s.w.recs.filterMap (fun r => match holds r with
          | none => some r
          | some c => if c.pmask &&& ~~~act = 0 then none
            else some { r with body := .call { c with pmask := c.pmask &&& ~~~act }, aged := 0, shut := false })
        exec (.exit g) s = .next (leaves { s with w := { freed.foldl Warp.restoreScal s.w with
          recs := recs, fsrp := if freed = [] then s.w.fsrp else fsrpOf recs } })) ∧
      ((∀ r ∈ s.w.recs, callBody s r = .ok none ∨ ∃ c, callBody s r = .ok (some c) ∧ c.pmask &&& act = 0) →
        exec (.exit g) s = .next (leaves s)))

/-- VIADD and VIMAD (R117, R119): per element, the exact integer result in the type's width, saturated where the rule says
so and MODE.SAT is set; the high products ignore the type's signedness. -/
def Obligations.VectorArithmeticCompletes : Prop :=
  ∀ (s : State) (d a b c : BitVec 6) (g t : Bool),
    let act := s.w.active g
    let ty := s.w.p.typ t
    let te := elemOf ty
    let n := typeBits te
    let i := intOf te
    let put (x : Int) : Nat := intPat te x
    let fit (x : Int) : Nat := put (if s.w.p.sat then satInt te x else x)
    let signed (x : Nat) : Int := if 2 ^ (n - 1) ≤ x % 2 ^ n then ((x % 2 ^ n : Nat) : Int) - (2 ^ n : Nat) else (x % 2 ^ n : Nat)
    let gives (j : Instr) (f : Nat → Nat → Nat) : Prop :=
      exec j s = .next (fellW 4 s
        (s.w.results ty d.toNat act (fun l => perElem ty f (s.w.opnd ty a.toNat l) (s.w.opnd ty b.toNat l))))
    let gives1 (j : Instr) (f : Nat → Nat) : Prop :=
      exec j s = .next (fellW 4 s
        (s.w.results ty d.toNat act (fun l => perElem ty (fun x _ => f x) (s.w.opnd ty a.toNat l) 0)))
    (Clear s { guard := g, cls := .vector, regs := [vop d ty, vop a ty, vop b ty], uses := [useV a ty, useV b ty] } →
      intType ty = true →
      gives (.vadd d a b g t) (fun x y => fit (i x + i y)) ∧
      gives (.vsub d a b g t) (fun x y => fit (i x - i y)) ∧
      gives (.vmul d a b g t) (fun x y => fit (i x * i y)) ∧
      gives (.vmulh d a b g t) (fun x y => lowBits n (signed x * signed y / (2 ^ n : Nat))) ∧
      gives (.vmulhu d a b g t) (fun x y => x * y / 2 ^ n) ∧
      gives (.vmin d a b g t) (fun x y => put (min (i x) (i y))) ∧
      gives (.vmax d a b g t) (fun x y => put (max (i x) (i y))) ∧
      gives (.vabsdiff d a b g t) (fun x y => put (i x - i y).natAbs) ∧
      gives (.vavg d a b g t) (fun x y => put ((i x + i y + 1) / 2))) ∧
    (Clear s { guard := g, cls := .vector, regs := [vop d ty, vop a ty], uses := [useV a ty] } → intType ty = true →
      gives1 (.vneg d a g t) (fun x => fit (-(i x))) ∧
      (isSigned ty = true → gives1 (.vabs d a g t) (fun x => fit (i x).natAbs))) ∧
    (let ta := s.w.p.ta
     let ea := elemOf ta
     Clear s { guard := g, cls := .vector, regs := [vop d ta, vop a ta, vop b ta, vop c ta], uses := [useV a ta, useV b ta, useV c ta] } →
      intType ta = true →
      exec (.vimad d a b c g) s = .next (fellW 4 s (s.w.results ta d.toNat act (fun l =>
        perElem3 ta (fun x y z =>
          let r := intOf ea x * intOf ea y + intOf ea z
          intPat ea (if s.w.p.sat then satInt ea r else r))
          (s.w.opnd ta a.toNat l) (s.w.opnd ta b.toNat l) (s.w.opnd ta c.toNat l)))))

/-- VLOG (R118): per element on n bits, whatever the type; shifts and rotates take the low bits of b's element. -/
def Obligations.VectorLogicCompletes : Prop :=
  ∀ (s : State) (d a b : BitVec 6) (g t : Bool),
    let act := s.w.active g
    let ty := s.w.p.typ t
    let n := typeBits (elemOf ty)
    let signed (x : Nat) : Int := if 2 ^ (n - 1) ≤ x % 2 ^ n then ((x % 2 ^ n : Nat) : Int) - (2 ^ n : Nat) else (x % 2 ^ n : Nat)
    let gives (j : Instr) (f : Nat → Nat → Nat) : Prop :=
      exec j s = .next (fellW 4 s
        (s.w.results ty d.toNat act (fun l => perElem ty (fun x y => f x y % 2 ^ n) (s.w.opnd ty a.toNat l) (s.w.opnd ty b.toNat l))))
    let gives1 (j : Instr) (f : Nat → Nat) : Prop :=
      exec j s = .next (fellW 4 s
        (s.w.results ty d.toNat act (fun l => perElem ty (fun x _ => f x % 2 ^ n) (s.w.opnd ty a.toNat l) 0)))
    (Clear s { guard := g, cls := .vector, regs := [vop d ty, vop a ty, vop b ty], uses := [useV a ty, useV b ty] } →
      logType ty = true →
      gives (.vand d a b g t) (fun x y => x &&& y) ∧
      gives (.vor d a b g t) (fun x y => x ||| y) ∧
      gives (.vxor d a b g t) (fun x y => x ^^^ y) ∧
      gives (.vandn d a b g t) (fun x y => x &&& (2 ^ n - 1 - y % 2 ^ n)) ∧
      gives (.vshl d a b g t) (fun x y => x * 2 ^ (y % n)) ∧
      gives (.vshr d a b g t) (fun x y => x / 2 ^ (y % n)) ∧
      gives (.vsar d a b g t) (fun x y => lowBits n (signed x / (2 ^ (y % n) : Nat))) ∧
      gives (.vrol d a b g t) (fun x y => x * 2 ^ (y % n) + x / 2 ^ (n - y % n)) ∧
      gives (.vror d a b g t) (fun x y => x / 2 ^ (y % n) + x * 2 ^ (n - y % n))) ∧
    (Clear s { guard := g, cls := .vector, regs := [vop d ty, vop a ty], uses := [useV a ty] } → logType ty = true →
      gives1 (.vnot d a g t) (fun x => 2 ^ n - 1 - x % 2 ^ n) ∧
      gives1 (.vclz d a g t) (fun x => if x = 0 then n else n - 1 - Nat.log2 x) ∧
      gives1 (.vpop d a g t) (fun x => ((List.range n).filter (fun k => x.testBit k)).length) ∧
      gives1 (.vbrev d a g t) (fun x => (List.range n).foldl (fun r k => 2 * r + (if x.testBit k then 1 else 0)) 0))

/-- Bit fields, comparisons, VSEL and division (R120 to R123): a field of b at bits [7:0] and [15:8], cut at the width;
comparisons write p[d] in the active lanes; VSEL moves a value with its poison; a zero divisor gives all ones or the
dividend, or traps DIV_ZERO in its lanes where MODE.DZT is set. -/
def Obligations.VectorFieldsAndDivisionComplete : Prop :=
  ∀ (s : State) (d a b c : BitVec 6) (pd pc : BitVec 3) (g t : Bool),
    let w := s.w
    let act := w.active g
    let ty := w.p.typ t
    let ta := w.p.ta
    let field (n : Nat) (x : W32) : Nat × Nat := (bits32 x 7 0, if n ≤ bits32 x 7 0 then 0 else min (bits32 x 15 8) (n - bits32 x 7 0))
    let signed (n x : Nat) : Int := if 2 ^ (n - 1) ≤ x % 2 ^ n then ((x % 2 ^ n : Nat) : Int) - (2 ^ n : Nat) else (x % 2 ^ n : Nat)
    let gives (j : Instr) (k : Nat) (f : Nat → Nat) : Prop := exec j s = .next (fellW 4 s (w.results k d.toNat act f))
    let compares (j : Instr) (c : Nat → Nat → Bool) : Prop :=
      exec j s = .next (fellW 4 s (w.setP pd.toNat act
        (maskOf (fun l => act.getLsbD l && c (w.opnd ty a.toNat l) (w.opnd ty b.toNat l)))))
    (Clear s { guard := g, cls := .vector, regs := [vop d ty, vop a ty, vop1 b], uses := [useV a ty, useV1 b] } → wordType ty = true →
      let x (l : Nat) : Nat := w.opnd ty a.toNat l
      let f (l : Nat) : Nat × Nat := field (typeBits ty) (w.vl b.toNat l).bits
      gives (.vbfe d a b g t) ty (fun l => if (f l).2 = 0 then 0 else x l / 2 ^ (f l).1 % 2 ^ (f l).2) ∧
      gives (.vbfes d a b g t) ty (fun l =>
        if (f l).2 = 0 then 0 else lowBits (typeBits ty) (signed (f l).2 (x l / 2 ^ (f l).1 % 2 ^ (f l).2)))) ∧
    (Clear s { guard := g, cls := .vector, regs := [vop d ta, vop a ta, vop1 b, vop c ta], uses := [useV a ta, useV1 b, useV c ta] } →
      wordType ta = true →
      gives (.vbfi d a b c g) ta (fun l =>
        let f := field (typeBits ta) (w.vl b.toNat l).bits
        let z := w.opnd ta c.toNat l
        if f.2 = 0 then z
        else z % 2 ^ f.1 + w.opnd ta a.toNat l % 2 ^ f.2 * 2 ^ f.1 + z / 2 ^ (f.1 + f.2) * 2 ^ (f.1 + f.2))) ∧
    (Clear s { guard := g, cls := .vector, regs := [vop a ty, vop b ty], uses := [useV a ty, useV b ty] } → wordType ty = true →
      let i := signed (typeBits ty)
      compares (.vcmpeq pd a b g t) (fun x y => decide (x = y)) ∧
      compares (.vcmpne pd a b g t) (fun x y => decide (x ≠ y)) ∧
      compares (.vcmplt pd a b g t) (fun x y => decide (i x < i y)) ∧
      compares (.vcmple pd a b g t) (fun x y => decide (i x ≤ i y)) ∧
      compares (.vcmpltu pd a b g t) (fun x y => decide (x < y)) ∧
      compares (.vcmpleu pd a b g t) (fun x y => decide (x ≤ y)) ∧
      compares (.vcmpgt pd a b g t) (fun x y => decide (i y < i x)) ∧
      compares (.vcmpge pd a b g t) (fun x y => decide (i y ≤ i x)) ∧
      compares (.vcmpgtu pd a b g t) (fun x y => decide (y < x)) ∧
      compares (.vcmpgeu pd a b g t) (fun x y => decide (y ≤ x))) ∧
    (Clear s { guard := g, cls := .vector, regs := [vop d ta, vop a ta, vop b ta] } → moveType ta = true →
      exec (.vsel d a b pc g) s = .next (fellW 4 s (w.lanesTo (wideType ta) d.toNat act (fun l =>
        let r := if (w.pred pc.toNat).getLsbD l then a.toNat else b.toNat
        (w.rawV (wideType ta) r l, w.badV (wideType ta) r l))))) ∧
    (Clear s { guard := g, cls := .vector, regs := [vop d ty, vop a ty, vop b ty], uses := [useV a ty, useV b ty] } → 6 ≤ ty → ty ≤ 9 →
      let x (l : Nat) : Nat := w.opnd ty a.toNat l
      let y (l : Nat) : Nat := w.opnd ty b.toNat l
      let zeros := maskOf (fun l => act.getLsbD l && decide (y l = 0))
      let word (fn : BitVec 4) : W64 := zx (0x2A#7 ++ d ++ a ++ b ++ fn ++ BitVec.ofBool g ++ BitVec.ofBool t ++ 0#1)
      let divides (j : Instr) (fn : BitVec 4) (r : Nat → Nat) : Prop :=
        (w.p.dzt = true → zeros ≠ 0 →
          exec j s = .next (raise { cause := 0x09, tval := word fn, lanes := zeros, act := act } s)) ∧
        (w.p.dzt = false ∨ zeros = 0 → gives j ty r)
      divides (.vdiv d a b g t) 0 (fun l =>
        if y l = 0 then 2 ^ typeBits ty - 1 else lowBits (typeBits ty) ((intOf ty (x l)).tdiv (intOf ty (y l)))) ∧
      divides (.vrem d a b g t) 1 (fun l =>
        if y l = 0 then x l else lowBits (typeBits ty) ((intOf ty (x l)).tmod (intOf ty (y l)))))

/-- Moves (R124, R125): VMOV and VBCAST carry bits and poison; VTOS reads lane s[b] mod 32 of the path's mask, and zero
outside it (R137); STOV writes one lane, if it is active; VMOVI and VMOVL write one register.
VRDOUT and VWROUT (R124) at trap levels 1 and 2, where the registers of the outer frame stand in the ring: each active
lane moves between v of the handler's frame and the absolute register of the frame that was trapped; at level 0 they trap
with PRIV. An odd first register of a pair is illegal at every level, and so is a register past the trapped frame in a handler
(R14, R116, R124). -/
def Obligations.VectorMovesComplete : Prop :=
  (∀ (s : State) (d a b : BitVec 6) (imm : BitVec 12) (lit : BitVec 32) (g t : Bool),
    let w := s.w
    let act := w.active g
    let ty := w.p.typ t
    let wide := wideType ty
    let k := (w.sr b.toNat).bits.toNat % 32
    (Clear s { guard := g, cls := .vector, regs := [vop d ty, vop a ty] } → moveType ty = true →
      exec (.vmov d a g t) s = .next (fellW 4 s
        (w.lanesTo wide d.toNat act (fun l => (w.rawV wide a.toNat l, w.badV wide a.toNat l))))) ∧
    (Clear s { guard := g, cls := .vector, regs := [vop d ty], scals := [a.toNat] } → moveType ty = true →
      exec (.vbcast d a g t) s = .next (fellW 4 s
        (w.lanesTo wide d.toNat act (fun _ => ((w.sr a.toNat).bits, (w.sr a.toNat).bad))))) ∧
    (Clear s { guard := g, cls := .vector, regs := [vop a ty], scals := [d.toNat, b.toNat], uses := [useS b] } → moveType ty = true →
      let x : W64 := if w.p.mask.getLsbD k then w.rawV wide a.toNat k else 0
      exec (.vtos d a b g t) s = .next (fellW 4 s
        (w.setS d.toNat (if ty = 7 then (lo32 x).signExtend 64 else x) (w.p.mask.getLsbD k && w.badV wide a.toNat k)))) ∧
    (Clear s { guard := g, cls := .vector, regs := [vop d ty], scals := [a.toNat, b.toNat], uses := [useS b] } → moveType ty = true →
      exec (.stov d a b g t) s = .next (fellW 4 s
        (if act.getLsbD k then w.setRaw wide d.toNat k (w.sr a.toNat).bits (w.sr a.toNat).bad else w))) ∧
    (Clear s { guard := g, cls := .vector, regs := [vop1 d] } →
      exec (.vmovi d imm g) s = .next (fellW 4 s (w.lanesTo false d.toNat act (fun _ => (imm.signExtend 64, false))))) ∧
    (Clear s { guard := g, len := 8, cls := .vector, regs := [vop1 d] } →
      exec (.vmovl d g lit) s = .next (fellW 8 s (w.lanesTo false d.toNat act (fun _ => (lit.zeroExtend 64, false)))))) ∧
  (∀ (s : State) (d n : BitVec 6) (g t : Bool),
    let w := s.w
    let act := w.active g
    let ty := w.p.typ t
    let cnt := if wideType ty then 2 else 1
    let base := (w.bank w.tlevel).wbase + n.toNat
    Clear s { guard := g, cls := .vector, regs := [vop d ty], outer := [(base, cnt)] } → moveType ty = true →
    let word (x y : BitVec 6) (fn : BitVec 4) : W64 := zx (0x27#7 ++ x ++ y ++ 0#6 ++ fn ++ BitVec.ofBool g ++ BitVec.ofBool t ++ 0#1)
    let traps (cause : Nat) : Prop :=
      exec (.vrdout d n g t) s = .next (raise (trapOf cause (word d n 6) act false) s) ∧
      exec (.vwrout n d g t) s = .next (raise (trapOf cause (word n d 7) act false) s)
    (w.tlevel = 0 → (wideType ty = true → n.toNat % 2 = 0) → traps 0x17) ∧
    (wideType ty = true → n.toNat % 2 = 1 → traps 0x01) ∧
    (w.tlevel ≠ 0 → 8 * (w.bank w.tlevel).fsize < n.toNat + cnt → traps 0x01) ∧
    (w.tlevel ≠ 0 → n.toNat + cnt ≤ 8 * (w.bank w.tlevel).fsize → (wideType ty = true → n.toNat % 2 = 0) →
      (∀ i < cnt, w.spilled.contains ((base + i) / 8) = false) →
      let places := (lanesOf act).flatMap (fun l => (List.range cnt).map (fun i => (i, l)))
      exec (.vrdout d n g t) s = .next (fellW 4 s (places.foldl (fun v il =>
        v.setL (d.toNat + il.1) il.2 (look {} w.v (32 * (base + il.1) + il.2))) w)) ∧
      exec (.vwrout n d g t) s = .next (fellW 4 s ({ w with v := places.foldl (fun v il =>
        put {} v (32 * (base + il.1) + il.2) (w.vl (d.toNat + il.1) il.2)) w.v }))))

/-- Floating-point arithmetic (R113 to R116, R126 to R129): each active lane delivers the operation's result on the values
of its elements, FFLAGS gathers the flags of the active lanes, and where MODE.FPT is set and a lane raises IV the
instruction traps with FP_INVALID in those lanes instead. FABS and FNEG change only the sign, and so does FCOPYSIGN, which
gives the canonical NaN where either value is a NaN (the model's reading of R126, log 33). That a fused sum of opposite
infinities raises IV beside a quiet NaN also, in FDOT, is the model's reading of R129 (log 35).
FCMP (R114, R115, R130): the ordered or unordered condition goes to p[d] in the active lanes; the quiet conditions
raise IV for a signalling NaN alone, the others for every NaN, and with MODE.FPT set such lanes trap. -/
def Obligations.FloatArithmeticAndComparisonComplete : Prop :=
  (∀ (s : State) (d a b c : BitVec 6) (g t : Bool),
    let w := s.w
    let act := w.active g
    let ty := w.p.typ t
    let ta := w.p.ta
    let x (k l : Nat) : Nat := w.opnd k a.toNat l
    let y (k l : Nat) : Nat := w.opnd k b.toNat l
    let z (k l : Nat) : Nat := w.opnd k c.toNat l
    let delivers (i : Instr) (word : W64) (k : Nat) (r : Nat → Nat × BitVec 5) : Prop :=
      let iv := maskOf (fun l => act.getLsbD l && (r l).2.getLsbD 4)
      (w.p.fpt = true → iv ≠ 0 → exec i s = .next (raise { cause := 0x0A, tval := word, lanes := iv, act := act } s)) ∧
      (w.p.fpt = false ∨ iv = 0 → exec i s = .next (fellW 4 s { w.results k d.toNat act (fun l => (r l).1) with
        fflags := w.fflags ||| (lanesOf act).foldl (fun f l => f ||| (r l).2) 0 }))
    let word (b : BitVec 6) (fn : BitVec 4) : W64 := zx (0x2C#7 ++ d ++ a ++ b ++ fn ++ BitVec.ofBool g ++ BitVec.ofBool t ++ 0#1)
    let wordC (op : BitVec 7) : W64 := zx (op ++ d ++ a ++ b ++ c ++ BitVec.ofBool g)
    let ftz (k : Nat) : Bool := ftzFor (elemOf k) w.p.ftz
    let val (k v : Nat) : FV := readF (fmtFor k) (ftz k) v
    let lanewise (f : Fmt → Nat → Bool → FV → FV → Nat × BitVec 5) (l : Nat) : Nat × BitVec 5 := onFloats w.p ty f (x ty l) (y ty l)
    (Clear s { guard := g, cls := .vector, regs := [vop d ty, vop a ty, vop b ty], uses := [useV a ty, useV b ty] } → arithType ty = true →
      delivers (.fadd d a b g t) (word b 0) ty (lanewise fAdd) ∧
      delivers (.fsub d a b g t) (word b 1) ty (lanewise (fun f rm z x y => fAdd f rm z x y.neg)) ∧
      delivers (.fmul d a b g t) (word b 2) ty (lanewise fMul) ∧
      delivers (.fmin d a b g t) (word b 3) ty (lanewise (fun f _ _ x y => fMinMax f false x y)) ∧
      delivers (.fmax d a b g t) (word b 4) ty (lanewise (fun f _ _ x y => fMinMax f true x y)) ∧
      delivers (.fcopysign d a b g t) (word b 7) ty (fun l =>
        perElemF ty (fun u v =>
          (repack (fmtFor ty) (if (val ty v).isNan then .nan false else (val ty u).withSign (signBit (fmtFor ty) v)), 0)) (x ty l) (y ty l))) ∧
    (Clear s { guard := g, cls := .vector, regs := [vop d ty, vop a ty], uses := [useV a ty] } → arithType ty = true →
      delivers (.fabs d a g t) (word 0 5) ty (fun l => onFloats w.p ty (fun f _ _ u _ => (repack f (u.withSign false), 0)) (x ty l) 0) ∧
      delivers (.fneg d a g t) (word 0 6) ty (fun l => onFloats w.p ty (fun f _ _ u _ => (repack f u.neg, 0)) (x ty l) 0)) ∧
    (Clear s { guard := g, cls := .vector, regs := [vop d ty, vop a ty, vop1 b], uses := [useV a ty, useV1 b] } → arithType ty = true →
      delivers (.fscale d a b g t) (word b 8) ty (fun l =>
        perElemF ty (fun u k => fScale (fmtFor ty) w.p.rm (ftz ty) (val ty u) (sgnOf (if isPacked ty then 16 else 32) k))
          (x ty l) (w.vl b.toNat l).bits.toNat)) ∧
    (Clear s { guard := g, cls := .vector, regs := [vop d ta, vop a ta, vop b ta, vop c ta], uses := [useV a ta, useV b ta, useV c ta] } →
      arithType ta = true →
      delivers (.ffma d a b c g) (wordC 0x2D) ta (fun l =>
        let one (u v r : Nat) : Nat × BitVec 5 := fusedSum (fmtFor ta) w.p.rm (ftz ta) [(val ta u, val ta v)] (val ta r)
        if isPacked ta then
          let lo := one (x ta l % 65536) (y ta l % 65536) (z ta l % 65536)
          let hi := one (x ta l / 65536) (y ta l / 65536) (z ta l / 65536)
          (lo.1 % 65536 + 65536 * (hi.1 % 65536), lo.2 ||| hi.2)
        else one (x ta l) (y ta l) (z ta l))) ∧
    (Clear s { guard := g, cls := .vector, regs := [vop d 12, vop a 12, vop b 12, vop c 12], uses := [useV a 12, useV b 12, useV c 12] } →
      ta = 26 ∨ ta = 27 →
      delivers (.fdot d a b c g) (wordC 0x30) 12 (fun l =>
        fusedSum fF32 w.p.rm w.p.ftz
          [(val ta (x ta l % 65536), val ta (y ta l % 65536)), (val ta (x ta l / 65536), val ta (y ta l / 65536))]
          (readF fF32 w.p.ftz (z 12 l))))) ∧
  (∀ (s : State) (pd : BitVec 3) (a b : BitVec 6) (g t : Bool),
    let w := s.w
    let act := w.active g
    let ty := w.p.typ t
    let val (n l : Nat) : FV := readF (fmtFor ty) (ftzFor ty w.p.ftz) (w.opnd ty n l)
    let x (l : Nat) : FV := val a.toNat l
    let y (l : Nat) : FV := val b.toNat l
    let nan (l : Nat) : Bool := (x l).isNan || (y l).isNan
    let compares (i : Instr) (fn : BitVec 4) (quiet unord : Bool) (c : Ordering → Bool) : Prop :=
      let bad (l : Nat) : Bool := if quiet then (x l).isSig || (y l).isSig else nan l
      let iv := maskOf (fun l => act.getLsbD l && bad l)
      let word : W64 := zx (0x2E#7 ++ (pd.zeroExtend 6 : BitVec 6) ++ a ++ b ++ fn ++ BitVec.ofBool g ++ BitVec.ofBool t ++ 0#1)
      (w.p.fpt = true → iv ≠ 0 → exec i s = .next (raise { cause := 0x0A, tval := word, lanes := iv, act := act } s)) ∧
      (w.p.fpt = false ∨ iv = 0 → exec i s = .next (fellW 4 s {
        w.setP pd.toNat act (maskOf (fun l => act.getLsbD l && (if nan l then unord else c (fCmp (x l) (y l))))) with
        fflags := w.fflags ||| (if iv = 0 then 0 else 0x10#5) }))
    Clear s { guard := g, cls := .vector, regs := [vop a ty, vop b ty], uses := [useV a ty, useV b ty] } → floatType ty = true →
      compares (.fcmpeq pd a b g t) 0 true false (· == .eq) ∧
      compares (.fcmpne pd a b g t) 1 true false (· != .eq) ∧
      compares (.fcmplt pd a b g t) 2 false false (· == .lt) ∧
      compares (.fcmple pd a b g t) 3 false false (· != .gt) ∧
      compares (.fcmpgt pd a b g t) 4 false false (· == .gt) ∧
      compares (.fcmpge pd a b g t) 5 false false (· != .lt) ∧
      compares (.fcmpueq pd a b g t) 6 true true (· == .eq) ∧
      compares (.fcmpune pd a b g t) 7 true true (· != .eq) ∧
      compares (.fcmpult pd a b g t) 8 true true (· == .lt) ∧
      compares (.fcmpule pd a b g t) 9 true true (· != .gt) ∧
      compares (.fcmpugt pd a b g t) 10 true true (· == .gt) ∧
      compares (.fcmpuge pd a b g t) 11 true true (· != .lt) ∧
      compares (.fcmpord pd a b g t) 12 true false (fun _ => true) ∧
      compares (.fcmpunord pd a b g t) 13 true true (fun _ => false))

/-- Special functions and conversions (R131 to R136), with flags and FP_INVALID as in the arithmetic: FCLASS writes one
bit of a mask and raises nothing; VCVT goes from TB to TA, VPACK and VUNPKL/H between an element and a packed value. -/
def Obligations.SpecialFunctionsAndConversionsComplete : Prop :=
  ∀ (s : State) (d a b : BitVec 6) (g t : Bool),
    let w := s.w
    let act := w.active g
    let ty := w.p.typ t
    let ta := w.p.ta
    let tb := w.p.tb
    let delivers (i : Instr) (word : W64) (k : Nat) (r : Nat → Nat × BitVec 5) : Prop :=
      let iv := maskOf (fun l => act.getLsbD l && (r l).2.getLsbD 4)
      (w.p.fpt = true → iv ≠ 0 → exec i s = .next (raise { cause := 0x0A, tval := word, lanes := iv, act := act } s)) ∧
      (w.p.fpt = false ∨ iv = 0 → exec i s = .next (fellW 4 s { w.results k d.toNat act (fun l => (r l).1) with
        fflags := w.fflags ||| (lanesOf act).foldl (fun f l => f ||| (r l).2) 0 }))
    let word (op : BitVec 7) (b : BitVec 6) (fn : BitVec 4) (t : Bool) : W64 :=
      zx (op ++ d ++ a ++ b ++ fn ++ BitVec.ofBool g ++ BitVec.ofBool t ++ 0#1)
    let conv (src dst v : Nat) : Nat × BitVec 5 := cvt src dst w.p.rm w.p.ftz w.p.sat v
    let one (f : Fmt → Nat → Bool → FV → Nat × BitVec 5) (l : Nat) : Nat × BitVec 5 :=
      onFloats w.p ty (fun m rm z u _ => f m rm z u) (w.opnd ty a.toNat l) 0
    (Clear s { guard := g, cls := .vector, regs := [vop d ty, vop a ty], uses := [useV a ty] } → floatType ty = true →
      delivers (.frcp d a g t) (word 0x2F 0 0 t) ty (one (fun f rm z u => fDiv f rm z (.fin false 1 0) u)) ∧
      delivers (.fsqrt d a g t) (word 0x2F 0 2 t) ty (one fSqrt) ∧
      delivers (.ffract d a g t) (word 0x2F 0 8 t) ty (one fFract) ∧
      (approxType ty = true →
        delivers (.frsq d a g t) (word 0x2F 0 1 t) ty (one (fun f _ z u => fRsq f z u)) ∧
        delivers (.fexp2 d a g t) (word 0x2F 0 3 t) ty (one (fun f _ z u => fExp2 f z u)) ∧
        delivers (.flog2 d a g t) (word 0x2F 0 4 t) ty (one (fun f _ z u => fLog2 f z u)) ∧
        delivers (.fsin d a g t) (word 0x2F 0 5 t) ty (one (fun f _ z u => fSinCos f z false u)) ∧
        delivers (.fcos d a g t) (word 0x2F 0 6 t) ty (one (fun f _ z u => fSinCos f z true u)) ∧
        delivers (.ftanh d a g t) (word 0x2F 0 7 t) ty (one (fun f _ z u => fTanh f z u)))) ∧
    (Clear s { guard := g, cls := .vector, regs := [vop d ty, vop a ty, vop b ty], uses := [useV a ty, useV b ty] } → floatType ty = true →
      delivers (.fdiv d a b g t) (word 0x2F b 10 t) ty (fun l => onFloats w.p ty fDiv (w.opnd ty a.toNat l) (w.opnd ty b.toNat l))) ∧
    (Clear s { guard := g, cls := .vector, regs := [vop1 d, vop a ty], uses := [useV a ty] } → floatType ty = true →
      exec (.fclass d a g t) s = .next (fellW 4 s (w.lanesTo false d.toNat act (fun l =>
        (BitVec.ofNat 64 (2 ^ fClass (fmtFor ty) (w.opnd ty a.toNat l)), false))))) ∧
    (Clear s { guard := g, cls := .vector, regs := [vop d ta, vop a ta], uses := [useV a ta] } → floatType ta = true →
      delivers (.vrndi d a g) (word 0x2B 0 1 false) ta (fun l =>
        onFloats w.p ta (fun f rm _ u _ => fRndi f rm u) (w.opnd ta a.toNat l) 0)) ∧
    (Clear s { guard := g, cls := .vector, regs := [vop d ta, vop a tb], uses := [useV a tb] } →
      (scalarType ta = true → scalarType tb = true →
        delivers (.vcvt d a g) (word 0x2B 0 0 false) ta (fun l => conv tb ta (w.opnd tb a.toNat l))) ∧
      (scalarType ta = true → isPacked tb = true →
        delivers (.vunpkl d a g) (word 0x2B 0 3 false) ta (fun l => conv (elemOf tb) ta (w.opnd tb a.toNat l % 65536)) ∧
        delivers (.vunpkh d a g) (word 0x2B 0 4 false) ta (fun l => conv (elemOf tb) ta (w.opnd tb a.toNat l / 65536)))) ∧
    (Clear s { guard := g, cls := .vector, regs := [vop d ta, vop a tb, vop b tb], uses := [useV a tb, useV b tb] } →
      isPacked ta = true → scalarType tb = true →
      delivers (.vpack d a b g) (word 0x2B b 2 false) ta (fun l =>
        let lo := conv tb (elemOf ta) (w.opnd tb a.toNat l)
        let hi := conv tb (elemOf ta) (w.opnd tb b.toNat l)
        (lo.1 % 65536 + 65536 * (hi.1 % 65536), lo.2 ||| hi.2)))

/-- LPERM, LBALLOT, LMATCH and VLANE (R137, R138, R141, R142): lane l takes the bits and poison of v[a] in its source lane,
and zero where that lane lies outside the path's mask; LBALLOT and LMATCH write masks of active lanes, LMATCH of those whose
elements have the same value, of which the type ignores the high bits of a narrow register and the low ones of E8M10 (R111);
VLANE writes the thread identity. -/
def Obligations.LanePermutationsComplete : Prop :=
  ∀ (s : State) (d a b : BitVec 6) (pa : BitVec 3) (g t : Bool),
    let w := s.w
    let act := w.active g
    let ty := w.p.typ t
    let wide := wideType ty
    let k := (w.sr b.toNat).bits.toNat
    let value (l : Nat) : Nat := if ty = 14 then w.opnd ty a.toNat l / 8192 else w.opnd ty a.toNat l
    let moves (i : Instr) (src : Nat → Nat) : Prop :=
      exec i s = .next (fellW 4 s (w.lanesTo wide d.toNat act (fun l =>
        if w.p.mask.getLsbD (src l) then (w.rawV wide a.toNat (src l), w.badV wide a.toNat (src l)) else (0, false))))
    (moveType ty = true →
      (Clear s { guard := g, cls := .vector, regs := [vop d ty, vop a ty], scals := [b.toNat], uses := [useV1 d] } →
        moves (.lshuf d a b g t) (fun l => (w.vl d.toNat l).bits.toNat % 32)) ∧
      (Clear s { guard := g, cls := .vector, regs := [vop d ty, vop a ty], scals := [b.toNat], uses := [useS b] } →
        moves (.lrot d a b g t) (fun l => (l + k) % 32) ∧
        moves (.lxorl d a b g t) (fun l => l ^^^ (k % 32)) ∧
        moves (.lup d a b g t) (fun l => if k ≤ l then l - k else l) ∧
        moves (.ldown d a b g t) (fun l => if l + k < 32 then l + k else l) ∧
        moves (.lbcast d a b g t) (fun _ => k % 32) ∧
        moves (.lrotw d a b g t) (fun l => (l + k % 256 * 32 / 256) % 32)) ∧
      (Clear s { guard := g, cls := .vector, regs := [vop1 d, vop a ty], uses := [useV a ty] } →
        exec (.lmatch d a g t) s = .next (fellW 4 s (w.lanesTo false d.toNat act (fun l =>
          ((maskOf (fun m => act.getLsbD m && value m == value l)).zeroExtend 64, false)))))) ∧
    (Clear s { guard := g, cls := .vector, scals := [d.toNat] } →
      exec (.lballot d pa g) s = .next (fellW 4 s (w.setS d.toNat ((w.pred pa.toNat &&& act).zeroExtend 64) false))) ∧
    (Clear s { guard := g, cls := .vector, regs := [vop1 d] } →
      exec (.vlane d g) s = .next (fellW 4 s (w.lanesTo false d.toNat act (fun l => ((look 0 w.tid l).zeroExtend 64, false)))))

/-- LRED and LSCAN (R139, R140): lanes that are not active stand for the operation's identity; the tree or the scan runs
its five steps over all lanes, an exclusive scan from the value of the lane below; the integer sums deliver the exact sum,
saturated once, where MODE.SAT is set; the float flags of the steps that form the active lanes' results gather in FFLAGS, and
IV among them traps with every active lane where MODE.FPT is set (R114, R115). -/
def Obligations.ReductionsAndScansComplete : Prop :=
  ∀ (s : State) (d a : BitVec 6) (g t : Bool),
    let w := s.w
    let act := w.active g
    let ty := w.p.typ t
    let runs (i : Instr) (op : BitVec 7) (fn : BitVec 4) (r : RedOp) (scan excl : Bool) : Prop :=
      let x (l : Nat) : Nat := if act.getLsbD l then w.opnd ty a.toNat l else r.identity ty
      let xs := (List.range 32).map (fun l => if excl then (if l = 0 then r.identity ty else x (l - 1)) else x l)
      let ys := laneSteps (r.op w.p ty) (if scan then scanPair else treePair) xs
      let flags := (lanesOf act).foldl (fun f l => f ||| (ys.getD l (0, 0)).2) 0
      let word : W64 := zx (op ++ d ++ a ++ 0#6 ++ fn ++ BitVec.ofBool g ++ BitVec.ofBool t ++ 0#1)
      r.legal ty = true →
        (r.sums = true → w.p.sat = true →
          exec i s = .next (fellW 4 s (w.results ty d.toNat act (fun l => satSum ty (if scan then xs.take (l + 1) else xs))))) ∧
        (r.sums = false ∨ w.p.sat = false →
          (w.p.fpt = true → flags.getLsbD 4 = true → exec i s = .next (raise (trapOf 0x0A word act false) s)) ∧
          (w.p.fpt = false ∨ flags.getLsbD 4 = false →
            exec i s = .next (fellW 4 s { w.results ty d.toNat act (fun l => r.out w.p ty (ys.getD l (0, 0)).1) with
              fflags := w.fflags ||| flags })))
    Clear s { guard := g, cls := .vector, regs := [vop d ty, vop a ty], uses := [useV a ty] } →
      runs (.lredadd d a g t) 0x32 0 redAdd false false ∧
      runs (.lredmin d a g t) 0x32 1 redMin false false ∧
      runs (.lredmax d a g t) 0x32 2 redMax false false ∧
      runs (.lredand d a g t) 0x32 3 redAnd false false ∧
      runs (.lredor d a g t) 0x32 4 redOr false false ∧
      runs (.lredxor d a g t) 0x32 5 redXor false false ∧
      runs (.lredfadd d a g t) 0x32 6 redFadd false false ∧
      runs (.lredfmin d a g t) 0x32 7 redFmin false false ∧
      runs (.lredfmax d a g t) 0x32 8 redFmax false false ∧
      runs (.lscanadd d a g t) 0x33 0 redAdd true false ∧
      runs (.lscanmin d a g t) 0x33 1 redMin true false ∧
      runs (.lscanmax d a g t) 0x33 2 redMax true false ∧
      runs (.lscanand d a g t) 0x33 3 redAnd true false ∧
      runs (.lscanor d a g t) 0x33 4 redOr true false ∧
      runs (.lscanxor d a g t) 0x33 5 redXor true false ∧
      runs (.lscanfadd d a g t) 0x33 6 redFadd true false ∧
      runs (.lxscanadd d a g t) 0x33 8 redAdd true true ∧
      runs (.lxscanmin d a g t) 0x33 9 redMin true true ∧
      runs (.lxscanmax d a g t) 0x33 10 redMax true true ∧
      runs (.lxscanand d a g t) 0x33 11 redAnd true true ∧
      runs (.lxscanor d a g t) 0x33 12 redOr true true ∧
      runs (.lxscanxor d a g t) 0x33 13 redXor true true ∧
      runs (.lxscanfadd d a g t) 0x33 14 redFadd true true

/-- The reduction of LREDADD without saturation (R139): the tree over all lanes leaves the same value in every lane, the
sum of the lanes' values modulo 2^n, for a type that is not packed. -/
def Obligations.ReductionTreeSums : Prop :=
  ∀ (p : Path) (ty : Nat), (6 ≤ ty ∧ ty ≤ 9) → ∀ (f : Nat → Nat), (∀ l, f l < 2 ^ typeBits ty) →
    ∀ l < 32, ((laneSteps (redAdd.op p ty) treePair ((List.range 32).map f)).getD l (0, 0)).1 =
      ((List.range 32).map f).sum % 2 ^ typeBits ty

/-- XSEND and XRECV at a slot (R58, R143): at a FREE slot the warp waits, and the slot holds its registers and lanes; a
sender and a receiver of equal counts complete together, the receiver's active lanes taking the sender's registers, and
the slot is FREE again; the warp that waited completes when it is next examined. Unequal counts trap both with XFER (0x19) and
two of one direction trap both with XFER_MISMATCH (0x11), the slot FREE again; an arrival of the warp that waits at the slot
traps with XFER and leaves the slot as it is. -/
def Obligations.TransfersComplete : Prop :=
  ∀ (s : State) (d4 : BitVec 4) (r n : BitVec 6) (g : Bool),
    let w := s.w
    let act := w.active g
    let x := look {} (s.wg w.wg).xfer d4.toNat
    let first := w.p.wbase + r.toNat
    let freed := s.setWg w.wg { s.wg w.wg with xfer := del (s.wg w.wg).xfer d4.toNat }
    Clear s { guard := g, cls := .vector, regs := [{ n := r.toNat, cnt := n.toNat }] } → NoTx s g →
    let meets (i : Instr) (send : Bool) (word : W64) : Prop :=
      let traps (cause : Nat) (t : State) : Prop := exec i s = .next (raise (trapOf cause word act false) t)
      (w.block ≠ some 8 → x.busy = false →
        exec i s = .next (blocked 8 (s.setWg w.wg (putXfer (s.wg w.wg) d4.toNat w.wid send n.toNat first act)))) ∧
      (w.block ≠ some 8 → x.busy = true → x.wid ≠ w.wid → x.send = !send → x.n = n.toNat →
        let t := if send then transfer s w.wid first act x.wid x.first x.act n.toNat
          else transfer s x.wid x.first x.act w.wid first act n.toNat
        let u := t.setWg t.w.wg { t.wg t.w.wg with xfer := del (t.wg t.w.wg).xfer d4.toNat }
        exec i s = .next (fell 4 (giveGrant x.wid .done u))) ∧
      (w.block ≠ some 8 → x.busy = true → x.wid ≠ w.wid → x.send = send →
        traps 0x11 (giveGrant x.wid (.trap 0x11 0) freed)) ∧
      (w.block ≠ some 8 → x.busy = true → x.wid ≠ w.wid → x.send = !send → x.n ≠ n.toNat →
        traps 0x19 (giveGrant x.wid (.trap 0x19 0) freed)) ∧
      (w.block ≠ some 8 → x.busy = true → x.wid = w.wid → traps 0x19 s) ∧
      (w.block = some 8 → w.grant = some .done → exec i s = .next (fell 4 s)) ∧
      (w.block = some 8 → ∀ c v, w.grant = some (.trap c v) → traps c s)
    meets (.xsend d4 r n g) true (zx (0x35#7 ++ (0#2 ++ d4) ++ r ++ n ++ 0#4 ++ BitVec.ofBool g ++ 0#2)) ∧
    meets (.xrecv r d4 n g) false (zx (0x36#7 ++ r ++ (0#2 ++ d4) ++ n ++ 0#4 ++ BitVec.ofBool g ++ 0#2))

/-- REGROUP (R59, R144 to R146): the warp joins the collective; where that completes it, and where the collective has
completed since, the instruction completes; until then the warp waits. A range of no registers still names the register D, which
lies in the frame (R77). -/
def Obligations.RegroupCompletes : Prop :=
  ∀ (s : State) (d a b : BitVec 6) (g : Bool),
    let w := s.w
    Clear s { guard := g, cls := .vector, regs := [{ n := d.toNat, cnt := max 1 b.toNat }, vop1 a] } → NoTx s g →
    (w.block = some 9 → w.grant = some .done → exec (.regroup d a b g) s = .next (fell 4 s)) ∧
    (w.block ≠ some 9 → w.p.fdepth = 0 → (∀ r ∈ w.recs, ∀ p, r.body ≠ .split p) → w.q.held = false → w.p.levels = 0 → w.tlevel = 0 →
      let t := regroupTry w.wg (s.setWg w.wg { s.wg w.wg with
        regroup := (s.wg w.wg).regroup ++ [{ wid := w.wid, d := d.toNat, a := a.toNat, n := b.toNat, act := w.active g }] })
      (t.w.grant = some .done → exec (.regroup d a b g) s = .next (fell 4 t)) ∧
      (t.w.grant = none → exec (.regroup d a b g) s = .next (blocked 9 t)))

/-- REGROUP traps with REGROUP_STATE (0x10) (R59) where the path's FDEPTH is not 0, a SPLIT record is stacked, the other
slot is not EMPTY, or a loop level is active. -/
def Obligations.RegroupStateTraps : Prop :=
  ∀ (s : State) (d a b : BitVec 6) (g : Bool),
    Clear s { guard := g, cls := .vector, regs := [{ n := d.toNat, cnt := max 1 b.toNat }, vop1 a] } → NoTx s g → s.w.block ≠ some 9 →
    (s.w.p.fdepth ≠ 0 ∨ (∃ r ∈ s.w.recs, ∃ p, r.body = .split p) ∨ s.w.q.held = true ∨ s.w.p.levels ≠ 0) →
    ∃ v, exec (.regroup d a b g) s = .next (raise (trapOf 0x10 v (s.w.active g) false) s)

/-- LD, ST, LDU, STU, LDH and STH (R203, R209 to R211): where every active lane passes its checks at a resident page, the
instruction completes, and it issues one operation of one access for each active lane (of one for all, LDU and STU), at the
memory key of the lane's address, in the type's size, with a store's data read at issue; acquire and release are O's, and a
releasing store issues once the ray batches of its warp are traversed (R225, R328). No memory changes and no result is written
before an access is performed. -/
def Obligations.LoadsAndStoresIssue : Prop :=
  ∀ (s : State) (d a b : BitVec 6) (sc : BitVec 3) (o : BitVec 2) (g t : Bool) (pass : Nat → Pass),
    let w := s.w
    let ty := w.p.typ t
    let size := memBytes ty
    let wide := wideType ty
    let act := w.active g
    let lanes (f : Nat → Acc) : List Acc := (lanesOf act).map f
    let base := (w.sr a.toNat).bits
    let issues (i : Instr) (m : MemOp) : Prop := exec i s = .next (fell 4 (issueOp m s))
    memType ty = true → Untouched s g →
    (Clear s { guard := g, cls := .memory, regs := [vop d ty, vop1 b], scals := [a.toNat], uses := [useS a, useV1 b] } →
      (w.ld < 63 →
        (Passes (fun l => checkGlobal s w (base + (w.vl b.toNat l).bits.signExtend 64) size .read) act pass →
          issues (.ld d a b sc o g t) { cls := .ld, acq := o == 1, drop := o == 1 && decide (4 ≤ sc.toNat)
                                        dst := .vec (w.p.wbase + d.toNat) size (isSigned ty)
                                        todo := lanes (fun l => { slot := l, key := (pass l).key, size := size, l1 := (pass l).l1 }) }) ∧
        (s.tileBusy = false → Passes (fun l => checkScratch s w base (w.vl b.toNat l).bits.toNat size size .read) act pass →
          issues (.ldh d a b sc o g t) { cls := .ld, acq := o == 1, dst := .vec (w.p.wbase + d.toNat) size (isSigned ty)
                                         todo := lanes (fun l => { slot := l, key := (pass l).key, size := size, l1 := false }) })) ∧
      (w.st < 63 → (o = 2 → s.tileBusy = false ∧ w.raysOpen = false) →
        (Passes (fun l => checkGlobal s w (base + (w.vl b.toNat l).bits.signExtend 64) size .write) act pass →
          issues (.st d a b sc o g t) { cls := .st, rel := o == 2
                                        todo := lanes (fun l => { slot := l, kind := .write, key := (pass l).key, size := size, l1 := (pass l).l1
                                                                  x := w.rawV wide d.toNat l, bad := w.badV wide d.toNat l }) }) ∧
        (s.tileBusy = false → Passes (fun l => checkScratch s w base (w.vl b.toNat l).bits.toNat size size .write) act pass →
          issues (.sth d a b sc o g t) { cls := .st, rel := o == 2
                                         todo := lanes (fun l => { slot := l, kind := .write, key := (pass l).key, size := size, l1 := false
                                                                   x := w.rawV wide d.toNat l, bad := w.badV wide d.toNat l }) }))) ∧
    (Clear s { guard := g, cls := .memory, scals := [d.toNat, a.toNat, b.toNat], uses := [useS a, useS b] } →
      let ea := base + (w.sr b.toNat).bits
      let p := pass (lowLane act)
      (w.ld < 63 → Passes (fun _ => checkGlobal s w ea size .read) act pass →
        issues (.ldu d a b sc o g t) { cls := .ld, acq := o == 1, drop := o == 1 && decide (4 ≤ sc.toNat)
                                       dst := .scalar d.toNat size (isSigned ty)
                                       todo := [{ key := p.key, size := size, l1 := p.l1 }] }) ∧
      (w.st < 63 → (o = 2 → s.tileBusy = false ∧ w.raysOpen = false) → Passes (fun _ => checkGlobal s w ea size .write) act pass →
        issues (.stu d a b sc o g t) { cls := .st, rel := o == 2
                                       todo := [{ kind := .write, key := p.key, size := size, l1 := p.l1
                                                  x := (w.sr d.toNat).bits, bad := (w.sr d.toNat).bad }] }))

/-- ATOM, ATOMA, RED and ATOMH (R212, R213): one operation of one atomic access for each active lane, with x and y taken
from the registers behind the offset's; ATOMA acquires and releases, and issues once the ray batches of its warp are
traversed (R225, R328); RED returns nothing. -/
def Obligations.AtomicsIssue : Prop :=
  ∀ (s : State) (d a b : BitVec 6) (aop : BitVec 4) (sc : BitVec 3) (pass : Nat → Pass),
    let w := s.w
    let ty := w.p.ta
    let size := memBytes ty
    let wide := wideType ty
    let act := w.active false
    let n := aop.toNat
    let k := if wide then 2 else 1
    let base := (w.sr a.toNat).bits
    let ops : List VOp := [{ n := b.toNat, even := wide }, { n := b.toNat + k, cnt := k * (if n = 9 then 2 else 1) }]
    let us : List Use := [useS a, useV1 b, { n := b.toNat, cnt := k * (if n = 9 then 2 else 1), off := k }]
    let todo (kind : AccKind) : List Acc := (lanesOf act).map (fun l =>
      { slot := l, kind := kind, key := (pass l).key, size := size, l1 := false
        x := w.rawV wide (b.toNat + k) l, y := w.rawV wide (b.toNat + 2 * k) l })
    let dst : Dest := .vec (w.p.wbase + d.toNat) size false
    let issues (i : Instr) (m : MemOp) : Prop := exec i s = .next (fell 4 (issueOp m s))
    atomLegal n ty = true → Untouched s false →
    (Passes (fun l => checkGlobal s w (base + (w.vl b.toNat l).bits.signExtend 64) size .rmw) act pass →
      (Clear s { cls := .memory, regs := vop d ty :: ops, scals := [a.toNat], uses := us } → w.ld < 63 →
        issues (.atom d a b aop sc) { cls := .ld, dst := dst, todo := todo (.atomic n ty) } ∧
        (s.tileBusy = false → w.raysOpen = false →
          issues (.atoma d a b aop sc) { cls := .ld, acq := true, rel := true, drop := decide (4 ≤ sc.toNat), dst := dst
                                         todo := todo (.atomic n ty) })) ∧
      (Clear s { cls := .memory, regs := ops, scals := [a.toNat], uses := us } → w.st < 63 →
        issues (.red a b aop sc) { cls := .st, todo := todo (.reduce n ty) })) ∧
    (Passes (fun l => checkScratch s w base (w.vl b.toNat l).bits.toNat size size .rmw) act pass →
      Clear s { cls := .memory, regs := vop d ty :: ops, scals := [a.toNat], uses := us } → w.ld < 63 → s.tileBusy = false →
        issues (.atomh d a b aop sc) { cls := .ld, dst := dst, todo := todo (.atomic n ty) })

/-- MEMORY_OP_COMPLETE for the only outstanding operation of the warp on turn, at an address of this device (R197, R199, R202 to
R205, R208, R212, R213, R225). With one access: a read gives the bytes of its core's L1, where that holds the line and the
address may be cached there, and else those of memory, extended as the type states, to its scalar or vector register; a write
changes the `size` bytes at its key and no other byte of memory, and no register, and the other L1s of the cluster drop the
line; an atomic stores the new value of R213 and gives the old one, a RED gives none, and both make every L1 of the cluster drop
the line; poisoned memory stays as it is, an atomic's result is poisoned, and a RED counts the error; a write-back changes
nothing. An access of global memory waits for the ray batches that were launched before it, any byte of which they may read (R225,
R328, the model's reading, log 83). An acquire first drops the L1 of
its core at the scopes of a die or wider, and one that is behind elsewhere (log 137). With several accesses, neither acquiring
nor releasing, each is performed in turn. The operation is then forgotten. -/
def Obligations.MemoryOperationCompletes : Prop :=
  ∀ (s : State) (o : MemOp) (lanes : BitVec 32),
    let w := s.w
    let completes (t : State) : Prop := exec (.memoryOpComplete w.wid o.seq lanes) s = .next t
    w.resident = true → w.live = true → w.ops = [o] → o.done = false → o.wait = false →
    (∀ a ∈ o.todo, lanes.getLsbD (a.slot % 32) = true ∧ isRemote a.key = false) →
    (∀ b ∈ w.batches, b.done = false → b.seq ≤ o.seq → ∀ a ∈ o.todo, 2 ^ 100 ≤ a.key) →
    (∀ a, o.todo = [a] → o.got = [] → 1 ≤ a.size → a.size ≤ 8 →
      let u := acquireL1 w.core o.acq o.drop s
      let line := look {} (u.core w.core).l1 (lineOf a.key)
      let cached := a.l1 && line.live
      let x : W64 := if cached then BitVec.ofNat 64 (lineRead line a.key a.size) else BitVec.ofNat 64 (rdMem s.mem a.key a.size)
      let bad : Bool := if cached then line.bad.getD (a.key % 128 / 8) false else isBad s a.key
      let dropped (t : State) (keep : Nat → Prop) : Prop :=
        ∀ c, clusterOf s c = w.cluster → ¬ keep c → (look {} (t.core c).l1 (lineOf a.key)).live = false
      let stores (t : State) (v : W64) : Prop :=
        (∀ k, (k < a.key ∨ a.key + a.size ≤ k) → t.byte k = s.byte k) ∧
        (∀ i < a.size, t.byte (a.key + i) = v.extractLsb' (8 * i) 8)
      (a.kind = .read →
        (∀ d sgn, o.dst = .scalar d a.size sgn →
          completes { u with w := { w with ops := [], s := put {} w.s d ⟨extend a.size sgn x, bad⟩ } }) ∧
        (∀ d sgn, o.dst = .vec d a.size sgn →
          completes { u with w := { w with ops := [], v := putLane w.v d a.slot a.size sgn x bad } })) ∧
      (a.kind = .write → o.dst = .none →
        ∃ t, completes t ∧ t.w = { w with ops := [] } ∧ stores t a.x ∧ dropped t (· = w.core)) ∧
      (∀ n ty,
        let old : W64 := BitVec.ofNat 64 (rdMem s.mem a.key a.size)
        (a.kind = .atomic n ty → ∀ d sgn, o.dst = .vec d a.size sgn →
          (isBad s a.key = false → ∃ t, completes t ∧ t.w = { w with ops := [], v := putLane w.v d a.slot a.size sgn old false } ∧
            stores t (atomicNew n ty old a.x a.y) ∧ dropped t (fun _ => False)) ∧
          (isBad s a.key = true →
            completes { dropLine u w.cluster (lineOf a.key) none with
              w := { w with ops := [], v := putLane w.v d a.slot a.size sgn old true } })) ∧
        (a.kind = .reduce n ty → o.dst = .none →
          (isBad s a.key = false → ∃ t, completes t ∧ t.w = { w with ops := [] } ∧ stores t (atomicNew n ty old a.x a.y) ∧
            dropped t (fun _ => False)) ∧
          (isBad s a.key = true → completes (logUnc w.cluster { dropLine u w.cluster (lineOf a.key) none with w := { w with ops := [] } })))) ∧
      (a.kind = .writeBack → o.dst = .none → completes { u with w := { w with ops := [] } })) ∧
    (o.todo ≠ [] → o.acq = false → o.rel = false → o.drop = false → (o.todo.map (fun a => a.slot)).Nodup →
      let r := o.todo.foldl (fun (x : State × List Got) a =>
        ((performAcc w.core w.cluster a x.1).1, x.2 ++ (performAcc w.core w.cluster a x.1).2.toList)) (s, o.got)
      completes { r.1 with w := { writeDest w o.dst r.2 with ops := [] } })

/-- TINFO (R196) writes s[d]: the free bytes of the workgroup's scratch reservation in bits 31 to 0, the scratch per core in
KiB in bits 47 to 32, and the number of free handles in bits 54 to 48; that it does so in ACTIVE lanes also, R247's table
having no row for it, is the model's reading (log 143).
TALLOC and TFREE (R193 to R195): a WORKGROUP-level allocation takes the lowest free handle number where the reservation has
room, and s[d] the handle word, and otherwise −1; TFREE of a WORKGROUP-level handle whose segment nothing uses drops its bytes
and gives the room back; a CLUSTER-level form completes once its collective has granted it, which for a TFREE comes when every
workgroup has joined and nothing of theirs uses the handle any more. -/
def Obligations.ScratchAllocationAndInformation : Prop :=
  (∀ (s : State) (d : BitVec 6) (g : Bool),
    Clear s { guard := g, cls := .memory, scals := [d.toNat] } →
    let wg := s.wg s.w.wg
    let hfree := ((List.range 64).filter (fun n => !(look {} wg.handles n).live)).length
    exec (.tinfo d g) s = .next (fellW 4 s (s.w.setS d.toNat
      (BitVec.ofNat 64 (wg.free + Config.coreScratch / 1024 * 2 ^ 32 + hfree * 2 ^ 48)) false))) ∧
  (∀ (s : State) (d a : BitVec 6) (g : Bool),
    let w := s.w
    let wg := s.wg w.wg
    let x := (w.sr a.toNat).bits
    NoTx s g →
    (Clear s { guard := g, cls := .memory, scals := [d.toNat, a.toNat], uses := [useS a] } →
      (w.block ≠ some 9 → ∀ h, shapeOf x = some h → h.cluster = false →
        (∀ n, firstHandle (fun n => !(look {} wg.handles n).live) = some n → h.need ≤ wg.free →
          exec (.talloc d a g) s = .next (fell 4 (let t := allocIn w.wg n h s
            { t with w := t.w.setS d.toNat (BitVec.ofNat 64 (wg.rank * 256 + n)) false }))) ∧
        ((∀ n < 64, (look {} wg.handles n).live = true) ∨ wg.free < h.need →
          exec (.talloc d a g) s = .next (fellW 4 s (w.setS d.toNat (BitVec.allOnes 64) false)))) ∧
      (w.block = some 9 → ∀ v u, w.grant = some (.value v u) →
        exec (.talloc d a g) s = .next (fellW 4 s (w.setS d.toNat v false)))) ∧
    (Clear s { guard := g, cls := .memory, scals := [a.toNat], uses := [useS a] } →
      (w.block ≠ some 9 → ∀ o h, handleOf s w x = some (o, h) →
        let n := bits x 5 0
        let h' := look {} wg.handles n
        h'.cluster = false → segsBusy s w.wg [h'.seg] = false →
        exec (.tfree a g) s = .next (fell 4 (freeIn w.wg n (withdrawWg w.wg (some n) s)))) ∧
      (w.block = some 9 → ∀ t, t = clusterTry wg.launch true s → t.w.grant = some .done →
        exec (.tfree a g) s = .next (fell 4 t))))

/-- The waits and the cache-control instructions (R199, R206, R207, R289): a wait completes where its counters have fallen and it
reports no copy fault, and blocks the warp where they have not. PFL1 and CINV change the L1 of the warp's core alone: PFL1
fills the lines that its lanes name, as far as there is room (R2, log 150), and CINV drops them; a lane whose check fails
names none (R199), nor does one whose address is poisoned (log 41). PFLLC changes nothing that an access observes; ICINV
empties instruction caches alone; and CWB issues one write-back for each active lane whose page is on the device, having no
effect on fabric pages. -/
def Obligations.WaitsAndCacheControlComplete : Prop :=
  ∀ (s : State) (a b : BitVec 6) (ld st cp tl : BitVec 6) (g : Bool) (pass : Nat → Pass),
    let w := s.w
    let act := w.active g
    (Clear s { cls := .memory } → (cp.toNat < 63 → w.cpFaults = []) →
      ((w.ld ≤ ld.toNat ∧ w.st ≤ st.toNat ∧ w.cp ≤ cp.toNat ∧ w.tl ≤ tl.toNat) → exec (.wait ld st cp tl) s = .next (fell 4 s)) ∧
      (¬(w.ld ≤ ld.toNat ∧ w.st ≤ st.toNat ∧ w.cp ≤ cp.toNat ∧ w.tl ≤ tl.toNat) →
        exec (.wait ld st cp tl) s = .next (blocked 5 s))) ∧
    (Clear s { guard := g, cls := .memory, scals := [a.toNat], uses := [useS a] } →
      let x := (w.sr a.toNat).bits.toNat
      let waits' (i : Instr) (n : Nat) : Prop :=
        (n ≤ x → exec i s = .next (fell 4 s)) ∧ (x < n → exec i s = .next (blocked 5 s))
      waits' (.waitrld a g) w.ld ∧ waits' (.waitrst a g) w.st ∧ waits' (.waitrtl a g) w.tl ∧
      ((x < 63 → w.cpFaults = []) → waits' (.waitrcp a g) w.cp)) ∧
    (Clear s { guard := g, cls := .memory, regs := [vop1 b], scals := [a.toNat] } →
      let lines := hintLines s a.toNat b.toNat act
      let filled := lines.foldl (fun t x => fillL1 w.core x.1 t) s
      let cleared := lines.foldl (fun t x => t.setCore w.core { t.core w.core with l1 := del (t.core w.core).l1 x.1 }) s
      exec (.pfl1 a b g) s = .next (fell 4 filled) ∧
      exec (.pfllc a b g) s = .next (fell 4 s) ∧
      exec (.cinv a b g) s = .next (fell 4 cleared) ∧
      (∀ t, t = filled ∨ t = cleared →
        (∃ cs, t = { s with cores := cs }) ∧ (∀ c, c ≠ w.core → t.core c = s.core c) ∧
        ({ t.core w.core with l1 := [] } : Core) = { s.core w.core with l1 := [] }) ∧
      (∀ x ∈ lines, (look {} (cleared.core w.core).l1 x.1).live = false ∧
        ((s.core w.core).l1.length + lines.length ≤ 2048 → (look {} (filled.core w.core).l1 x.1).live = true))) ∧
    (Clear s { guard := g, cls := .memory } → NoTx s g → ∀ n : BitVec 6,
      exec (.icinv n g) s = .next (fell 4 { s with
        cores := s.cores.map (fun e => if inScope s n.toNat e.1 then (e.1, { e.2 with ic := [] }) else e) })) ∧
    (Clear s { guard := g, cls := .memory, regs := [vop1 b], scals := [a.toNat], uses := [useS a, useV1 b] } → Untouched s g →
      w.st < 63 → Passes (fun l => lineChecks s a.toNat b.toNat l) act pass →
      exec (.cwb a b g) s = .next (fell 4 (issueOp { cls := .st
                                                     todo := ((lanesOf act).filter (fun l => !isRemote (pass l).key)).map (fun l =>
                                                       { slot := l, kind := .writeBack, key := lineOf (pass l).key * 128, size := 128 }) } s)))

/-- FENCE and the barrier objects (R227 to R234): a FENCE completes once every access of the warp is performed, and at the
scopes of a die or wider its core's L1 drops its lines; BINIT writes the object that R229 lays out; an arrival is one step at
the object; BWAIT and BTEST observe it, BTEST writing p[d] and BWAIT blocking the warp while the phase is incomplete. Reads of
ray batches are accesses too (R328). The model's own choices: the stall code 14 of a FENCE that waits (log 43), that a poisoned
phase traps BWAIT also (log 47), that an L1 which is behind drops its lines at an observation (log 137), and that an instruction
waits for its warp's earlier acquires and, where it acquires, releases (R225). -/
def Obligations.FencesAndBarrierObjectsComplete : Prop :=
  ∀ (s : State) (p3 : BitVec 3) (a b : BitVec 6) (sc : BitVec 4) (g : Bool) (key : Nat),
    let w := s.w
    let x := (w.sr a.toNat).bits
    let y := (w.sr b.toNat).bits
    let one : Demand := { guard := g, cls := .barrier, scals := [a.toNat], uses := [useS a] }
    let two : Demand := { guard := g, cls := .barrier, scals := [a.toNat, b.toNat], uses := [useS a, useS b] }
    let obj := readBar s key
    let quiet : Prop := w.allPerformed = true ∧ s.tileBusy = false
    let arrives (i : Instr) (n : Nat) (drop : Bool) : Prop :=
      (quiet → n ≤ 0x7FFFFFFF → obj.valid = true → obj.retired = false → obj.pend ≠ 0 →
        exec i s = .next (fell 4 (writeBar key
          ({ obj with txcnt := (obj.txcnt + n) % 2 ^ 32, drop := obj.drop + (if drop then 1 else 0), pend := obj.pend - 1 } : BarObj).check s))) ∧
      (¬quiet → n ≤ 0x7FFFFFFF → exec i s = .next (waits 3 s))
    NoTx s g →
    (Clear s { guard := g, cls := .barrier } →
      (quiet → exec (.fence sc g) s = .next (fell 4 (acquireL1 w.core (sc != 0) (4 ≤ sc.toNat) s))) ∧
      (¬quiet → exec (.fence sc g) s = .next (blocked 14 s))) ∧
    ((acquireL1 w.core true true s).core w.core).l1 = [] ∧
    (s.tileBusy = false → ownPending w key = false → orderPending w false = false →
      (barCheck s w x false = .ok key →
        (Clear s one → arrives (.barv a g) 0 false ∧ arrives (.barvd a g) 0 true) ∧
        (Clear s two → arrives (.barvx a b g) y.toNat false)) ∧
      (barCheck s w x true = .ok key → Clear s two →
        (1 ≤ y.toNat → y.toNat ≤ 65535 →
          exec (.binit a b g) s = .next (fell 4 (storeMem (key + 8) 8 0x080000#64 false
            (storeMem key 8 (BitVec.ofNat 64 (y.toNat + y.toNat * 65536)) false s)))) ∧
        (orderPending w true = true →
          exec (.bwait a b g) s = .next (waits 3 s) ∧ exec (.btest p3 a b g) s = .next (waits 3 s)) ∧
        (orderPending w true = false → obj.valid = true → (obj.retired = true → obj.phase ≠ y.getLsbD 0) →
          (obj.phase = y.getLsbD 0 →
            exec (.bwait a b g) s = .next (blocked 6 { s with w := { w with bwait := some key } }) ∧
            exec (.btest p3 a b g) s = .next (fellW 4 s (w.setP p3.toNat (w.active g) 0))) ∧
          (obj.phase ≠ y.getLsbD 0 → obj.poison (y.getLsbD 0) = false →
            exec (.bwait a b g) s = .next (fell 4 (syncL1 w.core s)) ∧
            exec (.btest p3 a b g) s = .next (fell 4 (syncL1 w.core { s with w := w.setP p3.toNat (w.active g) fullMask }))) ∧
          (obj.phase ≠ y.getLsbD 0 → obj.poison (y.getLsbD 0) = true →
            exec (.bwait a b g) s = .next (raise (trapOf 0x0E x (w.active g) false) (syncL1 w.core s)) ∧
            exec (.btest p3 a b g) s = .next (raise (trapOf 0x0E x (w.active g) false) (syncL1 w.core s))))))

/-- The hardware barriers (R235, R236): an arrival counts the warp in the phase and gives it a token of that phase; the phase
completes when every warp with live lanes has arrived; a wait completes where the token's phase is complete, and blocks the
warp while it is not; WGBAR and CBAR do both. An arrival while the warp's token is of an incomplete phase blocks the warp until
that phase is complete. An arrival waits until every access of its warp is performed, with stall code 3 (log 43), and a wait
that completes lets an L1 that is behind drop its lines (log 137). -/
def Obligations.HardwareBarriersComplete : Prop :=
  ∀ (s : State) (g : Bool),
    let w := s.w
    Clear s { guard := g, cls := .barrier } → NoTx s g →
    let arrive (i : Instr) (cl : Bool) : Prop :=
      (w.token cl).open_ (hwBar cl s) = false → w.allPerformed = true → s.tileBusy = false →
        exec i s = .next (fell 4 (barArrive cl s))
    let early (i : Instr) (cl : Bool) : Prop :=
      (w.block = some 7 → w.grant ≠ some .done) → (w.token cl).open_ (hwBar cl s) = false →
        (w.allPerformed = false ∨ s.tileBusy = true) → exec i s = .next (waits 3 s)
    let again (i : Instr) (cl : Bool) : Prop :=
      (w.block = some 7 → w.grant ≠ some .done) → (w.token cl).open_ (hwBar cl s) = true → exec i s = .next (blocked 7 s)
    let wait (i : Instr) (cl : Bool) : Prop :=
      ((w.token cl).open_ (hwBar cl s) = false → exec i s = .next (fell 4 (syncL1 w.core s))) ∧
      ((w.token cl).open_ (hwBar cl s) = true → exec i s = .next (blocked 7 s))
    let both (i : Instr) (cl : Bool) : Prop :=
      ((w.block = some 7 → w.grant ≠ some .done) → (w.token cl).open_ (hwBar cl s) = false → w.allPerformed = true → s.tileBusy = false →
        let t := barArrive cl s
        let u : State := { t with w := { t.w with grant := some .done } }
        exec i s = .next (if (u.w.token cl).open_ (hwBar cl u) then blocked 7 u else fell 4 (syncL1 u.w.core u))) ∧
      (w.block = some 7 → w.grant = some .done → (w.token cl).open_ (hwBar cl s) = false → exec i s = .next (fell 4 (syncL1 w.core s)))
    arrive (.wgbara g) false ∧ arrive (.cbara g) true ∧ wait (.wgbarw g) false ∧ wait (.cbarw g) true ∧
    both (.wgbar g) false ∧ both (.cbar g) true ∧
    early (.wgbar g) false ∧ early (.cbar g) true ∧ early (.wgbara g) false ∧ early (.cbara g) true ∧
    again (.wgbar g) false ∧ again (.cbar g) true ∧ again (.wgbara g) false ∧ again (.cbara g) true

/-- Transactions (R242, R245, R250, R253 to R257, R259, R260): TXBEGIN opens a group for the path's lanes, logged or, once the
Tabard is held, with the fallback. TXEND commits the ACTIVE lanes in ascending order and the IRREVOCABLE ones, and goes on;
the lanes that are then ABORTED go on at the abort target, in a path of their own where others are left; where no lane of the
path is in a transaction it changes nothing. One lane's commit fails with VALIDATION where a word that it read has changed or
a Tabard's line set holds one of its lines, and otherwise writes its log; that it may find a slice full, and fail with
SLICE_BUSY, is a free value where at least 8 other warps are at a TXEND of lanes whose logs are not empty (log 50). TXABORT aborts the
active lanes with cause EXPLICIT and its code; TXSTAT and TXCAUSE read the lanes' outcomes. The model's own readings: AGE 0 in
both parts of TXEND's split, and the part that goes on counted as having issued (log 24); the L1s that the acquire of a commit
drops or marks (logs 51 and 137); that a TXEND at another FDEPTH than the group's falls through (log 169); and that poison takes
no part in the check of a word (log 170). -/
def Obligations.TransactionsComplete : Prop :=
  ∀ (s : State) (sc : BitVec 3) (off : BitVec 21) (code : BitVec 4) (d : BitVec 6) (g : Bool),
    let w := s.w
    (Clear s { cls := .memory } → w.tlevel = 0 →
      (w.group = none → w.resvOk w.txResv = true →
        let target := w.p.pc + 4 * off.signExtend 64
        (txSetFree s = true → exec (.txbegin sc false off) s = .next (fell 4 (openGroup sc.toNat false target w.txResv s))) ∧
        (txSetFree s = false → exec (.txbegin sc false off) s = .next (waits 15 s)) ∧
        ∀ t, t = grantTabards (askTabard (domainOf s sc.toNat) s) →
          ((tabardOf t (domainOf s sc.toNat)).holder = some w.wid →
            exec (.txbegin sc true off) s = .next (fell 4 (openGroup sc.toNat true target w.txResv t))) ∧
          ((tabardOf t (domainOf s sc.toNat)).holder ≠ some w.wid → exec (.txbegin sc true off) s = .next (blocked 15 t))) ∧
      ((∀ l, w.p.mask.getLsbD l = true → (w.txl l).st = .none) → exec .txend s = .next (fell 4 s)) ∧
      (∀ gr, w.group = some gr → w.p.fdepth ≠ gr.depth →
        w.p.mask &&& (w.txMask .active ||| w.txMask .aborted ||| w.txMask .irrevocable) ≠ 0 →
        exec .txend s = .next (fellW 4 s (w.abort w.p.mask 10 0))) ∧
      (∀ gr, w.group = some gr → w.p.fdepth = gr.depth →
        w.p.mask &&& (w.txMask .active ||| w.txMask .aborted ||| w.txMask .irrevocable) ≠ 0 →
        w.allPerformed = true → s.tileBusy = false →
        let s1 := (lanesOf (w.activeTx w.p.mask)).foldl (fun t l => commitLane l t) s
        let ok := s1.w.activeTx w.p.mask
        let s2 := acquireL1 w.core (ok != 0) (ok != 0 && decide (4 ≤ gr.sc)) s1
        let w3 : Warp := { s2.w with tx := s2.w.tx.map (fun e =>
          if w.p.mask.getLsbD e.1 && (e.2.st == .active || e.2.st == .irrevocable) then
            (e.1, { e.2 with st := .none, stat := false, cause := if e.2.st == .irrevocable then 0 else e.2.cause }) else e) }
        let routed := w3.p.mask &&& w3.txMask .aborted
        let left := w3.p.mask &&& ~~~routed
        let w4 : Warp := { w3 with tx := w3.tx.map (fun e =>
          if routed.getLsbD e.1 then (e.1, { e.2 with st := .none, stat := true }) else e) }
        let tgt := (w3.group.getD {}).target
        (routed = 0 → exec .txend s = .next (fell 4 (closeGroup { s2 with w := w3 }))) ∧
        (routed ≠ 0 → left = 0 →
          exec .txend s = .next (issued (closeGroup { s2 with w := { w4 with p := { w4.p with pc := tgt } } }))) ∧
        (routed ≠ 0 → left ≠ 0 →
          let p0 : Path := { w3.p with mask := routed, pc := tgt, age := 0 }
          let q0 : Path := { ({ w3.p with mask := left, age := 0 } : Path).fall 4 with
            parked := false, stall := none, want := none, owed := none, ran := true }
          let w5 := if w4.q.held then { w4 with p := p0 }.pushRec (.split q0) else { w4 with p := p0, q := q0 }
          exec .txend s = .next (issued (closeGroup { s2 with w := w5 }))))) ∧
    (∀ l, l < 32 →
      let t := w.txl l
      let may := !(t.rlog.isEmpty && t.wlog.isEmpty) &&
        decide (8 ≤ (s.others.filter (fun v => committing s v v.p || committing s v v.q)).length)
      let busy := may && Config.sliceBusy s.free
      let s0 : State := if may then { s with free := s.free + 1 } else s
      let invalid : Prop := meetsTabard s t = true ∨ ∃ e ∈ t.rlog, BitVec.ofNat 64 (rdMem s.mem e.key 8) ≠ e.val
      (busy = true → commitLane l s = abortLane l 8 s0) ∧
      (busy = false → invalid → commitLane l s = abortLane l 1 s0) ∧
      (busy = false → ¬ invalid →
        let u := t.wlog.foldl (commitWord w.cluster) s0
        commitLane l s = { u with w := u.w.setTxl l { t with rlog := [], wlog := [] } })) ∧
    (Clear s { guard := g, cls := .memory } →
      exec (.txabort code g) s = .next (fellW 4 s (if w.tlevel = 0 then { w with tx := w.tx.map (fun e =>
        if (w.active g).getLsbD e.1 && e.2.st == .active then
          (e.1, { e.2 with st := .aborted, cause := 6, code := code.toNat, rlog := [], wlog := [] }) else e) } else w))) ∧
    (Clear s { guard := g, cls := .memory, scals := [d.toNat] } →
      exec (.txstat d g) s = .next (fellW 4 s (w.setS d.toNat ((maskOf (fun l => (w.txl l).stat)).zeroExtend 64) false))) ∧
    (Clear s { guard := g, cls := .memory, regs := [vop1 d] } →
      exec (.txcause d g) s = .next (fellW 4 s (w.lanesTo false d.toNat (w.active g) (fun l =>
        let t := w.txl l
        (BitVec.ofNat 64 (t.cause + (if t.cause = 6 then 16 * t.code else 0) + (if t.irr then 256 else 0) + (if t.lost then 512 else 0)),
          false)))))

/-- What a lane reads through its logs (R246): a write of an ACTIVE lane is seen by its next read of the same bytes, which
changes nothing, and no memory changes. -/
def Obligations.TransactionReadsItsOwnWrite : Prop :=
  ∀ (s t : State) (l size : Nat) (p : Pass) (v : W64), l < 32 → (size = 1 ∨ size = 2 ∨ size = 4 ∨ size = 8) → p.key % size = 0 →
    logWrite l size p v false s = (t, true) →
    t.mem = s.mem ∧ ∃ bad, logRead l size p t = (t, some (BitVec.ofNat 64 (v.toNat % 2 ^ (8 * size)), bad))

/-- The copies issue (R280 to R285, R287, R290): where the checks of a slice pass and its range-lock entries are free, the copy
is outstanding with the next copy number, CP and CPSEQ rise, and no byte of memory and no register changes, unless BMODE 2 or
3 adds the copy's size to its barrier object. The warp issues nothing further (R281) while accesses of its own are still to be
performed (R237), while the fabric refuses a read of the descriptor or of the shape record (R384, R385; stall code 3 and when
these reads are made is the model's reading, log 166), and while entries are lacking (R239). A CPC waits until its
collective has run. CPQ reads a copy's state, and the poison of s[a] goes to s[d] (log 61); CPCAN marks a copy cancelled. The
lines of the descriptor that IRREVOCABLE lanes read join their Tabard's line set (R260). -/
def Obligations.CopiesIssue : Prop :=
  ∀ (s : State) (d a : BitVec 6) (b : BitVec 4) (g : Bool),
    let w := s.w
    let blk := 4 * b.toNat
    let da := (w.sr a.toNat).bits
    let issues (f : CopyForm) (i : Instr) : Prop :=
      ∀ s0, readsOut s (issueReads f w a.toNat blk) = (s0, true) →
      ∀ p, prepare f s0 w da blk = .ok p → locksFree s p.locks = true →
        (p.desc.bmode ≤ 1 ∨ ((readBar s p.barKey).valid = true ∧ (readBar s p.barKey).retired = false)) →
        w.resident = true → p.slice.wid = w.wid → (∀ v ∈ s.others, v.wid ≠ w.wid) →
        ∃ t, exec i s = .next (fell 4 t) ∧ t.w = w.copyStarts s.nextCopy ∧ t.nextCopy = s.nextCopy + 1 ∧
          (∃ c, t.copies = s.copies ++ [c] ∧ c.id = s.nextCopy ∧ c.form = f ∧ c.descAddr = da ∧ c.desc = p.desc ∧ c.slices = [p.slice] ∧
            c.size = p.size ∧ c.done = 0 ∧ c.ending = 0) ∧
          (p.desc.bmode ≤ 1 → t.mem = s.mem) ∧
          (2 ≤ p.desc.bmode → t.mem = (writeBar p.barKey
            ({ readBar s p.barKey with txcnt := ((readBar s p.barKey).txcnt + p.size) % 2 ^ 32 } : BarObj).check s).mem)
    let crowded (f : CopyForm) (i : Instr) : Prop :=
      (∀ s0, readsOut s (issueReads f w a.toNat blk) = (s0, false) → exec i s = .next (blocked 3 s0)) ∧
      ∀ s0, readsOut s (issueReads f w a.toNat blk) = (s0, true) →
        ∀ p, prepare f s0 w da blk = .ok p → locksFree s p.locks = false → exec i s = .next (blocked 18 s0)
    let early (i : Instr) : Prop := w.allPerformed = false ∨ s.tileBusy = true → exec i s = .next (blocked 3 s)
    let note (t : State) : State := noteReads (w.active g) [da] t
    NoTx s g →
    (Clear s { guard := g, cls := .copy, scals := [a.toNat, blk, blk + 1, blk + 2, blk + 3]
               uses := [useS a, { sc := true, n := blk }, { sc := true, n := blk, off := 1 }, { sc := true, n := blk, off := 2 }
                 , { sc := true, n := blk, off := 3 }] } → w.cp < 63 →
      (early (.cpld a b g) ∧ early (.cpst a b g) ∧ early (.cpred a b g) ∧ early (.cpg a b g) ∧ early (.cpw a b g) ∧ early (.cpc a b g)) ∧
      (w.allPerformed = true → s.tileBusy = false →
      issues .cpld (.cpld a b g) ∧ issues .cpst (.cpst a b g) ∧ issues .cpred (.cpred a b g) ∧ issues .cpg (.cpg a b g) ∧
      issues .cpw (.cpw a b g) ∧
      crowded .cpld (.cpld a b g) ∧ crowded .cpst (.cpst a b g) ∧ crowded .cpred (.cpred a b g) ∧ crowded .cpg (.cpg a b g) ∧
      crowded .cpw (.cpw a b g) ∧
      (w.grant = some .done → exec (.cpc a b g) s = .next (fell 4 (note s))) ∧
      (w.grant = none → (∀ x ∈ (s.wg w.wg).cpc, x.wid ≠ w.wid) →
        (∀ s0, readsOut s [da] = (s0, false) → exec (.cpc a b g) s = .next (blocked 3 s0)) ∧
        ∀ s0, readsOut s [da] = (s0, true) →
          let t := cpcTry w.wg (s0.setWg w.wg { s.wg w.wg with
            cpc := (s.wg w.wg).cpc ++ [{ wid := w.wid, desc := da, blk := blk, act := w.active g }] })
          t.w.wg = w.wg →
          (t.w.grant = some .done → exec (.cpc a b g) s = .next (fell 4 (note t))) ∧
          (t.w.grant = none → exec (.cpc a b g) s = .next (blocked 9 t))))) ∧
    (Clear s { guard := g, cls := .copy, scals := [d.toNat, a.toNat] } →
      exec (.cpq d a g) s = .next (fellW 4 s (w.setS d.toNat (BitVec.ofNat 64 (w.cpseq +
        (match w.track (bits da 15 0) with
          | some t => t.state * 2 ^ 16 + min (deliveredBy s t) 0xFFFFFFFF * 2 ^ 32
          | none => 0))) (w.sr a.toNat).bad))) ∧
    (Clear s { guard := g, cls := .copy, scals := [a.toNat] } →
      exec (.cpcan a g) s = .next (fell 4 (match w.track (bits da 15 0) with
        | some t => if t.state = 1 then { s with copies := s.copies.map (fun c => if c.id == t.copy then { c with cancel := true } else c) } else s
        | none => s)))

/-- The tile instructions issue (R265, R269, R292 to R302): where the warp's workgroup owns its core's array and the operands are
legal, each queues its operation behind those of the array and raises TL; the configuration and the tag that later issues
see change at once; no tile, accumulator, register or byte of memory changes before the operation is performed. -/
def Obligations.TileInstructionsIssue : Prop :=
  ∀ (s : State) (d3 a3 b3 : BitVec 3) (d2 a2 : BitVec 2) (d a b : BitVec 6) (g : Bool),
    let w := s.w
    let act := w.active g
    let x := (w.sr a.toNat).bits
    let y := (w.sr b.toNat).bits
    let queues (i : Instr) (op : TileOp) (t : State) : Prop := exec i s = .next (fell 4 (queueTile w.wid op t))
    let word (op : BitVec 7) (d a b : BitVec 6) (fn : BitVec 4) : W64 := wordA op d a b fn g false
    let traps (i : Instr) (v : W64) : Prop := exec i s = .next (raise (trapOf 0x01 v act false) s)
    ownsArray s = true → w.tl < 63 →
    (Clear s { guard := g, cls := .tile, scals := [a.toNat], uses := [useS a] } →
      (cfgOk x = true → queues (.tcfg d3 a g) (.cfg d3.toNat (x.extractLsb' 0 21)) (setIssuedCfg w.core d3.toNat (x.extractLsb' 0 21) s)) ∧
      (cfgOk x = false → traps (.tcfg d3 a g) x)) ∧
    (Clear s { guard := g, cls := .tile } →
      queues (.tzero d3 g) (.tzero d3.toNat) s ∧
      queues (.azero d2 g) (.azero d2.toNat) (setIssuedTag w.core d2.toNat 0 s) ∧
      (mmaOk s d2.toNat a3.toNat b3.toNat = true →
        queues (.mma d2 a3 b3 g) (.mma d2.toNat a3.toNat b3.toNat w.p.sat) (tagAfter a3.toNat d2.toNat s)) ∧
      (mmaOk s d2.toNat a3.toNat b3.toNat = false → traps (.mma d2 a3 b3 g) (word 0x64 (in6 d2) (in6 a3) (in6 b3) 0)) ∧
      (∀ tag, tag = issuedTag s a2.toNat →
        tcvtOk tag (cfgType (issuedCfg s d3.toNat)) = true → cfgCols (issuedCfg s d3.toNat) ≤ (if tag = 3 then 32 else 64) →
          queues (.tcvt d3 a2 g) (.cvt d3.toNat a2.toNat w.p.rm w.p.sat) s) ∧
      (∀ p lead, (lead = true ∨ lead = false) → (s.wg w.wg).pair = true → (w.core % 2 == 0) = lead →
        (w.block = some 16 → w.grant = some .done → exec (if lead then .mmap d2 a3 b3 g else .mmapF d2 a3 b3 g) s = .next (fell 4 s)) ∧
        (w.block ≠ some 16 → mmaOk s d2.toNat a3.toNat b3.toNat = true → partnerOf s w.wg = some p → pairNow s p = none →
          let t := s.setWg w.wg { s.wg w.wg with
            pairWait := (s.wg w.wg).pairWait ++ [{ wid := w.wid, d := d2.toNat, a := a3.toNat, b := b3.toNat, sat := w.p.sat }] }
          let u := if lead then pairTry w.wg p t else pairTry p w.wg t
          (u.w.grant = some .done → exec (if lead then .mmap d2 a3 b3 g else .mmapF d2 a3 b3 g) s = .next (fell 4 u)) ∧
          (u.w.grant = none → exec (if lead then .mmap d2 a3 b3 g else .mmapF d2 a3 b3 g) s = .next (blocked 16 u))))) ∧
    (Clear s { guard := g, cls := .tile, scals := [b.toNat], uses := [useS b] } →
      y.getLsbD 3 = false → bits y 63 7 = 0 → indexTileOk (issuedCfg s (bits y 6 4)) = true → mmaOk s d2.toNat a3.toNat (bits y 2 0) = true →
        queues (.mmag d2 a3 b g) (.mmag d2.toNat a3.toNat (bits y 2 0) (bits y 6 4) w.p.sat) (tagAfter a3.toNat d2.toNat s)) ∧
    (Clear s { guard := g, cls := .tile, regs := [{ n := d.toNat, cnt := 8 }], scals := [b.toNat], uses := [useS b] } →
      bits y 7 6 = 0 → bits y 63 14 = 0 → (issuedTag s a2.toNat = 3 → d.toNat % 2 = 0) →
        queues (.tmovv d a2 b g) (.movv (w.p.wbase + d.toNat) a2.toNat (bits y 5 0) (bits y 13 8) act) s) ∧
    (Clear s { guard := g, cls := .tile, scals := [a.toNat, b.toNat], uses := [useS a, useS b] } →
      let c := issuedCfg s d3.toNat
      let pitch := bits y 15 0
      (bits y 63 16 = 0 → pitch ≠ 0 → pitch % 32 = 0 → rowLen c ≤ pitch → ∀ key,
        (tileRange s x 32 (((scratchRows c).1 - 1) * pitch + rowLen c) .read = .ok key → queues (.tld d3 a b g) (.load d3.toNat key pitch) s) ∧
        (tileRange s x 32 (((scratchRows c).1 - 1) * pitch + rowLen c) .write = .ok key → queues (.tst d3 a b g) (.store d3.toNat key pitch) s)) ∧
      (isBlock (cfgType c) = true → bits y 31 16 = 0 → (if cfgType c = 25 then bits y 63 40 else bits y 63 32) = 0 → pitch % 16 = 0 →
        cfgCols c / 32 ≤ pitch → ∀ key, tileRange s x 16 ((cfgRows c - 1) * pitch + cfgCols c / 32) .read = .ok key →
          queues (.tlds d3 a b g) (.scales d3.toNat key pitch (y.extractLsb' 32 8)) s))

/-- The engines' events (R203, R204, R239, R241, R269, R272, R287, R294 to R302): MXA_OPERATION performs the oldest operation of
a core's array once the warp's earlier scratch accesses are performed, and TL falls. TCFG, TZERO and AZERO clear; TLD fills
every element of its tile from its scratch rows, TST stores them, and TLDS loads the scale store; MMA, MMAG and the two halves
of a paired MMA add the product into the accumulator, the follower with the B that its leader has sent; TMOVV writes the
registers of the lanes that issued it, and TCVT a tile. COPY_ROW moves the next row of a copy whose pages allow it and whose
accesses the fabric takes, and sends it again otherwise; with BMODE 1 to 3 the row's bytes leave the barrier object, or where
that step cannot be made the copy is to end with HANDLE (R286). With its last row the copy ends: the rest of its size leaves
the object with the arrival of BMODE 3, a record is written where the descriptor asks for one, and CP falls; while the ring
has no room the end waits (R288, R369). RANGE_LOCK_RELEASE drops the entries of a copy that has ended in an earlier cycle. -/
def Obligations.EngineEventsComplete : Prop :=
  ∀ (s : State), (∀ v ∈ s.warps, v.live = true) →
    (∀ core j rest, (s.core core).mxa = j :: rest → tileReady s j = true → s.warp? j.wid = some s.w → s.w.wid = j.wid → s.w.resident = true →
      let c := s.core core
      let performs (t : State) (w : Warp) : Prop :=
        exec (.mxaOperation core) s = .next { t.setCore core { t.core core with mxa := rest } with
          w := { w with tls := markDone w.tls j.id } }
      let does (c' : Core) : Prop := performs (s.setCore core c') s.w
      (∀ d, j.op = .tzero d → does (c.setTile d { cfg := (c.tile d).cfg })) ∧
      (∀ d, j.op = .azero d → does (c.setAcc d {})) ∧
      (∀ d cfg, j.op = .cfg d cfg → does (c.setTile d { cfg := cfg })) ∧
      (∀ d key pitch, j.op = .load d key pitch → ∃ t : Tile, does (c.setTile d t) ∧
        t.cfg = (c.tile d).cfg ∧ t.scale = (c.tile d).scale ∧ ∀ q < (scratchRows t.cfg).1, ∀ e < (scratchRows t.cfg).2,
          look 0 t.el (tileIdx t.cfg q e) =
            BitVec.ofNat 64 (elemAt (cfgType t.cfg) (loadBytes s (key + q * pitch) (rowLen t.cfg)) e)) ∧
      (∀ n key pitch, j.op = .store n key pitch →
        let t := c.tile n
        let rows := (scratchRows t.cfg).1
        let row (q : Nat) : List Byte := packElems (cfgType t.cfg)
          ((List.range (scratchRows t.cfg).2).map (fun e => (look 0 t.el (tileIdx t.cfg q e)).toNat))
        performs (storeTile key pitch t s) s.w ∧
        ((∀ q < rows, (row q).length ≤ pitch) → ∀ q < rows, ∀ i < (row q).length,
          (storeTile key pitch t s).byte (key + q * pitch + i) = (row q).getD i 0) ∧
        (∀ a, (∀ q < rows, ¬(key + q * pitch ≤ a ∧ a < key + q * pitch + (row q).length)) →
          (storeTile key pitch t s).byte a = s.byte a)) ∧
      (∀ d key pitch bias, j.op = .scales d key pitch bias → does (c.setTile d (loadScales s key pitch bias (c.tile d)))) ∧
      (∀ d a b sat, j.op = .mma d a b sat → does (c.setAcc d (mmaInto (c.tile a) (c.tile b) sat (c.acc d)))) ∧
      (∀ d a b x sat, j.op = .mmag d a b x sat → does (c.setAcc d (mmagInto (c.tile a) (c.tile b) (c.tile x) sat (c.acc d)))) ∧
      (∀ d a b sat pair, j.op = .lead d a b sat pair →
        let t := s.setCore core (c.setAcc d (mmaInto (c.tile a) (c.tile b) sat (c.acc d)))
        performs (t.setCore (core + 1) { t.core (core + 1) with
          fromLeader := (t.core (core + 1)).fromLeader ++ [(pair, c.tile b)] }) s.w) ∧
      (∀ d a b sat pair sent, j.op = .follow d a b sat pair → c.fromLeader.find? (fun x => x.1 == pair) = some (pair, sent) →
        let c1 := { c with fromLeader := c.fromLeader.filter (fun x => x.1 != pair) }.setTile b sent
        does (c1.setAcc d (mmaInto (c1.tile a) sent sat (c1.acc d)))) ∧
      (∀ d a b sat pair, j.op = .follow d a b sat pair → c.fromLeader.find? (fun x => x.1 == pair) = none →
        exec (.mxaOperation core) s = .next s) ∧
      (∀ x a row col act, j.op = .movv x a row col act → performs s { s.w with v := (lanesOf act).foldl (fun v l =>
        ((movvWords (c.acc a) row col l).zipIdx).foldl (fun v y => put {} v (32 * (x + y.2) + l) y.1) v) s.w.v }) ∧
      (∀ d a rm sat, j.op = .cvt d a rm sat → does (c.setTile d (cvtTile (c.acc a) rm sat (c.tile d))))) ∧
    (∀ c sl pages t taken, s.copies.find? (fun x => x.id == c.id && x.ending == 0) = some c → c.stop = 0 → c.cancel = false →
      c.held = false → c.blocked s = false → c.slices.find? (fun x => x.nextRow < x.rows) = some sl →
      c.checkRow sl s sl.nextRow = .ok pages → c.sendRow sl sl.nextRow pages s = (t, taken) →
      let becomes (u : State) : Prop := exec (.copyRow c.id) s = .next u
      let row := c.desc.rowBytes
      let moved := c.moveRow sl sl.nextRow pages t
      let c1 : Copy := { c with done := c.done + row
                                slices := c.slices.map (fun x => if x.wid == sl.wid then { x with nextRow := x.nextRow + 1 } else x) }
      let b := readBar moved c.barKey
      let steps : Prop := b.valid = true ∧ b.retired = false ∧ (c.desc.bmode = 3 → b.pend ≠ 0)
      let minus (n : Nat) : Nat := (b.txcnt + 2 ^ 32 - n % 2 ^ 32) % 2 ^ 32
      (taken = false → becomes t) ∧
      (taken = true → (∃ x ∈ c1.slices, x.nextRow < x.rows) →
        (c.desc.bmode = 0 → becomes (setCopy c1 moved)) ∧
        (c.desc.bmode ≠ 0 → steps → becomes (setCopy { c1 with subtracted := c.subtracted + row }
          (writeBar c.barKey ({ b with txcnt := minus row } : BarObj).check moved))) ∧
        (c.desc.bmode ≠ 0 → ¬ steps →
          becomes (setCopy { c1 with subtracted := c.subtracted + row, cause := if c.cause = 0 then 0x07 else c.cause } moved))) ∧
      (taken = true → (∀ x ∈ c1.slices, x.rows ≤ x.nextRow) → c.cause ≠ 0x07 → (c.desc.bmode = 0 ∨ steps) →
        let u := setCopy c1 moved
        (c.desc.stat = true → ringFull u c.ctx 2 = true → becomes (setCopy { c1 with stop := 1 } u)) ∧
        (c.desc.stat = false ∨ ringFull u c.ctx 2 = false →
          let v := if c.desc.bmode = 0 then u else writeBar c.barKey
            ({ b with txcnt := minus (c.size - c.subtracted), pend := if c.desc.bmode = 3 then b.pend - 1 else b.pend } : BarObj).check u
          let r := if c.desc.stat then ringWrite c.ctx 2 (c1.record u 1) v else v
          becomes (setCopy { c1 with ending := 1, stop := 0 }
            (c1.slices.foldl (fun s x => s.modWarp x.wid (fun w => w.copyEnds c1 1)) r))))) ∧
    (∀ id, s.copies.any (fun c => c.id == id && c.ending != 0 && c.ripe) = true →
      ∃ t, exec (.rangeLockRelease id) s = .next t ∧ t.mem = s.mem ∧ t.copies = s.copies.filter (fun c => c.id != id) ∧
        ∀ e ∈ t.cores, ∀ l ∈ e.2.locks, l.copy ≠ id) ∧
    (∀ id, s.copies.any (fun c => c.id == id && c.ending != 0 && c.ripe) = false → exec (.rangeLockRelease id) s = .next s)

/-- The elements of a tile in memory (R268): packed into bytes and read back, each element of a type of 4, 6, 8, 16, 32 or 64
bits is what it was. -/
def Obligations.ElementPackingRoundTrip : Prop :=
  ∀ (ty : Nat) (xs : List Nat) (i : Nat), typeBits ty ∈ [4, 6, 8, 16, 32, 64] → xs.length % packUnit ty = 0 →
    (∀ x ∈ xs, x < 2 ^ typeBits ty) → i < xs.length → elemAt ty (packElems ty xs) i = xs.getD i 0

/-- The geometry and tile instructions (R312, R313, R315, R318 to R320): MSEMITV and MSEMITP emit the vertices and primitives of
the active lanes, ascending, and block the warp while the VAM's queue is full (R65); VAMP sets the meshlet's view mask and
empties its slots, after its close arrivals; RTFETCH hands a buffer in, last in the order of hand-in (R325), and takes the
oldest finished tile whose deadline has not come (R335), or waits; VTDONE answers what its token names: INVALID, DUPLICATE,
LATE, which it counts, or ON_TIME; GAZE reads a latch. -/
def Obligations.GraphicsInstructionsComplete : Prop :=
  ∀ (s : State) (d a b : BitVec 6) (g : Bool),
    let w := s.w
    let act := w.active g
    let x := (w.sr a.toNat).bits
    let calm (m : BitVec 16) : Prop := (viewsOf m).any (viewStalled s) = false
    let emits (i : Instr) (t : State) : Prop :=
      (vamFull s w.cluster = true → exec i s = .next (blocked 19 s)) ∧
      (vamFull s w.cluster = false → ¬ calm w.vmask → exec i s = .next (waits 19 s)) ∧
      (vamFull s w.cluster = false → calm w.vmask → exec i s = .next (fell 4 t))
    NoTx s g →
    ((Clear s { guard := g, cls := .graphics, regs := [{ n := a.toNat, cnt := 3 }, vop1 b], uses := [{ n := a.toNat, cnt := 3 }, useV1 b] } →
        emits (.msemitv a b g) ((lanesOf act).foldl (emitVertex a.toNat b.toNat) s)) ∧
      (Clear s { guard := g, cls := .graphics, regs := [{ n := a.toNat, cnt := 1 }, vop1 b], uses := [{ n := a.toNat, cnt := 1 }, useV1 b] } →
        emits (.msemitp a b g) ((lanesOf act).foldl (emitPrim a.toNat b.toNat) s))) ∧
    (Clear s { guard := g, cls := .graphics, scals := [a.toNat], uses := [useS a] } → bits x 63 17 = 0 → calm (x.extractLsb' 0 16) →
      let m : BitVec 16 := x.extractLsb' 0 16
      (x.getLsbD 16 = false → exec (.vamp a g) s = .next (fellW 4 s { w with vmask := m, verts := [], prims := 0 })) ∧
      (x.getLsbD 16 = true → (s.cluster w.cluster).vamq = [] →
        let t := (viewsOf m).foldl closeArrival s
        exec (.vamp a g) s = .next (fell 4 { t with w := { w with vmask := m, verts := [], prims := 0 } }))) ∧
    (Clear s { guard := g, cls := .graphics, scals := [d.toNat, a.toNat], uses := [useS a] } → bits x 63 9 = 0 →
      let l := look {} (s.view (bits x 3 0)).lat (bits x 7 4)
      exec (.gaze d a g) s = .next (fellW 4 s (w.setS d.toNat
        (if x.getLsbD 8 then BitVec.ofNat 64 (l.frame % 2 ^ 24 + (if l.valid then 2 ^ 24 else 0)) else l.gy ++ l.gx) false))) ∧
    (Clear s { guard := g, cls := .graphics, scals := [d.toNat, d.toNat + 1, a.toNat], uses := [useS a] } →
      let pair (w : Warp) (k : W64 × W64) : Warp := (({ w with handed := none } : Warp).setS d.toNat k.1 false).setS (d.toNat + 1) k.2 false
      (∀ u, (w.block ≠ some 20 → bits x 63 8 = 0 ∧ x.getLsbD 6 = false) → oldestTile s w.wg = u →
        (∀ y, u = some y → exec (.rtfetch d a g) s = .next (fell 4 { s with
          tiles := updFirst y.same (fun z => { z with st := .fetched, bound := false }) s.tiles
          w := pair w (tokenOf y (s.wg w.wg).rank) })) ∧
        (u = none → x.getLsbD 7 = true →
          exec (.rtfetch d a g) s = .next (fellW 4 s (pair w (BitVec.allOnes 64, BitVec.allOnes 64)))) ∧
        (u = none → x.getLsbD 7 = false → exec (.rtfetch d a g) s = .next (blocked 20 s))) ∧
      (w.block ≠ some 20 → bits x 63 8 = 0 → x.getLsbD 6 = true → mayHandIn s (bits x 5 0) = true → w.allPerformed = true → s.tileBusy = false →
        let s1 := ({ s with w := { w with handed := some (bits x 5 0) } } : State).setWg w.wg { s.wg w.wg with
          handOrder := (s.wg w.wg).handOrder.erase (bits x 5 0) ++ [bits x 5 0] }
        let t := placeTiles w.cluster (s1.setCluster w.cluster
          { s.cluster w.cluster with hand := (s.cluster w.cluster).hand ++ [({ wg := w.wg, h := bits x 5 0 } : HandIn)] })
        oldestTile t t.w.wg = none → x.getLsbD 7 = false → exec (.rtfetch d a g) s = .next (blocked 20 t)) ∧
      (w.block ≠ some 20 → bits x 63 8 = 0 → x.getLsbD 6 = true → mayHandIn s (bits x 5 0) = false →
        exec (.rtfetch d a g) s = .next (raise (trapOf 0x07 x act false) s))) ∧
    (Clear s { guard := g, cls := .graphics, scals := [d.toNat, a.toNat, a.toNat + 1], uses := [useS a] } → s.tileBusy = false →
      let y := w.sr (a.toNat + 1)
      (tileNamed s x = none → exec (.vtdone d a g) s = .next (fellW 4 s (w.setS d.toNat 3 false))) ∧
      (∀ t seg off, tileNamed s x = some t → y.bad = false → pixelBlock s t y.bits = .ok (seg, off) → w.allPerformed = true →
        (t.named = true ∨ t.st = .done → exec (.vtdone d a g) s = .next (fellW 4 s (w.setS d.toNat 2 false))) ∧
        (t.named = false → t.st ≠ .done → (t.st = .substituted ∨ overdue s t = true) →
          let v := s.setView t.view { s.view t.view with late := bumpBy 1 (s.view t.view).late }
          exec (.vtdone d a g) s = .next (fell 4 { v with
            tiles := updFirst t.same (fun z => { z with named := true }) v.tiles, w := w.setS d.toNat 1 false })) ∧
        (t.named = false → t.st ≠ .done → t.st ≠ .substituted → overdue s t = false →
          let u := returnBuffers t.same s
          let v := placeTiles t.cluster { u with tiles := updFirst t.same (fun z => { z with st := .done, bound := false, named := true }) u.tiles }
          let r := readPixels t ((s.view t.view).recOk.getD {}) (scratchKey seg off) (4 * bits y.bits 47 36) v
          exec (.vtdone d a g) s = .next (fell 4 { r with w := r.w.setS d.toNat 0 false }))))

/-- The texture and ray instructions (R328 to R334): a texture form reads its descriptor after the accesses that the warp has
issued, and issues one operation of the accesses of all its lanes; TEXQ's registers are known at issue; RAYL and RAYLW start a
batch with the next batch number, which s[d] takes; RAYR delivers the results of a complete batch. That the accesses issued
before are performed before a descriptor or a record is read, and that RAYR waits until its batch is complete, with stall code
3, are the model's choice (log 83); the instruction waits while ray batches before it are to be traversed (R225, R328, log 83), or
while an access cannot leave the device (R384), and the warp while the fabric refuses one of its reads (R385, log 166). Each for lanes that have begun no transaction. -/
def Obligations.TextureAndRayInstructionsComplete : Prop :=
  ∀ (s : State) (d a b : BitVec 6) (g : Bool),
    let w := s.w
    let act := w.active g
    let issues (i : Instr) (m : MemOp) (t : State) : Prop := exec i s = .next (fell 4 (issueOp m t))
    let u := runAllOps w.wid s
    let ready : Prop := w.raysOpen = false ∧ ∀ o ∈ u.w.ops, o.todo = []
    let early (i : Instr) : Prop := (w.raysOpen = true → exec i s = .next (waits 3 s)) ∧
      (w.raysOpen = false → (∃ o ∈ u.w.ops, o.todo ≠ []) → exec i s = .next (waits 3 u))
    Untouched s g →
    (Clear s { guard := g, cls := .graphics, regs := [{ n := d.toNat, cnt := 4 }, { n := a.toNat, cnt := 3 }], scals := [b.toNat]
               uses := [useS b, { n := a.toNat, cnt := 3 }] } → w.ld < 63 →
      (early (.tex d a b g) ∧ early (.texl d a b g) ∧ early (.texg d a b g) ∧ early (.texf d a b g) ∧ early (.texq d a b g)) ∧
      ∀ t, readsOut u [(w.sr b.toNat).bits] = (t, false) → ready →
        exec (.tex d a b g) s = .next (blocked 3 t) ∧ exec (.texl d a b g) s = .next (blocked 3 t) ∧
        exec (.texg d a b g) s = .next (blocked 3 t) ∧ exec (.texf d a b g) s = .next (blocked 3 t) ∧
        exec (.texq d a b g) s = .next (blocked 3 t)) ∧
    (w.ld < 63 → ready → ∀ t, readsOut u [(w.sr b.toNat).bits] = (t, true) →
      ∀ bs, peek t t.w (w.sr b.toNat).bits 64 64 = .bytes bs → texDescOk bs (texDescOf bs) = true →
      let td := texDescOf bs
      let reads (i : Instr) (form : TexForm) (n : Nat) : Prop :=
        Clear s { guard := g, cls := .graphics, regs := [{ n := d.toNat, cnt := 4 }, { n := a.toNat, cnt := n }], scals := [b.toNat]
                  uses := [useS b, { n := a.toNat, cnt := n }] } →
          ∀ t2, readsOut t ((lanesOf act).filterMap (mapByte t td form a.toNat)) = (t2, true) →
          ∀ (accs : Nat → List Acc) (outs : Nat → List (Nat × List Tap)), (∀ l, act.getLsbD l = true → texLane t2 td form a.toNat l = .ok (accs l) (outs l)) →
            issues i { cls := .ld, dst := .tex (t2.w.p.wbase + d.toNat) td.fmt ((lanesOf act).map (fun l => (l, outs l)))
                       todo := (lanesOf act).flatMap accs } t2
      reads (.tex d a b g) .tex 2 ∧ reads (.texl d a b g) .texl 3 ∧ reads (.texg d a b g) .texg 3 ∧ reads (.texf d a b g) .texf 3 ∧
      (Clear s { guard := g, cls := .graphics, regs := [{ n := d.toNat, cnt := 4 }, vop1 a], scals := [b.toNat], uses := [useS b, useV1 a] } →
        issues (.texq d a b g) { cls := .ld, dst := .vals (t.w.p.wbase + d.toNat) ((lanesOf act).map (fun l =>
          let k := (t.w.vl a.toNat l).bits.toNat
          (l, [td.lw k, td.lh k, td.levels, if td.park then 1 else 0].map (fun n => ({ bits := BitVec.ofNat 32 n } : LW))))) } t)) ∧
    (bits (w.sr b.toNat).bits 5 0 = 0 →
      let starts (t : State) (warped : Bool) (rays : List Ray) : State :=
        fell 4 { t with w := { t.w.setS d.toNat (BitVec.ofNat 64 t.w.rseq) false with
          rseq := (t.w.rseq + 1) % 65536
          batches := t.w.batches ++ [{ id := t.w.rseq, warped := warped, base := (w.sr b.toNat).bits, seq := t.w.opSeq
                                       level := t.w.tlevel, rays := rays }] } }
      (Clear s { guard := g, cls := .graphics, regs := [{ n := a.toNat, cnt := 8 }], scals := [d.toNat, b.toNat]
                 uses := [useS b, { n := a.toNat, cnt := 8 }] } →
        (w.batches.length < 8 → exec (.rayl d a b g) s = .next (starts s false ((lanesOf act).map (laneRay w a.toNat)))) ∧
        (8 ≤ w.batches.length → exec (.rayl d a b g) s = .next (waits 21 s))) ∧
      (Clear s { guard := g, cls := .graphics, scals := [d.toNat, a.toNat, b.toNat], uses := [useS a, useS b] } →
        early (.raylw d a b g) ∧
        (∀ t, ready → readsOut u [(w.sr a.toNat).bits] = (t, false) → exec (.raylw d a b g) s = .next (blocked 3 t)) ∧
        ∀ t, ready → readsOut u [(w.sr a.toNat).bits] = (t, true) →
        ∀ bs gr, peek t t.w (w.sr a.toNat).bits 64 64 = .bytes bs → gridNamed t (w64 (field bs 0 8)) = some gr → t.w.batches.length < 8 →
          exec (.raylw d a b g) s = .next (starts t true (warpedRays bs gr)))) ∧
    (Clear s { guard := g, cls := .graphics, regs := [{ n := d.toNat, cnt := 4 }], scals := [a.toNat], uses := [useS a] } → w.ld < 63 →
      let x := (w.sr a.toNat).bits
      let chunk := bits x 21 16
      bits x 30 22 = 0 → bits x 63 32 = 0 → ∀ y, w.batches.find? (fun z => z.id == bits x 15 0) = some y →
      (if y.warped then chunk < 32 else chunk = 0) →
      (y.done = false → exec (.rayr d a g) s = .next (waits 3 s)) ∧
      (y.done = true → (∀ l, act.getLsbD l = true → (rayFor y chunk l).bad = false) →
        issues (.rayr d a g) { cls := .ld, dst := .vals (w.p.wbase + d.toNat) ((lanesOf act).map (fun l =>
          let r := rayFor y chunk l
          (l, [r.t, r.prim, r.u, r.v].map (fun v => ({ bits := v } : LW))))) }
          (if x.getLsbD 31 then { s with w := { w with batches := w.batches.filter (fun z => z.id != y.id) } } else s)))

/-- CSRR, CSRW, CSRS and CSRC (R347, R350): a read gives the register's value; a write gives it s[d], or its bits set or cleared;
each register keeps the bits that it has, a read-only one its value; a value of TMODE with RM 5 to 7 or a reserved bit set traps
with ILLEGAL_OP (R338), and another leaves MODE in the bank; and a register's privilege that the path lacks traps with PRIV. -/
def Obligations.ControlRegistersComplete : Prop :=
  ∀ (s : State) (d : BitVec 6) (csr : BitVec 12),
    let w := s.w
    let n := csr.toNat
    let x := (w.sr d.toNat).bits
    let word (fn : BitVec 3) : W64 := zx (0x76#7 ++ d ++ fn ++ csr.zeroExtend 16)
    (Clear s { cls := .control, scals := [d.toNat] } →
      (csrPriv w n false = true → exec (.csrr d csr) s = .next (fellW 4 s (w.setS d.toNat (readCsr s n) false))) ∧
      (csrPriv w n false = false → exec (.csrr d csr) s = .next (raise (trapOf 0x17 (word 0) (w.active false) false) s))) ∧
    (Clear s { cls := .control, scals := [d.toNat], uses := [useS d] } → NoTx s false →
      let stores (i : Instr) (fn : BitVec 3) (v : W64) : Prop :=
        (csrPriv w n true = false → exec i s = .next (raise (trapOf 0x17 (word fn) (w.active false) false) s)) ∧
        (csrPriv w n true = true → exec i s =
          if (n = 0x114 ∨ n = 0x124) ∧ (5 ≤ bits v 16 14 ∨ bits v 31 21 ≠ 0) then .next (raise (trapOf 0x01 v (w.active false) false) s)
          else .next (fell 4 (writeCsr n v s)))
      stores (.csrw d csr) 1 x ∧ stores (.csrs d csr) 2 (readCsr s n ||| x) ∧ stores (.csrc d csr) 3 (readCsr s n &&& ~~~x)) ∧
    (readCsr s 0x000 = 32 ∧ readCsr s 0x100 = BitVec.ofNat 64 w.tlevel ∧ readCsr s 0x101 = w.tvec ∧ readCsr s 0x102 = w.tsave ∧
      readCsr s 0x011 = w.fflags.zeroExtend 64 ∧ readCsr s 0x013 = w.fsbase ∧ readCsr s 0x014 = w.fslim) ∧
    writeCsr 0x011 x s = { s with w := { w with fflags := x.truncate 5 } } ∧
    writeCsr 0x017 x s = { s with w := { w with agelim := max 16 (bits x 31 0) } } ∧
    writeCsr 0x101 x s = { s with w := { w with tvec := x &&& ~~~3#64 } } ∧
    writeCsr 0x102 x s = { s with w := { w with tsave := x &&& ~~~0x1FF#64 } } ∧
    writeCsr 0x103 x s = { s with w := { w with hsize := max 1 (min 8 (bits x 3 0)) } } ∧
    writeCsr 0x114 x s = { s with w := { w with bank1 := { w.bank1 with mode := lo32 x } } } ∧
    writeCsr 0x124 x s = { s with w := { w with bank2 := { w.bank2 with mode := lo32 x } } } ∧
    (∀ r ∈ [0x000, 0x001, 0x00B, 0x010, 0x012, 0x013, 0x014, 0x100, 0x104, 0x105], writeCsr r x s = s)

/-- TRAP, BRK and RETT (R339, R343, R344): TRAP raises USER_TRAP and BRK raises BREAKPOINT with the immediate; RETT restores from the
current bank, and the next instruction is that at TEPC, or the one behind it where SKIP is set; at trap level 0 it traps with
PRIV. -/
def Obligations.TrapsAndReturnComplete : Prop :=
  ∀ (s : State) (imm : BitVec 16),
    let w := s.w
    let act := w.active false
    let soft (c : Nat) : TrapInfo := { cause := c, tval := imm.zeroExtend 64, lanes := act, act := act, arg := imm.toNat }
    Clear s { cls := .control } →
    exec (.trap imm) s = .next (raise (soft 0x14) s) ∧
    exec (.brk imm) s = .next (raise (soft 0x13) s) ∧
    (w.tlevel = 0 → exec .rett s = .next (raise (trapOf 0x17 (zx (0x78#7 ++ 0#25)) act false) s)) ∧
    (w.tlevel ≠ 0 →
      let b := w.bank w.tlevel
      let p : Path := { st := .running, pc := b.tepc, frp := b.hfrp, wbase := b.wbase, fdepth := b.hfdepth, fsize := b.fsize
                        mode := b.mode, enter := b.enter, mask := b.hmask, r0 := b.hr0, r1 := b.hr1, r2 := b.hr2, r3 := b.hr3
                        lc0 := b.hlc0, lc1 := b.hlc1, lc2 := b.hlc2, lost := b.lost }
      let t : Warp := { w with p := if b.skip then p.fall (if b.lit then 8 else 4) else p, tlevel := w.tlevel - 1 }
      (w.q.held = false → w.fsrp = b.mark → w.p.fdepth = b.depth → t.need t.span t.p.window = .ready → t.parkOther = t →
        exec .rett s = .next (issued { s with w := t })) ∧
      (w.q.held = true ∨ w.fsrp ≠ b.mark ∨ w.p.fdepth ≠ b.depth →
        exec .rett s = .next (raise (trapOf 0x01 (zx (0x78#7 ++ 0#25)) act false) s)))

/-- Trap entry (R248, R300, R336 to R339, R345, R363): a raised trap that may enter at once saves the path and its state in the
bank of the next level, with the mark FSRP and the depth that RETT asks for, stacks the other slot's path as a SPLIT record, and
the handler runs at TVEC at that level with its mask, with MODE at its reset value, no reconvergence entry and no loop, in a
zeroed frame of HSIZE blocks beyond the path's; the lanes' transactions have aborted with TRAP, the cluster's conditions of KIND
5 with the cause that enters are met, and a paired workgroup's waits end with PAIR_FAULT. Where the FSE must move blocks first, the entry waits, and the
FSE works for the handler's window; where it cannot, a FRAME_FAULT enters all the same and another trap enters as a FRAME_FAULT
(R49). At level 2, without a TVEC, or without room, no entry begins and no condition of KIND 5 is met: the context meets a kill
(R345), which takes effect with the end of the cycle (log 154). The model's own readings: a trapping instruction counts as the path's issue (log 20); the handler's window
is zeroed in the lanes of the path alone (log 25); a FRAME_FAULT enters without the failed block (log 27); and the conditions of
KIND 5 hold from the next cycle on (log 148). -/
def Obligations.TrapEntryEnters : Prop :=
  ∀ (s : State) (t : TrapInfo),
    let w := s.w.abort fullMask 9 0
    let w0 : Warp := { w with p := { w.p with age := 0, ran := true, stall := none, want := none }, pend := some t, block := none
                              grant := none, retry := [], sleep := none, issued := true }
    let n := w.tlevel + 1
    let e := w0.entered n t
    let r := e.fsrp + 4 * 32 * e.topT
    let c := s.cluster w.cluster
    let meets (cause : Nat) (x : W64) : Bool := bits x 3 0 == 5 && bits x 63 16 % 256 == cause
    let enters (v : Warp) (cause : Nat) : Prop :=
      let u : State := { s with w := v.recordHwm r }
      let met (y : State) : State := if sampled c w.ctx then y.setCluster w.cluster { c with
        nextStart := c.nextStart || meets cause c.trigstart, nextStop := c.nextStop || meets cause c.trigstop } else y
      (partnerOf u w.wg = none → raise t s = met u) ∧
      (∀ p, partnerOf u w.wg = some p → raise t s =
        met ((u.wg p).pairWait.foldl (fun x y => giveGrant y.wid (.trap 0x0F 0) x) (u.setWg p { u.wg p with pairWait := [] })))
    let killed (reason cause : Nat) (tval : W64) : Prop :=
      raise t s = meetKill w.ctx ⟨reason, cause, w.die, w.core, w.warpid,
          killRecord { s with w := w0 } w.ctx reason cause w.tlevel w.p.pc tval t.lanes w0⟩
        { s with w := { w0 with pend := none, examA := true, examB := true } }
    let room : Prop := w.tlevel < 2 ∧ w.tvec ≠ 0 ∧ e.resvOk r = true
    let place := e.need e.span e.p.window
    (room → place = .ready → enters e t.cause) ∧
    (room → ∀ a, place = .failed a →
      (t.cause = 0x0C → enters e 0x0C) ∧
      (t.cause ≠ 0x0C → enters ((w0.entered n { t with cause := 0x0C, tval := a, lanes := t.act, arg := 0 }).clearFail a) 0x0C)) ∧
    (room → (place = .stall ∨ place = .parked) → raise t s = { s with w := w0 } ∧ w0.goal = (e.p.wbase, e.p.wbase + 8 * w.hsize)) ∧
    (w.tlevel = 2 → killed 0 t.cause t.tval) ∧
    (w.tlevel < 2 → w.tvec = 0 → killed 1 t.cause t.tval) ∧
    (w.tlevel < 2 → w.tvec ≠ 0 → e.resvOk r = false → killed 2 0x0B (BitVec.ofNat 64 r)) ∧
    (w.tlevel < 2 →
      e.tlevel = n ∧ e.pend = none ∧
      e.p = { st := .running, pc := w.tvec, frp := w.p.frp, wbase := w.p.wbase + 8 * w.p.fsize, fdepth := w.p.fdepth
              fsize := w.hsize, mask := w.p.mask, ran := true } ∧
      e.q = (if w.q.held then {} else w.q) ∧
      e.recs = (if w.q.held then
        { off := w.fsrp, order := w.pushes, body := .split { w.q with parked := false, stall := none, want := none, owed := none } } :: w.recs
        else w.recs) ∧
      e.fsrp = w.fsrp + (if w.q.held then 128 else 0) ∧
      e.bank n = { cause := t.cause, skip := t.cause == 0x14, lit := t.lit, arg := t.arg, tepc := w.p.pc, tval := t.tval
                   tmask := t.lanes, mode := w.p.mode, fsize := w.p.fsize, enter := w.p.enter, wbase := w.p.wbase
                   hmask := w.p.mask, hr0 := w.p.r0, hr1 := w.p.r1, hr2 := w.p.r2, hr3 := w.p.r3, hlc0 := w.p.lc0
                   hlc1 := w.p.lc1, hlc2 := w.p.lc2, hfrp := w.p.frp, hfdepth := w.p.fdepth, henter := w.p.enter
                   mark := e.fsrp, depth := w.p.fdepth, lost := w.p.lost } ∧
      (n = 2 → e.bank 1 = w.bank 1) ∧ (n = 1 → e.bank 2 = w.bank 2) ∧
      e.s = w.s ∧ e.pr = w.pr ∧ (∀ l, (w.p.mask.getLsbD l = true → ∀ k < 8 * w.hsize, e.vl k l = {})) ∧
      (∀ x l, x < w.p.wbase + 8 * w.p.fsize → l < 32 → look {} e.v (32 * x + l) = look {} w.v (32 * x + l)))

/-- YIELD, SLEEP, WAKE, PMARK and FRAMESYNC, and DLAUNCH and DJOIN (R62 to R64, R348, R349, R365, R381): a SLEEP completes with
the wake bit, which it clears, or with its timeout, and otherwise blocks the warp; WAKE sets wake bits; FRAMESYNC writes the
records to memory once the FSE has no spill or fill to make and no access of the warp is behind a ray batch, nor a batch of a handler to
be traversed (R55, R225); PMARK
meets the conditions of KIND 3 and makes a record, which is kept until the cycle's end where recording may still begin in it;
DLAUNCH appends a packet and s[d] takes the child's id; DJOIN reads a completed child's status, and waits for one that has not
completed. That a YIELD passes its warp over for the rest of its cycle and the next is the model's reading of R348 (log 21);
that a poisoned packet traps with ECC_UNCORRECTABLE, its choice (log 139); that a packet whose read the fabric refuses blocks
the warp, log 166. -/
def Obligations.SystemInstructionsComplete : Prop :=
  ∀ (s : State) (d a b : BitVec 6) (imm : BitVec 16) (g : Bool),
    let w := s.w
    let x := (w.sr a.toNat).bits
    let y := (w.sr b.toNat).bits
    NoTx s g →
    (Clear s { guard := g, cls := .control } → exec (.yield g) s = .next (fellW 4 s { w with yielded := 2 })) ∧
    (Clear s { guard := g, cls := .control, scals := [a.toNat], uses := [useS a] } →
      (w.wake = true → exec (.sleep a g) s = .next (fellW 4 s { w with wake := false, sleep := none })) ∧
      (w.wake = false → w.block ≠ some 12 → exec (.sleep a g) s = .next (blocked 12 { s with
        w := { w with sleep := if x = 0 then none else some x.toNat } })) ∧
      (w.wake = false → w.block = some 12 → w.grant = some .done → exec (.sleep a g) s = .next (fellW 4 s { w with sleep := none })) ∧
      (bits x 63 6 = 0 → (x.getLsbD 5 = true ∨ bits x 4 0 < (s.kernel w.kern).pktField 0x1C 1) →
        exec (.wake a g) s = .next (fell 4 (s.mapWarps (fun v => if wakes w x v then { v with wake := true } else v))))) ∧
    (Clear s { cls := .control } →
      (let t := trigHit 3 imm.toNat 16 s
       let c := t.cluster w.cluster
       let record := sampleBytes w w.tlevel w.p.pc w.p.mask imm.toNat 31 true w.onB
       let does (u : State) : Prop := exec (.pmark imm) s = .next (fell 4 u)
       (sampled c w.ctx = false → does t) ∧
       (sampled c w.ctx = true →
         (c.recording = true → does (putRecord w.cluster record
           (c.early.foldl (fun u bs => putRecord w.cluster bs u) (t.setCluster w.cluster { c with early := [] })))) ∧
         (c.recording = false → c.sampctl.getLsbD 24 = true → c.trigArm = true →
           does (t.setCluster w.cluster { c with early := c.early ++ [record] })) ∧
         (c.recording = false → (c.sampctl.getLsbD 24 = false ∨ c.trigArm = false) → does t))) ∧
      (w.fse = [] →
        (w.fseBusy = true → exec .framesync s = .next (blocked 4 s)) ∧
        (w.fseBusy = false → (w.raysBehind = true ∨ w.raysFrame = true) → exec .framesync s = .next (waits 3 s)) ∧
        (w.fseBusy = false → w.raysBehind = false → w.raysFrame = false → ∀ t, syncRecords s w = .ok t → exec .framesync s = .next (fell 4 t)))) ∧
    (Clear s { guard := g, cls := .control, scals := [d.toNat, a.toNat, b.toNat], uses := [useS a, useS b] } →
      bits x 6 0 = 0 → y.toNat ≤ 63 → w.allPerformed = true → s.tileBusy = false →
      (openToLaunch s y.toNat w.ctx = true → (s.queue y.toNat).waiting ≠ 2 ^ (s.queue y.toNat).log2n → openChildren s w.kern < 4096 →
        let t := noteReads (w.active g) [x] (dropL1 w.core s)
        (∀ u, readsOut t [x] = (u, false) → exec (.dlaunch d a b g) s = .next (blocked 3 u)) ∧
        ∀ u, readsOut t [x] = (u, true) →
          (∀ bs, peek u w x 128 128 = .bytes bs →
            let r := appendPkt y.toNat bs w.kern u
            exec (.dlaunch d a b g) s = .next (fell 4 { r.1 with w := r.1.w.setS d.toNat (BitVec.ofNat 64 r.2) false })) ∧
          (∀ f, peek u w x 128 128 = .fail f →
            exec (.dlaunch d a b g) s = .next (raise (trapOf f.cause f.tval (w.active g) false) s))) ∧
      (openToLaunch s y.toNat w.ctx = true →
        ((s.queue y.toNat).waiting = 2 ^ (s.queue y.toNat).log2n ∨ 4096 ≤ openChildren s w.kern) →
        exec (.dlaunch d a b g) s = .next (blocked 11 s)) ∧
      (openToLaunch s y.toNat w.ctx = false → exec (.dlaunch d a b g) s = .next (raise (trapOf 0x17 y (w.active g) false) s))) ∧
    (Clear s { guard := g, cls := .control, scals := [d.toNat, a.toNat], uses := [useS a] } →
      (joinStatus s w.kern x.toNat = none → exec (.djoin d a g) s = .next (blocked 10 s)) ∧
      (∀ n, joinStatus s w.kern x.toNat = some n →
        let t := if n = 0 then dropL1 w.core s else s
        exec (.djoin d a g) s = .next (fell 4 { t with w := w.setS d.toNat (BitVec.ofNat 64 n) false })))

/-- The steps of a warp's engines (R32, R38, R40, R41, R44, R47, R49, R53, R55, R339, R340, R348): a raised trap enters; the FSE
spills a block that may leave the ring to the block area, and fills one back, after the warp's own accesses to it (log 151), the
spill updating its core's L1 as a store does (R197); at the end of a cycle every path that did not issue in it is older by one,
up to 0xFFFFFFFF, but for frozen records; an aged stacked path takes a slot, whose path takes its record, at most once in a
cycle, each record being read from memory where FRAMESYNC has made that current, and not while a retry fault keeps it from being
read; an aged WAITING path pops its RSTK; an aged parked path is unparked and the other slot's path parks, whatever blocks the
warp (log 149); the slots then settle, and a read of a record that meets a retry fault is held; and a SLEEP times out. That a record
which a retry fault keeps from being read stays stacked and is not swapped in, that its read is held with a fault record of KIND 5, and
that a path whose read has failed is read again, are the model's reading (DEDUCED, log 164). -/
def Obligations.WarpEngineEventsComplete : Prop :=
  (∀ (s : State) (wid : Nat) (w : Warp), s.warp? wid = some w →
    let v := if w.fromMem then refreshSplits s w else w
    let becomes (x : Warp) : Host.Outcome State Fault Refusal :=
      let w1 := settleWith (fun _ => x.resettle) s w
      .next (w1.heldRecs.foldl (fun u off => holdRecord w1 off u) (s.modWarp wid (fun _ => w1)))
    (∀ t, w.pend = some t → s.w = w → s.w.resident = true → w.tlevel < 2 → w.tvec ≠ 0 →
      let e := w.entered (w.tlevel + 1) t
      e.resvOk e.entryResv = true → e.need e.span e.p.window = .ready →
      exec (.trapEntry wid) s = .next (trigEntry t.cause (pairEvent w.wg 0 { s with w := e.recordHwm e.entryResv }))) ∧
    (∀ j, j ∈ w.maySpill → blockAwaited s w j = false → ∀ e p, checkPage s w.ctx w.die (w.blockAddr j) .write = .ok (e, p) →
      p.resident = true → w.raysFrame = false → (ownMeets s w.wid p.key 1024 = true → w.raysBehind = false) →
      exec (.fseSpill wid j) s = .next ((storeMarked w (ownFirst w.wid p.key 1024 s) p.key (w.blockWords j)).modWarp w.wid (fun x =>
        { x with v := dropBlock x.v j, spilled := x.spilled ++ [j] }))) ∧
    (∀ j, w.mayFill = some j → ∀ e p, checkPage s w.ctx w.die (w.blockAddr j) .read = .ok (e, p) → p.resident = true →
      w.raysFrame = false → (ownMeets s w.wid p.key 1024 = true → w.raysBehind = false) →
      let t := ownFirst w.wid p.key 1024 s
      exec (.fseFill wid j) s = .next (t.modWarp w.wid (fun x =>
        { x with v := putBlock x.v j (loadMarked t p.key 128), spilled := x.spilled.filter (fun i => i != j) }))) ∧
    (v.free = true → v.swapped = false → ∀ r t, v.agedRec = some (r, t) →
      let into (a : Warp) : Warp :=
        if a.p.held then
          (a.setRec r.off (.split { a.p with parked := false, stall := none, want := none, owed := none })).enterSlot t
        else (a.freeRec r.off).enterSlot t
      (r.shut = true → exec (.ageingSwap wid) s = becomes v) ∧
      (r.shut = false → v.swapHere = true → exec (.ageingSwap wid) s = becomes { into v with swapped := true }) ∧
      (r.shut = false → v.swapHere = false → exec (.ageingSwap wid) s = becomes { (into v.flip).flip with swapped := true })) ∧
    (v.swapped = true → exec (.ageingSwap wid) s = becomes v) ∧
    (let into (a : Warp) : Warp := Warp.arrive a.fuel false { a with
       p := { a.p with parked := false }, q := if a.q.held then { a.q with parked := true, stall := none, want := none } else a.q }
     (v.p.parked = true → v.agelim ≤ v.p.age → exec (.parkedAgeSwap wid) s = becomes (into v)) ∧
     (v.p.parked = false → v.q.parked = true → v.agelim ≤ v.q.age → exec (.parkedAgeSwap wid) s = becomes (into v.flip).flip)) ∧
    (v.p.st = .waiting → v.agelim ≤ v.p.age →
      exec (.ageRelease wid v.onB) s = becomes
        (Warp.arrive v.fuel true { v with p := { v.p.popR with st := if v.p.popR.atJoin then .waiting else .running } }).ageFreeRecs) ∧
    (w.block = some 12 → w.sleep = some 0 → w = s.w → s.w.resident = true →
      exec (.sleepTimeout wid) s = .next { s with w := { w with grant := some .done } })) ∧
  (∀ (w : Warp),
    let age (p : Path) : Nat := if p.ran then p.age else min (p.age + 1) 0xFFFFFFFF
    (w.p.held = true → w.endCycle.p = { w.p with age := age w.p, ran := false }) ∧
    (w.q.held = true → w.endCycle.q = { w.q with age := age w.q, ran := false }) ∧
    (∀ r ∈ w.recs, ∀ p, r.body = .split p → p.held = true → ∃ x ∈ w.endCycle.recs, ∃ q, x.off = r.off ∧ x.body = .split q ∧
      q.age = (if w.freezeMark ≤ r.off then age p else p.age)) ∧
    w.endCycle.swapped = false ∧ w.endCycle.issued = false ∧ w.endCycle.lastCycle = false)

/-- The steps of the shared units (R259, R314, R316, R330): a Tabard that is free grants its oldest request; the VAM takes the
head of a cluster's queue and culls, transforms and bins it for each view; the WRS finishes the oldest FILLING tile of a
cluster, with the samples of its bin's polygons in the tile's buffer; and the RTU completes a batch with the result of each of
its rays, or holds it at a page that is not resident; it begins once the batches before it are complete, and no acquire of the warp
before it, nor an access of global memory, is still to be performed (R225, the model's reading, log 83), and makes its reads again where
the fabric refuses one (R385). The sampler and
the triggers (R361 to R363): a MODE 0 sample is taken of every scheduler of the cluster when CYCLE is a multiple of PERIOD,
which is the model's reading of R362 (log 88); a KIND 4 condition holds once CYCLE reaches its VALUE; and a write of TRIGSTAT
with ARM arms the trigger and clears ON and DONE. -/
def Obligations.UnitAndSamplingEventsComplete : Prop :=
  (∀ (s : State),
    (∀ dom wid rest, let t := tabardOf s (domOf dom)
      t.queue = wid :: rest → t.holder = none → grantable s (domOf dom) = true →
      exec (.tabardGrant dom) s = .next (setTabard { t with holder := some wid, queue := rest, lines := [] } s)) ∧
    (∀ c p rest, (s.cluster c).vamq = p :: rest → (viewsOf p.views).any (viewStalled s) = false →
      exec (.vamPrimitive c) s = .next ((viewsOf p.views).foldl (fun s n => s.setView n (vamView p (s.view n)))
        (s.setCluster c { s.cluster c with vamq := rest }))) ∧
    (∀ c t, s.tiles.find? (fun t => t.st == .filling && t.bound && t.cluster == c) = some t →
      let mine (t : VTile) : Bool := t.st == .filling && t.bound && t.cluster == c
      let grid := (s.view t.view).gridOf t.out t.frame t.strip
      let bin := if t.frame % 2 = 0 then (s.view t.view).bin0 else (s.view t.view).bin1
      let xs := rasterTile bin t.strip (grid.u, grid.v) t.tx t.ty
      let key (i : Nat) : Nat := scratchKey (look {} (s.wg t.wg).handles t.h).seg (16 * i)
      ∃ (m : List Host.Cell) (b : List (Nat × Bool)), exec (.wrsTileFinished c) s = .next { s with
          mem := m, bad := b, nextFin := s.nextFin + 1
          tiles := updFirst mine (fun t => { t with st := .finished, fin := s.nextFin, empty := xs.all (fun x => x.flags == 0) }) s.tiles } ∧
        (∀ i < 1024, let x := xs.getD i {}
          x.flags ≠ 0 → rdMem m (key i) 4 = x.depth.toNat ∧ rdMem m (key i + 4) 4 = x.prim.toNat ∧
            rdMem m (key i + 8) 4 = x.bary.toNat ∧ rdMem m (key i + 12) 4 = x.flags.toNat) ∧
        (∀ a, (∀ i < 1024, (xs.getD i {}).flags ≠ 0 → ¬(key i ≤ a ∧ a < key i + 16)) → look 0 m a = look 0 s.mem a)) ∧
    (∀ wid id w b, s.warp? wid = some w → w.batches.find? (fun b => b.id == id) = some b → b.done = false → b.held = [] →
      let becomes (t : State) : Prop := exec (.rayTraversalComplete wid id) s = .next t
      (mayTraverse w b = false → becomes s) ∧
      (∀ t taken, mayTraverse w b = true → sendAll w.ctx ((batchLines s w b).map (128 * ·)) s = (t, taken) →
        (taken = false → becomes t) ∧
        (taken = true → b.irr = false → b.results = [] →
          let ends (r : Ray) : Trav := (castRay t { w with tlevel := b.level } b.base r).1
          let batch (x : Batch) : State := t.modWarp wid (fun y =>
            { y with batches := y.batches.map (fun z => if z.id == id then x else z) })
          ((b.rays.map (fun r => r.slot)).Nodup → (∀ r ∈ b.rays, ∀ va, ends r ≠ .retry va) →
            becomes (batch { b with done := true, results := b.rays.map (fun r =>
              match ends r with
              | .hit h => resultOf r.slot h
              | .fail f => { slot := r.slot, cause := f.cause, addr := f.tval, bad := true }
              | .retry _ => {}) })) ∧
          (∀ r va, b.rays = [r] → ends r = .retry va →
            becomes (addFault w.die w.ctx va 0 (batch { b with held := [va] }))))))) ∧
  (∀ (s : State) (n : Nat) (x : W64),
    let c := s.cluster n
    (c.recording = true → c.sampctl.getLsbD 25 = false → c.cycle.toNat % bits c.sampctl 23 0 = 0 → c.sampledAt ≠ some c.cycle →
      let s1 := s.setCluster n { c with sampledAt := some c.cycle }
      exec (.sampleTick n) s = .next
        ((coresOf s n).foldl (fun s core => [0, 1, 2, 3].foldl (fun s d => sampleSched n core d s) s) s1)) ∧
    (bits c.trigstart 3 0 = 4 → bits c.trigstart 63 16 ≤ c.cycle.toNat →
      exec (.triggerCycleReached n) s = .next (s.setCluster n { c with hitStart := true, hitStop := c.stops })) ∧
    (bits c.trigstop 3 0 = 4 → bits c.trigstop 63 16 ≤ c.cycle.toNat →
      exec (.triggerCycleReached n) s = .next (s.setCluster n { c with hitStart := c.starts, hitStop := true })) ∧
    (x.getLsbD 2 = true →
      exec (.trigstatArm n x) s = .next (s.setCluster n { c with trigArm := true, trigOn := false, trigDone := false })) ∧
    (x.getLsbD 2 = false → exec (.trigstatArm n x) s = .next (s.setCluster n { c with trigArm := false })))

/-- The display's moments, the sinks, and the enables of views and outputs (R303, R305 to R307): each moment takes place when it
is due, and raises its own count by 1 and no other; a strip due at a trained link begins to be sent with its first line, and
with VTOTAL the lines of a frame, at a strip 0 only in a frame that is not rejected; the strips of a rejected frame are not
sent, and VTOTAL is 0; a link that drops stops sending, and sends again with the next O(f, 0), VTOTAL being 0 while nothing is
sent (log 157, the model's reading); enabling an output
starts it at strip 0 where its registers are legal and sets ERR where they are not, when the model does not run it (log 73);
disabling it stops it; enabling a view clears its counters and leaves its latches without VALID; and disabling one zeroes it
from the next strip (log 78). -/
def Obligations.DisplayEventsComplete : Prop :=
  ∀ (s : State) (n : Nat) (x : W64),
    (n < 4 →
      let o := s.out n
      let unsent : Out := { o with link := false, sending := false, line := none, pixels := [], vtotal := 0 }
      (o.run = true → o.nW = o.nD → o.f0 + o.nW * o.st ≤ s.dclk →
        ∃ t, exec (.stripWindowOpen n) s = .next t ∧ t = openWindow n s ∧ (t.out n).nW = o.nW + 1 ∧ (t.out n).nD = o.nD ∧
          (t.out n).nO = o.nO ∧ ∀ m, m ≠ n → t.out m = s.out m) ∧
      (o.run = true → o.nW ≠ o.nD → o.f0 + (o.nD + 1) * o.st ≤ s.dclk →
        ∃ t, exec (.stripDeadline n) s = .next t ∧ t = meetDeadline n s ∧ (t.out n).nD = o.nD + 1 ∧ (t.out n).nW = o.nW ∧
          (t.out n).nO = o.nO ∧ ∀ m, m ≠ n → t.out m = s.out m) ∧
      (∀ m px rest, o.run = true → o.nO < o.nD → o.f0 + (o.nO + 1) * o.st + 64000 ≤ s.dclk → o.link = true →
        (o.nO % 16 = 0 → o.bad = false) → (o.nO % 16 = 0 ∨ o.sending = true) → o.staged.filter (fun y => y.1 == o.nO) = (m, 0, px) :: rest →
        exec (.stripOutput n) s = .next (s.setOut n { o with
          nO := o.nO + 1, sending := true, vtotal := 16 * o.st / o.linecyc, line := some 0, pixels := px
          staged := rest ++ o.staged.filter (fun y => y.1 != o.nO) })) ∧
      (o.run = true → o.nO < o.nD → o.f0 + (o.nO + 1) * o.st + 64000 ≤ s.dclk → o.nO % 16 = 0 → o.bad = true →
        exec (.stripOutput n) s = .next (s.setOut n { o with
          nO := o.nO + 1, sending := false, vtotal := 0, line := none, pixels := []
          staged := o.staged.filter (fun y => y.1 != o.nO) })) ∧
      (∀ r m px rest, o.run = true → o.line = some r → o.f0 + o.nO * o.st + 64000 + (r + 1) * o.linecyc ≤ s.dclk →
        o.staged = (m, r + 1, px) :: rest → m + 1 = o.nO → o.link = true →
        exec (.displayLineStart n) s = .next (s.setOut n { o with line := some (r + 1), pixels := px, staged := rest })) ∧
      exec (.dpHotPlug n true) s = .next (s.setOut n (if o.link then { o with attached := true } else { unsent with attached := true })) ∧
      exec (.dpHotPlug n false) s = .next (s.setOut n { unsent with attached := false }) ∧
      (o.attached = true → exec (.linkTrainingDone n true) s = .next (s.setOut n { o with link := true, sending := o.sending && o.link })) ∧
      (o.attached = false → exec (.linkTrainingDone n true) s = .next (s.setOut n unsent)) ∧
      exec (.linkTrainingDone n false) s = .next (s.setOut n unsent) ∧
      (o.ctl.getLsbD 0 = false → let c := (x ||| 1#64) &&& 0xFF0F#64
        exec (.outputEnable n x) s = .next (s.setOut n { o with
          ctl := c, runCtl := c, runTiming := o.timing, run := !outRejected c o.timing, err := o.err || outRejected c o.timing
          f0 := s.dclk, nW := 0, nD := 0, nO := 0, bad := false, sending := false, line := none, staged := [], pixels := []
          vtotal := 0 })) ∧
      (o.ctl.getLsbD 0 = true → exec (.outputDisable n x) s =
        .next (stopOut n (s.setOut n { o with ctl := (x &&& ~~~1#64) &&& 0xFF0F#64 })))) ∧
    (n < 16 →
      let v := s.view n
      (v.vctl.getLsbD 0 = false → exec (.viewEnable n x) s = .next (s.setView n { v with
        vctl := (x ||| 1#64) &&& ~~~0x38#64, subst := 0, late := 0, drops := 0
        lat := v.lat.map (fun e => (e.1, { e.2 with valid := false })), g := 0, closes := 0, deferred := false
        bin0 := {}, bin1 := {} })) ∧
      (v.vctl.getLsbD 0 = true → exec (.viewDisable n x) s = .next (withdrawTiles (fun t => t.view == n) (s.setView n { v with
        vctl := (x &&& ~~~1#64) &&& ~~~0x38#64, admitted := false
        zeroFrom := if v.on then some (v.zeroFrom.getD (s.out v.out).nW) else none }))))

/-- The host's commands (R185, R188, R345, R346, R368, R369, R371, R380, R386), each on legal arguments and with what it sets,
ending with STATUS 0: REGISTER, UNREGISTER, TLBINV, REPLAY, PREEMPT, RESUME, KILL and GSTART; on a context that is not
registered they end with STATUS 2, in recovery with STATUS 3, and another code ends with STATUS 4; while a command is in
progress a write of CMD is discarded. A PREEMPT with no queue of the context as a PE queue is refused. A KILL writes the record
of the context's first resident warp, or of none, and clears EN of its queues, and writes no second record for a context that is
killed already. The model's choices: every command but TLBINV ends in the step that begins it (log 101), held records outlive
REGISTER and UNREGISTER (log 103), a second KILL writes no second record, and the record names the path on turn (log 104), a
KILL first ends one that still waits for its record (log 154), a PREEMPT or a RESUME during a stop waits for its end, and a
RESUME of a killed context runs it again (log 173), and images that another part wrote are not placed (log 174). -/
def Obligations.CommandsComplete : Prop :=
  ∀ (s : State) (ctx : BitVec 24),
    let n := ctx.toNat
    let c := s.ctx n
    let a := s.cmdarg0.toNat
    let on (code : Nat) : State := { s with cmd := w32 (code + 256 * n) }
    let ends (st : Nat) (t : State) : Host.Outcome State Fault Refusal := .next { t with cmdstatus := st }
    (s.cmdbusy = false → s.mc.recovery = false →
      (let bs := loadBytes s a 256
       n ≠ 0 → a % 256 = 0 → (inRange s 0 a 256 || inRange s 1 a 256) = true → ctxDescOk bs = true → c.live = false →
        (s.ctxs.filter (fun e => e.2.live)).length < 1024 →
        exec (.register ctx) s = ends 0 ((on 1).setCtx n { live := true, desc := a, ptroot := field bs 0 8, fpool := w64 (field bs 8 8)
                                                           fstride := field bs 0x10 4, gang := field bs 0x14 2, held := c.held })) ∧
      (c.live = true → hasWork s n = false → s.queues.any (fun e => e.2.en && e.2.cx == n) = false →
        exec (.unregister ctx) s = ends 0 ((on 2).setCtx n { desc := c.desc, held := c.held })) ∧
      (c.live = true → a % 65536 = 0 → s.cmdarg1.toNat % 65536 = 0 → inFlight s n = false →
        exec (.tlbinv ctx) s = ends 0 { on 3 with
          dies := s.dies.map (fun e => (e.1, { e.2 with tlb := e.2.tlb.filter (fun t => !t.inRange n a s.cmdarg1.toNat) })) }) ∧
      (c.live = true → exec (.replay ctx) s = ends 0 (replay (fun d => s.cmdarg0.getLsbD d) n (on 4))) ∧
      (c.live = true →
        (a % 4096 ≠ 0 → exec (.preempt ctx) s = ends 1 (on 5) ∧ exec (.resume ctx) s = ends 1 (on 6)) ∧
        (a % 4096 = 0 → s.queues.any (fun e => e.2.pe && e.2.cx == n) = false → exec (.preempt ctx) s = ends 3 (on 5)) ∧
        (a % 4096 = 0 → s.queues.any (fun e => e.2.pe && e.2.cx == n) = true →
          (c.stop ≠ 1 → exec (.preempt ctx) s = ends 0 (requestStop n a (on 5))) ∧
          (c.stop = 1 → exec (.preempt ctx) s = ends 0 ((on 5).setCtx n { c with later := c.later ++ [(none, a)] })))) ∧
      (let q := bits s.cmdarg1 5 0
       c.live = true → a % 4096 = 0 →
        (c.stop = 1 → exec (.resume ctx) s = ends 0 ((on 6).setCtx n { c with later := c.later ++ [(some q, a)] })) ∧
        (c.stop ≠ 1 → ∀ is : List (Option Image × Bool), imagesFrom (on 6) n (s.mem.length + 1) a = is →
          (is.all (fun x => x.2) = false → exec (.resume ctx) s = ends 1 (on 6)) ∧
          (is.all (fun x => x.2) = true →
            let t := (is.filterMap (fun x => x.1)).foldl (fun s i =>
              i.units.foldl (stageUnit q (kernelOfImage n q i s).2) (kernelOfImage n q i s).1) (on 6)
            let back := (t.resumes.drop s.resumes.length).flatMap (fun u => u.warps.map (fun w => w.fslot))
            exec (.resume ctx) s = ends 0 (t.setCtx n { t.ctx n with
              stop := 0, killed := false, saved := (t.ctx n).saved.filter (fun y => !back.contains y) })))) ∧
      (c.live = true →
        let t := endKill n (on 7)
        let quiet (u : State) : State := { u with queues := u.queues.map (fun e =>
          if e.2.cx == n then (e.1, { e.2 with ctl := e.2.ctl &&& ~~~1#64 }) else e) }
        let record : List Byte := match firstWarp t n with
          | some w => killRecord t n 3 0 w.tlevel w.shownPath.1.pc 0 0 w
          | none => recordOf 256 [(0, 4, n), (4, 1, 3)]
        ((t.ctx n).killed = true → exec (.kill ctx) s = ends 0 (quiet t)) ∧
        ((t.ctx n).killed = false → exec (.kill ctx) s = ends 0 (quiet (killCtx n 3 0 record t)))) ∧
      (c.live = true → a % 4096 = 0 → bits s.cmdarg1 19 0 ≠ 0 → bits s.cmdarg1 19 0 ≤ 1000000 → c.gang ≠ 0 →
        exec (.gstart ctx) s = ends 0 ((on 8).setCtx n { c with
          gstart := some (a, s.mc.us + bits s.cmdarg1 19 0), accepted := false })) ∧
      (∀ x : W64, (bits x 7 0 = 0 ∨ 8 < bits x 7 0) →
        exec (.cmdUnknownCode x) s = ends 4 { s with cmd := w32 (bits x 7 0 + 256 * (x.extractLsb' 8 24 : BitVec 24).toNat) }) ∧
      (c.live = false →
        exec (.unregister ctx) s = ends 2 (on 2) ∧ exec (.tlbinv ctx) s = ends 2 (on 3) ∧ exec (.replay ctx) s = ends 2 (on 4) ∧
        exec (.preempt ctx) s = ends 2 (on 5) ∧ exec (.resume ctx) s = ends 2 (on 6) ∧ exec (.kill ctx) s = ends 2 (on 7) ∧
        exec (.gstart ctx) s = ends 2 (on 8))) ∧
    (s.cmdbusy = false → s.mc.recovery = true → exec (.register ctx) s = ends 3 (on 1) ∧ exec (.kill ctx) s = ends 3 (on 7)) ∧
    (s.cmdbusy = true → exec (.register ctx) s = .next s ∧ exec (.kill ctx) s = .next s ∧ exec (.resume ctx) s = .next s) ∧
    (s.cmdbusy = true → bits32 s.cmd 31 8 = n → inFlight s n = false →
      exec (.tlbinv ctx) s = .next { s with cmdbusy := false, cmdstatus := 0 })

/-- The host's registers (R15, R358, R367, R368, R372, R391): what a write of QTAIL, of DBPSTAT.HALT, and of some of the
registers of each block changes: nothing but that register's own bits; a device-launch queue discards a write of QTAIL; a
released packet passes on the die that halted it and beside those released before (log 94, DEDUCED); in the mailbox's window,
for which the spec gives no offsets, offsets that the model leaves free set the power cap and ask for a pair to be retired
(logs 112, 172); and an offset that
the map does not list, or one that is no multiple of 8, changes nothing. -/
def Obligations.HostRegisterWritesComplete : Prop :=
  ∀ (s : State) (n off : Nat) (x : W64),
    let q := s.queue n
    (n < 64 →
      (q.dl = false → s.mc.recovery = false → lo32 x ≠ q.tail → exec (.qtailWrite n x) s = .next { s with
        nextStamp := s.nextStamp + 1
        queues := put {} s.queues n { q with tail := lo32 x, arrivals := q.arrivals ++ [(lo32 x, s.nextStamp)] } }) ∧
      (q.dl = true → exec (.qtailWrite n x) s = .next s) ∧
      exec (.registerWrite (0x10000 + 0x100 * n + 0x08) x) s = .next (s.setQueue n { q with base := x &&& ~~~0xFFF#64 }) ∧
      exec (.registerWrite (0x10000 + 0x100 * n + 0x28) x) s = .next (s.setQueue n { q with mask0 := x }) ∧
      exec (.registerWrite (0x10000 + 0x100 * n + 0x48) x) s = .next (s.setQueue n { q with pctx := bits x 23 0 }) ∧
      exec (.registerWrite (0x10000 + 0x100 * n + 0x20) x) s = .next s ∧
      (4 ≤ bits x 4 0 → bits x 4 0 ≤ 16 →
        exec (.registerWrite (0x10000 + 0x100 * n + 0x10) x) s = .next (s.setQueue n { q with log2n := bits x 4 0 }))) ∧
    exec (.registerWrite 0x30 x) s = .next { s with cmdarg0 := x } ∧
    exec (.registerWrite 0x38 x) s = .next { s with cmdarg1 := x } ∧
    exec (.registerWrite 0x00 x) s = .next s ∧ exec (.registerWrite 0x40 x) s = .next s ∧
    (s.ctxs.any (fun e => e.2.live) = false → exec (.registerWrite 0x20 x) s = .next { s with devpos := lo32 x }) ∧
    (s.ctxs.any (fun e => e.2.live) = true → exec (.registerWrite 0x20 x) s = .next s) ∧
    (n < (liveClusters s).length → n < 32 →
      exec (.registerWrite (0x40000 + 0x1000 * n + 0x100) x) s = .next (s.setCluster n { s.cluster n with
        throttle := (s.cluster n).throttle &&& ~~~(x.truncate 5) })) ∧
    ((off % 8 ≠ 0 ∨ (0x60000 ≤ off ∧ off < 0x80000) ∨ 0x90000 ≤ off) → exec (.registerWrite off x) s = .next s) ∧
    (off < 0x10000 → off % 8 = 0 → exec (.registerWrite (0x80000 + off) x) s =
      .next (if Config.mailboxReg off = 1 then { s with mc := { s.mc with cap := x.toNat } }
        else if Config.mailboxReg off = 6 then { s with mc := { s.mc with asked := s.mc.asked ||| (1#128 <<< x.toNat) } }
        else s)) ∧
    (let d := s.die n
     (d.halt = true → exec (.dbpstatHaltClear n) s =
        .next ((s.setQueue d.haltQueue { s.queue d.haltQueue with halted := false }).setDie n { d with
          halt := false, pass := d.pass ++ [(d.haltQueue, (s.queue d.haltQueue).head.toNat)] })) ∧
     (d.halt = false → exec (.dbpstatHaltClear n) s = .next s))

/-- The dispatchers (R358, R369, R374 to R378): a head that is legal and has no predecessor or memory word to wait for becomes
ready and stays so (log 92); one whose word has reached its value does; an illegal one is rejected, even behind BARRIER (log
93), once its record has room; the first ready head, in the order of choice, that has room, on the cores that are asked for
where they serve (log 98), is placed, or is halted where a breakpoint matches it, before its first placement alone (log 94); and
a kernel that has ended adds 1 to its DONE_SIG. That a rejection and a failing increment take effect only once their record has
room is log 153, the model's reading; both words are read and written over the fabric where their pages are another device's
(R384, R385), and the access is made again while it is refused. -/
def Obligations.DispatchEventsComplete : Prop :=
  ∀ (s : State) (die n : Nat),
    (n < 64 → presents s n = true → (s.queue n).headKern = none → (s.queue n).ready = false →
      (n, (s.queue n).head.toNat) ∉ (s.die die).heldHeads →
      let p := headPkt s n
      let room := (s.queue n).dl || ringReady s (s.queue n).cx 3
      (∀ r, p.reason s (s.queue n) = some r →
        exec (.headReadinessCheck die n) s = .next (if room then rejectHead n r s else s)) ∧
      (p.reason s (s.queue n) = none → (p.barrier = true → earlierDone s n = true) →
        (p.f 0x38 8 = 0 → exec (.headReadinessCheck die n) s = .next (s.setQueue n { s.queue n with ready := true })) ∧
        (p.f 0x38 8 ≠ 0 → ∀ e, checkPage s (s.queue n).cx die (w64 (p.f 0x30 8)) .read = .error e →
          exec (.headReadinessCheck die n) s = .next (if room then rejectHead n 10 s else s)) ∧
        (p.f 0x38 8 ≠ 0 → ∀ e pa, checkPage s (s.queue n).cx die (w64 (p.f 0x30 8)) .read = .ok (e, pa) → pa.resident = true →
          ∀ t taken, sendAll (s.queue n).cx [pa.key] s = (t, taken) →
          (taken = false → exec (.headReadinessCheck die n) s = .next t) ∧
          (taken = true → isBad t pa.key = false →
            (p.f 0x38 8 ≤ rdMem t.mem pa.key 8 →
              exec (.headReadinessCheck die n) s = .next (t.setQueue n { s.queue n with ready := true })) ∧
            (rdMem t.mem pa.key 8 < p.f 0x38 8 → exec (.headReadinessCheck die n) s = .next t))))) ∧
    (∀ asked cores rest, s.mc.recovery = false → s.resumes = [] →
      let t := (List.range 64).foldl (fun s n => examineHead die n s) s
      headsInOrder t = n :: rest → headPlace t die n asked = some cores →
      ((toMatch t die n = true → matchBp t die n = none) → exec (.dispatchStep die asked) s = .next (placeHead n cores t)) ∧
      (∀ bp, toMatch t die n = true → matchBp t die n = some bp → (t.die die).halt = false →
        exec (.dispatchStep die asked) s = .next ((t.setQueue n { t.queue n with halted := true }).setDie die { t.die die with
          halt := true, haltQueue := n, haltBp := bp }))) ∧
    (let k := s.kernel n
     k.st = .signal →
      (k.pktField 0x40 8 = 0 → exec (.doneSigIncrement n) s = .next (s.setKernel n { k with st := .done })) ∧
      (k.pktField 0x40 8 ≠ 0 → ∀ e, checkPage s k.ctx k.lastDie (w64 (k.pktField 0x40 8)) .rmw = .error e →
        let u := s.setKernel n { k with st := .done }
        exec (.doneSigIncrement n) s = .next (if ringReady s k.ctx 3 then ringOrHold k.ctx 3 (recordOf 256 [(0, 4, k.ctx)
          , (4, 1, e.cause), (7, 1, 4), (8, 8, k.pktField 0x40 8), (0x10, 8, k.pktField 0 8), (0x18, 8, k.queue)])
          (if e.cause = 0x15 then logUnc (logCluster u k.lastDie) u else u) else s)) ∧
      (k.pktField 0x40 8 ≠ 0 → ∀ e pa, checkPage s k.ctx k.lastDie (w64 (k.pktField 0x40 8)) .rmw = .ok (e, pa) → pa.resident = true →
        ∀ u taken, sendAll k.ctx [pa.key] s = (u, taken) →
        (taken = false → exec (.doneSigIncrement n) s = .next u) ∧
        (taken = true → isBad u pa.key = false →
          ∃ t, exec (.doneSigIncrement n) s = .next t ∧ t.w = s.w ∧ t.kernel n = { k with st := .done } ∧
            rdMem t.mem pa.key 8 = (rdMem s.mem pa.key 8 + 1) % 2 ^ 64 ∧
            ∀ a, ¬(pa.key ≤ a ∧ a < pa.key + 8) → look 0 t.mem a = look 0 s.mem a)))

/-- Fault batches, held records, gangs and pre-emption (R188, R288, R351 to R353, R369, R370, R386): a full or timed-out batch is
written to its context's fault ring; a held record is written once its ring has room; a gang is accepted when its work is
placed before its timeout, which wins in its own microsecond (log 111), and one that is late, here or elsewhere, is pre-empted as a
PREEMPT does it, once a stop in progress has ended (log 173), with a record of KIND 3; a pre-empted context stops on a core, a
TFREE that all have joined going on (log 188); and once it has drained and its record has room (log 153) every record
is made current, its images are written, with the header of R353, its warps leave the device, and a record of KIND 2 follows, and
then the PREEMPTs and RESUMEs that have waited for it (log 173). The model's choices: what a stop leaves of the arrivals of its
warps (log 106), the sizes, the numbers and the sum of the SIZEs of the images (log 107), and the free values of the header's GXN
to GJ (log 108). -/
def Obligations.ContextEventsComplete : Prop :=
  ∀ (s : State) (die ring core : Nat) (ctx : BitVec 24) (gang : BitVec 16),
    let n := ctx.toNat
    let c := s.ctx n
    (let batch := (batchOf s die n).foldl (fun s r => ringOrHold n 1 (r.bytes die) s)
        (s.setDie die { s.die die with batch := (s.die die).batch.filter (fun r => r.ctx != n) })
     exec (.faultBatchTimeout die ctx) s = .next batch ∧
     (32 ≤ (batchOf s die n).length → exec (.faultBatchFull die ctx) s = .next batch)) ∧
    (∀ h, c.held.find? (fun h => h.1 == ring) = some h → ringFull s n ring = false →
      exec (.heldRecordWrite ctx ring) s = .next (ringWrite n ring h.2 (s.setCtx n { c with
        held := dropFirst (fun x => x.1 == ring) c.held }))) ∧
    (∀ a due, c.gstart = some (a, due) →
      (s.mc.us < due → mayAccept s n = true → exec (.gangAccept ctx) s = .next (s.setCtx n { c with accepted := true })) ∧
      (due ≤ s.mc.us → exec (.gangAccept ctx) s = .next s) ∧
      (c.accepted = false → due ≤ s.mc.us →
        exec (.gangTimeout ctx) s = .next (gangLate n 0 a { s with mc := { s.mc with aborts := s.mc.aborts ++ [c.gang] } })) ∧
      ((c.accepted = true ∨ s.mc.us < due) → exec (.gangTimeout ctx) s = .next s) ∧
      (s.ctxs.filter (fun e => e.2.live && e.2.gang == gang.toNat && gang != 0) = [(n, c)] →
        exec (.gangAbort gang) s = .next (gangLate n 1 a s)) ∧
      (∀ role,
        let record := recordOf 256 [(0, 4, n), (4, 1, role), (7, 1, 3), (8, 8, c.gang)]
        let s0 := s.setCtx n { c with gstart := none }
        let d := (gangLate n role a s).ctx n
        d.stop = 1 ∧ d.gstart = none ∧
        (c.stop ≠ 1 → gangLate n role a s = ringOrHold n 3 record (requestStop n a s0) ∧ d.imageAt = a) ∧
        (c.stop = 1 → gangLate n role a s = ringOrHold n 3 record (deferred n none a s0) ∧ d.later = c.later ++ [(none, a)]))) ∧
    (c.stop = 1 → core ∉ c.stopped → ∃ t, exec (.preemptionStop core ctx) s = .next t ∧
      (t.ctx n).stopped = c.stopped ++ [core] ∧
      ∀ v ∈ t.warps, v.ctx = n → v.core = core → v.retry = [] ∧ v.sleep = none ∧ v.txset = false ∧
        (v.grant = none → v.block = none ∨ freeJoined s (s.wg v.wg).launch v.wid = true)) ∧
    (drained s n = true → ringReady s n 3 = true →
      let s0 := syncAll n (freesJoined n s)
      let c0 := s0.ctx n
      (drained s0 n = false → exec (.contextImageWrite ctx) s = .next s0) ∧
      (drained s0 n = true →
        let s1 := clearStopped n (c0.stopKerns.foldl (writeImage n) (s0.setCtx n { c0 with nImg := 0, imgBytes := 0, imgFlags := 0 }))
        let d := s1.ctx n
        let t := ringOrHold n 3 (recordOf 256 [(0, 4, n), (7, 1, 2), (8, 8, c0.imageAt), (0x10, 8, d.imgBytes), (0x18, 8, d.nImg)
          , (0x20, 8, d.imgFlags)]) (s1.setCtx n { d with stop := 2, stopKerns := [], stopped := [], later := [] })
        exec (.contextImageWrite ctx) s = .next (runLater n c0.later t) ∧ (t.ctx n).stop = 2 ∧ d.nImg = c0.stopKerns.length ∧
          (∀ v ∈ t.warps, v.ctx ≠ n) ∧ t.images.length = s0.images.length + c0.stopKerns.length)) ∧
    (∀ kern, let k := s.kernel kern
      let us := saveUnits s kern
      let at_ := if c.nImg = 0 then c.imageAt else roundUp c.imageAt 4096
      let flags := imageFlags k c.gang s.devpos
      let bs := imageBytes k n c.gang flags s.nextImage us
      let t := writeImage n s kern
      k.pkt.length = 128 →
        loadBytes t at_ bs.length = bs ∧ bs.length = imageSize s.nextImage us ∧
        (t.ctx n).imageAt = at_ + bs.length ∧ (t.ctx n).nImg = c.nImg + 1 ∧
        field bs 0x00 4 = 1 ∧ field bs 0x04 4 = n ∧ field bs 0x08 8 = bs.length % 2 ^ 64 ∧
        field bs 0x10 4 = unitsWgs us % 2 ^ 32 ∧ field bs 0x14 1 = Config.warpWidth ∧ field bs 0x15 1 = flags ∧
        (∀ i < 4, field bs (0x16 + i) 1 = gangField c.gang i) ∧ (bs.drop 0x20).take 128 = k.pkt)

/-- Accesses from the host and from the fabric, errors, and the ports (R181, R188, R200, R202, R360, R366, R384, R385, R388): an
access to device memory reads or writes it at its home; a fabric access is performed for a gang that the device has work of
and refused otherwise; a corrected error and an unreported one are counted; an uncorrectable one poisons its data; an
expander's failure is logged, as is a Lasia port's, which is down until it is trained. That an access takes at most 8 bytes,
byte by byte where it is not aligned, and has no effect out of range is log 115 (DEDUCED); that an incoming RED on poisoned
data is logged at cluster 0 is log 155; and the place that an uncorrectable error poisons is its input (log 123, DESIGN
CHOICE). -/
def Obligations.MemoryAndErrorEventsComplete : Prop :=
  ∀ (s : State) (gang : BitVec 16) (aop ty pa size cluster port : Nat) (x y : W64),
    (s.mc.recovery = false → isDevice s pa (min size 8) = true →
      (size = 8 → pa % 8 = 0 → exec (.hostMemoryAccess true pa size x) s = .next (storeMem pa 8 x false s)) ∧
      (∃ t, exec (.hostMemoryAccess true pa size x) s = .next t ∧
        (∀ i < min size 8, look 0 t.mem (pa + i) = x.extractLsb' (8 * i) 8) ∧
        (∀ a, ¬(pa ≤ a ∧ a < pa + min size 8) → look 0 t.mem a = look 0 s.mem a)) ∧
      exec (.hostMemoryAccess false pa size x) s = .next { s with
        hostRead := w64 (rdMem s.mem pa (min size 8)), hostBad := (List.range (min size 8)).any (fun i => isBad s (pa + i)) }) ∧
    (isDevice s pa (min size 8) = false → ∀ write, exec (.hostMemoryAccess write pa size x) s = .next s) ∧
    (gangHere s gang.toNat = true → isDevice s pa (min size 8) = true →
      let read : State := { s with
        hostRead := w64 (rdMem s.mem pa (min size 8)), hostBad := (List.range (min size 8)).any (fun i => isBad s (pa + i)) }
      let new := atomicNew aop ty (w64 (rdMem s.mem pa size)) x y
      exec (.fabricAccess gang .read pa size x) s = .next { read with fabricRefused := false } ∧
      exec (.fabricAccess gang .write pa size x) s = .next { pokeBytes pa size x s with fabricRefused := false } ∧
      (isBad s pa = false →
        exec (.fabricAccess gang (.atomic aop ty y) pa size x) s = .next { storeMem pa size new false read with fabricRefused := false } ∧
        exec (.fabricAccess gang (.reduce aop ty y) pa size x) s = .next { storeMem pa size new false s with fabricRefused := false }) ∧
      (isBad s pa = true →
        exec (.fabricAccess gang (.atomic aop ty y) pa size x) s = .next { read with fabricRefused := false } ∧
        exec (.fabricAccess gang (.reduce aop ty y) pa size x) s = .next { logUnc 0 s with fabricRefused := false })) ∧
    ((gangHere s gang.toNat = false ∨ isDevice s pa (min size 8) = false) → ∀ op,
      exec (.fabricAccess gang op pa size x) s = .next { s with fabricRefused := true }) ∧
    exec (.correctedError cluster) s = .next (s.setCluster cluster { s.cluster cluster with
      eccCorr := bump (s.cluster cluster).eccCorr }) ∧
    exec (.uncorrectableError cluster pa true) s = .next (s.setCluster cluster { s.cluster cluster with
      fetchUnrep := bump (s.cluster cluster).fetchUnrep }) ∧
    (pa < 2 ^ 100 → exec (.uncorrectableError cluster pa false) s =
      .next { logUnc cluster s with bad := put false (logUnc cluster s).bad (pa / 8) true }) ∧
    (∀ kind core k, kind < 4 → core < 256 → k < 2 ^ 104 →
      let t := (logUnc cluster s).setCore core (poisonCore kind k ((logUnc cluster s).core core))
      exec (.uncorrectableError cluster (corePlace kind core k) false) s =
        .next { t with mc := { s.mc with pairUnc := upd 0 s.mc.pairUnc (physPair s core) (· + 1) } }) ∧
    exec (.expanderFailure port) s = .next { s with mc := { s.mc with failed := s.mc.failed ++ [port], memLog := bump s.mc.memLog } } ∧
    (∃ t, exec (.lasiaPortFail port) s = .next t ∧ t.w = s.w ∧ t.mem = s.mem ∧ t.mc.linkLog = bump s.mc.linkLog ∧
      ∀ i < 8, t.mc.lasia.getLsbD i = (s.mc.lasia.getLsbD i && decide (i ≠ port))) ∧
    (∃ t, exec (.lasiaPortTrained port) s = .next t ∧ t.w = s.w ∧ t.mem = s.mem ∧
      ∀ i < 8, t.mc.lasia.getLsbD i = (s.mc.lasia.getLsbD i || decide (i = port)))

/-- The management controller (R16, R392 to R397): the loops set the bits of THROTTLE_WHY of the clusters on which they act, the
power loop where the board's power is above the cap, and act until the next run (log 118); a Yarrow reading keeps the delays,
raises GUARD by a step where a pair exceeds its limit, and adds to STRESS what the supply and the temperature weigh (log 159); a
reset clears everything but the controller's store, memory outside scratch and what is kept with it (log 120), and retires cores
for good; firmware that passes its check is stored, in recovery or out of it (log 121), and the device resets, the check itself
being left free; and SPDM answers in its order (log 122, PRESUMED), with the SHA-256 digest of what an index measures (log 160). -/
def Obligations.ManagementEventsComplete : Prop :=
  ∀ (s : State) (thermal reliability : BitVec 32) (current slew : Bool) (power : Nat) (delays expanders : List Nat)
    (reading : Reading) (failed : BitVec 128) (image : Recovery) (nonce : BitVec 256) (n : Nat),
    (∃ t, exec (.mcLoopTick thermal current slew power reliability) s = .next t ∧ t.w = s.w ∧ t.mem = s.mem ∧
      ∀ c < (liveClusters s).length,
        let cap := decide (s.mc.cap < power)
        let why : BitVec 5 := BitVec.ofBool (reliability.getLsbD c) ++ BitVec.ofBool cap ++ BitVec.ofBool slew ++
          BitVec.ofBool current ++ BitVec.ofBool (thermal.getLsbD c)
        (t.cluster c).throttle = (s.cluster c).throttle ||| why ∧ (t.cluster c).acting = (why != 0)) ∧
    (∃ t, exec (.yarrowReading delays reading) s = .next t ∧ t.w = s.w ∧ t.mem = s.mem ∧ t.mc.retired = s.mc.retired ∧
      (∀ p < delays.length, look 0 t.mc.delays p = delays.getD p 0) ∧
      (∀ c ∈ liveClusters s, look 0 t.mc.stress c = look 0 s.mc.stress c +
        w32 (Config.stressWeight (guardOf s c) (look 0 s.mc.supply c) (reading.temps.getD c 0) reading.hours)) ∧
      ∀ c ∈ liveClusters s, look 0 t.mc.steps c = look 0 s.mc.steps c +
        (if (pairsOf s c).any (fun p => overLimit p (look 0 t.mc.delays p) (look 0 s.mc.steps c)) then 1 else 0)) ∧
    (∃ t, exec (.deviceReset failed expanders) s = .next t ∧ t.w = {} ∧ t.others = [] ∧ t.ctxs = [] ∧ t.queues = [] ∧
      t.mem = s.mem.filter (fun e => e.1 < 2 ^ 100) ∧ t.mc.flash = s.mc.flash ∧ t.images = s.images ∧
      t.mc.retired = (s.mc.retired ||| toRetire s failed) ∧ t.mc.ports = portMap expanders ∧
      (∀ p < Config.physicalPairs, (failed.getLsbD p = true ∨ s.mc.asked.getLsbD p = true ∨ 16 < look 0 s.mc.pairUnc p) →
        t.mc.retired.getLsbD p = true) ∧
      t.mc.recovery = (!Config.firmwareAccepted s.mc.flash || t.mc.retired == BitVec.allOnes 128)) ∧
    (Config.firmwareAccepted image.bytes = true →
      exec (.firmwareRecovery image) s = exec (.deviceReset image.failed image.expanders) { s with mc := { s.mc with flash := image.bytes } } ∧
      ∃ t, exec (.firmwareRecovery image) s = .next t ∧ t.mc.flash = image.bytes ∧ t.w = {} ∧
        t.mem = s.mem.filter (fun e => e.1 < 2 ^ 100) ∧ t.mc.retired = (s.mc.retired ||| toRetire s image.failed) ∧
        t.mc.ports = portMap image.expanders) ∧
    (Config.firmwareAccepted image.bytes = false → exec (.firmwareRecovery image) s = .next s) ∧
    (let answers (kind about step : Nat) : State :=
       { s with mc := { s.mc with spdm := step, answers := s.mc.answers + 1, answer := [Config.spdmPayload kind about] } }
     exec .getVersion s = .next (answers 0 0 1) ∧
     (1 ≤ s.mc.spdm → exec .getCapabilities s = .next (answers 1 0 2)) ∧
     (2 ≤ s.mc.spdm → exec .negotiateAlgorithms s = .next (answers 2 0 3)) ∧
     (3 ≤ s.mc.spdm → exec .getDigests s = .next (answers 3 0 3) ∧ exec (.getCertificate n) s = .next (answers 4 n 3) ∧
       exec (.challenge nonce) s = .next (answers 5 (nonce.toNat + 2 ^ 256 * s.mc.answers) 3) ∧
       (1 ≤ n → n ≤ 5 → let d := sha256 (measured s n)
        exec (.getMeasurements n) s = .next { s with mc := { s.mc with
          answers := s.mc.answers + 1
          answer := [d.setWidth 384, Config.spdmPayload (16 + n) (d.toNat + 2 ^ 256 * s.mc.answers)] } })) ∧
     (let refused : State := { s with mc := { s.mc with answers := s.mc.answers + 1, answer := [] } }
      (s.mc.spdm < 1 → exec .getCapabilities s = .next refused) ∧ (s.mc.spdm < 2 → exec .negotiateAlgorithms s = .next refused) ∧
      (s.mc.spdm < 3 → exec .getDigests s = .next refused ∧ exec (.getCertificate n) s = .next refused ∧
        exec (.challenge nonce) s = .next refused ∧ exec (.getMeasurements n) s = .next refused)))

/-- What reset leaves (R16, R27, R305, R350, R358, R361, R368, R372, R384): no warp is resident, no context is registered, no queue is
enabled, nothing is outstanding, and no port of the fabric has failed or has logged an error; memory is in its canonical form;
each scheduler pointer and CYCLE is 0; and each register of the host's blocks reads as its map says, where no pair is retired.
The model's own choices are that memory lists nothing (log 1), that no expander and no sink is attached (logs 3, 10), that
every fabric port is up (log 11), and that no pair is retired and the device is out of recovery (log 138). -/
def Obligations.ResetState : Prop :=
  let s := State.reset
  Safe s ∧ s.warps = [] ∧ s.ctxs = [] ∧ s.kernels = [] ∧ s.copies = [] ∧ s.tabards = [] ∧ s.resumes = [] ∧ s.mem = [] ∧
  s.mc.recovery = false ∧ s.mc.retired = 0 ∧ s.mc.ports = [0, 0, 0, 0] ∧ s.mc.lasia = 0xFF#8 ∧ s.mc.linkLog = 0 ∧ s.mc.memLog = 0 ∧
  (∀ n, (s.queue n).en = false ∧ (s.queue n).tail = 0 ∧ (s.queue n).head = 0) ∧
  (∀ n, (s.core n).sptr = 0 ∧ (s.core n).owner = none ∧ (s.core n).locks = []) ∧
  (∀ n, (s.cluster n).cycle = 0 ∧ (s.cluster n).sampctl.getLsbD 24 = false ∧ (s.cluster n).trigArm = false ∧
    (s.cluster n).trigOn = false) ∧
  (∀ n, (s.die n).tlb = [] ∧ (s.die n).halt = false) ∧
  (∀ n, (s.view n).vctl.getLsbD 0 = false ∧ (s.out n).ctl.getLsbD 0 = false ∧ (s.out n).attached = false) ∧
  readBar64 s 0x00 = w64 (0x0960 + Config.silicon_rev.toNat * 2 ^ 16 + 256 * 2 ^ 24 + 32 * 2 ^ 33) ∧
  readBar64 s 0x18 = BitVec.allOnes 64 ∧
  (∀ off ∈ [0x08, 0x10, 0x20, 0x28, 0x30, 0x38, 0x40], readBar64 s off = 0) ∧
  (∀ n < 64, readBar64 s (0x10000 + 0x100 * n + 0x10) = 4 ∧
    ∀ off ∈ [0x00, 0x08, 0x18, 0x20, 0x28, 0x30, 0x38, 0x40, 0x48, 0x50], readBar64 s (0x10000 + 0x100 * n + off) = 0) ∧
  (∀ n < 16, ∀ off ∈ [0x00, 0x08, 0x10, 0x18, 0x20, 0x28], readBar64 s (0x20000 + 0x40 * n + off) = 0) ∧
  (∀ n < 4, ∀ off ∈ [0x00, 0x08, 0x10, 0x18], readBar64 s (0x20400 + 0x40 * n + off) = 0) ∧
  (∀ n < 2, ∀ off ∈ [0x00, 0x08, 0x10, 0x18, 0x20], readBar64 s (0x30000 + 0x1000 * n + off) = 0) ∧
  (∀ n < 32, readBar64 s (0x40000 + 0x1000 * n) = 4096 ∧ readBar64 s (0x40000 + 0x1000 * n + 0x18) = 6 ∧
    ∀ off ∈ [0x08, 0x10, 0x20, 0x28, 0x30, 0x38, 0x40, 0x48, 0x50, 0x100], readBar64 s (0x40000 + 0x1000 * n + off) = 0)

/-- What each warp has at placement (R31). -/
def Obligations.WarpAtPlacement : Prop :=
  ∀ (s : State) (ctx kern wg core i : Nat) (pkt : Pkt) (sys : Bool),
    let w := newWarp s ctx kern wg core i pkt sys
    w.onB = false ∧ w.p.st = .running ∧ w.p.pc = BitVec.ofNat 64 (pkt.f 0 8) ∧ w.p.mask = BitVec.allOnes 32 ∧ w.q.st = .empty ∧
    w.p.mode = 0x00000EC0 ∧ w.p.wbase = 0 ∧ 8 * w.p.fsize = 64 ∧ w.p.fdepth = 0 ∧ (∀ n l, w.vl n l = {}) ∧
    (∀ n, w.sr n = {}) ∧ w.pr = [] ∧ w.fflags = 0 ∧ w.ld = 0 ∧ w.st = 0 ∧ w.cp = 0 ∧ w.tl = 0 ∧
    w.p.levels = 0 ∧ (w.p.r0 = BitVec.allOnes 64 ∧ w.p.r1 = BitVec.allOnes 64 ∧ w.p.r2 = BitVec.allOnes 64 ∧ w.p.r3 = BitVec.allOnes 64) ∧
    w.p.age = 0 ∧ w.recs = []

/-- A step takes the first turn of the agenda (log 12, the model's DESIGN CHOICE for the order of agents): the turn of a path that
may be examined, before which no other path of its scheduler comes and whose window is ready, runs the instruction that the
bytes at its PC decode to, and adds what follows an issue (R65, R66, R67, R68, R86); the bytes are those that memory
holds there, where the page is mapped and executable and no instruction cache holds the line; an instruction that has arrived and
waits goes on from the bytes that were fetched (R58, R65, R145); an event's turn runs that event, which is an instruction of its
own, the sampler's once each path that its samples show has the stall code of its instruction (R364). -/
def Obligations.StepRunsTheInstruction : Prop :=
  ∀ (s : State) (ts : List Turn),
    let s1 := { s with agenda := ts }
    let w := s.w
    (s.agenda = .issue w.wid w.onB :: ts → w.resident = true → w.pend = none → mayExamine s1 w w.onB = true →
      firstChoice s1 w w.onB = true → toRoute w = false →
      (w.arrived = none → w.dueFault = none → spanMet w = .ready →
        (∀ bs i rest, fetchInstr s1 w = .bytes bs → decode bs = .ok (i, rest) →
          step s = onNext (afterExec w.onB w bs) (exec i s1)) ∧
        (∀ bs e, fetchInstr s1 w = .bytes bs → decode bs = .error e →
          step s = onNext (afterExec w.onB w bs) (illegalWord (firstWord bs) s1))) ∧
      (∀ bs i rest, w.arrived = some bs → decode bs = .ok (i, rest) →
        step s = onNext (afterExec w.onB w bs) (exec i s1))) ∧
    (∀ e pa, checkPage s1 w.ctx w.die w.p.pc .fetch = .ok (e, pa) → pa.resident = true → (icLine s1 w.core pa.key).live = false →
      isBad s1 pa.key = false →
      (isLiteralOp (firstWord (loadBytes s1 pa.key 4)) = false → fetchInstr s1 w = .bytes (loadBytes s1 pa.key 4)) ∧
      (isLiteralOp (firstWord (loadBytes s1 pa.key 4)) = true → w.p.pc.getLsbD 2 = false →
        fetchInstr s1 w = .bytes (loadBytes s1 pa.key 8))) ∧
    (∀ e, s.agenda = .act e :: ts → (∀ c, e ≠ .sampleTick c) → step s = runEvent e s1) ∧
    (∀ c, s.agenda = .act (.sampleTick c) :: ts → step s = runEvent (.sampleTick c) (stallsNow c s1)) ∧
    (∀ e, ∃ i, i.isEvent = true ∧ ∀ t, runEvent e t = exec i t)

/-- Words of the encoding formats (R67, R72, R90 to R98), written out bit by bit, with the instructions that they stand for. -/
def Obligations.WordsDecode : Prop :=
  decodeTableWord 32 0b00000010000010000100000110000000 = some (.sadd 1 2 3 false false) ∧
  decodeTableWord 32 0b01000000000010000100000110000010 = some (.vadd 1 2 3 false true) ∧
  decodeTableWord 32 0b00000100000110001001111111111110 = some (.saddi 3 4 0xFFF false) ∧
  decodeTableWord 32 0b10000000000010000100000110000000 = some (.ld 1 2 3 0 0 false false) ∧
  decodeTableWord 64 0b0001001000110100010101100111100001010010001110000000000000000000 = some (.vmovl 7 false 0x12345678) ∧
  decodeTableWord 32 0b11110000000000000000000000000000 = some .rett ∧
  decodeTableWord 32 0b11101110000000000000000000101010 = some (.trap 42) ∧
  decodeTableWord 32 0b00000000000000000000000000000001 = none ∧
  decodeTableWord 32 0b11111110000000000000000000000000 = none

/-- Decoding inverts encoding (R67 to R98): every well-formed instruction that has a word, with every operand at every value that
its fields admit, is what its bytes decode to, and nothing behind them is taken. -/
def Obligations.DecodeInvertsEncode : Prop :=
  ∀ (i : Instr) (rest : List Byte), i.isEvent = false → i.WF → decode (encodeBytes i ++ rest) = .ok (i, rest)

/-- A guarded instruction whose guard selects no lane of the mask only falls through (R81, R86 step 2). EXIT, which besides lets
the collectives of its workgroup run and the warp depart where no lane is live, is stated with ExitCompletes. -/
def Obligations.GuardedOffFallsThrough : Prop :=
  ∀ (s : State) (i : Instr), i.isEvent = false → guarded (encodeWord i) = true → s.w.active true = 0 → (∀ g, i ≠ .exit g) →
    exec i s = .next (fell (if i.literal.isSome then 8 else 4) s)

/-- Steps 3 to 7 of R86 for VADD, and step 4 for VMOVL: a register beyond the frame, an odd register of a wide type or a type that
VADD does not have is ILLEGAL_OP; a role that may not issue vector instructions is ROLE; a literal-bearing word at an address
with bit 2 set is ALIGN; an operand that awaits an outstanding write makes the path wait; and a poisoned operand is
ECC_UNCORRECTABLE with the register in TVAL (R23, R43, R68, R78, R82, R202, R205). -/
def Obligations.IssueChecksTrap : Prop :=
  ∀ (s : State) (d a b : BitVec 6) (g t : Bool) (lit : BitVec 32),
    let w := s.w
    let act := w.active g
    let ty := w.p.typ t
    let word : W64 := zx (0x20#7 ++ d ++ a ++ b ++ 0#4 ++ BitVec.ofBool g ++ BitVec.ofBool t ++ 0#1)
    let legal (r : BitVec 6) : Prop := (vop r ty).legal w.p = true
    let awaits (r : BitVec 6) : Prop :=
      ∃ x ∈ w.awaitedV ++ awaitedMovv s w, rangesMeet (w.p.wbase + (vop r ty).n, (vop r ty).cnt) x = true
    act ≠ 0 →
    ((intType ty = false ∨ w.p.enter = true ∨ ¬ legal d ∨ ¬ legal a ∨ ¬ legal b) →
      exec (.vadd d a b g t) s = .next (raise (trapOf 0x01 word act false) s)) ∧
    (intType ty = true → w.p.enter = false → legal d → legal a → legal b →
      (w.tlevel = 0 → w.role ≠ .general → exec (.vadd d a b g t) s = .next (raise (trapOf 0x02 word act false) s)) ∧
      ((w.tlevel ≠ 0 ∨ w.role = .general) →
        ((awaits d ∨ awaits a ∨ awaits b) → exec (.vadd d a b g t) s = .next (waits 1 s)) ∧
        (¬ awaits d → ¬ awaits a → ¬ awaits b → NoTx s g → (∃ l, act.getLsbD l = true ∧ (useV a ty).bad w l = true) →
          (∀ l, act.getLsbD l = true → (useV b ty).bad w l = true → (useV a ty).bad w l = true) →
          exec (.vadd d a b g t) s = .next (raise { cause := 0x15, tval := BitVec.ofNat 64 a.toNat, act := act
                                                    lanes := maskOf (fun l => act.getLsbD l && (useV a ty).bad w l) } s)))) ∧
    (w.p.enter = false → (vop1 d).legal w.p = true → w.p.pc.getLsbD 2 = true →
      exec (.vmovl d g lit) s = .next (raise (trapOf 0x03 w.p.pc act true) s))

/-- What an instruction that completes leaves, beside its own effect (R38, R39, R40, R44, R47, R56): its path moves on with AGE 0,
the marks of waiting end, the paths and their records are those that settling gives, and of vector registers, spilled blocks
and the engine's failures only those of blocks at and above the end of the frames leave; all of memory, every other warp,
every core, every queue and context, and this warp's scalar registers, predicates, flags, counters, transactions and trap
banks are as the effect left them. -/
def Obligations.CompletionFrame : Prop :=
  ∀ (len : Nat) (s : State),
    let passed : State := { s with w := { s.w with p := s.w.p.fall len } }
    let u := settleWith Warp.settle passed { passed.w with
      p := { passed.w.p with age := 0, ran := passed.w.p.held, stall := none, want := none }
      fresh := false, block := none, grant := none, retry := [], issued := true }
    let top := (u.topT + 7) / 8
    fell len s = { s with w := { s.w with
      p := u.p, q := u.q, onB := u.onB, recs := u.recs, fsrp := u.fsrp
      v := s.w.v.filter (fun e => decide (e.1 / 256 < max top ((u.span.2 + 7) / 8)))
      spilled := s.w.spilled.filter (fun j => decide (j < top)), fse := u.fse.filter (fun f => f.record || decide (f.blk < top))
      fresh := false, block := none, grant := none, retry := [], issued := true } } ∧
    ∀ f ∈ u.fse, f ∈ s.w.fse

/-- Every step keeps the canonical form of memory: whatever instruction, event, clock or cache acts, no address is listed twice
or out of order and no listed byte reads as an unlisted one does. -/
def Obligations.StepKeepsMemoryCanonical : Prop :=
  ∀ (s t : State), Safe s → step s = .next t → Safe t

/-- Reconvergence entries (R33): a path's reconvergence address is its entry 0, and an entry of all ones means that there is
none; a push moves the entries down by one and discards entry 3, and a pop moves them up by one and makes entry 3 all ones. -/
def Obligations.ReconvergenceEntries : Prop :=
  ∀ (p : Path) (a : W64),
    (p.atJoin = true ↔ p.pc = p.r0 ∧ p.r0 ≠ BitVec.allOnes 64) ∧
    p.pushR a = { p with r0 := a, r1 := p.r0, r2 := p.r1, r3 := p.r2 } ∧
    p.popR = { p with r0 := p.r1, r1 := p.r2, r2 := p.r3, r3 := BitVec.allOnes 64 } ∧
    (p.pushR a).popR = { p with r3 := BitVec.allOnes 64 }
end

