-- ==== Sys2Proof/Laws/Fields.lean ====
section
/-! SUPPORT. Fields of words that are written as their parts, the highest first: a field within one part is that part of it. -/

namespace Sys2Proof.Laws

theorem field_above {n m k : Nat} (a : BitVec n) (b : BitVec m) (lo : Nat) (h : m ≤ lo) :
    (a ++ b).extractLsb' lo k = a.extractLsb' (lo - m) k := by
  ext i hi
  simp only [BitVec.getElem_extractLsb', BitVec.getLsbD_append, if_neg (show ¬ lo + i < m by omega)]
  congr 1; omega

theorem field_below {n m k : Nat} (a : BitVec n) (b : BitVec m) (lo : Nat) (h : lo + k ≤ m) :
    (a ++ b).extractLsb' lo k = b.extractLsb' lo k := by
  ext i hi
  simp only [BitVec.getElem_extractLsb', BitVec.getLsbD_append, if_pos (show lo + i < m by omega)]

theorem field_whole {n : Nat} (a : BitVec n) : a.extractLsb' 0 n = a := by simp

theorem flag_bit (b : Bool) : (bit b == 1#1) = b := by cases b <;> rfl

end Sys2Proof.Laws
end

