-- ==== Sys2Proof/Laws/PerInstr.lean ====
section
/-! SUPPORT. For every constructor of Instr: its word and literal, read by the decoder before the limits of WellFormed, are the
instruction itself (R72, R90 to R98). Events have no word. -/

namespace Sys2Proof.Laws.RoundTrip

set_option linter.unusedSimpArgs false

/-- The decoder reads an instruction back from its word and its literal, and knows from the word whether it bears one. -/
def Statement (i : Instr) : Prop :=
  i.isEvent = false → decodeRaw (encodeWord i) (i.literal.getD 0) = .ok i ∧ isLiteralOp (encodeWord i) = i.literal.isSome

/-- From the word of an instruction, its OP and what the OP's table reads, to the statement. -/
theorem of_op {i : Instr} (n : Nat) {w : W32} (e : encodeWord i = w) (o : fld w 25 7 = BitVec.ofNat 7 n)
    (l : (BitVec.ofNat 7 n == 5#7 || BitVec.ofNat 7 n == 13#7 || BitVec.ofNat 7 n == 41#7) = i.literal.isSome)
    (h : decodeOp (BitVec.ofNat 7 n).toNat w (i.literal.getD 0) = .ok i) : Statement i := by
  intro _
  refine ⟨?_, ?_⟩
  · rw [e, decodeRaw, opOf, o]; exact h
  · rw [e, isLiteralOp, opOf, o]; exact l

theorem nop : Statement .nop := by
  refine of_op 0 (w := 0#7 ++ 0#25) rfl (by simp (disch := decide) only [field_above, field_below, field_whole, Nat.reduceSub]) rfl ?_
  change decOp00 _ = _
  unfold decOp00
  simp (disch := decide) only [fld, flag, field_above, field_below, field_whole, flag_bit, Nat.reduceSub] <;> rfl
theorem sadd (d : BitVec 6) (a : BitVec 6) (b : BitVec 6) (g : Bool) (t : Bool) : Statement (.sadd d a b g t) := by
  refine of_op 1 (w := 1#7 ++ d ++ a ++ b ++ 0#4 ++ bit g ++ bit t ++ 0#1) rfl (by simp (disch := decide) only [field_above, field_below, field_whole, Nat.reduceSub]) rfl ?_
  change decOp01 _ = _
  unfold decOp01
  rw [show fld (1#7 ++ d ++ a ++ b ++ 0#4 ++ bit g ++ bit t ++ 0#1) 3 4 = 0#4 by simp (disch := decide) only [field_above, field_below, field_whole, Nat.reduceSub] <;> rfl]
  dsimp only [BitVec.reduceToNat]
  simp (disch := decide) only [fld, flag, field_above, field_below, field_whole, flag_bit, Nat.reduceSub] <;> rfl
theorem ssub (d : BitVec 6) (a : BitVec 6) (b : BitVec 6) (g : Bool) (t : Bool) : Statement (.ssub d a b g t) := by
  refine of_op 1 (w := 1#7 ++ d ++ a ++ b ++ 1#4 ++ bit g ++ bit t ++ 0#1) rfl (by simp (disch := decide) only [field_above, field_below, field_whole, Nat.reduceSub]) rfl ?_
  change decOp01 _ = _
  unfold decOp01
  rw [show fld (1#7 ++ d ++ a ++ b ++ 1#4 ++ bit g ++ bit t ++ 0#1) 3 4 = 1#4 by simp (disch := decide) only [field_above, field_below, field_whole, Nat.reduceSub] <;> rfl]
  dsimp only [BitVec.reduceToNat]
  simp (disch := decide) only [fld, flag, field_above, field_below, field_whole, flag_bit, Nat.reduceSub] <;> rfl
theorem smul (d : BitVec 6) (a : BitVec 6) (b : BitVec 6) (g : Bool) (t : Bool) : Statement (.smul d a b g t) := by
  refine of_op 1 (w := 1#7 ++ d ++ a ++ b ++ 2#4 ++ bit g ++ bit t ++ 0#1) rfl (by simp (disch := decide) only [field_above, field_below, field_whole, Nat.reduceSub]) rfl ?_
  change decOp01 _ = _
  unfold decOp01
  rw [show fld (1#7 ++ d ++ a ++ b ++ 2#4 ++ bit g ++ bit t ++ 0#1) 3 4 = 2#4 by simp (disch := decide) only [field_above, field_below, field_whole, Nat.reduceSub] <;> rfl]
  dsimp only [BitVec.reduceToNat]
  simp (disch := decide) only [fld, flag, field_above, field_below, field_whole, flag_bit, Nat.reduceSub] <;> rfl
theorem smulh (d : BitVec 6) (a : BitVec 6) (b : BitVec 6) (g : Bool) (t : Bool) : Statement (.smulh d a b g t) := by
  refine of_op 1 (w := 1#7 ++ d ++ a ++ b ++ 3#4 ++ bit g ++ bit t ++ 0#1) rfl (by simp (disch := decide) only [field_above, field_below, field_whole, Nat.reduceSub]) rfl ?_
  change decOp01 _ = _
  unfold decOp01
  rw [show fld (1#7 ++ d ++ a ++ b ++ 3#4 ++ bit g ++ bit t ++ 0#1) 3 4 = 3#4 by simp (disch := decide) only [field_above, field_below, field_whole, Nat.reduceSub] <;> rfl]
  dsimp only [BitVec.reduceToNat]
  simp (disch := decide) only [fld, flag, field_above, field_below, field_whole, flag_bit, Nat.reduceSub] <;> rfl
theorem sand (d : BitVec 6) (a : BitVec 6) (b : BitVec 6) (g : Bool) (t : Bool) : Statement (.sand d a b g t) := by
  refine of_op 1 (w := 1#7 ++ d ++ a ++ b ++ 4#4 ++ bit g ++ bit t ++ 0#1) rfl (by simp (disch := decide) only [field_above, field_below, field_whole, Nat.reduceSub]) rfl ?_
  change decOp01 _ = _
  unfold decOp01
  rw [show fld (1#7 ++ d ++ a ++ b ++ 4#4 ++ bit g ++ bit t ++ 0#1) 3 4 = 4#4 by simp (disch := decide) only [field_above, field_below, field_whole, Nat.reduceSub] <;> rfl]
  dsimp only [BitVec.reduceToNat]
  simp (disch := decide) only [fld, flag, field_above, field_below, field_whole, flag_bit, Nat.reduceSub] <;> rfl
theorem sor (d : BitVec 6) (a : BitVec 6) (b : BitVec 6) (g : Bool) (t : Bool) : Statement (.sor d a b g t) := by
  refine of_op 1 (w := 1#7 ++ d ++ a ++ b ++ 5#4 ++ bit g ++ bit t ++ 0#1) rfl (by simp (disch := decide) only [field_above, field_below, field_whole, Nat.reduceSub]) rfl ?_
  change decOp01 _ = _
  unfold decOp01
  rw [show fld (1#7 ++ d ++ a ++ b ++ 5#4 ++ bit g ++ bit t ++ 0#1) 3 4 = 5#4 by simp (disch := decide) only [field_above, field_below, field_whole, Nat.reduceSub] <;> rfl]
  dsimp only [BitVec.reduceToNat]
  simp (disch := decide) only [fld, flag, field_above, field_below, field_whole, flag_bit, Nat.reduceSub] <;> rfl
theorem sxor (d : BitVec 6) (a : BitVec 6) (b : BitVec 6) (g : Bool) (t : Bool) : Statement (.sxor d a b g t) := by
  refine of_op 1 (w := 1#7 ++ d ++ a ++ b ++ 6#4 ++ bit g ++ bit t ++ 0#1) rfl (by simp (disch := decide) only [field_above, field_below, field_whole, Nat.reduceSub]) rfl ?_
  change decOp01 _ = _
  unfold decOp01
  rw [show fld (1#7 ++ d ++ a ++ b ++ 6#4 ++ bit g ++ bit t ++ 0#1) 3 4 = 6#4 by simp (disch := decide) only [field_above, field_below, field_whole, Nat.reduceSub] <;> rfl]
  dsimp only [BitVec.reduceToNat]
  simp (disch := decide) only [fld, flag, field_above, field_below, field_whole, flag_bit, Nat.reduceSub] <;> rfl
theorem sshl (d : BitVec 6) (a : BitVec 6) (b : BitVec 6) (g : Bool) (t : Bool) : Statement (.sshl d a b g t) := by
  refine of_op 1 (w := 1#7 ++ d ++ a ++ b ++ 7#4 ++ bit g ++ bit t ++ 0#1) rfl (by simp (disch := decide) only [field_above, field_below, field_whole, Nat.reduceSub]) rfl ?_
  change decOp01 _ = _
  unfold decOp01
  rw [show fld (1#7 ++ d ++ a ++ b ++ 7#4 ++ bit g ++ bit t ++ 0#1) 3 4 = 7#4 by simp (disch := decide) only [field_above, field_below, field_whole, Nat.reduceSub] <;> rfl]
  dsimp only [BitVec.reduceToNat]
  simp (disch := decide) only [fld, flag, field_above, field_below, field_whole, flag_bit, Nat.reduceSub] <;> rfl
theorem sshr (d : BitVec 6) (a : BitVec 6) (b : BitVec 6) (g : Bool) (t : Bool) : Statement (.sshr d a b g t) := by
  refine of_op 1 (w := 1#7 ++ d ++ a ++ b ++ 8#4 ++ bit g ++ bit t ++ 0#1) rfl (by simp (disch := decide) only [field_above, field_below, field_whole, Nat.reduceSub]) rfl ?_
  change decOp01 _ = _
  unfold decOp01
  rw [show fld (1#7 ++ d ++ a ++ b ++ 8#4 ++ bit g ++ bit t ++ 0#1) 3 4 = 8#4 by simp (disch := decide) only [field_above, field_below, field_whole, Nat.reduceSub] <;> rfl]
  dsimp only [BitVec.reduceToNat]
  simp (disch := decide) only [fld, flag, field_above, field_below, field_whole, flag_bit, Nat.reduceSub] <;> rfl
theorem ssar (d : BitVec 6) (a : BitVec 6) (b : BitVec 6) (g : Bool) (t : Bool) : Statement (.ssar d a b g t) := by
  refine of_op 1 (w := 1#7 ++ d ++ a ++ b ++ 9#4 ++ bit g ++ bit t ++ 0#1) rfl (by simp (disch := decide) only [field_above, field_below, field_whole, Nat.reduceSub]) rfl ?_
  change decOp01 _ = _
  unfold decOp01
  rw [show fld (1#7 ++ d ++ a ++ b ++ 9#4 ++ bit g ++ bit t ++ 0#1) 3 4 = 9#4 by simp (disch := decide) only [field_above, field_below, field_whole, Nat.reduceSub] <;> rfl]
  dsimp only [BitVec.reduceToNat]
  simp (disch := decide) only [fld, flag, field_above, field_below, field_whole, flag_bit, Nat.reduceSub] <;> rfl
theorem smin (d : BitVec 6) (a : BitVec 6) (b : BitVec 6) (g : Bool) (t : Bool) : Statement (.smin d a b g t) := by
  refine of_op 1 (w := 1#7 ++ d ++ a ++ b ++ 10#4 ++ bit g ++ bit t ++ 0#1) rfl (by simp (disch := decide) only [field_above, field_below, field_whole, Nat.reduceSub]) rfl ?_
  change decOp01 _ = _
  unfold decOp01
  rw [show fld (1#7 ++ d ++ a ++ b ++ 10#4 ++ bit g ++ bit t ++ 0#1) 3 4 = 10#4 by simp (disch := decide) only [field_above, field_below, field_whole, Nat.reduceSub] <;> rfl]
  dsimp only [BitVec.reduceToNat]
  simp (disch := decide) only [fld, flag, field_above, field_below, field_whole, flag_bit, Nat.reduceSub] <;> rfl
theorem smax (d : BitVec 6) (a : BitVec 6) (b : BitVec 6) (g : Bool) (t : Bool) : Statement (.smax d a b g t) := by
  refine of_op 1 (w := 1#7 ++ d ++ a ++ b ++ 11#4 ++ bit g ++ bit t ++ 0#1) rfl (by simp (disch := decide) only [field_above, field_below, field_whole, Nat.reduceSub]) rfl ?_
  change decOp01 _ = _
  unfold decOp01
  rw [show fld (1#7 ++ d ++ a ++ b ++ 11#4 ++ bit g ++ bit t ++ 0#1) 3 4 = 11#4 by simp (disch := decide) only [field_above, field_below, field_whole, Nat.reduceSub] <;> rfl]
  dsimp only [BitVec.reduceToNat]
  simp (disch := decide) only [fld, flag, field_above, field_below, field_whole, flag_bit, Nat.reduceSub] <;> rfl
theorem sminu (d : BitVec 6) (a : BitVec 6) (b : BitVec 6) (g : Bool) (t : Bool) : Statement (.sminu d a b g t) := by
  refine of_op 1 (w := 1#7 ++ d ++ a ++ b ++ 12#4 ++ bit g ++ bit t ++ 0#1) rfl (by simp (disch := decide) only [field_above, field_below, field_whole, Nat.reduceSub]) rfl ?_
  change decOp01 _ = _
  unfold decOp01
  rw [show fld (1#7 ++ d ++ a ++ b ++ 12#4 ++ bit g ++ bit t ++ 0#1) 3 4 = 12#4 by simp (disch := decide) only [field_above, field_below, field_whole, Nat.reduceSub] <;> rfl]
  dsimp only [BitVec.reduceToNat]
  simp (disch := decide) only [fld, flag, field_above, field_below, field_whole, flag_bit, Nat.reduceSub] <;> rfl
theorem smaxu (d : BitVec 6) (a : BitVec 6) (b : BitVec 6) (g : Bool) (t : Bool) : Statement (.smaxu d a b g t) := by
  refine of_op 1 (w := 1#7 ++ d ++ a ++ b ++ 13#4 ++ bit g ++ bit t ++ 0#1) rfl (by simp (disch := decide) only [field_above, field_below, field_whole, Nat.reduceSub]) rfl ?_
  change decOp01 _ = _
  unfold decOp01
  rw [show fld (1#7 ++ d ++ a ++ b ++ 13#4 ++ bit g ++ bit t ++ 0#1) 3 4 = 13#4 by simp (disch := decide) only [field_above, field_below, field_whole, Nat.reduceSub] <;> rfl]
  dsimp only [BitVec.reduceToNat]
  simp (disch := decide) only [fld, flag, field_above, field_below, field_whole, flag_bit, Nat.reduceSub] <;> rfl
theorem sclz (d : BitVec 6) (a : BitVec 6) (g : Bool) (t : Bool) : Statement (.sclz d a g t) := by
  refine of_op 1 (w := 1#7 ++ d ++ a ++ 14#10 ++ bit g ++ bit t ++ 0#1) rfl (by simp (disch := decide) only [field_above, field_below, field_whole, Nat.reduceSub]) rfl ?_
  change decOp01 _ = _
  unfold decOp01
  rw [show fld (1#7 ++ d ++ a ++ 14#10 ++ bit g ++ bit t ++ 0#1) 3 4 = 14#4 by simp (disch := decide) only [field_above, field_below, field_whole, Nat.reduceSub] <;> rfl]
  dsimp only [BitVec.reduceToNat]
  simp (disch := decide) only [fld, flag, field_above, field_below, field_whole, flag_bit, Nat.reduceSub] <;> rfl
theorem spop (d : BitVec 6) (a : BitVec 6) (g : Bool) (t : Bool) : Statement (.spop d a g t) := by
  refine of_op 1 (w := 1#7 ++ d ++ a ++ 15#10 ++ bit g ++ bit t ++ 0#1) rfl (by simp (disch := decide) only [field_above, field_below, field_whole, Nat.reduceSub]) rfl ?_
  change decOp01 _ = _
  unfold decOp01
  rw [show fld (1#7 ++ d ++ a ++ 15#10 ++ bit g ++ bit t ++ 0#1) 3 4 = 15#4 by simp (disch := decide) only [field_above, field_below, field_whole, Nat.reduceSub] <;> rfl]
  dsimp only [BitVec.reduceToNat]
  simp (disch := decide) only [fld, flag, field_above, field_below, field_whole, flag_bit, Nat.reduceSub] <;> rfl
theorem saddi (d : BitVec 6) (a : BitVec 6) (imm : BitVec 12) (g : Bool) : Statement (.saddi d a imm g) := by
  refine of_op 2 (w := 2#7 ++ d ++ a ++ imm ++ bit g) rfl (by simp (disch := decide) only [field_above, field_below, field_whole, Nat.reduceSub]) rfl ?_
  change decOp02 _ = _
  unfold decOp02
  simp (disch := decide) only [fld, flag, field_above, field_below, field_whole, flag_bit, Nat.reduceSub] <;> rfl
theorem scmpeq (d : BitVec 3) (a : BitVec 6) (b : BitVec 6) (g : Bool) (t : Bool) : Statement (.scmpeq d a b g t) := by
  refine of_op 3 (w := 3#7 ++ 0#3 ++ d ++ a ++ b ++ 0#4 ++ bit g ++ bit t ++ 0#1) rfl (by simp (disch := decide) only [field_above, field_below, field_whole, Nat.reduceSub]) rfl ?_
  change decOp03 _ = _
  unfold decOp03
  rw [show fld (3#7 ++ 0#3 ++ d ++ a ++ b ++ 0#4 ++ bit g ++ bit t ++ 0#1) 3 4 = 0#4 by simp (disch := decide) only [field_above, field_below, field_whole, Nat.reduceSub] <;> rfl]
  dsimp only [BitVec.reduceToNat]
  simp (disch := decide) only [fld, flag, field_above, field_below, field_whole, flag_bit, Nat.reduceSub] <;> rfl
theorem scmpne (d : BitVec 3) (a : BitVec 6) (b : BitVec 6) (g : Bool) (t : Bool) : Statement (.scmpne d a b g t) := by
  refine of_op 3 (w := 3#7 ++ 0#3 ++ d ++ a ++ b ++ 1#4 ++ bit g ++ bit t ++ 0#1) rfl (by simp (disch := decide) only [field_above, field_below, field_whole, Nat.reduceSub]) rfl ?_
  change decOp03 _ = _
  unfold decOp03
  rw [show fld (3#7 ++ 0#3 ++ d ++ a ++ b ++ 1#4 ++ bit g ++ bit t ++ 0#1) 3 4 = 1#4 by simp (disch := decide) only [field_above, field_below, field_whole, Nat.reduceSub] <;> rfl]
  dsimp only [BitVec.reduceToNat]
  simp (disch := decide) only [fld, flag, field_above, field_below, field_whole, flag_bit, Nat.reduceSub] <;> rfl
theorem scmplt (d : BitVec 3) (a : BitVec 6) (b : BitVec 6) (g : Bool) (t : Bool) : Statement (.scmplt d a b g t) := by
  refine of_op 3 (w := 3#7 ++ 0#3 ++ d ++ a ++ b ++ 2#4 ++ bit g ++ bit t ++ 0#1) rfl (by simp (disch := decide) only [field_above, field_below, field_whole, Nat.reduceSub]) rfl ?_
  change decOp03 _ = _
  unfold decOp03
  rw [show fld (3#7 ++ 0#3 ++ d ++ a ++ b ++ 2#4 ++ bit g ++ bit t ++ 0#1) 3 4 = 2#4 by simp (disch := decide) only [field_above, field_below, field_whole, Nat.reduceSub] <;> rfl]
  dsimp only [BitVec.reduceToNat]
  simp (disch := decide) only [fld, flag, field_above, field_below, field_whole, flag_bit, Nat.reduceSub] <;> rfl
theorem scmple (d : BitVec 3) (a : BitVec 6) (b : BitVec 6) (g : Bool) (t : Bool) : Statement (.scmple d a b g t) := by
  refine of_op 3 (w := 3#7 ++ 0#3 ++ d ++ a ++ b ++ 3#4 ++ bit g ++ bit t ++ 0#1) rfl (by simp (disch := decide) only [field_above, field_below, field_whole, Nat.reduceSub]) rfl ?_
  change decOp03 _ = _
  unfold decOp03
  rw [show fld (3#7 ++ 0#3 ++ d ++ a ++ b ++ 3#4 ++ bit g ++ bit t ++ 0#1) 3 4 = 3#4 by simp (disch := decide) only [field_above, field_below, field_whole, Nat.reduceSub] <;> rfl]
  dsimp only [BitVec.reduceToNat]
  simp (disch := decide) only [fld, flag, field_above, field_below, field_whole, flag_bit, Nat.reduceSub] <;> rfl
theorem scmpltu (d : BitVec 3) (a : BitVec 6) (b : BitVec 6) (g : Bool) (t : Bool) : Statement (.scmpltu d a b g t) := by
  refine of_op 3 (w := 3#7 ++ 0#3 ++ d ++ a ++ b ++ 4#4 ++ bit g ++ bit t ++ 0#1) rfl (by simp (disch := decide) only [field_above, field_below, field_whole, Nat.reduceSub]) rfl ?_
  change decOp03 _ = _
  unfold decOp03
  rw [show fld (3#7 ++ 0#3 ++ d ++ a ++ b ++ 4#4 ++ bit g ++ bit t ++ 0#1) 3 4 = 4#4 by simp (disch := decide) only [field_above, field_below, field_whole, Nat.reduceSub] <;> rfl]
  dsimp only [BitVec.reduceToNat]
  simp (disch := decide) only [fld, flag, field_above, field_below, field_whole, flag_bit, Nat.reduceSub] <;> rfl
theorem scmpleu (d : BitVec 3) (a : BitVec 6) (b : BitVec 6) (g : Bool) (t : Bool) : Statement (.scmpleu d a b g t) := by
  refine of_op 3 (w := 3#7 ++ 0#3 ++ d ++ a ++ b ++ 5#4 ++ bit g ++ bit t ++ 0#1) rfl (by simp (disch := decide) only [field_above, field_below, field_whole, Nat.reduceSub]) rfl ?_
  change decOp03 _ = _
  unfold decOp03
  rw [show fld (3#7 ++ 0#3 ++ d ++ a ++ b ++ 5#4 ++ bit g ++ bit t ++ 0#1) 3 4 = 5#4 by simp (disch := decide) only [field_above, field_below, field_whole, Nat.reduceSub] <;> rfl]
  dsimp only [BitVec.reduceToNat]
  simp (disch := decide) only [fld, flag, field_above, field_below, field_whole, flag_bit, Nat.reduceSub] <;> rfl
theorem scmpgt (d : BitVec 3) (a : BitVec 6) (b : BitVec 6) (g : Bool) (t : Bool) : Statement (.scmpgt d a b g t) := by
  refine of_op 3 (w := 3#7 ++ 0#3 ++ d ++ a ++ b ++ 6#4 ++ bit g ++ bit t ++ 0#1) rfl (by simp (disch := decide) only [field_above, field_below, field_whole, Nat.reduceSub]) rfl ?_
  change decOp03 _ = _
  unfold decOp03
  rw [show fld (3#7 ++ 0#3 ++ d ++ a ++ b ++ 6#4 ++ bit g ++ bit t ++ 0#1) 3 4 = 6#4 by simp (disch := decide) only [field_above, field_below, field_whole, Nat.reduceSub] <;> rfl]
  dsimp only [BitVec.reduceToNat]
  simp (disch := decide) only [fld, flag, field_above, field_below, field_whole, flag_bit, Nat.reduceSub] <;> rfl
theorem scmpge (d : BitVec 3) (a : BitVec 6) (b : BitVec 6) (g : Bool) (t : Bool) : Statement (.scmpge d a b g t) := by
  refine of_op 3 (w := 3#7 ++ 0#3 ++ d ++ a ++ b ++ 7#4 ++ bit g ++ bit t ++ 0#1) rfl (by simp (disch := decide) only [field_above, field_below, field_whole, Nat.reduceSub]) rfl ?_
  change decOp03 _ = _
  unfold decOp03
  rw [show fld (3#7 ++ 0#3 ++ d ++ a ++ b ++ 7#4 ++ bit g ++ bit t ++ 0#1) 3 4 = 7#4 by simp (disch := decide) only [field_above, field_below, field_whole, Nat.reduceSub] <;> rfl]
  dsimp only [BitVec.reduceToNat]
  simp (disch := decide) only [fld, flag, field_above, field_below, field_whole, flag_bit, Nat.reduceSub] <;> rfl
theorem scmpgtu (d : BitVec 3) (a : BitVec 6) (b : BitVec 6) (g : Bool) (t : Bool) : Statement (.scmpgtu d a b g t) := by
  refine of_op 3 (w := 3#7 ++ 0#3 ++ d ++ a ++ b ++ 8#4 ++ bit g ++ bit t ++ 0#1) rfl (by simp (disch := decide) only [field_above, field_below, field_whole, Nat.reduceSub]) rfl ?_
  change decOp03 _ = _
  unfold decOp03
  rw [show fld (3#7 ++ 0#3 ++ d ++ a ++ b ++ 8#4 ++ bit g ++ bit t ++ 0#1) 3 4 = 8#4 by simp (disch := decide) only [field_above, field_below, field_whole, Nat.reduceSub] <;> rfl]
  dsimp only [BitVec.reduceToNat]
  simp (disch := decide) only [fld, flag, field_above, field_below, field_whole, flag_bit, Nat.reduceSub] <;> rfl
theorem scmpgeu (d : BitVec 3) (a : BitVec 6) (b : BitVec 6) (g : Bool) (t : Bool) : Statement (.scmpgeu d a b g t) := by
  refine of_op 3 (w := 3#7 ++ 0#3 ++ d ++ a ++ b ++ 9#4 ++ bit g ++ bit t ++ 0#1) rfl (by simp (disch := decide) only [field_above, field_below, field_whole, Nat.reduceSub]) rfl ?_
  change decOp03 _ = _
  unfold decOp03
  rw [show fld (3#7 ++ 0#3 ++ d ++ a ++ b ++ 9#4 ++ bit g ++ bit t ++ 0#1) 3 4 = 9#4 by simp (disch := decide) only [field_above, field_below, field_whole, Nat.reduceSub] <;> rfl]
  dsimp only [BitVec.reduceToNat]
  simp (disch := decide) only [fld, flag, field_above, field_below, field_whole, flag_bit, Nat.reduceSub] <;> rfl
theorem smovi (d : BitVec 6) (imm : BitVec 16) : Statement (.smovi d imm) := by
  refine of_op 4 (w := 4#7 ++ d ++ 0#3 ++ imm) rfl (by simp (disch := decide) only [field_above, field_below, field_whole, Nat.reduceSub]) rfl ?_
  change decOp04 _ = _
  unfold decOp04
  rw [show fld (4#7 ++ d ++ 0#3 ++ imm) 16 3 = 0#3 by simp (disch := decide) only [field_above, field_below, field_whole, Nat.reduceSub] <;> rfl]
  dsimp only [BitVec.reduceToNat]
  simp (disch := decide) only [fld, flag, field_above, field_below, field_whole, flag_bit, Nat.reduceSub] <;> rfl
theorem sins16 (d : BitVec 6) (imm : BitVec 16) : Statement (.sins16 d imm) := by
  refine of_op 4 (w := 4#7 ++ d ++ 1#3 ++ imm) rfl (by simp (disch := decide) only [field_above, field_below, field_whole, Nat.reduceSub]) rfl ?_
  change decOp04 _ = _
  unfold decOp04
  rw [show fld (4#7 ++ d ++ 1#3 ++ imm) 16 3 = 1#3 by simp (disch := decide) only [field_above, field_below, field_whole, Nat.reduceSub] <;> rfl]
  dsimp only [BitVec.reduceToNat]
  simp (disch := decide) only [fld, flag, field_above, field_below, field_whole, flag_bit, Nat.reduceSub] <;> rfl
theorem sins32 (d : BitVec 6) (imm : BitVec 16) : Statement (.sins32 d imm) := by
  refine of_op 4 (w := 4#7 ++ d ++ 2#3 ++ imm) rfl (by simp (disch := decide) only [field_above, field_below, field_whole, Nat.reduceSub]) rfl ?_
  change decOp04 _ = _
  unfold decOp04
  rw [show fld (4#7 ++ d ++ 2#3 ++ imm) 16 3 = 2#3 by simp (disch := decide) only [field_above, field_below, field_whole, Nat.reduceSub] <;> rfl]
  dsimp only [BitVec.reduceToNat]
  simp (disch := decide) only [fld, flag, field_above, field_below, field_whole, flag_bit, Nat.reduceSub] <;> rfl
theorem sins48 (d : BitVec 6) (imm : BitVec 16) : Statement (.sins48 d imm) := by
  refine of_op 4 (w := 4#7 ++ d ++ 3#3 ++ imm) rfl (by simp (disch := decide) only [field_above, field_below, field_whole, Nat.reduceSub]) rfl ?_
  change decOp04 _ = _
  unfold decOp04
  rw [show fld (4#7 ++ d ++ 3#3 ++ imm) 16 3 = 3#3 by simp (disch := decide) only [field_above, field_below, field_whole, Nat.reduceSub] <;> rfl]
  dsimp only [BitVec.reduceToNat]
  simp (disch := decide) only [fld, flag, field_above, field_below, field_whole, flag_bit, Nat.reduceSub] <;> rfl
theorem smovl (d : BitVec 6) (g : Bool) (lit : BitVec 32) : Statement (.smovl d g lit) := by
  refine of_op 5 (w := 5#7 ++ d ++ 0#3 ++ 0#15 ++ bit g) rfl (by simp (disch := decide) only [field_above, field_below, field_whole, Nat.reduceSub]) rfl ?_
  change decOp05 _ _ = _
  unfold decOp05
  rw [show fld (5#7 ++ d ++ 0#3 ++ 0#15 ++ bit g) 16 3 = 0#3 by simp (disch := decide) only [field_above, field_below, field_whole, Nat.reduceSub] <;> rfl]
  dsimp only [BitVec.reduceToNat]
  simp (disch := decide) only [fld, flag, field_above, field_below, field_whole, flag_bit, Nat.reduceSub] <;> rfl
theorem smovlz (d : BitVec 6) (g : Bool) (lit : BitVec 32) : Statement (.smovlz d g lit) := by
  refine of_op 5 (w := 5#7 ++ d ++ 1#3 ++ 0#15 ++ bit g) rfl (by simp (disch := decide) only [field_above, field_below, field_whole, Nat.reduceSub]) rfl ?_
  change decOp05 _ _ = _
  unfold decOp05
  rw [show fld (5#7 ++ d ++ 1#3 ++ 0#15 ++ bit g) 16 3 = 1#3 by simp (disch := decide) only [field_above, field_below, field_whole, Nat.reduceSub] <;> rfl]
  dsimp only [BitVec.reduceToNat]
  simp (disch := decide) only [fld, flag, field_above, field_below, field_whole, flag_bit, Nat.reduceSub] <;> rfl
theorem smovlh (d : BitVec 6) (g : Bool) (lit : BitVec 32) : Statement (.smovlh d g lit) := by
  refine of_op 5 (w := 5#7 ++ d ++ 2#3 ++ 0#15 ++ bit g) rfl (by simp (disch := decide) only [field_above, field_below, field_whole, Nat.reduceSub]) rfl ?_
  change decOp05 _ _ = _
  unfold decOp05
  rw [show fld (5#7 ++ d ++ 2#3 ++ 0#15 ++ bit g) 16 3 = 2#3 by simp (disch := decide) only [field_above, field_below, field_whole, Nat.reduceSub] <;> rfl]
  dsimp only [BitVec.reduceToNat]
  simp (disch := decide) only [fld, flag, field_above, field_below, field_whole, flag_bit, Nat.reduceSub] <;> rfl
theorem ssel (d : BitVec 6) (a : BitVec 6) (b : BitVec 6) (c : BitVec 6) (g : Bool) : Statement (.ssel d a b c g) := by
  refine of_op 6 (w := 6#7 ++ d ++ a ++ b ++ c ++ bit g) rfl (by simp (disch := decide) only [field_above, field_below, field_whole, Nat.reduceSub]) rfl ?_
  change decOp06 _ = _
  unfold decOp06
  simp (disch := decide) only [fld, flag, field_above, field_below, field_whole, flag_bit, Nat.reduceSub] <;> rfl
theorem sdiv (d : BitVec 6) (a : BitVec 6) (b : BitVec 6) (g : Bool) (t : Bool) : Statement (.sdiv d a b g t) := by
  refine of_op 7 (w := 7#7 ++ d ++ a ++ b ++ 0#4 ++ bit g ++ bit t ++ 0#1) rfl (by simp (disch := decide) only [field_above, field_below, field_whole, Nat.reduceSub]) rfl ?_
  change decOp07 _ = _
  unfold decOp07
  rw [show fld (7#7 ++ d ++ a ++ b ++ 0#4 ++ bit g ++ bit t ++ 0#1) 3 4 = 0#4 by simp (disch := decide) only [field_above, field_below, field_whole, Nat.reduceSub] <;> rfl]
  dsimp only [BitVec.reduceToNat]
  simp (disch := decide) only [fld, flag, field_above, field_below, field_whole, flag_bit, Nat.reduceSub] <;> rfl
theorem sdivu (d : BitVec 6) (a : BitVec 6) (b : BitVec 6) (g : Bool) (t : Bool) : Statement (.sdivu d a b g t) := by
  refine of_op 7 (w := 7#7 ++ d ++ a ++ b ++ 1#4 ++ bit g ++ bit t ++ 0#1) rfl (by simp (disch := decide) only [field_above, field_below, field_whole, Nat.reduceSub]) rfl ?_
  change decOp07 _ = _
  unfold decOp07
  rw [show fld (7#7 ++ d ++ a ++ b ++ 1#4 ++ bit g ++ bit t ++ 0#1) 3 4 = 1#4 by simp (disch := decide) only [field_above, field_below, field_whole, Nat.reduceSub] <;> rfl]
  dsimp only [BitVec.reduceToNat]
  simp (disch := decide) only [fld, flag, field_above, field_below, field_whole, flag_bit, Nat.reduceSub] <;> rfl
theorem srem (d : BitVec 6) (a : BitVec 6) (b : BitVec 6) (g : Bool) (t : Bool) : Statement (.srem d a b g t) := by
  refine of_op 7 (w := 7#7 ++ d ++ a ++ b ++ 2#4 ++ bit g ++ bit t ++ 0#1) rfl (by simp (disch := decide) only [field_above, field_below, field_whole, Nat.reduceSub]) rfl ?_
  change decOp07 _ = _
  unfold decOp07
  rw [show fld (7#7 ++ d ++ a ++ b ++ 2#4 ++ bit g ++ bit t ++ 0#1) 3 4 = 2#4 by simp (disch := decide) only [field_above, field_below, field_whole, Nat.reduceSub] <;> rfl]
  dsimp only [BitVec.reduceToNat]
  simp (disch := decide) only [fld, flag, field_above, field_below, field_whole, flag_bit, Nat.reduceSub] <;> rfl
theorem sremu (d : BitVec 6) (a : BitVec 6) (b : BitVec 6) (g : Bool) (t : Bool) : Statement (.sremu d a b g t) := by
  refine of_op 7 (w := 7#7 ++ d ++ a ++ b ++ 3#4 ++ bit g ++ bit t ++ 0#1) rfl (by simp (disch := decide) only [field_above, field_below, field_whole, Nat.reduceSub]) rfl ?_
  change decOp07 _ = _
  unfold decOp07
  rw [show fld (7#7 ++ d ++ a ++ b ++ 3#4 ++ bit g ++ bit t ++ 0#1) 3 4 = 3#4 by simp (disch := decide) only [field_above, field_below, field_whole, Nat.reduceSub] <;> rfl]
  dsimp only [BitVec.reduceToNat]
  simp (disch := decide) only [fld, flag, field_above, field_below, field_whole, flag_bit, Nat.reduceSub] <;> rfl
theorem pand (d : BitVec 3) (a : BitVec 3) (b : BitVec 3) (g : Bool) : Statement (.pand d a b g) := by
  refine of_op 8 (w := 8#7 ++ 0#3 ++ d ++ 0#3 ++ a ++ 0#3 ++ b ++ 0#4 ++ bit g ++ 0#2) rfl (by simp (disch := decide) only [field_above, field_below, field_whole, Nat.reduceSub]) rfl ?_
  change decOp08 _ = _
  unfold decOp08
  rw [show fld (8#7 ++ 0#3 ++ d ++ 0#3 ++ a ++ 0#3 ++ b ++ 0#4 ++ bit g ++ 0#2) 3 4 = 0#4 by simp (disch := decide) only [field_above, field_below, field_whole, Nat.reduceSub] <;> rfl]
  dsimp only [BitVec.reduceToNat]
  simp (disch := decide) only [fld, flag, field_above, field_below, field_whole, flag_bit, Nat.reduceSub] <;> rfl
theorem por (d : BitVec 3) (a : BitVec 3) (b : BitVec 3) (g : Bool) : Statement (.por d a b g) := by
  refine of_op 8 (w := 8#7 ++ 0#3 ++ d ++ 0#3 ++ a ++ 0#3 ++ b ++ 1#4 ++ bit g ++ 0#2) rfl (by simp (disch := decide) only [field_above, field_below, field_whole, Nat.reduceSub]) rfl ?_
  change decOp08 _ = _
  unfold decOp08
  rw [show fld (8#7 ++ 0#3 ++ d ++ 0#3 ++ a ++ 0#3 ++ b ++ 1#4 ++ bit g ++ 0#2) 3 4 = 1#4 by simp (disch := decide) only [field_above, field_below, field_whole, Nat.reduceSub] <;> rfl]
  dsimp only [BitVec.reduceToNat]
  simp (disch := decide) only [fld, flag, field_above, field_below, field_whole, flag_bit, Nat.reduceSub] <;> rfl
theorem pxor (d : BitVec 3) (a : BitVec 3) (b : BitVec 3) (g : Bool) : Statement (.pxor d a b g) := by
  refine of_op 8 (w := 8#7 ++ 0#3 ++ d ++ 0#3 ++ a ++ 0#3 ++ b ++ 2#4 ++ bit g ++ 0#2) rfl (by simp (disch := decide) only [field_above, field_below, field_whole, Nat.reduceSub]) rfl ?_
  change decOp08 _ = _
  unfold decOp08
  rw [show fld (8#7 ++ 0#3 ++ d ++ 0#3 ++ a ++ 0#3 ++ b ++ 2#4 ++ bit g ++ 0#2) 3 4 = 2#4 by simp (disch := decide) only [field_above, field_below, field_whole, Nat.reduceSub] <;> rfl]
  dsimp only [BitVec.reduceToNat]
  simp (disch := decide) only [fld, flag, field_above, field_below, field_whole, flag_bit, Nat.reduceSub] <;> rfl
theorem pandn (d : BitVec 3) (a : BitVec 3) (b : BitVec 3) (g : Bool) : Statement (.pandn d a b g) := by
  refine of_op 8 (w := 8#7 ++ 0#3 ++ d ++ 0#3 ++ a ++ 0#3 ++ b ++ 3#4 ++ bit g ++ 0#2) rfl (by simp (disch := decide) only [field_above, field_below, field_whole, Nat.reduceSub]) rfl ?_
  change decOp08 _ = _
  unfold decOp08
  rw [show fld (8#7 ++ 0#3 ++ d ++ 0#3 ++ a ++ 0#3 ++ b ++ 3#4 ++ bit g ++ 0#2) 3 4 = 3#4 by simp (disch := decide) only [field_above, field_below, field_whole, Nat.reduceSub] <;> rfl]
  dsimp only [BitVec.reduceToNat]
  simp (disch := decide) only [fld, flag, field_above, field_below, field_whole, flag_bit, Nat.reduceSub] <;> rfl
theorem pnot (d : BitVec 3) (a : BitVec 3) (g : Bool) : Statement (.pnot d a g) := by
  refine of_op 8 (w := 8#7 ++ 0#3 ++ d ++ 0#3 ++ a ++ 4#10 ++ bit g ++ 0#2) rfl (by simp (disch := decide) only [field_above, field_below, field_whole, Nat.reduceSub]) rfl ?_
  change decOp08 _ = _
  unfold decOp08
  rw [show fld (8#7 ++ 0#3 ++ d ++ 0#3 ++ a ++ 4#10 ++ bit g ++ 0#2) 3 4 = 4#4 by simp (disch := decide) only [field_above, field_below, field_whole, Nat.reduceSub] <;> rfl]
  dsimp only [BitVec.reduceToNat]
  simp (disch := decide) only [fld, flag, field_above, field_below, field_whole, flag_bit, Nat.reduceSub] <;> rfl
theorem pmov (d : BitVec 3) (a : BitVec 3) (g : Bool) : Statement (.pmov d a g) := by
  refine of_op 8 (w := 8#7 ++ 0#3 ++ d ++ 0#3 ++ a ++ 5#10 ++ bit g ++ 0#2) rfl (by simp (disch := decide) only [field_above, field_below, field_whole, Nat.reduceSub]) rfl ?_
  change decOp08 _ = _
  unfold decOp08
  rw [show fld (8#7 ++ 0#3 ++ d ++ 0#3 ++ a ++ 5#10 ++ bit g ++ 0#2) 3 4 = 5#4 by simp (disch := decide) only [field_above, field_below, field_whole, Nat.reduceSub] <;> rfl]
  dsimp only [BitVec.reduceToNat]
  simp (disch := decide) only [fld, flag, field_above, field_below, field_whole, flag_bit, Nat.reduceSub] <;> rfl
theorem pset (d : BitVec 3) (g : Bool) : Statement (.pset d g) := by
  refine of_op 8 (w := 8#7 ++ 0#3 ++ d ++ 6#16 ++ bit g ++ 0#2) rfl (by simp (disch := decide) only [field_above, field_below, field_whole, Nat.reduceSub]) rfl ?_
  change decOp08 _ = _
  unfold decOp08
  rw [show fld (8#7 ++ 0#3 ++ d ++ 6#16 ++ bit g ++ 0#2) 3 4 = 6#4 by simp (disch := decide) only [field_above, field_below, field_whole, Nat.reduceSub] <;> rfl]
  dsimp only [BitVec.reduceToNat]
  simp (disch := decide) only [fld, flag, field_above, field_below, field_whole, flag_bit, Nat.reduceSub] <;> rfl
theorem pclr (d : BitVec 3) (g : Bool) : Statement (.pclr d g) := by
  refine of_op 8 (w := 8#7 ++ 0#3 ++ d ++ 7#16 ++ bit g ++ 0#2) rfl (by simp (disch := decide) only [field_above, field_below, field_whole, Nat.reduceSub]) rfl ?_
  change decOp08 _ = _
  unfold decOp08
  rw [show fld (8#7 ++ 0#3 ++ d ++ 7#16 ++ bit g ++ 0#2) 3 4 = 7#4 by simp (disch := decide) only [field_above, field_below, field_whole, Nat.reduceSub] <;> rfl]
  dsimp only [BitVec.reduceToNat]
  simp (disch := decide) only [fld, flag, field_above, field_below, field_whole, flag_bit, Nat.reduceSub] <;> rfl
theorem pany (d : BitVec 6) (a : BitVec 3) (g : Bool) : Statement (.pany d a g) := by
  refine of_op 9 (w := 9#7 ++ d ++ 0#3 ++ a ++ 0#10 ++ bit g ++ 0#2) rfl (by simp (disch := decide) only [field_above, field_below, field_whole, Nat.reduceSub]) rfl ?_
  change decOp09 _ = _
  unfold decOp09
  rw [show fld (9#7 ++ d ++ 0#3 ++ a ++ 0#10 ++ bit g ++ 0#2) 3 4 = 0#4 by simp (disch := decide) only [field_above, field_below, field_whole, Nat.reduceSub] <;> rfl]
  dsimp only [BitVec.reduceToNat]
  simp (disch := decide) only [fld, flag, field_above, field_below, field_whole, flag_bit, Nat.reduceSub] <;> rfl
theorem pall (d : BitVec 6) (a : BitVec 3) (g : Bool) : Statement (.pall d a g) := by
  refine of_op 9 (w := 9#7 ++ d ++ 0#3 ++ a ++ 1#10 ++ bit g ++ 0#2) rfl (by simp (disch := decide) only [field_above, field_below, field_whole, Nat.reduceSub]) rfl ?_
  change decOp09 _ = _
  unfold decOp09
  rw [show fld (9#7 ++ d ++ 0#3 ++ a ++ 1#10 ++ bit g ++ 0#2) 3 4 = 1#4 by simp (disch := decide) only [field_above, field_below, field_whole, Nat.reduceSub] <;> rfl]
  dsimp only [BitVec.reduceToNat]
  simp (disch := decide) only [fld, flag, field_above, field_below, field_whole, flag_bit, Nat.reduceSub] <;> rfl
theorem ppop (d : BitVec 6) (a : BitVec 3) (g : Bool) : Statement (.ppop d a g) := by
  refine of_op 9 (w := 9#7 ++ d ++ 0#3 ++ a ++ 2#10 ++ bit g ++ 0#2) rfl (by simp (disch := decide) only [field_above, field_below, field_whole, Nat.reduceSub]) rfl ?_
  change decOp09 _ = _
  unfold decOp09
  rw [show fld (9#7 ++ d ++ 0#3 ++ a ++ 2#10 ++ bit g ++ 0#2) 3 4 = 2#4 by simp (disch := decide) only [field_above, field_below, field_whole, Nat.reduceSub] <;> rfl]
  dsimp only [BitVec.reduceToNat]
  simp (disch := decide) only [fld, flag, field_above, field_below, field_whole, flag_bit, Nat.reduceSub] <;> rfl
theorem ptos (d : BitVec 6) (a : BitVec 3) (g : Bool) : Statement (.ptos d a g) := by
  refine of_op 9 (w := 9#7 ++ d ++ 0#3 ++ a ++ 3#10 ++ bit g ++ 0#2) rfl (by simp (disch := decide) only [field_above, field_below, field_whole, Nat.reduceSub]) rfl ?_
  change decOp09 _ = _
  unfold decOp09
  rw [show fld (9#7 ++ d ++ 0#3 ++ a ++ 3#10 ++ bit g ++ 0#2) 3 4 = 3#4 by simp (disch := decide) only [field_above, field_below, field_whole, Nat.reduceSub] <;> rfl]
  dsimp only [BitVec.reduceToNat]
  simp (disch := decide) only [fld, flag, field_above, field_below, field_whole, flag_bit, Nat.reduceSub] <;> rfl
theorem stop (d : BitVec 3) (a : BitVec 6) (g : Bool) : Statement (.stop d a g) := by
  refine of_op 9 (w := 9#7 ++ 0#3 ++ d ++ a ++ 4#10 ++ bit g ++ 0#2) rfl (by simp (disch := decide) only [field_above, field_below, field_whole, Nat.reduceSub]) rfl ?_
  change decOp09 _ = _
  unfold decOp09
  rw [show fld (9#7 ++ 0#3 ++ d ++ a ++ 4#10 ++ bit g ++ 0#2) 3 4 = 4#4 by simp (disch := decide) only [field_above, field_below, field_whole, Nat.reduceSub] <;> rfl]
  dsimp only [BitVec.reduceToNat]
  simp (disch := decide) only [fld, flag, field_above, field_below, field_whole, flag_bit, Nat.reduceSub] <;> rfl
theorem br (off : BitVec 22) : Statement (.br off) := by
  refine of_op 10 (w := 10#7 ++ 0#3 ++ off) rfl (by simp (disch := decide) only [field_above, field_below, field_whole, Nat.reduceSub]) rfl ?_
  change decOp0A _ = _
  unfold decOp0A
  simp (disch := decide) only [fld, flag, field_above, field_below, field_whole, flag_bit, Nat.reduceSub] <;> rfl
theorem brs (a : BitVec 6) (n : Bool) (off : BitVec 18) : Statement (.brs a n off) := by
  refine of_op 11 (w := 11#7 ++ a ++ bit n ++ off) rfl (by simp (disch := decide) only [field_above, field_below, field_whole, Nat.reduceSub]) rfl ?_
  change decOp0B _ = _
  unfold decOp0B
  simp (disch := decide) only [fld, flag, field_above, field_below, field_whole, flag_bit, Nat.reduceSub] <;> rfl
theorem brc (p : BitVec 3) (n : Bool) (tgt : BitVec 13) (rcd : BitVec 8) : Statement (.brc p n tgt rcd) := by
  refine of_op 12 (w := 12#7 ++ p ++ bit n ++ tgt ++ rcd) rfl (by simp (disch := decide) only [field_above, field_below, field_whole, Nat.reduceSub]) rfl ?_
  change decOp0C _ = _
  unfold decOp0C
  simp (disch := decide) only [fld, flag, field_above, field_below, field_whole, flag_bit, Nat.reduceSub] <;> rfl
theorem brcl (p : BitVec 3) (n : Bool) (tgt : BitVec 13) (lit : BitVec 32) : Statement (.brcl p n tgt lit) := by
  refine of_op 13 (w := 13#7 ++ p ++ bit n ++ tgt ++ 0#8) rfl (by simp (disch := decide) only [field_above, field_below, field_whole, Nat.reduceSub]) rfl ?_
  change decOp0D _ _ = _
  unfold decOp0D
  simp (disch := decide) only [fld, flag, field_above, field_below, field_whole, flag_bit, Nat.reduceSub] <;> rfl
theorem call (k : BitVec 3) (off : BitVec 22) : Statement (.call k off) := by
  refine of_op 14 (w := 14#7 ++ k ++ off) rfl (by simp (disch := decide) only [field_above, field_below, field_whole, Nat.reduceSub]) rfl ?_
  change decOp0E _ = _
  unfold decOp0E
  simp (disch := decide) only [fld, flag, field_above, field_below, field_whole, flag_bit, Nat.reduceSub] <;> rfl
theorem callr (a : BitVec 6) (k : BitVec 3) : Statement (.callr a k) := by
  refine of_op 15 (w := 15#7 ++ 0#6 ++ a ++ 0#7 ++ k ++ 0#3) rfl (by simp (disch := decide) only [field_above, field_below, field_whole, Nat.reduceSub]) rfl ?_
  change decOp0F _ = _
  unfold decOp0F
  simp (disch := decide) only [fld, flag, field_above, field_below, field_whole, flag_bit, Nat.reduceSub] <;> rfl
theorem ret : Statement .ret := by
  refine of_op 16 (w := 16#7 ++ 0#25) rfl (by simp (disch := decide) only [field_above, field_below, field_whole, Nat.reduceSub]) rfl ?_
  change decOp10 _ = _
  unfold decOp10
  simp (disch := decide) only [fld, flag, field_above, field_below, field_whole, flag_bit, Nat.reduceSub] <;> rfl
theorem enter (f : BitVec 4) : Statement (.enter f) := by
  refine of_op 17 (w := 17#7 ++ 0#21 ++ f) rfl (by simp (disch := decide) only [field_above, field_below, field_whole, Nat.reduceSub]) rfl ?_
  change decOp11 _ = _
  unfold decOp11
  simp (disch := decide) only [fld, flag, field_above, field_below, field_whole, flag_bit, Nat.reduceSub] <;> rfl
theorem loop (last : BitVec 8) (count : BitVec 16) : Statement (.loop last count) := by
  refine of_op 18 (w := 18#7 ++ last ++ count ++ 0#1) rfl (by simp (disch := decide) only [field_above, field_below, field_whole, Nat.reduceSub]) rfl ?_
  change decOp12 _ = _
  unfold decOp12
  simp (disch := decide) only [fld, flag, field_above, field_below, field_whole, flag_bit, Nat.reduceSub] <;> rfl
theorem loopr (last : BitVec 8) (sc : BitVec 6) : Statement (.loopr last sc) := by
  refine of_op 19 (w := 19#7 ++ last ++ 0#10 ++ sc ++ 0#1) rfl (by simp (disch := decide) only [field_above, field_below, field_whole, Nat.reduceSub]) rfl ?_
  change decOp13 _ = _
  unfold decOp13
  simp (disch := decide) only [fld, flag, field_above, field_below, field_whole, flag_bit, Nat.reduceSub] <;> rfl
theorem lbrk : Statement .lbrk := by
  refine of_op 20 (w := 20#7 ++ 0#25) rfl (by simp (disch := decide) only [field_above, field_below, field_whole, Nat.reduceSub]) rfl ?_
  change decOp14 _ = _
  unfold decOp14
  simp (disch := decide) only [fld, flag, field_above, field_below, field_whole, flag_bit, Nat.reduceSub] <;> rfl
theorem exit (g : Bool) : Statement (.exit g) := by
  refine of_op 21 (w := 21#7 ++ 0#24 ++ bit g) rfl (by simp (disch := decide) only [field_above, field_below, field_whole, Nat.reduceSub]) rfl ?_
  change decOp15 _ = _
  unfold decOp15
  simp (disch := decide) only [fld, flag, field_above, field_below, field_whole, flag_bit, Nat.reduceSub] <;> rfl
theorem setmg (imm : BitVec 4) : Statement (.setmg imm) := by
  refine of_op 22 (w := 22#7 ++ 0#21 ++ imm) rfl (by simp (disch := decide) only [field_above, field_below, field_whole, Nat.reduceSub]) rfl ?_
  change decOp16 _ = _
  unfold decOp16
  rw [show fld (22#7 ++ 0#21 ++ imm) 16 3 = 0#3 by simp (disch := decide) only [field_above, field_below, field_whole, Nat.reduceSub] <;> rfl]
  dsimp only [BitVec.reduceToNat]
  simp (disch := decide) only [fld, flag, field_above, field_below, field_whole, flag_bit, Nat.reduceSub] <;> rfl
theorem setmt (imm : BitVec 10) : Statement (.setmt imm) := by
  refine of_op 22 (w := 22#7 ++ 64#15 ++ imm) rfl (by simp (disch := decide) only [field_above, field_below, field_whole, Nat.reduceSub]) rfl ?_
  change decOp16 _ = _
  unfold decOp16
  rw [show fld (22#7 ++ 64#15 ++ imm) 16 3 = 1#3 by simp (disch := decide) only [field_above, field_below, field_whole, Nat.reduceSub] <;> rfl]
  dsimp only [BitVec.reduceToNat]
  simp (disch := decide) only [fld, flag, field_above, field_below, field_whole, flag_bit, Nat.reduceSub] <;> rfl
theorem setmr (imm : BitVec 7) : Statement (.setmr imm) := by
  refine of_op 22 (w := 22#7 ++ 1024#18 ++ imm) rfl (by simp (disch := decide) only [field_above, field_below, field_whole, Nat.reduceSub]) rfl ?_
  change decOp16 _ = _
  unfold decOp16
  rw [show fld (22#7 ++ 1024#18 ++ imm) 16 3 = 2#3 by simp (disch := decide) only [field_above, field_below, field_whole, Nat.reduceSub] <;> rfl]
  dsimp only [BitVec.reduceToNat]
  simp (disch := decide) only [fld, flag, field_above, field_below, field_whole, flag_bit, Nat.reduceSub] <;> rfl
theorem setm (d : BitVec 6) : Statement (.setm d) := by
  refine of_op 22 (w := 22#7 ++ d ++ 196608#19) rfl (by simp (disch := decide) only [field_above, field_below, field_whole, Nat.reduceSub]) rfl ?_
  change decOp16 _ = _
  unfold decOp16
  rw [show fld (22#7 ++ d ++ 196608#19) 16 3 = 3#3 by simp (disch := decide) only [field_above, field_below, field_whole, Nat.reduceSub] <;> rfl]
  dsimp only [BitVec.reduceToNat]
  simp (disch := decide) only [fld, flag, field_above, field_below, field_whole, flag_bit, Nat.reduceSub] <;> rfl
theorem getm (d : BitVec 6) : Statement (.getm d) := by
  refine of_op 23 (w := 23#7 ++ d ++ 0#19) rfl (by simp (disch := decide) only [field_above, field_below, field_whole, Nat.reduceSub]) rfl ?_
  change decOp17 _ = _
  unfold decOp17
  simp (disch := decide) only [fld, flag, field_above, field_below, field_whole, flag_bit, Nat.reduceSub] <;> rfl
theorem vadd (d : BitVec 6) (a : BitVec 6) (b : BitVec 6) (g : Bool) (t : Bool) : Statement (.vadd d a b g t) := by
  refine of_op 32 (w := 32#7 ++ d ++ a ++ b ++ 0#4 ++ bit g ++ bit t ++ 0#1) rfl (by simp (disch := decide) only [field_above, field_below, field_whole, Nat.reduceSub]) rfl ?_
  change decOp20 _ = _
  unfold decOp20
  rw [show fld (32#7 ++ d ++ a ++ b ++ 0#4 ++ bit g ++ bit t ++ 0#1) 3 4 = 0#4 by simp (disch := decide) only [field_above, field_below, field_whole, Nat.reduceSub] <;> rfl]
  dsimp only [BitVec.reduceToNat]
  simp (disch := decide) only [fld, flag, field_above, field_below, field_whole, flag_bit, Nat.reduceSub] <;> rfl
theorem vsub (d : BitVec 6) (a : BitVec 6) (b : BitVec 6) (g : Bool) (t : Bool) : Statement (.vsub d a b g t) := by
  refine of_op 32 (w := 32#7 ++ d ++ a ++ b ++ 1#4 ++ bit g ++ bit t ++ 0#1) rfl (by simp (disch := decide) only [field_above, field_below, field_whole, Nat.reduceSub]) rfl ?_
  change decOp20 _ = _
  unfold decOp20
  rw [show fld (32#7 ++ d ++ a ++ b ++ 1#4 ++ bit g ++ bit t ++ 0#1) 3 4 = 1#4 by simp (disch := decide) only [field_above, field_below, field_whole, Nat.reduceSub] <;> rfl]
  dsimp only [BitVec.reduceToNat]
  simp (disch := decide) only [fld, flag, field_above, field_below, field_whole, flag_bit, Nat.reduceSub] <;> rfl
theorem vmul (d : BitVec 6) (a : BitVec 6) (b : BitVec 6) (g : Bool) (t : Bool) : Statement (.vmul d a b g t) := by
  refine of_op 32 (w := 32#7 ++ d ++ a ++ b ++ 2#4 ++ bit g ++ bit t ++ 0#1) rfl (by simp (disch := decide) only [field_above, field_below, field_whole, Nat.reduceSub]) rfl ?_
  change decOp20 _ = _
  unfold decOp20
  rw [show fld (32#7 ++ d ++ a ++ b ++ 2#4 ++ bit g ++ bit t ++ 0#1) 3 4 = 2#4 by simp (disch := decide) only [field_above, field_below, field_whole, Nat.reduceSub] <;> rfl]
  dsimp only [BitVec.reduceToNat]
  simp (disch := decide) only [fld, flag, field_above, field_below, field_whole, flag_bit, Nat.reduceSub] <;> rfl
theorem vmulh (d : BitVec 6) (a : BitVec 6) (b : BitVec 6) (g : Bool) (t : Bool) : Statement (.vmulh d a b g t) := by
  refine of_op 32 (w := 32#7 ++ d ++ a ++ b ++ 3#4 ++ bit g ++ bit t ++ 0#1) rfl (by simp (disch := decide) only [field_above, field_below, field_whole, Nat.reduceSub]) rfl ?_
  change decOp20 _ = _
  unfold decOp20
  rw [show fld (32#7 ++ d ++ a ++ b ++ 3#4 ++ bit g ++ bit t ++ 0#1) 3 4 = 3#4 by simp (disch := decide) only [field_above, field_below, field_whole, Nat.reduceSub] <;> rfl]
  dsimp only [BitVec.reduceToNat]
  simp (disch := decide) only [fld, flag, field_above, field_below, field_whole, flag_bit, Nat.reduceSub] <;> rfl
theorem vmulhu (d : BitVec 6) (a : BitVec 6) (b : BitVec 6) (g : Bool) (t : Bool) : Statement (.vmulhu d a b g t) := by
  refine of_op 32 (w := 32#7 ++ d ++ a ++ b ++ 4#4 ++ bit g ++ bit t ++ 0#1) rfl (by simp (disch := decide) only [field_above, field_below, field_whole, Nat.reduceSub]) rfl ?_
  change decOp20 _ = _
  unfold decOp20
  rw [show fld (32#7 ++ d ++ a ++ b ++ 4#4 ++ bit g ++ bit t ++ 0#1) 3 4 = 4#4 by simp (disch := decide) only [field_above, field_below, field_whole, Nat.reduceSub] <;> rfl]
  dsimp only [BitVec.reduceToNat]
  simp (disch := decide) only [fld, flag, field_above, field_below, field_whole, flag_bit, Nat.reduceSub] <;> rfl
theorem vmin (d : BitVec 6) (a : BitVec 6) (b : BitVec 6) (g : Bool) (t : Bool) : Statement (.vmin d a b g t) := by
  refine of_op 32 (w := 32#7 ++ d ++ a ++ b ++ 5#4 ++ bit g ++ bit t ++ 0#1) rfl (by simp (disch := decide) only [field_above, field_below, field_whole, Nat.reduceSub]) rfl ?_
  change decOp20 _ = _
  unfold decOp20
  rw [show fld (32#7 ++ d ++ a ++ b ++ 5#4 ++ bit g ++ bit t ++ 0#1) 3 4 = 5#4 by simp (disch := decide) only [field_above, field_below, field_whole, Nat.reduceSub] <;> rfl]
  dsimp only [BitVec.reduceToNat]
  simp (disch := decide) only [fld, flag, field_above, field_below, field_whole, flag_bit, Nat.reduceSub] <;> rfl
theorem vmax (d : BitVec 6) (a : BitVec 6) (b : BitVec 6) (g : Bool) (t : Bool) : Statement (.vmax d a b g t) := by
  refine of_op 32 (w := 32#7 ++ d ++ a ++ b ++ 6#4 ++ bit g ++ bit t ++ 0#1) rfl (by simp (disch := decide) only [field_above, field_below, field_whole, Nat.reduceSub]) rfl ?_
  change decOp20 _ = _
  unfold decOp20
  rw [show fld (32#7 ++ d ++ a ++ b ++ 6#4 ++ bit g ++ bit t ++ 0#1) 3 4 = 6#4 by simp (disch := decide) only [field_above, field_below, field_whole, Nat.reduceSub] <;> rfl]
  dsimp only [BitVec.reduceToNat]
  simp (disch := decide) only [fld, flag, field_above, field_below, field_whole, flag_bit, Nat.reduceSub] <;> rfl
theorem vabs (d : BitVec 6) (a : BitVec 6) (g : Bool) (t : Bool) : Statement (.vabs d a g t) := by
  refine of_op 32 (w := 32#7 ++ d ++ a ++ 7#10 ++ bit g ++ bit t ++ 0#1) rfl (by simp (disch := decide) only [field_above, field_below, field_whole, Nat.reduceSub]) rfl ?_
  change decOp20 _ = _
  unfold decOp20
  rw [show fld (32#7 ++ d ++ a ++ 7#10 ++ bit g ++ bit t ++ 0#1) 3 4 = 7#4 by simp (disch := decide) only [field_above, field_below, field_whole, Nat.reduceSub] <;> rfl]
  dsimp only [BitVec.reduceToNat]
  simp (disch := decide) only [fld, flag, field_above, field_below, field_whole, flag_bit, Nat.reduceSub] <;> rfl
theorem vneg (d : BitVec 6) (a : BitVec 6) (g : Bool) (t : Bool) : Statement (.vneg d a g t) := by
  refine of_op 32 (w := 32#7 ++ d ++ a ++ 8#10 ++ bit g ++ bit t ++ 0#1) rfl (by simp (disch := decide) only [field_above, field_below, field_whole, Nat.reduceSub]) rfl ?_
  change decOp20 _ = _
  unfold decOp20
  rw [show fld (32#7 ++ d ++ a ++ 8#10 ++ bit g ++ bit t ++ 0#1) 3 4 = 8#4 by simp (disch := decide) only [field_above, field_below, field_whole, Nat.reduceSub] <;> rfl]
  dsimp only [BitVec.reduceToNat]
  simp (disch := decide) only [fld, flag, field_above, field_below, field_whole, flag_bit, Nat.reduceSub] <;> rfl
theorem vabsdiff (d : BitVec 6) (a : BitVec 6) (b : BitVec 6) (g : Bool) (t : Bool) : Statement (.vabsdiff d a b g t) := by
  refine of_op 32 (w := 32#7 ++ d ++ a ++ b ++ 9#4 ++ bit g ++ bit t ++ 0#1) rfl (by simp (disch := decide) only [field_above, field_below, field_whole, Nat.reduceSub]) rfl ?_
  change decOp20 _ = _
  unfold decOp20
  rw [show fld (32#7 ++ d ++ a ++ b ++ 9#4 ++ bit g ++ bit t ++ 0#1) 3 4 = 9#4 by simp (disch := decide) only [field_above, field_below, field_whole, Nat.reduceSub] <;> rfl]
  dsimp only [BitVec.reduceToNat]
  simp (disch := decide) only [fld, flag, field_above, field_below, field_whole, flag_bit, Nat.reduceSub] <;> rfl
theorem vavg (d : BitVec 6) (a : BitVec 6) (b : BitVec 6) (g : Bool) (t : Bool) : Statement (.vavg d a b g t) := by
  refine of_op 32 (w := 32#7 ++ d ++ a ++ b ++ 10#4 ++ bit g ++ bit t ++ 0#1) rfl (by simp (disch := decide) only [field_above, field_below, field_whole, Nat.reduceSub]) rfl ?_
  change decOp20 _ = _
  unfold decOp20
  rw [show fld (32#7 ++ d ++ a ++ b ++ 10#4 ++ bit g ++ bit t ++ 0#1) 3 4 = 10#4 by simp (disch := decide) only [field_above, field_below, field_whole, Nat.reduceSub] <;> rfl]
  dsimp only [BitVec.reduceToNat]
  simp (disch := decide) only [fld, flag, field_above, field_below, field_whole, flag_bit, Nat.reduceSub] <;> rfl
theorem vand (d : BitVec 6) (a : BitVec 6) (b : BitVec 6) (g : Bool) (t : Bool) : Statement (.vand d a b g t) := by
  refine of_op 33 (w := 33#7 ++ d ++ a ++ b ++ 0#4 ++ bit g ++ bit t ++ 0#1) rfl (by simp (disch := decide) only [field_above, field_below, field_whole, Nat.reduceSub]) rfl ?_
  change decOp21 _ = _
  unfold decOp21
  rw [show fld (33#7 ++ d ++ a ++ b ++ 0#4 ++ bit g ++ bit t ++ 0#1) 3 4 = 0#4 by simp (disch := decide) only [field_above, field_below, field_whole, Nat.reduceSub] <;> rfl]
  dsimp only [BitVec.reduceToNat]
  simp (disch := decide) only [fld, flag, field_above, field_below, field_whole, flag_bit, Nat.reduceSub] <;> rfl
theorem vor (d : BitVec 6) (a : BitVec 6) (b : BitVec 6) (g : Bool) (t : Bool) : Statement (.vor d a b g t) := by
  refine of_op 33 (w := 33#7 ++ d ++ a ++ b ++ 1#4 ++ bit g ++ bit t ++ 0#1) rfl (by simp (disch := decide) only [field_above, field_below, field_whole, Nat.reduceSub]) rfl ?_
  change decOp21 _ = _
  unfold decOp21
  rw [show fld (33#7 ++ d ++ a ++ b ++ 1#4 ++ bit g ++ bit t ++ 0#1) 3 4 = 1#4 by simp (disch := decide) only [field_above, field_below, field_whole, Nat.reduceSub] <;> rfl]
  dsimp only [BitVec.reduceToNat]
  simp (disch := decide) only [fld, flag, field_above, field_below, field_whole, flag_bit, Nat.reduceSub] <;> rfl
theorem vxor (d : BitVec 6) (a : BitVec 6) (b : BitVec 6) (g : Bool) (t : Bool) : Statement (.vxor d a b g t) := by
  refine of_op 33 (w := 33#7 ++ d ++ a ++ b ++ 2#4 ++ bit g ++ bit t ++ 0#1) rfl (by simp (disch := decide) only [field_above, field_below, field_whole, Nat.reduceSub]) rfl ?_
  change decOp21 _ = _
  unfold decOp21
  rw [show fld (33#7 ++ d ++ a ++ b ++ 2#4 ++ bit g ++ bit t ++ 0#1) 3 4 = 2#4 by simp (disch := decide) only [field_above, field_below, field_whole, Nat.reduceSub] <;> rfl]
  dsimp only [BitVec.reduceToNat]
  simp (disch := decide) only [fld, flag, field_above, field_below, field_whole, flag_bit, Nat.reduceSub] <;> rfl
theorem vandn (d : BitVec 6) (a : BitVec 6) (b : BitVec 6) (g : Bool) (t : Bool) : Statement (.vandn d a b g t) := by
  refine of_op 33 (w := 33#7 ++ d ++ a ++ b ++ 3#4 ++ bit g ++ bit t ++ 0#1) rfl (by simp (disch := decide) only [field_above, field_below, field_whole, Nat.reduceSub]) rfl ?_
  change decOp21 _ = _
  unfold decOp21
  rw [show fld (33#7 ++ d ++ a ++ b ++ 3#4 ++ bit g ++ bit t ++ 0#1) 3 4 = 3#4 by simp (disch := decide) only [field_above, field_below, field_whole, Nat.reduceSub] <;> rfl]
  dsimp only [BitVec.reduceToNat]
  simp (disch := decide) only [fld, flag, field_above, field_below, field_whole, flag_bit, Nat.reduceSub] <;> rfl
theorem vnot (d : BitVec 6) (a : BitVec 6) (g : Bool) (t : Bool) : Statement (.vnot d a g t) := by
  refine of_op 33 (w := 33#7 ++ d ++ a ++ 4#10 ++ bit g ++ bit t ++ 0#1) rfl (by simp (disch := decide) only [field_above, field_below, field_whole, Nat.reduceSub]) rfl ?_
  change decOp21 _ = _
  unfold decOp21
  rw [show fld (33#7 ++ d ++ a ++ 4#10 ++ bit g ++ bit t ++ 0#1) 3 4 = 4#4 by simp (disch := decide) only [field_above, field_below, field_whole, Nat.reduceSub] <;> rfl]
  dsimp only [BitVec.reduceToNat]
  simp (disch := decide) only [fld, flag, field_above, field_below, field_whole, flag_bit, Nat.reduceSub] <;> rfl
theorem vshl (d : BitVec 6) (a : BitVec 6) (b : BitVec 6) (g : Bool) (t : Bool) : Statement (.vshl d a b g t) := by
  refine of_op 33 (w := 33#7 ++ d ++ a ++ b ++ 5#4 ++ bit g ++ bit t ++ 0#1) rfl (by simp (disch := decide) only [field_above, field_below, field_whole, Nat.reduceSub]) rfl ?_
  change decOp21 _ = _
  unfold decOp21
  rw [show fld (33#7 ++ d ++ a ++ b ++ 5#4 ++ bit g ++ bit t ++ 0#1) 3 4 = 5#4 by simp (disch := decide) only [field_above, field_below, field_whole, Nat.reduceSub] <;> rfl]
  dsimp only [BitVec.reduceToNat]
  simp (disch := decide) only [fld, flag, field_above, field_below, field_whole, flag_bit, Nat.reduceSub] <;> rfl
theorem vshr (d : BitVec 6) (a : BitVec 6) (b : BitVec 6) (g : Bool) (t : Bool) : Statement (.vshr d a b g t) := by
  refine of_op 33 (w := 33#7 ++ d ++ a ++ b ++ 6#4 ++ bit g ++ bit t ++ 0#1) rfl (by simp (disch := decide) only [field_above, field_below, field_whole, Nat.reduceSub]) rfl ?_
  change decOp21 _ = _
  unfold decOp21
  rw [show fld (33#7 ++ d ++ a ++ b ++ 6#4 ++ bit g ++ bit t ++ 0#1) 3 4 = 6#4 by simp (disch := decide) only [field_above, field_below, field_whole, Nat.reduceSub] <;> rfl]
  dsimp only [BitVec.reduceToNat]
  simp (disch := decide) only [fld, flag, field_above, field_below, field_whole, flag_bit, Nat.reduceSub] <;> rfl
theorem vsar (d : BitVec 6) (a : BitVec 6) (b : BitVec 6) (g : Bool) (t : Bool) : Statement (.vsar d a b g t) := by
  refine of_op 33 (w := 33#7 ++ d ++ a ++ b ++ 7#4 ++ bit g ++ bit t ++ 0#1) rfl (by simp (disch := decide) only [field_above, field_below, field_whole, Nat.reduceSub]) rfl ?_
  change decOp21 _ = _
  unfold decOp21
  rw [show fld (33#7 ++ d ++ a ++ b ++ 7#4 ++ bit g ++ bit t ++ 0#1) 3 4 = 7#4 by simp (disch := decide) only [field_above, field_below, field_whole, Nat.reduceSub] <;> rfl]
  dsimp only [BitVec.reduceToNat]
  simp (disch := decide) only [fld, flag, field_above, field_below, field_whole, flag_bit, Nat.reduceSub] <;> rfl
theorem vrol (d : BitVec 6) (a : BitVec 6) (b : BitVec 6) (g : Bool) (t : Bool) : Statement (.vrol d a b g t) := by
  refine of_op 33 (w := 33#7 ++ d ++ a ++ b ++ 8#4 ++ bit g ++ bit t ++ 0#1) rfl (by simp (disch := decide) only [field_above, field_below, field_whole, Nat.reduceSub]) rfl ?_
  change decOp21 _ = _
  unfold decOp21
  rw [show fld (33#7 ++ d ++ a ++ b ++ 8#4 ++ bit g ++ bit t ++ 0#1) 3 4 = 8#4 by simp (disch := decide) only [field_above, field_below, field_whole, Nat.reduceSub] <;> rfl]
  dsimp only [BitVec.reduceToNat]
  simp (disch := decide) only [fld, flag, field_above, field_below, field_whole, flag_bit, Nat.reduceSub] <;> rfl
theorem vror (d : BitVec 6) (a : BitVec 6) (b : BitVec 6) (g : Bool) (t : Bool) : Statement (.vror d a b g t) := by
  refine of_op 33 (w := 33#7 ++ d ++ a ++ b ++ 9#4 ++ bit g ++ bit t ++ 0#1) rfl (by simp (disch := decide) only [field_above, field_below, field_whole, Nat.reduceSub]) rfl ?_
  change decOp21 _ = _
  unfold decOp21
  rw [show fld (33#7 ++ d ++ a ++ b ++ 9#4 ++ bit g ++ bit t ++ 0#1) 3 4 = 9#4 by simp (disch := decide) only [field_above, field_below, field_whole, Nat.reduceSub] <;> rfl]
  dsimp only [BitVec.reduceToNat]
  simp (disch := decide) only [fld, flag, field_above, field_below, field_whole, flag_bit, Nat.reduceSub] <;> rfl
theorem vclz (d : BitVec 6) (a : BitVec 6) (g : Bool) (t : Bool) : Statement (.vclz d a g t) := by
  refine of_op 33 (w := 33#7 ++ d ++ a ++ 10#10 ++ bit g ++ bit t ++ 0#1) rfl (by simp (disch := decide) only [field_above, field_below, field_whole, Nat.reduceSub]) rfl ?_
  change decOp21 _ = _
  unfold decOp21
  rw [show fld (33#7 ++ d ++ a ++ 10#10 ++ bit g ++ bit t ++ 0#1) 3 4 = 10#4 by simp (disch := decide) only [field_above, field_below, field_whole, Nat.reduceSub] <;> rfl]
  dsimp only [BitVec.reduceToNat]
  simp (disch := decide) only [fld, flag, field_above, field_below, field_whole, flag_bit, Nat.reduceSub] <;> rfl
theorem vpop (d : BitVec 6) (a : BitVec 6) (g : Bool) (t : Bool) : Statement (.vpop d a g t) := by
  refine of_op 33 (w := 33#7 ++ d ++ a ++ 11#10 ++ bit g ++ bit t ++ 0#1) rfl (by simp (disch := decide) only [field_above, field_below, field_whole, Nat.reduceSub]) rfl ?_
  change decOp21 _ = _
  unfold decOp21
  rw [show fld (33#7 ++ d ++ a ++ 11#10 ++ bit g ++ bit t ++ 0#1) 3 4 = 11#4 by simp (disch := decide) only [field_above, field_below, field_whole, Nat.reduceSub] <;> rfl]
  dsimp only [BitVec.reduceToNat]
  simp (disch := decide) only [fld, flag, field_above, field_below, field_whole, flag_bit, Nat.reduceSub] <;> rfl
theorem vbrev (d : BitVec 6) (a : BitVec 6) (g : Bool) (t : Bool) : Statement (.vbrev d a g t) := by
  refine of_op 33 (w := 33#7 ++ d ++ a ++ 12#10 ++ bit g ++ bit t ++ 0#1) rfl (by simp (disch := decide) only [field_above, field_below, field_whole, Nat.reduceSub]) rfl ?_
  change decOp21 _ = _
  unfold decOp21
  rw [show fld (33#7 ++ d ++ a ++ 12#10 ++ bit g ++ bit t ++ 0#1) 3 4 = 12#4 by simp (disch := decide) only [field_above, field_below, field_whole, Nat.reduceSub] <;> rfl]
  dsimp only [BitVec.reduceToNat]
  simp (disch := decide) only [fld, flag, field_above, field_below, field_whole, flag_bit, Nat.reduceSub] <;> rfl
theorem vimad (d : BitVec 6) (a : BitVec 6) (b : BitVec 6) (c : BitVec 6) (g : Bool) : Statement (.vimad d a b c g) := by
  refine of_op 34 (w := 34#7 ++ d ++ a ++ b ++ c ++ bit g) rfl (by simp (disch := decide) only [field_above, field_below, field_whole, Nat.reduceSub]) rfl ?_
  change decOp22 _ = _
  unfold decOp22
  simp (disch := decide) only [fld, flag, field_above, field_below, field_whole, flag_bit, Nat.reduceSub] <;> rfl
theorem vbfe (d : BitVec 6) (a : BitVec 6) (b : BitVec 6) (g : Bool) (t : Bool) : Statement (.vbfe d a b g t) := by
  refine of_op 35 (w := 35#7 ++ d ++ a ++ b ++ 0#4 ++ bit g ++ bit t ++ 0#1) rfl (by simp (disch := decide) only [field_above, field_below, field_whole, Nat.reduceSub]) rfl ?_
  change decOp23 _ = _
  unfold decOp23
  rw [show fld (35#7 ++ d ++ a ++ b ++ 0#4 ++ bit g ++ bit t ++ 0#1) 3 4 = 0#4 by simp (disch := decide) only [field_above, field_below, field_whole, Nat.reduceSub] <;> rfl]
  dsimp only [BitVec.reduceToNat]
  simp (disch := decide) only [fld, flag, field_above, field_below, field_whole, flag_bit, Nat.reduceSub] <;> rfl
theorem vbfes (d : BitVec 6) (a : BitVec 6) (b : BitVec 6) (g : Bool) (t : Bool) : Statement (.vbfes d a b g t) := by
  refine of_op 35 (w := 35#7 ++ d ++ a ++ b ++ 1#4 ++ bit g ++ bit t ++ 0#1) rfl (by simp (disch := decide) only [field_above, field_below, field_whole, Nat.reduceSub]) rfl ?_
  change decOp23 _ = _
  unfold decOp23
  rw [show fld (35#7 ++ d ++ a ++ b ++ 1#4 ++ bit g ++ bit t ++ 0#1) 3 4 = 1#4 by simp (disch := decide) only [field_above, field_below, field_whole, Nat.reduceSub] <;> rfl]
  dsimp only [BitVec.reduceToNat]
  simp (disch := decide) only [fld, flag, field_above, field_below, field_whole, flag_bit, Nat.reduceSub] <;> rfl
theorem vbfi (d : BitVec 6) (a : BitVec 6) (b : BitVec 6) (c : BitVec 6) (g : Bool) : Statement (.vbfi d a b c g) := by
  refine of_op 36 (w := 36#7 ++ d ++ a ++ b ++ c ++ bit g) rfl (by simp (disch := decide) only [field_above, field_below, field_whole, Nat.reduceSub]) rfl ?_
  change decOp24 _ = _
  unfold decOp24
  simp (disch := decide) only [fld, flag, field_above, field_below, field_whole, flag_bit, Nat.reduceSub] <;> rfl
theorem vcmpeq (d : BitVec 3) (a : BitVec 6) (b : BitVec 6) (g : Bool) (t : Bool) : Statement (.vcmpeq d a b g t) := by
  refine of_op 37 (w := 37#7 ++ 0#3 ++ d ++ a ++ b ++ 0#4 ++ bit g ++ bit t ++ 0#1) rfl (by simp (disch := decide) only [field_above, field_below, field_whole, Nat.reduceSub]) rfl ?_
  change decOp25 _ = _
  unfold decOp25
  rw [show fld (37#7 ++ 0#3 ++ d ++ a ++ b ++ 0#4 ++ bit g ++ bit t ++ 0#1) 3 4 = 0#4 by simp (disch := decide) only [field_above, field_below, field_whole, Nat.reduceSub] <;> rfl]
  dsimp only [BitVec.reduceToNat]
  simp (disch := decide) only [fld, flag, field_above, field_below, field_whole, flag_bit, Nat.reduceSub] <;> rfl
theorem vcmpne (d : BitVec 3) (a : BitVec 6) (b : BitVec 6) (g : Bool) (t : Bool) : Statement (.vcmpne d a b g t) := by
  refine of_op 37 (w := 37#7 ++ 0#3 ++ d ++ a ++ b ++ 1#4 ++ bit g ++ bit t ++ 0#1) rfl (by simp (disch := decide) only [field_above, field_below, field_whole, Nat.reduceSub]) rfl ?_
  change decOp25 _ = _
  unfold decOp25
  rw [show fld (37#7 ++ 0#3 ++ d ++ a ++ b ++ 1#4 ++ bit g ++ bit t ++ 0#1) 3 4 = 1#4 by simp (disch := decide) only [field_above, field_below, field_whole, Nat.reduceSub] <;> rfl]
  dsimp only [BitVec.reduceToNat]
  simp (disch := decide) only [fld, flag, field_above, field_below, field_whole, flag_bit, Nat.reduceSub] <;> rfl
theorem vcmplt (d : BitVec 3) (a : BitVec 6) (b : BitVec 6) (g : Bool) (t : Bool) : Statement (.vcmplt d a b g t) := by
  refine of_op 37 (w := 37#7 ++ 0#3 ++ d ++ a ++ b ++ 2#4 ++ bit g ++ bit t ++ 0#1) rfl (by simp (disch := decide) only [field_above, field_below, field_whole, Nat.reduceSub]) rfl ?_
  change decOp25 _ = _
  unfold decOp25
  rw [show fld (37#7 ++ 0#3 ++ d ++ a ++ b ++ 2#4 ++ bit g ++ bit t ++ 0#1) 3 4 = 2#4 by simp (disch := decide) only [field_above, field_below, field_whole, Nat.reduceSub] <;> rfl]
  dsimp only [BitVec.reduceToNat]
  simp (disch := decide) only [fld, flag, field_above, field_below, field_whole, flag_bit, Nat.reduceSub] <;> rfl
theorem vcmple (d : BitVec 3) (a : BitVec 6) (b : BitVec 6) (g : Bool) (t : Bool) : Statement (.vcmple d a b g t) := by
  refine of_op 37 (w := 37#7 ++ 0#3 ++ d ++ a ++ b ++ 3#4 ++ bit g ++ bit t ++ 0#1) rfl (by simp (disch := decide) only [field_above, field_below, field_whole, Nat.reduceSub]) rfl ?_
  change decOp25 _ = _
  unfold decOp25
  rw [show fld (37#7 ++ 0#3 ++ d ++ a ++ b ++ 3#4 ++ bit g ++ bit t ++ 0#1) 3 4 = 3#4 by simp (disch := decide) only [field_above, field_below, field_whole, Nat.reduceSub] <;> rfl]
  dsimp only [BitVec.reduceToNat]
  simp (disch := decide) only [fld, flag, field_above, field_below, field_whole, flag_bit, Nat.reduceSub] <;> rfl
theorem vcmpltu (d : BitVec 3) (a : BitVec 6) (b : BitVec 6) (g : Bool) (t : Bool) : Statement (.vcmpltu d a b g t) := by
  refine of_op 37 (w := 37#7 ++ 0#3 ++ d ++ a ++ b ++ 4#4 ++ bit g ++ bit t ++ 0#1) rfl (by simp (disch := decide) only [field_above, field_below, field_whole, Nat.reduceSub]) rfl ?_
  change decOp25 _ = _
  unfold decOp25
  rw [show fld (37#7 ++ 0#3 ++ d ++ a ++ b ++ 4#4 ++ bit g ++ bit t ++ 0#1) 3 4 = 4#4 by simp (disch := decide) only [field_above, field_below, field_whole, Nat.reduceSub] <;> rfl]
  dsimp only [BitVec.reduceToNat]
  simp (disch := decide) only [fld, flag, field_above, field_below, field_whole, flag_bit, Nat.reduceSub] <;> rfl
theorem vcmpleu (d : BitVec 3) (a : BitVec 6) (b : BitVec 6) (g : Bool) (t : Bool) : Statement (.vcmpleu d a b g t) := by
  refine of_op 37 (w := 37#7 ++ 0#3 ++ d ++ a ++ b ++ 5#4 ++ bit g ++ bit t ++ 0#1) rfl (by simp (disch := decide) only [field_above, field_below, field_whole, Nat.reduceSub]) rfl ?_
  change decOp25 _ = _
  unfold decOp25
  rw [show fld (37#7 ++ 0#3 ++ d ++ a ++ b ++ 5#4 ++ bit g ++ bit t ++ 0#1) 3 4 = 5#4 by simp (disch := decide) only [field_above, field_below, field_whole, Nat.reduceSub] <;> rfl]
  dsimp only [BitVec.reduceToNat]
  simp (disch := decide) only [fld, flag, field_above, field_below, field_whole, flag_bit, Nat.reduceSub] <;> rfl
theorem vcmpgt (d : BitVec 3) (a : BitVec 6) (b : BitVec 6) (g : Bool) (t : Bool) : Statement (.vcmpgt d a b g t) := by
  refine of_op 37 (w := 37#7 ++ 0#3 ++ d ++ a ++ b ++ 6#4 ++ bit g ++ bit t ++ 0#1) rfl (by simp (disch := decide) only [field_above, field_below, field_whole, Nat.reduceSub]) rfl ?_
  change decOp25 _ = _
  unfold decOp25
  rw [show fld (37#7 ++ 0#3 ++ d ++ a ++ b ++ 6#4 ++ bit g ++ bit t ++ 0#1) 3 4 = 6#4 by simp (disch := decide) only [field_above, field_below, field_whole, Nat.reduceSub] <;> rfl]
  dsimp only [BitVec.reduceToNat]
  simp (disch := decide) only [fld, flag, field_above, field_below, field_whole, flag_bit, Nat.reduceSub] <;> rfl
theorem vcmpge (d : BitVec 3) (a : BitVec 6) (b : BitVec 6) (g : Bool) (t : Bool) : Statement (.vcmpge d a b g t) := by
  refine of_op 37 (w := 37#7 ++ 0#3 ++ d ++ a ++ b ++ 7#4 ++ bit g ++ bit t ++ 0#1) rfl (by simp (disch := decide) only [field_above, field_below, field_whole, Nat.reduceSub]) rfl ?_
  change decOp25 _ = _
  unfold decOp25
  rw [show fld (37#7 ++ 0#3 ++ d ++ a ++ b ++ 7#4 ++ bit g ++ bit t ++ 0#1) 3 4 = 7#4 by simp (disch := decide) only [field_above, field_below, field_whole, Nat.reduceSub] <;> rfl]
  dsimp only [BitVec.reduceToNat]
  simp (disch := decide) only [fld, flag, field_above, field_below, field_whole, flag_bit, Nat.reduceSub] <;> rfl
theorem vcmpgtu (d : BitVec 3) (a : BitVec 6) (b : BitVec 6) (g : Bool) (t : Bool) : Statement (.vcmpgtu d a b g t) := by
  refine of_op 37 (w := 37#7 ++ 0#3 ++ d ++ a ++ b ++ 8#4 ++ bit g ++ bit t ++ 0#1) rfl (by simp (disch := decide) only [field_above, field_below, field_whole, Nat.reduceSub]) rfl ?_
  change decOp25 _ = _
  unfold decOp25
  rw [show fld (37#7 ++ 0#3 ++ d ++ a ++ b ++ 8#4 ++ bit g ++ bit t ++ 0#1) 3 4 = 8#4 by simp (disch := decide) only [field_above, field_below, field_whole, Nat.reduceSub] <;> rfl]
  dsimp only [BitVec.reduceToNat]
  simp (disch := decide) only [fld, flag, field_above, field_below, field_whole, flag_bit, Nat.reduceSub] <;> rfl
theorem vcmpgeu (d : BitVec 3) (a : BitVec 6) (b : BitVec 6) (g : Bool) (t : Bool) : Statement (.vcmpgeu d a b g t) := by
  refine of_op 37 (w := 37#7 ++ 0#3 ++ d ++ a ++ b ++ 9#4 ++ bit g ++ bit t ++ 0#1) rfl (by simp (disch := decide) only [field_above, field_below, field_whole, Nat.reduceSub]) rfl ?_
  change decOp25 _ = _
  unfold decOp25
  rw [show fld (37#7 ++ 0#3 ++ d ++ a ++ b ++ 9#4 ++ bit g ++ bit t ++ 0#1) 3 4 = 9#4 by simp (disch := decide) only [field_above, field_below, field_whole, Nat.reduceSub] <;> rfl]
  dsimp only [BitVec.reduceToNat]
  simp (disch := decide) only [fld, flag, field_above, field_below, field_whole, flag_bit, Nat.reduceSub] <;> rfl
theorem vsel (d : BitVec 6) (a : BitVec 6) (b : BitVec 6) (c : BitVec 3) (g : Bool) : Statement (.vsel d a b c g) := by
  refine of_op 38 (w := 38#7 ++ d ++ a ++ b ++ 0#3 ++ c ++ bit g) rfl (by simp (disch := decide) only [field_above, field_below, field_whole, Nat.reduceSub]) rfl ?_
  change decOp26 _ = _
  unfold decOp26
  simp (disch := decide) only [fld, flag, field_above, field_below, field_whole, flag_bit, Nat.reduceSub] <;> rfl
theorem vmov (d : BitVec 6) (a : BitVec 6) (g : Bool) (t : Bool) : Statement (.vmov d a g t) := by
  refine of_op 39 (w := 39#7 ++ d ++ a ++ 0#10 ++ bit g ++ bit t ++ 0#1) rfl (by simp (disch := decide) only [field_above, field_below, field_whole, Nat.reduceSub]) rfl ?_
  change decOp27 _ = _
  unfold decOp27
  rw [show fld (39#7 ++ d ++ a ++ 0#10 ++ bit g ++ bit t ++ 0#1) 3 4 = 0#4 by simp (disch := decide) only [field_above, field_below, field_whole, Nat.reduceSub] <;> rfl]
  dsimp only [BitVec.reduceToNat]
  simp (disch := decide) only [fld, flag, field_above, field_below, field_whole, flag_bit, Nat.reduceSub] <;> rfl
theorem vbcast (d : BitVec 6) (a : BitVec 6) (g : Bool) (t : Bool) : Statement (.vbcast d a g t) := by
  refine of_op 39 (w := 39#7 ++ d ++ a ++ 1#10 ++ bit g ++ bit t ++ 0#1) rfl (by simp (disch := decide) only [field_above, field_below, field_whole, Nat.reduceSub]) rfl ?_
  change decOp27 _ = _
  unfold decOp27
  rw [show fld (39#7 ++ d ++ a ++ 1#10 ++ bit g ++ bit t ++ 0#1) 3 4 = 1#4 by simp (disch := decide) only [field_above, field_below, field_whole, Nat.reduceSub] <;> rfl]
  dsimp only [BitVec.reduceToNat]
  simp (disch := decide) only [fld, flag, field_above, field_below, field_whole, flag_bit, Nat.reduceSub] <;> rfl
theorem vtos (d : BitVec 6) (a : BitVec 6) (b : BitVec 6) (g : Bool) (t : Bool) : Statement (.vtos d a b g t) := by
  refine of_op 39 (w := 39#7 ++ d ++ a ++ b ++ 2#4 ++ bit g ++ bit t ++ 0#1) rfl (by simp (disch := decide) only [field_above, field_below, field_whole, Nat.reduceSub]) rfl ?_
  change decOp27 _ = _
  unfold decOp27
  rw [show fld (39#7 ++ d ++ a ++ b ++ 2#4 ++ bit g ++ bit t ++ 0#1) 3 4 = 2#4 by simp (disch := decide) only [field_above, field_below, field_whole, Nat.reduceSub] <;> rfl]
  dsimp only [BitVec.reduceToNat]
  simp (disch := decide) only [fld, flag, field_above, field_below, field_whole, flag_bit, Nat.reduceSub] <;> rfl
theorem stov (d : BitVec 6) (a : BitVec 6) (b : BitVec 6) (g : Bool) (t : Bool) : Statement (.stov d a b g t) := by
  refine of_op 39 (w := 39#7 ++ d ++ a ++ b ++ 3#4 ++ bit g ++ bit t ++ 0#1) rfl (by simp (disch := decide) only [field_above, field_below, field_whole, Nat.reduceSub]) rfl ?_
  change decOp27 _ = _
  unfold decOp27
  rw [show fld (39#7 ++ d ++ a ++ b ++ 3#4 ++ bit g ++ bit t ++ 0#1) 3 4 = 3#4 by simp (disch := decide) only [field_above, field_below, field_whole, Nat.reduceSub] <;> rfl]
  dsimp only [BitVec.reduceToNat]
  simp (disch := decide) only [fld, flag, field_above, field_below, field_whole, flag_bit, Nat.reduceSub] <;> rfl
theorem vrdout (d : BitVec 6) (n : BitVec 6) (g : Bool) (t : Bool) : Statement (.vrdout d n g t) := by
  refine of_op 39 (w := 39#7 ++ d ++ n ++ 6#10 ++ bit g ++ bit t ++ 0#1) rfl (by simp (disch := decide) only [field_above, field_below, field_whole, Nat.reduceSub]) rfl ?_
  change decOp27 _ = _
  unfold decOp27
  rw [show fld (39#7 ++ d ++ n ++ 6#10 ++ bit g ++ bit t ++ 0#1) 3 4 = 6#4 by simp (disch := decide) only [field_above, field_below, field_whole, Nat.reduceSub] <;> rfl]
  dsimp only [BitVec.reduceToNat]
  simp (disch := decide) only [fld, flag, field_above, field_below, field_whole, flag_bit, Nat.reduceSub] <;> rfl
theorem vwrout (n : BitVec 6) (a : BitVec 6) (g : Bool) (t : Bool) : Statement (.vwrout n a g t) := by
  refine of_op 39 (w := 39#7 ++ n ++ a ++ 7#10 ++ bit g ++ bit t ++ 0#1) rfl (by simp (disch := decide) only [field_above, field_below, field_whole, Nat.reduceSub]) rfl ?_
  change decOp27 _ = _
  unfold decOp27
  rw [show fld (39#7 ++ n ++ a ++ 7#10 ++ bit g ++ bit t ++ 0#1) 3 4 = 7#4 by simp (disch := decide) only [field_above, field_below, field_whole, Nat.reduceSub] <;> rfl]
  dsimp only [BitVec.reduceToNat]
  simp (disch := decide) only [fld, flag, field_above, field_below, field_whole, flag_bit, Nat.reduceSub] <;> rfl
theorem vmovi (d : BitVec 6) (imm : BitVec 12) (g : Bool) : Statement (.vmovi d imm g) := by
  refine of_op 40 (w := 40#7 ++ d ++ 0#6 ++ imm ++ bit g) rfl (by simp (disch := decide) only [field_above, field_below, field_whole, Nat.reduceSub]) rfl ?_
  change decOp28 _ = _
  unfold decOp28
  simp (disch := decide) only [fld, flag, field_above, field_below, field_whole, flag_bit, Nat.reduceSub] <;> rfl
theorem vmovl (d : BitVec 6) (g : Bool) (lit : BitVec 32) : Statement (.vmovl d g lit) := by
  refine of_op 41 (w := 41#7 ++ d ++ 0#18 ++ bit g) rfl (by simp (disch := decide) only [field_above, field_below, field_whole, Nat.reduceSub]) rfl ?_
  change decOp29 _ _ = _
  unfold decOp29
  simp (disch := decide) only [fld, flag, field_above, field_below, field_whole, flag_bit, Nat.reduceSub] <;> rfl
theorem vdiv (d : BitVec 6) (a : BitVec 6) (b : BitVec 6) (g : Bool) (t : Bool) : Statement (.vdiv d a b g t) := by
  refine of_op 42 (w := 42#7 ++ d ++ a ++ b ++ 0#4 ++ bit g ++ bit t ++ 0#1) rfl (by simp (disch := decide) only [field_above, field_below, field_whole, Nat.reduceSub]) rfl ?_
  change decOp2A _ = _
  unfold decOp2A
  rw [show fld (42#7 ++ d ++ a ++ b ++ 0#4 ++ bit g ++ bit t ++ 0#1) 3 4 = 0#4 by simp (disch := decide) only [field_above, field_below, field_whole, Nat.reduceSub] <;> rfl]
  dsimp only [BitVec.reduceToNat]
  simp (disch := decide) only [fld, flag, field_above, field_below, field_whole, flag_bit, Nat.reduceSub] <;> rfl
theorem vrem (d : BitVec 6) (a : BitVec 6) (b : BitVec 6) (g : Bool) (t : Bool) : Statement (.vrem d a b g t) := by
  refine of_op 42 (w := 42#7 ++ d ++ a ++ b ++ 1#4 ++ bit g ++ bit t ++ 0#1) rfl (by simp (disch := decide) only [field_above, field_below, field_whole, Nat.reduceSub]) rfl ?_
  change decOp2A _ = _
  unfold decOp2A
  rw [show fld (42#7 ++ d ++ a ++ b ++ 1#4 ++ bit g ++ bit t ++ 0#1) 3 4 = 1#4 by simp (disch := decide) only [field_above, field_below, field_whole, Nat.reduceSub] <;> rfl]
  dsimp only [BitVec.reduceToNat]
  simp (disch := decide) only [fld, flag, field_above, field_below, field_whole, flag_bit, Nat.reduceSub] <;> rfl
theorem vcvt (d : BitVec 6) (a : BitVec 6) (g : Bool) : Statement (.vcvt d a g) := by
  refine of_op 43 (w := 43#7 ++ d ++ a ++ 0#10 ++ bit g ++ 0#2) rfl (by simp (disch := decide) only [field_above, field_below, field_whole, Nat.reduceSub]) rfl ?_
  change decOp2B _ = _
  unfold decOp2B
  rw [show fld (43#7 ++ d ++ a ++ 0#10 ++ bit g ++ 0#2) 3 4 = 0#4 by simp (disch := decide) only [field_above, field_below, field_whole, Nat.reduceSub] <;> rfl]
  dsimp only [BitVec.reduceToNat]
  simp (disch := decide) only [fld, flag, field_above, field_below, field_whole, flag_bit, Nat.reduceSub] <;> rfl
theorem vrndi (d : BitVec 6) (a : BitVec 6) (g : Bool) : Statement (.vrndi d a g) := by
  refine of_op 43 (w := 43#7 ++ d ++ a ++ 1#10 ++ bit g ++ 0#2) rfl (by simp (disch := decide) only [field_above, field_below, field_whole, Nat.reduceSub]) rfl ?_
  change decOp2B _ = _
  unfold decOp2B
  rw [show fld (43#7 ++ d ++ a ++ 1#10 ++ bit g ++ 0#2) 3 4 = 1#4 by simp (disch := decide) only [field_above, field_below, field_whole, Nat.reduceSub] <;> rfl]
  dsimp only [BitVec.reduceToNat]
  simp (disch := decide) only [fld, flag, field_above, field_below, field_whole, flag_bit, Nat.reduceSub] <;> rfl
theorem vpack (d : BitVec 6) (a : BitVec 6) (b : BitVec 6) (g : Bool) : Statement (.vpack d a b g) := by
  refine of_op 43 (w := 43#7 ++ d ++ a ++ b ++ 2#4 ++ bit g ++ 0#2) rfl (by simp (disch := decide) only [field_above, field_below, field_whole, Nat.reduceSub]) rfl ?_
  change decOp2B _ = _
  unfold decOp2B
  rw [show fld (43#7 ++ d ++ a ++ b ++ 2#4 ++ bit g ++ 0#2) 3 4 = 2#4 by simp (disch := decide) only [field_above, field_below, field_whole, Nat.reduceSub] <;> rfl]
  dsimp only [BitVec.reduceToNat]
  simp (disch := decide) only [fld, flag, field_above, field_below, field_whole, flag_bit, Nat.reduceSub] <;> rfl
theorem vunpkl (d : BitVec 6) (a : BitVec 6) (g : Bool) : Statement (.vunpkl d a g) := by
  refine of_op 43 (w := 43#7 ++ d ++ a ++ 3#10 ++ bit g ++ 0#2) rfl (by simp (disch := decide) only [field_above, field_below, field_whole, Nat.reduceSub]) rfl ?_
  change decOp2B _ = _
  unfold decOp2B
  rw [show fld (43#7 ++ d ++ a ++ 3#10 ++ bit g ++ 0#2) 3 4 = 3#4 by simp (disch := decide) only [field_above, field_below, field_whole, Nat.reduceSub] <;> rfl]
  dsimp only [BitVec.reduceToNat]
  simp (disch := decide) only [fld, flag, field_above, field_below, field_whole, flag_bit, Nat.reduceSub] <;> rfl
theorem vunpkh (d : BitVec 6) (a : BitVec 6) (g : Bool) : Statement (.vunpkh d a g) := by
  refine of_op 43 (w := 43#7 ++ d ++ a ++ 4#10 ++ bit g ++ 0#2) rfl (by simp (disch := decide) only [field_above, field_below, field_whole, Nat.reduceSub]) rfl ?_
  change decOp2B _ = _
  unfold decOp2B
  rw [show fld (43#7 ++ d ++ a ++ 4#10 ++ bit g ++ 0#2) 3 4 = 4#4 by simp (disch := decide) only [field_above, field_below, field_whole, Nat.reduceSub] <;> rfl]
  dsimp only [BitVec.reduceToNat]
  simp (disch := decide) only [fld, flag, field_above, field_below, field_whole, flag_bit, Nat.reduceSub] <;> rfl
theorem fadd (d : BitVec 6) (a : BitVec 6) (b : BitVec 6) (g : Bool) (t : Bool) : Statement (.fadd d a b g t) := by
  refine of_op 44 (w := 44#7 ++ d ++ a ++ b ++ 0#4 ++ bit g ++ bit t ++ 0#1) rfl (by simp (disch := decide) only [field_above, field_below, field_whole, Nat.reduceSub]) rfl ?_
  change decOp2C _ = _
  unfold decOp2C
  rw [show fld (44#7 ++ d ++ a ++ b ++ 0#4 ++ bit g ++ bit t ++ 0#1) 3 4 = 0#4 by simp (disch := decide) only [field_above, field_below, field_whole, Nat.reduceSub] <;> rfl]
  dsimp only [BitVec.reduceToNat]
  simp (disch := decide) only [fld, flag, field_above, field_below, field_whole, flag_bit, Nat.reduceSub] <;> rfl
theorem fsub (d : BitVec 6) (a : BitVec 6) (b : BitVec 6) (g : Bool) (t : Bool) : Statement (.fsub d a b g t) := by
  refine of_op 44 (w := 44#7 ++ d ++ a ++ b ++ 1#4 ++ bit g ++ bit t ++ 0#1) rfl (by simp (disch := decide) only [field_above, field_below, field_whole, Nat.reduceSub]) rfl ?_
  change decOp2C _ = _
  unfold decOp2C
  rw [show fld (44#7 ++ d ++ a ++ b ++ 1#4 ++ bit g ++ bit t ++ 0#1) 3 4 = 1#4 by simp (disch := decide) only [field_above, field_below, field_whole, Nat.reduceSub] <;> rfl]
  dsimp only [BitVec.reduceToNat]
  simp (disch := decide) only [fld, flag, field_above, field_below, field_whole, flag_bit, Nat.reduceSub] <;> rfl
theorem fmul (d : BitVec 6) (a : BitVec 6) (b : BitVec 6) (g : Bool) (t : Bool) : Statement (.fmul d a b g t) := by
  refine of_op 44 (w := 44#7 ++ d ++ a ++ b ++ 2#4 ++ bit g ++ bit t ++ 0#1) rfl (by simp (disch := decide) only [field_above, field_below, field_whole, Nat.reduceSub]) rfl ?_
  change decOp2C _ = _
  unfold decOp2C
  rw [show fld (44#7 ++ d ++ a ++ b ++ 2#4 ++ bit g ++ bit t ++ 0#1) 3 4 = 2#4 by simp (disch := decide) only [field_above, field_below, field_whole, Nat.reduceSub] <;> rfl]
  dsimp only [BitVec.reduceToNat]
  simp (disch := decide) only [fld, flag, field_above, field_below, field_whole, flag_bit, Nat.reduceSub] <;> rfl
theorem fmin (d : BitVec 6) (a : BitVec 6) (b : BitVec 6) (g : Bool) (t : Bool) : Statement (.fmin d a b g t) := by
  refine of_op 44 (w := 44#7 ++ d ++ a ++ b ++ 3#4 ++ bit g ++ bit t ++ 0#1) rfl (by simp (disch := decide) only [field_above, field_below, field_whole, Nat.reduceSub]) rfl ?_
  change decOp2C _ = _
  unfold decOp2C
  rw [show fld (44#7 ++ d ++ a ++ b ++ 3#4 ++ bit g ++ bit t ++ 0#1) 3 4 = 3#4 by simp (disch := decide) only [field_above, field_below, field_whole, Nat.reduceSub] <;> rfl]
  dsimp only [BitVec.reduceToNat]
  simp (disch := decide) only [fld, flag, field_above, field_below, field_whole, flag_bit, Nat.reduceSub] <;> rfl
theorem fmax (d : BitVec 6) (a : BitVec 6) (b : BitVec 6) (g : Bool) (t : Bool) : Statement (.fmax d a b g t) := by
  refine of_op 44 (w := 44#7 ++ d ++ a ++ b ++ 4#4 ++ bit g ++ bit t ++ 0#1) rfl (by simp (disch := decide) only [field_above, field_below, field_whole, Nat.reduceSub]) rfl ?_
  change decOp2C _ = _
  unfold decOp2C
  rw [show fld (44#7 ++ d ++ a ++ b ++ 4#4 ++ bit g ++ bit t ++ 0#1) 3 4 = 4#4 by simp (disch := decide) only [field_above, field_below, field_whole, Nat.reduceSub] <;> rfl]
  dsimp only [BitVec.reduceToNat]
  simp (disch := decide) only [fld, flag, field_above, field_below, field_whole, flag_bit, Nat.reduceSub] <;> rfl
theorem fabs (d : BitVec 6) (a : BitVec 6) (g : Bool) (t : Bool) : Statement (.fabs d a g t) := by
  refine of_op 44 (w := 44#7 ++ d ++ a ++ 5#10 ++ bit g ++ bit t ++ 0#1) rfl (by simp (disch := decide) only [field_above, field_below, field_whole, Nat.reduceSub]) rfl ?_
  change decOp2C _ = _
  unfold decOp2C
  rw [show fld (44#7 ++ d ++ a ++ 5#10 ++ bit g ++ bit t ++ 0#1) 3 4 = 5#4 by simp (disch := decide) only [field_above, field_below, field_whole, Nat.reduceSub] <;> rfl]
  dsimp only [BitVec.reduceToNat]
  simp (disch := decide) only [fld, flag, field_above, field_below, field_whole, flag_bit, Nat.reduceSub] <;> rfl
theorem fneg (d : BitVec 6) (a : BitVec 6) (g : Bool) (t : Bool) : Statement (.fneg d a g t) := by
  refine of_op 44 (w := 44#7 ++ d ++ a ++ 6#10 ++ bit g ++ bit t ++ 0#1) rfl (by simp (disch := decide) only [field_above, field_below, field_whole, Nat.reduceSub]) rfl ?_
  change decOp2C _ = _
  unfold decOp2C
  rw [show fld (44#7 ++ d ++ a ++ 6#10 ++ bit g ++ bit t ++ 0#1) 3 4 = 6#4 by simp (disch := decide) only [field_above, field_below, field_whole, Nat.reduceSub] <;> rfl]
  dsimp only [BitVec.reduceToNat]
  simp (disch := decide) only [fld, flag, field_above, field_below, field_whole, flag_bit, Nat.reduceSub] <;> rfl
theorem fcopysign (d : BitVec 6) (a : BitVec 6) (b : BitVec 6) (g : Bool) (t : Bool) : Statement (.fcopysign d a b g t) := by
  refine of_op 44 (w := 44#7 ++ d ++ a ++ b ++ 7#4 ++ bit g ++ bit t ++ 0#1) rfl (by simp (disch := decide) only [field_above, field_below, field_whole, Nat.reduceSub]) rfl ?_
  change decOp2C _ = _
  unfold decOp2C
  rw [show fld (44#7 ++ d ++ a ++ b ++ 7#4 ++ bit g ++ bit t ++ 0#1) 3 4 = 7#4 by simp (disch := decide) only [field_above, field_below, field_whole, Nat.reduceSub] <;> rfl]
  dsimp only [BitVec.reduceToNat]
  simp (disch := decide) only [fld, flag, field_above, field_below, field_whole, flag_bit, Nat.reduceSub] <;> rfl
theorem fscale (d : BitVec 6) (a : BitVec 6) (b : BitVec 6) (g : Bool) (t : Bool) : Statement (.fscale d a b g t) := by
  refine of_op 44 (w := 44#7 ++ d ++ a ++ b ++ 8#4 ++ bit g ++ bit t ++ 0#1) rfl (by simp (disch := decide) only [field_above, field_below, field_whole, Nat.reduceSub]) rfl ?_
  change decOp2C _ = _
  unfold decOp2C
  rw [show fld (44#7 ++ d ++ a ++ b ++ 8#4 ++ bit g ++ bit t ++ 0#1) 3 4 = 8#4 by simp (disch := decide) only [field_above, field_below, field_whole, Nat.reduceSub] <;> rfl]
  dsimp only [BitVec.reduceToNat]
  simp (disch := decide) only [fld, flag, field_above, field_below, field_whole, flag_bit, Nat.reduceSub] <;> rfl
theorem ffma (d : BitVec 6) (a : BitVec 6) (b : BitVec 6) (c : BitVec 6) (g : Bool) : Statement (.ffma d a b c g) := by
  refine of_op 45 (w := 45#7 ++ d ++ a ++ b ++ c ++ bit g) rfl (by simp (disch := decide) only [field_above, field_below, field_whole, Nat.reduceSub]) rfl ?_
  change decOp2D _ = _
  unfold decOp2D
  simp (disch := decide) only [fld, flag, field_above, field_below, field_whole, flag_bit, Nat.reduceSub] <;> rfl
theorem fcmpeq (d : BitVec 3) (a : BitVec 6) (b : BitVec 6) (g : Bool) (t : Bool) : Statement (.fcmpeq d a b g t) := by
  refine of_op 46 (w := 46#7 ++ 0#3 ++ d ++ a ++ b ++ 0#4 ++ bit g ++ bit t ++ 0#1) rfl (by simp (disch := decide) only [field_above, field_below, field_whole, Nat.reduceSub]) rfl ?_
  change decOp2E _ = _
  unfold decOp2E
  rw [show fld (46#7 ++ 0#3 ++ d ++ a ++ b ++ 0#4 ++ bit g ++ bit t ++ 0#1) 3 4 = 0#4 by simp (disch := decide) only [field_above, field_below, field_whole, Nat.reduceSub] <;> rfl]
  dsimp only [BitVec.reduceToNat]
  simp (disch := decide) only [fld, flag, field_above, field_below, field_whole, flag_bit, Nat.reduceSub] <;> rfl
theorem fcmpne (d : BitVec 3) (a : BitVec 6) (b : BitVec 6) (g : Bool) (t : Bool) : Statement (.fcmpne d a b g t) := by
  refine of_op 46 (w := 46#7 ++ 0#3 ++ d ++ a ++ b ++ 1#4 ++ bit g ++ bit t ++ 0#1) rfl (by simp (disch := decide) only [field_above, field_below, field_whole, Nat.reduceSub]) rfl ?_
  change decOp2E _ = _
  unfold decOp2E
  rw [show fld (46#7 ++ 0#3 ++ d ++ a ++ b ++ 1#4 ++ bit g ++ bit t ++ 0#1) 3 4 = 1#4 by simp (disch := decide) only [field_above, field_below, field_whole, Nat.reduceSub] <;> rfl]
  dsimp only [BitVec.reduceToNat]
  simp (disch := decide) only [fld, flag, field_above, field_below, field_whole, flag_bit, Nat.reduceSub] <;> rfl
theorem fcmplt (d : BitVec 3) (a : BitVec 6) (b : BitVec 6) (g : Bool) (t : Bool) : Statement (.fcmplt d a b g t) := by
  refine of_op 46 (w := 46#7 ++ 0#3 ++ d ++ a ++ b ++ 2#4 ++ bit g ++ bit t ++ 0#1) rfl (by simp (disch := decide) only [field_above, field_below, field_whole, Nat.reduceSub]) rfl ?_
  change decOp2E _ = _
  unfold decOp2E
  rw [show fld (46#7 ++ 0#3 ++ d ++ a ++ b ++ 2#4 ++ bit g ++ bit t ++ 0#1) 3 4 = 2#4 by simp (disch := decide) only [field_above, field_below, field_whole, Nat.reduceSub] <;> rfl]
  dsimp only [BitVec.reduceToNat]
  simp (disch := decide) only [fld, flag, field_above, field_below, field_whole, flag_bit, Nat.reduceSub] <;> rfl
theorem fcmple (d : BitVec 3) (a : BitVec 6) (b : BitVec 6) (g : Bool) (t : Bool) : Statement (.fcmple d a b g t) := by
  refine of_op 46 (w := 46#7 ++ 0#3 ++ d ++ a ++ b ++ 3#4 ++ bit g ++ bit t ++ 0#1) rfl (by simp (disch := decide) only [field_above, field_below, field_whole, Nat.reduceSub]) rfl ?_
  change decOp2E _ = _
  unfold decOp2E
  rw [show fld (46#7 ++ 0#3 ++ d ++ a ++ b ++ 3#4 ++ bit g ++ bit t ++ 0#1) 3 4 = 3#4 by simp (disch := decide) only [field_above, field_below, field_whole, Nat.reduceSub] <;> rfl]
  dsimp only [BitVec.reduceToNat]
  simp (disch := decide) only [fld, flag, field_above, field_below, field_whole, flag_bit, Nat.reduceSub] <;> rfl
theorem fcmpgt (d : BitVec 3) (a : BitVec 6) (b : BitVec 6) (g : Bool) (t : Bool) : Statement (.fcmpgt d a b g t) := by
  refine of_op 46 (w := 46#7 ++ 0#3 ++ d ++ a ++ b ++ 4#4 ++ bit g ++ bit t ++ 0#1) rfl (by simp (disch := decide) only [field_above, field_below, field_whole, Nat.reduceSub]) rfl ?_
  change decOp2E _ = _
  unfold decOp2E
  rw [show fld (46#7 ++ 0#3 ++ d ++ a ++ b ++ 4#4 ++ bit g ++ bit t ++ 0#1) 3 4 = 4#4 by simp (disch := decide) only [field_above, field_below, field_whole, Nat.reduceSub] <;> rfl]
  dsimp only [BitVec.reduceToNat]
  simp (disch := decide) only [fld, flag, field_above, field_below, field_whole, flag_bit, Nat.reduceSub] <;> rfl
theorem fcmpge (d : BitVec 3) (a : BitVec 6) (b : BitVec 6) (g : Bool) (t : Bool) : Statement (.fcmpge d a b g t) := by
  refine of_op 46 (w := 46#7 ++ 0#3 ++ d ++ a ++ b ++ 5#4 ++ bit g ++ bit t ++ 0#1) rfl (by simp (disch := decide) only [field_above, field_below, field_whole, Nat.reduceSub]) rfl ?_
  change decOp2E _ = _
  unfold decOp2E
  rw [show fld (46#7 ++ 0#3 ++ d ++ a ++ b ++ 5#4 ++ bit g ++ bit t ++ 0#1) 3 4 = 5#4 by simp (disch := decide) only [field_above, field_below, field_whole, Nat.reduceSub] <;> rfl]
  dsimp only [BitVec.reduceToNat]
  simp (disch := decide) only [fld, flag, field_above, field_below, field_whole, flag_bit, Nat.reduceSub] <;> rfl
theorem fcmpueq (d : BitVec 3) (a : BitVec 6) (b : BitVec 6) (g : Bool) (t : Bool) : Statement (.fcmpueq d a b g t) := by
  refine of_op 46 (w := 46#7 ++ 0#3 ++ d ++ a ++ b ++ 6#4 ++ bit g ++ bit t ++ 0#1) rfl (by simp (disch := decide) only [field_above, field_below, field_whole, Nat.reduceSub]) rfl ?_
  change decOp2E _ = _
  unfold decOp2E
  rw [show fld (46#7 ++ 0#3 ++ d ++ a ++ b ++ 6#4 ++ bit g ++ bit t ++ 0#1) 3 4 = 6#4 by simp (disch := decide) only [field_above, field_below, field_whole, Nat.reduceSub] <;> rfl]
  dsimp only [BitVec.reduceToNat]
  simp (disch := decide) only [fld, flag, field_above, field_below, field_whole, flag_bit, Nat.reduceSub] <;> rfl
theorem fcmpune (d : BitVec 3) (a : BitVec 6) (b : BitVec 6) (g : Bool) (t : Bool) : Statement (.fcmpune d a b g t) := by
  refine of_op 46 (w := 46#7 ++ 0#3 ++ d ++ a ++ b ++ 7#4 ++ bit g ++ bit t ++ 0#1) rfl (by simp (disch := decide) only [field_above, field_below, field_whole, Nat.reduceSub]) rfl ?_
  change decOp2E _ = _
  unfold decOp2E
  rw [show fld (46#7 ++ 0#3 ++ d ++ a ++ b ++ 7#4 ++ bit g ++ bit t ++ 0#1) 3 4 = 7#4 by simp (disch := decide) only [field_above, field_below, field_whole, Nat.reduceSub] <;> rfl]
  dsimp only [BitVec.reduceToNat]
  simp (disch := decide) only [fld, flag, field_above, field_below, field_whole, flag_bit, Nat.reduceSub] <;> rfl
theorem fcmpult (d : BitVec 3) (a : BitVec 6) (b : BitVec 6) (g : Bool) (t : Bool) : Statement (.fcmpult d a b g t) := by
  refine of_op 46 (w := 46#7 ++ 0#3 ++ d ++ a ++ b ++ 8#4 ++ bit g ++ bit t ++ 0#1) rfl (by simp (disch := decide) only [field_above, field_below, field_whole, Nat.reduceSub]) rfl ?_
  change decOp2E _ = _
  unfold decOp2E
  rw [show fld (46#7 ++ 0#3 ++ d ++ a ++ b ++ 8#4 ++ bit g ++ bit t ++ 0#1) 3 4 = 8#4 by simp (disch := decide) only [field_above, field_below, field_whole, Nat.reduceSub] <;> rfl]
  dsimp only [BitVec.reduceToNat]
  simp (disch := decide) only [fld, flag, field_above, field_below, field_whole, flag_bit, Nat.reduceSub] <;> rfl
theorem fcmpule (d : BitVec 3) (a : BitVec 6) (b : BitVec 6) (g : Bool) (t : Bool) : Statement (.fcmpule d a b g t) := by
  refine of_op 46 (w := 46#7 ++ 0#3 ++ d ++ a ++ b ++ 9#4 ++ bit g ++ bit t ++ 0#1) rfl (by simp (disch := decide) only [field_above, field_below, field_whole, Nat.reduceSub]) rfl ?_
  change decOp2E _ = _
  unfold decOp2E
  rw [show fld (46#7 ++ 0#3 ++ d ++ a ++ b ++ 9#4 ++ bit g ++ bit t ++ 0#1) 3 4 = 9#4 by simp (disch := decide) only [field_above, field_below, field_whole, Nat.reduceSub] <;> rfl]
  dsimp only [BitVec.reduceToNat]
  simp (disch := decide) only [fld, flag, field_above, field_below, field_whole, flag_bit, Nat.reduceSub] <;> rfl
theorem fcmpugt (d : BitVec 3) (a : BitVec 6) (b : BitVec 6) (g : Bool) (t : Bool) : Statement (.fcmpugt d a b g t) := by
  refine of_op 46 (w := 46#7 ++ 0#3 ++ d ++ a ++ b ++ 10#4 ++ bit g ++ bit t ++ 0#1) rfl (by simp (disch := decide) only [field_above, field_below, field_whole, Nat.reduceSub]) rfl ?_
  change decOp2E _ = _
  unfold decOp2E
  rw [show fld (46#7 ++ 0#3 ++ d ++ a ++ b ++ 10#4 ++ bit g ++ bit t ++ 0#1) 3 4 = 10#4 by simp (disch := decide) only [field_above, field_below, field_whole, Nat.reduceSub] <;> rfl]
  dsimp only [BitVec.reduceToNat]
  simp (disch := decide) only [fld, flag, field_above, field_below, field_whole, flag_bit, Nat.reduceSub] <;> rfl
theorem fcmpuge (d : BitVec 3) (a : BitVec 6) (b : BitVec 6) (g : Bool) (t : Bool) : Statement (.fcmpuge d a b g t) := by
  refine of_op 46 (w := 46#7 ++ 0#3 ++ d ++ a ++ b ++ 11#4 ++ bit g ++ bit t ++ 0#1) rfl (by simp (disch := decide) only [field_above, field_below, field_whole, Nat.reduceSub]) rfl ?_
  change decOp2E _ = _
  unfold decOp2E
  rw [show fld (46#7 ++ 0#3 ++ d ++ a ++ b ++ 11#4 ++ bit g ++ bit t ++ 0#1) 3 4 = 11#4 by simp (disch := decide) only [field_above, field_below, field_whole, Nat.reduceSub] <;> rfl]
  dsimp only [BitVec.reduceToNat]
  simp (disch := decide) only [fld, flag, field_above, field_below, field_whole, flag_bit, Nat.reduceSub] <;> rfl
theorem fcmpord (d : BitVec 3) (a : BitVec 6) (b : BitVec 6) (g : Bool) (t : Bool) : Statement (.fcmpord d a b g t) := by
  refine of_op 46 (w := 46#7 ++ 0#3 ++ d ++ a ++ b ++ 12#4 ++ bit g ++ bit t ++ 0#1) rfl (by simp (disch := decide) only [field_above, field_below, field_whole, Nat.reduceSub]) rfl ?_
  change decOp2E _ = _
  unfold decOp2E
  rw [show fld (46#7 ++ 0#3 ++ d ++ a ++ b ++ 12#4 ++ bit g ++ bit t ++ 0#1) 3 4 = 12#4 by simp (disch := decide) only [field_above, field_below, field_whole, Nat.reduceSub] <;> rfl]
  dsimp only [BitVec.reduceToNat]
  simp (disch := decide) only [fld, flag, field_above, field_below, field_whole, flag_bit, Nat.reduceSub] <;> rfl
theorem fcmpunord (d : BitVec 3) (a : BitVec 6) (b : BitVec 6) (g : Bool) (t : Bool) : Statement (.fcmpunord d a b g t) := by
  refine of_op 46 (w := 46#7 ++ 0#3 ++ d ++ a ++ b ++ 13#4 ++ bit g ++ bit t ++ 0#1) rfl (by simp (disch := decide) only [field_above, field_below, field_whole, Nat.reduceSub]) rfl ?_
  change decOp2E _ = _
  unfold decOp2E
  rw [show fld (46#7 ++ 0#3 ++ d ++ a ++ b ++ 13#4 ++ bit g ++ bit t ++ 0#1) 3 4 = 13#4 by simp (disch := decide) only [field_above, field_below, field_whole, Nat.reduceSub] <;> rfl]
  dsimp only [BitVec.reduceToNat]
  simp (disch := decide) only [fld, flag, field_above, field_below, field_whole, flag_bit, Nat.reduceSub] <;> rfl
theorem frcp (d : BitVec 6) (a : BitVec 6) (g : Bool) (t : Bool) : Statement (.frcp d a g t) := by
  refine of_op 47 (w := 47#7 ++ d ++ a ++ 0#10 ++ bit g ++ bit t ++ 0#1) rfl (by simp (disch := decide) only [field_above, field_below, field_whole, Nat.reduceSub]) rfl ?_
  change decOp2F _ = _
  unfold decOp2F
  rw [show fld (47#7 ++ d ++ a ++ 0#10 ++ bit g ++ bit t ++ 0#1) 3 4 = 0#4 by simp (disch := decide) only [field_above, field_below, field_whole, Nat.reduceSub] <;> rfl]
  dsimp only [BitVec.reduceToNat]
  simp (disch := decide) only [fld, flag, field_above, field_below, field_whole, flag_bit, Nat.reduceSub] <;> rfl
theorem frsq (d : BitVec 6) (a : BitVec 6) (g : Bool) (t : Bool) : Statement (.frsq d a g t) := by
  refine of_op 47 (w := 47#7 ++ d ++ a ++ 1#10 ++ bit g ++ bit t ++ 0#1) rfl (by simp (disch := decide) only [field_above, field_below, field_whole, Nat.reduceSub]) rfl ?_
  change decOp2F _ = _
  unfold decOp2F
  rw [show fld (47#7 ++ d ++ a ++ 1#10 ++ bit g ++ bit t ++ 0#1) 3 4 = 1#4 by simp (disch := decide) only [field_above, field_below, field_whole, Nat.reduceSub] <;> rfl]
  dsimp only [BitVec.reduceToNat]
  simp (disch := decide) only [fld, flag, field_above, field_below, field_whole, flag_bit, Nat.reduceSub] <;> rfl
theorem fsqrt (d : BitVec 6) (a : BitVec 6) (g : Bool) (t : Bool) : Statement (.fsqrt d a g t) := by
  refine of_op 47 (w := 47#7 ++ d ++ a ++ 2#10 ++ bit g ++ bit t ++ 0#1) rfl (by simp (disch := decide) only [field_above, field_below, field_whole, Nat.reduceSub]) rfl ?_
  change decOp2F _ = _
  unfold decOp2F
  rw [show fld (47#7 ++ d ++ a ++ 2#10 ++ bit g ++ bit t ++ 0#1) 3 4 = 2#4 by simp (disch := decide) only [field_above, field_below, field_whole, Nat.reduceSub] <;> rfl]
  dsimp only [BitVec.reduceToNat]
  simp (disch := decide) only [fld, flag, field_above, field_below, field_whole, flag_bit, Nat.reduceSub] <;> rfl
theorem fexp2 (d : BitVec 6) (a : BitVec 6) (g : Bool) (t : Bool) : Statement (.fexp2 d a g t) := by
  refine of_op 47 (w := 47#7 ++ d ++ a ++ 3#10 ++ bit g ++ bit t ++ 0#1) rfl (by simp (disch := decide) only [field_above, field_below, field_whole, Nat.reduceSub]) rfl ?_
  change decOp2F _ = _
  unfold decOp2F
  rw [show fld (47#7 ++ d ++ a ++ 3#10 ++ bit g ++ bit t ++ 0#1) 3 4 = 3#4 by simp (disch := decide) only [field_above, field_below, field_whole, Nat.reduceSub] <;> rfl]
  dsimp only [BitVec.reduceToNat]
  simp (disch := decide) only [fld, flag, field_above, field_below, field_whole, flag_bit, Nat.reduceSub] <;> rfl
theorem flog2 (d : BitVec 6) (a : BitVec 6) (g : Bool) (t : Bool) : Statement (.flog2 d a g t) := by
  refine of_op 47 (w := 47#7 ++ d ++ a ++ 4#10 ++ bit g ++ bit t ++ 0#1) rfl (by simp (disch := decide) only [field_above, field_below, field_whole, Nat.reduceSub]) rfl ?_
  change decOp2F _ = _
  unfold decOp2F
  rw [show fld (47#7 ++ d ++ a ++ 4#10 ++ bit g ++ bit t ++ 0#1) 3 4 = 4#4 by simp (disch := decide) only [field_above, field_below, field_whole, Nat.reduceSub] <;> rfl]
  dsimp only [BitVec.reduceToNat]
  simp (disch := decide) only [fld, flag, field_above, field_below, field_whole, flag_bit, Nat.reduceSub] <;> rfl
theorem fsin (d : BitVec 6) (a : BitVec 6) (g : Bool) (t : Bool) : Statement (.fsin d a g t) := by
  refine of_op 47 (w := 47#7 ++ d ++ a ++ 5#10 ++ bit g ++ bit t ++ 0#1) rfl (by simp (disch := decide) only [field_above, field_below, field_whole, Nat.reduceSub]) rfl ?_
  change decOp2F _ = _
  unfold decOp2F
  rw [show fld (47#7 ++ d ++ a ++ 5#10 ++ bit g ++ bit t ++ 0#1) 3 4 = 5#4 by simp (disch := decide) only [field_above, field_below, field_whole, Nat.reduceSub] <;> rfl]
  dsimp only [BitVec.reduceToNat]
  simp (disch := decide) only [fld, flag, field_above, field_below, field_whole, flag_bit, Nat.reduceSub] <;> rfl
theorem fcos (d : BitVec 6) (a : BitVec 6) (g : Bool) (t : Bool) : Statement (.fcos d a g t) := by
  refine of_op 47 (w := 47#7 ++ d ++ a ++ 6#10 ++ bit g ++ bit t ++ 0#1) rfl (by simp (disch := decide) only [field_above, field_below, field_whole, Nat.reduceSub]) rfl ?_
  change decOp2F _ = _
  unfold decOp2F
  rw [show fld (47#7 ++ d ++ a ++ 6#10 ++ bit g ++ bit t ++ 0#1) 3 4 = 6#4 by simp (disch := decide) only [field_above, field_below, field_whole, Nat.reduceSub] <;> rfl]
  dsimp only [BitVec.reduceToNat]
  simp (disch := decide) only [fld, flag, field_above, field_below, field_whole, flag_bit, Nat.reduceSub] <;> rfl
theorem ftanh (d : BitVec 6) (a : BitVec 6) (g : Bool) (t : Bool) : Statement (.ftanh d a g t) := by
  refine of_op 47 (w := 47#7 ++ d ++ a ++ 7#10 ++ bit g ++ bit t ++ 0#1) rfl (by simp (disch := decide) only [field_above, field_below, field_whole, Nat.reduceSub]) rfl ?_
  change decOp2F _ = _
  unfold decOp2F
  rw [show fld (47#7 ++ d ++ a ++ 7#10 ++ bit g ++ bit t ++ 0#1) 3 4 = 7#4 by simp (disch := decide) only [field_above, field_below, field_whole, Nat.reduceSub] <;> rfl]
  dsimp only [BitVec.reduceToNat]
  simp (disch := decide) only [fld, flag, field_above, field_below, field_whole, flag_bit, Nat.reduceSub] <;> rfl
theorem ffract (d : BitVec 6) (a : BitVec 6) (g : Bool) (t : Bool) : Statement (.ffract d a g t) := by
  refine of_op 47 (w := 47#7 ++ d ++ a ++ 8#10 ++ bit g ++ bit t ++ 0#1) rfl (by simp (disch := decide) only [field_above, field_below, field_whole, Nat.reduceSub]) rfl ?_
  change decOp2F _ = _
  unfold decOp2F
  rw [show fld (47#7 ++ d ++ a ++ 8#10 ++ bit g ++ bit t ++ 0#1) 3 4 = 8#4 by simp (disch := decide) only [field_above, field_below, field_whole, Nat.reduceSub] <;> rfl]
  dsimp only [BitVec.reduceToNat]
  simp (disch := decide) only [fld, flag, field_above, field_below, field_whole, flag_bit, Nat.reduceSub] <;> rfl
theorem fclass (d : BitVec 6) (a : BitVec 6) (g : Bool) (t : Bool) : Statement (.fclass d a g t) := by
  refine of_op 47 (w := 47#7 ++ d ++ a ++ 9#10 ++ bit g ++ bit t ++ 0#1) rfl (by simp (disch := decide) only [field_above, field_below, field_whole, Nat.reduceSub]) rfl ?_
  change decOp2F _ = _
  unfold decOp2F
  rw [show fld (47#7 ++ d ++ a ++ 9#10 ++ bit g ++ bit t ++ 0#1) 3 4 = 9#4 by simp (disch := decide) only [field_above, field_below, field_whole, Nat.reduceSub] <;> rfl]
  dsimp only [BitVec.reduceToNat]
  simp (disch := decide) only [fld, flag, field_above, field_below, field_whole, flag_bit, Nat.reduceSub] <;> rfl
theorem fdiv (d : BitVec 6) (a : BitVec 6) (b : BitVec 6) (g : Bool) (t : Bool) : Statement (.fdiv d a b g t) := by
  refine of_op 47 (w := 47#7 ++ d ++ a ++ b ++ 10#4 ++ bit g ++ bit t ++ 0#1) rfl (by simp (disch := decide) only [field_above, field_below, field_whole, Nat.reduceSub]) rfl ?_
  change decOp2F _ = _
  unfold decOp2F
  rw [show fld (47#7 ++ d ++ a ++ b ++ 10#4 ++ bit g ++ bit t ++ 0#1) 3 4 = 10#4 by simp (disch := decide) only [field_above, field_below, field_whole, Nat.reduceSub] <;> rfl]
  dsimp only [BitVec.reduceToNat]
  simp (disch := decide) only [fld, flag, field_above, field_below, field_whole, flag_bit, Nat.reduceSub] <;> rfl
theorem fdot (d : BitVec 6) (a : BitVec 6) (b : BitVec 6) (c : BitVec 6) (g : Bool) : Statement (.fdot d a b c g) := by
  refine of_op 48 (w := 48#7 ++ d ++ a ++ b ++ c ++ bit g) rfl (by simp (disch := decide) only [field_above, field_below, field_whole, Nat.reduceSub]) rfl ?_
  change decOp30 _ = _
  unfold decOp30
  simp (disch := decide) only [fld, flag, field_above, field_below, field_whole, flag_bit, Nat.reduceSub] <;> rfl
theorem lshuf (d : BitVec 6) (a : BitVec 6) (b : BitVec 6) (g : Bool) (t : Bool) : Statement (.lshuf d a b g t) := by
  refine of_op 49 (w := 49#7 ++ d ++ a ++ b ++ 0#4 ++ bit g ++ bit t ++ 0#1) rfl (by simp (disch := decide) only [field_above, field_below, field_whole, Nat.reduceSub]) rfl ?_
  change decOp31 _ = _
  unfold decOp31
  rw [show fld (49#7 ++ d ++ a ++ b ++ 0#4 ++ bit g ++ bit t ++ 0#1) 3 4 = 0#4 by simp (disch := decide) only [field_above, field_below, field_whole, Nat.reduceSub] <;> rfl]
  dsimp only [BitVec.reduceToNat]
  simp (disch := decide) only [fld, flag, field_above, field_below, field_whole, flag_bit, Nat.reduceSub] <;> rfl
theorem lrot (d : BitVec 6) (a : BitVec 6) (b : BitVec 6) (g : Bool) (t : Bool) : Statement (.lrot d a b g t) := by
  refine of_op 49 (w := 49#7 ++ d ++ a ++ b ++ 1#4 ++ bit g ++ bit t ++ 0#1) rfl (by simp (disch := decide) only [field_above, field_below, field_whole, Nat.reduceSub]) rfl ?_
  change decOp31 _ = _
  unfold decOp31
  rw [show fld (49#7 ++ d ++ a ++ b ++ 1#4 ++ bit g ++ bit t ++ 0#1) 3 4 = 1#4 by simp (disch := decide) only [field_above, field_below, field_whole, Nat.reduceSub] <;> rfl]
  dsimp only [BitVec.reduceToNat]
  simp (disch := decide) only [fld, flag, field_above, field_below, field_whole, flag_bit, Nat.reduceSub] <;> rfl
theorem lxorl (d : BitVec 6) (a : BitVec 6) (b : BitVec 6) (g : Bool) (t : Bool) : Statement (.lxorl d a b g t) := by
  refine of_op 49 (w := 49#7 ++ d ++ a ++ b ++ 2#4 ++ bit g ++ bit t ++ 0#1) rfl (by simp (disch := decide) only [field_above, field_below, field_whole, Nat.reduceSub]) rfl ?_
  change decOp31 _ = _
  unfold decOp31
  rw [show fld (49#7 ++ d ++ a ++ b ++ 2#4 ++ bit g ++ bit t ++ 0#1) 3 4 = 2#4 by simp (disch := decide) only [field_above, field_below, field_whole, Nat.reduceSub] <;> rfl]
  dsimp only [BitVec.reduceToNat]
  simp (disch := decide) only [fld, flag, field_above, field_below, field_whole, flag_bit, Nat.reduceSub] <;> rfl
theorem lup (d : BitVec 6) (a : BitVec 6) (b : BitVec 6) (g : Bool) (t : Bool) : Statement (.lup d a b g t) := by
  refine of_op 49 (w := 49#7 ++ d ++ a ++ b ++ 3#4 ++ bit g ++ bit t ++ 0#1) rfl (by simp (disch := decide) only [field_above, field_below, field_whole, Nat.reduceSub]) rfl ?_
  change decOp31 _ = _
  unfold decOp31
  rw [show fld (49#7 ++ d ++ a ++ b ++ 3#4 ++ bit g ++ bit t ++ 0#1) 3 4 = 3#4 by simp (disch := decide) only [field_above, field_below, field_whole, Nat.reduceSub] <;> rfl]
  dsimp only [BitVec.reduceToNat]
  simp (disch := decide) only [fld, flag, field_above, field_below, field_whole, flag_bit, Nat.reduceSub] <;> rfl
theorem ldown (d : BitVec 6) (a : BitVec 6) (b : BitVec 6) (g : Bool) (t : Bool) : Statement (.ldown d a b g t) := by
  refine of_op 49 (w := 49#7 ++ d ++ a ++ b ++ 4#4 ++ bit g ++ bit t ++ 0#1) rfl (by simp (disch := decide) only [field_above, field_below, field_whole, Nat.reduceSub]) rfl ?_
  change decOp31 _ = _
  unfold decOp31
  rw [show fld (49#7 ++ d ++ a ++ b ++ 4#4 ++ bit g ++ bit t ++ 0#1) 3 4 = 4#4 by simp (disch := decide) only [field_above, field_below, field_whole, Nat.reduceSub] <;> rfl]
  dsimp only [BitVec.reduceToNat]
  simp (disch := decide) only [fld, flag, field_above, field_below, field_whole, flag_bit, Nat.reduceSub] <;> rfl
theorem lbcast (d : BitVec 6) (a : BitVec 6) (b : BitVec 6) (g : Bool) (t : Bool) : Statement (.lbcast d a b g t) := by
  refine of_op 49 (w := 49#7 ++ d ++ a ++ b ++ 5#4 ++ bit g ++ bit t ++ 0#1) rfl (by simp (disch := decide) only [field_above, field_below, field_whole, Nat.reduceSub]) rfl ?_
  change decOp31 _ = _
  unfold decOp31
  rw [show fld (49#7 ++ d ++ a ++ b ++ 5#4 ++ bit g ++ bit t ++ 0#1) 3 4 = 5#4 by simp (disch := decide) only [field_above, field_below, field_whole, Nat.reduceSub] <;> rfl]
  dsimp only [BitVec.reduceToNat]
  simp (disch := decide) only [fld, flag, field_above, field_below, field_whole, flag_bit, Nat.reduceSub] <;> rfl
theorem lrotw (d : BitVec 6) (a : BitVec 6) (b : BitVec 6) (g : Bool) (t : Bool) : Statement (.lrotw d a b g t) := by
  refine of_op 49 (w := 49#7 ++ d ++ a ++ b ++ 6#4 ++ bit g ++ bit t ++ 0#1) rfl (by simp (disch := decide) only [field_above, field_below, field_whole, Nat.reduceSub]) rfl ?_
  change decOp31 _ = _
  unfold decOp31
  rw [show fld (49#7 ++ d ++ a ++ b ++ 6#4 ++ bit g ++ bit t ++ 0#1) 3 4 = 6#4 by simp (disch := decide) only [field_above, field_below, field_whole, Nat.reduceSub] <;> rfl]
  dsimp only [BitVec.reduceToNat]
  simp (disch := decide) only [fld, flag, field_above, field_below, field_whole, flag_bit, Nat.reduceSub] <;> rfl
theorem lredadd (d : BitVec 6) (a : BitVec 6) (g : Bool) (t : Bool) : Statement (.lredadd d a g t) := by
  refine of_op 50 (w := 50#7 ++ d ++ a ++ 0#10 ++ bit g ++ bit t ++ 0#1) rfl (by simp (disch := decide) only [field_above, field_below, field_whole, Nat.reduceSub]) rfl ?_
  change decOp32 _ = _
  unfold decOp32
  rw [show fld (50#7 ++ d ++ a ++ 0#10 ++ bit g ++ bit t ++ 0#1) 3 4 = 0#4 by simp (disch := decide) only [field_above, field_below, field_whole, Nat.reduceSub] <;> rfl]
  dsimp only [BitVec.reduceToNat]
  simp (disch := decide) only [fld, flag, field_above, field_below, field_whole, flag_bit, Nat.reduceSub] <;> rfl
theorem lredmin (d : BitVec 6) (a : BitVec 6) (g : Bool) (t : Bool) : Statement (.lredmin d a g t) := by
  refine of_op 50 (w := 50#7 ++ d ++ a ++ 1#10 ++ bit g ++ bit t ++ 0#1) rfl (by simp (disch := decide) only [field_above, field_below, field_whole, Nat.reduceSub]) rfl ?_
  change decOp32 _ = _
  unfold decOp32
  rw [show fld (50#7 ++ d ++ a ++ 1#10 ++ bit g ++ bit t ++ 0#1) 3 4 = 1#4 by simp (disch := decide) only [field_above, field_below, field_whole, Nat.reduceSub] <;> rfl]
  dsimp only [BitVec.reduceToNat]
  simp (disch := decide) only [fld, flag, field_above, field_below, field_whole, flag_bit, Nat.reduceSub] <;> rfl
theorem lredmax (d : BitVec 6) (a : BitVec 6) (g : Bool) (t : Bool) : Statement (.lredmax d a g t) := by
  refine of_op 50 (w := 50#7 ++ d ++ a ++ 2#10 ++ bit g ++ bit t ++ 0#1) rfl (by simp (disch := decide) only [field_above, field_below, field_whole, Nat.reduceSub]) rfl ?_
  change decOp32 _ = _
  unfold decOp32
  rw [show fld (50#7 ++ d ++ a ++ 2#10 ++ bit g ++ bit t ++ 0#1) 3 4 = 2#4 by simp (disch := decide) only [field_above, field_below, field_whole, Nat.reduceSub] <;> rfl]
  dsimp only [BitVec.reduceToNat]
  simp (disch := decide) only [fld, flag, field_above, field_below, field_whole, flag_bit, Nat.reduceSub] <;> rfl
theorem lredand (d : BitVec 6) (a : BitVec 6) (g : Bool) (t : Bool) : Statement (.lredand d a g t) := by
  refine of_op 50 (w := 50#7 ++ d ++ a ++ 3#10 ++ bit g ++ bit t ++ 0#1) rfl (by simp (disch := decide) only [field_above, field_below, field_whole, Nat.reduceSub]) rfl ?_
  change decOp32 _ = _
  unfold decOp32
  rw [show fld (50#7 ++ d ++ a ++ 3#10 ++ bit g ++ bit t ++ 0#1) 3 4 = 3#4 by simp (disch := decide) only [field_above, field_below, field_whole, Nat.reduceSub] <;> rfl]
  dsimp only [BitVec.reduceToNat]
  simp (disch := decide) only [fld, flag, field_above, field_below, field_whole, flag_bit, Nat.reduceSub] <;> rfl
theorem lredor (d : BitVec 6) (a : BitVec 6) (g : Bool) (t : Bool) : Statement (.lredor d a g t) := by
  refine of_op 50 (w := 50#7 ++ d ++ a ++ 4#10 ++ bit g ++ bit t ++ 0#1) rfl (by simp (disch := decide) only [field_above, field_below, field_whole, Nat.reduceSub]) rfl ?_
  change decOp32 _ = _
  unfold decOp32
  rw [show fld (50#7 ++ d ++ a ++ 4#10 ++ bit g ++ bit t ++ 0#1) 3 4 = 4#4 by simp (disch := decide) only [field_above, field_below, field_whole, Nat.reduceSub] <;> rfl]
  dsimp only [BitVec.reduceToNat]
  simp (disch := decide) only [fld, flag, field_above, field_below, field_whole, flag_bit, Nat.reduceSub] <;> rfl
theorem lredxor (d : BitVec 6) (a : BitVec 6) (g : Bool) (t : Bool) : Statement (.lredxor d a g t) := by
  refine of_op 50 (w := 50#7 ++ d ++ a ++ 5#10 ++ bit g ++ bit t ++ 0#1) rfl (by simp (disch := decide) only [field_above, field_below, field_whole, Nat.reduceSub]) rfl ?_
  change decOp32 _ = _
  unfold decOp32
  rw [show fld (50#7 ++ d ++ a ++ 5#10 ++ bit g ++ bit t ++ 0#1) 3 4 = 5#4 by simp (disch := decide) only [field_above, field_below, field_whole, Nat.reduceSub] <;> rfl]
  dsimp only [BitVec.reduceToNat]
  simp (disch := decide) only [fld, flag, field_above, field_below, field_whole, flag_bit, Nat.reduceSub] <;> rfl
theorem lredfadd (d : BitVec 6) (a : BitVec 6) (g : Bool) (t : Bool) : Statement (.lredfadd d a g t) := by
  refine of_op 50 (w := 50#7 ++ d ++ a ++ 6#10 ++ bit g ++ bit t ++ 0#1) rfl (by simp (disch := decide) only [field_above, field_below, field_whole, Nat.reduceSub]) rfl ?_
  change decOp32 _ = _
  unfold decOp32
  rw [show fld (50#7 ++ d ++ a ++ 6#10 ++ bit g ++ bit t ++ 0#1) 3 4 = 6#4 by simp (disch := decide) only [field_above, field_below, field_whole, Nat.reduceSub] <;> rfl]
  dsimp only [BitVec.reduceToNat]
  simp (disch := decide) only [fld, flag, field_above, field_below, field_whole, flag_bit, Nat.reduceSub] <;> rfl
theorem lredfmin (d : BitVec 6) (a : BitVec 6) (g : Bool) (t : Bool) : Statement (.lredfmin d a g t) := by
  refine of_op 50 (w := 50#7 ++ d ++ a ++ 7#10 ++ bit g ++ bit t ++ 0#1) rfl (by simp (disch := decide) only [field_above, field_below, field_whole, Nat.reduceSub]) rfl ?_
  change decOp32 _ = _
  unfold decOp32
  rw [show fld (50#7 ++ d ++ a ++ 7#10 ++ bit g ++ bit t ++ 0#1) 3 4 = 7#4 by simp (disch := decide) only [field_above, field_below, field_whole, Nat.reduceSub] <;> rfl]
  dsimp only [BitVec.reduceToNat]
  simp (disch := decide) only [fld, flag, field_above, field_below, field_whole, flag_bit, Nat.reduceSub] <;> rfl
theorem lredfmax (d : BitVec 6) (a : BitVec 6) (g : Bool) (t : Bool) : Statement (.lredfmax d a g t) := by
  refine of_op 50 (w := 50#7 ++ d ++ a ++ 8#10 ++ bit g ++ bit t ++ 0#1) rfl (by simp (disch := decide) only [field_above, field_below, field_whole, Nat.reduceSub]) rfl ?_
  change decOp32 _ = _
  unfold decOp32
  rw [show fld (50#7 ++ d ++ a ++ 8#10 ++ bit g ++ bit t ++ 0#1) 3 4 = 8#4 by simp (disch := decide) only [field_above, field_below, field_whole, Nat.reduceSub] <;> rfl]
  dsimp only [BitVec.reduceToNat]
  simp (disch := decide) only [fld, flag, field_above, field_below, field_whole, flag_bit, Nat.reduceSub] <;> rfl
theorem lscanadd (d : BitVec 6) (a : BitVec 6) (g : Bool) (t : Bool) : Statement (.lscanadd d a g t) := by
  refine of_op 51 (w := 51#7 ++ d ++ a ++ 0#10 ++ bit g ++ bit t ++ 0#1) rfl (by simp (disch := decide) only [field_above, field_below, field_whole, Nat.reduceSub]) rfl ?_
  change decOp33 _ = _
  unfold decOp33
  rw [show fld (51#7 ++ d ++ a ++ 0#10 ++ bit g ++ bit t ++ 0#1) 3 4 = 0#4 by simp (disch := decide) only [field_above, field_below, field_whole, Nat.reduceSub] <;> rfl]
  dsimp only [BitVec.reduceToNat]
  simp (disch := decide) only [fld, flag, field_above, field_below, field_whole, flag_bit, Nat.reduceSub] <;> rfl
theorem lscanmin (d : BitVec 6) (a : BitVec 6) (g : Bool) (t : Bool) : Statement (.lscanmin d a g t) := by
  refine of_op 51 (w := 51#7 ++ d ++ a ++ 1#10 ++ bit g ++ bit t ++ 0#1) rfl (by simp (disch := decide) only [field_above, field_below, field_whole, Nat.reduceSub]) rfl ?_
  change decOp33 _ = _
  unfold decOp33
  rw [show fld (51#7 ++ d ++ a ++ 1#10 ++ bit g ++ bit t ++ 0#1) 3 4 = 1#4 by simp (disch := decide) only [field_above, field_below, field_whole, Nat.reduceSub] <;> rfl]
  dsimp only [BitVec.reduceToNat]
  simp (disch := decide) only [fld, flag, field_above, field_below, field_whole, flag_bit, Nat.reduceSub] <;> rfl
theorem lscanmax (d : BitVec 6) (a : BitVec 6) (g : Bool) (t : Bool) : Statement (.lscanmax d a g t) := by
  refine of_op 51 (w := 51#7 ++ d ++ a ++ 2#10 ++ bit g ++ bit t ++ 0#1) rfl (by simp (disch := decide) only [field_above, field_below, field_whole, Nat.reduceSub]) rfl ?_
  change decOp33 _ = _
  unfold decOp33
  rw [show fld (51#7 ++ d ++ a ++ 2#10 ++ bit g ++ bit t ++ 0#1) 3 4 = 2#4 by simp (disch := decide) only [field_above, field_below, field_whole, Nat.reduceSub] <;> rfl]
  dsimp only [BitVec.reduceToNat]
  simp (disch := decide) only [fld, flag, field_above, field_below, field_whole, flag_bit, Nat.reduceSub] <;> rfl
theorem lscanand (d : BitVec 6) (a : BitVec 6) (g : Bool) (t : Bool) : Statement (.lscanand d a g t) := by
  refine of_op 51 (w := 51#7 ++ d ++ a ++ 3#10 ++ bit g ++ bit t ++ 0#1) rfl (by simp (disch := decide) only [field_above, field_below, field_whole, Nat.reduceSub]) rfl ?_
  change decOp33 _ = _
  unfold decOp33
  rw [show fld (51#7 ++ d ++ a ++ 3#10 ++ bit g ++ bit t ++ 0#1) 3 4 = 3#4 by simp (disch := decide) only [field_above, field_below, field_whole, Nat.reduceSub] <;> rfl]
  dsimp only [BitVec.reduceToNat]
  simp (disch := decide) only [fld, flag, field_above, field_below, field_whole, flag_bit, Nat.reduceSub] <;> rfl
theorem lscanor (d : BitVec 6) (a : BitVec 6) (g : Bool) (t : Bool) : Statement (.lscanor d a g t) := by
  refine of_op 51 (w := 51#7 ++ d ++ a ++ 4#10 ++ bit g ++ bit t ++ 0#1) rfl (by simp (disch := decide) only [field_above, field_below, field_whole, Nat.reduceSub]) rfl ?_
  change decOp33 _ = _
  unfold decOp33
  rw [show fld (51#7 ++ d ++ a ++ 4#10 ++ bit g ++ bit t ++ 0#1) 3 4 = 4#4 by simp (disch := decide) only [field_above, field_below, field_whole, Nat.reduceSub] <;> rfl]
  dsimp only [BitVec.reduceToNat]
  simp (disch := decide) only [fld, flag, field_above, field_below, field_whole, flag_bit, Nat.reduceSub] <;> rfl
theorem lscanxor (d : BitVec 6) (a : BitVec 6) (g : Bool) (t : Bool) : Statement (.lscanxor d a g t) := by
  refine of_op 51 (w := 51#7 ++ d ++ a ++ 5#10 ++ bit g ++ bit t ++ 0#1) rfl (by simp (disch := decide) only [field_above, field_below, field_whole, Nat.reduceSub]) rfl ?_
  change decOp33 _ = _
  unfold decOp33
  rw [show fld (51#7 ++ d ++ a ++ 5#10 ++ bit g ++ bit t ++ 0#1) 3 4 = 5#4 by simp (disch := decide) only [field_above, field_below, field_whole, Nat.reduceSub] <;> rfl]
  dsimp only [BitVec.reduceToNat]
  simp (disch := decide) only [fld, flag, field_above, field_below, field_whole, flag_bit, Nat.reduceSub] <;> rfl
theorem lscanfadd (d : BitVec 6) (a : BitVec 6) (g : Bool) (t : Bool) : Statement (.lscanfadd d a g t) := by
  refine of_op 51 (w := 51#7 ++ d ++ a ++ 6#10 ++ bit g ++ bit t ++ 0#1) rfl (by simp (disch := decide) only [field_above, field_below, field_whole, Nat.reduceSub]) rfl ?_
  change decOp33 _ = _
  unfold decOp33
  rw [show fld (51#7 ++ d ++ a ++ 6#10 ++ bit g ++ bit t ++ 0#1) 3 4 = 6#4 by simp (disch := decide) only [field_above, field_below, field_whole, Nat.reduceSub] <;> rfl]
  dsimp only [BitVec.reduceToNat]
  simp (disch := decide) only [fld, flag, field_above, field_below, field_whole, flag_bit, Nat.reduceSub] <;> rfl
theorem lxscanadd (d : BitVec 6) (a : BitVec 6) (g : Bool) (t : Bool) : Statement (.lxscanadd d a g t) := by
  refine of_op 51 (w := 51#7 ++ d ++ a ++ 8#10 ++ bit g ++ bit t ++ 0#1) rfl (by simp (disch := decide) only [field_above, field_below, field_whole, Nat.reduceSub]) rfl ?_
  change decOp33 _ = _
  unfold decOp33
  rw [show fld (51#7 ++ d ++ a ++ 8#10 ++ bit g ++ bit t ++ 0#1) 3 4 = 8#4 by simp (disch := decide) only [field_above, field_below, field_whole, Nat.reduceSub] <;> rfl]
  dsimp only [BitVec.reduceToNat]
  simp (disch := decide) only [fld, flag, field_above, field_below, field_whole, flag_bit, Nat.reduceSub] <;> rfl
theorem lxscanmin (d : BitVec 6) (a : BitVec 6) (g : Bool) (t : Bool) : Statement (.lxscanmin d a g t) := by
  refine of_op 51 (w := 51#7 ++ d ++ a ++ 9#10 ++ bit g ++ bit t ++ 0#1) rfl (by simp (disch := decide) only [field_above, field_below, field_whole, Nat.reduceSub]) rfl ?_
  change decOp33 _ = _
  unfold decOp33
  rw [show fld (51#7 ++ d ++ a ++ 9#10 ++ bit g ++ bit t ++ 0#1) 3 4 = 9#4 by simp (disch := decide) only [field_above, field_below, field_whole, Nat.reduceSub] <;> rfl]
  dsimp only [BitVec.reduceToNat]
  simp (disch := decide) only [fld, flag, field_above, field_below, field_whole, flag_bit, Nat.reduceSub] <;> rfl
theorem lxscanmax (d : BitVec 6) (a : BitVec 6) (g : Bool) (t : Bool) : Statement (.lxscanmax d a g t) := by
  refine of_op 51 (w := 51#7 ++ d ++ a ++ 10#10 ++ bit g ++ bit t ++ 0#1) rfl (by simp (disch := decide) only [field_above, field_below, field_whole, Nat.reduceSub]) rfl ?_
  change decOp33 _ = _
  unfold decOp33
  rw [show fld (51#7 ++ d ++ a ++ 10#10 ++ bit g ++ bit t ++ 0#1) 3 4 = 10#4 by simp (disch := decide) only [field_above, field_below, field_whole, Nat.reduceSub] <;> rfl]
  dsimp only [BitVec.reduceToNat]
  simp (disch := decide) only [fld, flag, field_above, field_below, field_whole, flag_bit, Nat.reduceSub] <;> rfl
theorem lxscanand (d : BitVec 6) (a : BitVec 6) (g : Bool) (t : Bool) : Statement (.lxscanand d a g t) := by
  refine of_op 51 (w := 51#7 ++ d ++ a ++ 11#10 ++ bit g ++ bit t ++ 0#1) rfl (by simp (disch := decide) only [field_above, field_below, field_whole, Nat.reduceSub]) rfl ?_
  change decOp33 _ = _
  unfold decOp33
  rw [show fld (51#7 ++ d ++ a ++ 11#10 ++ bit g ++ bit t ++ 0#1) 3 4 = 11#4 by simp (disch := decide) only [field_above, field_below, field_whole, Nat.reduceSub] <;> rfl]
  dsimp only [BitVec.reduceToNat]
  simp (disch := decide) only [fld, flag, field_above, field_below, field_whole, flag_bit, Nat.reduceSub] <;> rfl
theorem lxscanor (d : BitVec 6) (a : BitVec 6) (g : Bool) (t : Bool) : Statement (.lxscanor d a g t) := by
  refine of_op 51 (w := 51#7 ++ d ++ a ++ 12#10 ++ bit g ++ bit t ++ 0#1) rfl (by simp (disch := decide) only [field_above, field_below, field_whole, Nat.reduceSub]) rfl ?_
  change decOp33 _ = _
  unfold decOp33
  rw [show fld (51#7 ++ d ++ a ++ 12#10 ++ bit g ++ bit t ++ 0#1) 3 4 = 12#4 by simp (disch := decide) only [field_above, field_below, field_whole, Nat.reduceSub] <;> rfl]
  dsimp only [BitVec.reduceToNat]
  simp (disch := decide) only [fld, flag, field_above, field_below, field_whole, flag_bit, Nat.reduceSub] <;> rfl
theorem lxscanxor (d : BitVec 6) (a : BitVec 6) (g : Bool) (t : Bool) : Statement (.lxscanxor d a g t) := by
  refine of_op 51 (w := 51#7 ++ d ++ a ++ 13#10 ++ bit g ++ bit t ++ 0#1) rfl (by simp (disch := decide) only [field_above, field_below, field_whole, Nat.reduceSub]) rfl ?_
  change decOp33 _ = _
  unfold decOp33
  rw [show fld (51#7 ++ d ++ a ++ 13#10 ++ bit g ++ bit t ++ 0#1) 3 4 = 13#4 by simp (disch := decide) only [field_above, field_below, field_whole, Nat.reduceSub] <;> rfl]
  dsimp only [BitVec.reduceToNat]
  simp (disch := decide) only [fld, flag, field_above, field_below, field_whole, flag_bit, Nat.reduceSub] <;> rfl
theorem lxscanfadd (d : BitVec 6) (a : BitVec 6) (g : Bool) (t : Bool) : Statement (.lxscanfadd d a g t) := by
  refine of_op 51 (w := 51#7 ++ d ++ a ++ 14#10 ++ bit g ++ bit t ++ 0#1) rfl (by simp (disch := decide) only [field_above, field_below, field_whole, Nat.reduceSub]) rfl ?_
  change decOp33 _ = _
  unfold decOp33
  rw [show fld (51#7 ++ d ++ a ++ 14#10 ++ bit g ++ bit t ++ 0#1) 3 4 = 14#4 by simp (disch := decide) only [field_above, field_below, field_whole, Nat.reduceSub] <;> rfl]
  dsimp only [BitVec.reduceToNat]
  simp (disch := decide) only [fld, flag, field_above, field_below, field_whole, flag_bit, Nat.reduceSub] <;> rfl
theorem lballot (d : BitVec 6) (a : BitVec 3) (g : Bool) : Statement (.lballot d a g) := by
  refine of_op 52 (w := 52#7 ++ d ++ 0#3 ++ a ++ 0#10 ++ bit g ++ 0#2) rfl (by simp (disch := decide) only [field_above, field_below, field_whole, Nat.reduceSub]) rfl ?_
  change decOp34 _ = _
  unfold decOp34
  rw [show fld (52#7 ++ d ++ 0#3 ++ a ++ 0#10 ++ bit g ++ 0#2) 3 4 = 0#4 by simp (disch := decide) only [field_above, field_below, field_whole, Nat.reduceSub] <;> rfl]
  dsimp only [BitVec.reduceToNat]
  simp (disch := decide) only [fld, flag, field_above, field_below, field_whole, flag_bit, Nat.reduceSub] <;> rfl
theorem lmatch (d : BitVec 6) (a : BitVec 6) (g : Bool) (t : Bool) : Statement (.lmatch d a g t) := by
  refine of_op 52 (w := 52#7 ++ d ++ a ++ 1#10 ++ bit g ++ bit t ++ 0#1) rfl (by simp (disch := decide) only [field_above, field_below, field_whole, Nat.reduceSub]) rfl ?_
  change decOp34 _ = _
  unfold decOp34
  rw [show fld (52#7 ++ d ++ a ++ 1#10 ++ bit g ++ bit t ++ 0#1) 3 4 = 1#4 by simp (disch := decide) only [field_above, field_below, field_whole, Nat.reduceSub] <;> rfl]
  dsimp only [BitVec.reduceToNat]
  simp (disch := decide) only [fld, flag, field_above, field_below, field_whole, flag_bit, Nat.reduceSub] <;> rfl
theorem xsend (d : BitVec 4) (a : BitVec 6) (b : BitVec 6) (g : Bool) : Statement (.xsend d a b g) := by
  refine of_op 53 (w := 53#7 ++ 0#2 ++ d ++ a ++ b ++ 0#4 ++ bit g ++ 0#2) rfl (by simp (disch := decide) only [field_above, field_below, field_whole, Nat.reduceSub]) rfl ?_
  change decOp35 _ = _
  unfold decOp35
  simp (disch := decide) only [fld, flag, field_above, field_below, field_whole, flag_bit, Nat.reduceSub] <;> rfl
theorem xrecv (d : BitVec 6) (a : BitVec 4) (b : BitVec 6) (g : Bool) : Statement (.xrecv d a b g) := by
  refine of_op 54 (w := 54#7 ++ d ++ 0#2 ++ a ++ b ++ 0#4 ++ bit g ++ 0#2) rfl (by simp (disch := decide) only [field_above, field_below, field_whole, Nat.reduceSub]) rfl ?_
  change decOp36 _ = _
  unfold decOp36
  simp (disch := decide) only [fld, flag, field_above, field_below, field_whole, flag_bit, Nat.reduceSub] <;> rfl
theorem regroup (d : BitVec 6) (a : BitVec 6) (b : BitVec 6) (g : Bool) : Statement (.regroup d a b g) := by
  refine of_op 55 (w := 55#7 ++ d ++ a ++ b ++ 0#4 ++ bit g ++ 0#2) rfl (by simp (disch := decide) only [field_above, field_below, field_whole, Nat.reduceSub]) rfl ?_
  change decOp37 _ = _
  unfold decOp37
  simp (disch := decide) only [fld, flag, field_above, field_below, field_whole, flag_bit, Nat.reduceSub] <;> rfl
theorem vlane (d : BitVec 6) (g : Bool) : Statement (.vlane d g) := by
  refine of_op 56 (w := 56#7 ++ d ++ 0#16 ++ bit g ++ 0#2) rfl (by simp (disch := decide) only [field_above, field_below, field_whole, Nat.reduceSub]) rfl ?_
  change decOp38 _ = _
  unfold decOp38
  simp (disch := decide) only [fld, flag, field_above, field_below, field_whole, flag_bit, Nat.reduceSub] <;> rfl
theorem ld (d : BitVec 6) (a : BitVec 6) (b : BitVec 6) (sc : BitVec 3) (ord : BitVec 2) (g : Bool) (t : Bool) : Statement (.ld d a b sc ord g t) := by
  refine of_op 64 (w := 64#7 ++ d ++ a ++ b ++ sc ++ ord ++ bit g ++ bit t) rfl (by simp (disch := decide) only [field_above, field_below, field_whole, Nat.reduceSub]) rfl ?_
  change decOp40 _ = _
  unfold decOp40
  simp (disch := decide) only [fld, flag, field_above, field_below, field_whole, flag_bit, Nat.reduceSub] <;> rfl
theorem st (d : BitVec 6) (a : BitVec 6) (b : BitVec 6) (sc : BitVec 3) (ord : BitVec 2) (g : Bool) (t : Bool) : Statement (.st d a b sc ord g t) := by
  refine of_op 65 (w := 65#7 ++ d ++ a ++ b ++ sc ++ ord ++ bit g ++ bit t) rfl (by simp (disch := decide) only [field_above, field_below, field_whole, Nat.reduceSub]) rfl ?_
  change decOp41 _ = _
  unfold decOp41
  simp (disch := decide) only [fld, flag, field_above, field_below, field_whole, flag_bit, Nat.reduceSub] <;> rfl
theorem ldu (d : BitVec 6) (a : BitVec 6) (b : BitVec 6) (sc : BitVec 3) (ord : BitVec 2) (g : Bool) (t : Bool) : Statement (.ldu d a b sc ord g t) := by
  refine of_op 66 (w := 66#7 ++ d ++ a ++ b ++ sc ++ ord ++ bit g ++ bit t) rfl (by simp (disch := decide) only [field_above, field_below, field_whole, Nat.reduceSub]) rfl ?_
  change decOp42 _ = _
  unfold decOp42
  simp (disch := decide) only [fld, flag, field_above, field_below, field_whole, flag_bit, Nat.reduceSub] <;> rfl
theorem stu (d : BitVec 6) (a : BitVec 6) (b : BitVec 6) (sc : BitVec 3) (ord : BitVec 2) (g : Bool) (t : Bool) : Statement (.stu d a b sc ord g t) := by
  refine of_op 67 (w := 67#7 ++ d ++ a ++ b ++ sc ++ ord ++ bit g ++ bit t) rfl (by simp (disch := decide) only [field_above, field_below, field_whole, Nat.reduceSub]) rfl ?_
  change decOp43 _ = _
  unfold decOp43
  simp (disch := decide) only [fld, flag, field_above, field_below, field_whole, flag_bit, Nat.reduceSub] <;> rfl
theorem ldh (d : BitVec 6) (a : BitVec 6) (b : BitVec 6) (sc : BitVec 3) (ord : BitVec 2) (g : Bool) (t : Bool) : Statement (.ldh d a b sc ord g t) := by
  refine of_op 68 (w := 68#7 ++ d ++ a ++ b ++ sc ++ ord ++ bit g ++ bit t) rfl (by simp (disch := decide) only [field_above, field_below, field_whole, Nat.reduceSub]) rfl ?_
  change decOp44 _ = _
  unfold decOp44
  simp (disch := decide) only [fld, flag, field_above, field_below, field_whole, flag_bit, Nat.reduceSub] <;> rfl
theorem sth (d : BitVec 6) (a : BitVec 6) (b : BitVec 6) (sc : BitVec 3) (ord : BitVec 2) (g : Bool) (t : Bool) : Statement (.sth d a b sc ord g t) := by
  refine of_op 69 (w := 69#7 ++ d ++ a ++ b ++ sc ++ ord ++ bit g ++ bit t) rfl (by simp (disch := decide) only [field_above, field_below, field_whole, Nat.reduceSub]) rfl ?_
  change decOp45 _ = _
  unfold decOp45
  simp (disch := decide) only [fld, flag, field_above, field_below, field_whole, flag_bit, Nat.reduceSub] <;> rfl
theorem atom (d : BitVec 6) (a : BitVec 6) (b : BitVec 6) (aop : BitVec 4) (sc : BitVec 3) : Statement (.atom d a b aop sc) := by
  refine of_op 70 (w := 70#7 ++ d ++ a ++ b ++ aop ++ sc) rfl (by simp (disch := decide) only [field_above, field_below, field_whole, Nat.reduceSub]) rfl ?_
  change decOp46 _ = _
  unfold decOp46
  simp (disch := decide) only [fld, flag, field_above, field_below, field_whole, flag_bit, Nat.reduceSub] <;> rfl
theorem atoma (d : BitVec 6) (a : BitVec 6) (b : BitVec 6) (aop : BitVec 4) (sc : BitVec 3) : Statement (.atoma d a b aop sc) := by
  refine of_op 71 (w := 71#7 ++ d ++ a ++ b ++ aop ++ sc) rfl (by simp (disch := decide) only [field_above, field_below, field_whole, Nat.reduceSub]) rfl ?_
  change decOp47 _ = _
  unfold decOp47
  simp (disch := decide) only [fld, flag, field_above, field_below, field_whole, flag_bit, Nat.reduceSub] <;> rfl
theorem red (a : BitVec 6) (b : BitVec 6) (aop : BitVec 4) (sc : BitVec 3) : Statement (.red a b aop sc) := by
  refine of_op 72 (w := 72#7 ++ 0#6 ++ a ++ b ++ aop ++ sc) rfl (by simp (disch := decide) only [field_above, field_below, field_whole, Nat.reduceSub]) rfl ?_
  change decOp48 _ = _
  unfold decOp48
  simp (disch := decide) only [fld, flag, field_above, field_below, field_whole, flag_bit, Nat.reduceSub] <;> rfl
theorem atomh (d : BitVec 6) (a : BitVec 6) (b : BitVec 6) (aop : BitVec 4) (sc : BitVec 3) : Statement (.atomh d a b aop sc) := by
  refine of_op 73 (w := 73#7 ++ d ++ a ++ b ++ aop ++ sc) rfl (by simp (disch := decide) only [field_above, field_below, field_whole, Nat.reduceSub]) rfl ?_
  change decOp49 _ = _
  unfold decOp49
  simp (disch := decide) only [fld, flag, field_above, field_below, field_whole, flag_bit, Nat.reduceSub] <;> rfl
theorem talloc (d : BitVec 6) (a : BitVec 6) (g : Bool) : Statement (.talloc d a g) := by
  refine of_op 74 (w := 74#7 ++ d ++ a ++ 0#10 ++ bit g ++ 0#2) rfl (by simp (disch := decide) only [field_above, field_below, field_whole, Nat.reduceSub]) rfl ?_
  change decOp4A _ = _
  unfold decOp4A
  rw [show fld (74#7 ++ d ++ a ++ 0#10 ++ bit g ++ 0#2) 3 4 = 0#4 by simp (disch := decide) only [field_above, field_below, field_whole, Nat.reduceSub] <;> rfl]
  dsimp only [BitVec.reduceToNat]
  simp (disch := decide) only [fld, flag, field_above, field_below, field_whole, flag_bit, Nat.reduceSub] <;> rfl
theorem tfree (a : BitVec 6) (g : Bool) : Statement (.tfree a g) := by
  refine of_op 74 (w := 74#7 ++ 0#6 ++ a ++ 1#10 ++ bit g ++ 0#2) rfl (by simp (disch := decide) only [field_above, field_below, field_whole, Nat.reduceSub]) rfl ?_
  change decOp4A _ = _
  unfold decOp4A
  rw [show fld (74#7 ++ 0#6 ++ a ++ 1#10 ++ bit g ++ 0#2) 3 4 = 1#4 by simp (disch := decide) only [field_above, field_below, field_whole, Nat.reduceSub] <;> rfl]
  dsimp only [BitVec.reduceToNat]
  simp (disch := decide) only [fld, flag, field_above, field_below, field_whole, flag_bit, Nat.reduceSub] <;> rfl
theorem tinfo (d : BitVec 6) (g : Bool) : Statement (.tinfo d g) := by
  refine of_op 74 (w := 74#7 ++ d ++ 2#16 ++ bit g ++ 0#2) rfl (by simp (disch := decide) only [field_above, field_below, field_whole, Nat.reduceSub]) rfl ?_
  change decOp4A _ = _
  unfold decOp4A
  rw [show fld (74#7 ++ d ++ 2#16 ++ bit g ++ 0#2) 3 4 = 2#4 by simp (disch := decide) only [field_above, field_below, field_whole, Nat.reduceSub] <;> rfl]
  dsimp only [BitVec.reduceToNat]
  simp (disch := decide) only [fld, flag, field_above, field_below, field_whole, flag_bit, Nat.reduceSub] <;> rfl
theorem wait (ld : BitVec 6) (st : BitVec 6) (cp : BitVec 6) (tl : BitVec 6) : Statement (.wait ld st cp tl) := by
  refine of_op 75 (w := 75#7 ++ ld ++ st ++ cp ++ tl ++ 0#1) rfl (by simp (disch := decide) only [field_above, field_below, field_whole, Nat.reduceSub]) rfl ?_
  change decOp4B _ = _
  unfold decOp4B
  simp (disch := decide) only [fld, flag, field_above, field_below, field_whole, flag_bit, Nat.reduceSub] <;> rfl
theorem waitrld (a : BitVec 6) (g : Bool) : Statement (.waitrld a g) := by
  refine of_op 76 (w := 76#7 ++ 0#6 ++ a ++ 0#10 ++ bit g ++ 0#2) rfl (by simp (disch := decide) only [field_above, field_below, field_whole, Nat.reduceSub]) rfl ?_
  change decOp4C _ = _
  unfold decOp4C
  rw [show fld (76#7 ++ 0#6 ++ a ++ 0#10 ++ bit g ++ 0#2) 3 4 = 0#4 by simp (disch := decide) only [field_above, field_below, field_whole, Nat.reduceSub] <;> rfl]
  dsimp only [BitVec.reduceToNat]
  simp (disch := decide) only [fld, flag, field_above, field_below, field_whole, flag_bit, Nat.reduceSub] <;> rfl
theorem waitrst (a : BitVec 6) (g : Bool) : Statement (.waitrst a g) := by
  refine of_op 76 (w := 76#7 ++ 0#6 ++ a ++ 1#10 ++ bit g ++ 0#2) rfl (by simp (disch := decide) only [field_above, field_below, field_whole, Nat.reduceSub]) rfl ?_
  change decOp4C _ = _
  unfold decOp4C
  rw [show fld (76#7 ++ 0#6 ++ a ++ 1#10 ++ bit g ++ 0#2) 3 4 = 1#4 by simp (disch := decide) only [field_above, field_below, field_whole, Nat.reduceSub] <;> rfl]
  dsimp only [BitVec.reduceToNat]
  simp (disch := decide) only [fld, flag, field_above, field_below, field_whole, flag_bit, Nat.reduceSub] <;> rfl
theorem waitrcp (a : BitVec 6) (g : Bool) : Statement (.waitrcp a g) := by
  refine of_op 76 (w := 76#7 ++ 0#6 ++ a ++ 2#10 ++ bit g ++ 0#2) rfl (by simp (disch := decide) only [field_above, field_below, field_whole, Nat.reduceSub]) rfl ?_
  change decOp4C _ = _
  unfold decOp4C
  rw [show fld (76#7 ++ 0#6 ++ a ++ 2#10 ++ bit g ++ 0#2) 3 4 = 2#4 by simp (disch := decide) only [field_above, field_below, field_whole, Nat.reduceSub] <;> rfl]
  dsimp only [BitVec.reduceToNat]
  simp (disch := decide) only [fld, flag, field_above, field_below, field_whole, flag_bit, Nat.reduceSub] <;> rfl
theorem waitrtl (a : BitVec 6) (g : Bool) : Statement (.waitrtl a g) := by
  refine of_op 76 (w := 76#7 ++ 0#6 ++ a ++ 3#10 ++ bit g ++ 0#2) rfl (by simp (disch := decide) only [field_above, field_below, field_whole, Nat.reduceSub]) rfl ?_
  change decOp4C _ = _
  unfold decOp4C
  rw [show fld (76#7 ++ 0#6 ++ a ++ 3#10 ++ bit g ++ 0#2) 3 4 = 3#4 by simp (disch := decide) only [field_above, field_below, field_whole, Nat.reduceSub] <;> rfl]
  dsimp only [BitVec.reduceToNat]
  simp (disch := decide) only [fld, flag, field_above, field_below, field_whole, flag_bit, Nat.reduceSub] <;> rfl
theorem pfl1 (a : BitVec 6) (b : BitVec 6) (g : Bool) : Statement (.pfl1 a b g) := by
  refine of_op 77 (w := 77#7 ++ 0#6 ++ a ++ b ++ 0#4 ++ bit g ++ 0#2) rfl (by simp (disch := decide) only [field_above, field_below, field_whole, Nat.reduceSub]) rfl ?_
  change decOp4D _ = _
  unfold decOp4D
  rw [show fld (77#7 ++ 0#6 ++ a ++ b ++ 0#4 ++ bit g ++ 0#2) 3 4 = 0#4 by simp (disch := decide) only [field_above, field_below, field_whole, Nat.reduceSub] <;> rfl]
  dsimp only [BitVec.reduceToNat]
  simp (disch := decide) only [fld, flag, field_above, field_below, field_whole, flag_bit, Nat.reduceSub] <;> rfl
theorem pfllc (a : BitVec 6) (b : BitVec 6) (g : Bool) : Statement (.pfllc a b g) := by
  refine of_op 77 (w := 77#7 ++ 0#6 ++ a ++ b ++ 1#4 ++ bit g ++ 0#2) rfl (by simp (disch := decide) only [field_above, field_below, field_whole, Nat.reduceSub]) rfl ?_
  change decOp4D _ = _
  unfold decOp4D
  rw [show fld (77#7 ++ 0#6 ++ a ++ b ++ 1#4 ++ bit g ++ 0#2) 3 4 = 1#4 by simp (disch := decide) only [field_above, field_below, field_whole, Nat.reduceSub] <;> rfl]
  dsimp only [BitVec.reduceToNat]
  simp (disch := decide) only [fld, flag, field_above, field_below, field_whole, flag_bit, Nat.reduceSub] <;> rfl
theorem cwb (a : BitVec 6) (b : BitVec 6) (g : Bool) : Statement (.cwb a b g) := by
  refine of_op 77 (w := 77#7 ++ 0#6 ++ a ++ b ++ 2#4 ++ bit g ++ 0#2) rfl (by simp (disch := decide) only [field_above, field_below, field_whole, Nat.reduceSub]) rfl ?_
  change decOp4D _ = _
  unfold decOp4D
  rw [show fld (77#7 ++ 0#6 ++ a ++ b ++ 2#4 ++ bit g ++ 0#2) 3 4 = 2#4 by simp (disch := decide) only [field_above, field_below, field_whole, Nat.reduceSub] <;> rfl]
  dsimp only [BitVec.reduceToNat]
  simp (disch := decide) only [fld, flag, field_above, field_below, field_whole, flag_bit, Nat.reduceSub] <;> rfl
theorem cinv (a : BitVec 6) (b : BitVec 6) (g : Bool) : Statement (.cinv a b g) := by
  refine of_op 77 (w := 77#7 ++ 0#6 ++ a ++ b ++ 3#4 ++ bit g ++ 0#2) rfl (by simp (disch := decide) only [field_above, field_below, field_whole, Nat.reduceSub]) rfl ?_
  change decOp4D _ = _
  unfold decOp4D
  rw [show fld (77#7 ++ 0#6 ++ a ++ b ++ 3#4 ++ bit g ++ 0#2) 3 4 = 3#4 by simp (disch := decide) only [field_above, field_below, field_whole, Nat.reduceSub] <;> rfl]
  dsimp only [BitVec.reduceToNat]
  simp (disch := decide) only [fld, flag, field_above, field_below, field_whole, flag_bit, Nat.reduceSub] <;> rfl
theorem icinv (n : BitVec 6) (g : Bool) : Statement (.icinv n g) := by
  refine of_op 77 (w := 77#7 ++ 0#12 ++ n ++ 4#4 ++ bit g ++ 0#2) rfl (by simp (disch := decide) only [field_above, field_below, field_whole, Nat.reduceSub]) rfl ?_
  change decOp4D _ = _
  unfold decOp4D
  rw [show fld (77#7 ++ 0#12 ++ n ++ 4#4 ++ bit g ++ 0#2) 3 4 = 4#4 by simp (disch := decide) only [field_above, field_below, field_whole, Nat.reduceSub] <;> rfl]
  dsimp only [BitVec.reduceToNat]
  simp (disch := decide) only [fld, flag, field_above, field_below, field_whole, flag_bit, Nat.reduceSub] <;> rfl
theorem fence (sc : BitVec 4) (g : Bool) : Statement (.fence sc g) := by
  refine of_op 80 (w := 80#7 ++ 0#18 ++ sc ++ bit g ++ 0#2) rfl (by simp (disch := decide) only [field_above, field_below, field_whole, Nat.reduceSub]) rfl ?_
  change decOp50 _ = _
  unfold decOp50
  simp (disch := decide) only [fld, flag, field_above, field_below, field_whole, flag_bit, Nat.reduceSub] <;> rfl
theorem binit (a : BitVec 6) (b : BitVec 6) (g : Bool) : Statement (.binit a b g) := by
  refine of_op 81 (w := 81#7 ++ 0#6 ++ a ++ b ++ 0#4 ++ bit g ++ 0#2) rfl (by simp (disch := decide) only [field_above, field_below, field_whole, Nat.reduceSub]) rfl ?_
  change decOp51 _ = _
  unfold decOp51
  simp (disch := decide) only [fld, flag, field_above, field_below, field_whole, flag_bit, Nat.reduceSub] <;> rfl
theorem barv (a : BitVec 6) (g : Bool) : Statement (.barv a g) := by
  refine of_op 82 (w := 82#7 ++ 0#6 ++ a ++ 0#10 ++ bit g ++ 0#2) rfl (by simp (disch := decide) only [field_above, field_below, field_whole, Nat.reduceSub]) rfl ?_
  change decOp52 _ = _
  unfold decOp52
  rw [show fld (82#7 ++ 0#6 ++ a ++ 0#10 ++ bit g ++ 0#2) 3 4 = 0#4 by simp (disch := decide) only [field_above, field_below, field_whole, Nat.reduceSub] <;> rfl]
  dsimp only [BitVec.reduceToNat]
  simp (disch := decide) only [fld, flag, field_above, field_below, field_whole, flag_bit, Nat.reduceSub] <;> rfl
theorem barvx (a : BitVec 6) (b : BitVec 6) (g : Bool) : Statement (.barvx a b g) := by
  refine of_op 82 (w := 82#7 ++ 0#6 ++ a ++ b ++ 1#4 ++ bit g ++ 0#2) rfl (by simp (disch := decide) only [field_above, field_below, field_whole, Nat.reduceSub]) rfl ?_
  change decOp52 _ = _
  unfold decOp52
  rw [show fld (82#7 ++ 0#6 ++ a ++ b ++ 1#4 ++ bit g ++ 0#2) 3 4 = 1#4 by simp (disch := decide) only [field_above, field_below, field_whole, Nat.reduceSub] <;> rfl]
  dsimp only [BitVec.reduceToNat]
  simp (disch := decide) only [fld, flag, field_above, field_below, field_whole, flag_bit, Nat.reduceSub] <;> rfl
theorem barvd (a : BitVec 6) (g : Bool) : Statement (.barvd a g) := by
  refine of_op 82 (w := 82#7 ++ 0#6 ++ a ++ 2#10 ++ bit g ++ 0#2) rfl (by simp (disch := decide) only [field_above, field_below, field_whole, Nat.reduceSub]) rfl ?_
  change decOp52 _ = _
  unfold decOp52
  rw [show fld (82#7 ++ 0#6 ++ a ++ 2#10 ++ bit g ++ 0#2) 3 4 = 2#4 by simp (disch := decide) only [field_above, field_below, field_whole, Nat.reduceSub] <;> rfl]
  dsimp only [BitVec.reduceToNat]
  simp (disch := decide) only [fld, flag, field_above, field_below, field_whole, flag_bit, Nat.reduceSub] <;> rfl
theorem bwait (a : BitVec 6) (b : BitVec 6) (g : Bool) : Statement (.bwait a b g) := by
  refine of_op 83 (w := 83#7 ++ 0#6 ++ a ++ b ++ 0#4 ++ bit g ++ 0#2) rfl (by simp (disch := decide) only [field_above, field_below, field_whole, Nat.reduceSub]) rfl ?_
  change decOp53 _ = _
  unfold decOp53
  rw [show fld (83#7 ++ 0#6 ++ a ++ b ++ 0#4 ++ bit g ++ 0#2) 3 4 = 0#4 by simp (disch := decide) only [field_above, field_below, field_whole, Nat.reduceSub] <;> rfl]
  dsimp only [BitVec.reduceToNat]
  simp (disch := decide) only [fld, flag, field_above, field_below, field_whole, flag_bit, Nat.reduceSub] <;> rfl
theorem btest (d : BitVec 3) (a : BitVec 6) (b : BitVec 6) (g : Bool) : Statement (.btest d a b g) := by
  refine of_op 83 (w := 83#7 ++ 0#3 ++ d ++ a ++ b ++ 1#4 ++ bit g ++ 0#2) rfl (by simp (disch := decide) only [field_above, field_below, field_whole, Nat.reduceSub]) rfl ?_
  change decOp53 _ = _
  unfold decOp53
  rw [show fld (83#7 ++ 0#3 ++ d ++ a ++ b ++ 1#4 ++ bit g ++ 0#2) 3 4 = 1#4 by simp (disch := decide) only [field_above, field_below, field_whole, Nat.reduceSub] <;> rfl]
  dsimp only [BitVec.reduceToNat]
  simp (disch := decide) only [fld, flag, field_above, field_below, field_whole, flag_bit, Nat.reduceSub] <;> rfl
theorem cbara (g : Bool) : Statement (.cbara g) := by
  refine of_op 84 (w := 84#7 ++ 0#22 ++ bit g ++ 0#2) rfl (by simp (disch := decide) only [field_above, field_below, field_whole, Nat.reduceSub]) rfl ?_
  change decOp54 _ = _
  unfold decOp54
  rw [show fld (84#7 ++ 0#22 ++ bit g ++ 0#2) 3 4 = 0#4 by simp (disch := decide) only [field_above, field_below, field_whole, Nat.reduceSub] <;> rfl]
  dsimp only [BitVec.reduceToNat]
  simp (disch := decide) only [fld, flag, field_above, field_below, field_whole, flag_bit, Nat.reduceSub] <;> rfl
theorem cbarw (g : Bool) : Statement (.cbarw g) := by
  refine of_op 84 (w := 84#7 ++ 1#22 ++ bit g ++ 0#2) rfl (by simp (disch := decide) only [field_above, field_below, field_whole, Nat.reduceSub]) rfl ?_
  change decOp54 _ = _
  unfold decOp54
  rw [show fld (84#7 ++ 1#22 ++ bit g ++ 0#2) 3 4 = 1#4 by simp (disch := decide) only [field_above, field_below, field_whole, Nat.reduceSub] <;> rfl]
  dsimp only [BitVec.reduceToNat]
  simp (disch := decide) only [fld, flag, field_above, field_below, field_whole, flag_bit, Nat.reduceSub] <;> rfl
theorem cbar (g : Bool) : Statement (.cbar g) := by
  refine of_op 84 (w := 84#7 ++ 2#22 ++ bit g ++ 0#2) rfl (by simp (disch := decide) only [field_above, field_below, field_whole, Nat.reduceSub]) rfl ?_
  change decOp54 _ = _
  unfold decOp54
  rw [show fld (84#7 ++ 2#22 ++ bit g ++ 0#2) 3 4 = 2#4 by simp (disch := decide) only [field_above, field_below, field_whole, Nat.reduceSub] <;> rfl]
  dsimp only [BitVec.reduceToNat]
  simp (disch := decide) only [fld, flag, field_above, field_below, field_whole, flag_bit, Nat.reduceSub] <;> rfl
theorem wgbar (g : Bool) : Statement (.wgbar g) := by
  refine of_op 85 (w := 85#7 ++ 0#22 ++ bit g ++ 0#2) rfl (by simp (disch := decide) only [field_above, field_below, field_whole, Nat.reduceSub]) rfl ?_
  change decOp55 _ = _
  unfold decOp55
  rw [show fld (85#7 ++ 0#22 ++ bit g ++ 0#2) 3 4 = 0#4 by simp (disch := decide) only [field_above, field_below, field_whole, Nat.reduceSub] <;> rfl]
  dsimp only [BitVec.reduceToNat]
  simp (disch := decide) only [fld, flag, field_above, field_below, field_whole, flag_bit, Nat.reduceSub] <;> rfl
theorem wgbara (g : Bool) : Statement (.wgbara g) := by
  refine of_op 85 (w := 85#7 ++ 1#22 ++ bit g ++ 0#2) rfl (by simp (disch := decide) only [field_above, field_below, field_whole, Nat.reduceSub]) rfl ?_
  change decOp55 _ = _
  unfold decOp55
  rw [show fld (85#7 ++ 1#22 ++ bit g ++ 0#2) 3 4 = 1#4 by simp (disch := decide) only [field_above, field_below, field_whole, Nat.reduceSub] <;> rfl]
  dsimp only [BitVec.reduceToNat]
  simp (disch := decide) only [fld, flag, field_above, field_below, field_whole, flag_bit, Nat.reduceSub] <;> rfl
theorem wgbarw (g : Bool) : Statement (.wgbarw g) := by
  refine of_op 85 (w := 85#7 ++ 2#22 ++ bit g ++ 0#2) rfl (by simp (disch := decide) only [field_above, field_below, field_whole, Nat.reduceSub]) rfl ?_
  change decOp55 _ = _
  unfold decOp55
  rw [show fld (85#7 ++ 2#22 ++ bit g ++ 0#2) 3 4 = 2#4 by simp (disch := decide) only [field_above, field_below, field_whole, Nat.reduceSub] <;> rfl]
  dsimp only [BitVec.reduceToNat]
  simp (disch := decide) only [fld, flag, field_above, field_below, field_whole, flag_bit, Nat.reduceSub] <;> rfl
theorem txbegin (sc : BitVec 3) (fb : Bool) (off : BitVec 21) : Statement (.txbegin sc fb off) := by
  refine of_op 88 (w := 88#7 ++ sc ++ bit fb ++ off) rfl (by simp (disch := decide) only [field_above, field_below, field_whole, Nat.reduceSub]) rfl ?_
  change decOp58 _ = _
  unfold decOp58
  simp (disch := decide) only [fld, flag, field_above, field_below, field_whole, flag_bit, Nat.reduceSub] <;> rfl
theorem txend : Statement .txend := by
  refine of_op 89 (w := 89#7 ++ 0#25) rfl (by simp (disch := decide) only [field_above, field_below, field_whole, Nat.reduceSub]) rfl ?_
  change decOp59 _ = _
  unfold decOp59
  simp (disch := decide) only [fld, flag, field_above, field_below, field_whole, flag_bit, Nat.reduceSub] <;> rfl
theorem txabort (code : BitVec 4) (g : Bool) : Statement (.txabort code g) := by
  refine of_op 90 (w := 90#7 ++ 0#18 ++ code ++ bit g ++ 0#2) rfl (by simp (disch := decide) only [field_above, field_below, field_whole, Nat.reduceSub]) rfl ?_
  change decOp5A _ = _
  unfold decOp5A
  simp (disch := decide) only [fld, flag, field_above, field_below, field_whole, flag_bit, Nat.reduceSub] <;> rfl
theorem txstat (d : BitVec 6) (g : Bool) : Statement (.txstat d g) := by
  refine of_op 91 (w := 91#7 ++ d ++ 0#16 ++ bit g ++ 0#2) rfl (by simp (disch := decide) only [field_above, field_below, field_whole, Nat.reduceSub]) rfl ?_
  change decOp5B _ = _
  unfold decOp5B
  rw [show fld (91#7 ++ d ++ 0#16 ++ bit g ++ 0#2) 3 4 = 0#4 by simp (disch := decide) only [field_above, field_below, field_whole, Nat.reduceSub] <;> rfl]
  dsimp only [BitVec.reduceToNat]
  simp (disch := decide) only [fld, flag, field_above, field_below, field_whole, flag_bit, Nat.reduceSub] <;> rfl
theorem txcause (d : BitVec 6) (g : Bool) : Statement (.txcause d g) := by
  refine of_op 91 (w := 91#7 ++ d ++ 1#16 ++ bit g ++ 0#2) rfl (by simp (disch := decide) only [field_above, field_below, field_whole, Nat.reduceSub]) rfl ?_
  change decOp5B _ = _
  unfold decOp5B
  rw [show fld (91#7 ++ d ++ 1#16 ++ bit g ++ 0#2) 3 4 = 1#4 by simp (disch := decide) only [field_above, field_below, field_whole, Nat.reduceSub] <;> rfl]
  dsimp only [BitVec.reduceToNat]
  simp (disch := decide) only [fld, flag, field_above, field_below, field_whole, flag_bit, Nat.reduceSub] <;> rfl
theorem cpld (a : BitVec 6) (b : BitVec 4) (g : Bool) : Statement (.cpld a b g) := by
  refine of_op 92 (w := 92#7 ++ 0#6 ++ a ++ b ++ 0#6 ++ bit g ++ 0#2) rfl (by simp (disch := decide) only [field_above, field_below, field_whole, Nat.reduceSub]) rfl ?_
  change decOp5C _ = _
  unfold decOp5C
  rw [show fld (92#7 ++ 0#6 ++ a ++ b ++ 0#6 ++ bit g ++ 0#2) 3 4 = 0#4 by simp (disch := decide) only [field_above, field_below, field_whole, Nat.reduceSub] <;> rfl]
  dsimp only [BitVec.reduceToNat]
  simp (disch := decide) only [fld, flag, field_above, field_below, field_whole, flag_bit, Nat.reduceSub] <;> rfl
theorem cpst (a : BitVec 6) (b : BitVec 4) (g : Bool) : Statement (.cpst a b g) := by
  refine of_op 92 (w := 92#7 ++ 0#6 ++ a ++ b ++ 1#6 ++ bit g ++ 0#2) rfl (by simp (disch := decide) only [field_above, field_below, field_whole, Nat.reduceSub]) rfl ?_
  change decOp5C _ = _
  unfold decOp5C
  rw [show fld (92#7 ++ 0#6 ++ a ++ b ++ 1#6 ++ bit g ++ 0#2) 3 4 = 1#4 by simp (disch := decide) only [field_above, field_below, field_whole, Nat.reduceSub] <;> rfl]
  dsimp only [BitVec.reduceToNat]
  simp (disch := decide) only [fld, flag, field_above, field_below, field_whole, flag_bit, Nat.reduceSub] <;> rfl
theorem cpred (a : BitVec 6) (b : BitVec 4) (g : Bool) : Statement (.cpred a b g) := by
  refine of_op 92 (w := 92#7 ++ 0#6 ++ a ++ b ++ 2#6 ++ bit g ++ 0#2) rfl (by simp (disch := decide) only [field_above, field_below, field_whole, Nat.reduceSub]) rfl ?_
  change decOp5C _ = _
  unfold decOp5C
  rw [show fld (92#7 ++ 0#6 ++ a ++ b ++ 2#6 ++ bit g ++ 0#2) 3 4 = 2#4 by simp (disch := decide) only [field_above, field_below, field_whole, Nat.reduceSub] <;> rfl]
  dsimp only [BitVec.reduceToNat]
  simp (disch := decide) only [fld, flag, field_above, field_below, field_whole, flag_bit, Nat.reduceSub] <;> rfl
theorem cpg (a : BitVec 6) (b : BitVec 4) (g : Bool) : Statement (.cpg a b g) := by
  refine of_op 92 (w := 92#7 ++ 0#6 ++ a ++ b ++ 3#6 ++ bit g ++ 0#2) rfl (by simp (disch := decide) only [field_above, field_below, field_whole, Nat.reduceSub]) rfl ?_
  change decOp5C _ = _
  unfold decOp5C
  rw [show fld (92#7 ++ 0#6 ++ a ++ b ++ 3#6 ++ bit g ++ 0#2) 3 4 = 3#4 by simp (disch := decide) only [field_above, field_below, field_whole, Nat.reduceSub] <;> rfl]
  dsimp only [BitVec.reduceToNat]
  simp (disch := decide) only [fld, flag, field_above, field_below, field_whole, flag_bit, Nat.reduceSub] <;> rfl
theorem cpc (a : BitVec 6) (b : BitVec 4) (g : Bool) : Statement (.cpc a b g) := by
  refine of_op 93 (w := 93#7 ++ 0#6 ++ a ++ b ++ 0#6 ++ bit g ++ 0#2) rfl (by simp (disch := decide) only [field_above, field_below, field_whole, Nat.reduceSub]) rfl ?_
  change decOp5D _ = _
  unfold decOp5D
  simp (disch := decide) only [fld, flag, field_above, field_below, field_whole, flag_bit, Nat.reduceSub] <;> rfl
theorem cpw (a : BitVec 6) (b : BitVec 4) (g : Bool) : Statement (.cpw a b g) := by
  refine of_op 94 (w := 94#7 ++ 0#6 ++ a ++ b ++ 0#6 ++ bit g ++ 0#2) rfl (by simp (disch := decide) only [field_above, field_below, field_whole, Nat.reduceSub]) rfl ?_
  change decOp5E _ = _
  unfold decOp5E
  simp (disch := decide) only [fld, flag, field_above, field_below, field_whole, flag_bit, Nat.reduceSub] <;> rfl
theorem cpq (d : BitVec 6) (a : BitVec 6) (g : Bool) : Statement (.cpq d a g) := by
  refine of_op 95 (w := 95#7 ++ d ++ a ++ 0#10 ++ bit g ++ 0#2) rfl (by simp (disch := decide) only [field_above, field_below, field_whole, Nat.reduceSub]) rfl ?_
  change decOp5F _ = _
  unfold decOp5F
  rw [show fld (95#7 ++ d ++ a ++ 0#10 ++ bit g ++ 0#2) 3 4 = 0#4 by simp (disch := decide) only [field_above, field_below, field_whole, Nat.reduceSub] <;> rfl]
  dsimp only [BitVec.reduceToNat]
  simp (disch := decide) only [fld, flag, field_above, field_below, field_whole, flag_bit, Nat.reduceSub] <;> rfl
theorem cpcan (a : BitVec 6) (g : Bool) : Statement (.cpcan a g) := by
  refine of_op 95 (w := 95#7 ++ 0#6 ++ a ++ 1#10 ++ bit g ++ 0#2) rfl (by simp (disch := decide) only [field_above, field_below, field_whole, Nat.reduceSub]) rfl ?_
  change decOp5F _ = _
  unfold decOp5F
  rw [show fld (95#7 ++ 0#6 ++ a ++ 1#10 ++ bit g ++ 0#2) 3 4 = 1#4 by simp (disch := decide) only [field_above, field_below, field_whole, Nat.reduceSub] <;> rfl]
  dsimp only [BitVec.reduceToNat]
  simp (disch := decide) only [fld, flag, field_above, field_below, field_whole, flag_bit, Nat.reduceSub] <;> rfl
theorem tcfg (d : BitVec 3) (a : BitVec 6) (g : Bool) : Statement (.tcfg d a g) := by
  refine of_op 96 (w := 96#7 ++ 0#3 ++ d ++ a ++ 0#10 ++ bit g ++ 0#2) rfl (by simp (disch := decide) only [field_above, field_below, field_whole, Nat.reduceSub]) rfl ?_
  change decOp60 _ = _
  unfold decOp60
  simp (disch := decide) only [fld, flag, field_above, field_below, field_whole, flag_bit, Nat.reduceSub] <;> rfl
theorem tld (d : BitVec 3) (a : BitVec 6) (b : BitVec 6) (g : Bool) : Statement (.tld d a b g) := by
  refine of_op 97 (w := 97#7 ++ 0#3 ++ d ++ a ++ b ++ 0#4 ++ bit g ++ 0#2) rfl (by simp (disch := decide) only [field_above, field_below, field_whole, Nat.reduceSub]) rfl ?_
  change decOp61 _ = _
  unfold decOp61
  simp (disch := decide) only [fld, flag, field_above, field_below, field_whole, flag_bit, Nat.reduceSub] <;> rfl
theorem tst (d : BitVec 3) (a : BitVec 6) (b : BitVec 6) (g : Bool) : Statement (.tst d a b g) := by
  refine of_op 98 (w := 98#7 ++ 0#3 ++ d ++ a ++ b ++ 0#4 ++ bit g ++ 0#2) rfl (by simp (disch := decide) only [field_above, field_below, field_whole, Nat.reduceSub]) rfl ?_
  change decOp62 _ = _
  unfold decOp62
  simp (disch := decide) only [fld, flag, field_above, field_below, field_whole, flag_bit, Nat.reduceSub] <;> rfl
theorem tzero (d : BitVec 3) (g : Bool) : Statement (.tzero d g) := by
  refine of_op 99 (w := 99#7 ++ 0#3 ++ d ++ 0#16 ++ bit g ++ 0#2) rfl (by simp (disch := decide) only [field_above, field_below, field_whole, Nat.reduceSub]) rfl ?_
  change decOp63 _ = _
  unfold decOp63
  rw [show fld (99#7 ++ 0#3 ++ d ++ 0#16 ++ bit g ++ 0#2) 3 4 = 0#4 by simp (disch := decide) only [field_above, field_below, field_whole, Nat.reduceSub] <;> rfl]
  dsimp only [BitVec.reduceToNat]
  simp (disch := decide) only [fld, flag, field_above, field_below, field_whole, flag_bit, Nat.reduceSub] <;> rfl
theorem azero (d : BitVec 2) (g : Bool) : Statement (.azero d g) := by
  refine of_op 99 (w := 99#7 ++ 0#4 ++ d ++ 1#16 ++ bit g ++ 0#2) rfl (by simp (disch := decide) only [field_above, field_below, field_whole, Nat.reduceSub]) rfl ?_
  change decOp63 _ = _
  unfold decOp63
  rw [show fld (99#7 ++ 0#4 ++ d ++ 1#16 ++ bit g ++ 0#2) 3 4 = 1#4 by simp (disch := decide) only [field_above, field_below, field_whole, Nat.reduceSub] <;> rfl]
  dsimp only [BitVec.reduceToNat]
  simp (disch := decide) only [fld, flag, field_above, field_below, field_whole, flag_bit, Nat.reduceSub] <;> rfl
theorem mma (d : BitVec 2) (a : BitVec 3) (b : BitVec 3) (g : Bool) : Statement (.mma d a b g) := by
  refine of_op 100 (w := 100#7 ++ 0#4 ++ d ++ 0#3 ++ a ++ 0#3 ++ b ++ 0#4 ++ bit g ++ 0#2) rfl (by simp (disch := decide) only [field_above, field_below, field_whole, Nat.reduceSub]) rfl ?_
  change decOp64 _ = _
  unfold decOp64
  simp (disch := decide) only [fld, flag, field_above, field_below, field_whole, flag_bit, Nat.reduceSub] <;> rfl
theorem mmap (d : BitVec 2) (a : BitVec 3) (b : BitVec 3) (g : Bool) : Statement (.mmap d a b g) := by
  refine of_op 101 (w := 101#7 ++ 0#4 ++ d ++ 0#3 ++ a ++ 0#3 ++ b ++ 0#4 ++ bit g ++ 0#2) rfl (by simp (disch := decide) only [field_above, field_below, field_whole, Nat.reduceSub]) rfl ?_
  change decOp65 _ = _
  unfold decOp65
  rw [show fld (101#7 ++ 0#4 ++ d ++ 0#3 ++ a ++ 0#3 ++ b ++ 0#4 ++ bit g ++ 0#2) 3 4 = 0#4 by simp (disch := decide) only [field_above, field_below, field_whole, Nat.reduceSub] <;> rfl]
  dsimp only [BitVec.reduceToNat]
  simp (disch := decide) only [fld, flag, field_above, field_below, field_whole, flag_bit, Nat.reduceSub] <;> rfl
theorem mmapF (d : BitVec 2) (a : BitVec 3) (b : BitVec 3) (g : Bool) : Statement (.mmapF d a b g) := by
  refine of_op 101 (w := 101#7 ++ 0#4 ++ d ++ 0#3 ++ a ++ 0#3 ++ b ++ 1#4 ++ bit g ++ 0#2) rfl (by simp (disch := decide) only [field_above, field_below, field_whole, Nat.reduceSub]) rfl ?_
  change decOp65 _ = _
  unfold decOp65
  rw [show fld (101#7 ++ 0#4 ++ d ++ 0#3 ++ a ++ 0#3 ++ b ++ 1#4 ++ bit g ++ 0#2) 3 4 = 1#4 by simp (disch := decide) only [field_above, field_below, field_whole, Nat.reduceSub] <;> rfl]
  dsimp only [BitVec.reduceToNat]
  simp (disch := decide) only [fld, flag, field_above, field_below, field_whole, flag_bit, Nat.reduceSub] <;> rfl
theorem mmag (d : BitVec 2) (a : BitVec 3) (b : BitVec 6) (g : Bool) : Statement (.mmag d a b g) := by
  refine of_op 102 (w := 102#7 ++ 0#4 ++ d ++ 0#3 ++ a ++ b ++ 0#4 ++ bit g ++ 0#2) rfl (by simp (disch := decide) only [field_above, field_below, field_whole, Nat.reduceSub]) rfl ?_
  change decOp66 _ = _
  unfold decOp66
  simp (disch := decide) only [fld, flag, field_above, field_below, field_whole, flag_bit, Nat.reduceSub] <;> rfl
theorem tmovv (d : BitVec 6) (a : BitVec 2) (b : BitVec 6) (g : Bool) : Statement (.tmovv d a b g) := by
  refine of_op 103 (w := 103#7 ++ d ++ 0#4 ++ a ++ b ++ 0#4 ++ bit g ++ 0#2) rfl (by simp (disch := decide) only [field_above, field_below, field_whole, Nat.reduceSub]) rfl ?_
  change decOp67 _ = _
  unfold decOp67
  simp (disch := decide) only [fld, flag, field_above, field_below, field_whole, flag_bit, Nat.reduceSub] <;> rfl
theorem tcvt (d : BitVec 3) (a : BitVec 2) (g : Bool) : Statement (.tcvt d a g) := by
  refine of_op 104 (w := 104#7 ++ 0#3 ++ d ++ 0#4 ++ a ++ 0#10 ++ bit g ++ 0#2) rfl (by simp (disch := decide) only [field_above, field_below, field_whole, Nat.reduceSub]) rfl ?_
  change decOp68 _ = _
  unfold decOp68
  simp (disch := decide) only [fld, flag, field_above, field_below, field_whole, flag_bit, Nat.reduceSub] <;> rfl
theorem tlds (d : BitVec 3) (a : BitVec 6) (b : BitVec 6) (g : Bool) : Statement (.tlds d a b g) := by
  refine of_op 105 (w := 105#7 ++ 0#3 ++ d ++ a ++ b ++ 0#4 ++ bit g ++ 0#2) rfl (by simp (disch := decide) only [field_above, field_below, field_whole, Nat.reduceSub]) rfl ?_
  change decOp69 _ = _
  unfold decOp69
  simp (disch := decide) only [fld, flag, field_above, field_below, field_whole, flag_bit, Nat.reduceSub] <;> rfl
theorem msemitv (a : BitVec 6) (b : BitVec 6) (g : Bool) : Statement (.msemitv a b g) := by
  refine of_op 108 (w := 108#7 ++ 0#6 ++ a ++ b ++ 0#4 ++ bit g ++ 0#2) rfl (by simp (disch := decide) only [field_above, field_below, field_whole, Nat.reduceSub]) rfl ?_
  change decOp6C _ = _
  unfold decOp6C
  rw [show fld (108#7 ++ 0#6 ++ a ++ b ++ 0#4 ++ bit g ++ 0#2) 3 4 = 0#4 by simp (disch := decide) only [field_above, field_below, field_whole, Nat.reduceSub] <;> rfl]
  dsimp only [BitVec.reduceToNat]
  simp (disch := decide) only [fld, flag, field_above, field_below, field_whole, flag_bit, Nat.reduceSub] <;> rfl
theorem msemitp (a : BitVec 6) (b : BitVec 6) (g : Bool) : Statement (.msemitp a b g) := by
  refine of_op 108 (w := 108#7 ++ 0#6 ++ a ++ b ++ 1#4 ++ bit g ++ 0#2) rfl (by simp (disch := decide) only [field_above, field_below, field_whole, Nat.reduceSub]) rfl ?_
  change decOp6C _ = _
  unfold decOp6C
  rw [show fld (108#7 ++ 0#6 ++ a ++ b ++ 1#4 ++ bit g ++ 0#2) 3 4 = 1#4 by simp (disch := decide) only [field_above, field_below, field_whole, Nat.reduceSub] <;> rfl]
  dsimp only [BitVec.reduceToNat]
  simp (disch := decide) only [fld, flag, field_above, field_below, field_whole, flag_bit, Nat.reduceSub] <;> rfl
theorem vamp (a : BitVec 6) (g : Bool) : Statement (.vamp a g) := by
  refine of_op 109 (w := 109#7 ++ 0#6 ++ a ++ 0#10 ++ bit g ++ 0#2) rfl (by simp (disch := decide) only [field_above, field_below, field_whole, Nat.reduceSub]) rfl ?_
  change decOp6D _ = _
  unfold decOp6D
  simp (disch := decide) only [fld, flag, field_above, field_below, field_whole, flag_bit, Nat.reduceSub] <;> rfl
theorem gaze (d : BitVec 6) (a : BitVec 6) (g : Bool) : Statement (.gaze d a g) := by
  refine of_op 110 (w := 110#7 ++ d ++ a ++ 0#10 ++ bit g ++ 0#2) rfl (by simp (disch := decide) only [field_above, field_below, field_whole, Nat.reduceSub]) rfl ?_
  change decOp6E _ = _
  unfold decOp6E
  simp (disch := decide) only [fld, flag, field_above, field_below, field_whole, flag_bit, Nat.reduceSub] <;> rfl
theorem rtfetch (d : BitVec 6) (a : BitVec 6) (g : Bool) : Statement (.rtfetch d a g) := by
  refine of_op 111 (w := 111#7 ++ d ++ a ++ 0#10 ++ bit g ++ 0#2) rfl (by simp (disch := decide) only [field_above, field_below, field_whole, Nat.reduceSub]) rfl ?_
  change decOp6F _ = _
  unfold decOp6F
  simp (disch := decide) only [fld, flag, field_above, field_below, field_whole, flag_bit, Nat.reduceSub] <;> rfl
theorem tex (d : BitVec 6) (a : BitVec 6) (b : BitVec 6) (g : Bool) : Statement (.tex d a b g) := by
  refine of_op 112 (w := 112#7 ++ d ++ a ++ b ++ 0#4 ++ bit g ++ 0#2) rfl (by simp (disch := decide) only [field_above, field_below, field_whole, Nat.reduceSub]) rfl ?_
  change decOp70 _ = _
  unfold decOp70
  rw [show fld (112#7 ++ d ++ a ++ b ++ 0#4 ++ bit g ++ 0#2) 3 4 = 0#4 by simp (disch := decide) only [field_above, field_below, field_whole, Nat.reduceSub] <;> rfl]
  dsimp only [BitVec.reduceToNat]
  simp (disch := decide) only [fld, flag, field_above, field_below, field_whole, flag_bit, Nat.reduceSub] <;> rfl
theorem texl (d : BitVec 6) (a : BitVec 6) (b : BitVec 6) (g : Bool) : Statement (.texl d a b g) := by
  refine of_op 112 (w := 112#7 ++ d ++ a ++ b ++ 1#4 ++ bit g ++ 0#2) rfl (by simp (disch := decide) only [field_above, field_below, field_whole, Nat.reduceSub]) rfl ?_
  change decOp70 _ = _
  unfold decOp70
  rw [show fld (112#7 ++ d ++ a ++ b ++ 1#4 ++ bit g ++ 0#2) 3 4 = 1#4 by simp (disch := decide) only [field_above, field_below, field_whole, Nat.reduceSub] <;> rfl]
  dsimp only [BitVec.reduceToNat]
  simp (disch := decide) only [fld, flag, field_above, field_below, field_whole, flag_bit, Nat.reduceSub] <;> rfl
theorem texg (d : BitVec 6) (a : BitVec 6) (b : BitVec 6) (g : Bool) : Statement (.texg d a b g) := by
  refine of_op 112 (w := 112#7 ++ d ++ a ++ b ++ 2#4 ++ bit g ++ 0#2) rfl (by simp (disch := decide) only [field_above, field_below, field_whole, Nat.reduceSub]) rfl ?_
  change decOp70 _ = _
  unfold decOp70
  rw [show fld (112#7 ++ d ++ a ++ b ++ 2#4 ++ bit g ++ 0#2) 3 4 = 2#4 by simp (disch := decide) only [field_above, field_below, field_whole, Nat.reduceSub] <;> rfl]
  dsimp only [BitVec.reduceToNat]
  simp (disch := decide) only [fld, flag, field_above, field_below, field_whole, flag_bit, Nat.reduceSub] <;> rfl
theorem texf (d : BitVec 6) (a : BitVec 6) (b : BitVec 6) (g : Bool) : Statement (.texf d a b g) := by
  refine of_op 112 (w := 112#7 ++ d ++ a ++ b ++ 3#4 ++ bit g ++ 0#2) rfl (by simp (disch := decide) only [field_above, field_below, field_whole, Nat.reduceSub]) rfl ?_
  change decOp70 _ = _
  unfold decOp70
  rw [show fld (112#7 ++ d ++ a ++ b ++ 3#4 ++ bit g ++ 0#2) 3 4 = 3#4 by simp (disch := decide) only [field_above, field_below, field_whole, Nat.reduceSub] <;> rfl]
  dsimp only [BitVec.reduceToNat]
  simp (disch := decide) only [fld, flag, field_above, field_below, field_whole, flag_bit, Nat.reduceSub] <;> rfl
theorem texq (d : BitVec 6) (a : BitVec 6) (b : BitVec 6) (g : Bool) : Statement (.texq d a b g) := by
  refine of_op 112 (w := 112#7 ++ d ++ a ++ b ++ 4#4 ++ bit g ++ 0#2) rfl (by simp (disch := decide) only [field_above, field_below, field_whole, Nat.reduceSub]) rfl ?_
  change decOp70 _ = _
  unfold decOp70
  rw [show fld (112#7 ++ d ++ a ++ b ++ 4#4 ++ bit g ++ 0#2) 3 4 = 4#4 by simp (disch := decide) only [field_above, field_below, field_whole, Nat.reduceSub] <;> rfl]
  dsimp only [BitVec.reduceToNat]
  simp (disch := decide) only [fld, flag, field_above, field_below, field_whole, flag_bit, Nat.reduceSub] <;> rfl
theorem rayl (d : BitVec 6) (a : BitVec 6) (b : BitVec 6) (g : Bool) : Statement (.rayl d a b g) := by
  refine of_op 113 (w := 113#7 ++ d ++ a ++ b ++ 0#4 ++ bit g ++ 0#2) rfl (by simp (disch := decide) only [field_above, field_below, field_whole, Nat.reduceSub]) rfl ?_
  change decOp71 _ = _
  unfold decOp71
  rw [show fld (113#7 ++ d ++ a ++ b ++ 0#4 ++ bit g ++ 0#2) 3 4 = 0#4 by simp (disch := decide) only [field_above, field_below, field_whole, Nat.reduceSub] <;> rfl]
  dsimp only [BitVec.reduceToNat]
  simp (disch := decide) only [fld, flag, field_above, field_below, field_whole, flag_bit, Nat.reduceSub] <;> rfl
theorem raylw (d : BitVec 6) (a : BitVec 6) (b : BitVec 6) (g : Bool) : Statement (.raylw d a b g) := by
  refine of_op 113 (w := 113#7 ++ d ++ a ++ b ++ 1#4 ++ bit g ++ 0#2) rfl (by simp (disch := decide) only [field_above, field_below, field_whole, Nat.reduceSub]) rfl ?_
  change decOp71 _ = _
  unfold decOp71
  rw [show fld (113#7 ++ d ++ a ++ b ++ 1#4 ++ bit g ++ 0#2) 3 4 = 1#4 by simp (disch := decide) only [field_above, field_below, field_whole, Nat.reduceSub] <;> rfl]
  dsimp only [BitVec.reduceToNat]
  simp (disch := decide) only [fld, flag, field_above, field_below, field_whole, flag_bit, Nat.reduceSub] <;> rfl
theorem rayr (d : BitVec 6) (a : BitVec 6) (g : Bool) : Statement (.rayr d a g) := by
  refine of_op 114 (w := 114#7 ++ d ++ a ++ 0#10 ++ bit g ++ 0#2) rfl (by simp (disch := decide) only [field_above, field_below, field_whole, Nat.reduceSub]) rfl ?_
  change decOp72 _ = _
  unfold decOp72
  simp (disch := decide) only [fld, flag, field_above, field_below, field_whole, flag_bit, Nat.reduceSub] <;> rfl
theorem vtdone (d : BitVec 6) (a : BitVec 6) (g : Bool) : Statement (.vtdone d a g) := by
  refine of_op 115 (w := 115#7 ++ d ++ a ++ 0#10 ++ bit g ++ 0#2) rfl (by simp (disch := decide) only [field_above, field_below, field_whole, Nat.reduceSub]) rfl ?_
  change decOp73 _ = _
  unfold decOp73
  simp (disch := decide) only [fld, flag, field_above, field_below, field_whole, flag_bit, Nat.reduceSub] <;> rfl
theorem csrr (d : BitVec 6) (csr : BitVec 12) : Statement (.csrr d csr) := by
  refine of_op 118 (w := 118#7 ++ d ++ 0#7 ++ csr) rfl (by simp (disch := decide) only [field_above, field_below, field_whole, Nat.reduceSub]) rfl ?_
  change decOp76 _ = _
  unfold decOp76
  rw [show fld (118#7 ++ d ++ 0#7 ++ csr) 16 3 = 0#3 by simp (disch := decide) only [field_above, field_below, field_whole, Nat.reduceSub] <;> rfl]
  dsimp only [BitVec.reduceToNat]
  simp (disch := decide) only [fld, flag, field_above, field_below, field_whole, flag_bit, Nat.reduceSub] <;> rfl
theorem csrw (d : BitVec 6) (csr : BitVec 12) : Statement (.csrw d csr) := by
  refine of_op 118 (w := 118#7 ++ d ++ 16#7 ++ csr) rfl (by simp (disch := decide) only [field_above, field_below, field_whole, Nat.reduceSub]) rfl ?_
  change decOp76 _ = _
  unfold decOp76
  rw [show fld (118#7 ++ d ++ 16#7 ++ csr) 16 3 = 1#3 by simp (disch := decide) only [field_above, field_below, field_whole, Nat.reduceSub] <;> rfl]
  dsimp only [BitVec.reduceToNat]
  simp (disch := decide) only [fld, flag, field_above, field_below, field_whole, flag_bit, Nat.reduceSub] <;> rfl
theorem csrs (d : BitVec 6) (csr : BitVec 12) : Statement (.csrs d csr) := by
  refine of_op 118 (w := 118#7 ++ d ++ 32#7 ++ csr) rfl (by simp (disch := decide) only [field_above, field_below, field_whole, Nat.reduceSub]) rfl ?_
  change decOp76 _ = _
  unfold decOp76
  rw [show fld (118#7 ++ d ++ 32#7 ++ csr) 16 3 = 2#3 by simp (disch := decide) only [field_above, field_below, field_whole, Nat.reduceSub] <;> rfl]
  dsimp only [BitVec.reduceToNat]
  simp (disch := decide) only [fld, flag, field_above, field_below, field_whole, flag_bit, Nat.reduceSub] <;> rfl
theorem csrc (d : BitVec 6) (csr : BitVec 12) : Statement (.csrc d csr) := by
  refine of_op 118 (w := 118#7 ++ d ++ 48#7 ++ csr) rfl (by simp (disch := decide) only [field_above, field_below, field_whole, Nat.reduceSub]) rfl ?_
  change decOp76 _ = _
  unfold decOp76
  rw [show fld (118#7 ++ d ++ 48#7 ++ csr) 16 3 = 3#3 by simp (disch := decide) only [field_above, field_below, field_whole, Nat.reduceSub] <;> rfl]
  dsimp only [BitVec.reduceToNat]
  simp (disch := decide) only [fld, flag, field_above, field_below, field_whole, flag_bit, Nat.reduceSub] <;> rfl
theorem trap (imm : BitVec 16) : Statement (.trap imm) := by
  refine of_op 119 (w := 119#7 ++ 0#9 ++ imm) rfl (by simp (disch := decide) only [field_above, field_below, field_whole, Nat.reduceSub]) rfl ?_
  change decOp77 _ = _
  unfold decOp77
  rw [show fld (119#7 ++ 0#9 ++ imm) 16 3 = 0#3 by simp (disch := decide) only [field_above, field_below, field_whole, Nat.reduceSub] <;> rfl]
  dsimp only [BitVec.reduceToNat]
  simp (disch := decide) only [fld, flag, field_above, field_below, field_whole, flag_bit, Nat.reduceSub] <;> rfl
theorem brk (imm : BitVec 16) : Statement (.brk imm) := by
  refine of_op 119 (w := 119#7 ++ 1#9 ++ imm) rfl (by simp (disch := decide) only [field_above, field_below, field_whole, Nat.reduceSub]) rfl ?_
  change decOp77 _ = _
  unfold decOp77
  rw [show fld (119#7 ++ 1#9 ++ imm) 16 3 = 1#3 by simp (disch := decide) only [field_above, field_below, field_whole, Nat.reduceSub] <;> rfl]
  dsimp only [BitVec.reduceToNat]
  simp (disch := decide) only [fld, flag, field_above, field_below, field_whole, flag_bit, Nat.reduceSub] <;> rfl
theorem rett : Statement .rett := by
  refine of_op 120 (w := 120#7 ++ 0#25) rfl (by simp (disch := decide) only [field_above, field_below, field_whole, Nat.reduceSub]) rfl ?_
  change decOp78 _ = _
  unfold decOp78
  simp (disch := decide) only [fld, flag, field_above, field_below, field_whole, flag_bit, Nat.reduceSub] <;> rfl
theorem yield (g : Bool) : Statement (.yield g) := by
  refine of_op 121 (w := 121#7 ++ 0#22 ++ bit g ++ 0#2) rfl (by simp (disch := decide) only [field_above, field_below, field_whole, Nat.reduceSub]) rfl ?_
  change decOp79 _ = _
  unfold decOp79
  rw [show fld (121#7 ++ 0#22 ++ bit g ++ 0#2) 3 4 = 0#4 by simp (disch := decide) only [field_above, field_below, field_whole, Nat.reduceSub] <;> rfl]
  dsimp only [BitVec.reduceToNat]
  simp (disch := decide) only [fld, flag, field_above, field_below, field_whole, flag_bit, Nat.reduceSub] <;> rfl
theorem sleep (a : BitVec 6) (g : Bool) : Statement (.sleep a g) := by
  refine of_op 121 (w := 121#7 ++ 0#6 ++ a ++ 1#10 ++ bit g ++ 0#2) rfl (by simp (disch := decide) only [field_above, field_below, field_whole, Nat.reduceSub]) rfl ?_
  change decOp79 _ = _
  unfold decOp79
  rw [show fld (121#7 ++ 0#6 ++ a ++ 1#10 ++ bit g ++ 0#2) 3 4 = 1#4 by simp (disch := decide) only [field_above, field_below, field_whole, Nat.reduceSub] <;> rfl]
  dsimp only [BitVec.reduceToNat]
  simp (disch := decide) only [fld, flag, field_above, field_below, field_whole, flag_bit, Nat.reduceSub] <;> rfl
theorem wake (a : BitVec 6) (g : Bool) : Statement (.wake a g) := by
  refine of_op 121 (w := 121#7 ++ 0#6 ++ a ++ 2#10 ++ bit g ++ 0#2) rfl (by simp (disch := decide) only [field_above, field_below, field_whole, Nat.reduceSub]) rfl ?_
  change decOp79 _ = _
  unfold decOp79
  rw [show fld (121#7 ++ 0#6 ++ a ++ 2#10 ++ bit g ++ 0#2) 3 4 = 2#4 by simp (disch := decide) only [field_above, field_below, field_whole, Nat.reduceSub] <;> rfl]
  dsimp only [BitVec.reduceToNat]
  simp (disch := decide) only [fld, flag, field_above, field_below, field_whole, flag_bit, Nat.reduceSub] <;> rfl
theorem dlaunch (d : BitVec 6) (a : BitVec 6) (b : BitVec 6) (g : Bool) : Statement (.dlaunch d a b g) := by
  refine of_op 122 (w := 122#7 ++ d ++ a ++ b ++ 0#4 ++ bit g ++ 0#2) rfl (by simp (disch := decide) only [field_above, field_below, field_whole, Nat.reduceSub]) rfl ?_
  change decOp7A _ = _
  unfold decOp7A
  simp (disch := decide) only [fld, flag, field_above, field_below, field_whole, flag_bit, Nat.reduceSub] <;> rfl
theorem djoin (d : BitVec 6) (a : BitVec 6) (g : Bool) : Statement (.djoin d a g) := by
  refine of_op 123 (w := 123#7 ++ d ++ a ++ 0#10 ++ bit g ++ 0#2) rfl (by simp (disch := decide) only [field_above, field_below, field_whole, Nat.reduceSub]) rfl ?_
  change decOp7B _ = _
  unfold decOp7B
  simp (disch := decide) only [fld, flag, field_above, field_below, field_whole, flag_bit, Nat.reduceSub] <;> rfl
theorem pmark (imm : BitVec 16) : Statement (.pmark imm) := by
  refine of_op 124 (w := 124#7 ++ 0#9 ++ imm) rfl (by simp (disch := decide) only [field_above, field_below, field_whole, Nat.reduceSub]) rfl ?_
  change decOp7C _ = _
  unfold decOp7C
  simp (disch := decide) only [fld, flag, field_above, field_below, field_whole, flag_bit, Nat.reduceSub] <;> rfl
theorem framesync : Statement .framesync := by
  refine of_op 125 (w := 125#7 ++ 0#25) rfl (by simp (disch := decide) only [field_above, field_below, field_whole, Nat.reduceSub]) rfl ?_
  change decOp7D _ = _
  unfold decOp7D
  simp (disch := decide) only [fld, flag, field_above, field_below, field_whole, flag_bit, Nat.reduceSub] <;> rfl
theorem trapEntry (wid : Nat) : Statement (.trapEntry wid) := nofun
theorem fseSpill (wid blk : Nat) : Statement (.fseSpill wid blk) := nofun
theorem fseFill (wid blk : Nat) : Statement (.fseFill wid blk) := nofun
theorem ageingSwap (wid : Nat) : Statement (.ageingSwap wid) := nofun
theorem ageRelease (wid : Nat) (slotB : Bool) : Statement (.ageRelease wid slotB) := nofun
theorem parkedAgeSwap (wid : Nat) : Statement (.parkedAgeSwap wid) := nofun
theorem sleepTimeout (wid : Nat) : Statement (.sleepTimeout wid) := nofun
theorem memoryOpComplete (wid seq : Nat) (lanes : BitVec 32) : Statement (.memoryOpComplete wid seq lanes) := nofun
theorem mxaOperation (core : Nat) : Statement (.mxaOperation core) := nofun
theorem copyRow (copy : Nat) : Statement (.copyRow copy) := nofun
theorem rangeLockRelease (copy : Nat) : Statement (.rangeLockRelease copy) := nofun
theorem tabardGrant (dom : Nat) : Statement (.tabardGrant dom) := nofun
theorem vamPrimitive (cluster : Nat) : Statement (.vamPrimitive cluster) := nofun
theorem wrsTileFinished (cluster : Nat) : Statement (.wrsTileFinished cluster) := nofun
theorem rayTraversalComplete (wid batch : Nat) : Statement (.rayTraversalComplete wid batch) := nofun
theorem stripWindowOpen (out : Nat) : Statement (.stripWindowOpen out) := nofun
theorem stripDeadline (out : Nat) : Statement (.stripDeadline out) := nofun
theorem stripOutput (out : Nat) : Statement (.stripOutput out) := nofun
theorem displayLineStart (out : Nat) : Statement (.displayLineStart out) := nofun
theorem dpHotPlug (out : Nat) (attached : Bool) : Statement (.dpHotPlug out attached) := nofun
theorem viewEnable (view : Nat) (value : BitVec 64) : Statement (.viewEnable view value) := nofun
theorem viewDisable (view : Nat) (value : BitVec 64) : Statement (.viewDisable view value) := nofun
theorem outputEnable (out : Nat) (value : BitVec 64) : Statement (.outputEnable out value) := nofun
theorem outputDisable (out : Nat) (value : BitVec 64) : Statement (.outputDisable out value) := nofun
theorem sampleTick (cluster : Nat) : Statement (.sampleTick cluster) := nofun
theorem trigstatArm (cluster : Nat) (value : BitVec 64) : Statement (.trigstatArm cluster value) := nofun
theorem register (ctx : BitVec 24) : Statement (.register ctx) := nofun
theorem unregister (ctx : BitVec 24) : Statement (.unregister ctx) := nofun
theorem tlbinv (ctx : BitVec 24) : Statement (.tlbinv ctx) := nofun
theorem replay (ctx : BitVec 24) : Statement (.replay ctx) := nofun
theorem preempt (ctx : BitVec 24) : Statement (.preempt ctx) := nofun
theorem resume (ctx : BitVec 24) : Statement (.resume ctx) := nofun
theorem kill (ctx : BitVec 24) : Statement (.kill ctx) := nofun
theorem gstart (ctx : BitVec 24) : Statement (.gstart ctx) := nofun
theorem preemptionStop (core : Nat) (ctx : BitVec 24) : Statement (.preemptionStop core ctx) := nofun
theorem contextImageWrite (ctx : BitVec 24) : Statement (.contextImageWrite ctx) := nofun
theorem qtailWrite (queue : Nat) (tail : BitVec 64) : Statement (.qtailWrite queue tail) := nofun
theorem dbpstatHaltClear (die : Nat) : Statement (.dbpstatHaltClear die) := nofun
theorem registerWrite (off : Nat) (value : BitVec 64) : Statement (.registerWrite off value) := nofun
theorem dispatchStep (die : Nat) (cores : List Nat) : Statement (.dispatchStep die cores) := nofun
theorem headReadinessCheck (die queue : Nat) : Statement (.headReadinessCheck die queue) := nofun
theorem doneSigIncrement (kernel : Nat) : Statement (.doneSigIncrement kernel) := nofun
theorem faultBatchFull (die : Nat) (ctx : BitVec 24) : Statement (.faultBatchFull die ctx) := nofun
theorem faultBatchTimeout (die : Nat) (ctx : BitVec 24) : Statement (.faultBatchTimeout die ctx) := nofun
theorem heldRecordWrite (ctx : BitVec 24) (ring : Nat) : Statement (.heldRecordWrite ctx ring) := nofun
theorem gangAccept (ctx : BitVec 24) : Statement (.gangAccept ctx) := nofun
theorem gangTimeout (ctx : BitVec 24) : Statement (.gangTimeout ctx) := nofun
theorem gangAbort (gang : BitVec 16) : Statement (.gangAbort gang) := nofun
theorem fabricAccess (gang : BitVec 16) (op : FabricOp) (pa size : Nat) (x : BitVec 64) : Statement (.fabricAccess gang op pa size x) := nofun
theorem lasiaPortFail (port : Nat) : Statement (.lasiaPortFail port) := nofun
theorem hostMemoryAccess (write : Bool) (pa size : Nat) (value : BitVec 64) : Statement (.hostMemoryAccess write pa size value) := nofun
theorem correctedError (cluster : Nat) : Statement (.correctedError cluster) := nofun
theorem uncorrectableError (cluster : Nat) (place : Nat) (fetch : Bool) : Statement (.uncorrectableError cluster place fetch) := nofun
theorem expanderFailure (port : Nat) : Statement (.expanderFailure port) := nofun
theorem mcLoopTick (thermal : BitVec 32) (current slew : Bool) (power : Nat) (reliability : BitVec 32) : Statement (.mcLoopTick thermal current slew power reliability) := nofun
theorem yarrowReading (delays : List Nat) (reading : Reading) : Statement (.yarrowReading delays reading) := nofun
theorem deviceReset (failed : BitVec 128) (expanders : List Nat) : Statement (.deviceReset failed expanders) := nofun
theorem firmwareRecovery (image : Recovery) : Statement (.firmwareRecovery image) := nofun
theorem getVersion : Statement .getVersion := nofun
theorem getCapabilities : Statement .getCapabilities := nofun
theorem negotiateAlgorithms : Statement .negotiateAlgorithms := nofun
theorem getDigests : Statement .getDigests := nofun
theorem getCertificate (slot : Nat) : Statement (.getCertificate slot) := nofun
theorem challenge (nonce : BitVec 256) : Statement (.challenge nonce) := nofun
theorem getMeasurements (index : Nat) : Statement (.getMeasurements index) := nofun
theorem triggerCycleReached (cluster : Nat) : Statement (.triggerCycleReached cluster) := nofun
theorem linkTrainingDone (out : Nat) (up : Bool) : Statement (.linkTrainingDone out up) := nofun
theorem lasiaPortTrained (port : Nat) : Statement (.lasiaPortTrained port) := nofun
theorem cmdUnknownCode (value : BitVec 64) : Statement (.cmdUnknownCode value) := nofun

end Sys2Proof.Laws.RoundTrip
end

