-- ==== Sys2Proof/Laws/Decode.lean ====
section
/-! SUPPORT. Decoding of bytes: from what the decoder reads of an instruction's words to what it reads of its bytes. -/

namespace Sys2Proof.Laws

/-- The four bytes of a word, put together, are the word. -/
theorem word_of_bytes (w : W32) : wordOfBytes (fld w 0 8) (fld w 8 8) (fld w 16 8) (fld w 24 8) = w := by
  apply BitVec.eq_of_getLsbD_eq
  intro i hi
  simp only [wordOfBytes, BitVec.getLsbD_append, BitVec.getLsbD_extractLsb']
  repeat' split
  all_goals (rw [decide_eq_true (by omega), Bool.true_and]; congr 1; omega)

/-- The decoder reads well-formed words back. -/
theorem decodeWords_ok {w l : W32} {i : Instr} (h : decodeRaw w l = .ok i) (hw : i.WF) : decodeWords w l = .ok i := by
  have hc : i.check = none := hw
  simp only [decodeWords, h, hc]

/-- From the words of an instruction to its bytes. -/
theorem decode_bytes {i : Instr} (h : RoundTrip.Statement i) (hi : i.isEvent = false) (hw : i.WF) (rest : List Byte) :
    decode (encodeBytes i ++ rest) = .ok (i, rest) := by
  obtain ⟨h1, h2⟩ := h hi
  cases hl : i.literal with
  | none =>
    rw [hl] at h1 h2
    have e : encodeBytes i = bytesOfWord (encodeWord i) := by simp [encodeBytes, encode, hi, hl]
    rw [e]
    simp only [bytesOfWord, List.cons_append, List.nil_append, decode, word_of_bytes, h2, Option.isSome_none,
      Bool.false_eq_true, if_false]
    rw [decodeWords_ok (show decodeRaw (encodeWord i) 0 = .ok i from h1) hw]
  | some l =>
    rw [hl] at h1 h2
    have e : encodeBytes i = bytesOfWord (encodeWord i) ++ bytesOfWord l := by simp [encodeBytes, encode, hi, hl]
    rw [e]
    simp only [bytesOfWord, List.cons_append, List.nil_append, decode, word_of_bytes, h2, Option.isSome_some, if_true]
    rw [decodeWords_ok (show decodeRaw (encodeWord i) l = .ok i from h1) hw]

end Sys2Proof.Laws
end

