-- ==== Sys2Proof/Laws/Sparse.lean ====
section
/-! SUPPORT. Sparse maps: what a map reads as after a write, and that writes and filters keep the canonical form. -/

namespace Sys2Proof.Machine

variable {α : Type}

@[simp] theorem look_nil (d : α) (k : Nat) : look d [] k = d := rfl

theorem look_ins (d : α) (m : List (Nat × α)) (k j : Nat) (a : α) :
    look d (ins m k a) j = if j = k then a else look d m j := by
  induction m with
  | nil => simp [ins, look]
  | cons e m ih =>
    unfold ins
    split
    · simp [look]
    · split
      · next h => simp only [look]; subst h; split <;> simp_all
      · next h => simp only [look, ih]; split <;> simp_all [eq_comm]

theorem look_del (d : α) (m : List (Nat × α)) (k j : Nat) : look d (del m k) j = if j = k then d else look d m j := by
  induction m with
  | nil => simp [del]
  | cons e m ih =>
    unfold del
    split
    · next h => rw [ih]; simp only [look]; subst h; split <;> simp_all
    · next h => simp only [look, ih]; split <;> simp_all [eq_comm]

/-- A write is read back at its key, and nowhere else. -/
theorem look_put [DecidableEq α] (d : α) (m : List (Nat × α)) (k j : Nat) (a : α) :
    look d (put d m k a) j = if j = k then a else look d m j := by
  unfold put
  split
  · next h => rw [look_del]; split <;> simp_all
  · exact look_ins d m k j a

@[simp] theorem look_put_self [DecidableEq α] (d : α) (m : List (Nat × α)) (k : Nat) (a : α) : look d (put d m k a) k = a := by
  simp [look_put]

theorem look_put_ne [DecidableEq α] (d : α) (m : List (Nat × α)) {k j : Nat} (a : α) (h : j ≠ k) :
    look d (put d m k a) j = look d m j := by
  simp [look_put, h]

/-- The canonical form from a key on is also one from a lower key on. -/
theorem canonFrom_mono [DecidableEq α] (d : α) {lo lo' : Nat} (h : lo' ≤ lo) (m : List (Nat × α)) (hm : canonFrom d lo m = true) :
    canonFrom d lo' m = true := by
  cases m with
  | nil => rfl
  | cons e m =>
    simp only [canonFrom, Bool.and_eq_true, decide_eq_true_eq] at hm ⊢
    exact ⟨⟨by omega, hm.1.2⟩, hm.2⟩

theorem canonFrom_ins [DecidableEq α] (d : α) (k : Nat) (a : α) (ha : a ≠ d) (m : List (Nat × α)) (lo : Nat) (hk : lo ≤ k)
    (hm : canonFrom d lo m = true) : canonFrom d lo (ins m k a) = true := by
  induction m generalizing lo with
  | nil => simp [ins, canonFrom, hk, ha]
  | cons e m ih =>
    simp only [canonFrom, Bool.and_eq_true, decide_eq_true_eq] at hm
    unfold ins
    split
    · simp only [canonFrom, Bool.and_eq_true, decide_eq_true_eq]
      exact ⟨⟨hk, by simpa using ha⟩, ⟨by omega, hm.1.2⟩, hm.2⟩
    · split
      · next h =>
        simp only [canonFrom, Bool.and_eq_true, decide_eq_true_eq]
        exact ⟨⟨hk, by simpa using ha⟩, h ▸ hm.2⟩
      · simp only [canonFrom, Bool.and_eq_true, decide_eq_true_eq]
        exact ⟨⟨hm.1.1, hm.1.2⟩, ih (e.1 + 1) (by omega) hm.2⟩

/-- A filter keeps the canonical form. -/
theorem canonFrom_filter [DecidableEq α] (d : α) (f : Nat × α → Bool) (m : List (Nat × α)) (lo : Nat)
    (hm : canonFrom d lo m = true) : canonFrom d lo (m.filter f) = true := by
  induction m generalizing lo with
  | nil => rfl
  | cons e m ih =>
    simp only [canonFrom, Bool.and_eq_true, decide_eq_true_eq] at hm
    rw [List.filter_cons]
    split
    · simp only [canonFrom, Bool.and_eq_true, decide_eq_true_eq]
      exact ⟨hm.1, ih _ hm.2⟩
    · exact canonFrom_mono d (by omega) _ (ih _ hm.2)

theorem del_eq_filter (m : List (Nat × α)) (k : Nat) : del m k = m.filter (fun e => !(k == e.1)) := by
  induction m with
  | nil => rfl
  | cons e m ih =>
    unfold del
    rw [List.filter_cons, ih]
    by_cases h : k = e.1 <;> simp [h]

/-- A write keeps the canonical form. -/
theorem canon_put [DecidableEq α] (d : α) (m : List (Nat × α)) (k : Nat) (a : α) (hm : canon d m = true) :
    canon d (put d m k a) = true := by
  unfold put canon
  split
  · rw [del_eq_filter]; exact canonFrom_filter d _ m 0 hm
  · next h => exact canonFrom_ins d k a h m 0 (Nat.zero_le k) hm

/-- A filter keeps the canonical form. -/
theorem canon_filter [DecidableEq α] (d : α) (f : Nat × α → Bool) (m : List (Nat × α)) (hm : canon d m = true) :
    canon d (m.filter f) = true := canonFrom_filter d f m 0 hm

/-- Two canonical maps that read alike are equal. -/
theorem canonFrom_ext [DecidableEq α] (d : α) (m n : List (Nat × α)) (lo : Nat) (hm : canonFrom d lo m = true)
    (hn : canonFrom d lo n = true) (h : ∀ k, look d m k = look d n k) : m = n := by
  have low : ∀ (l : List (Nat × α)) (lo : Nat), canonFrom d lo l = true → ∀ k < lo, look d l k = d := by
    intro l
    induction l with
    | nil => intros; rfl
    | cons e l ih =>
      intro lo hl k hk
      simp only [canonFrom, Bool.and_eq_true, decide_eq_true_eq] at hl
      have h1 : k ≠ e.1 := by omega
      simp only [look, if_neg h1]
      exact ih _ hl.2 k (by omega)
  induction m generalizing n lo with
  | nil =>
    cases n with
    | nil => rfl
    | cons f n =>
      simp only [canonFrom, Bool.and_eq_true, decide_eq_true_eq, Bool.not_eq_true', decide_eq_false_iff_not] at hn
      exact absurd (by simpa [look] using (h f.1).symm) hn.1.2
  | cons e m ih =>
    simp only [canonFrom, Bool.and_eq_true, decide_eq_true_eq, Bool.not_eq_true', decide_eq_false_iff_not] at hm
    cases n with
    | nil => exact absurd (by simpa [look] using h e.1) hm.1.2
    | cons f n =>
      simp only [canonFrom, Bool.and_eq_true, decide_eq_true_eq, Bool.not_eq_true', decide_eq_false_iff_not] at hn
      have h1 : e.1 = f.1 := by
        rcases Nat.lt_trichotomy e.1 f.1 with hlt | heq | hgt
        · have := h e.1
          have h2 : e.1 ≠ f.1 := by omega
          simp only [look, if_true, if_neg h2] at this
          exact absurd (this.trans (low n _ hn.2 _ (by omega))) hm.1.2
        · exact heq
        · have := h f.1
          have h2 : f.1 ≠ e.1 := by omega
          simp only [look, if_true, if_neg h2] at this
          exact absurd (this.symm.trans (low m _ hm.2 _ (by omega))) hn.1.2
      have h2 : e.2 = f.2 := by have := h e.1; simpa [look, h1] using this
      have h3 : m = n := by
        refine ih n (e.1 + 1) hm.2 (h1 ▸ hn.2) ?_
        intro k
        by_cases hk : k = e.1
        · subst hk
          rw [low m _ hm.2 _ (by omega), low n _ hn.2 _ (by omega)]
        · have := h k
          have hk' : k ≠ f.1 := h1 ▸ hk
          simpa only [look, if_neg hk, if_neg hk'] using this
      rw [h3, Prod.ext h1 h2]

end Sys2Proof.Machine
end

