-- ==== Sys2Proof/Laws/State.lean ====
section
/-! SUPPORT. One lemma for each field and each named update of State and of Warp: what the update leaves and what it puts. -/

namespace Sys2Proof.Machine

/-! ### Tables of units: an entry after an update, and every other table -/

@[simp] theorem State.setCore_cores (s : State) (n : Nat) (x : Core) : (s.setCore n x).cores = put {} s.cores n x := rfl
theorem State.setCore_core (s : State) (n m : Nat) (x : Core) : (s.setCore n x).core m = if m = n then x else s.core m :=
  look_put _ _ _ _ _
@[simp] theorem State.setCore_core_self (s : State) (n : Nat) (x : Core) : (s.setCore n x).core n = x := look_put_self _ _ _ _
@[simp] theorem State.setCore_w (s : State) (n : Nat) (x : Core) : (s.setCore n x).w = s.w := rfl
@[simp] theorem State.setCore_others (s : State) (n : Nat) (x : Core) : (s.setCore n x).others = s.others := rfl
@[simp] theorem State.setCore_bad (s : State) (n : Nat) (x : Core) : (s.setCore n x).bad = s.bad := rfl
@[simp] theorem State.setCore_wgs (s : State) (n : Nat) (x : Core) : (s.setCore n x).wgs = s.wgs := rfl
@[simp] theorem State.setCore_launches (s : State) (n : Nat) (x : Core) : (s.setCore n x).launches = s.launches := rfl
@[simp] theorem State.setCore_kernels (s : State) (n : Nat) (x : Core) : (s.setCore n x).kernels = s.kernels := rfl
@[simp] theorem State.setCore_clusters (s : State) (n : Nat) (x : Core) : (s.setCore n x).clusters = s.clusters := rfl
@[simp] theorem State.setCore_dies (s : State) (n : Nat) (x : Core) : (s.setCore n x).dies = s.dies := rfl
@[simp] theorem State.setCore_tabards (s : State) (n : Nat) (x : Core) : (s.setCore n x).tabards = s.tabards := rfl
@[simp] theorem State.setCore_copies (s : State) (n : Nat) (x : Core) : (s.setCore n x).copies = s.copies := rfl
@[simp] theorem State.setCore_sent (s : State) (n : Nat) (x : Core) : (s.setCore n x).sent = s.sent := rfl
@[simp] theorem State.setCore_views (s : State) (n : Nat) (x : Core) : (s.setCore n x).views = s.views := rfl
@[simp] theorem State.setCore_outs (s : State) (n : Nat) (x : Core) : (s.setCore n x).outs = s.outs := rfl
@[simp] theorem State.setCore_tiles (s : State) (n : Nat) (x : Core) : (s.setCore n x).tiles = s.tiles := rfl
@[simp] theorem State.setCore_queues (s : State) (n : Nat) (x : Core) : (s.setCore n x).queues = s.queues := rfl
@[simp] theorem State.setCore_ctxs (s : State) (n : Nat) (x : Core) : (s.setCore n x).ctxs = s.ctxs := rfl
@[simp] theorem State.setCore_dclk (s : State) (n : Nat) (x : Core) : (s.setCore n x).dclk = s.dclk := rfl
@[simp] theorem State.setCore_free (s : State) (n : Nat) (x : Core) : (s.setCore n x).free = s.free := rfl
@[simp] theorem State.setCore_agenda (s : State) (n : Nat) (x : Core) : (s.setCore n x).agenda = s.agenda := rfl
@[simp] theorem State.setCore_nextWid (s : State) (n : Nat) (x : Core) : (s.setCore n x).nextWid = s.nextWid := rfl
@[simp] theorem State.setCore_cluster (s : State) (n m : Nat) (x : Core) : (s.setCore n x).cluster m = s.cluster m := rfl
@[simp] theorem State.setCore_die (s : State) (n m : Nat) (x : Core) : (s.setCore n x).die m = s.die m := rfl
@[simp] theorem State.setCore_wg (s : State) (n m : Nat) (x : Core) : (s.setCore n x).wg m = s.wg m := rfl
@[simp] theorem State.setCore_launch (s : State) (n m : Nat) (x : Core) : (s.setCore n x).launch m = s.launch m := rfl
@[simp] theorem State.setCore_kernel (s : State) (n m : Nat) (x : Core) : (s.setCore n x).kernel m = s.kernel m := rfl
@[simp] theorem State.setCore_ctx (s : State) (n m : Nat) (x : Core) : (s.setCore n x).ctx m = s.ctx m := rfl
@[simp] theorem State.setCore_queue (s : State) (n m : Nat) (x : Core) : (s.setCore n x).queue m = s.queue m := rfl
@[simp] theorem State.setCore_view (s : State) (n m : Nat) (x : Core) : (s.setCore n x).view m = s.view m := rfl
@[simp] theorem State.setCore_out (s : State) (n m : Nat) (x : Core) : (s.setCore n x).out m = s.out m := rfl
@[simp] theorem State.setCore_byte (s : State) (n k : Nat) (x : Core) : (s.setCore n x).byte k = s.byte k := rfl
@[simp] theorem State.setCluster_clusters (s : State) (n : Nat) (x : Cluster) : (s.setCluster n x).clusters = put {} s.clusters n x := rfl
theorem State.setCluster_cluster (s : State) (n m : Nat) (x : Cluster) : (s.setCluster n x).cluster m = if m = n then x else s.cluster m :=
  look_put _ _ _ _ _
@[simp] theorem State.setCluster_cluster_self (s : State) (n : Nat) (x : Cluster) : (s.setCluster n x).cluster n = x := look_put_self _ _ _ _
@[simp] theorem State.setCluster_w (s : State) (n : Nat) (x : Cluster) : (s.setCluster n x).w = s.w := rfl
@[simp] theorem State.setCluster_others (s : State) (n : Nat) (x : Cluster) : (s.setCluster n x).others = s.others := rfl
@[simp] theorem State.setCluster_mem (s : State) (n : Nat) (x : Cluster) : (s.setCluster n x).mem = s.mem := rfl
@[simp] theorem State.setCluster_bad (s : State) (n : Nat) (x : Cluster) : (s.setCluster n x).bad = s.bad := rfl
@[simp] theorem State.setCluster_wgs (s : State) (n : Nat) (x : Cluster) : (s.setCluster n x).wgs = s.wgs := rfl
@[simp] theorem State.setCluster_launches (s : State) (n : Nat) (x : Cluster) : (s.setCluster n x).launches = s.launches := rfl
@[simp] theorem State.setCluster_kernels (s : State) (n : Nat) (x : Cluster) : (s.setCluster n x).kernels = s.kernels := rfl
@[simp] theorem State.setCluster_cores (s : State) (n : Nat) (x : Cluster) : (s.setCluster n x).cores = s.cores := rfl
@[simp] theorem State.setCluster_dies (s : State) (n : Nat) (x : Cluster) : (s.setCluster n x).dies = s.dies := rfl
@[simp] theorem State.setCluster_tabards (s : State) (n : Nat) (x : Cluster) : (s.setCluster n x).tabards = s.tabards := rfl
@[simp] theorem State.setCluster_copies (s : State) (n : Nat) (x : Cluster) : (s.setCluster n x).copies = s.copies := rfl
@[simp] theorem State.setCluster_sent (s : State) (n : Nat) (x : Cluster) : (s.setCluster n x).sent = s.sent := rfl
@[simp] theorem State.setCluster_views (s : State) (n : Nat) (x : Cluster) : (s.setCluster n x).views = s.views := rfl
@[simp] theorem State.setCluster_outs (s : State) (n : Nat) (x : Cluster) : (s.setCluster n x).outs = s.outs := rfl
@[simp] theorem State.setCluster_tiles (s : State) (n : Nat) (x : Cluster) : (s.setCluster n x).tiles = s.tiles := rfl
@[simp] theorem State.setCluster_queues (s : State) (n : Nat) (x : Cluster) : (s.setCluster n x).queues = s.queues := rfl
@[simp] theorem State.setCluster_ctxs (s : State) (n : Nat) (x : Cluster) : (s.setCluster n x).ctxs = s.ctxs := rfl
@[simp] theorem State.setCluster_dclk (s : State) (n : Nat) (x : Cluster) : (s.setCluster n x).dclk = s.dclk := rfl
@[simp] theorem State.setCluster_free (s : State) (n : Nat) (x : Cluster) : (s.setCluster n x).free = s.free := rfl
@[simp] theorem State.setCluster_agenda (s : State) (n : Nat) (x : Cluster) : (s.setCluster n x).agenda = s.agenda := rfl
@[simp] theorem State.setCluster_nextWid (s : State) (n : Nat) (x : Cluster) : (s.setCluster n x).nextWid = s.nextWid := rfl
@[simp] theorem State.setCluster_core (s : State) (n m : Nat) (x : Cluster) : (s.setCluster n x).core m = s.core m := rfl
@[simp] theorem State.setCluster_die (s : State) (n m : Nat) (x : Cluster) : (s.setCluster n x).die m = s.die m := rfl
@[simp] theorem State.setCluster_wg (s : State) (n m : Nat) (x : Cluster) : (s.setCluster n x).wg m = s.wg m := rfl
@[simp] theorem State.setCluster_launch (s : State) (n m : Nat) (x : Cluster) : (s.setCluster n x).launch m = s.launch m := rfl
@[simp] theorem State.setCluster_kernel (s : State) (n m : Nat) (x : Cluster) : (s.setCluster n x).kernel m = s.kernel m := rfl
@[simp] theorem State.setCluster_ctx (s : State) (n m : Nat) (x : Cluster) : (s.setCluster n x).ctx m = s.ctx m := rfl
@[simp] theorem State.setCluster_queue (s : State) (n m : Nat) (x : Cluster) : (s.setCluster n x).queue m = s.queue m := rfl
@[simp] theorem State.setCluster_view (s : State) (n m : Nat) (x : Cluster) : (s.setCluster n x).view m = s.view m := rfl
@[simp] theorem State.setCluster_out (s : State) (n m : Nat) (x : Cluster) : (s.setCluster n x).out m = s.out m := rfl
@[simp] theorem State.setCluster_byte (s : State) (n k : Nat) (x : Cluster) : (s.setCluster n x).byte k = s.byte k := rfl
@[simp] theorem State.setDie_dies (s : State) (n : Nat) (x : Die) : (s.setDie n x).dies = put {} s.dies n x := rfl
theorem State.setDie_die (s : State) (n m : Nat) (x : Die) : (s.setDie n x).die m = if m = n then x else s.die m :=
  look_put _ _ _ _ _
@[simp] theorem State.setDie_die_self (s : State) (n : Nat) (x : Die) : (s.setDie n x).die n = x := look_put_self _ _ _ _
@[simp] theorem State.setDie_w (s : State) (n : Nat) (x : Die) : (s.setDie n x).w = s.w := rfl
@[simp] theorem State.setDie_others (s : State) (n : Nat) (x : Die) : (s.setDie n x).others = s.others := rfl
@[simp] theorem State.setDie_mem (s : State) (n : Nat) (x : Die) : (s.setDie n x).mem = s.mem := rfl
@[simp] theorem State.setDie_bad (s : State) (n : Nat) (x : Die) : (s.setDie n x).bad = s.bad := rfl
@[simp] theorem State.setDie_wgs (s : State) (n : Nat) (x : Die) : (s.setDie n x).wgs = s.wgs := rfl
@[simp] theorem State.setDie_launches (s : State) (n : Nat) (x : Die) : (s.setDie n x).launches = s.launches := rfl
@[simp] theorem State.setDie_kernels (s : State) (n : Nat) (x : Die) : (s.setDie n x).kernels = s.kernels := rfl
@[simp] theorem State.setDie_cores (s : State) (n : Nat) (x : Die) : (s.setDie n x).cores = s.cores := rfl
@[simp] theorem State.setDie_clusters (s : State) (n : Nat) (x : Die) : (s.setDie n x).clusters = s.clusters := rfl
@[simp] theorem State.setDie_tabards (s : State) (n : Nat) (x : Die) : (s.setDie n x).tabards = s.tabards := rfl
@[simp] theorem State.setDie_copies (s : State) (n : Nat) (x : Die) : (s.setDie n x).copies = s.copies := rfl
@[simp] theorem State.setDie_sent (s : State) (n : Nat) (x : Die) : (s.setDie n x).sent = s.sent := rfl
@[simp] theorem State.setDie_views (s : State) (n : Nat) (x : Die) : (s.setDie n x).views = s.views := rfl
@[simp] theorem State.setDie_outs (s : State) (n : Nat) (x : Die) : (s.setDie n x).outs = s.outs := rfl
@[simp] theorem State.setDie_tiles (s : State) (n : Nat) (x : Die) : (s.setDie n x).tiles = s.tiles := rfl
@[simp] theorem State.setDie_queues (s : State) (n : Nat) (x : Die) : (s.setDie n x).queues = s.queues := rfl
@[simp] theorem State.setDie_ctxs (s : State) (n : Nat) (x : Die) : (s.setDie n x).ctxs = s.ctxs := rfl
@[simp] theorem State.setDie_dclk (s : State) (n : Nat) (x : Die) : (s.setDie n x).dclk = s.dclk := rfl
@[simp] theorem State.setDie_free (s : State) (n : Nat) (x : Die) : (s.setDie n x).free = s.free := rfl
@[simp] theorem State.setDie_agenda (s : State) (n : Nat) (x : Die) : (s.setDie n x).agenda = s.agenda := rfl
@[simp] theorem State.setDie_nextWid (s : State) (n : Nat) (x : Die) : (s.setDie n x).nextWid = s.nextWid := rfl
@[simp] theorem State.setDie_core (s : State) (n m : Nat) (x : Die) : (s.setDie n x).core m = s.core m := rfl
@[simp] theorem State.setDie_cluster (s : State) (n m : Nat) (x : Die) : (s.setDie n x).cluster m = s.cluster m := rfl
@[simp] theorem State.setDie_wg (s : State) (n m : Nat) (x : Die) : (s.setDie n x).wg m = s.wg m := rfl
@[simp] theorem State.setDie_launch (s : State) (n m : Nat) (x : Die) : (s.setDie n x).launch m = s.launch m := rfl
@[simp] theorem State.setDie_kernel (s : State) (n m : Nat) (x : Die) : (s.setDie n x).kernel m = s.kernel m := rfl
@[simp] theorem State.setDie_ctx (s : State) (n m : Nat) (x : Die) : (s.setDie n x).ctx m = s.ctx m := rfl
@[simp] theorem State.setDie_queue (s : State) (n m : Nat) (x : Die) : (s.setDie n x).queue m = s.queue m := rfl
@[simp] theorem State.setDie_view (s : State) (n m : Nat) (x : Die) : (s.setDie n x).view m = s.view m := rfl
@[simp] theorem State.setDie_out (s : State) (n m : Nat) (x : Die) : (s.setDie n x).out m = s.out m := rfl
@[simp] theorem State.setDie_byte (s : State) (n k : Nat) (x : Die) : (s.setDie n x).byte k = s.byte k := rfl
@[simp] theorem State.setWg_wgs (s : State) (n : Nat) (x : WG) : (s.setWg n x).wgs = put {} s.wgs n x := rfl
theorem State.setWg_wg (s : State) (n m : Nat) (x : WG) : (s.setWg n x).wg m = if m = n then x else s.wg m :=
  look_put _ _ _ _ _
@[simp] theorem State.setWg_wg_self (s : State) (n : Nat) (x : WG) : (s.setWg n x).wg n = x := look_put_self _ _ _ _
@[simp] theorem State.setWg_w (s : State) (n : Nat) (x : WG) : (s.setWg n x).w = s.w := rfl
@[simp] theorem State.setWg_others (s : State) (n : Nat) (x : WG) : (s.setWg n x).others = s.others := rfl
@[simp] theorem State.setWg_mem (s : State) (n : Nat) (x : WG) : (s.setWg n x).mem = s.mem := rfl
@[simp] theorem State.setWg_bad (s : State) (n : Nat) (x : WG) : (s.setWg n x).bad = s.bad := rfl
@[simp] theorem State.setWg_launches (s : State) (n : Nat) (x : WG) : (s.setWg n x).launches = s.launches := rfl
@[simp] theorem State.setWg_kernels (s : State) (n : Nat) (x : WG) : (s.setWg n x).kernels = s.kernels := rfl
@[simp] theorem State.setWg_cores (s : State) (n : Nat) (x : WG) : (s.setWg n x).cores = s.cores := rfl
@[simp] theorem State.setWg_clusters (s : State) (n : Nat) (x : WG) : (s.setWg n x).clusters = s.clusters := rfl
@[simp] theorem State.setWg_dies (s : State) (n : Nat) (x : WG) : (s.setWg n x).dies = s.dies := rfl
@[simp] theorem State.setWg_tabards (s : State) (n : Nat) (x : WG) : (s.setWg n x).tabards = s.tabards := rfl
@[simp] theorem State.setWg_copies (s : State) (n : Nat) (x : WG) : (s.setWg n x).copies = s.copies := rfl
@[simp] theorem State.setWg_sent (s : State) (n : Nat) (x : WG) : (s.setWg n x).sent = s.sent := rfl
@[simp] theorem State.setWg_views (s : State) (n : Nat) (x : WG) : (s.setWg n x).views = s.views := rfl
@[simp] theorem State.setWg_outs (s : State) (n : Nat) (x : WG) : (s.setWg n x).outs = s.outs := rfl
@[simp] theorem State.setWg_tiles (s : State) (n : Nat) (x : WG) : (s.setWg n x).tiles = s.tiles := rfl
@[simp] theorem State.setWg_queues (s : State) (n : Nat) (x : WG) : (s.setWg n x).queues = s.queues := rfl
@[simp] theorem State.setWg_ctxs (s : State) (n : Nat) (x : WG) : (s.setWg n x).ctxs = s.ctxs := rfl
@[simp] theorem State.setWg_dclk (s : State) (n : Nat) (x : WG) : (s.setWg n x).dclk = s.dclk := rfl
@[simp] theorem State.setWg_free (s : State) (n : Nat) (x : WG) : (s.setWg n x).free = s.free := rfl
@[simp] theorem State.setWg_agenda (s : State) (n : Nat) (x : WG) : (s.setWg n x).agenda = s.agenda := rfl
@[simp] theorem State.setWg_nextWid (s : State) (n : Nat) (x : WG) : (s.setWg n x).nextWid = s.nextWid := rfl
@[simp] theorem State.setWg_core (s : State) (n m : Nat) (x : WG) : (s.setWg n x).core m = s.core m := rfl
@[simp] theorem State.setWg_cluster (s : State) (n m : Nat) (x : WG) : (s.setWg n x).cluster m = s.cluster m := rfl
@[simp] theorem State.setWg_die (s : State) (n m : Nat) (x : WG) : (s.setWg n x).die m = s.die m := rfl
@[simp] theorem State.setWg_launch (s : State) (n m : Nat) (x : WG) : (s.setWg n x).launch m = s.launch m := rfl
@[simp] theorem State.setWg_kernel (s : State) (n m : Nat) (x : WG) : (s.setWg n x).kernel m = s.kernel m := rfl
@[simp] theorem State.setWg_ctx (s : State) (n m : Nat) (x : WG) : (s.setWg n x).ctx m = s.ctx m := rfl
@[simp] theorem State.setWg_queue (s : State) (n m : Nat) (x : WG) : (s.setWg n x).queue m = s.queue m := rfl
@[simp] theorem State.setWg_view (s : State) (n m : Nat) (x : WG) : (s.setWg n x).view m = s.view m := rfl
@[simp] theorem State.setWg_out (s : State) (n m : Nat) (x : WG) : (s.setWg n x).out m = s.out m := rfl
@[simp] theorem State.setWg_byte (s : State) (n k : Nat) (x : WG) : (s.setWg n x).byte k = s.byte k := rfl
@[simp] theorem State.setLaunch_launches (s : State) (n : Nat) (x : Launch) : (s.setLaunch n x).launches = put {} s.launches n x := rfl
theorem State.setLaunch_launch (s : State) (n m : Nat) (x : Launch) : (s.setLaunch n x).launch m = if m = n then x else s.launch m :=
  look_put _ _ _ _ _
@[simp] theorem State.setLaunch_launch_self (s : State) (n : Nat) (x : Launch) : (s.setLaunch n x).launch n = x := look_put_self _ _ _ _
@[simp] theorem State.setLaunch_w (s : State) (n : Nat) (x : Launch) : (s.setLaunch n x).w = s.w := rfl
@[simp] theorem State.setLaunch_others (s : State) (n : Nat) (x : Launch) : (s.setLaunch n x).others = s.others := rfl
@[simp] theorem State.setLaunch_mem (s : State) (n : Nat) (x : Launch) : (s.setLaunch n x).mem = s.mem := rfl
@[simp] theorem State.setLaunch_bad (s : State) (n : Nat) (x : Launch) : (s.setLaunch n x).bad = s.bad := rfl
@[simp] theorem State.setLaunch_wgs (s : State) (n : Nat) (x : Launch) : (s.setLaunch n x).wgs = s.wgs := rfl
@[simp] theorem State.setLaunch_kernels (s : State) (n : Nat) (x : Launch) : (s.setLaunch n x).kernels = s.kernels := rfl
@[simp] theorem State.setLaunch_cores (s : State) (n : Nat) (x : Launch) : (s.setLaunch n x).cores = s.cores := rfl
@[simp] theorem State.setLaunch_clusters (s : State) (n : Nat) (x : Launch) : (s.setLaunch n x).clusters = s.clusters := rfl
@[simp] theorem State.setLaunch_dies (s : State) (n : Nat) (x : Launch) : (s.setLaunch n x).dies = s.dies := rfl
@[simp] theorem State.setLaunch_tabards (s : State) (n : Nat) (x : Launch) : (s.setLaunch n x).tabards = s.tabards := rfl
@[simp] theorem State.setLaunch_copies (s : State) (n : Nat) (x : Launch) : (s.setLaunch n x).copies = s.copies := rfl
@[simp] theorem State.setLaunch_sent (s : State) (n : Nat) (x : Launch) : (s.setLaunch n x).sent = s.sent := rfl
@[simp] theorem State.setLaunch_views (s : State) (n : Nat) (x : Launch) : (s.setLaunch n x).views = s.views := rfl
@[simp] theorem State.setLaunch_outs (s : State) (n : Nat) (x : Launch) : (s.setLaunch n x).outs = s.outs := rfl
@[simp] theorem State.setLaunch_tiles (s : State) (n : Nat) (x : Launch) : (s.setLaunch n x).tiles = s.tiles := rfl
@[simp] theorem State.setLaunch_queues (s : State) (n : Nat) (x : Launch) : (s.setLaunch n x).queues = s.queues := rfl
@[simp] theorem State.setLaunch_ctxs (s : State) (n : Nat) (x : Launch) : (s.setLaunch n x).ctxs = s.ctxs := rfl
@[simp] theorem State.setLaunch_dclk (s : State) (n : Nat) (x : Launch) : (s.setLaunch n x).dclk = s.dclk := rfl
@[simp] theorem State.setLaunch_free (s : State) (n : Nat) (x : Launch) : (s.setLaunch n x).free = s.free := rfl
@[simp] theorem State.setLaunch_agenda (s : State) (n : Nat) (x : Launch) : (s.setLaunch n x).agenda = s.agenda := rfl
@[simp] theorem State.setLaunch_nextWid (s : State) (n : Nat) (x : Launch) : (s.setLaunch n x).nextWid = s.nextWid := rfl
@[simp] theorem State.setLaunch_core (s : State) (n m : Nat) (x : Launch) : (s.setLaunch n x).core m = s.core m := rfl
@[simp] theorem State.setLaunch_cluster (s : State) (n m : Nat) (x : Launch) : (s.setLaunch n x).cluster m = s.cluster m := rfl
@[simp] theorem State.setLaunch_die (s : State) (n m : Nat) (x : Launch) : (s.setLaunch n x).die m = s.die m := rfl
@[simp] theorem State.setLaunch_wg (s : State) (n m : Nat) (x : Launch) : (s.setLaunch n x).wg m = s.wg m := rfl
@[simp] theorem State.setLaunch_kernel (s : State) (n m : Nat) (x : Launch) : (s.setLaunch n x).kernel m = s.kernel m := rfl
@[simp] theorem State.setLaunch_ctx (s : State) (n m : Nat) (x : Launch) : (s.setLaunch n x).ctx m = s.ctx m := rfl
@[simp] theorem State.setLaunch_queue (s : State) (n m : Nat) (x : Launch) : (s.setLaunch n x).queue m = s.queue m := rfl
@[simp] theorem State.setLaunch_view (s : State) (n m : Nat) (x : Launch) : (s.setLaunch n x).view m = s.view m := rfl
@[simp] theorem State.setLaunch_out (s : State) (n m : Nat) (x : Launch) : (s.setLaunch n x).out m = s.out m := rfl
@[simp] theorem State.setLaunch_byte (s : State) (n k : Nat) (x : Launch) : (s.setLaunch n x).byte k = s.byte k := rfl
@[simp] theorem State.setKernel_kernels (s : State) (n : Nat) (x : Kernel) : (s.setKernel n x).kernels = put {} s.kernels n x := rfl
theorem State.setKernel_kernel (s : State) (n m : Nat) (x : Kernel) : (s.setKernel n x).kernel m = if m = n then x else s.kernel m :=
  look_put _ _ _ _ _
@[simp] theorem State.setKernel_kernel_self (s : State) (n : Nat) (x : Kernel) : (s.setKernel n x).kernel n = x := look_put_self _ _ _ _
@[simp] theorem State.setKernel_w (s : State) (n : Nat) (x : Kernel) : (s.setKernel n x).w = s.w := rfl
@[simp] theorem State.setKernel_others (s : State) (n : Nat) (x : Kernel) : (s.setKernel n x).others = s.others := rfl
@[simp] theorem State.setKernel_mem (s : State) (n : Nat) (x : Kernel) : (s.setKernel n x).mem = s.mem := rfl
@[simp] theorem State.setKernel_bad (s : State) (n : Nat) (x : Kernel) : (s.setKernel n x).bad = s.bad := rfl
@[simp] theorem State.setKernel_wgs (s : State) (n : Nat) (x : Kernel) : (s.setKernel n x).wgs = s.wgs := rfl
@[simp] theorem State.setKernel_launches (s : State) (n : Nat) (x : Kernel) : (s.setKernel n x).launches = s.launches := rfl
@[simp] theorem State.setKernel_cores (s : State) (n : Nat) (x : Kernel) : (s.setKernel n x).cores = s.cores := rfl
@[simp] theorem State.setKernel_clusters (s : State) (n : Nat) (x : Kernel) : (s.setKernel n x).clusters = s.clusters := rfl
@[simp] theorem State.setKernel_dies (s : State) (n : Nat) (x : Kernel) : (s.setKernel n x).dies = s.dies := rfl
@[simp] theorem State.setKernel_tabards (s : State) (n : Nat) (x : Kernel) : (s.setKernel n x).tabards = s.tabards := rfl
@[simp] theorem State.setKernel_copies (s : State) (n : Nat) (x : Kernel) : (s.setKernel n x).copies = s.copies := rfl
@[simp] theorem State.setKernel_sent (s : State) (n : Nat) (x : Kernel) : (s.setKernel n x).sent = s.sent := rfl
@[simp] theorem State.setKernel_views (s : State) (n : Nat) (x : Kernel) : (s.setKernel n x).views = s.views := rfl
@[simp] theorem State.setKernel_outs (s : State) (n : Nat) (x : Kernel) : (s.setKernel n x).outs = s.outs := rfl
@[simp] theorem State.setKernel_tiles (s : State) (n : Nat) (x : Kernel) : (s.setKernel n x).tiles = s.tiles := rfl
@[simp] theorem State.setKernel_queues (s : State) (n : Nat) (x : Kernel) : (s.setKernel n x).queues = s.queues := rfl
@[simp] theorem State.setKernel_ctxs (s : State) (n : Nat) (x : Kernel) : (s.setKernel n x).ctxs = s.ctxs := rfl
@[simp] theorem State.setKernel_dclk (s : State) (n : Nat) (x : Kernel) : (s.setKernel n x).dclk = s.dclk := rfl
@[simp] theorem State.setKernel_free (s : State) (n : Nat) (x : Kernel) : (s.setKernel n x).free = s.free := rfl
@[simp] theorem State.setKernel_agenda (s : State) (n : Nat) (x : Kernel) : (s.setKernel n x).agenda = s.agenda := rfl
@[simp] theorem State.setKernel_nextWid (s : State) (n : Nat) (x : Kernel) : (s.setKernel n x).nextWid = s.nextWid := rfl
@[simp] theorem State.setKernel_core (s : State) (n m : Nat) (x : Kernel) : (s.setKernel n x).core m = s.core m := rfl
@[simp] theorem State.setKernel_cluster (s : State) (n m : Nat) (x : Kernel) : (s.setKernel n x).cluster m = s.cluster m := rfl
@[simp] theorem State.setKernel_die (s : State) (n m : Nat) (x : Kernel) : (s.setKernel n x).die m = s.die m := rfl
@[simp] theorem State.setKernel_wg (s : State) (n m : Nat) (x : Kernel) : (s.setKernel n x).wg m = s.wg m := rfl
@[simp] theorem State.setKernel_launch (s : State) (n m : Nat) (x : Kernel) : (s.setKernel n x).launch m = s.launch m := rfl
@[simp] theorem State.setKernel_ctx (s : State) (n m : Nat) (x : Kernel) : (s.setKernel n x).ctx m = s.ctx m := rfl
@[simp] theorem State.setKernel_queue (s : State) (n m : Nat) (x : Kernel) : (s.setKernel n x).queue m = s.queue m := rfl
@[simp] theorem State.setKernel_view (s : State) (n m : Nat) (x : Kernel) : (s.setKernel n x).view m = s.view m := rfl
@[simp] theorem State.setKernel_out (s : State) (n m : Nat) (x : Kernel) : (s.setKernel n x).out m = s.out m := rfl
@[simp] theorem State.setKernel_byte (s : State) (n k : Nat) (x : Kernel) : (s.setKernel n x).byte k = s.byte k := rfl
@[simp] theorem State.setCtx_ctxs (s : State) (n : Nat) (x : Ctx) : (s.setCtx n x).ctxs = put {} s.ctxs n x := rfl
theorem State.setCtx_ctx (s : State) (n m : Nat) (x : Ctx) : (s.setCtx n x).ctx m = if m = n then x else s.ctx m :=
  look_put _ _ _ _ _
@[simp] theorem State.setCtx_ctx_self (s : State) (n : Nat) (x : Ctx) : (s.setCtx n x).ctx n = x := look_put_self _ _ _ _
@[simp] theorem State.setCtx_w (s : State) (n : Nat) (x : Ctx) : (s.setCtx n x).w = s.w := rfl
@[simp] theorem State.setCtx_others (s : State) (n : Nat) (x : Ctx) : (s.setCtx n x).others = s.others := rfl
@[simp] theorem State.setCtx_mem (s : State) (n : Nat) (x : Ctx) : (s.setCtx n x).mem = s.mem := rfl
@[simp] theorem State.setCtx_bad (s : State) (n : Nat) (x : Ctx) : (s.setCtx n x).bad = s.bad := rfl
@[simp] theorem State.setCtx_wgs (s : State) (n : Nat) (x : Ctx) : (s.setCtx n x).wgs = s.wgs := rfl
@[simp] theorem State.setCtx_launches (s : State) (n : Nat) (x : Ctx) : (s.setCtx n x).launches = s.launches := rfl
@[simp] theorem State.setCtx_kernels (s : State) (n : Nat) (x : Ctx) : (s.setCtx n x).kernels = s.kernels := rfl
@[simp] theorem State.setCtx_cores (s : State) (n : Nat) (x : Ctx) : (s.setCtx n x).cores = s.cores := rfl
@[simp] theorem State.setCtx_clusters (s : State) (n : Nat) (x : Ctx) : (s.setCtx n x).clusters = s.clusters := rfl
@[simp] theorem State.setCtx_dies (s : State) (n : Nat) (x : Ctx) : (s.setCtx n x).dies = s.dies := rfl
@[simp] theorem State.setCtx_tabards (s : State) (n : Nat) (x : Ctx) : (s.setCtx n x).tabards = s.tabards := rfl
@[simp] theorem State.setCtx_copies (s : State) (n : Nat) (x : Ctx) : (s.setCtx n x).copies = s.copies := rfl
@[simp] theorem State.setCtx_sent (s : State) (n : Nat) (x : Ctx) : (s.setCtx n x).sent = s.sent := rfl
@[simp] theorem State.setCtx_views (s : State) (n : Nat) (x : Ctx) : (s.setCtx n x).views = s.views := rfl
@[simp] theorem State.setCtx_outs (s : State) (n : Nat) (x : Ctx) : (s.setCtx n x).outs = s.outs := rfl
@[simp] theorem State.setCtx_tiles (s : State) (n : Nat) (x : Ctx) : (s.setCtx n x).tiles = s.tiles := rfl
@[simp] theorem State.setCtx_queues (s : State) (n : Nat) (x : Ctx) : (s.setCtx n x).queues = s.queues := rfl
@[simp] theorem State.setCtx_dclk (s : State) (n : Nat) (x : Ctx) : (s.setCtx n x).dclk = s.dclk := rfl
@[simp] theorem State.setCtx_free (s : State) (n : Nat) (x : Ctx) : (s.setCtx n x).free = s.free := rfl
@[simp] theorem State.setCtx_agenda (s : State) (n : Nat) (x : Ctx) : (s.setCtx n x).agenda = s.agenda := rfl
@[simp] theorem State.setCtx_nextWid (s : State) (n : Nat) (x : Ctx) : (s.setCtx n x).nextWid = s.nextWid := rfl
@[simp] theorem State.setCtx_core (s : State) (n m : Nat) (x : Ctx) : (s.setCtx n x).core m = s.core m := rfl
@[simp] theorem State.setCtx_cluster (s : State) (n m : Nat) (x : Ctx) : (s.setCtx n x).cluster m = s.cluster m := rfl
@[simp] theorem State.setCtx_die (s : State) (n m : Nat) (x : Ctx) : (s.setCtx n x).die m = s.die m := rfl
@[simp] theorem State.setCtx_wg (s : State) (n m : Nat) (x : Ctx) : (s.setCtx n x).wg m = s.wg m := rfl
@[simp] theorem State.setCtx_launch (s : State) (n m : Nat) (x : Ctx) : (s.setCtx n x).launch m = s.launch m := rfl
@[simp] theorem State.setCtx_kernel (s : State) (n m : Nat) (x : Ctx) : (s.setCtx n x).kernel m = s.kernel m := rfl
@[simp] theorem State.setCtx_queue (s : State) (n m : Nat) (x : Ctx) : (s.setCtx n x).queue m = s.queue m := rfl
@[simp] theorem State.setCtx_view (s : State) (n m : Nat) (x : Ctx) : (s.setCtx n x).view m = s.view m := rfl
@[simp] theorem State.setCtx_out (s : State) (n m : Nat) (x : Ctx) : (s.setCtx n x).out m = s.out m := rfl
@[simp] theorem State.setCtx_byte (s : State) (n k : Nat) (x : Ctx) : (s.setCtx n x).byte k = s.byte k := rfl
@[simp] theorem State.setQueue_queues (s : State) (n : Nat) (x : Queue) : (s.setQueue n x).queues = put {} s.queues n x := rfl
theorem State.setQueue_queue (s : State) (n m : Nat) (x : Queue) : (s.setQueue n x).queue m = if m = n then x else s.queue m :=
  look_put _ _ _ _ _
@[simp] theorem State.setQueue_queue_self (s : State) (n : Nat) (x : Queue) : (s.setQueue n x).queue n = x := look_put_self _ _ _ _
@[simp] theorem State.setQueue_w (s : State) (n : Nat) (x : Queue) : (s.setQueue n x).w = s.w := rfl
@[simp] theorem State.setQueue_others (s : State) (n : Nat) (x : Queue) : (s.setQueue n x).others = s.others := rfl
@[simp] theorem State.setQueue_mem (s : State) (n : Nat) (x : Queue) : (s.setQueue n x).mem = s.mem := rfl
@[simp] theorem State.setQueue_bad (s : State) (n : Nat) (x : Queue) : (s.setQueue n x).bad = s.bad := rfl
@[simp] theorem State.setQueue_wgs (s : State) (n : Nat) (x : Queue) : (s.setQueue n x).wgs = s.wgs := rfl
@[simp] theorem State.setQueue_launches (s : State) (n : Nat) (x : Queue) : (s.setQueue n x).launches = s.launches := rfl
@[simp] theorem State.setQueue_kernels (s : State) (n : Nat) (x : Queue) : (s.setQueue n x).kernels = s.kernels := rfl
@[simp] theorem State.setQueue_cores (s : State) (n : Nat) (x : Queue) : (s.setQueue n x).cores = s.cores := rfl
@[simp] theorem State.setQueue_clusters (s : State) (n : Nat) (x : Queue) : (s.setQueue n x).clusters = s.clusters := rfl
@[simp] theorem State.setQueue_dies (s : State) (n : Nat) (x : Queue) : (s.setQueue n x).dies = s.dies := rfl
@[simp] theorem State.setQueue_tabards (s : State) (n : Nat) (x : Queue) : (s.setQueue n x).tabards = s.tabards := rfl
@[simp] theorem State.setQueue_copies (s : State) (n : Nat) (x : Queue) : (s.setQueue n x).copies = s.copies := rfl
@[simp] theorem State.setQueue_sent (s : State) (n : Nat) (x : Queue) : (s.setQueue n x).sent = s.sent := rfl
@[simp] theorem State.setQueue_views (s : State) (n : Nat) (x : Queue) : (s.setQueue n x).views = s.views := rfl
@[simp] theorem State.setQueue_outs (s : State) (n : Nat) (x : Queue) : (s.setQueue n x).outs = s.outs := rfl
@[simp] theorem State.setQueue_tiles (s : State) (n : Nat) (x : Queue) : (s.setQueue n x).tiles = s.tiles := rfl
@[simp] theorem State.setQueue_ctxs (s : State) (n : Nat) (x : Queue) : (s.setQueue n x).ctxs = s.ctxs := rfl
@[simp] theorem State.setQueue_dclk (s : State) (n : Nat) (x : Queue) : (s.setQueue n x).dclk = s.dclk := rfl
@[simp] theorem State.setQueue_free (s : State) (n : Nat) (x : Queue) : (s.setQueue n x).free = s.free := rfl
@[simp] theorem State.setQueue_agenda (s : State) (n : Nat) (x : Queue) : (s.setQueue n x).agenda = s.agenda := rfl
@[simp] theorem State.setQueue_nextWid (s : State) (n : Nat) (x : Queue) : (s.setQueue n x).nextWid = s.nextWid := rfl
@[simp] theorem State.setQueue_core (s : State) (n m : Nat) (x : Queue) : (s.setQueue n x).core m = s.core m := rfl
@[simp] theorem State.setQueue_cluster (s : State) (n m : Nat) (x : Queue) : (s.setQueue n x).cluster m = s.cluster m := rfl
@[simp] theorem State.setQueue_die (s : State) (n m : Nat) (x : Queue) : (s.setQueue n x).die m = s.die m := rfl
@[simp] theorem State.setQueue_wg (s : State) (n m : Nat) (x : Queue) : (s.setQueue n x).wg m = s.wg m := rfl
@[simp] theorem State.setQueue_launch (s : State) (n m : Nat) (x : Queue) : (s.setQueue n x).launch m = s.launch m := rfl
@[simp] theorem State.setQueue_kernel (s : State) (n m : Nat) (x : Queue) : (s.setQueue n x).kernel m = s.kernel m := rfl
@[simp] theorem State.setQueue_ctx (s : State) (n m : Nat) (x : Queue) : (s.setQueue n x).ctx m = s.ctx m := rfl
@[simp] theorem State.setQueue_view (s : State) (n m : Nat) (x : Queue) : (s.setQueue n x).view m = s.view m := rfl
@[simp] theorem State.setQueue_out (s : State) (n m : Nat) (x : Queue) : (s.setQueue n x).out m = s.out m := rfl
@[simp] theorem State.setQueue_byte (s : State) (n k : Nat) (x : Queue) : (s.setQueue n x).byte k = s.byte k := rfl
@[simp] theorem State.setView_views (s : State) (n : Nat) (x : View) : (s.setView n x).views = put {} s.views n x := rfl
theorem State.setView_view (s : State) (n m : Nat) (x : View) : (s.setView n x).view m = if m = n then x else s.view m :=
  look_put _ _ _ _ _
@[simp] theorem State.setView_view_self (s : State) (n : Nat) (x : View) : (s.setView n x).view n = x := look_put_self _ _ _ _
@[simp] theorem State.setView_w (s : State) (n : Nat) (x : View) : (s.setView n x).w = s.w := rfl
@[simp] theorem State.setView_others (s : State) (n : Nat) (x : View) : (s.setView n x).others = s.others := rfl
@[simp] theorem State.setView_mem (s : State) (n : Nat) (x : View) : (s.setView n x).mem = s.mem := rfl
@[simp] theorem State.setView_bad (s : State) (n : Nat) (x : View) : (s.setView n x).bad = s.bad := rfl
@[simp] theorem State.setView_wgs (s : State) (n : Nat) (x : View) : (s.setView n x).wgs = s.wgs := rfl
@[simp] theorem State.setView_launches (s : State) (n : Nat) (x : View) : (s.setView n x).launches = s.launches := rfl
@[simp] theorem State.setView_kernels (s : State) (n : Nat) (x : View) : (s.setView n x).kernels = s.kernels := rfl
@[simp] theorem State.setView_cores (s : State) (n : Nat) (x : View) : (s.setView n x).cores = s.cores := rfl
@[simp] theorem State.setView_clusters (s : State) (n : Nat) (x : View) : (s.setView n x).clusters = s.clusters := rfl
@[simp] theorem State.setView_dies (s : State) (n : Nat) (x : View) : (s.setView n x).dies = s.dies := rfl
@[simp] theorem State.setView_tabards (s : State) (n : Nat) (x : View) : (s.setView n x).tabards = s.tabards := rfl
@[simp] theorem State.setView_copies (s : State) (n : Nat) (x : View) : (s.setView n x).copies = s.copies := rfl
@[simp] theorem State.setView_sent (s : State) (n : Nat) (x : View) : (s.setView n x).sent = s.sent := rfl
@[simp] theorem State.setView_outs (s : State) (n : Nat) (x : View) : (s.setView n x).outs = s.outs := rfl
@[simp] theorem State.setView_tiles (s : State) (n : Nat) (x : View) : (s.setView n x).tiles = s.tiles := rfl
@[simp] theorem State.setView_queues (s : State) (n : Nat) (x : View) : (s.setView n x).queues = s.queues := rfl
@[simp] theorem State.setView_ctxs (s : State) (n : Nat) (x : View) : (s.setView n x).ctxs = s.ctxs := rfl
@[simp] theorem State.setView_dclk (s : State) (n : Nat) (x : View) : (s.setView n x).dclk = s.dclk := rfl
@[simp] theorem State.setView_free (s : State) (n : Nat) (x : View) : (s.setView n x).free = s.free := rfl
@[simp] theorem State.setView_agenda (s : State) (n : Nat) (x : View) : (s.setView n x).agenda = s.agenda := rfl
@[simp] theorem State.setView_nextWid (s : State) (n : Nat) (x : View) : (s.setView n x).nextWid = s.nextWid := rfl
@[simp] theorem State.setView_core (s : State) (n m : Nat) (x : View) : (s.setView n x).core m = s.core m := rfl
@[simp] theorem State.setView_cluster (s : State) (n m : Nat) (x : View) : (s.setView n x).cluster m = s.cluster m := rfl
@[simp] theorem State.setView_die (s : State) (n m : Nat) (x : View) : (s.setView n x).die m = s.die m := rfl
@[simp] theorem State.setView_wg (s : State) (n m : Nat) (x : View) : (s.setView n x).wg m = s.wg m := rfl
@[simp] theorem State.setView_launch (s : State) (n m : Nat) (x : View) : (s.setView n x).launch m = s.launch m := rfl
@[simp] theorem State.setView_kernel (s : State) (n m : Nat) (x : View) : (s.setView n x).kernel m = s.kernel m := rfl
@[simp] theorem State.setView_ctx (s : State) (n m : Nat) (x : View) : (s.setView n x).ctx m = s.ctx m := rfl
@[simp] theorem State.setView_queue (s : State) (n m : Nat) (x : View) : (s.setView n x).queue m = s.queue m := rfl
@[simp] theorem State.setView_out (s : State) (n m : Nat) (x : View) : (s.setView n x).out m = s.out m := rfl
@[simp] theorem State.setView_byte (s : State) (n k : Nat) (x : View) : (s.setView n x).byte k = s.byte k := rfl
@[simp] theorem State.setOut_outs (s : State) (n : Nat) (x : Out) : (s.setOut n x).outs = put {} s.outs n x := rfl
theorem State.setOut_out (s : State) (n m : Nat) (x : Out) : (s.setOut n x).out m = if m = n then x else s.out m :=
  look_put _ _ _ _ _
@[simp] theorem State.setOut_out_self (s : State) (n : Nat) (x : Out) : (s.setOut n x).out n = x := look_put_self _ _ _ _
@[simp] theorem State.setOut_w (s : State) (n : Nat) (x : Out) : (s.setOut n x).w = s.w := rfl
@[simp] theorem State.setOut_others (s : State) (n : Nat) (x : Out) : (s.setOut n x).others = s.others := rfl
@[simp] theorem State.setOut_mem (s : State) (n : Nat) (x : Out) : (s.setOut n x).mem = s.mem := rfl
@[simp] theorem State.setOut_bad (s : State) (n : Nat) (x : Out) : (s.setOut n x).bad = s.bad := rfl
@[simp] theorem State.setOut_wgs (s : State) (n : Nat) (x : Out) : (s.setOut n x).wgs = s.wgs := rfl
@[simp] theorem State.setOut_launches (s : State) (n : Nat) (x : Out) : (s.setOut n x).launches = s.launches := rfl
@[simp] theorem State.setOut_kernels (s : State) (n : Nat) (x : Out) : (s.setOut n x).kernels = s.kernels := rfl
@[simp] theorem State.setOut_cores (s : State) (n : Nat) (x : Out) : (s.setOut n x).cores = s.cores := rfl
@[simp] theorem State.setOut_clusters (s : State) (n : Nat) (x : Out) : (s.setOut n x).clusters = s.clusters := rfl
@[simp] theorem State.setOut_dies (s : State) (n : Nat) (x : Out) : (s.setOut n x).dies = s.dies := rfl
@[simp] theorem State.setOut_tabards (s : State) (n : Nat) (x : Out) : (s.setOut n x).tabards = s.tabards := rfl
@[simp] theorem State.setOut_copies (s : State) (n : Nat) (x : Out) : (s.setOut n x).copies = s.copies := rfl
@[simp] theorem State.setOut_sent (s : State) (n : Nat) (x : Out) : (s.setOut n x).sent = s.sent := rfl
@[simp] theorem State.setOut_views (s : State) (n : Nat) (x : Out) : (s.setOut n x).views = s.views := rfl
@[simp] theorem State.setOut_tiles (s : State) (n : Nat) (x : Out) : (s.setOut n x).tiles = s.tiles := rfl
@[simp] theorem State.setOut_queues (s : State) (n : Nat) (x : Out) : (s.setOut n x).queues = s.queues := rfl
@[simp] theorem State.setOut_ctxs (s : State) (n : Nat) (x : Out) : (s.setOut n x).ctxs = s.ctxs := rfl
@[simp] theorem State.setOut_dclk (s : State) (n : Nat) (x : Out) : (s.setOut n x).dclk = s.dclk := rfl
@[simp] theorem State.setOut_free (s : State) (n : Nat) (x : Out) : (s.setOut n x).free = s.free := rfl
@[simp] theorem State.setOut_agenda (s : State) (n : Nat) (x : Out) : (s.setOut n x).agenda = s.agenda := rfl
@[simp] theorem State.setOut_nextWid (s : State) (n : Nat) (x : Out) : (s.setOut n x).nextWid = s.nextWid := rfl
@[simp] theorem State.setOut_core (s : State) (n m : Nat) (x : Out) : (s.setOut n x).core m = s.core m := rfl
@[simp] theorem State.setOut_cluster (s : State) (n m : Nat) (x : Out) : (s.setOut n x).cluster m = s.cluster m := rfl
@[simp] theorem State.setOut_die (s : State) (n m : Nat) (x : Out) : (s.setOut n x).die m = s.die m := rfl
@[simp] theorem State.setOut_wg (s : State) (n m : Nat) (x : Out) : (s.setOut n x).wg m = s.wg m := rfl
@[simp] theorem State.setOut_launch (s : State) (n m : Nat) (x : Out) : (s.setOut n x).launch m = s.launch m := rfl
@[simp] theorem State.setOut_kernel (s : State) (n m : Nat) (x : Out) : (s.setOut n x).kernel m = s.kernel m := rfl
@[simp] theorem State.setOut_ctx (s : State) (n m : Nat) (x : Out) : (s.setOut n x).ctx m = s.ctx m := rfl
@[simp] theorem State.setOut_queue (s : State) (n m : Nat) (x : Out) : (s.setOut n x).queue m = s.queue m := rfl
@[simp] theorem State.setOut_view (s : State) (n m : Nat) (x : Out) : (s.setOut n x).view m = s.view m := rfl
@[simp] theorem State.setOut_byte (s : State) (n k : Nat) (x : Out) : (s.setOut n x).byte k = s.byte k := rfl

/-! ### Registers of a warp -/

@[simp] theorem Warp.setS_s (w : Warp) (d : Nat) (x : W64) (bad : Bool) : (w.setS d x bad).s = put {} w.s d ⟨x, bad⟩ := rfl
@[simp] theorem Warp.setS_p (w : Warp) (d : Nat) (x : W64) (bad : Bool) : (w.setS d x bad).p = w.p := rfl
@[simp] theorem Warp.setS_q (w : Warp) (d : Nat) (x : W64) (bad : Bool) : (w.setS d x bad).q = w.q := rfl
@[simp] theorem Warp.setS_onB (w : Warp) (d : Nat) (x : W64) (bad : Bool) : (w.setS d x bad).onB = w.onB := rfl
@[simp] theorem Warp.setS_recs (w : Warp) (d : Nat) (x : W64) (bad : Bool) : (w.setS d x bad).recs = w.recs := rfl
@[simp] theorem Warp.setS_fsrp (w : Warp) (d : Nat) (x : W64) (bad : Bool) : (w.setS d x bad).fsrp = w.fsrp := rfl
@[simp] theorem Warp.setS_v (w : Warp) (d : Nat) (x : W64) (bad : Bool) : (w.setS d x bad).v = w.v := rfl
@[simp] theorem Warp.setS_spilled (w : Warp) (d : Nat) (x : W64) (bad : Bool) : (w.setS d x bad).spilled = w.spilled := rfl
@[simp] theorem Warp.setS_fse (w : Warp) (d : Nat) (x : W64) (bad : Bool) : (w.setS d x bad).fse = w.fse := rfl
@[simp] theorem Warp.setS_pr (w : Warp) (d : Nat) (x : W64) (bad : Bool) : (w.setS d x bad).pr = w.pr := rfl
@[simp] theorem Warp.setS_tid (w : Warp) (d : Nat) (x : W64) (bad : Bool) : (w.setS d x bad).tid = w.tid := rfl
@[simp] theorem Warp.setS_fflags (w : Warp) (d : Nat) (x : W64) (bad : Bool) : (w.setS d x bad).fflags = w.fflags := rfl
@[simp] theorem Warp.setS_fsbase (w : Warp) (d : Nat) (x : W64) (bad : Bool) : (w.setS d x bad).fsbase = w.fsbase := rfl
@[simp] theorem Warp.setS_fslim (w : Warp) (d : Nat) (x : W64) (bad : Bool) : (w.setS d x bad).fslim = w.fslim := rfl
@[simp] theorem Warp.setS_fshwm (w : Warp) (d : Nat) (x : W64) (bad : Bool) : (w.setS d x bad).fshwm = w.fshwm := rfl
@[simp] theorem Warp.setS_tlevel (w : Warp) (d : Nat) (x : W64) (bad : Bool) : (w.setS d x bad).tlevel = w.tlevel := rfl
@[simp] theorem Warp.setS_bank1 (w : Warp) (d : Nat) (x : W64) (bad : Bool) : (w.setS d x bad).bank1 = w.bank1 := rfl
@[simp] theorem Warp.setS_bank2 (w : Warp) (d : Nat) (x : W64) (bad : Bool) : (w.setS d x bad).bank2 = w.bank2 := rfl
@[simp] theorem Warp.setS_pend (w : Warp) (d : Nat) (x : W64) (bad : Bool) : (w.setS d x bad).pend = w.pend := rfl
@[simp] theorem Warp.setS_tx (w : Warp) (d : Nat) (x : W64) (bad : Bool) : (w.setS d x bad).tx = w.tx := rfl
@[simp] theorem Warp.setS_group (w : Warp) (d : Nat) (x : W64) (bad : Bool) : (w.setS d x bad).group = w.group := rfl
@[simp] theorem Warp.setS_ops (w : Warp) (d : Nat) (x : W64) (bad : Bool) : (w.setS d x bad).ops = w.ops := rfl
@[simp] theorem Warp.setS_cps (w : Warp) (d : Nat) (x : W64) (bad : Bool) : (w.setS d x bad).cps = w.cps := rfl
@[simp] theorem Warp.setS_tls (w : Warp) (d : Nat) (x : W64) (bad : Bool) : (w.setS d x bad).tls = w.tls := rfl
@[simp] theorem Warp.setS_wid (w : Warp) (d : Nat) (x : W64) (bad : Bool) : (w.setS d x bad).wid = w.wid := rfl
@[simp] theorem Warp.setS_core (w : Warp) (d : Nat) (x : W64) (bad : Bool) : (w.setS d x bad).core = w.core := rfl
@[simp] theorem Warp.setS_cluster (w : Warp) (d : Nat) (x : W64) (bad : Bool) : (w.setS d x bad).cluster = w.cluster := rfl
@[simp] theorem Warp.setS_die (w : Warp) (d : Nat) (x : W64) (bad : Bool) : (w.setS d x bad).die = w.die := rfl
@[simp] theorem Warp.setS_wg (w : Warp) (d : Nat) (x : W64) (bad : Bool) : (w.setS d x bad).wg = w.wg := rfl
@[simp] theorem Warp.setS_ctx (w : Warp) (d : Nat) (x : W64) (bad : Bool) : (w.setS d x bad).ctx = w.ctx := rfl
@[simp] theorem Warp.setS_role (w : Warp) (d : Nat) (x : W64) (bad : Bool) : (w.setS d x bad).role = w.role := rfl
@[simp] theorem Warp.setS_budget (w : Warp) (d : Nat) (x : W64) (bad : Bool) : (w.setS d x bad).budget = w.budget := rfl
@[simp] theorem Warp.setS_block (w : Warp) (d : Nat) (x : W64) (bad : Bool) : (w.setS d x bad).block = w.block := rfl
@[simp] theorem Warp.setS_retry (w : Warp) (d : Nat) (x : W64) (bad : Bool) : (w.setS d x bad).retry = w.retry := rfl
@[simp] theorem Warp.setL_v (w : Warp) (n l : Nat) (x : LW) : (w.setL n l x).v = put {} w.v (32 * (w.p.wbase + n) + l) x := rfl
@[simp] theorem Warp.setL_p (w : Warp) (n l : Nat) (x : LW) : (w.setL n l x).p = w.p := rfl
@[simp] theorem Warp.setL_q (w : Warp) (n l : Nat) (x : LW) : (w.setL n l x).q = w.q := rfl
@[simp] theorem Warp.setL_onB (w : Warp) (n l : Nat) (x : LW) : (w.setL n l x).onB = w.onB := rfl
@[simp] theorem Warp.setL_recs (w : Warp) (n l : Nat) (x : LW) : (w.setL n l x).recs = w.recs := rfl
@[simp] theorem Warp.setL_fsrp (w : Warp) (n l : Nat) (x : LW) : (w.setL n l x).fsrp = w.fsrp := rfl
@[simp] theorem Warp.setL_spilled (w : Warp) (n l : Nat) (x : LW) : (w.setL n l x).spilled = w.spilled := rfl
@[simp] theorem Warp.setL_fse (w : Warp) (n l : Nat) (x : LW) : (w.setL n l x).fse = w.fse := rfl
@[simp] theorem Warp.setL_s (w : Warp) (n l : Nat) (x : LW) : (w.setL n l x).s = w.s := rfl
@[simp] theorem Warp.setL_pr (w : Warp) (n l : Nat) (x : LW) : (w.setL n l x).pr = w.pr := rfl
@[simp] theorem Warp.setL_tid (w : Warp) (n l : Nat) (x : LW) : (w.setL n l x).tid = w.tid := rfl
@[simp] theorem Warp.setL_fflags (w : Warp) (n l : Nat) (x : LW) : (w.setL n l x).fflags = w.fflags := rfl
@[simp] theorem Warp.setL_fsbase (w : Warp) (n l : Nat) (x : LW) : (w.setL n l x).fsbase = w.fsbase := rfl
@[simp] theorem Warp.setL_fslim (w : Warp) (n l : Nat) (x : LW) : (w.setL n l x).fslim = w.fslim := rfl
@[simp] theorem Warp.setL_fshwm (w : Warp) (n l : Nat) (x : LW) : (w.setL n l x).fshwm = w.fshwm := rfl
@[simp] theorem Warp.setL_tlevel (w : Warp) (n l : Nat) (x : LW) : (w.setL n l x).tlevel = w.tlevel := rfl
@[simp] theorem Warp.setL_bank1 (w : Warp) (n l : Nat) (x : LW) : (w.setL n l x).bank1 = w.bank1 := rfl
@[simp] theorem Warp.setL_bank2 (w : Warp) (n l : Nat) (x : LW) : (w.setL n l x).bank2 = w.bank2 := rfl
@[simp] theorem Warp.setL_pend (w : Warp) (n l : Nat) (x : LW) : (w.setL n l x).pend = w.pend := rfl
@[simp] theorem Warp.setL_tx (w : Warp) (n l : Nat) (x : LW) : (w.setL n l x).tx = w.tx := rfl
@[simp] theorem Warp.setL_group (w : Warp) (n l : Nat) (x : LW) : (w.setL n l x).group = w.group := rfl
@[simp] theorem Warp.setL_ops (w : Warp) (n l : Nat) (x : LW) : (w.setL n l x).ops = w.ops := rfl
@[simp] theorem Warp.setL_cps (w : Warp) (n l : Nat) (x : LW) : (w.setL n l x).cps = w.cps := rfl
@[simp] theorem Warp.setL_tls (w : Warp) (n l : Nat) (x : LW) : (w.setL n l x).tls = w.tls := rfl
@[simp] theorem Warp.setL_wid (w : Warp) (n l : Nat) (x : LW) : (w.setL n l x).wid = w.wid := rfl
@[simp] theorem Warp.setL_core (w : Warp) (n l : Nat) (x : LW) : (w.setL n l x).core = w.core := rfl
@[simp] theorem Warp.setL_cluster (w : Warp) (n l : Nat) (x : LW) : (w.setL n l x).cluster = w.cluster := rfl
@[simp] theorem Warp.setL_die (w : Warp) (n l : Nat) (x : LW) : (w.setL n l x).die = w.die := rfl
@[simp] theorem Warp.setL_wg (w : Warp) (n l : Nat) (x : LW) : (w.setL n l x).wg = w.wg := rfl
@[simp] theorem Warp.setL_ctx (w : Warp) (n l : Nat) (x : LW) : (w.setL n l x).ctx = w.ctx := rfl
@[simp] theorem Warp.setL_role (w : Warp) (n l : Nat) (x : LW) : (w.setL n l x).role = w.role := rfl
@[simp] theorem Warp.setL_budget (w : Warp) (n l : Nat) (x : LW) : (w.setL n l x).budget = w.budget := rfl
@[simp] theorem Warp.setL_block (w : Warp) (n l : Nat) (x : LW) : (w.setL n l x).block = w.block := rfl
@[simp] theorem Warp.setL_retry (w : Warp) (n l : Nat) (x : LW) : (w.setL n l x).retry = w.retry := rfl
@[simp] theorem Warp.orFlags_fflags (w : Warp) (fl : BitVec 5) : (w.orFlags fl).fflags = w.fflags ||| fl := rfl
@[simp] theorem Warp.orFlags_p (w : Warp) (fl : BitVec 5) : (w.orFlags fl).p = w.p := rfl
@[simp] theorem Warp.orFlags_q (w : Warp) (fl : BitVec 5) : (w.orFlags fl).q = w.q := rfl
@[simp] theorem Warp.orFlags_onB (w : Warp) (fl : BitVec 5) : (w.orFlags fl).onB = w.onB := rfl
@[simp] theorem Warp.orFlags_recs (w : Warp) (fl : BitVec 5) : (w.orFlags fl).recs = w.recs := rfl
@[simp] theorem Warp.orFlags_fsrp (w : Warp) (fl : BitVec 5) : (w.orFlags fl).fsrp = w.fsrp := rfl
@[simp] theorem Warp.orFlags_v (w : Warp) (fl : BitVec 5) : (w.orFlags fl).v = w.v := rfl
@[simp] theorem Warp.orFlags_spilled (w : Warp) (fl : BitVec 5) : (w.orFlags fl).spilled = w.spilled := rfl
@[simp] theorem Warp.orFlags_fse (w : Warp) (fl : BitVec 5) : (w.orFlags fl).fse = w.fse := rfl
@[simp] theorem Warp.orFlags_s (w : Warp) (fl : BitVec 5) : (w.orFlags fl).s = w.s := rfl
@[simp] theorem Warp.orFlags_pr (w : Warp) (fl : BitVec 5) : (w.orFlags fl).pr = w.pr := rfl
@[simp] theorem Warp.orFlags_tid (w : Warp) (fl : BitVec 5) : (w.orFlags fl).tid = w.tid := rfl
@[simp] theorem Warp.orFlags_fsbase (w : Warp) (fl : BitVec 5) : (w.orFlags fl).fsbase = w.fsbase := rfl
@[simp] theorem Warp.orFlags_fslim (w : Warp) (fl : BitVec 5) : (w.orFlags fl).fslim = w.fslim := rfl
@[simp] theorem Warp.orFlags_fshwm (w : Warp) (fl : BitVec 5) : (w.orFlags fl).fshwm = w.fshwm := rfl
@[simp] theorem Warp.orFlags_tlevel (w : Warp) (fl : BitVec 5) : (w.orFlags fl).tlevel = w.tlevel := rfl
@[simp] theorem Warp.orFlags_bank1 (w : Warp) (fl : BitVec 5) : (w.orFlags fl).bank1 = w.bank1 := rfl
@[simp] theorem Warp.orFlags_bank2 (w : Warp) (fl : BitVec 5) : (w.orFlags fl).bank2 = w.bank2 := rfl
@[simp] theorem Warp.orFlags_pend (w : Warp) (fl : BitVec 5) : (w.orFlags fl).pend = w.pend := rfl
@[simp] theorem Warp.orFlags_tx (w : Warp) (fl : BitVec 5) : (w.orFlags fl).tx = w.tx := rfl
@[simp] theorem Warp.orFlags_group (w : Warp) (fl : BitVec 5) : (w.orFlags fl).group = w.group := rfl
@[simp] theorem Warp.orFlags_ops (w : Warp) (fl : BitVec 5) : (w.orFlags fl).ops = w.ops := rfl
@[simp] theorem Warp.orFlags_cps (w : Warp) (fl : BitVec 5) : (w.orFlags fl).cps = w.cps := rfl
@[simp] theorem Warp.orFlags_tls (w : Warp) (fl : BitVec 5) : (w.orFlags fl).tls = w.tls := rfl
@[simp] theorem Warp.orFlags_wid (w : Warp) (fl : BitVec 5) : (w.orFlags fl).wid = w.wid := rfl
@[simp] theorem Warp.orFlags_core (w : Warp) (fl : BitVec 5) : (w.orFlags fl).core = w.core := rfl
@[simp] theorem Warp.orFlags_cluster (w : Warp) (fl : BitVec 5) : (w.orFlags fl).cluster = w.cluster := rfl
@[simp] theorem Warp.orFlags_die (w : Warp) (fl : BitVec 5) : (w.orFlags fl).die = w.die := rfl
@[simp] theorem Warp.orFlags_wg (w : Warp) (fl : BitVec 5) : (w.orFlags fl).wg = w.wg := rfl
@[simp] theorem Warp.orFlags_ctx (w : Warp) (fl : BitVec 5) : (w.orFlags fl).ctx = w.ctx := rfl
@[simp] theorem Warp.orFlags_role (w : Warp) (fl : BitVec 5) : (w.orFlags fl).role = w.role := rfl
@[simp] theorem Warp.orFlags_budget (w : Warp) (fl : BitVec 5) : (w.orFlags fl).budget = w.budget := rfl
@[simp] theorem Warp.orFlags_block (w : Warp) (fl : BitVec 5) : (w.orFlags fl).block = w.block := rfl
@[simp] theorem Warp.orFlags_retry (w : Warp) (fl : BitVec 5) : (w.orFlags fl).retry = w.retry := rfl
@[simp] theorem Warp.setTxl_tx (w : Warp) (l : Nat) (t : TxLane) : (w.setTxl l t).tx = put {} w.tx l t := rfl
@[simp] theorem Warp.setTxl_p (w : Warp) (l : Nat) (t : TxLane) : (w.setTxl l t).p = w.p := rfl
@[simp] theorem Warp.setTxl_q (w : Warp) (l : Nat) (t : TxLane) : (w.setTxl l t).q = w.q := rfl
@[simp] theorem Warp.setTxl_onB (w : Warp) (l : Nat) (t : TxLane) : (w.setTxl l t).onB = w.onB := rfl
@[simp] theorem Warp.setTxl_recs (w : Warp) (l : Nat) (t : TxLane) : (w.setTxl l t).recs = w.recs := rfl
@[simp] theorem Warp.setTxl_fsrp (w : Warp) (l : Nat) (t : TxLane) : (w.setTxl l t).fsrp = w.fsrp := rfl
@[simp] theorem Warp.setTxl_v (w : Warp) (l : Nat) (t : TxLane) : (w.setTxl l t).v = w.v := rfl
@[simp] theorem Warp.setTxl_spilled (w : Warp) (l : Nat) (t : TxLane) : (w.setTxl l t).spilled = w.spilled := rfl
@[simp] theorem Warp.setTxl_fse (w : Warp) (l : Nat) (t : TxLane) : (w.setTxl l t).fse = w.fse := rfl
@[simp] theorem Warp.setTxl_s (w : Warp) (l : Nat) (t : TxLane) : (w.setTxl l t).s = w.s := rfl
@[simp] theorem Warp.setTxl_pr (w : Warp) (l : Nat) (t : TxLane) : (w.setTxl l t).pr = w.pr := rfl
@[simp] theorem Warp.setTxl_tid (w : Warp) (l : Nat) (t : TxLane) : (w.setTxl l t).tid = w.tid := rfl
@[simp] theorem Warp.setTxl_fflags (w : Warp) (l : Nat) (t : TxLane) : (w.setTxl l t).fflags = w.fflags := rfl
@[simp] theorem Warp.setTxl_fsbase (w : Warp) (l : Nat) (t : TxLane) : (w.setTxl l t).fsbase = w.fsbase := rfl
@[simp] theorem Warp.setTxl_fslim (w : Warp) (l : Nat) (t : TxLane) : (w.setTxl l t).fslim = w.fslim := rfl
@[simp] theorem Warp.setTxl_fshwm (w : Warp) (l : Nat) (t : TxLane) : (w.setTxl l t).fshwm = w.fshwm := rfl
@[simp] theorem Warp.setTxl_tlevel (w : Warp) (l : Nat) (t : TxLane) : (w.setTxl l t).tlevel = w.tlevel := rfl
@[simp] theorem Warp.setTxl_bank1 (w : Warp) (l : Nat) (t : TxLane) : (w.setTxl l t).bank1 = w.bank1 := rfl
@[simp] theorem Warp.setTxl_bank2 (w : Warp) (l : Nat) (t : TxLane) : (w.setTxl l t).bank2 = w.bank2 := rfl
@[simp] theorem Warp.setTxl_pend (w : Warp) (l : Nat) (t : TxLane) : (w.setTxl l t).pend = w.pend := rfl
@[simp] theorem Warp.setTxl_group (w : Warp) (l : Nat) (t : TxLane) : (w.setTxl l t).group = w.group := rfl
@[simp] theorem Warp.setTxl_ops (w : Warp) (l : Nat) (t : TxLane) : (w.setTxl l t).ops = w.ops := rfl
@[simp] theorem Warp.setTxl_cps (w : Warp) (l : Nat) (t : TxLane) : (w.setTxl l t).cps = w.cps := rfl
@[simp] theorem Warp.setTxl_tls (w : Warp) (l : Nat) (t : TxLane) : (w.setTxl l t).tls = w.tls := rfl
@[simp] theorem Warp.setTxl_wid (w : Warp) (l : Nat) (t : TxLane) : (w.setTxl l t).wid = w.wid := rfl
@[simp] theorem Warp.setTxl_core (w : Warp) (l : Nat) (t : TxLane) : (w.setTxl l t).core = w.core := rfl
@[simp] theorem Warp.setTxl_cluster (w : Warp) (l : Nat) (t : TxLane) : (w.setTxl l t).cluster = w.cluster := rfl
@[simp] theorem Warp.setTxl_die (w : Warp) (l : Nat) (t : TxLane) : (w.setTxl l t).die = w.die := rfl
@[simp] theorem Warp.setTxl_wg (w : Warp) (l : Nat) (t : TxLane) : (w.setTxl l t).wg = w.wg := rfl
@[simp] theorem Warp.setTxl_ctx (w : Warp) (l : Nat) (t : TxLane) : (w.setTxl l t).ctx = w.ctx := rfl
@[simp] theorem Warp.setTxl_role (w : Warp) (l : Nat) (t : TxLane) : (w.setTxl l t).role = w.role := rfl
@[simp] theorem Warp.setTxl_budget (w : Warp) (l : Nat) (t : TxLane) : (w.setTxl l t).budget = w.budget := rfl
@[simp] theorem Warp.setTxl_block (w : Warp) (l : Nat) (t : TxLane) : (w.setTxl l t).block = w.block := rfl
@[simp] theorem Warp.setTxl_retry (w : Warp) (l : Nat) (t : TxLane) : (w.setTxl l t).retry = w.retry := rfl

/-- A scalar register after a write. -/
theorem Warp.setS_sr (w : Warp) (d : Nat) (x : W64) (bad : Bool) (n : Nat) :
    (w.setS d x bad).sr n = if n = d then ⟨x, bad⟩ else w.sr n := look_put _ _ _ _ _

@[simp] theorem Warp.setS_vl (w : Warp) (d : Nat) (x : W64) (bad : Bool) (n l : Nat) : (w.setS d x bad).vl n l = w.vl n l := rfl

/-- A lane of a vector register after a write. -/
theorem Warp.setL_vl (w : Warp) (n l : Nat) (x : LW) (m k : Nat) (hl : l < 32) (hk : k < 32) :
    (w.setL n l x).vl m k = if m = n ∧ k = l then x else w.vl m k := by
  have h : (w.setL n l x).vl m k = if 32 * (w.p.wbase + m) + k = 32 * (w.p.wbase + n) + l then x else w.vl m k :=
    look_put _ _ _ _ _
  rw [h]
  by_cases e : m = n ∧ k = l
  · rw [if_pos e, if_pos (by omega)]
  · rw [if_neg e, if_neg (by omega)]

@[simp] theorem Warp.setL_sr (w : Warp) (n l : Nat) (x : LW) (m : Nat) : (w.setL n l x).sr m = w.sr m := rfl

/-- The transaction of a lane after a write. -/
theorem Warp.setTxl_txl (w : Warp) (l : Nat) (t : TxLane) (m : Nat) : (w.setTxl l t).txl m = if m = l then t else w.txl m :=
  look_put _ _ _ _ _

/-! ### What an instruction that ends leaves of the state -/

@[simp] theorem fell_others (len : Nat) (s : State) : (fell len s).others = s.others := rfl
@[simp] theorem fell_mem (len : Nat) (s : State) : (fell len s).mem = s.mem := rfl
@[simp] theorem fell_bad (len : Nat) (s : State) : (fell len s).bad = s.bad := rfl
@[simp] theorem fell_wgs (len : Nat) (s : State) : (fell len s).wgs = s.wgs := rfl
@[simp] theorem fell_launches (len : Nat) (s : State) : (fell len s).launches = s.launches := rfl
@[simp] theorem fell_kernels (len : Nat) (s : State) : (fell len s).kernels = s.kernels := rfl
@[simp] theorem fell_cores (len : Nat) (s : State) : (fell len s).cores = s.cores := rfl
@[simp] theorem fell_clusters (len : Nat) (s : State) : (fell len s).clusters = s.clusters := rfl
@[simp] theorem fell_dies (len : Nat) (s : State) : (fell len s).dies = s.dies := rfl
@[simp] theorem fell_tabards (len : Nat) (s : State) : (fell len s).tabards = s.tabards := rfl
@[simp] theorem fell_copies (len : Nat) (s : State) : (fell len s).copies = s.copies := rfl
@[simp] theorem fell_sent (len : Nat) (s : State) : (fell len s).sent = s.sent := rfl
@[simp] theorem fell_views (len : Nat) (s : State) : (fell len s).views = s.views := rfl
@[simp] theorem fell_outs (len : Nat) (s : State) : (fell len s).outs = s.outs := rfl
@[simp] theorem fell_tiles (len : Nat) (s : State) : (fell len s).tiles = s.tiles := rfl
@[simp] theorem fell_queues (len : Nat) (s : State) : (fell len s).queues = s.queues := rfl
@[simp] theorem fell_ctxs (len : Nat) (s : State) : (fell len s).ctxs = s.ctxs := rfl
@[simp] theorem fell_dclk (len : Nat) (s : State) : (fell len s).dclk = s.dclk := rfl
@[simp] theorem fell_free (len : Nat) (s : State) : (fell len s).free = s.free := rfl
@[simp] theorem fell_agenda (len : Nat) (s : State) : (fell len s).agenda = s.agenda := rfl
@[simp] theorem fell_nextWid (len : Nat) (s : State) : (fell len s).nextWid = s.nextWid := rfl
@[simp] theorem fell_core (len : Nat) (s : State) (m : Nat) : (fell len s).core m = s.core m := rfl
@[simp] theorem fell_cluster (len : Nat) (s : State) (m : Nat) : (fell len s).cluster m = s.cluster m := rfl
@[simp] theorem fell_die (len : Nat) (s : State) (m : Nat) : (fell len s).die m = s.die m := rfl
@[simp] theorem fell_wg (len : Nat) (s : State) (m : Nat) : (fell len s).wg m = s.wg m := rfl
@[simp] theorem fell_launch (len : Nat) (s : State) (m : Nat) : (fell len s).launch m = s.launch m := rfl
@[simp] theorem fell_kernel (len : Nat) (s : State) (m : Nat) : (fell len s).kernel m = s.kernel m := rfl
@[simp] theorem fell_ctx (len : Nat) (s : State) (m : Nat) : (fell len s).ctx m = s.ctx m := rfl
@[simp] theorem fell_queue (len : Nat) (s : State) (m : Nat) : (fell len s).queue m = s.queue m := rfl
@[simp] theorem fell_view (len : Nat) (s : State) (m : Nat) : (fell len s).view m = s.view m := rfl
@[simp] theorem fell_out (len : Nat) (s : State) (m : Nat) : (fell len s).out m = s.out m := rfl
@[simp] theorem fell_byte (len : Nat) (s : State) (k : Nat) : (fell len s).byte k = s.byte k := rfl
@[simp] theorem waits_others (code : Nat) (s : State) : (waits code s).others = s.others := rfl
@[simp] theorem waits_mem (code : Nat) (s : State) : (waits code s).mem = s.mem := rfl
@[simp] theorem waits_bad (code : Nat) (s : State) : (waits code s).bad = s.bad := rfl
@[simp] theorem waits_wgs (code : Nat) (s : State) : (waits code s).wgs = s.wgs := rfl
@[simp] theorem waits_launches (code : Nat) (s : State) : (waits code s).launches = s.launches := rfl
@[simp] theorem waits_kernels (code : Nat) (s : State) : (waits code s).kernels = s.kernels := rfl
@[simp] theorem waits_cores (code : Nat) (s : State) : (waits code s).cores = s.cores := rfl
@[simp] theorem waits_clusters (code : Nat) (s : State) : (waits code s).clusters = s.clusters := rfl
@[simp] theorem waits_dies (code : Nat) (s : State) : (waits code s).dies = s.dies := rfl
@[simp] theorem waits_tabards (code : Nat) (s : State) : (waits code s).tabards = s.tabards := rfl
@[simp] theorem waits_copies (code : Nat) (s : State) : (waits code s).copies = s.copies := rfl
@[simp] theorem waits_sent (code : Nat) (s : State) : (waits code s).sent = s.sent := rfl
@[simp] theorem waits_views (code : Nat) (s : State) : (waits code s).views = s.views := rfl
@[simp] theorem waits_outs (code : Nat) (s : State) : (waits code s).outs = s.outs := rfl
@[simp] theorem waits_tiles (code : Nat) (s : State) : (waits code s).tiles = s.tiles := rfl
@[simp] theorem waits_queues (code : Nat) (s : State) : (waits code s).queues = s.queues := rfl
@[simp] theorem waits_ctxs (code : Nat) (s : State) : (waits code s).ctxs = s.ctxs := rfl
@[simp] theorem waits_dclk (code : Nat) (s : State) : (waits code s).dclk = s.dclk := rfl
@[simp] theorem waits_free (code : Nat) (s : State) : (waits code s).free = s.free := rfl
@[simp] theorem waits_agenda (code : Nat) (s : State) : (waits code s).agenda = s.agenda := rfl
@[simp] theorem waits_nextWid (code : Nat) (s : State) : (waits code s).nextWid = s.nextWid := rfl
@[simp] theorem waits_core (code : Nat) (s : State) (m : Nat) : (waits code s).core m = s.core m := rfl
@[simp] theorem waits_cluster (code : Nat) (s : State) (m : Nat) : (waits code s).cluster m = s.cluster m := rfl
@[simp] theorem waits_die (code : Nat) (s : State) (m : Nat) : (waits code s).die m = s.die m := rfl
@[simp] theorem waits_wg (code : Nat) (s : State) (m : Nat) : (waits code s).wg m = s.wg m := rfl
@[simp] theorem waits_launch (code : Nat) (s : State) (m : Nat) : (waits code s).launch m = s.launch m := rfl
@[simp] theorem waits_kernel (code : Nat) (s : State) (m : Nat) : (waits code s).kernel m = s.kernel m := rfl
@[simp] theorem waits_ctx (code : Nat) (s : State) (m : Nat) : (waits code s).ctx m = s.ctx m := rfl
@[simp] theorem waits_queue (code : Nat) (s : State) (m : Nat) : (waits code s).queue m = s.queue m := rfl
@[simp] theorem waits_view (code : Nat) (s : State) (m : Nat) : (waits code s).view m = s.view m := rfl
@[simp] theorem waits_out (code : Nat) (s : State) (m : Nat) : (waits code s).out m = s.out m := rfl
@[simp] theorem waits_byte (code : Nat) (s : State) (k : Nat) : (waits code s).byte k = s.byte k := rfl
@[simp] theorem blocked_others (code : Nat) (s : State) : (blocked code s).others = s.others := rfl
@[simp] theorem blocked_mem (code : Nat) (s : State) : (blocked code s).mem = s.mem := rfl
@[simp] theorem blocked_bad (code : Nat) (s : State) : (blocked code s).bad = s.bad := rfl
@[simp] theorem blocked_wgs (code : Nat) (s : State) : (blocked code s).wgs = s.wgs := rfl
@[simp] theorem blocked_launches (code : Nat) (s : State) : (blocked code s).launches = s.launches := rfl
@[simp] theorem blocked_kernels (code : Nat) (s : State) : (blocked code s).kernels = s.kernels := rfl
@[simp] theorem blocked_cores (code : Nat) (s : State) : (blocked code s).cores = s.cores := rfl
@[simp] theorem blocked_clusters (code : Nat) (s : State) : (blocked code s).clusters = s.clusters := rfl
@[simp] theorem blocked_dies (code : Nat) (s : State) : (blocked code s).dies = s.dies := rfl
@[simp] theorem blocked_tabards (code : Nat) (s : State) : (blocked code s).tabards = s.tabards := rfl
@[simp] theorem blocked_copies (code : Nat) (s : State) : (blocked code s).copies = s.copies := rfl
@[simp] theorem blocked_sent (code : Nat) (s : State) : (blocked code s).sent = s.sent := rfl
@[simp] theorem blocked_views (code : Nat) (s : State) : (blocked code s).views = s.views := rfl
@[simp] theorem blocked_outs (code : Nat) (s : State) : (blocked code s).outs = s.outs := rfl
@[simp] theorem blocked_tiles (code : Nat) (s : State) : (blocked code s).tiles = s.tiles := rfl
@[simp] theorem blocked_queues (code : Nat) (s : State) : (blocked code s).queues = s.queues := rfl
@[simp] theorem blocked_ctxs (code : Nat) (s : State) : (blocked code s).ctxs = s.ctxs := rfl
@[simp] theorem blocked_dclk (code : Nat) (s : State) : (blocked code s).dclk = s.dclk := rfl
@[simp] theorem blocked_free (code : Nat) (s : State) : (blocked code s).free = s.free := rfl
@[simp] theorem blocked_agenda (code : Nat) (s : State) : (blocked code s).agenda = s.agenda := rfl
@[simp] theorem blocked_nextWid (code : Nat) (s : State) : (blocked code s).nextWid = s.nextWid := rfl
@[simp] theorem blocked_core (code : Nat) (s : State) (m : Nat) : (blocked code s).core m = s.core m := rfl
@[simp] theorem blocked_cluster (code : Nat) (s : State) (m : Nat) : (blocked code s).cluster m = s.cluster m := rfl
@[simp] theorem blocked_die (code : Nat) (s : State) (m : Nat) : (blocked code s).die m = s.die m := rfl
@[simp] theorem blocked_wg (code : Nat) (s : State) (m : Nat) : (blocked code s).wg m = s.wg m := rfl
@[simp] theorem blocked_launch (code : Nat) (s : State) (m : Nat) : (blocked code s).launch m = s.launch m := rfl
@[simp] theorem blocked_kernel (code : Nat) (s : State) (m : Nat) : (blocked code s).kernel m = s.kernel m := rfl
@[simp] theorem blocked_ctx (code : Nat) (s : State) (m : Nat) : (blocked code s).ctx m = s.ctx m := rfl
@[simp] theorem blocked_queue (code : Nat) (s : State) (m : Nat) : (blocked code s).queue m = s.queue m := rfl
@[simp] theorem blocked_view (code : Nat) (s : State) (m : Nat) : (blocked code s).view m = s.view m := rfl
@[simp] theorem blocked_out (code : Nat) (s : State) (m : Nat) : (blocked code s).out m = s.out m := rfl
@[simp] theorem blocked_byte (code : Nat) (s : State) (k : Nat) : (blocked code s).byte k = s.byte k := rfl
@[simp] theorem issued_others (s : State) : (issued s).others = s.others := rfl
@[simp] theorem issued_mem (s : State) : (issued s).mem = s.mem := rfl
@[simp] theorem issued_bad (s : State) : (issued s).bad = s.bad := rfl
@[simp] theorem issued_wgs (s : State) : (issued s).wgs = s.wgs := rfl
@[simp] theorem issued_launches (s : State) : (issued s).launches = s.launches := rfl
@[simp] theorem issued_kernels (s : State) : (issued s).kernels = s.kernels := rfl
@[simp] theorem issued_cores (s : State) : (issued s).cores = s.cores := rfl
@[simp] theorem issued_clusters (s : State) : (issued s).clusters = s.clusters := rfl
@[simp] theorem issued_dies (s : State) : (issued s).dies = s.dies := rfl
@[simp] theorem issued_tabards (s : State) : (issued s).tabards = s.tabards := rfl
@[simp] theorem issued_copies (s : State) : (issued s).copies = s.copies := rfl
@[simp] theorem issued_sent (s : State) : (issued s).sent = s.sent := rfl
@[simp] theorem issued_views (s : State) : (issued s).views = s.views := rfl
@[simp] theorem issued_outs (s : State) : (issued s).outs = s.outs := rfl
@[simp] theorem issued_tiles (s : State) : (issued s).tiles = s.tiles := rfl
@[simp] theorem issued_queues (s : State) : (issued s).queues = s.queues := rfl
@[simp] theorem issued_ctxs (s : State) : (issued s).ctxs = s.ctxs := rfl
@[simp] theorem issued_dclk (s : State) : (issued s).dclk = s.dclk := rfl
@[simp] theorem issued_free (s : State) : (issued s).free = s.free := rfl
@[simp] theorem issued_agenda (s : State) : (issued s).agenda = s.agenda := rfl
@[simp] theorem issued_nextWid (s : State) : (issued s).nextWid = s.nextWid := rfl
@[simp] theorem issued_core (s : State) (m : Nat) : (issued s).core m = s.core m := rfl
@[simp] theorem issued_cluster (s : State) (m : Nat) : (issued s).cluster m = s.cluster m := rfl
@[simp] theorem issued_die (s : State) (m : Nat) : (issued s).die m = s.die m := rfl
@[simp] theorem issued_wg (s : State) (m : Nat) : (issued s).wg m = s.wg m := rfl
@[simp] theorem issued_launch (s : State) (m : Nat) : (issued s).launch m = s.launch m := rfl
@[simp] theorem issued_kernel (s : State) (m : Nat) : (issued s).kernel m = s.kernel m := rfl
@[simp] theorem issued_ctx (s : State) (m : Nat) : (issued s).ctx m = s.ctx m := rfl
@[simp] theorem issued_queue (s : State) (m : Nat) : (issued s).queue m = s.queue m := rfl
@[simp] theorem issued_view (s : State) (m : Nat) : (issued s).view m = s.view m := rfl
@[simp] theorem issued_out (s : State) (m : Nat) : (issued s).out m = s.out m := rfl
@[simp] theorem issued_byte (s : State) (k : Nat) : (issued s).byte k = s.byte k := rfl

end Sys2Proof.Machine
end

