-- ==== Sys2Proof/Laws/Frame.lean ====
section
/-! SUPPORT. Settling (R35 to R39, R44) changes the paths and the records of a warp and what
the FSE holds for these records, and nothing else of it. -/

namespace Sys2Proof.Machine

/-- Nothing but the paths, the slot on turn and the records of the record area has changed, and no access that the FSE holds is
new. -/
def PathsOnly (w w' : Warp) : Prop :=
  ∃ (p q : Path) (b : Bool) (rs : List Rec) (f : Nat) (e : List FseFault),
    (∀ x ∈ e, x ∈ w.fse) ∧ w' = { w with p := p, q := q, onB := b, recs := rs, fsrp := f, fse := e }

theorem PathsOnly.refl (w : Warp) : PathsOnly w w := ⟨w.p, w.q, w.onB, w.recs, w.fsrp, w.fse, fun _ h => h, rfl⟩

theorem PathsOnly.trans {a b c : Warp} (h : PathsOnly a b) (k : PathsOnly b c) : PathsOnly a c := by
  obtain ⟨p, q, o, rs, f, e, he, rfl⟩ := h
  obtain ⟨p', q', o', rs', f', e', he', rfl⟩ := k
  exact ⟨p', q', o', rs', f', e', fun x hx => he x (he' x hx), rfl⟩

theorem PathsOnly.of (w : Warp) (p q : Path) (b : Bool) (rs : List Rec) (f : Nat) :
    PathsOnly w { w with p := p, q := q, onB := b, recs := rs, fsrp := f } := ⟨p, q, b, rs, f, w.fse, fun _ h => h, rfl⟩

theorem pathsOnly_flip (w : Warp) : PathsOnly w w.flip := .of w _ _ _ _ _

theorem pathsOnly_freeRec (w : Warp) (off : Nat) : PathsOnly w (w.freeRec off) := .of w w.p w.q w.onB _ _

theorem pathsOnly_setRec (w : Warp) (off : Nat) (b : RecBody) : PathsOnly w (w.setRec off b) := .of w w.p w.q w.onB _ w.fsrp

theorem pathsOnly_p (w : Warp) (p : Path) : PathsOnly w { w with p := p } := .of w p w.q w.onB w.recs w.fsrp

theorem pathsOnly_pq (w : Warp) (p q : Path) : PathsOnly w { w with p := p, q := q } := .of w p q w.onB w.recs w.fsrp

theorem pathsOnly_parkOther (w : Warp) : PathsOnly w w.parkOther := by
  dsimp only [Warp.parkOther]; split
  · exact pathsOnly_pq w _ _
  · exact pathsOnly_p w _

theorem pathsOnly_seekMerge {w w' : Warp} (h : w.seekMerge = some w') : PathsOnly w w' := by
  unfold Warp.seekMerge at h
  split at h
  · cases h; exact pathsOnly_pq _ _ _
  · split at h
    · split at h
      · cases h; exact (pathsOnly_p _ _).trans (pathsOnly_freeRec _ _)
      · cases h
    · cases h

theorem pathsOnly_exchange {w w' : Warp} (h : w.exchange = some w') : PathsOnly w w' := by
  unfold Warp.exchange at h
  split at h
  · split at h
    · cases h; exact ((pathsOnly_p _ _).trans (pathsOnly_setRec _ _ _)).trans (pathsOnly_parkOther _)
    · cases h
  · cases h

theorem pathsOnly_owe (b : Bool) (w : Warp) : PathsOnly w (w.owe b) := by
  unfold Warp.owe; split
  · exact pathsOnly_p w _
  · exact .refl w

theorem pathsOnly_arrive (n : Nat) (became : Bool) (w : Warp) : PathsOnly w (Warp.arrive n became w) := by
  induction n generalizing became w with
  | zero => exact .refl w
  | succ n ih =>
    unfold Warp.arrive
    split
    · exact .refl w
    · split
      · exact .refl w
      · split
        · exact (pathsOnly_p _ _).trans (ih _ _)
        · exact .refl w
      · split
        · rename_i h; exact (pathsOnly_seekMerge h).trans (ih _ _)
        · split
          · split
            · rename_i h; exact (pathsOnly_exchange h).trans (ih _ _)
            · exact pathsOnly_owe _ w
          · exact pathsOnly_owe _ w

theorem pathsOnly_arriveQ (b : Bool) (w : Warp) : PathsOnly w (w.arriveQ b) :=
  ((pathsOnly_flip w).trans (pathsOnly_arrive _ _ _)).trans (pathsOnly_flip _)

theorem pathsOnly_refillP {w w' : Warp} (h : w.refillP = some w') : PathsOnly w w' := by
  unfold Warp.refillP at h
  split at h
  · cases h
  · split at h
    · split at h
      · cases h; exact ((pathsOnly_p _ _).trans (pathsOnly_freeRec _ _)).trans (pathsOnly_arrive _ _ _)
      · cases h
    · cases h

theorem pathsOnly_unparkP {w w' : Warp} (h : w.unparkP = some w') : PathsOnly w w' := by
  unfold Warp.unparkP at h
  split at h
  · cases h; exact (pathsOnly_p _ _).trans (pathsOnly_arrive _ _ _)
  · cases h

theorem pathsOnly_settleOwed {w w' : Warp} (h : w.settleOwed = some w') : PathsOnly w w' := by
  unfold Warp.settleOwed at h
  split at h
  · cases h
  · split at h
    · cases h
    · cases h; exact (pathsOnly_p _ _).trans (pathsOnly_arrive _ _ _)

theorem pathsOnly_releaseAll {w w' : Warp} (h : w.releaseAll = some w') : PathsOnly w w' := by
  unfold Warp.releaseAll at h
  split at h
  · cases h
  · split at h
    · cases h
      exact ((PathsOnly.of w _ _ w.onB _ w.fsrp).trans (pathsOnly_arrive _ _ _)).trans (pathsOnly_arriveQ _ _)
    · cases h

theorem pathsOnly_flipIf (b : Bool) (w : Warp) : PathsOnly w (if b then w.flip else w) := by
  split
  · exact pathsOnly_flip w
  · exact .refl w

theorem pathsOnly_settle1 {w w' : Warp} (h : w.settle1 = some w') : PathsOnly w w' := by
  have fl := pathsOnly_flipIf w.onB
  dsimp only [Warp.settle1] at h
  cases e1 : (if w.onB = true then w.flip else w).unparkP with
  | some x => rw [e1] at h; exact Option.some.inj h ▸ ((fl w).trans (pathsOnly_unparkP e1)).trans (fl _)
  | none =>
    rw [e1] at h
    cases e2 : (if w.onB = true then w.flip else w).flip.unparkP with
    | some x =>
      simp only [e2] at h
      exact Option.some.inj h ▸ (((fl w).trans (pathsOnly_flip _)).trans (pathsOnly_unparkP e2)).trans ((pathsOnly_flip _).trans (fl _))
    | none =>
      simp only [e2] at h
      cases e3 : (if w.onB = true then w.flip else w).refillP with
      | some x => simp only [e3] at h; exact Option.some.inj h ▸ ((fl w).trans (pathsOnly_refillP e3)).trans (fl _)
      | none =>
        simp only [e3] at h
        cases e4 : (if w.onB = true then w.flip else w).flip.refillP with
        | some x =>
          simp only [e4] at h
          exact Option.some.inj h ▸
            (((fl w).trans (pathsOnly_flip _)).trans (pathsOnly_refillP e4)).trans ((pathsOnly_flip _).trans (fl _))
        | none =>
          simp only [e4] at h
          cases e5 : (if w.onB = true then w.flip else w).settleOwed with
          | some x => simp only [e5] at h; exact Option.some.inj h ▸ ((fl w).trans (pathsOnly_settleOwed e5)).trans (fl _)
          | none =>
            simp only [e5] at h
            cases e6 : (if w.onB = true then w.flip else w).flip.settleOwed with
            | some x =>
              simp only [e6] at h
              exact Option.some.inj h ▸
                (((fl w).trans (pathsOnly_flip _)).trans (pathsOnly_settleOwed e6)).trans ((pathsOnly_flip _).trans (fl _))
            | none =>
              simp only [e6] at h
              cases e7 : (if w.onB = true then w.flip else w).releaseAll with
              | some x => simp only [e7] at h; exact Option.some.inj h ▸ ((fl w).trans (pathsOnly_releaseAll e7)).trans (fl _)
              | none => simp only [e7] at h; exact nomatch h

theorem pathsOnly_settleN (n : Nat) (w : Warp) : PathsOnly w (Warp.settleN n w) := by
  induction n generalizing w with
  | zero => exact .refl w
  | succ n ih =>
    unfold Warp.settleN
    split
    · rename_i h; exact (pathsOnly_settle1 h).trans (ih _)
    · exact .refl w

theorem pathsOnly_arriveSplit (w : Warp) : PathsOnly w w.arriveSplit := by
  unfold Warp.arriveSplit; split
  · exact pathsOnly_arriveQ _ w
  · exact .refl w

theorem pathsOnly_waitStacked (w : Warp) : PathsOnly w w.waitStacked := by
  unfold Warp.waitStacked
  split
  · split
    · exact pathsOnly_setRec _ _ _
    · exact .refl w
  · exact .refl w

/-- Settling without an issue changes the paths and the records alone. -/
theorem pathsOnly_resettle (w : Warp) : PathsOnly w w.resettle := pathsOnly_settleN _ w

/-- So does settling after an issue. -/
theorem pathsOnly_settle (w : Warp) : PathsOnly w w.settle :=
  (((pathsOnly_arrive _ _ w).trans (pathsOnly_arriveSplit _)).trans (pathsOnly_waitStacked _)).trans (pathsOnly_resettle _)

theorem pathsOnly_readP (s : State) (w : Warp) : PathsOnly w (w.readP s) := by
  unfold Warp.readP; split
  · exact (pathsOnly_p w _).trans (pathsOnly_parkOther _)
  · exact .refl w

theorem pathsOnly_refreshSplits (s : State) (w : Warp) : PathsOnly w (refreshSplits s w) :=
  ((((pathsOnly_readP s w).trans (pathsOnly_flip _)).trans (pathsOnly_readP s _)).trans (pathsOnly_flip _)).trans
    (PathsOnly.of _ _ _ _ _ _)

/-- And so does settling with the records that memory holds (R53). -/
theorem pathsOnly_settleWith {f : Warp → Warp} (hf : ∀ w, PathsOnly w (f w)) (s : State) (w : Warp) :
    PathsOnly w (settleWith f s w) := by
  unfold settleWith
  split
  · obtain ⟨p, q, b, rs, n, e, he, h⟩ := (pathsOnly_refreshSplits s w).trans (hf (refreshSplits s w))
    rw [h]
    exact ⟨p, q, b, _, n, _, fun x hx => he x (List.mem_filter.1 hx).1, rfl⟩
  · exact hf w

end Sys2Proof.Machine
end

