-- ==== Sys2Proof/Laws/Memory.lean ====
section
/-! SUPPORT. Memory: what a byte reads as after a store, and that every memory operation keeps the canonical form. -/

namespace Sys2Proof.Machine

/-- A byte after `size` bytes are written at a key. -/
theorem look_wrMem (m : List Host.Cell) (k size v j : Nat) :
    look (0 : Byte) (wrMem m k size v) j =
      if k ≤ j ∧ j < k + size then BitVec.ofNat 8 (v / 256 ^ (j - k)) else look 0 m j := by
  induction size generalizing m k v with
  | zero => simp only [wrMem]; rw [if_neg (by omega)]
  | succ n ih =>
    simp only [wrMem, ih, look_put]
    by_cases h1 : k + 1 ≤ j ∧ j < k + 1 + n
    · have h2 : j - k = (j - (k + 1)) + 1 := by omega
      rw [if_pos h1, if_pos (by omega), h2, Nat.pow_succ, Nat.mul_comm (256 ^ _), Nat.div_div_eq_div_mul]
    · rw [if_neg h1]
      by_cases h3 : j = k
      · subst h3; simp
      · rw [if_neg h3, if_neg (by omega)]

/-- Writing keeps the canonical form. -/
theorem wf_wrMem (m : List Host.Cell) (k size v : Nat) (h : Memory.wf m) : Memory.wf (wrMem m k size v) := by
  induction size generalizing m k v with
  | zero => exact h
  | succ n ih => exact ih _ _ _ (canon_put _ _ _ _ h)

/-- A byte after a store: a byte of the data within the stored bytes, and what it was elsewhere. -/
theorem byte_storeMem (k size : Nat) (v : W64) (bad : Bool) (s : State) (j : Nat) :
    (storeMem k size v bad s).byte j =
      if k ≤ j ∧ j < k + size then BitVec.ofNat 8 (v.toNat / 256 ^ (j - k)) else s.byte j :=
  look_wrMem s.mem k size v.toNat j

theorem wf_storeMem (k size : Nat) (v : W64) (bad : Bool) (s : State) (h : Memory.wf s.mem) :
    Memory.wf (storeMem k size v bad s).mem := wf_wrMem _ _ _ _ h

theorem wf_storeWords (s : State) (k : Nat) (vs : List Nat) (h : Memory.wf s.mem) : Memory.wf (storeWords s k vs).mem := by
  induction vs generalizing s k with
  | nil => exact h
  | cons v vs ih => exact ih _ _ (wf_storeMem _ _ _ _ _ h)

theorem wf_storeBytes (s : State) (k : Nat) (bs : List Byte) (h : Memory.wf s.mem) : Memory.wf (storeBytes s k bs).mem :=
  wf_storeWords _ _ _ h

@[simp] theorem dropLine_mem (s : State) (cluster line : Nat) (keep : Option Nat) : (dropLine s cluster line keep).mem = s.mem := rfl

@[simp] theorem setCore_mem (s : State) (n : Nat) (c : Core) : (s.setCore n c).mem = s.mem := rfl

/-- A store of a core changes memory as `storeMem` does. -/
theorem writeVia_mem (s : State) (core cluster k n : Nat) (v : W64) (bad : Bool) :
    (writeVia s core cluster k n v bad).mem = wrMem s.mem k n v.toNat := by
  unfold writeVia storeMem
  dsimp only
  split <;> rfl

theorem wf_writeVia (s : State) (core cluster k n : Nat) (v : W64) (bad : Bool) (h : Memory.wf s.mem) :
    Memory.wf (writeVia s core cluster k n v bad).mem := by
  rw [writeVia_mem]; exact wf_wrMem _ _ _ _ h

/-- What is stored is read back. -/
theorem rdMem_wrMem (m : List Host.Cell) (k size v : Nat) : rdMem (wrMem m k size v) k size = v % 256 ^ size := by
  have h : ∀ (n j v : Nat) (m' : List Host.Cell),
      (∀ i < n, look (0 : Byte) m' (j + i) = BitVec.ofNat 8 (v / 256 ^ i)) → rdMem m' j n = v % 256 ^ n := by
    intro n
    induction n with
    | zero => intros; simp [rdMem, Nat.mod_one]
    | succ n ih =>
      intro j v m' hh
      have h0 := hh 0 (by omega)
      simp only [Nat.add_zero, Nat.pow_zero, Nat.div_one] at h0
      have h1 : rdMem m' (j + 1) n = (v / 256) % 256 ^ n := by
        refine ih (j + 1) (v / 256) m' (fun i hi => ?_)
        have := hh (i + 1) (by omega)
        rw [Nat.div_div_eq_div_mul, ← Nat.pow_succ', ← this]
        congr 1
        omega
      have h2 : v % 256 ^ (n + 1) = v % 256 + 256 * (v / 256 % 256 ^ n) := by
        rw [Nat.pow_succ (n := 256) (m := n), Nat.mul_comm (256 ^ n), Nat.mod_mul]
      simp only [rdMem, h0, h1, BitVec.toNat_ofNat]
      exact h2.symm
  refine h size k v _ (fun i hi => ?_)
  rw [look_wrMem, if_pos ⟨by omega, by omega⟩]
  rw [Nat.add_sub_cancel_left]

end Sys2Proof.Machine
end

