-- ==== Sys2Proof/Laws/Ops.lean ====
section
/-! SUPPORT. What the shared operations of an issue can do: the steps of R86, completion and traps. -/

namespace Sys2Proof.Machine

/-- The outcome of the effect of an instruction: a trap keeps whether the instruction has a literal. -/
def Gate.out (gt : Gate) : Res → Host.Outcome State Fault Refusal
  | .trap s t => finish gt.len (.trap s { t with lit := gt.len == 8 })
  | r => finish gt.len r

/-- The demands of a gate. -/
def Gate.demand (gt : Gate) : Demand :=
  { guard := gt.guard, len := gt.len, enter := gt.isEnter, cls := gt.cls, regs := gt.regs, outer := gt.outer, scals := gt.scals, uses := gt.uses }

@[simp] theorem finish_fall (len : Nat) (s : State) : finish len (.fall s) = .next (fell len s) := rfl
@[simp] theorem finish_jump (len : Nat) (s : State) : finish len (.jump s) = .next (issued s) := rfl
@[simp] theorem finish_trap (len : Nat) (s : State) (t : TrapInfo) : finish len (.trap s t) = .next (raise t s) := rfl
@[simp] theorem finish_wait (len code : Nat) (s : State) :
    finish len (.wait code s) = .next (waits code s) := rfl
@[simp] theorem finish_block (len code : Nat) (s : State) :
    finish len (.block code s) = .next (blocked code s) := rfl
@[simp] theorem out_fall (gt : Gate) (s : State) : gt.out (.fall s) = .next (fell gt.len s) := rfl
@[simp] theorem out_jump (gt : Gate) (s : State) : gt.out (.jump s) = .next (issued s) := rfl
@[simp] theorem out_trap (gt : Gate) (s : State) (t : TrapInfo) :
    gt.out (.trap s t) = .next (raise { t with lit := gt.len == 8 } s) := rfl
@[simp] theorem out_wait (gt : Gate) (code : Nat) (s : State) :
    gt.out (.wait code s) = .next (waits code s) := rfl
@[simp] theorem out_block (gt : Gate) (code : Nat) (s : State) :
    gt.out (.block code s) = .next (blocked code s) := rfl

/-- A guarded instruction without active lanes only falls through (R81). -/
theorem Gate.run_off (gt : Gate) (body : State → Mask → Res) (s : State) (hg : gt.guard = true)
    (h : s.w.active true = 0) : gt.run body s = .next (fell gt.len s) := by
  simp [Gate.run, hg, h]

/-- The lanes of a mask are those whose bits are set. -/
theorem mem_lanesOf {m : Mask} {l : Nat} (h : l ∈ lanesOf m) : m.getLsbD l = true := by
  simp only [lanesOf, List.mem_filter] at h
  exact h.2

/-- Lanes without a failing check go on together. -/
theorem failLanes_none (fail : Nat → Option Fail) (s : State) (act : Mask) (k : State → Mask → Res)
    (h : ∀ l, act.getLsbD l = true → fail l = none) : failLanes fail s act k = k s act := by
  have h1 : (lanesOf act).filterMap (fun l => (fail l).map (fun f => (l, f))) = [] := by
    rw [List.filterMap_eq_nil_iff]
    intro l hl
    simp [h l (mem_lanesOf hl)]
  simp [failLanes, h1]

/-- No use is poisoned: the check of R202 passes. -/
theorem poisonFail_none (w : Warp) (us : List Use) (l : Nat) (h : ∀ u ∈ us, u.bad w l = false) :
    poisonFail w us l = none := by
  simp only [poisonFail, Option.map_eq_none_iff, List.find?_eq_none]
  intro u hu
  simp [h u hu]

/-- Where no lane has a poisoned operand, the body makes the later checks: nothing aborts before it. -/
theorem Gate.abortLater_none (gt : Gate) (s : State) (act : Mask)
    (h : ∀ l, act.getLsbD l = true → poisonFail s.w gt.uses l = none) : gt.abortLater s act = s := by
  have h1 : (lanesOf (act &&& ~~~s.w.activeTx act)).all (fun l => (poisonFail s.w gt.uses l).isNone) = true := by
    refine List.all_eq_true.2 (fun l hl => ?_)
    have hm := mem_lanesOf hl
    rw [BitVec.getLsbD_and, Bool.and_eq_true] at hm
    rw [h l hm.1]; rfl
  simp only [Gate.abortLater, h1, or_true, if_true]

/-- An instruction whose demands the state meets acts in its active lanes (R86). -/
theorem Gate.run_clear (gt : Gate) (body : State → Mask → Res) (s : State) (h : Clear s gt.demand)
    (hok : gt.ok = true) (hpriv : gt.priv = true) (heng : gt.engine = true)
    (hfull : gt.full = false) (hsync : gt.sync = true → s.tileBusy = false) (hrel : gt.rel = true → s.w.raysOpen = false)
    (htx : gt.tx = true ∨ NoTx s gt.guard) : gt.run body s = gt.out (body s (s.w.active gt.guard)) := by
  obtain ⟨h1, h2, h3, h4, h5, h6, h7, h8, h9⟩ := h
  simp only [Gate.demand] at h1 h2 h3 h4 h5 h6 h7 h8 h9
  have hleg : gt.legal s.w = true := by
    simp only [Gate.legal, hok, Bool.true_and, List.all_eq_true, Bool.and_eq_true]
    refine ⟨?_, h3⟩
    rcases h2 with h2 | ⟨h2, hf, hd⟩
    · simp [h2]
    · simp [h2, hf, hd]
  have hchk : gt.check s.w (s.w.active gt.guard) = none := by
    simp only [Gate.check, hleg]
    by_cases hl : gt.len = 8
    · have h4 : s.w.p.pc[2] = false := by simpa using h4 hl
      simp [hl, h4]
    · simp [hl]
  have hleft : gt.left s.w (s.w.active gt.guard) = s.w.active gt.guard := by
    rcases htx with ht | ht
    · simp [Gate.left, ht]
    · simp only [NoTx] at ht
      have h0 : s.w.active gt.guard &&& ~~~(0 : Mask) = s.w.active gt.guard := by
        rw [show ~~~(0 : Mask) = BitVec.allOnes 32 from rfl, BitVec.and_allOnes]
      simp only [Gate.left, ht, h0, ite_self]
  have hdrop : gt.dropTx s (s.w.active gt.guard) = s := by
    rcases htx with ht | ht
    · simp [Gate.dropTx, ht]
    · simp only [NoTx] at ht
      simp [Gate.dropTx, ht]
  have hrgt : gt.rights s.w (s.w.active gt.guard) = none := by
    by_cases ht : s.w.tlevel = 0
    · simp [Gate.rights, heng, hpriv, ht, h5 ht]
    · simp [Gate.rights, heng, hpriv, ht]
  have hhaz : gt.hazard s = false := by
    simp only [Gate.hazard, Bool.or_eq_false_iff, Bool.and_eq_false_iff, List.any_eq_false]
    refine ⟨Or.inr ⟨?_, ?_⟩, ?_⟩
    · intro r hr
      simp only [List.any_eq_true, not_exists, not_and]
      intro a ha
      simp [h6 r hr a ha]
    · intro r hr
      simp only [List.any_eq_true, not_exists, not_and]
      intro a ha
      simp [h7 r hr a ha]
    · intro n hn
      simpa using h8 n hn
  have hlanes : gt.lanes body s (s.w.active gt.guard) = body s (s.w.active gt.guard) := by
    have hu : ∀ l, (s.w.active gt.guard).getLsbD l = true → poisonFail s.w gt.uses l = none :=
      fun l hl => poisonFail_none _ _ _ (fun u hu => h9 u hu l hl)
    simp [Gate.lanes, hleft, hdrop, gt.abortLater_none s _ hu, failLanes_none _ s _ body hu]
  have hact : (gt.guard && s.w.active gt.guard == 0) = false := by
    rw [beq_eq_false_iff_ne.mpr h1, Bool.and_false]
  have hs2 : (gt.sync && s.tileBusy) = false := by
    cases hs : gt.sync
    · rfl
    · simp [hsync hs]
  have hr2 : (gt.rel && s.w.raysOpen) = false := by
    cases hr : gt.rel
    · rfl
    · simp [hrel hr]
  simp only [Gate.run, hact, hchk, hleft, hrgt, hhaz, hfull, hs2, hr2, hlanes]
  simp only [Bool.false_and, Bool.or_false, Bool.false_eq_true, if_false]
  cases body s (s.w.active gt.guard) <;> rfl

/-- The same for the outcome of an instruction that issues through a gate: `refine gate_clear rfl h rfl rfl rfl rfl ?_ ?_ ?_ ?_`
leaves the waits of tile scratch and of ray batches, the transactions and the outcome. -/
theorem gate_clear {o : Host.Outcome State Fault Refusal} {gt : Gate} {body : State → Mask → Res} {s : State}
    (e : o = gt.run body s) (h : Clear s gt.demand)
    (hok : gt.ok = true) (hpriv : gt.priv = true) (heng : gt.engine = true)
    (hfull : gt.full = false) (hsync : gt.sync = true → s.tileBusy = false) (hrel : gt.rel = true → s.w.raysOpen = false)
    (htx : gt.tx = true ∨ NoTx s gt.guard) {r : Host.Outcome State Fault Refusal} (hr : gt.out (body s (s.w.active gt.guard)) = r) : o = r :=
  e.trans ((Gate.run_clear gt body s h hok hpriv heng hfull hsync hrel htx).trans hr)

/-- Folding lanes into a mask sets the bits of those that satisfy `f`. -/
theorem foldMask_getLsbD (f : Nat → Bool) (l : Nat) (hl : l < 32) (ls : List Nat) (m : Mask) :
    (ls.foldl (fun m l => if f l then m ||| (1#32 <<< l) else m) m).getLsbD l = (m.getLsbD l || (decide (l ∈ ls) && f l)) := by
  induction ls generalizing m with
  | nil => simp
  | cons x xs ih =>
    rw [List.foldl_cons, ih]
    by_cases hx : l = x
    · subst hx
      by_cases hf : f l = true
      · simp [hf, hl]
      · simp [hf]
    · have h1 : ((1#32) <<< x).getLsbD l = false := by
        by_cases h2 : l < x
        · simp [h2]
        · have h3 : l - x ≠ 0 := by omega
          simp [h3]
      have h4 : decide (l ∈ x :: xs) = decide (l ∈ xs) := by simp [hx]
      rw [h4]
      by_cases hf : f x = true
      · rw [if_pos hf, BitVec.getLsbD_or, h1, Bool.or_false]
      · rw [if_neg hf]

/-- A mask of lanes has the bit of each lane that satisfies `f`. -/
theorem maskOf_getLsbD (f : Nat → Bool) (l : Nat) (hl : l < 32) : (maskOf f).getLsbD l = f l := by
  have h : l ∈ laneList := by simpa [laneList, Config.warpWidth] using hl
  rw [maskOf, foldMask_getLsbD f l hl]
  simp [h]

/-- The list that pairs each lane of `ls` with a value reads as that value there. -/
theorem look_lanes {α : Type} (d : α) (f : Nat → α) (ls : List Nat) (l : Nat) (h : l ∈ ls) :
    look d (ls.map (fun x => (x, f x))) l = f l := by
  induction ls with
  | nil => cases h
  | cons x xs ih =>
    simp only [List.map_cons, look]
    by_cases hx : l = x
    · simp [hx]
    · rw [if_neg hx]
      rcases List.mem_cons.mp h with h | h
      · exact absurd h hx
      · exact ih h

/-- A lane of a mask is among its lanes. -/
theorem lane_mem {m : Mask} {l : Nat} (h : m.getLsbD l = true) : l ∈ lanesOf m := by
  simp only [lanesOf, List.mem_filter, laneList, List.mem_range]
  exact ⟨BitVec.lt_of_getLsbD h, h⟩

/-- A mask with no lane of its own aborts nothing. -/
theorem abort_none (w : Warp) (c k : Nat) : w.abort 0 c k = w := by
  simp [Warp.abort]

/-- A mask whose lanes `m` hold none of the ACTIVE lanes of `m`'s superset has no ACTIVE lane. -/
theorem activeTx_sub {w : Warp} {act : Mask} (h : w.activeTx act = 0) (f : Nat → Bool) :
    w.activeTx (maskOf (fun l => act.getLsbD l && f l)) = 0 := by
  apply BitVec.eq_of_getLsbD_eq
  intro l hl
  have h1 : (w.activeTx act).getLsbD l = false := by rw [h]; simp
  simp only [Warp.activeTx, BitVec.getLsbD_and] at h1 ⊢
  rw [maskOf_getLsbD _ _ hl]
  cases ha : act.getLsbD l <;> simp_all

/-- Where every lane passes its checks at a resident page and none is ACTIVE, the access goes on in all of them. -/
theorem withPasses_ok {kind : Nat} {u : Bool} {va : Nat → W64} {chk : Nat → Except Fail Pass} {s : State} {act : Mask}
    {k : State → Mask → (Nat → Pass) → Res} {pass : Nat → Pass} (h0 : act ≠ 0) (hp : Passes chk act pass)
    (htx : s.w.activeTx act = 0) :
    ∃ pass', (∀ l ∈ lanesOf act, pass' l = pass l) ∧ withPasses kind u va chk s act k = k s act pass' := by
  refine ⟨fun l => look {} ((lanesOf act).map (fun l => (l, passOf (chk l)))) l, ?_, ?_⟩
  · intro l hl
    have h1 : passOf (chk l) = pass l := by rw [(hp l (mem_lanesOf hl)).1]; rfl
    exact (look_lanes _ (fun l => passOf (chk l)) _ _ hl).trans h1
  · have hn : ∀ l, act.getLsbD l = true → failOf (chk l) = none := by
      intro l hl
      rw [(hp l hl).1]
      rfl
    have hr : (lanesOf act).filter (fun l => !(look {} ((lanesOf act).map (fun l =>
        (l, passOf (chk l)))) l : Pass).resident) = [] := by
      rw [List.filter_eq_nil_iff]
      intro l hl
      have h1 : passOf (chk l) = pass l := by rw [(hp l (mem_lanesOf hl)).1]; rfl
      rw [look_lanes _ (fun l => passOf (chk l)) _ _ hl, h1, (hp l (mem_lanesOf hl)).2]
      simp
    have h3 : act &&& ~~~(0 : Mask) = act := by
      apply BitVec.eq_of_getLsbD_eq
      intro l hl
      rw [BitVec.getLsbD_and, BitVec.getLsbD_not]
      simp [hl]
    unfold withPasses
    rw [if_neg h0]
    refine (failLanes_none _ _ _ _ hn).trans ?_
    dsimp only
    rw [activeTx_sub htx, abort_none, h3, if_neg h0, hr]
    rfl

/-! ### Accesses that set out (R384, R385) -/

theorem sendOut_eq (ctx k : Nat) (s : State) : ∃ a b, sendOut ctx k s = { s with sent := a, free := b } := by
  unfold sendOut
  split
  · split
    · exact ⟨_, _, rfl⟩
    · exact ⟨s.sent, s.free, rfl⟩
  · exact ⟨s.sent, s.free, rfl⟩

/-- Accesses that set out leave the last one sent and the count of free values, and nothing else. -/
theorem sendAll_eq (ctx : Nat) (ks : List Nat) (s : State) : ∃ a b, (sendAll ctx ks s).1 = { s with sent := a, free := b } := by
  unfold sendAll
  generalize true = r
  induction ks generalizing s r with
  | nil => exact ⟨s.sent, s.free, rfl⟩
  | cons k ks ih =>
    obtain ⟨a, b, h⟩ := sendOut_eq ctx k s
    obtain ⟨c, d, h'⟩ := ih (sendOut ctx k s) (r && reaches s k)
    exact ⟨c, d, by rw [List.foldl_cons, h', h]⟩

theorem readsOut_eq (s : State) (vas : List W64) : ∃ a b, (readsOut s vas).1 = { s with sent := a, free := b } := sendAll_eq _ _ _

/-- Accesses that stay on the device change nothing, and are performed. -/
theorem sendAll_here (ctx : Nat) (ks : List Nat) (s : State) (h : ∀ k ∈ ks, isRemote k = false) : sendAll ctx ks s = (s, true) := by
  unfold sendAll
  induction ks with
  | nil => rfl
  | cons k ks ih =>
    have hk := h k (List.mem_cons_self ..)
    have h1 : sendOut ctx k s = s := by simp [sendOut, hk]
    have h2 : reaches s k = true := by simp [reaches, hk]
    rw [List.foldl_cons]
    dsimp only
    rw [h1, h2]
    exact ih fun x hx => h x (List.mem_cons_of_mem _ hx)

end Sys2Proof.Machine
end

