-- ==== Sys2Proof/Laws/Safe.lean ====
section
/-! SUPPORT. Safety, operation by operation: loads, stores, atomics, rings, traps, the steps of an issue and the
frame-stack engine keep memory in its canonical form. -/

namespace Sys2Proof.Machine

/-- A result of an instruction's effect leaves memory in its canonical form. -/
def SafeRes : Res → Prop
  | .fall s => Safe s
  | .jump s => Safe s
  | .trap s _ => Safe s
  | .wait _ s => Safe s
  | .block _ s => Safe s

/-- So does the next state of an outcome, where it is one. -/
def SafeOut : Host.Outcome State Fault Refusal → Prop
  | .next s => Safe s
  | _ => True

/-- So does a state that may be absent. -/
def SafeOpt : Option State → Prop
  | some s => Safe s
  | none => True

/-- So does a state that an error may replace. -/
def SafeExc {ε : Type} : Except ε State → Prop
  | .ok s => Safe s
  | .error _ => True

/-- A state whose memory is that of another is safe where that one is. -/
theorem safe_lit (s : State) (x0) (x1) (x2) (x4) (x5) (x6) (x7) (x8) (x9) (x10) (x11) (x12) (x13) (x14) (x15) (x16)
    (x17) (x18) (x19) (x20) (x21) (x22) (x23) (x24) (x25) (x26) (x27) (x28) (x29) (x30) (x31) (x32) (x33) (x34) (x35)
    (x36) (x37) (x38) (x39) (x40) (x41) (x42) :
    Safe (State.mk x0 x1 x2 s.mem x4 x5 x6 x7 x8 x9 x10 x11 x12 x13 x14 x15 x16 x17 x18 x19 x20 x21 x22 x23 x24 x25
    x26 x27 x28 x29 x30 x31 x32 x33 x34 x35 x36 x37 x38 x39 x40 x41 x42) = Safe s := rfl

/-- A fold keeps memory canonical where each of its steps does. -/
theorem safe_foldl {α : Type} (f : State → α → State) (l : List α) (s : State) (hf : ∀ s x, Safe s → Safe (f s x)) (h
    : Safe s) : Safe (l.foldl f s) := by
  induction l generalizing s with
  | nil => exact h
  | cons x l ih => exact ih _ (hf _ _ h)

theorem safe_foldl1 {α β : Type} (f : State × β → α → State × β) (l : List α) (p : State × β) (hf : ∀ p x, Safe p.1 →
    Safe (f p x).1) (h : Safe p.1) : Safe (l.foldl f p).1 := by
  induction l generalizing p with
  | nil => exact h
  | cons x l ih => exact ih _ (hf _ _ h)

theorem safe_foldl2 {α β : Type} (f : β × State → α → β × State) (l : List α) (p : β × State) (hf : ∀ p x, Safe p.2 →
    Safe (f p x).2) (h : Safe p.2) : Safe (l.foldl f p).2 := by
  induction l generalizing p with
  | nil => exact h
  | cons x l ih => exact ih _ (hf _ _ h)

theorem safe_foldr {α : Type} (f : α → State → State) (l : List α) (s : State) (hf : ∀ s x, Safe s → Safe (f x s)) (h
    : Safe s) : Safe (l.foldr f s) := by
  induction l with
  | nil => exact h
  | cons x l ih => exact hf _ _ ih

theorem safe_foldlE {α ε : Type} (g : Except ε State → α → Except ε State) (a : Except ε State) (l : List α)
    (hg : ∀ b r, SafeExc b → SafeExc (g b r)) (ha : SafeExc a) : SafeExc (l.foldl g a) := by
  induction l generalizing a with
  | nil => exact ha
  | cons x l ih => exact ih _ (hg _ _ ha)

/-- What is found equal to something safe is safe. -/
theorem safeRes_of_eq {e r : Res} (h : e = r) (k : SafeRes e) : SafeRes r := h ▸ k

theorem safeOut_of_eq {e r : Host.Outcome State Fault Refusal} (h : e = r) (k : SafeOut e) : SafeOut r := h ▸ k

theorem safe_of_fst_eq {β : Type} {e r : State × β} (h : e = r) (k : Safe e.1) : Safe r.1 := h ▸ k

theorem safeOpt_of_eq {e r : Option State} (h : e = r) (k : SafeOpt e) : SafeOpt r := h ▸ k

theorem safeExc_of_eq {ε : Type} {e r : Except ε State} (h : e = r) (k : SafeExc e) : SafeExc r := h ▸ k

theorem safe_setCore (s : State) (n : Nat) (c : Core) (hs : Safe s) : Safe (State.setCore s n c) := by
  unfold State.setCore
  rw [safe_lit]
  with_reducible assumption

theorem safe_setCluster (s : State) (n : Nat) (c : Cluster) (hs : Safe s) : Safe (State.setCluster s n c) := by
  unfold State.setCluster
  rw [safe_lit]
  with_reducible assumption

theorem safe_setDie (s : State) (n : Nat) (d : Die) (hs : Safe s) : Safe (State.setDie s n d) := by
  unfold State.setDie
  rw [safe_lit]
  with_reducible assumption

theorem safe_setWg (s : State) (n : Nat) (g : WG) (hs : Safe s) : Safe (State.setWg s n g) := by
  unfold State.setWg
  rw [safe_lit]
  with_reducible assumption

theorem safe_setLaunch (s : State) (n : Nat) (l : Launch) (hs : Safe s) : Safe (State.setLaunch s n l) := by
  unfold State.setLaunch
  rw [safe_lit]
  with_reducible assumption

theorem safe_setKernel (s : State) (n : Nat) (k : Kernel) (hs : Safe s) : Safe (State.setKernel s n k) := by
  unfold State.setKernel
  rw [safe_lit]
  with_reducible assumption

theorem safe_setCtx (s : State) (n : Nat) (c : Ctx) (hs : Safe s) : Safe (State.setCtx s n c) := by
  unfold State.setCtx
  rw [safe_lit]
  with_reducible assumption

theorem safe_setQueue (s : State) (n : Nat) (q : Queue) (hs : Safe s) : Safe (State.setQueue s n q) := by
  unfold State.setQueue
  rw [safe_lit]
  with_reducible assumption

theorem safe_setView (s : State) (n : Nat) (v : View) (hs : Safe s) : Safe (State.setView s n v) := by
  unfold State.setView
  rw [safe_lit]
  with_reducible assumption

theorem safe_setOut (s : State) (n : Nat) (o : Out) (hs : Safe s) : Safe (State.setOut s n o) := by
  unfold State.setOut
  rw [safe_lit]
  with_reducible assumption

theorem safe_modWarp (s : State) (wid : Nat) (f : Warp → Warp) (hs : Safe s) : Safe (State.modWarp s wid f) := by
  unfold State.modWarp
  split
  · rw [safe_lit]
    with_reducible assumption
  · rw [safe_lit]
    with_reducible assumption

theorem safe_mapWarps (s : State) (f : Warp → Warp) (hs : Safe s) : Safe (State.mapWarps s f) := by
  unfold State.mapWarps
  rw [safe_lit]
  with_reducible assumption

theorem safe_bring (s : State) (wid : Nat) (hs : Safe s) : Safe (State.bring s wid) := by
  unfold State.bring
  dsimp only
  split
  · with_reducible assumption
  · split
    · with_reducible assumption
    · rw [safe_lit]
      with_reducible assumption

theorem safe_storeMem (k size : Nat) (v : W64) (bad : Bool) (s : State) (hs : Safe s) : Safe
    (storeMem k size v bad s) := by
  exact wf_storeMem _ _ _ _ _ hs

theorem safe_storeWords (s : State) (k : Nat) (a2 : List Nat) (hs : Safe s) : Safe (storeWords s k a2) := by
  exact wf_storeWords _ _ _ hs

theorem safe_storeBytes (s : State) (k : Nat) (bs : List Byte) (hs : Safe s) : Safe (storeBytes s k bs) := by
  exact wf_storeBytes _ _ _ hs

theorem safe_dropLine (s : State) (cluster line : Nat) (keep : Option Nat) (hs : Safe s) : Safe
    (dropLine s cluster line keep) := by
  unfold dropLine
  dsimp only
  rw [safe_lit]
  with_reducible assumption

theorem safe_writeVia (s : State) (core cluster k n : Nat) (v : W64) (bad : Bool) (hs : Safe s) : Safe
    (writeVia s core cluster k n v bad) := by
  exact wf_writeVia _ _ _ _ _ _ _ hs

theorem safe_dropL1 (core : Nat) (s : State) (hs : Safe s) : Safe (dropL1 core s) := by
  unfold dropL1
  dsimp only
  rw [safe_lit]
  with_reducible assumption

theorem safe_syncL1 (core : Nat) (s : State) (hs : Safe s) : Safe (syncL1 core s) := by
  unfold syncL1
  dsimp only
  split
  · with_reducible apply safe_setCore
    with_reducible assumption
  · with_reducible assumption

theorem safe_sendOut (ctx k : Nat) (s : State) (hs : Safe s) : Safe (sendOut ctx k s) := by
  unfold sendOut
  split
  · split
    · rw [safe_lit]
      with_reducible assumption
    · with_reducible assumption
  · with_reducible assumption

theorem safe_addFault (die ctx : Nat) (va : W64) (kind : Nat) (s : State) (hs : Safe s) : Safe
    (addFault die ctx va kind s) := by
  unfold addFault
  dsimp only
  with_reducible apply safe_setDie
  with_reducible assumption

theorem safe_logUnc (cluster : Nat) (s : State) (hs : Safe s) : Safe (logUnc cluster s) := by
  unfold logUnc
  dsimp only
  with_reducible apply safe_setCluster
  with_reducible assumption

theorem safe_rmwMem (cluster aop t : Nat) (a : Acc) (s : State) (hs : Safe s) : Safe (rmwMem cluster aop t a s) := by
  unfold rmwMem
  with_reducible apply safe_storeMem
  with_reducible apply safe_dropLine
  with_reducible assumption

theorem safe_performAcc (core cluster : Nat) (a : Acc) (s : State) (hs : Safe s) : Safe
    (performAcc core cluster a s).1 := by
  unfold performAcc
  dsimp only
  split
  · with_reducible assumption
  · dsimp only
    with_reducible apply safe_writeVia
    with_reducible assumption
  · split
    · exact safe_dropLine _ _ _ _ hs
    · dsimp only
      with_reducible apply safe_rmwMem
      with_reducible assumption
  · dsimp only
    split
    · with_reducible apply safe_logUnc
      exact safe_dropLine _ _ _ _ hs
    · with_reducible apply safe_rmwMem
      with_reducible assumption
  · with_reducible assumption

theorem safe_acquireL1 (core : Nat) (acq drop : Bool) (s : State) (hs : Safe s) : Safe (acquireL1 core acq drop s) := by
  unfold acquireL1
  split
  · with_reducible apply safe_dropL1
    with_reducible assumption
  · split
    · with_reducible apply safe_syncL1
      with_reducible assumption
    · with_reducible assumption

theorem safe_performOp (wid seq : Nat) (sure : Bool) (choose : Nat → Bool) (a4 : List Acc) (a5 : State)
    (ha5 : Safe a5) : Safe (performOp wid seq sure choose a4 a5) := by
  induction a4 generalizing a5 with
  | nil => exact ha5
  | cons v vs ih =>
    unfold performOp
    dsimp only
    split
    · exact ha5
    · split
      · exact ha5
      · split
        · split
          · exact ih _ (safe_modWarp _ _ _ (safe_performAcc _ _ _ _ (safe_acquireL1 _ _ _ _ (safe_sendOut _ _ _ ha5))))
          · exact ih _ (safe_sendOut _ _ _ ha5)
        · exact ih _ ha5

theorem safe_runOp (wid seq : Nat) (sure : Bool) (choose : Nat → Bool) (s : State) (hs : Safe s) : Safe
    (runOp wid seq sure choose s) := by
  unfold runOp
  split
  · with_reducible assumption
  · split
    · with_reducible assumption
    · with_reducible apply safe_modWarp
      with_reducible apply safe_performOp
      with_reducible assumption

theorem safe_runAllOps (wid : Nat) (s : State) (hs : Safe s) : Safe (runAllOps wid s) := by
  unfold runAllOps
  split
  · with_reducible assumption
  · (with_reducible refine safe_foldl _ _ _ ?_ ?_) <;> intros
    · with_reducible apply safe_runOp
      with_reducible assumption
    · with_reducible assumption

theorem safe_ownFirst (wid k n : Nat) (s : State) (hs : Safe s) : Safe (ownFirst wid k n s) := by
  unfold ownFirst
  split
  · with_reducible apply safe_runAllOps
    with_reducible assumption
  · with_reducible assumption

theorem safe_fseFault (s : State) (w : Warp) (j : Nat) (fill : Bool) (va : W64) (retry : Bool) (hs : Safe s) : Safe
    (fseFault s w j fill va retry) := by
  unfold fseFault
  dsimp only
  split
  · with_reducible apply safe_addFault
    with_reducible apply safe_modWarp
    with_reducible assumption
  · with_reducible apply safe_modWarp
    with_reducible assumption

theorem safe_storeMarked (w : Warp) (s : State) (k : Nat) (a2 : List (W64 × Bool)) (hs : Safe s) : Safe
    (storeMarked w s k a2) := by
  induction a2 generalizing s k with
  | nil => exact hs
  | cons v vs ih => exact ih _ _ (safe_writeVia _ _ _ _ _ _ _ hs)

theorem safe_spillBlock (s : State) (w : Warp) (j : Nat) (hs : Safe s) : Safe (spillBlock s w j) := by
  unfold spillBlock
  dsimp only
  split
  · with_reducible apply safe_fseFault
    with_reducible assumption
  · split
    · with_reducible apply safe_fseFault
      with_reducible assumption
    · split
      · with_reducible assumption
      · with_reducible apply safe_modWarp
        with_reducible apply safe_storeMarked
        with_reducible apply safe_ownFirst
        with_reducible assumption

theorem safe_fillBlock (s : State) (w : Warp) (j : Nat) (hs : Safe s) : Safe (fillBlock s w j) := by
  unfold fillBlock
  dsimp only
  split
  · with_reducible apply safe_fseFault
    with_reducible assumption
  · split
    · with_reducible apply safe_fseFault
      with_reducible assumption
    · split
      · with_reducible assumption
      · with_reducible apply safe_modWarp
        with_reducible apply safe_ownFirst
        with_reducible assumption

theorem safe_writeRecords (s : State) (w : Warp) (hs : Safe s) : SafeExc (writeRecords s w) := by
  unfold writeRecords
  (with_reducible refine safe_foldlE _ _ _ ?_ ?_) <;> intros
  · dsimp only
    split
    · with_reducible assumption
    · split
      · trivial
      · split
        · trivial
        · split
          · trivial
          · simp only [SafeExc]
            with_reducible apply safe_storeMarked
            with_reducible apply safe_ownFirst
            have hb := ‹SafeExc (.ok _)›
            exact hb
  · simp only [SafeExc]
    with_reducible assumption

theorem safe_syncRecords (s : State) (w : Warp) (hs : Safe s) : SafeExc (syncRecords s w) := by
  unfold syncRecords
  split
  · trivial
  · split
    · trivial
    · simp only [SafeExc]
      with_reducible apply safe_modWarp
      rename_i hq
      exact safeExc_of_eq hq (safe_writeRecords _ _ hs)

theorem safe_ringAdvance (ctx ring : Nat) (s : State) (hs : Safe s) : Safe (ringAdvance ctx ring s) := by
  unfold ringAdvance
  dsimp only
  with_reducible apply safe_storeMem
  with_reducible assumption

theorem safe_ringWrite (ctx ring : Nat) (bs : List Byte) (s : State) (hs : Safe s) : Safe
    (ringWrite ctx ring bs s) := by
  unfold ringWrite
  with_reducible apply safe_ringAdvance
  with_reducible apply safe_storeBytes
  with_reducible assumption

theorem safe_ringOrHold (ctx ring : Nat) (bs : List Byte) (s : State) (hs : Safe s) : Safe
    (ringOrHold ctx ring bs s) := by
  unfold ringOrHold
  dsimp only
  split
  · split
    · with_reducible apply safe_setCtx
      with_reducible assumption
    · with_reducible apply safe_ringWrite
      with_reducible assumption
  · with_reducible assumption

theorem safe_clearBuffer (seg : Nat) (s : State) (hs : Safe s) : Safe (clearBuffer seg s) := by
  unfold clearBuffer
  (with_reducible refine safe_foldl _ _ _ ?_ ?_) <;> intros
  · with_reducible apply safe_storeWords
    with_reducible assumption
  · with_reducible assumption

theorem safe_placeOne (c : Nat) (s : State) (hs : Safe s) : Safe (placeOne c s) := by
  unfold placeOne
  dsimp only
  split
  · exact hs
  · split
    · rw [safe_lit]
      exact safe_clearBuffer _ _ (safe_setCluster _ _ _ hs)
    · exact hs

theorem safe_placeTiles (c : Nat) (s : State) (hs : Safe s) : Safe (placeTiles c s) := by
  unfold placeTiles
  (with_reducible refine safe_foldl _ _ _ ?_ ?_) <;> intros
  · with_reducible apply safe_placeOne
    with_reducible assumption
  · with_reducible assumption

theorem safe_placeAll (s : State) (hs : Safe s) : Safe (placeAll s) := by
  unfold placeAll
  (with_reducible refine safe_foldl _ _ _ ?_ ?_) <;> intros
  · with_reducible apply safe_placeTiles
    with_reducible assumption
  · with_reducible assumption

theorem safe_withdrawWg (wg : Nat) (only : Option Nat) (s : State) (hs : Safe s) : Safe (withdrawWg wg only s) := by
  unfold withdrawWg
  dsimp only
  with_reducible apply safe_placeAll
  rw [safe_lit]
  with_reducible assumption

theorem safe_releaseTabard (wid : Nat) (s : State) (hs : Safe s) : Safe (releaseTabard wid s) := by
  unfold releaseTabard
  rw [safe_lit]
  with_reducible assumption

theorem safe_dropLocks (gone : Nat → Bool) (s : State) (hs : Safe s) : Safe (dropLocks gone s) := by
  unfold dropLocks
  dsimp only
  rw [safe_lit]
  with_reducible assumption

theorem safe_clearCtx (ctx : Nat) (s : State) (hs : Safe s) : Safe (clearCtx ctx s) := by
  unfold clearCtx
  dsimp only
  rw [safe_lit]
  with_reducible apply safe_dropLocks
  (with_reducible refine safe_foldl _ _ _ ?_ ?_) <;> intros
  · with_reducible apply safe_withdrawWg
    with_reducible assumption
  · (with_reducible refine safe_foldl _ _ _ ?_ ?_) <;> intros
    · with_reducible apply safe_releaseTabard
      with_reducible apply safe_runAllOps
      with_reducible apply safe_modWarp
      with_reducible assumption
    · with_reducible assumption

theorem safe_endChildren (st : KSt) (q : Nat) (s : State) (hs : Safe s) : Safe (endChildren st q s) := by
  unfold endChildren
  dsimp only
  with_reducible apply safe_setQueue
  (with_reducible refine safe_foldl _ _ _ ?_ ?_) <;> intros
  · rw [safe_lit]
    with_reducible apply safe_setKernel
    with_reducible apply safe_setKernel
    with_reducible assumption
  · with_reducible assumption

theorem safe_killCtx (ctx reason cause : Nat) (record : List Byte) (s : State) (hs : Safe s) : Safe
    (killCtx ctx reason cause record s) := by
  unfold killCtx
  dsimp only
  with_reducible apply safe_ringOrHold
  with_reducible apply safe_setCtx
  (with_reducible refine safe_foldl _ _ _ ?_ ?_) <;> intros
  · with_reducible apply safe_endChildren
    with_reducible assumption
  · rw [safe_lit]
    with_reducible apply safe_clearCtx
    with_reducible assumption

theorem safe_meetKill (ctx : Nat) (d : Dying) (s : State) (hs : Safe s) : Safe (meetKill ctx d s) := by
  unfold meetKill
  dsimp only
  with_reducible apply safe_setCtx
  with_reducible assumption

theorem safe_endKill (ctx : Nat) (s : State) (hs : Safe s) : Safe (endKill ctx s) := by
  unfold endKill
  split
  · with_reducible assumption
  · with_reducible apply safe_killCtx
    with_reducible assumption

theorem safe_endKills (s : State) (hs : Safe s) : Safe (endKills s) := by
  unfold endKills
  (with_reducible refine safe_foldl _ _ _ ?_ ?_) <;> intros
  · with_reducible apply safe_endKill
    with_reducible assumption
  · with_reducible assumption

theorem safe_trigHit (k v bitsOfV : Nat) (s : State) (hs : Safe s) : Safe (trigHit k v bitsOfV s) := by
  unfold trigHit
  dsimp only
  split
  · with_reducible apply safe_setCluster
    with_reducible assumption
  · with_reducible assumption

theorem safe_trigEntry (cause : Nat) (s : State) (hs : Safe s) : Safe (trigEntry cause s) := by
  unfold trigEntry
  dsimp only
  split
  · with_reducible apply safe_setCluster
    with_reducible assumption
  · with_reducible assumption

theorem safe_killFor (reason cause : Nat) (tval : W64) (lanes : Mask) (s : State) (hs : Safe s) : Safe
    (killFor reason cause tval lanes s) := by
  unfold killFor
  dsimp only
  with_reducible apply safe_meetKill
  rw [safe_lit]
  with_reducible assumption

theorem safe_giveGrant (wid : Nat) (g : Grant) (s : State) (hs : Safe s) : Safe (giveGrant wid g s) := by
  unfold giveGrant
  with_reducible apply safe_modWarp
  with_reducible assumption

theorem safe_pairEvent (wg tval : Nat) (s : State) (hs : Safe s) : Safe (pairEvent wg tval s) := by
  unfold pairEvent
  dsimp only
  split
  · with_reducible assumption
  · (with_reducible refine safe_foldl _ _ _ ?_ ?_) <;> intros
    · with_reducible apply safe_giveGrant
      with_reducible assumption
    · with_reducible apply safe_setWg
      with_reducible assumption

theorem safe_enterTrap (s : State) (hs : Safe s) : Safe (enterTrap s) := by
  unfold enterTrap
  dsimp only
  split
  · with_reducible assumption
  · split
    · with_reducible apply safe_killFor
      with_reducible assumption
    · split
      · with_reducible apply safe_killFor
        with_reducible assumption
      · split
        · with_reducible apply safe_killFor
          with_reducible assumption
        · split
          · with_reducible apply safe_trigEntry
            with_reducible apply safe_pairEvent
            rw [safe_lit]
            with_reducible assumption
          · split
            · with_reducible apply safe_trigEntry
              with_reducible apply safe_pairEvent
              rw [safe_lit]
              with_reducible assumption
            · with_reducible apply safe_trigEntry
              with_reducible apply safe_pairEvent
              rw [safe_lit]
              with_reducible assumption
          · rw [safe_lit]
            with_reducible assumption
          · rw [safe_lit]
            with_reducible assumption

theorem safe_raise (t : TrapInfo) (s : State) (hs : Safe s) : Safe (raise t s) := by
  unfold raise
  dsimp only
  with_reducible apply safe_enterTrap
  rw [safe_lit]
  with_reducible assumption

theorem safe_issued (s : State) (hs : Safe s) : Safe (issued s) := by
  unfold issued
  dsimp only
  rw [safe_lit]
  with_reducible assumption

theorem safe_finish (len : Nat) (a1 : Res) (ha1 : SafeRes a1) : SafeOut (finish len a1) := by
  cases a1 with
  | fall s => exact safe_issued _ ha1
  | jump s => exact safe_issued _ ha1
  | trap s t => exact safe_raise _ _ ha1
  | wait c s => exact ha1
  | block c s => exact ha1

theorem safe_trapAct (cause : Nat) (tval : W64) (act : Mask) (s : State) (hs : Safe s) : SafeRes
    (trapAct cause tval act s) := by
  unfold trapAct
  simp only [SafeRes]
  with_reducible assumption

theorem safe_withSpan (s : State) (act : Mask) (a2 : Warp) (k : State → Res) (hs : Safe s)
    (hk : ∀ x0, Safe x0 → SafeRes (k x0)) : SafeRes (withSpan s act a2 k) := by
  unfold withSpan
  dsimp only
  split
  · with_reducible apply hk
    rw [safe_lit]
    with_reducible assumption
  · with_reducible apply safe_trapAct
    rw [safe_lit]
    with_reducible assumption
  · simp only [SafeRes]
    rw [safe_lit]
    with_reducible assumption
  · simp only [SafeRes]
    rw [safe_lit]
    with_reducible assumption

theorem safe_returnTrap (s : State) (act : Mask) (hs : Safe s) : SafeRes (returnTrap s act) := by
  unfold returnTrap
  dsimp only
  split
  · with_reducible apply safe_trapAct
    with_reducible assumption
  · with_reducible apply safe_withSpan
    · with_reducible assumption
    · simp only [SafeRes]
      intros
      with_reducible assumption

theorem safe_Gate_dropTx (gt : Gate) (s : State) (act : Mask) (hs : Safe s) : Safe (Gate.dropTx gt s act) := by
  unfold Gate.dropTx
  split
  · with_reducible assumption
  · rw [safe_lit]
    with_reducible assumption

theorem safe_failLanes (fail : Nat → Option Fail) (s : State) (act : Mask) (k : State → Mask → Res) (hs : Safe s)
    (hk : ∀ x0 x1, Safe x0 → SafeRes (k x0 x1)) : SafeRes (failLanes fail s act k) := by
  unfold failLanes
  dsimp only
  split
  · with_reducible apply hk
    with_reducible assumption
  · split
    · split
      · simp only [SafeRes]
        rw [safe_lit]
        with_reducible assumption
      · with_reducible apply hk
        rw [safe_lit]
        with_reducible assumption
    · simp only [SafeRes]
      rw [safe_lit]
      with_reducible assumption

theorem safe_Gate_abortLater (gt : Gate) (s : State) (act : Mask) (hs : Safe s) : Safe (gt.abortLater s act) := by
  unfold Gate.abortLater
  dsimp only
  split
  · with_reducible assumption
  · rw [safe_lit]
    with_reducible assumption

theorem safe_Gate_lanes (gt : Gate) (body : State → Mask → Res) (s : State) (act : Mask)
    (hbody : ∀ x0 x1, Safe x0 → SafeRes (body x0 x1)) (hs : Safe s) : SafeRes (Gate.lanes gt body s act) := by
  unfold Gate.lanes
  dsimp only
  split
  · simp only [SafeRes]
    with_reducible apply safe_Gate_dropTx
    with_reducible assumption
  · with_reducible apply safe_failLanes
    · with_reducible apply safe_Gate_abortLater
      with_reducible apply safe_Gate_dropTx
      with_reducible assumption
    · with_reducible assumption

theorem safe_Gate_run (gt : Gate) (body : State → Mask → Res) (s : State)
    (hbody : ∀ x0 x1, Safe x0 → SafeRes (body x0 x1)) (hs : Safe s) : SafeOut (Gate.run gt body s) := by
  unfold Gate.run
  dsimp only
  split
  · with_reducible apply safe_finish
    simp only [SafeRes]
    with_reducible assumption
  · split
    · with_reducible apply safe_finish
      simp only [SafeRes]
      with_reducible assumption
    · split
      · with_reducible apply safe_finish
        simp only [SafeRes]
        with_reducible apply safe_Gate_dropTx
        with_reducible assumption
      · split
        · with_reducible apply safe_finish
          simp only [SafeRes]
          with_reducible assumption
        · split
          · with_reducible apply safe_finish
            simp only [SafeRes]
            with_reducible assumption
          · split
            · with_reducible apply safe_finish
              simp only [SafeRes]
              with_reducible assumption
            · split
              · with_reducible apply safe_finish
                simp only [SafeRes]
                rename_i hq
                refine safeRes_of_eq hq ?_
                with_reducible apply safe_Gate_lanes
                · with_reducible assumption
                · with_reducible assumption
              · with_reducible apply safe_finish
                with_reducible apply safe_Gate_lanes
                · with_reducible assumption
                · with_reducible assumption

theorem safe_onWarp (f : Warp → Mask → Warp) (s : State) (act : Mask) (hs : Safe s) : SafeRes (onWarp f s act) := by
  unfold onWarp
  simp only [SafeRes]
  rw [safe_lit]
  with_reducible assumption

theorem safe_abortLane (l cause : Nat) (s : State) (hs : Safe s) : Safe (abortLane l cause s) := by
  unfold abortLane
  rw [safe_lit]
  with_reducible assumption

theorem safe_logRead (l size : Nat) (p : Pass) (s : State) (hs : Safe s) : Safe (logRead l size p s).1 := by
  unfold logRead
  dsimp only
  split
  · with_reducible assumption
  · split
    · with_reducible assumption
    · split
      · dsimp only
        with_reducible apply safe_abortLane
        with_reducible assumption
      · dsimp only
        rw [safe_lit]
        with_reducible assumption

theorem safe_logWrite (l size : Nat) (p : Pass) (v : W64) (bad : Bool) (s : State) (hs : Safe s) : Safe
    (logWrite l size p v bad s).1 := by
  unfold logWrite
  dsimp only
  split
  · dsimp only
    rw [safe_lit]
    with_reducible assumption
  · split
    · dsimp only
      with_reducible apply safe_abortLane
      with_reducible assumption
    · dsimp only
      rw [safe_lit]
      with_reducible assumption

theorem safe_logAtomic (l size aop ty : Nat) (p : Pass) (x y : W64) (s : State) (hs : Safe s) : Safe
    (logAtomic l size aop ty p x y s).1 := by
  unfold logAtomic
  split
  · dsimp only
    rename_i hq
    refine safe_of_fst_eq hq ?_
    with_reducible apply safe_logRead
    with_reducible assumption
  · dsimp only
    rename_i hq
    refine safe_of_fst_eq hq ?_
    with_reducible apply safe_logRead
    with_reducible assumption
  · split
    · dsimp only
      rename_i hq
      refine safe_of_fst_eq hq ?_
      with_reducible apply safe_logWrite
      rename_i hq2 _ _
      refine safe_of_fst_eq hq2 ?_
      with_reducible apply safe_logRead
      with_reducible assumption
    · dsimp only
      rename_i hq
      refine safe_of_fst_eq hq ?_
      with_reducible apply safe_logWrite
      rename_i hq2 _ _
      refine safe_of_fst_eq hq2 ?_
      with_reducible apply safe_logRead
      with_reducible assumption

theorem safe_noteLinesOf (wid : Nat) (lines : List Nat) (s : State) (hs : Safe s) : Safe (noteLinesOf wid lines s) := by
  unfold noteLinesOf
  rw [safe_lit]
  with_reducible assumption

theorem safe_noteLines (lines : List Nat) (s : State) (hs : Safe s) : Safe (noteLines lines s) := by
  unfold noteLines
  with_reducible apply safe_noteLinesOf
  with_reducible assumption

theorem safe_noteReads (act : Mask) (vas : List W64) (s : State) (hs : Safe s) : Safe (noteReads act vas s) := by
  unfold noteReads
  split
  · with_reducible assumption
  · with_reducible apply safe_noteLines
    with_reducible assumption

theorem safe_commitWord (cluster : Nat) (s : State) (e : LogEntry) (hs : Safe s) : Safe (commitWord cluster s e) := by
  unfold commitWord
  dsimp only
  split
  · with_reducible apply safe_storeMem
    with_reducible apply safe_dropLine
    with_reducible assumption
  · (with_reducible refine safe_foldl _ _ _ ?_ ?_) <;> intros
    · split
      · with_reducible apply safe_storeMem
        with_reducible assumption
      · with_reducible assumption
    · with_reducible apply safe_dropLine
      with_reducible assumption

theorem safe_commitLane (l : Nat) (s : State) (hs : Safe s) : Safe (commitLane l s) := by
  unfold commitLane
  dsimp only
  split
  · with_reducible apply safe_abortLane
    split
    · rw [safe_lit]
      with_reducible assumption
    · with_reducible assumption
  · split
    · with_reducible apply safe_abortLane
      split
      · rw [safe_lit]
        with_reducible assumption
      · with_reducible assumption
    · rw [safe_lit]
      (with_reducible refine safe_foldl _ _ _ ?_ ?_) <;> intros
      · with_reducible apply safe_commitWord
        with_reducible assumption
      · split
        · rw [safe_lit]
          with_reducible assumption
        · with_reducible assumption

theorem safe_parkAt (kind : Nat) (vas : List W64) (s : State) (hs : Safe s) : SafeRes (parkAt kind vas s) := by
  unfold parkAt
  dsimp only
  simp only [SafeRes]
  (with_reducible refine safe_foldl _ _ _ ?_ ?_) <;> intros
  · with_reducible apply safe_addFault
    with_reducible assumption
  · rw [safe_lit]
    with_reducible assumption

theorem safe_withPasses (kind : Nat) (uniform : Bool) (va : Nat → W64) (chk : Nat → Except Fail Pass) (s0 : State)
    (act0 : Mask) (k : State → Mask → (Nat → Pass) → Res) (hs0 : Safe s0) (hk : ∀ x0 x1 x2, Safe x0 → SafeRes (k x0
        x1 x2)) : SafeRes (withPasses kind uniform va chk s0 act0 k) := by
  unfold withPasses
  dsimp only
  split
  · simp only [SafeRes]
    with_reducible assumption
  · with_reducible apply safe_failLanes
    · with_reducible assumption
    · intros
      split
      · simp only [SafeRes]
        rw [safe_lit]
        with_reducible assumption
      · split
        · with_reducible apply hk
          rw [safe_lit]
          with_reducible assumption
        · with_reducible apply safe_parkAt
          with_reducible assumption

theorem safe_issueOp (o : MemOp) (s : State) (hs : Safe s) : Safe (issueOp o s) := by
  unfold issueOp
  dsimp only
  rw [safe_lit]
  with_reducible assumption

theorem safe_logLanes (m : MemSpec) (tx : Mask) (pass : Nat → Pass) (s : State)
    (hm : ∀ l p s, Safe s → Safe (m.log l p s).1) (hs : Safe s) : Safe (logLanes m tx pass s).1 :=
  safe_foldl1 _ _ _ (fun p l hp => hm l (pass l) p.1 hp) hs

/-- What goes on after the warp's accesses keeps memory canonical where it does. -/
theorem safe_afterOps (s : State) (k : State → Res) (hs : Safe s) (hk : ∀ t, Safe t → SafeRes (k t)) :
    SafeRes (afterOps s k) := by
  unfold afterOps
  dsimp only
  have h := safe_runAllOps s.w.wid s hs
  split
  · exact hs
  · split
    · exact hk _ h
    · exact h

theorem safe_withLogs (s : State) (act : Mask) (k : State → Res) (hs : Safe s) (hk : ∀ t, Safe t → SafeRes (k t)) :
    SafeRes (withLogs s act k) := by
  unfold withLogs
  split
  · exact hk _ hs
  · exact safe_afterOps _ _ hs hk

theorem safe_sendAll (ctx : Nat) (ks : List Nat) (s : State) (hs : Safe s) : Safe (sendAll ctx ks s).1 :=
  safe_foldl1 _ _ _ (fun _ k hp => safe_sendOut ctx k _ hp) hs

theorem safe_overFabric (vas : List W64) (s : State) (k : State → Res) (hs : Safe s) (hk : ∀ t, Safe t → SafeRes (k t)) :
    SafeRes (overFabric vas s k) := by
  unfold overFabric
  dsimp only
  have h := safe_sendAll s.w.ctx (vas.flatMap (readKeys s s.w)) s hs
  split
  · exact hk _ h
  · exact h

theorem safe_perLane (m : MemSpec) (s : State) (act : Mask) (pass : Nat → Pass)
    (hm : ∀ l p s, Safe s → Safe (m.log l p s).1) (hs : Safe s) : SafeRes (perLane m s act pass) :=
  safe_withLogs _ _ _ hs fun _ ht => safe_issueOp _ _ (safe_noteLines _ _ (safe_logLanes _ _ _ _ hm ht))

theorem safe_uniform (m : MemSpec) (s : State) (act : Mask) (pass : Nat → Pass)
    (hm : ∀ l p s, Safe s → Safe (m.log l p s).1) (hs : Safe s) : SafeRes (uniform m s act pass) := by
  refine safe_withLogs _ _ _ hs fun t ht => ?_
  have h := safe_logLanes m (t.w.activeTx act) pass t hm ht
  dsimp only
  split
  · split
    · exact safe_issueOp _ _ h
    · exact safe_issueOp _ _ h
  · exact safe_issueOp _ _ (safe_noteLines _ _ h)

theorem safe_execLd (d a b : BitVec 6) (sc : BitVec 3) (o : BitVec 2) (g t : Bool) (s : State) (hs : Safe s)
    : SafeOut (execLd d a b sc o g t s) := by
  unfold execLd
  dsimp only
  with_reducible apply safe_Gate_run
  · intros
    with_reducible apply safe_withPasses
    · with_reducible assumption
    · intros
      with_reducible apply safe_perLane
      · dsimp only
        intros
        with_reducible apply safe_logRead
        with_reducible assumption
      · with_reducible assumption
  · with_reducible assumption

theorem safe_execSt (d a b : BitVec 6) (sc : BitVec 3) (o : BitVec 2) (g t : Bool) (s : State) (hs : Safe s)
    : SafeOut (execSt d a b sc o g t s) := by
  unfold execSt
  dsimp only
  with_reducible apply safe_Gate_run
  · intros
    with_reducible apply safe_withPasses
    · with_reducible assumption
    · intros
      with_reducible apply safe_perLane
      · dsimp only
        intros
        with_reducible apply safe_logWrite
        with_reducible assumption
      · with_reducible assumption
  · with_reducible assumption

theorem safe_execLdu (d a b : BitVec 6) (sc : BitVec 3) (o : BitVec 2) (g t : Bool) (s : State) (hs : Safe s)
    : SafeOut (execLdu d a b sc o g t s) := by
  unfold execLdu
  dsimp only
  with_reducible apply safe_Gate_run
  · intros
    with_reducible apply safe_withPasses
    · with_reducible assumption
    · intros
      with_reducible apply safe_uniform
      · dsimp only
        intros
        with_reducible apply safe_logRead
        with_reducible assumption
      · with_reducible assumption
  · with_reducible assumption

theorem safe_execStu (d a b : BitVec 6) (sc : BitVec 3) (o : BitVec 2) (g t : Bool) (s : State) (hs : Safe s)
    : SafeOut (execStu d a b sc o g t s) := by
  unfold execStu
  dsimp only
  with_reducible apply safe_Gate_run
  · intros
    with_reducible apply safe_withPasses
    · with_reducible assumption
    · intros
      with_reducible apply safe_uniform
      · dsimp only
        intros
        with_reducible apply safe_logWrite
        with_reducible assumption
      · with_reducible assumption
  · with_reducible assumption

theorem safe_scratchOp (m : MemSpec) (s : State) (act : Mask) (pass : Nat → Pass)
    (_hm : ∀ l p s, Safe s → Safe (m.log l p s).1) (hs : Safe s) : SafeRes (scratchOp m s act pass) := by
  unfold scratchOp
  simp only [SafeRes]
  with_reducible apply safe_issueOp
  with_reducible assumption

theorem safe_execLdh (d a b : BitVec 6) (sc : BitVec 3) (o : BitVec 2) (g t : Bool) (s : State) (hs : Safe s)
    : SafeOut (execLdh d a b sc o g t s) := by
  unfold execLdh
  dsimp only
  with_reducible apply safe_Gate_run
  · intros
    with_reducible apply safe_withPasses
    · with_reducible assumption
    · intros
      with_reducible apply safe_scratchOp
      · dsimp only
        intros
        with_reducible assumption
      · with_reducible assumption
  · with_reducible assumption

theorem safe_execSth (d a b : BitVec 6) (sc : BitVec 3) (o : BitVec 2) (g t : Bool) (s : State) (hs : Safe s)
    : SafeOut (execSth d a b sc o g t s) := by
  unfold execSth
  dsimp only
  with_reducible apply safe_Gate_run
  · intros
    with_reducible apply safe_withPasses
    · with_reducible assumption
    · intros
      with_reducible apply safe_scratchOp
      · dsimp only
        intros
        with_reducible assumption
      · with_reducible assumption
  · with_reducible assumption

theorem safe_globalAtomic (op : BitVec 7) (ret ar : Bool) (d a b : BitVec 6) (aop : BitVec 4) (sc : BitVec 3)
    (s : State) (hs : Safe s) : SafeOut (globalAtomic op ret ar d a b aop sc s) := by
  unfold globalAtomic
  dsimp only
  with_reducible apply safe_Gate_run
  · intros
    with_reducible apply safe_withPasses
    · with_reducible assumption
    · intros
      with_reducible apply safe_perLane
      · dsimp only
        intros
        split
        · split
          · dsimp only
            rename_i hq _
            refine safe_of_fst_eq hq ?_
            with_reducible apply safe_logAtomic
            with_reducible assumption
          · dsimp only
            split
            · with_reducible apply safe_logUnc
              rename_i hq _ _
              refine safe_of_fst_eq hq ?_
              with_reducible apply safe_logAtomic
              with_reducible assumption
            · rename_i hq _ _
              refine safe_of_fst_eq hq ?_
              with_reducible apply safe_logAtomic
              with_reducible assumption
        · dsimp only
          rename_i hq
          refine safe_of_fst_eq hq ?_
          with_reducible apply safe_logAtomic
          with_reducible assumption
      · with_reducible assumption
  · with_reducible assumption

theorem safe_execAtom (d a b : BitVec 6) (aop : BitVec 4) (sc : BitVec 3) (s : State) (hs : Safe s) : SafeOut
    (execAtom d a b aop sc s) := by
  unfold execAtom
  with_reducible apply safe_globalAtomic
  with_reducible assumption

theorem safe_execAtoma (d a b : BitVec 6) (aop : BitVec 4) (sc : BitVec 3) (s : State) (hs : Safe s) : SafeOut
    (execAtoma d a b aop sc s) := by
  unfold execAtoma
  with_reducible apply safe_globalAtomic
  with_reducible assumption

theorem safe_execRed (a b : BitVec 6) (aop : BitVec 4) (sc : BitVec 3) (s : State) (hs : Safe s) : SafeOut
    (execRed a b aop sc s) := by
  unfold execRed
  with_reducible apply safe_globalAtomic
  with_reducible assumption

theorem safe_execAtomh (d a b : BitVec 6) (aop : BitVec 4) (sc : BitVec 3) (s : State) (hs : Safe s) : SafeOut
    (execAtomh d a b aop sc s) := by
  unfold execAtomh
  dsimp only
  with_reducible apply safe_Gate_run
  · intros
    with_reducible apply safe_withPasses
    · with_reducible assumption
    · intros
      with_reducible apply safe_scratchOp
      · dsimp only
        intros
        with_reducible assumption
      · with_reducible assumption
  · with_reducible assumption

theorem safe_withFlags (word : W64) (s : State) (act : Mask) (fl : Nat → BitVec 5) (k : Warp → Warp) (hs : Safe s)
    : SafeRes (withFlags word s act fl k) := by
  unfold withFlags
  dsimp only
  split
  · simp only [SafeRes]
    with_reducible assumption
  · simp only [SafeRes]
    rw [safe_lit]
    with_reducible assumption

theorem safe_withTreeFlags (word : W64) (s : State) (act : Mask) (fl : BitVec 5) (k : Warp → Warp) (hs : Safe s)
    : SafeRes (withTreeFlags word s act fl k) := by
  unfold withTreeFlags
  split
  · with_reducible apply safe_trapAct
    with_reducible assumption
  · simp only [SafeRes]
    rw [safe_lit]
    with_reducible assumption

end Sys2Proof.Machine
end

