-- ==== Sys2Proof/Laws/SafeLanes.lean ====
section
/-! SUPPORT. Safety, operation by operation: the scalar, vector, floating-point and cross-lane instructions keep
memory in its canonical form. -/

namespace Sys2Proof.Machine

theorem safe_salu (fn : BitVec 4) (d a b : BitVec 6) (g t : Bool) (op : (n : Nat) → BitVec n → BitVec n → BitVec n)
    (s : State) (hs : Safe s) : SafeOut (salu fn d a b g t op s) := by
  unfold salu
  with_reducible apply safe_Gate_run
  · intros
    with_reducible apply safe_onWarp
    with_reducible assumption
  · with_reducible assumption

theorem safe_salu1 (fn : BitVec 4) (d a : BitVec 6) (g t : Bool) (op : (n : Nat) → BitVec n → BitVec n) (s : State)
    (hs : Safe s) : SafeOut (salu1 fn d a g t op s) := by
  unfold salu1
  with_reducible apply safe_Gate_run
  · intros
    with_reducible apply safe_onWarp
    with_reducible assumption
  · with_reducible assumption

theorem safe_execNop (s : State) (hs : Safe s) : SafeOut (execNop s) := by
  unfold execNop
  with_reducible apply safe_Gate_run
  · intros
    with_reducible apply safe_onWarp
    with_reducible assumption
  · with_reducible assumption

theorem safe_execSadd (d a b : BitVec 6) (g t : Bool) (s : State) (hs : Safe s) : SafeOut (execSadd d a b g t s) := by
  unfold execSadd
  with_reducible apply safe_salu
  with_reducible assumption

theorem safe_execSsub (d a b : BitVec 6) (g t : Bool) (s : State) (hs : Safe s) : SafeOut (execSsub d a b g t s) := by
  unfold execSsub
  with_reducible apply safe_salu
  with_reducible assumption

theorem safe_execSmul (d a b : BitVec 6) (g t : Bool) (s : State) (hs : Safe s) : SafeOut (execSmul d a b g t s) := by
  unfold execSmul
  with_reducible apply safe_salu
  with_reducible assumption

theorem safe_execSmulh (d a b : BitVec 6) (g t : Bool) (s : State) (hs : Safe s) : SafeOut (execSmulh d a b g t s) := by
  unfold execSmulh
  with_reducible apply safe_salu
  with_reducible assumption

theorem safe_execSand (d a b : BitVec 6) (g t : Bool) (s : State) (hs : Safe s) : SafeOut (execSand d a b g t s) := by
  unfold execSand
  with_reducible apply safe_salu
  with_reducible assumption

theorem safe_execSor (d a b : BitVec 6) (g t : Bool) (s : State) (hs : Safe s) : SafeOut (execSor d a b g t s) := by
  unfold execSor
  with_reducible apply safe_salu
  with_reducible assumption

theorem safe_execSxor (d a b : BitVec 6) (g t : Bool) (s : State) (hs : Safe s) : SafeOut (execSxor d a b g t s) := by
  unfold execSxor
  with_reducible apply safe_salu
  with_reducible assumption

theorem safe_execSshl (d a b : BitVec 6) (g t : Bool) (s : State) (hs : Safe s) : SafeOut (execSshl d a b g t s) := by
  unfold execSshl
  with_reducible apply safe_salu
  with_reducible assumption

theorem safe_execSshr (d a b : BitVec 6) (g t : Bool) (s : State) (hs : Safe s) : SafeOut (execSshr d a b g t s) := by
  unfold execSshr
  with_reducible apply safe_salu
  with_reducible assumption

theorem safe_execSsar (d a b : BitVec 6) (g t : Bool) (s : State) (hs : Safe s) : SafeOut (execSsar d a b g t s) := by
  unfold execSsar
  with_reducible apply safe_salu
  with_reducible assumption

theorem safe_execSmin (d a b : BitVec 6) (g t : Bool) (s : State) (hs : Safe s) : SafeOut (execSmin d a b g t s) := by
  unfold execSmin
  with_reducible apply safe_salu
  with_reducible assumption

theorem safe_execSmax (d a b : BitVec 6) (g t : Bool) (s : State) (hs : Safe s) : SafeOut (execSmax d a b g t s) := by
  unfold execSmax
  with_reducible apply safe_salu
  with_reducible assumption

theorem safe_execSminu (d a b : BitVec 6) (g t : Bool) (s : State) (hs : Safe s) : SafeOut (execSminu d a b g t s) := by
  unfold execSminu
  with_reducible apply safe_salu
  with_reducible assumption

theorem safe_execSmaxu (d a b : BitVec 6) (g t : Bool) (s : State) (hs : Safe s) : SafeOut (execSmaxu d a b g t s) := by
  unfold execSmaxu
  with_reducible apply safe_salu
  with_reducible assumption

theorem safe_execSclz (d a : BitVec 6) (g t : Bool) (s : State) (hs : Safe s) : SafeOut (execSclz d a g t s) := by
  unfold execSclz
  with_reducible apply safe_salu1
  with_reducible assumption

theorem safe_execSpop (d a : BitVec 6) (g t : Bool) (s : State) (hs : Safe s) : SafeOut (execSpop d a g t s) := by
  unfold execSpop
  with_reducible apply safe_salu1
  with_reducible assumption

theorem safe_execSaddi (d a : BitVec 6) (imm : BitVec 12) (g : Bool) (s : State) (hs : Safe s) : SafeOut
    (execSaddi d a imm g s) := by
  unfold execSaddi
  with_reducible apply safe_Gate_run
  · intros
    with_reducible apply safe_onWarp
    with_reducible assumption
  · with_reducible assumption

theorem safe_scmp (fn : BitVec 4) (d : BitVec 3) (a b : BitVec 6) (g t : Bool)
    (c : (n : Nat) → BitVec n → BitVec n → Bool) (s : State) (hs : Safe s) : SafeOut (scmp fn d a b g t c s) := by
  unfold scmp
  dsimp only
  with_reducible apply safe_Gate_run
  · intros
    with_reducible apply safe_onWarp
    with_reducible assumption
  · with_reducible assumption

theorem safe_execScmpeq (d : BitVec 3) (a b : BitVec 6) (g t : Bool) (s : State) (hs : Safe s) : SafeOut
    (execScmpeq d a b g t s) := by
  unfold execScmpeq
  with_reducible apply safe_scmp
  with_reducible assumption

theorem safe_execScmpne (d : BitVec 3) (a b : BitVec 6) (g t : Bool) (s : State) (hs : Safe s) : SafeOut
    (execScmpne d a b g t s) := by
  unfold execScmpne
  with_reducible apply safe_scmp
  with_reducible assumption

theorem safe_execScmplt (d : BitVec 3) (a b : BitVec 6) (g t : Bool) (s : State) (hs : Safe s) : SafeOut
    (execScmplt d a b g t s) := by
  unfold execScmplt
  with_reducible apply safe_scmp
  with_reducible assumption

theorem safe_execScmple (d : BitVec 3) (a b : BitVec 6) (g t : Bool) (s : State) (hs : Safe s) : SafeOut
    (execScmple d a b g t s) := by
  unfold execScmple
  with_reducible apply safe_scmp
  with_reducible assumption

theorem safe_execScmpltu (d : BitVec 3) (a b : BitVec 6) (g t : Bool) (s : State) (hs : Safe s) : SafeOut
    (execScmpltu d a b g t s) := by
  unfold execScmpltu
  with_reducible apply safe_scmp
  with_reducible assumption

theorem safe_execScmpleu (d : BitVec 3) (a b : BitVec 6) (g t : Bool) (s : State) (hs : Safe s) : SafeOut
    (execScmpleu d a b g t s) := by
  unfold execScmpleu
  with_reducible apply safe_scmp
  with_reducible assumption

theorem safe_execScmpgt (d : BitVec 3) (a b : BitVec 6) (g t : Bool) (s : State) (hs : Safe s) : SafeOut
    (execScmpgt d a b g t s) := by
  unfold execScmpgt
  with_reducible apply safe_scmp
  with_reducible assumption

theorem safe_execScmpge (d : BitVec 3) (a b : BitVec 6) (g t : Bool) (s : State) (hs : Safe s) : SafeOut
    (execScmpge d a b g t s) := by
  unfold execScmpge
  with_reducible apply safe_scmp
  with_reducible assumption

theorem safe_execScmpgtu (d : BitVec 3) (a b : BitVec 6) (g t : Bool) (s : State) (hs : Safe s) : SafeOut
    (execScmpgtu d a b g t s) := by
  unfold execScmpgtu
  with_reducible apply safe_scmp
  with_reducible assumption

theorem safe_execScmpgeu (d : BitVec 3) (a b : BitVec 6) (g t : Bool) (s : State) (hs : Safe s) : SafeOut
    (execScmpgeu d a b g t s) := by
  unfold execScmpgeu
  with_reducible apply safe_scmp
  with_reducible assumption

theorem safe_smov16 (fn : BitVec 3) (d : BitVec 6) (imm : BitVec 16) (keep : Bool) (f : W64 → W64) (s : State)
    (hs : Safe s) : SafeOut (smov16 fn d imm keep f s) := by
  unfold smov16
  with_reducible apply safe_Gate_run
  · intros
    with_reducible apply safe_onWarp
    with_reducible assumption
  · with_reducible assumption

theorem safe_execSmovi (d : BitVec 6) (imm : BitVec 16) (s : State) (hs : Safe s) : SafeOut (execSmovi d imm s) := by
  unfold execSmovi
  with_reducible apply safe_smov16
  with_reducible assumption

theorem safe_execSins16 (d : BitVec 6) (imm : BitVec 16) (s : State) (hs : Safe s) : SafeOut (execSins16 d imm s) := by
  unfold execSins16
  with_reducible apply safe_smov16
  with_reducible assumption

theorem safe_execSins32 (d : BitVec 6) (imm : BitVec 16) (s : State) (hs : Safe s) : SafeOut (execSins32 d imm s) := by
  unfold execSins32
  with_reducible apply safe_smov16
  with_reducible assumption

theorem safe_execSins48 (d : BitVec 6) (imm : BitVec 16) (s : State) (hs : Safe s) : SafeOut (execSins48 d imm s) := by
  unfold execSins48
  with_reducible apply safe_smov16
  with_reducible assumption

theorem safe_smov32 (fn : BitVec 3) (d : BitVec 6) (g keep : Bool) (f : W64 → W64) (s : State) (hs : Safe s)
    : SafeOut (smov32 fn d g keep f s) := by
  unfold smov32
  with_reducible apply safe_Gate_run
  · intros
    with_reducible apply safe_onWarp
    with_reducible assumption
  · with_reducible assumption

theorem safe_execSmovl (d : BitVec 6) (g : Bool) (lit : BitVec 32) (s : State) (hs : Safe s) : SafeOut
    (execSmovl d g lit s) := by
  unfold execSmovl
  with_reducible apply safe_smov32
  with_reducible assumption

theorem safe_execSmovlz (d : BitVec 6) (g : Bool) (lit : BitVec 32) (s : State) (hs : Safe s) : SafeOut
    (execSmovlz d g lit s) := by
  unfold execSmovlz
  with_reducible apply safe_smov32
  with_reducible assumption

theorem safe_execSmovlh (d : BitVec 6) (g : Bool) (lit : BitVec 32) (s : State) (hs : Safe s) : SafeOut
    (execSmovlh d g lit s) := by
  unfold execSmovlh
  with_reducible apply safe_smov32
  with_reducible assumption

theorem safe_execSsel (d a b c : BitVec 6) (g : Bool) (s : State) (hs : Safe s) : SafeOut (execSsel d a b c g s) := by
  unfold execSsel
  dsimp only
  with_reducible apply safe_Gate_run
  · intros
    with_reducible apply safe_onWarp
    with_reducible assumption
  · with_reducible assumption

theorem safe_sdivOp (fn : BitVec 4) (d a b : BitVec 6) (g t sgn rem : Bool) (s : State) (hs : Safe s) : SafeOut
    (sdivOp fn d a b g t sgn rem s) := by
  unfold sdivOp
  dsimp only
  with_reducible apply safe_Gate_run
  · intros
    split
    · split
      · with_reducible apply safe_trapAct
        with_reducible assumption
      · simp only [SafeRes]
        rw [safe_lit]
        with_reducible assumption
    · split
      · with_reducible apply safe_trapAct
        with_reducible assumption
      · simp only [SafeRes]
        rw [safe_lit]
        with_reducible assumption
  · with_reducible assumption

theorem safe_execSdiv (d a b : BitVec 6) (g t : Bool) (s : State) (hs : Safe s) : SafeOut (execSdiv d a b g t s) := by
  unfold execSdiv
  with_reducible apply safe_sdivOp
  with_reducible assumption

theorem safe_execSdivu (d a b : BitVec 6) (g t : Bool) (s : State) (hs : Safe s) : SafeOut (execSdivu d a b g t s) := by
  unfold execSdivu
  with_reducible apply safe_sdivOp
  with_reducible assumption

theorem safe_execSrem (d a b : BitVec 6) (g t : Bool) (s : State) (hs : Safe s) : SafeOut (execSrem d a b g t s) := by
  unfold execSrem
  with_reducible apply safe_sdivOp
  with_reducible assumption

theorem safe_execSremu (d a b : BitVec 6) (g t : Bool) (s : State) (hs : Safe s) : SafeOut (execSremu d a b g t s) := by
  unfold execSremu
  with_reducible apply safe_sdivOp
  with_reducible assumption

theorem safe_plog (fn : BitVec 4) (d a b : BitVec 3) (g : Bool) (f : Mask → Mask → Mask) (s : State) (hs : Safe s)
    : SafeOut (plog fn d a b g f s) := by
  unfold plog
  with_reducible apply safe_Gate_run
  · intros
    with_reducible apply safe_onWarp
    with_reducible assumption
  · with_reducible assumption

theorem safe_execPand (d a b : BitVec 3) (g : Bool) (s : State) (hs : Safe s) : SafeOut (execPand d a b g s) := by
  unfold execPand
  with_reducible apply safe_plog
  with_reducible assumption

theorem safe_execPor (d a b : BitVec 3) (g : Bool) (s : State) (hs : Safe s) : SafeOut (execPor d a b g s) := by
  unfold execPor
  with_reducible apply safe_plog
  with_reducible assumption

theorem safe_execPxor (d a b : BitVec 3) (g : Bool) (s : State) (hs : Safe s) : SafeOut (execPxor d a b g s) := by
  unfold execPxor
  with_reducible apply safe_plog
  with_reducible assumption

theorem safe_execPandn (d a b : BitVec 3) (g : Bool) (s : State) (hs : Safe s) : SafeOut (execPandn d a b g s) := by
  unfold execPandn
  with_reducible apply safe_plog
  with_reducible assumption

theorem safe_execPnot (d a : BitVec 3) (g : Bool) (s : State) (hs : Safe s) : SafeOut (execPnot d a g s) := by
  unfold execPnot
  with_reducible apply safe_plog
  with_reducible assumption

theorem safe_execPmov (d a : BitVec 3) (g : Bool) (s : State) (hs : Safe s) : SafeOut (execPmov d a g s) := by
  unfold execPmov
  with_reducible apply safe_plog
  with_reducible assumption

theorem safe_execPset (d : BitVec 3) (g : Bool) (s : State) (hs : Safe s) : SafeOut (execPset d g s) := by
  unfold execPset
  with_reducible apply safe_plog
  with_reducible assumption

theorem safe_execPclr (d : BitVec 3) (g : Bool) (s : State) (hs : Safe s) : SafeOut (execPclr d g s) := by
  unfold execPclr
  with_reducible apply safe_plog
  with_reducible assumption

theorem safe_predS (fn : BitVec 4) (d : BitVec 6) (a : BitVec 3) (g : Bool) (f : Mask → Mask → W64) (s : State)
    (hs : Safe s) : SafeOut (predS fn d a g f s) := by
  unfold predS
  with_reducible apply safe_Gate_run
  · intros
    with_reducible apply safe_onWarp
    with_reducible assumption
  · with_reducible assumption

theorem safe_execPany (d : BitVec 6) (a : BitVec 3) (g : Bool) (s : State) (hs : Safe s) : SafeOut
    (execPany d a g s) := by
  unfold execPany
  with_reducible apply safe_predS
  with_reducible assumption

theorem safe_execPall (d : BitVec 6) (a : BitVec 3) (g : Bool) (s : State) (hs : Safe s) : SafeOut
    (execPall d a g s) := by
  unfold execPall
  with_reducible apply safe_predS
  with_reducible assumption

theorem safe_execPpop (d : BitVec 6) (a : BitVec 3) (g : Bool) (s : State) (hs : Safe s) : SafeOut
    (execPpop d a g s) := by
  unfold execPpop
  with_reducible apply safe_predS
  with_reducible assumption

theorem safe_execPtos (d : BitVec 6) (a : BitVec 3) (g : Bool) (s : State) (hs : Safe s) : SafeOut
    (execPtos d a g s) := by
  unfold execPtos
  with_reducible apply safe_predS
  with_reducible assumption

theorem safe_execStop (d : BitVec 3) (a : BitVec 6) (g : Bool) (s : State) (hs : Safe s) : SafeOut
    (execStop d a g s) := by
  unfold execStop
  with_reducible apply safe_Gate_run
  · intros
    with_reducible apply safe_onWarp
    with_reducible assumption
  · with_reducible assumption

theorem safe_setMode (word : W64) (scals : List Nat) (us : List Use) (f : Warp → W32) (s : State) (hs : Safe s)
    : SafeOut (setMode word scals us f s) := by
  unfold setMode
  dsimp only
  with_reducible apply safe_Gate_run
  · intros
    split
    · simp only [SafeRes]
      rw [safe_lit]
      with_reducible assumption
    · with_reducible apply safe_trapAct
      with_reducible assumption
  · with_reducible assumption

theorem safe_execSetmg (imm : BitVec 4) (s : State) (hs : Safe s) : SafeOut (execSetmg imm s) := by
  unfold execSetmg
  with_reducible apply safe_setMode
  with_reducible assumption

theorem safe_execSetmt (imm : BitVec 10) (s : State) (hs : Safe s) : SafeOut (execSetmt imm s) := by
  unfold execSetmt
  with_reducible apply safe_setMode
  with_reducible assumption

theorem safe_execSetmr (imm : BitVec 7) (s : State) (hs : Safe s) : SafeOut (execSetmr imm s) := by
  unfold execSetmr
  with_reducible apply safe_setMode
  with_reducible assumption

theorem safe_execSetm (d : BitVec 6) (s : State) (hs : Safe s) : SafeOut (execSetm d s) := by
  unfold execSetm
  with_reducible apply safe_setMode
  with_reducible assumption

theorem safe_execGetm (d : BitVec 6) (s : State) (hs : Safe s) : SafeOut (execGetm d s) := by
  unfold execGetm
  with_reducible apply safe_Gate_run
  · intros
    with_reducible apply safe_onWarp
    with_reducible assumption
  · with_reducible assumption

theorem safe_vBin (op : BitVec 7) (fn : BitVec 4) (d a b : BitVec 6) (g t : Bool) (legal : Nat → Bool)
    (f : Path → Nat → Nat → Nat → Nat) (s : State) (hs : Safe s) : SafeOut (vBin op fn d a b g t legal f s) := by
  unfold vBin
  dsimp only
  with_reducible apply safe_Gate_run
  · intros
    with_reducible apply safe_onWarp
    with_reducible assumption
  · with_reducible assumption

theorem safe_vUn (op : BitVec 7) (fn : BitVec 4) (d a : BitVec 6) (g t : Bool) (legal : Nat → Bool)
    (f : Path → Nat → Nat → Nat) (s : State) (hs : Safe s) : SafeOut (vUn op fn d a g t legal f s) := by
  unfold vUn
  dsimp only
  with_reducible apply safe_Gate_run
  · intros
    with_reducible apply safe_onWarp
    with_reducible assumption
  · with_reducible assumption

theorem safe_execVadd (d a b : BitVec 6) (g t : Bool) (s : State) (hs : Safe s) : SafeOut (execVadd d a b g t s) := by
  unfold execVadd
  with_reducible apply safe_vBin
  with_reducible assumption

theorem safe_execVsub (d a b : BitVec 6) (g t : Bool) (s : State) (hs : Safe s) : SafeOut (execVsub d a b g t s) := by
  unfold execVsub
  with_reducible apply safe_vBin
  with_reducible assumption

theorem safe_execVmul (d a b : BitVec 6) (g t : Bool) (s : State) (hs : Safe s) : SafeOut (execVmul d a b g t s) := by
  unfold execVmul
  with_reducible apply safe_vBin
  with_reducible assumption

theorem safe_execVmulh (d a b : BitVec 6) (g t : Bool) (s : State) (hs : Safe s) : SafeOut (execVmulh d a b g t s) := by
  unfold execVmulh
  dsimp only
  with_reducible apply safe_vBin
  with_reducible assumption

theorem safe_execVmulhu (d a b : BitVec 6) (g t : Bool) (s : State) (hs : Safe s) : SafeOut
    (execVmulhu d a b g t s) := by
  unfold execVmulhu
  dsimp only
  with_reducible apply safe_vBin
  with_reducible assumption

theorem safe_execVmin (d a b : BitVec 6) (g t : Bool) (s : State) (hs : Safe s) : SafeOut (execVmin d a b g t s) := by
  unfold execVmin
  with_reducible apply safe_vBin
  with_reducible assumption

theorem safe_execVmax (d a b : BitVec 6) (g t : Bool) (s : State) (hs : Safe s) : SafeOut (execVmax d a b g t s) := by
  unfold execVmax
  with_reducible apply safe_vBin
  with_reducible assumption

theorem safe_execVabs (d a : BitVec 6) (g t : Bool) (s : State) (hs : Safe s) : SafeOut (execVabs d a g t s) := by
  unfold execVabs
  with_reducible apply safe_vUn
  with_reducible assumption

theorem safe_execVneg (d a : BitVec 6) (g t : Bool) (s : State) (hs : Safe s) : SafeOut (execVneg d a g t s) := by
  unfold execVneg
  with_reducible apply safe_vUn
  with_reducible assumption

theorem safe_execVabsdiff (d a b : BitVec 6) (g t : Bool) (s : State) (hs : Safe s) : SafeOut
    (execVabsdiff d a b g t s) := by
  unfold execVabsdiff
  with_reducible apply safe_vBin
  with_reducible assumption

theorem safe_execVavg (d a b : BitVec 6) (g t : Bool) (s : State) (hs : Safe s) : SafeOut (execVavg d a b g t s) := by
  unfold execVavg
  with_reducible apply safe_vBin
  with_reducible assumption

theorem safe_execVand (d a b : BitVec 6) (g t : Bool) (s : State) (hs : Safe s) : SafeOut (execVand d a b g t s) := by
  unfold execVand
  with_reducible apply safe_vBin
  with_reducible assumption

theorem safe_execVor (d a b : BitVec 6) (g t : Bool) (s : State) (hs : Safe s) : SafeOut (execVor d a b g t s) := by
  unfold execVor
  with_reducible apply safe_vBin
  with_reducible assumption

theorem safe_execVxor (d a b : BitVec 6) (g t : Bool) (s : State) (hs : Safe s) : SafeOut (execVxor d a b g t s) := by
  unfold execVxor
  with_reducible apply safe_vBin
  with_reducible assumption

theorem safe_execVandn (d a b : BitVec 6) (g t : Bool) (s : State) (hs : Safe s) : SafeOut (execVandn d a b g t s) := by
  unfold execVandn
  with_reducible apply safe_vBin
  with_reducible assumption

theorem safe_execVnot (d a : BitVec 6) (g t : Bool) (s : State) (hs : Safe s) : SafeOut (execVnot d a g t s) := by
  unfold execVnot
  with_reducible apply safe_vUn
  with_reducible assumption

theorem safe_execVshl (d a b : BitVec 6) (g t : Bool) (s : State) (hs : Safe s) : SafeOut (execVshl d a b g t s) := by
  unfold execVshl
  with_reducible apply safe_vBin
  with_reducible assumption

theorem safe_execVshr (d a b : BitVec 6) (g t : Bool) (s : State) (hs : Safe s) : SafeOut (execVshr d a b g t s) := by
  unfold execVshr
  with_reducible apply safe_vBin
  with_reducible assumption

theorem safe_execVsar (d a b : BitVec 6) (g t : Bool) (s : State) (hs : Safe s) : SafeOut (execVsar d a b g t s) := by
  unfold execVsar
  with_reducible apply safe_vBin
  with_reducible assumption

theorem safe_execVrol (d a b : BitVec 6) (g t : Bool) (s : State) (hs : Safe s) : SafeOut (execVrol d a b g t s) := by
  unfold execVrol
  with_reducible apply safe_vBin
  with_reducible assumption

theorem safe_execVror (d a b : BitVec 6) (g t : Bool) (s : State) (hs : Safe s) : SafeOut (execVror d a b g t s) := by
  unfold execVror
  with_reducible apply safe_vBin
  with_reducible assumption

theorem safe_execVclz (d a : BitVec 6) (g t : Bool) (s : State) (hs : Safe s) : SafeOut (execVclz d a g t s) := by
  unfold execVclz
  with_reducible apply safe_vUn
  with_reducible assumption

theorem safe_execVpop (d a : BitVec 6) (g t : Bool) (s : State) (hs : Safe s) : SafeOut (execVpop d a g t s) := by
  unfold execVpop
  with_reducible apply safe_vUn
  with_reducible assumption

theorem safe_execVbrev (d a : BitVec 6) (g t : Bool) (s : State) (hs : Safe s) : SafeOut (execVbrev d a g t s) := by
  unfold execVbrev
  with_reducible apply safe_vUn
  with_reducible assumption

theorem safe_execVimad (d a b c : BitVec 6) (g : Bool) (s : State) (hs : Safe s) : SafeOut (execVimad d a b c g s) := by
  unfold execVimad
  dsimp only
  with_reducible apply safe_Gate_run
  · intros
    with_reducible apply safe_onWarp
    with_reducible assumption
  · with_reducible assumption

theorem safe_vbfeOp (fn : BitVec 4) (d a b : BitVec 6) (g t sgn : Bool) (s : State) (hs : Safe s) : SafeOut
    (vbfeOp fn d a b g t sgn s) := by
  unfold vbfeOp
  dsimp only
  with_reducible apply safe_Gate_run
  · intros
    with_reducible apply safe_onWarp
    with_reducible assumption
  · with_reducible assumption

theorem safe_execVbfe (d a b : BitVec 6) (g t : Bool) (s : State) (hs : Safe s) : SafeOut (execVbfe d a b g t s) := by
  unfold execVbfe
  with_reducible apply safe_vbfeOp
  with_reducible assumption

theorem safe_execVbfes (d a b : BitVec 6) (g t : Bool) (s : State) (hs : Safe s) : SafeOut (execVbfes d a b g t s) := by
  unfold execVbfes
  with_reducible apply safe_vbfeOp
  with_reducible assumption

theorem safe_execVbfi (d a b c : BitVec 6) (g : Bool) (s : State) (hs : Safe s) : SafeOut (execVbfi d a b c g s) := by
  unfold execVbfi
  dsimp only
  with_reducible apply safe_Gate_run
  · intros
    with_reducible apply safe_onWarp
    with_reducible assumption
  · with_reducible assumption

theorem safe_vcmp (fn : BitVec 4) (d : BitVec 3) (a b : BitVec 6) (g t : Bool) (c : Nat → Nat → Nat → Bool)
    (s : State) (hs : Safe s) : SafeOut (vcmp fn d a b g t c s) := by
  unfold vcmp
  dsimp only
  with_reducible apply safe_Gate_run
  · intros
    with_reducible apply safe_onWarp
    with_reducible assumption
  · with_reducible assumption

theorem safe_execVcmpeq (d : BitVec 3) (a b : BitVec 6) (g t : Bool) (s : State) (hs : Safe s) : SafeOut
    (execVcmpeq d a b g t s) := by
  unfold execVcmpeq
  with_reducible apply safe_vcmp
  with_reducible assumption

theorem safe_execVcmpne (d : BitVec 3) (a b : BitVec 6) (g t : Bool) (s : State) (hs : Safe s) : SafeOut
    (execVcmpne d a b g t s) := by
  unfold execVcmpne
  with_reducible apply safe_vcmp
  with_reducible assumption

theorem safe_execVcmplt (d : BitVec 3) (a b : BitVec 6) (g t : Bool) (s : State) (hs : Safe s) : SafeOut
    (execVcmplt d a b g t s) := by
  unfold execVcmplt
  with_reducible apply safe_vcmp
  with_reducible assumption

theorem safe_execVcmple (d : BitVec 3) (a b : BitVec 6) (g t : Bool) (s : State) (hs : Safe s) : SafeOut
    (execVcmple d a b g t s) := by
  unfold execVcmple
  with_reducible apply safe_vcmp
  with_reducible assumption

theorem safe_execVcmpltu (d : BitVec 3) (a b : BitVec 6) (g t : Bool) (s : State) (hs : Safe s) : SafeOut
    (execVcmpltu d a b g t s) := by
  unfold execVcmpltu
  with_reducible apply safe_vcmp
  with_reducible assumption

theorem safe_execVcmpleu (d : BitVec 3) (a b : BitVec 6) (g t : Bool) (s : State) (hs : Safe s) : SafeOut
    (execVcmpleu d a b g t s) := by
  unfold execVcmpleu
  with_reducible apply safe_vcmp
  with_reducible assumption

theorem safe_execVcmpgt (d : BitVec 3) (a b : BitVec 6) (g t : Bool) (s : State) (hs : Safe s) : SafeOut
    (execVcmpgt d a b g t s) := by
  unfold execVcmpgt
  with_reducible apply safe_vcmp
  with_reducible assumption

theorem safe_execVcmpge (d : BitVec 3) (a b : BitVec 6) (g t : Bool) (s : State) (hs : Safe s) : SafeOut
    (execVcmpge d a b g t s) := by
  unfold execVcmpge
  with_reducible apply safe_vcmp
  with_reducible assumption

theorem safe_execVcmpgtu (d : BitVec 3) (a b : BitVec 6) (g t : Bool) (s : State) (hs : Safe s) : SafeOut
    (execVcmpgtu d a b g t s) := by
  unfold execVcmpgtu
  with_reducible apply safe_vcmp
  with_reducible assumption

theorem safe_execVcmpgeu (d : BitVec 3) (a b : BitVec 6) (g t : Bool) (s : State) (hs : Safe s) : SafeOut
    (execVcmpgeu d a b g t s) := by
  unfold execVcmpgeu
  with_reducible apply safe_vcmp
  with_reducible assumption

theorem safe_execVsel (d a b : BitVec 6) (c : BitVec 3) (g : Bool) (s : State) (hs : Safe s) : SafeOut
    (execVsel d a b c g s) := by
  unfold execVsel
  dsimp only
  with_reducible apply safe_Gate_run
  · intros
    with_reducible apply safe_onWarp
    with_reducible assumption
  · with_reducible assumption

theorem safe_vdivOp (fn : BitVec 4) (d a b : BitVec 6) (g t rem : Bool) (s : State) (hs : Safe s) : SafeOut
    (vdivOp fn d a b g t rem s) := by
  unfold vdivOp
  dsimp only
  with_reducible apply safe_Gate_run
  · intros
    split
    · simp only [SafeRes]
      with_reducible assumption
    · simp only [SafeRes]
      rw [safe_lit]
      with_reducible assumption
  · with_reducible assumption

theorem safe_execVdiv (d a b : BitVec 6) (g t : Bool) (s : State) (hs : Safe s) : SafeOut (execVdiv d a b g t s) := by
  unfold execVdiv
  with_reducible apply safe_vdivOp
  with_reducible assumption

theorem safe_execVrem (d a b : BitVec 6) (g t : Bool) (s : State) (hs : Safe s) : SafeOut (execVrem d a b g t s) := by
  unfold execVrem
  with_reducible apply safe_vdivOp
  with_reducible assumption

theorem safe_execVmov (d a : BitVec 6) (g t : Bool) (s : State) (hs : Safe s) : SafeOut (execVmov d a g t s) := by
  unfold execVmov
  dsimp only
  with_reducible apply safe_Gate_run
  · intros
    with_reducible apply safe_onWarp
    with_reducible assumption
  · with_reducible assumption

theorem safe_execVbcast (d a : BitVec 6) (g t : Bool) (s : State) (hs : Safe s) : SafeOut (execVbcast d a g t s) := by
  unfold execVbcast
  dsimp only
  with_reducible apply safe_Gate_run
  · intros
    with_reducible apply safe_onWarp
    with_reducible assumption
  · with_reducible assumption

theorem safe_execVtos (d a b : BitVec 6) (g t : Bool) (s : State) (hs : Safe s) : SafeOut (execVtos d a b g t s) := by
  unfold execVtos
  dsimp only
  with_reducible apply safe_Gate_run
  · intros
    with_reducible apply safe_onWarp
    with_reducible assumption
  · with_reducible assumption

theorem safe_execStov (d a b : BitVec 6) (g t : Bool) (s : State) (hs : Safe s) : SafeOut (execStov d a b g t s) := by
  unfold execStov
  dsimp only
  with_reducible apply safe_Gate_run
  · intros
    with_reducible apply safe_onWarp
    with_reducible assumption
  · with_reducible assumption

theorem safe_setAbsLane (s : State) (x l : Nat) (v : LW) (hs : Safe s) : SafeExc (setAbsLane s x l v) := by
  unfold setAbsLane
  dsimp only
  split
  · split
    · trivial
    · simp only [SafeExc]
      with_reducible apply safe_writeVia
      with_reducible assumption
  · simp only [SafeExc]
    rw [safe_lit]
    with_reducible assumption

theorem safe_outerFault (e : W64 × Bool) (kind : Nat) (s : State) (act : Mask) (hs : Safe s) : SafeRes
    (outerFault e kind s act) := by
  unfold outerFault
  dsimp only
  split
  · simp only [SafeRes]
    with_reducible apply safe_addFault
    rw [safe_lit]
    with_reducible assumption
  · with_reducible apply safe_trapAct
    with_reducible assumption

theorem safe_execVrdout (d n : BitVec 6) (g t : Bool) (s : State) (hs : Safe s) : SafeOut (execVrdout d n g t s) := by
  unfold execVrdout
  dsimp only
  with_reducible apply safe_Gate_run
  · intros
    split
    · simp only [SafeRes]
      rename_i hq
      refine safeExc_of_eq hq ?_
      (with_reducible refine safe_foldlE _ _ _ ?_ ?_) <;> intros
      · split
        · with_reducible assumption
        · split
          · trivial
          · simp only [SafeExc]
            rw [safe_lit]
            have hb := ‹SafeExc (.ok _)›
            exact hb
      · simp only [SafeExc]
        with_reducible assumption
    · with_reducible apply safe_outerFault
      with_reducible assumption
  · with_reducible assumption

theorem safe_execVwrout (n a : BitVec 6) (g t : Bool) (s : State) (hs : Safe s) : SafeOut (execVwrout n a g t s) := by
  unfold execVwrout
  dsimp only
  with_reducible apply safe_Gate_run
  · intros
    split
    · simp only [SafeRes]
      rename_i hq
      refine safeExc_of_eq hq ?_
      (with_reducible refine safe_foldlE _ _ _ ?_ ?_) <;> intros
      · split
        · with_reducible assumption
        · with_reducible apply safe_setAbsLane
          have hb := ‹SafeExc (.ok _)›
          exact hb
      · simp only [SafeExc]
        with_reducible assumption
    · with_reducible apply safe_outerFault
      with_reducible assumption
  · with_reducible assumption

theorem safe_execVmovi (d : BitVec 6) (imm : BitVec 12) (g : Bool) (s : State) (hs : Safe s) : SafeOut
    (execVmovi d imm g s) := by
  unfold execVmovi
  with_reducible apply safe_Gate_run
  · intros
    with_reducible apply safe_onWarp
    with_reducible assumption
  · with_reducible assumption

theorem safe_execVmovl (d : BitVec 6) (g : Bool) (lit : BitVec 32) (s : State) (hs : Safe s) : SafeOut
    (execVmovl d g lit s) := by
  unfold execVmovl
  with_reducible apply safe_Gate_run
  · intros
    with_reducible apply safe_onWarp
    with_reducible assumption
  · with_reducible assumption

theorem safe_floatDone (word : W64) (ty d : Nat) (s : State) (act : Mask) (r : Nat → FRes) (hs : Safe s) : SafeRes
    (floatDone word ty d s act r) := by
  unfold floatDone
  with_reducible apply safe_withFlags
  with_reducible assumption

theorem safe_fBin (op : BitVec 7) (fn : BitVec 4) (d a b : BitVec 6) (g t : Bool) (legal : Nat → Bool)
    (f : Fmt → Nat → Bool → FV → FV → FRes) (s : State) (hs : Safe s) : SafeOut (fBin op fn d a b g t legal f s) := by
  unfold fBin
  dsimp only
  with_reducible apply safe_Gate_run
  · intros
    with_reducible apply safe_floatDone
    with_reducible assumption
  · with_reducible assumption

theorem safe_fUn (op : BitVec 7) (fn : BitVec 4) (d a : BitVec 6) (g t : Bool) (legal : Nat → Bool)
    (f : Fmt → Nat → Bool → FV → FRes) (s : State) (hs : Safe s) : SafeOut (fUn op fn d a g t legal f s) := by
  unfold fUn
  dsimp only
  with_reducible apply safe_Gate_run
  · intros
    with_reducible apply safe_floatDone
    with_reducible assumption
  · with_reducible assumption

theorem safe_execFadd (d a b : BitVec 6) (g t : Bool) (s : State) (hs : Safe s) : SafeOut (execFadd d a b g t s) := by
  unfold execFadd
  with_reducible apply safe_fBin
  with_reducible assumption

theorem safe_execFsub (d a b : BitVec 6) (g t : Bool) (s : State) (hs : Safe s) : SafeOut (execFsub d a b g t s) := by
  unfold execFsub
  with_reducible apply safe_fBin
  with_reducible assumption

theorem safe_execFmul (d a b : BitVec 6) (g t : Bool) (s : State) (hs : Safe s) : SafeOut (execFmul d a b g t s) := by
  unfold execFmul
  with_reducible apply safe_fBin
  with_reducible assumption

theorem safe_execFmin (d a b : BitVec 6) (g t : Bool) (s : State) (hs : Safe s) : SafeOut (execFmin d a b g t s) := by
  unfold execFmin
  with_reducible apply safe_fBin
  with_reducible assumption

theorem safe_execFmax (d a b : BitVec 6) (g t : Bool) (s : State) (hs : Safe s) : SafeOut (execFmax d a b g t s) := by
  unfold execFmax
  with_reducible apply safe_fBin
  with_reducible assumption

theorem safe_execFabs (d a : BitVec 6) (g t : Bool) (s : State) (hs : Safe s) : SafeOut (execFabs d a g t s) := by
  unfold execFabs
  with_reducible apply safe_fUn
  with_reducible assumption

theorem safe_execFneg (d a : BitVec 6) (g t : Bool) (s : State) (hs : Safe s) : SafeOut (execFneg d a g t s) := by
  unfold execFneg
  with_reducible apply safe_fUn
  with_reducible assumption

theorem safe_execFcopysign (d a b : BitVec 6) (g t : Bool) (s : State) (hs : Safe s) : SafeOut
    (execFcopysign d a b g t s) := by
  unfold execFcopysign
  dsimp only
  with_reducible apply safe_Gate_run
  · intros
    with_reducible apply safe_floatDone
    with_reducible assumption
  · with_reducible assumption

theorem safe_execFscale (d a b : BitVec 6) (g t : Bool) (s : State) (hs : Safe s) : SafeOut
    (execFscale d a b g t s) := by
  unfold execFscale
  dsimp only
  with_reducible apply safe_Gate_run
  · intros
    with_reducible apply safe_floatDone
    with_reducible assumption
  · with_reducible assumption

theorem safe_execFfma (d a b c : BitVec 6) (g : Bool) (s : State) (hs : Safe s) : SafeOut (execFfma d a b c g s) := by
  unfold execFfma
  dsimp only
  with_reducible apply safe_Gate_run
  · intros
    with_reducible apply safe_floatDone
    with_reducible assumption
  · with_reducible assumption

theorem safe_execFdot (d a b c : BitVec 6) (g : Bool) (s : State) (hs : Safe s) : SafeOut (execFdot d a b c g s) := by
  unfold execFdot
  dsimp only
  with_reducible apply safe_Gate_run
  · intros
    with_reducible apply safe_floatDone
    with_reducible assumption
  · with_reducible assumption

theorem safe_fcmp (fn : BitVec 4) (d : BitVec 3) (a b : BitVec 6) (g t quiet unord : Bool) (c : Ordering → Bool)
    (s : State) (hs : Safe s) : SafeOut (fcmp fn d a b g t quiet unord c s) := by
  unfold fcmp
  dsimp only
  with_reducible apply safe_Gate_run
  · intros
    with_reducible apply safe_withFlags
    with_reducible assumption
  · with_reducible assumption

theorem safe_execFcmpeq (d : BitVec 3) (a b : BitVec 6) (g t : Bool) (s : State) (hs : Safe s) : SafeOut
    (execFcmpeq d a b g t s) := by
  unfold execFcmpeq
  with_reducible apply safe_fcmp
  with_reducible assumption

theorem safe_execFcmpne (d : BitVec 3) (a b : BitVec 6) (g t : Bool) (s : State) (hs : Safe s) : SafeOut
    (execFcmpne d a b g t s) := by
  unfold execFcmpne
  with_reducible apply safe_fcmp
  with_reducible assumption

theorem safe_execFcmplt (d : BitVec 3) (a b : BitVec 6) (g t : Bool) (s : State) (hs : Safe s) : SafeOut
    (execFcmplt d a b g t s) := by
  unfold execFcmplt
  with_reducible apply safe_fcmp
  with_reducible assumption

theorem safe_execFcmple (d : BitVec 3) (a b : BitVec 6) (g t : Bool) (s : State) (hs : Safe s) : SafeOut
    (execFcmple d a b g t s) := by
  unfold execFcmple
  with_reducible apply safe_fcmp
  with_reducible assumption

theorem safe_execFcmpgt (d : BitVec 3) (a b : BitVec 6) (g t : Bool) (s : State) (hs : Safe s) : SafeOut
    (execFcmpgt d a b g t s) := by
  unfold execFcmpgt
  with_reducible apply safe_fcmp
  with_reducible assumption

theorem safe_execFcmpge (d : BitVec 3) (a b : BitVec 6) (g t : Bool) (s : State) (hs : Safe s) : SafeOut
    (execFcmpge d a b g t s) := by
  unfold execFcmpge
  with_reducible apply safe_fcmp
  with_reducible assumption

theorem safe_execFcmpueq (d : BitVec 3) (a b : BitVec 6) (g t : Bool) (s : State) (hs : Safe s) : SafeOut
    (execFcmpueq d a b g t s) := by
  unfold execFcmpueq
  with_reducible apply safe_fcmp
  with_reducible assumption

theorem safe_execFcmpune (d : BitVec 3) (a b : BitVec 6) (g t : Bool) (s : State) (hs : Safe s) : SafeOut
    (execFcmpune d a b g t s) := by
  unfold execFcmpune
  with_reducible apply safe_fcmp
  with_reducible assumption

theorem safe_execFcmpult (d : BitVec 3) (a b : BitVec 6) (g t : Bool) (s : State) (hs : Safe s) : SafeOut
    (execFcmpult d a b g t s) := by
  unfold execFcmpult
  with_reducible apply safe_fcmp
  with_reducible assumption

theorem safe_execFcmpule (d : BitVec 3) (a b : BitVec 6) (g t : Bool) (s : State) (hs : Safe s) : SafeOut
    (execFcmpule d a b g t s) := by
  unfold execFcmpule
  with_reducible apply safe_fcmp
  with_reducible assumption

theorem safe_execFcmpugt (d : BitVec 3) (a b : BitVec 6) (g t : Bool) (s : State) (hs : Safe s) : SafeOut
    (execFcmpugt d a b g t s) := by
  unfold execFcmpugt
  with_reducible apply safe_fcmp
  with_reducible assumption

theorem safe_execFcmpuge (d : BitVec 3) (a b : BitVec 6) (g t : Bool) (s : State) (hs : Safe s) : SafeOut
    (execFcmpuge d a b g t s) := by
  unfold execFcmpuge
  with_reducible apply safe_fcmp
  with_reducible assumption

theorem safe_execFcmpord (d : BitVec 3) (a b : BitVec 6) (g t : Bool) (s : State) (hs : Safe s) : SafeOut
    (execFcmpord d a b g t s) := by
  unfold execFcmpord
  with_reducible apply safe_fcmp
  with_reducible assumption

theorem safe_execFcmpunord (d : BitVec 3) (a b : BitVec 6) (g t : Bool) (s : State) (hs : Safe s) : SafeOut
    (execFcmpunord d a b g t s) := by
  unfold execFcmpunord
  with_reducible apply safe_fcmp
  with_reducible assumption

theorem safe_execFrcp (d a : BitVec 6) (g t : Bool) (s : State) (hs : Safe s) : SafeOut (execFrcp d a g t s) := by
  unfold execFrcp
  with_reducible apply safe_fUn
  with_reducible assumption

theorem safe_execFrsq (d a : BitVec 6) (g t : Bool) (s : State) (hs : Safe s) : SafeOut (execFrsq d a g t s) := by
  unfold execFrsq
  with_reducible apply safe_fUn
  with_reducible assumption

theorem safe_execFsqrt (d a : BitVec 6) (g t : Bool) (s : State) (hs : Safe s) : SafeOut (execFsqrt d a g t s) := by
  unfold execFsqrt
  with_reducible apply safe_fUn
  with_reducible assumption

theorem safe_execFexp2 (d a : BitVec 6) (g t : Bool) (s : State) (hs : Safe s) : SafeOut (execFexp2 d a g t s) := by
  unfold execFexp2
  with_reducible apply safe_fUn
  with_reducible assumption

theorem safe_execFlog2 (d a : BitVec 6) (g t : Bool) (s : State) (hs : Safe s) : SafeOut (execFlog2 d a g t s) := by
  unfold execFlog2
  with_reducible apply safe_fUn
  with_reducible assumption

theorem safe_execFsin (d a : BitVec 6) (g t : Bool) (s : State) (hs : Safe s) : SafeOut (execFsin d a g t s) := by
  unfold execFsin
  with_reducible apply safe_fUn
  with_reducible assumption

theorem safe_execFcos (d a : BitVec 6) (g t : Bool) (s : State) (hs : Safe s) : SafeOut (execFcos d a g t s) := by
  unfold execFcos
  with_reducible apply safe_fUn
  with_reducible assumption

theorem safe_execFtanh (d a : BitVec 6) (g t : Bool) (s : State) (hs : Safe s) : SafeOut (execFtanh d a g t s) := by
  unfold execFtanh
  with_reducible apply safe_fUn
  with_reducible assumption

theorem safe_execFfract (d a : BitVec 6) (g t : Bool) (s : State) (hs : Safe s) : SafeOut (execFfract d a g t s) := by
  unfold execFfract
  with_reducible apply safe_fUn
  with_reducible assumption

theorem safe_execFdiv (d a b : BitVec 6) (g t : Bool) (s : State) (hs : Safe s) : SafeOut (execFdiv d a b g t s) := by
  unfold execFdiv
  with_reducible apply safe_fBin
  with_reducible assumption

theorem safe_execFclass (d a : BitVec 6) (g t : Bool) (s : State) (hs : Safe s) : SafeOut (execFclass d a g t s) := by
  unfold execFclass
  dsimp only
  with_reducible apply safe_Gate_run
  · intros
    with_reducible apply safe_onWarp
    with_reducible assumption
  · with_reducible assumption

theorem safe_execVcvt (d a : BitVec 6) (g : Bool) (s : State) (hs : Safe s) : SafeOut (execVcvt d a g s) := by
  unfold execVcvt
  dsimp only
  with_reducible apply safe_Gate_run
  · intros
    with_reducible apply safe_floatDone
    with_reducible assumption
  · with_reducible assumption

theorem safe_execVrndi (d a : BitVec 6) (g : Bool) (s : State) (hs : Safe s) : SafeOut (execVrndi d a g s) := by
  unfold execVrndi
  dsimp only
  with_reducible apply safe_Gate_run
  · intros
    with_reducible apply safe_floatDone
    with_reducible assumption
  · with_reducible assumption

theorem safe_execVpack (d a b : BitVec 6) (g : Bool) (s : State) (hs : Safe s) : SafeOut (execVpack d a b g s) := by
  unfold execVpack
  dsimp only
  with_reducible apply safe_Gate_run
  · intros
    with_reducible apply safe_floatDone
    with_reducible assumption
  · with_reducible assumption

theorem safe_unpackOp (fn : BitVec 4) (d a : BitVec 6) (g hi : Bool) (s : State) (hs : Safe s) : SafeOut
    (unpackOp fn d a g hi s) := by
  unfold unpackOp
  dsimp only
  with_reducible apply safe_Gate_run
  · intros
    with_reducible apply safe_floatDone
    with_reducible assumption
  · with_reducible assumption

theorem safe_execVunpkl (d a : BitVec 6) (g : Bool) (s : State) (hs : Safe s) : SafeOut (execVunpkl d a g s) := by
  unfold execVunpkl
  with_reducible apply safe_unpackOp
  with_reducible assumption

theorem safe_execVunpkh (d a : BitVec 6) (g : Bool) (s : State) (hs : Safe s) : SafeOut (execVunpkh d a g s) := by
  unfold execVunpkh
  with_reducible apply safe_unpackOp
  with_reducible assumption

theorem safe_lperm (fn : BitVec 4) (d a b : BitVec 6) (g t : Bool) (us : List Use) (src : Warp → Nat → Nat → Nat)
    (s : State) (hs : Safe s) : SafeOut (lperm fn d a b g t us src s) := by
  unfold lperm
  dsimp only
  with_reducible apply safe_Gate_run
  · intros
    with_reducible apply safe_onWarp
    with_reducible assumption
  · with_reducible assumption

theorem safe_execLshuf (d a b : BitVec 6) (g t : Bool) (s : State) (hs : Safe s) : SafeOut (execLshuf d a b g t s) := by
  unfold execLshuf
  with_reducible apply safe_lperm
  with_reducible assumption

theorem safe_execLrot (d a b : BitVec 6) (g t : Bool) (s : State) (hs : Safe s) : SafeOut (execLrot d a b g t s) := by
  unfold execLrot
  with_reducible apply safe_lperm
  with_reducible assumption

theorem safe_execLxorl (d a b : BitVec 6) (g t : Bool) (s : State) (hs : Safe s) : SafeOut (execLxorl d a b g t s) := by
  unfold execLxorl
  with_reducible apply safe_lperm
  with_reducible assumption

theorem safe_execLup (d a b : BitVec 6) (g t : Bool) (s : State) (hs : Safe s) : SafeOut (execLup d a b g t s) := by
  unfold execLup
  with_reducible apply safe_lperm
  with_reducible assumption

theorem safe_execLdown (d a b : BitVec 6) (g t : Bool) (s : State) (hs : Safe s) : SafeOut (execLdown d a b g t s) := by
  unfold execLdown
  with_reducible apply safe_lperm
  with_reducible assumption

theorem safe_execLbcast (d a b : BitVec 6) (g t : Bool) (s : State) (hs : Safe s) : SafeOut
    (execLbcast d a b g t s) := by
  unfold execLbcast
  with_reducible apply safe_lperm
  with_reducible assumption

theorem safe_execLrotw (d a b : BitVec 6) (g t : Bool) (s : State) (hs : Safe s) : SafeOut (execLrotw d a b g t s) := by
  unfold execLrotw
  with_reducible apply safe_lperm
  with_reducible assumption

theorem safe_crossOp (op : BitVec 7) (fn : BitVec 4) (d a : BitVec 6) (g t : Bool) (r : RedOp)
    (pair : Nat → Nat → Option (Nat × Nat)) (excl scan : Bool) (s : State) (hs : Safe s) : SafeOut (crossOp op fn d a
        g t r pair excl scan s) := by
  unfold crossOp
  dsimp only
  with_reducible apply safe_Gate_run
  · intros
    split
    · simp only [SafeRes]
      rw [safe_lit]
      with_reducible assumption
    · with_reducible apply safe_withTreeFlags
      with_reducible assumption
  · with_reducible assumption

theorem safe_lred (fn : BitVec 4) (d a : BitVec 6) (g t : Bool) (r : RedOp) (s : State) (hs : Safe s) : SafeOut
    (lred fn d a g t r s) := by
  unfold lred
  with_reducible apply safe_crossOp
  with_reducible assumption

theorem safe_lscan (fn : BitVec 4) (d a : BitVec 6) (g t : Bool) (r : RedOp) (excl : Bool) (s : State) (hs : Safe s)
    : SafeOut (lscan fn d a g t r excl s) := by
  unfold lscan
  with_reducible apply safe_crossOp
  with_reducible assumption

theorem safe_execLredadd (d a : BitVec 6) (g t : Bool) (s : State) (hs : Safe s) : SafeOut (execLredadd d a g t s) := by
  unfold execLredadd
  with_reducible apply safe_lred
  with_reducible assumption

theorem safe_execLredmin (d a : BitVec 6) (g t : Bool) (s : State) (hs : Safe s) : SafeOut (execLredmin d a g t s) := by
  unfold execLredmin
  with_reducible apply safe_lred
  with_reducible assumption

theorem safe_execLredmax (d a : BitVec 6) (g t : Bool) (s : State) (hs : Safe s) : SafeOut (execLredmax d a g t s) := by
  unfold execLredmax
  with_reducible apply safe_lred
  with_reducible assumption

theorem safe_execLredand (d a : BitVec 6) (g t : Bool) (s : State) (hs : Safe s) : SafeOut (execLredand d a g t s) := by
  unfold execLredand
  with_reducible apply safe_lred
  with_reducible assumption

theorem safe_execLredor (d a : BitVec 6) (g t : Bool) (s : State) (hs : Safe s) : SafeOut (execLredor d a g t s) := by
  unfold execLredor
  with_reducible apply safe_lred
  with_reducible assumption

theorem safe_execLredxor (d a : BitVec 6) (g t : Bool) (s : State) (hs : Safe s) : SafeOut (execLredxor d a g t s) := by
  unfold execLredxor
  with_reducible apply safe_lred
  with_reducible assumption

theorem safe_execLredfadd (d a : BitVec 6) (g t : Bool) (s : State) (hs : Safe s) : SafeOut
    (execLredfadd d a g t s) := by
  unfold execLredfadd
  with_reducible apply safe_lred
  with_reducible assumption

theorem safe_execLredfmin (d a : BitVec 6) (g t : Bool) (s : State) (hs : Safe s) : SafeOut
    (execLredfmin d a g t s) := by
  unfold execLredfmin
  with_reducible apply safe_lred
  with_reducible assumption

theorem safe_execLredfmax (d a : BitVec 6) (g t : Bool) (s : State) (hs : Safe s) : SafeOut
    (execLredfmax d a g t s) := by
  unfold execLredfmax
  with_reducible apply safe_lred
  with_reducible assumption

theorem safe_execLscanadd (d a : BitVec 6) (g t : Bool) (s : State) (hs : Safe s) : SafeOut
    (execLscanadd d a g t s) := by
  unfold execLscanadd
  with_reducible apply safe_lscan
  with_reducible assumption

theorem safe_execLscanmin (d a : BitVec 6) (g t : Bool) (s : State) (hs : Safe s) : SafeOut
    (execLscanmin d a g t s) := by
  unfold execLscanmin
  with_reducible apply safe_lscan
  with_reducible assumption

theorem safe_execLscanmax (d a : BitVec 6) (g t : Bool) (s : State) (hs : Safe s) : SafeOut
    (execLscanmax d a g t s) := by
  unfold execLscanmax
  with_reducible apply safe_lscan
  with_reducible assumption

theorem safe_execLscanand (d a : BitVec 6) (g t : Bool) (s : State) (hs : Safe s) : SafeOut
    (execLscanand d a g t s) := by
  unfold execLscanand
  with_reducible apply safe_lscan
  with_reducible assumption

theorem safe_execLscanor (d a : BitVec 6) (g t : Bool) (s : State) (hs : Safe s) : SafeOut (execLscanor d a g t s) := by
  unfold execLscanor
  with_reducible apply safe_lscan
  with_reducible assumption

theorem safe_execLscanxor (d a : BitVec 6) (g t : Bool) (s : State) (hs : Safe s) : SafeOut
    (execLscanxor d a g t s) := by
  unfold execLscanxor
  with_reducible apply safe_lscan
  with_reducible assumption

theorem safe_execLscanfadd (d a : BitVec 6) (g t : Bool) (s : State) (hs : Safe s) : SafeOut
    (execLscanfadd d a g t s) := by
  unfold execLscanfadd
  with_reducible apply safe_lscan
  with_reducible assumption

theorem safe_execLxscanadd (d a : BitVec 6) (g t : Bool) (s : State) (hs : Safe s) : SafeOut
    (execLxscanadd d a g t s) := by
  unfold execLxscanadd
  with_reducible apply safe_lscan
  with_reducible assumption

theorem safe_execLxscanmin (d a : BitVec 6) (g t : Bool) (s : State) (hs : Safe s) : SafeOut
    (execLxscanmin d a g t s) := by
  unfold execLxscanmin
  with_reducible apply safe_lscan
  with_reducible assumption

theorem safe_execLxscanmax (d a : BitVec 6) (g t : Bool) (s : State) (hs : Safe s) : SafeOut
    (execLxscanmax d a g t s) := by
  unfold execLxscanmax
  with_reducible apply safe_lscan
  with_reducible assumption

theorem safe_execLxscanand (d a : BitVec 6) (g t : Bool) (s : State) (hs : Safe s) : SafeOut
    (execLxscanand d a g t s) := by
  unfold execLxscanand
  with_reducible apply safe_lscan
  with_reducible assumption

theorem safe_execLxscanor (d a : BitVec 6) (g t : Bool) (s : State) (hs : Safe s) : SafeOut
    (execLxscanor d a g t s) := by
  unfold execLxscanor
  with_reducible apply safe_lscan
  with_reducible assumption

theorem safe_execLxscanxor (d a : BitVec 6) (g t : Bool) (s : State) (hs : Safe s) : SafeOut
    (execLxscanxor d a g t s) := by
  unfold execLxscanxor
  with_reducible apply safe_lscan
  with_reducible assumption

theorem safe_execLxscanfadd (d a : BitVec 6) (g t : Bool) (s : State) (hs : Safe s) : SafeOut
    (execLxscanfadd d a g t s) := by
  unfold execLxscanfadd
  with_reducible apply safe_lscan
  with_reducible assumption

theorem safe_execLballot (d : BitVec 6) (a : BitVec 3) (g : Bool) (s : State) (hs : Safe s) : SafeOut
    (execLballot d a g s) := by
  unfold execLballot
  with_reducible apply safe_Gate_run
  · intros
    with_reducible apply safe_onWarp
    with_reducible assumption
  · with_reducible assumption

theorem safe_execLmatch (d a : BitVec 6) (g t : Bool) (s : State) (hs : Safe s) : SafeOut (execLmatch d a g t s) := by
  unfold execLmatch
  dsimp only
  with_reducible apply safe_Gate_run
  · intros
    with_reducible apply safe_onWarp
    with_reducible assumption
  · with_reducible assumption

theorem safe_execVlane (d : BitVec 6) (g : Bool) (s : State) (hs : Safe s) : SafeOut (execVlane d g s) := by
  unfold execVlane
  with_reducible apply safe_Gate_run
  · intros
    with_reducible apply safe_onWarp
    with_reducible assumption
  · with_reducible assumption

theorem safe_onGrant (code : Nat) (word : W64) (s : State) (act : Mask) (done : W64 → W64 → State → Res)
    (hs : Safe s) (hdone : ∀ x0 x1 x2, Safe x2 → SafeRes (done x0 x1 x2)) : SafeRes (onGrant code word s act done) := by
  unfold onGrant
  split
  · simp only [SafeRes]
    with_reducible assumption
  · with_reducible apply hdone
    with_reducible assumption
  · with_reducible apply hdone
    with_reducible assumption
  · with_reducible apply safe_trapAct
    with_reducible assumption

theorem safe_transfer (s : State) (from_ sFirst : Nat) (sAct : Mask) (to_ rFirst : Nat) (rAct : Mask) (n : Nat)
    (hs : Safe s) : Safe (transfer s from_ sFirst sAct to_ rFirst rAct n) := by
  unfold transfer
  dsimp only
  with_reducible apply safe_modWarp
  with_reducible assumption

theorem safe_xferOp (word : W64) (slot first n : Nat) (send : Bool) (s : State) (act : Mask) (hs : Safe s) : SafeRes
    (xferOp word slot first n send s act) := by
  unfold xferOp
  dsimp only
  split
  · with_reducible apply safe_onGrant
    · with_reducible assumption
    · simp only [SafeRes]
      intros
      with_reducible assumption
  · split
    · simp only [SafeRes]
      with_reducible apply safe_setWg
      with_reducible assumption
    · split
      · with_reducible apply safe_trapAct
        with_reducible assumption
      · split
        · with_reducible apply safe_trapAct
          with_reducible apply safe_giveGrant
          with_reducible apply safe_setWg
          with_reducible assumption
        · split
          · with_reducible apply safe_trapAct
            with_reducible apply safe_giveGrant
            with_reducible apply safe_setWg
            with_reducible assumption
          · simp only [SafeRes]
            with_reducible apply safe_giveGrant
            with_reducible apply safe_setWg
            split
            · with_reducible apply safe_transfer
              with_reducible assumption
            · with_reducible apply safe_transfer
              with_reducible assumption

theorem safe_execXsend (d : BitVec 4) (a b : BitVec 6) (g : Bool) (s : State) (hs : Safe s) : SafeOut
    (execXsend d a b g s) := by
  unfold execXsend
  dsimp only
  with_reducible apply safe_Gate_run
  · intros
    with_reducible apply safe_xferOp
    with_reducible assumption
  · with_reducible assumption

theorem safe_execXrecv (d : BitVec 6) (a : BitVec 4) (b : BitVec 6) (g : Bool) (s : State) (hs : Safe s) : SafeOut
    (execXrecv d a b g s) := by
  unfold execXrecv
  dsimp only
  with_reducible apply safe_Gate_run
  · intros
    with_reducible apply safe_xferOp
    with_reducible assumption
  · with_reducible assumption

theorem safe_regroupTry (wg : Nat) (s : State) (hs : Safe s) : Safe (regroupTry wg s) := by
  unfold regroupTry
  dsimp only
  split
  · with_reducible assumption
  · split
    · split
      · (with_reducible refine safe_foldl _ _ _ ?_ ?_) <;> intros
        · with_reducible apply safe_giveGrant
          with_reducible assumption
        · (with_reducible refine safe_foldl _ _ _ ?_ ?_) <;> intros
          · with_reducible apply safe_modWarp
            with_reducible assumption
          · with_reducible apply safe_setWg
            with_reducible assumption
      · (with_reducible refine safe_foldl _ _ _ ?_ ?_) <;> intros
        · with_reducible apply safe_giveGrant
          with_reducible assumption
        · with_reducible apply safe_setWg
          with_reducible assumption
    · with_reducible assumption

theorem safe_execRegroup (d a b : BitVec 6) (g : Bool) (s : State) (hs : Safe s) : SafeOut (execRegroup d a b g s) := by
  unfold execRegroup
  dsimp only
  with_reducible apply safe_Gate_run
  · intros
    split
    · with_reducible apply safe_onGrant
      · with_reducible assumption
      · simp only [SafeRes]
        intros
        with_reducible assumption
    · split
      · with_reducible apply safe_trapAct
        with_reducible assumption
      · with_reducible apply safe_onGrant
        · with_reducible apply safe_regroupTry
          with_reducible apply safe_setWg
          with_reducible assumption
        · simp only [SafeRes]
          intros
          with_reducible assumption
  · with_reducible assumption

end Sys2Proof.Machine
end

