-- ==== Sys2Proof/Laws/SafeFlow.lean ====
section
/-! SUPPORT. Safety, operation by operation: handles, barriers, control flow, copies, the display and transactions
keep memory in its canonical form. -/

namespace Sys2Proof.Machine

theorem safe_dropSeg (seg : Nat) (s : State) (hs : Safe s) : Safe (dropSeg seg s) := by
  exact canon_filter _ _ _ hs

theorem safe_allocIn (wg n : Nat) (h : Handle) (s : State) (hs : Safe s) : Safe (allocIn wg n h s) := by
  unfold allocIn
  dsimp only
  with_reducible apply safe_setWg
  rw [safe_lit]
  with_reducible assumption

theorem safe_freeIn (wg n : Nat) (s : State) (hs : Safe s) : Safe (freeIn wg n s) := by
  unfold freeIn
  dsimp only
  with_reducible apply safe_setWg
  with_reducible apply safe_dropSeg
  with_reducible assumption

theorem safe_grantAll (as : List ClArrival) (f : ClArrival → Grant) (s : State) (hs : Safe s) : Safe
    (grantAll as f s) := by
  unfold grantAll
  (with_reducible refine safe_foldl _ _ _ ?_ ?_) <;> intros
  · with_reducible apply safe_giveGrant
    with_reducible assumption
  · with_reducible assumption

theorem safe_clusterAlloc (as : List ClArrival) (s : State) (hs : Safe s) : Safe (clusterAlloc as s) := by
  unfold clusterAlloc
  dsimp only
  split
  · with_reducible assumption
  · split
    · with_reducible apply safe_grantAll
      with_reducible assumption
    · split
      · split
        · with_reducible apply safe_grantAll
          (with_reducible refine safe_foldl _ _ _ ?_ ?_) <;> intros
          · with_reducible apply safe_allocIn
            with_reducible assumption
          · with_reducible assumption
        · with_reducible apply safe_grantAll
          with_reducible assumption
      · with_reducible apply safe_grantAll
        with_reducible assumption

theorem safe_clusterFree (as : List ClArrival) (s : State) (hs : Safe s) : Safe (clusterFree as s) := by
  unfold clusterFree
  split
  · with_reducible assumption
  · split
    · with_reducible apply safe_grantAll
      with_reducible assumption
    · with_reducible apply safe_grantAll
      (with_reducible refine safe_foldl _ _ _ ?_ ?_) <;> intros
      · with_reducible apply safe_freeIn
        with_reducible assumption
      · with_reducible assumption

theorem safe_clusterTry (launch : Nat) (free : Bool) (s : State) (hs : Safe s) : Safe (clusterTry launch free s) := by
  unfold clusterTry
  dsimp only
  split
  · with_reducible assumption
  · split
    · with_reducible assumption
    · split
      · with_reducible apply safe_clusterFree
        with_reducible apply safe_setLaunch
        with_reducible assumption
      · with_reducible apply safe_clusterAlloc
        with_reducible apply safe_setLaunch
        with_reducible assumption

theorem safe_clusterJoin (free : Bool) (word : W64) (s : State) (hs : Safe s) : Safe (clusterJoin free word s) := by
  unfold clusterJoin
  dsimp only
  with_reducible apply safe_clusterTry
  with_reducible apply safe_setLaunch
  with_reducible assumption

theorem safe_execTalloc (d a : BitVec 6) (g : Bool) (s : State) (hs : Safe s) : SafeOut (execTalloc d a g s) := by
  unfold execTalloc
  dsimp only
  with_reducible apply safe_Gate_run
  · intros
    split
    · simp only [SafeRes]
      with_reducible assumption
    · split
      · with_reducible apply safe_onGrant
        · with_reducible assumption
        · simp only [SafeRes]
          intros
          rw [safe_lit]
          with_reducible assumption
      · split
        · with_reducible apply safe_trapAct
          with_reducible assumption
        · split
          · with_reducible apply safe_onGrant
            · with_reducible apply safe_clusterJoin
              with_reducible assumption
            · simp only [SafeRes]
              intros
              rw [safe_lit]
              with_reducible assumption
          · split
            · simp only [SafeRes]
              rw [safe_lit]
              with_reducible assumption
            · split
              · simp only [SafeRes]
                rw [safe_lit]
                with_reducible assumption
              · simp only [SafeRes]
                rw [safe_lit]
                with_reducible apply safe_allocIn
                with_reducible assumption
  · with_reducible assumption

theorem safe_execTfree (a : BitVec 6) (g : Bool) (s : State) (hs : Safe s) : SafeOut (execTfree a g s) := by
  unfold execTfree
  dsimp only
  with_reducible apply safe_Gate_run
  · intros
    split
    · simp only [SafeRes]
      with_reducible assumption
    · split
      · with_reducible apply safe_onGrant
        · with_reducible apply safe_clusterTry
          with_reducible assumption
        · simp only [SafeRes]
          intros
          with_reducible assumption
      · split
        · with_reducible apply safe_trapAct
          with_reducible assumption
        · split
          · with_reducible apply safe_onGrant
            · with_reducible apply safe_clusterJoin
              with_reducible assumption
            · simp only [SafeRes]
              intros
              with_reducible assumption
          · split
            · simp only [SafeRes]
              with_reducible assumption
            · simp only [SafeRes]
              with_reducible apply safe_freeIn
              with_reducible apply safe_withdrawWg
              with_reducible assumption
  · with_reducible assumption

theorem safe_execTinfo (d : BitVec 6) (g : Bool) (s : State) (hs : Safe s) : SafeOut (execTinfo d g s) := by
  unfold execTinfo
  refine safe_Gate_run _ _ _ (fun s m h => ?_) hs
  dsimp only
  split
  · exact h
  · simp only [SafeRes]
    rw [safe_lit]
    exact h

theorem safe_reportCopies (report : Bool) (s : State) (act : Mask) (k : Res) (hs : Safe s) (hk : SafeRes k) : SafeRes
    (reportCopies report s act k) := by
  unfold reportCopies
  dsimp only
  split
  · split
    · with_reducible apply safe_trapAct
      rw [safe_lit]
      with_reducible assumption
    · with_reducible assumption
  · with_reducible assumption

theorem safe_execWait (ld st cp tl : BitVec 6) (s : State) (hs : Safe s) : SafeOut (execWait ld st cp tl s) := by
  unfold execWait
  dsimp only
  with_reducible apply safe_Gate_run
  · intros
    with_reducible apply safe_reportCopies
    · with_reducible assumption
    · split
      · simp only [SafeRes]
        with_reducible assumption
      · simp only [SafeRes]
        with_reducible assumption
  · with_reducible assumption

theorem safe_waitReg (fn : BitVec 4) (a : BitVec 6) (g : Bool) (count : Warp → Nat) (s : State) (hs : Safe s)
    : SafeOut (waitReg fn a g count s) := by
  unfold waitReg
  dsimp only
  with_reducible apply safe_Gate_run
  · intros
    split
    · simp only [SafeRes]
      with_reducible assumption
    · with_reducible apply safe_reportCopies
      · with_reducible assumption
      · split
        · simp only [SafeRes]
          with_reducible assumption
        · simp only [SafeRes]
          with_reducible assumption
  · with_reducible assumption

theorem safe_execWaitrld (a : BitVec 6) (g : Bool) (s : State) (hs : Safe s) : SafeOut (execWaitrld a g s) := by
  unfold execWaitrld
  with_reducible apply safe_waitReg
  with_reducible assumption

theorem safe_execWaitrst (a : BitVec 6) (g : Bool) (s : State) (hs : Safe s) : SafeOut (execWaitrst a g s) := by
  unfold execWaitrst
  with_reducible apply safe_waitReg
  with_reducible assumption

theorem safe_execWaitrcp (a : BitVec 6) (g : Bool) (s : State) (hs : Safe s) : SafeOut (execWaitrcp a g s) := by
  unfold execWaitrcp
  with_reducible apply safe_waitReg
  with_reducible assumption

theorem safe_execWaitrtl (a : BitVec 6) (g : Bool) (s : State) (hs : Safe s) : SafeOut (execWaitrtl a g s) := by
  unfold execWaitrtl
  with_reducible apply safe_waitReg
  with_reducible assumption

theorem safe_fillL1 (core line : Nat) (s : State) (hs : Safe s) : Safe (fillL1 core line s) := by
  unfold fillL1
  dsimp only
  split
  · with_reducible assumption
  · with_reducible apply safe_setCore
    with_reducible assumption

theorem safe_execPfl1 (a b : BitVec 6) (g : Bool) (s : State) (hs : Safe s) : SafeOut (execPfl1 a b g s) := by
  unfold execPfl1
  with_reducible apply safe_Gate_run
  · simp only [SafeRes]
    intros
    (with_reducible refine safe_foldl _ _ _ ?_ ?_) <;> intros
    · with_reducible apply safe_fillL1
      with_reducible assumption
    · with_reducible assumption
  · with_reducible assumption

theorem safe_execPfllc (a b : BitVec 6) (g : Bool) (s : State) (hs : Safe s) : SafeOut (execPfllc a b g s) := by
  unfold execPfllc
  with_reducible apply safe_Gate_run
  · simp only [SafeRes]
    intros
    with_reducible assumption
  · with_reducible assumption

theorem safe_execCwb (a b : BitVec 6) (g : Bool) (s : State) (hs : Safe s) : SafeOut (execCwb a b g s) := by
  unfold execCwb
  dsimp only
  with_reducible apply safe_Gate_run
  · intros
    with_reducible apply safe_withPasses
    · with_reducible assumption
    · intros
      with_reducible apply safe_perLane
      · dsimp only
        intros
        with_reducible assumption
      · with_reducible assumption
  · with_reducible assumption

theorem safe_execCinv (a b : BitVec 6) (g : Bool) (s : State) (hs : Safe s) : SafeOut (execCinv a b g s) := by
  unfold execCinv
  dsimp only
  with_reducible apply safe_Gate_run
  · simp only [SafeRes]
    intros
    (with_reducible refine safe_foldl _ _ _ ?_ ?_) <;> intros
    · with_reducible apply safe_setCore
      with_reducible assumption
    · with_reducible assumption
  · with_reducible assumption

theorem safe_execIcinv (n : BitVec 6) (g : Bool) (s : State) (hs : Safe s) : SafeOut (execIcinv n g s) := by
  unfold execIcinv
  dsimp only
  with_reducible apply safe_Gate_run
  · intros
    split
    · simp only [SafeRes]
      with_reducible assumption
    · simp only [SafeRes]
      rw [safe_lit]
      with_reducible assumption
  · with_reducible assumption

theorem safe_afterAll (s : State) (k : State → Res) (hs : Safe s) (hk : ∀ x0, Safe x0 → SafeRes (k x0)) : SafeRes
    (afterAll s k) := by
  unfold afterAll
  split
  · with_reducible apply hk
    with_reducible assumption
  · simp only [SafeRes]
    with_reducible assumption

theorem safe_execFence (sc : BitVec 4) (g : Bool) (s : State) (hs : Safe s) : SafeOut (execFence sc g s) := by
  unfold execFence
  with_reducible apply safe_Gate_run
  · intros
    split
    · simp only [SafeRes]
      with_reducible assumption
    · split
      · simp only [SafeRes]
        with_reducible apply safe_acquireL1
        with_reducible assumption
      · simp only [SafeRes]
        with_reducible assumption
  · with_reducible assumption

theorem safe_writeBar (k : Nat) (b : BarObj) (s : State) (hs : Safe s) : Safe (writeBar k b s) := by
  unfold writeBar
  dsimp only
  with_reducible apply safe_storeMem
  with_reducible apply safe_storeMem
  with_reducible apply safe_storeMem
  with_reducible assumption

theorem safe_barOp (op : BitVec 7) (fn : BitVec 4) (d : BitVec 3) (a b : BitVec 6) (g own two acq : Bool)
    (k : State → Mask → W64 → Nat → Res) (s : State) (hk : ∀ x0 x1 x2 x3, Safe x0 → SafeRes (k x0 x1 x2 x3)) (hs :
        Safe s) : SafeOut (barOp op fn d a b g own two acq k s) := by
  unfold barOp
  dsimp only
  with_reducible apply safe_Gate_run
  · intros
    split
    · simp only [SafeRes]
      with_reducible assumption
    · split
      · with_reducible apply safe_trapAct
        with_reducible assumption
      · split
        · simp only [SafeRes]
          with_reducible assumption
        · with_reducible apply hk
          with_reducible assumption
  · with_reducible assumption

theorem safe_execBinit (a b : BitVec 6) (g : Bool) (s : State) (hs : Safe s) : SafeOut (execBinit a b g s) := by
  unfold execBinit
  dsimp only
  with_reducible apply safe_barOp
  · intros
    split
    · with_reducible apply safe_trapAct
      with_reducible assumption
    · simp only [SafeRes]
      with_reducible apply safe_storeMem
      with_reducible apply safe_storeMem
      with_reducible assumption
  · with_reducible assumption

theorem safe_arriveOp (fn : BitVec 4) (a b : BitVec 6) (g : Bool) (s : State) (hs : Safe s) : SafeOut
    (arriveOp fn a b g s) := by
  unfold arriveOp
  dsimp only
  with_reducible apply safe_barOp
  · intros
    split
    · split
      · with_reducible apply safe_trapAct
        with_reducible assumption
      · with_reducible apply safe_afterAll
        · with_reducible assumption
        · intros
          split
          · with_reducible apply safe_trapAct
            with_reducible assumption
          · simp only [SafeRes]
            with_reducible apply safe_writeBar
            with_reducible assumption
    · split
      · with_reducible apply safe_trapAct
        with_reducible assumption
      · with_reducible apply safe_afterAll
        · with_reducible assumption
        · intros
          split
          · with_reducible apply safe_trapAct
            with_reducible assumption
          · simp only [SafeRes]
            with_reducible apply safe_writeBar
            with_reducible assumption
  · with_reducible assumption

theorem safe_execBarv (a : BitVec 6) (g : Bool) (s : State) (hs : Safe s) : SafeOut (execBarv a g s) := by
  unfold execBarv
  with_reducible apply safe_arriveOp
  with_reducible assumption

theorem safe_execBarvx (a b : BitVec 6) (g : Bool) (s : State) (hs : Safe s) : SafeOut (execBarvx a b g s) := by
  unfold execBarvx
  with_reducible apply safe_arriveOp
  with_reducible assumption

theorem safe_execBarvd (a : BitVec 6) (g : Bool) (s : State) (hs : Safe s) : SafeOut (execBarvd a g s) := by
  unfold execBarvd
  with_reducible apply safe_arriveOp
  with_reducible assumption

theorem safe_execBwait (a b : BitVec 6) (g : Bool) (s : State) (hs : Safe s) : SafeOut (execBwait a b g s) := by
  unfold execBwait
  dsimp only
  with_reducible apply safe_barOp
  · intros
    split
    · with_reducible apply safe_trapAct
      with_reducible assumption
    · simp only [SafeRes]
      rw [safe_lit]
      with_reducible assumption
    · with_reducible apply safe_trapAct
      with_reducible apply safe_syncL1
      with_reducible assumption
    · simp only [SafeRes]
      with_reducible apply safe_syncL1
      with_reducible assumption
  · with_reducible assumption

theorem safe_execBtest (d : BitVec 3) (a b : BitVec 6) (g : Bool) (s : State) (hs : Safe s) : SafeOut
    (execBtest d a b g s) := by
  unfold execBtest
  with_reducible apply safe_barOp
  · intros
    split
    · with_reducible apply safe_trapAct
      with_reducible assumption
    · simp only [SafeRes]
      rw [safe_lit]
      with_reducible assumption
    · with_reducible apply safe_trapAct
      with_reducible apply safe_syncL1
      with_reducible assumption
    · simp only [SafeRes]
      with_reducible apply safe_syncL1
      rw [safe_lit]
      with_reducible assumption
  · with_reducible assumption

theorem safe_barTry (cluster : Bool) (wg : Nat) (s : State) (hs : Safe s) : Safe (barTry cluster wg s) := by
  unfold barTry
  dsimp only
  split
  · split
    · with_reducible apply safe_setLaunch
      with_reducible assumption
    · with_reducible assumption
  · split
    · with_reducible apply safe_setWg
      with_reducible assumption
    · with_reducible assumption

theorem safe_barArrive (cluster : Bool) (s : State) (hs : Safe s) : Safe (barArrive cluster s) := by
  unfold barArrive
  dsimp only
  with_reducible apply safe_barTry
  rw [safe_lit]
  split
  · with_reducible apply safe_setLaunch
    with_reducible assumption
  · with_reducible apply safe_setWg
    with_reducible assumption

theorem safe_barWait (cluster : Bool) (s : State) (hs : Safe s) : SafeRes (barWait cluster s) := by
  unfold barWait
  split
  · simp only [SafeRes]
    with_reducible assumption
  · simp only [SafeRes]
    with_reducible apply safe_syncL1
    with_reducible assumption

theorem safe_hwBarOp (op : BitVec 7) (fn : BitVec 4) (g cluster arrive wait : Bool) (s : State) (hs : Safe s)
    : SafeOut (hwBarOp op fn g cluster arrive wait s) := by
  unfold hwBarOp
  dsimp only
  with_reducible apply safe_Gate_run
  · intros
    split
    · simp only [SafeRes]
      with_reducible assumption
    · split
      · with_reducible apply safe_barWait
        with_reducible assumption
      · split
        · simp only [SafeRes]
          with_reducible assumption
        · with_reducible apply safe_afterAll
          · with_reducible assumption
          · intros
            split
            · with_reducible apply safe_barWait
              rw [safe_lit]
              with_reducible apply safe_barArrive
              with_reducible assumption
            · simp only [SafeRes]
              with_reducible apply safe_barArrive
              with_reducible assumption
  · with_reducible assumption

theorem safe_execWgbar (g : Bool) (s : State) (hs : Safe s) : SafeOut (execWgbar g s) := by
  unfold execWgbar
  with_reducible apply safe_hwBarOp
  with_reducible assumption

theorem safe_execWgbara (g : Bool) (s : State) (hs : Safe s) : SafeOut (execWgbara g s) := by
  unfold execWgbara
  with_reducible apply safe_hwBarOp
  with_reducible assumption

theorem safe_execWgbarw (g : Bool) (s : State) (hs : Safe s) : SafeOut (execWgbarw g s) := by
  unfold execWgbarw
  with_reducible apply safe_hwBarOp
  with_reducible assumption

theorem safe_execCbara (g : Bool) (s : State) (hs : Safe s) : SafeOut (execCbara g s) := by
  unfold execCbara
  with_reducible apply safe_hwBarOp
  with_reducible assumption

theorem safe_execCbarw (g : Bool) (s : State) (hs : Safe s) : SafeOut (execCbarw g s) := by
  unfold execCbarw
  with_reducible apply safe_hwBarOp
  with_reducible assumption

theorem safe_execCbar (g : Bool) (s : State) (hs : Safe s) : SafeOut (execCbar g s) := by
  unfold execCbar
  with_reducible apply safe_hwBarOp
  with_reducible assumption

theorem safe_goTo (s : State) (pc : W64) (hs : Safe s) : SafeRes (goTo s pc) := by
  unfold goTo
  dsimp only
  simp only [SafeRes]
  rw [safe_lit]
  with_reducible assumption

theorem safe_execBr (off : BitVec 22) (s : State) (hs : Safe s) : SafeOut (execBr off s) := by
  unfold execBr
  with_reducible apply safe_Gate_run
  · intros
    with_reducible apply safe_goTo
    with_reducible assumption
  · with_reducible assumption

theorem safe_execBrs (a : BitVec 6) (n : Bool) (off : BitVec 18) (s : State) (hs : Safe s) : SafeOut
    (execBrs a n off s) := by
  unfold execBrs
  with_reducible apply safe_Gate_run
  · intros
    split
    · with_reducible apply safe_goTo
      with_reducible assumption
    · simp only [SafeRes]
      with_reducible assumption
  · with_reducible assumption

theorem safe_branchSplit (word : W64) (len : Nat) (pd : BitVec 3) (n : Bool) (tgt : BitVec 13) (join : W64 → W64)
    (s : State) (hs : Safe s) : SafeOut (branchSplit word len pd n tgt join s) := by
  unfold branchSplit
  refine safe_Gate_run _ _ _ (fun t act ht => ?_) hs
  dsimp only
  generalize join t.w.p.pc = j
  cases n <;> (repeat' split)
  all_goals first | exact ht | exact safe_goTo _ _ ht | exact safe_trapAct _ _ _ _ ht

theorem safe_execBrc (p : BitVec 3) (n : Bool) (tgt : BitVec 13) (rcd : BitVec 8) (s : State) (hs : Safe s) : SafeOut
    (execBrc p n tgt rcd s) := by
  unfold execBrc
  with_reducible apply safe_branchSplit
  with_reducible assumption

theorem safe_execBrcl (p : BitVec 3) (n : Bool) (tgt : BitVec 13) (lit : BitVec 32) (s : State) (hs : Safe s)
    : SafeOut (execBrcl p n tgt lit s) := by
  unfold execBrcl
  with_reducible apply safe_branchSplit
  with_reducible assumption

theorem safe_callTo (k : Nat) (target : W64) (s : State) (act : Mask) (hs : Safe s) : SafeRes
    (callTo k target s act) := by
  unfold callTo
  dsimp only
  split
  · with_reducible apply safe_trapAct
    with_reducible assumption
  · split
    · with_reducible apply safe_withSpan
      · with_reducible assumption
      · simp only [SafeRes]
        intros
        with_reducible assumption
    · with_reducible apply safe_trapAct
      with_reducible assumption

theorem safe_execCall (k : BitVec 3) (off : BitVec 22) (s : State) (hs : Safe s) : SafeOut (execCall k off s) := by
  unfold execCall
  with_reducible apply safe_Gate_run
  · intros
    with_reducible apply safe_callTo
    with_reducible assumption
  · with_reducible assumption

theorem safe_execCallr (a : BitVec 6) (k : BitVec 3) (s : State) (hs : Safe s) : SafeOut (execCallr a k s) := by
  unfold execCallr
  dsimp only
  with_reducible apply safe_Gate_run
  · intros
    split
    · with_reducible apply safe_trapAct
      with_reducible assumption
    · with_reducible apply safe_callTo
      with_reducible assumption
  · with_reducible assumption

theorem safe_recFault (e : W64 × Bool) (s : State) (act : Mask) (hs : Safe s) : SafeRes (recFault e s act) := by
  unfold recFault
  dsimp only
  split
  · simp only [SafeRes]
    with_reducible apply safe_addFault
    rw [safe_lit]
    with_reducible assumption
  · with_reducible apply safe_trapAct
    with_reducible assumption

theorem safe_execEnter (f : BitVec 4) (s : State) (hs : Safe s) : SafeOut (execEnter f s) := by
  unfold execEnter
  dsimp only
  with_reducible apply safe_Gate_run
  · intros
    split
    · with_reducible apply safe_recFault
      with_reducible assumption
    · split
      · with_reducible apply safe_withSpan
        · with_reducible assumption
        · simp only [SafeRes]
          intros
          rw [safe_lit]
          with_reducible assumption
      · with_reducible apply safe_trapAct
        with_reducible assumption
  · with_reducible assumption

theorem safe_closeGroup (s : State) (hs : Safe s) : Safe (closeGroup s) := by
  unfold closeGroup
  dsimp only
  split
  · with_reducible apply safe_releaseTabard
    rw [safe_lit]
    with_reducible assumption
  · with_reducible assumption

theorem safe_retAll (s : State) (act : Mask) (hs : Safe s) : SafeRes (retAll s act) := by
  unfold retAll
  dsimp only
  split
  · with_reducible apply safe_recFault
    with_reducible assumption
  · split
    · with_reducible apply safe_trapAct
      with_reducible assumption
    · with_reducible apply safe_withSpan
      · with_reducible assumption
      · simp only [SafeRes]
        intros
        with_reducible assumption

theorem safe_retRouted (s : State) (act routed : Mask) (hs : Safe s) : SafeRes (retRouted s act routed) := by
  unfold retRouted
  dsimp only
  split
  · simp only [SafeRes]
    with_reducible apply safe_closeGroup
    rw [safe_lit]
    with_reducible assumption
  · split
    · with_reducible apply safe_recFault
      with_reducible assumption
    · split
      · with_reducible apply safe_trapAct
        with_reducible assumption
      · with_reducible apply safe_withSpan
        · with_reducible assumption
        · simp only [SafeRes]
          intros
          with_reducible apply safe_closeGroup
          with_reducible assumption

theorem safe_execRet (s : State) (hs : Safe s) : SafeOut (execRet s) := by
  unfold execRet
  dsimp only
  with_reducible apply safe_Gate_run
  · intros
    split
    · split
      · with_reducible apply safe_retAll
        with_reducible assumption
      · with_reducible apply safe_retRouted
        rw [safe_lit]
        with_reducible assumption
    · with_reducible apply safe_retAll
      with_reducible assumption
  · with_reducible assumption

theorem safe_unwindTo (depth a1 : Nat) (a2 : State) (ha2 : Safe a2) : SafeExc (unwindTo depth a1 a2) := by
  induction a1 generalizing a2 with
  | zero => exact ha2
  | succ n ih =>
    unfold unwindTo
    split
    · exact ha2
    · split
      · trivial
      · exact ih _ ha2

theorem safe_routePath (s : State) (hs : Safe s) : SafeRes (routePath s) := by
  unfold routePath
  dsimp only
  split
  · simp only [SafeRes]
    with_reducible assumption
  · split
    · with_reducible apply safe_recFault
      with_reducible assumption
    · with_reducible apply safe_withSpan
      · with_reducible assumption
      · simp only [SafeRes]
        intros
        with_reducible apply safe_closeGroup
        with_reducible assumption

theorem safe_loopOp (word : W64) (last : BitVec 8) (count : W64) (s : State) (act : Mask) (hs : Safe s) : SafeRes
    (loopOp word last count s act) := by
  unfold loopOp
  dsimp only
  split
  · with_reducible apply safe_trapAct
    with_reducible assumption
  · split
    · with_reducible apply safe_trapAct
      with_reducible assumption
    · split
      · with_reducible apply safe_goTo
        with_reducible assumption
      · simp only [SafeRes]
        rw [safe_lit]
        with_reducible assumption

theorem safe_execLoop (last : BitVec 8) (count : BitVec 16) (s : State) (hs : Safe s) : SafeOut
    (execLoop last count s) := by
  unfold execLoop
  dsimp only
  with_reducible apply safe_Gate_run
  · intros
    with_reducible apply safe_loopOp
    with_reducible assumption
  · with_reducible assumption

theorem safe_execLoopr (last : BitVec 8) (sc : BitVec 6) (s : State) (hs : Safe s) : SafeOut (execLoopr last sc s) := by
  unfold execLoopr
  dsimp only
  with_reducible apply safe_Gate_run
  · intros
    split
    · with_reducible apply safe_trapAct
      with_reducible assumption
    · with_reducible apply safe_loopOp
      with_reducible assumption
  · with_reducible assumption

theorem safe_execLbrk (s : State) (hs : Safe s) : SafeOut (execLbrk s) := by
  unfold execLbrk
  dsimp only
  with_reducible apply safe_Gate_run
  · intros
    split
    · with_reducible apply safe_trapAct
      with_reducible assumption
    · split
      · with_reducible apply safe_trapAct
        with_reducible assumption
      · simp only [SafeRes]
        rw [safe_lit]
        with_reducible assumption
  · with_reducible assumption

theorem safe_storeCells (cluster a1 : Nat) (a2 : List (Nat × Byte × Bool)) (a3 : State) (ha3 : Safe a3) : Safe
    (storeCells cluster a1 a2 a3) := by
  induction a1 generalizing a2 a3 with
  | zero => exact ha3
  | succ n ih =>
    cases a2 with
    | nil => exact ha3
    | cons c cs =>
      unfold storeCells
      dsimp only
      split
      · exact ih _ _ (safe_storeMem _ _ _ _ _ (safe_dropLine _ _ _ _ ha3))
      · exact ih _ _ (safe_storeMem _ _ _ _ _ (safe_dropLine _ _ _ _ ha3))

theorem safe_reduceElem (cluster t key size x : Nat) (bad : Bool) (s : State) (hs : Safe s) : Safe
    (reduceElem cluster t key size x bad s) := by
  unfold reduceElem
  dsimp only
  split
  · with_reducible apply safe_logUnc
    with_reducible assumption
  · split
    · rw [safe_lit]
      with_reducible apply safe_dropLine
      with_reducible assumption
    · with_reducible apply safe_rmwMem
      with_reducible assumption

theorem safe_Copy_moveRow (c : Copy) (sl : Slice) (n : Nat) (pages : List (Nat × Nat)) (s : State) (hs : Safe s)
    : Safe (Copy.moveRow c sl n pages s) := by
  unfold Copy.moveRow
  dsimp only
  split
  · with_reducible apply safe_storeCells
    with_reducible assumption
  · (with_reducible refine safe_foldl _ _ _ ?_ ?_) <;> intros
    · split
      · with_reducible apply safe_reduceElem
        with_reducible assumption
      · with_reducible assumption
    · with_reducible assumption
  · with_reducible apply safe_storeCells
    with_reducible assumption

theorem safe_setCopy (c : Copy) (s : State) (hs : Safe s) : Safe (setCopy c s) := by
  unfold setCopy
  rw [safe_lit]
  with_reducible assumption

theorem safe_Copy_subtract (c : Copy) (bytes : Nat) (s : State) (hs : Safe s) : Safe (Copy.subtract c bytes s) := by
  unfold Copy.subtract
  split
  · with_reducible apply safe_setCopy
    with_reducible assumption
  · split
    · with_reducible apply safe_setCopy
      with_reducible assumption
    · with_reducible apply safe_setCopy
      with_reducible apply safe_writeBar
      with_reducible assumption

theorem safe_endCopy (c : Copy) (kind : Nat) (s : State) (hs : Safe s) : Safe (endCopy c kind s) := by
  unfold endCopy
  dsimp only
  split
  · dsimp only
    split
    · split
      · with_reducible apply safe_setCopy
        with_reducible assumption
      · with_reducible apply safe_setCopy
        (with_reducible refine safe_foldl _ _ _ ?_ ?_) <;> intros
        · with_reducible apply safe_modWarp
          with_reducible assumption
        · split
          · with_reducible apply safe_ringWrite
            with_reducible assumption
          · with_reducible assumption
    · split
      · split
        · with_reducible apply safe_setCopy
          with_reducible assumption
        · with_reducible apply safe_setCopy
          (with_reducible refine safe_foldl _ _ _ ?_ ?_) <;> intros
          · with_reducible apply safe_modWarp
            with_reducible assumption
          · split
            · with_reducible apply safe_ringWrite
              with_reducible assumption
            · with_reducible assumption
      · split
        · with_reducible apply safe_setCopy
          with_reducible assumption
        · with_reducible apply safe_setCopy
          (with_reducible refine safe_foldl _ _ _ ?_ ?_) <;> intros
          · with_reducible apply safe_modWarp
            with_reducible assumption
          · split
            · with_reducible apply safe_ringWrite
              with_reducible assumption
            · with_reducible assumption
  · split
    · split
      · split
        · with_reducible apply safe_setCopy
          with_reducible assumption
        · with_reducible apply safe_setCopy
          (with_reducible refine safe_foldl _ _ _ ?_ ?_) <;> intros
          · with_reducible apply safe_modWarp
            with_reducible assumption
          · split
            · with_reducible apply safe_ringWrite
              split
              · with_reducible apply safe_writeBar
                with_reducible assumption
              · with_reducible assumption
            · split
              · with_reducible apply safe_writeBar
                with_reducible assumption
              · with_reducible assumption
      · split
        · with_reducible apply safe_setCopy
          with_reducible assumption
        · with_reducible apply safe_setCopy
          (with_reducible refine safe_foldl _ _ _ ?_ ?_) <;> intros
          · with_reducible apply safe_modWarp
            with_reducible assumption
          · split
            · with_reducible apply safe_ringWrite
              split
              · with_reducible apply safe_writeBar
                with_reducible assumption
              · with_reducible assumption
            · split
              · with_reducible apply safe_writeBar
                with_reducible assumption
              · with_reducible assumption
    · split
      · split
        · with_reducible apply safe_setCopy
          with_reducible assumption
        · with_reducible apply safe_setCopy
          (with_reducible refine safe_foldl _ _ _ ?_ ?_) <;> intros
          · with_reducible apply safe_modWarp
            with_reducible assumption
          · split
            · with_reducible apply safe_ringWrite
              split
              · with_reducible apply safe_writeBar
                with_reducible assumption
              · with_reducible assumption
            · split
              · with_reducible apply safe_writeBar
                with_reducible assumption
              · with_reducible assumption
      · split
        · with_reducible apply safe_setCopy
          with_reducible assumption
        · with_reducible apply safe_setCopy
          (with_reducible refine safe_foldl _ _ _ ?_ ?_) <;> intros
          · with_reducible apply safe_modWarp
            with_reducible assumption
          · split
            · with_reducible apply safe_ringWrite
              split
              · with_reducible apply safe_writeBar
                with_reducible assumption
              · with_reducible assumption
            · split
              · with_reducible apply safe_writeBar
                with_reducible assumption
              · with_reducible assumption

theorem safe_Copy_sendRow (c : Copy) (sl : Slice) (n : Nat) (pages : List (Nat × Nat)) (s : State) (hs : Safe s)
    : Safe (Copy.sendRow c sl n pages s).1 := by
  unfold Copy.sendRow
  with_reducible apply safe_sendAll
  with_reducible assumption

theorem safe_copyRow (id : Nat) (s : State) (hs : Safe s) : Safe (copyRow id s) := by
  unfold copyRow
  dsimp only
  split
  · with_reducible assumption
  · split
    · with_reducible apply safe_endCopy
      with_reducible assumption
    · split
      · with_reducible apply safe_endCopy
        with_reducible assumption
      · split
        · with_reducible assumption
        · split
          · with_reducible apply safe_endCopy
            with_reducible assumption
          · split
            · with_reducible apply safe_endCopy
              with_reducible assumption
            · with_reducible apply safe_addFault
              with_reducible apply safe_setCopy
              with_reducible assumption
            · split
              · with_reducible apply safe_Copy_sendRow
                with_reducible assumption
              · split
                · with_reducible apply safe_endCopy
                  with_reducible apply safe_setCopy
                  with_reducible apply safe_Copy_moveRow
                  with_reducible apply safe_Copy_sendRow
                  with_reducible assumption
                · with_reducible apply safe_Copy_subtract
                  with_reducible apply safe_Copy_moveRow
                  with_reducible apply safe_Copy_sendRow
                  with_reducible assumption

theorem safe_releaseLocks (id : Nat) (s : State) (hs : Safe s) : Safe (releaseLocks id s) := by
  unfold releaseLocks
  dsimp only
  split
  · rw [safe_lit]
    with_reducible apply safe_dropLocks
    with_reducible assumption
  · with_reducible assumption

theorem safe_takeLocks (id : Nat) (ls : List (Nat × RLock)) (s : State) (hs : Safe s) : Safe (takeLocks id ls s) := by
  unfold takeLocks
  dsimp only
  (with_reducible refine safe_foldl _ _ _ ?_ ?_) <;> intros
  · with_reducible apply safe_setCore
    with_reducible assumption
  · with_reducible assumption

theorem safe_startCopy (f : CopyForm) (descAddr : W64) (ps : List Prep) (s : State) (hs : Safe s) : SafeOpt
    (startCopy f descAddr ps s) := by
  unfold startCopy
  dsimp only
  split
  · simp only [SafeOpt]
    with_reducible assumption
  · split
    · trivial
    · simp only [SafeOpt]
      (with_reducible refine safe_foldl _ _ _ ?_ ?_) <;> intros
      · with_reducible apply safe_modWarp
        with_reducible assumption
      · with_reducible apply safe_takeLocks
        rw [safe_lit]
        split
        · with_reducible apply safe_writeBar
          with_reducible assumption
        · with_reducible assumption

theorem safe_afterAllHeld (s : State) (k : State → Res) (hs : Safe s) (hk : ∀ t, Safe t → SafeRes (k t)) :
    SafeRes (afterAllHeld s k) := by
  unfold afterAllHeld
  split
  · exact hk _ hs
  · exact hs

theorem safe_copyOp (f : CopyForm) (op : BitVec 7) (fn : BitVec 4) (a b : BitVec 6) (g : Bool) (s : State)
    (hs : Safe s) : SafeOut (copyOp f op fn a b g s) := by
  unfold copyOp
  refine safe_Gate_run _ _ _ (fun t act ht => ?_) hs
  dsimp only
  split
  · exact ht
  · refine safe_afterAllHeld _ _ ht fun t ht => safe_overFabric _ _ _ ht fun t ht => ?_
    split
    · exact safe_trapAct _ _ _ _ ht
    · exact safe_parkAt _ _ _ ht
    · split
      · exact ht
      · split
        · exact safe_trapAct _ _ _ _ ht
        · rename_i hq
          exact safe_noteReads _ _ _ (safeOpt_of_eq hq (safe_startCopy _ _ _ _ ht))

theorem safe_execCpld (a : BitVec 6) (b : BitVec 4) (g : Bool) (s : State) (hs : Safe s) : SafeOut
    (execCpld a b g s) := by
  unfold execCpld
  with_reducible apply safe_copyOp
  with_reducible assumption

theorem safe_execCpst (a : BitVec 6) (b : BitVec 4) (g : Bool) (s : State) (hs : Safe s) : SafeOut
    (execCpst a b g s) := by
  unfold execCpst
  with_reducible apply safe_copyOp
  with_reducible assumption

theorem safe_execCpred (a : BitVec 6) (b : BitVec 4) (g : Bool) (s : State) (hs : Safe s) : SafeOut
    (execCpred a b g s) := by
  unfold execCpred
  with_reducible apply safe_copyOp
  with_reducible assumption

theorem safe_execCpg (a : BitVec 6) (b : BitVec 4) (g : Bool) (s : State) (hs : Safe s) : SafeOut
    (execCpg a b g s) := by
  unfold execCpg
  with_reducible apply safe_copyOp
  with_reducible assumption

theorem safe_execCpw (a : BitVec 6) (b : BitVec 4) (g : Bool) (s : State) (hs : Safe s) : SafeOut
    (execCpw a b g s) := by
  unfold execCpw
  with_reducible apply safe_copyOp
  with_reducible assumption

theorem safe_onGrantValue (code : Nat) (s : State) (act : Mask) (done : W64 → W64 → State → Res) (hs : Safe s)
    (hdone : ∀ x0 x1 x2, Safe x2 → SafeRes (done x0 x1 x2)) : SafeRes (onGrantValue code s act done) := by
  unfold onGrantValue
  split
  · simp only [SafeRes]
    with_reducible assumption
  · with_reducible apply hdone
    with_reducible assumption
  · with_reducible apply hdone
    with_reducible assumption
  · with_reducible apply safe_trapAct
    with_reducible assumption

theorem safe_cpcRun (wg : Nat) (s : State) (hs : Safe s) : Safe (cpcRun wg s) := by
  unfold cpcRun
  dsimp only
  split
  · with_reducible assumption
  · split
    · with_reducible apply safe_setWg
      (with_reducible refine safe_foldl _ _ _ ?_ ?_) <;> intros
      · with_reducible apply safe_giveGrant
        with_reducible assumption
      · with_reducible assumption
    · split
      · (with_reducible refine safe_foldl _ _ _ ?_ ?_) <;> intros
        · with_reducible apply safe_addFault
          with_reducible apply safe_modWarp
          with_reducible assumption
        · with_reducible assumption
      · split
        · with_reducible assumption
        · split
          · (with_reducible refine safe_foldl _ _ _ ?_ ?_) <;> intros
            · with_reducible apply safe_giveGrant
              with_reducible assumption
            · rename_i hq
              refine safeOpt_of_eq hq ?_
              with_reducible apply safe_startCopy
              (with_reducible refine safe_foldl _ _ _ ?_ ?_) <;> intros
              · split
                · with_reducible apply safe_giveGrant
                  with_reducible assumption
                · with_reducible assumption
              · with_reducible apply safe_setWg
                with_reducible assumption
          · (with_reducible refine safe_foldl _ _ _ ?_ ?_) <;> intros
            · with_reducible apply safe_giveGrant
              with_reducible assumption
            · (with_reducible refine safe_foldl _ _ _ ?_ ?_) <;> intros
              · split
                · with_reducible apply safe_giveGrant
                  with_reducible assumption
                · with_reducible assumption
              · with_reducible apply safe_setWg
                with_reducible assumption

theorem safe_cpcTry (wg : Nat) (s : State) (hs : Safe s) : Safe (cpcTry wg s) := by
  unfold cpcTry
  dsimp only
  split
  · with_reducible apply safe_cpcRun
    with_reducible assumption
  · with_reducible assumption

theorem safe_execCpc (a : BitVec 6) (b : BitVec 4) (g : Bool) (s : State) (hs : Safe s) : SafeOut
    (execCpc a b g s) := by
  unfold execCpc
  refine safe_Gate_run _ _ _ (fun t act ht => ?_) hs
  dsimp only
  split
  · exact ht
  · refine safe_afterAllHeld _ _ ht fun t ht => safe_overFabric _ _ _ ht fun u hu => ?_
    refine safe_onGrantValue _ _ _ _ ?_ (fun _ _ _ h => safe_noteReads _ _ _ h)
    generalize (_ || _ : Bool) = joined
    cases joined <;> (repeat' split)
    all_goals first
      | exact hu
      | exact safe_cpcTry _ _ hu
      | exact safe_setWg _ _ _ hu
      | exact safe_cpcTry _ _ (safe_setWg _ _ _ hu)

theorem safe_execCpq (d a : BitVec 6) (g : Bool) (s : State) (hs : Safe s) : SafeOut (execCpq d a g s) := by
  unfold execCpq
  dsimp only
  with_reducible apply safe_Gate_run
  · intros
    split
    · simp only [SafeRes]
      with_reducible assumption
    · simp only [SafeRes]
      rw [safe_lit]
      with_reducible assumption
  · with_reducible assumption

theorem safe_execCpcan (a : BitVec 6) (g : Bool) (s : State) (hs : Safe s) : SafeOut (execCpcan a g s) := by
  unfold execCpcan
  with_reducible apply safe_Gate_run
  · intros
    split
    · split
      · simp only [SafeRes]
        with_reducible assumption
      · simp only [SafeRes]
        rw [safe_lit]
        with_reducible assumption
    · simp only [SafeRes]
      with_reducible assumption
  · with_reducible assumption

theorem safe_tookFree (spoilt : Bool) (s : State) (hs : Safe s) : Safe (tookFree spoilt s) := by
  unfold tookFree
  split
  · rw [safe_lit]
    with_reducible assumption
  · with_reducible assumption

theorem safe_writeSample (seg : Nat) (s : State) (n : Nat) (x : Sample) (hs : Safe s) : Safe
    (writeSample seg s n x) := by
  unfold writeSample
  with_reducible apply safe_storeWords
  with_reducible assumption

theorem safe_returnBuffers (p : VTile → Bool) (s : State) (hs : Safe s) : Safe (returnBuffers p s) := by
  unfold returnBuffers
  dsimp only
  (with_reducible refine safe_foldr _ _ _ ?_ ?_) <;> intros
  · with_reducible apply safe_setCluster
    with_reducible assumption
  · with_reducible assumption

theorem safe_withdrawTiles (p : VTile → Bool) (s : State) (hs : Safe s) : Safe (withdrawTiles p s) := by
  unfold withdrawTiles
  dsimp only
  with_reducible apply safe_placeAll
  rw [safe_lit]
  with_reducible apply safe_returnBuffers
  with_reducible assumption

theorem safe_writeVctl (n : Nat) (x : W64) (s : State) (hs : Safe s) : Safe (writeVctl n x s) := by
  unfold writeVctl
  dsimp only
  split
  · with_reducible apply safe_setView
    with_reducible assumption
  · split
    · with_reducible apply safe_withdrawTiles
      with_reducible apply safe_setView
      with_reducible assumption
    · with_reducible apply safe_setView
      with_reducible assumption

theorem safe_stopOut (n : Nat) (s : State) (hs : Safe s) : Safe (stopOut n s) := by
  unfold stopOut
  dsimp only
  with_reducible apply safe_setOut
  (with_reducible refine safe_foldl _ _ _ ?_ ?_) <;> intros
  · with_reducible apply safe_setView
    with_reducible assumption
  · with_reducible apply safe_withdrawTiles
    with_reducible assumption

theorem safe_writeOutCtl (n : Nat) (x : W64) (s : State) (hs : Safe s) : Safe (writeOutCtl n x s) := by
  unfold writeOutCtl
  dsimp only
  split
  · with_reducible apply safe_setOut
    with_reducible apply safe_setOut
    with_reducible assumption
  · split
    · with_reducible apply safe_stopOut
      with_reducible apply safe_setOut
      with_reducible assumption
    · with_reducible apply safe_setOut
      with_reducible assumption

theorem safe_writeGaze (n : Nat) (x : W64) (s : State) (hs : Safe s) : Safe (writeGaze n x s) := by
  unfold writeGaze
  dsimp only
  with_reducible apply safe_setView
  with_reducible assumption

theorem safe_writeVtb (off : Nat) (x : W64) (s : State) (hs : Safe s) : Safe (writeVtb off x s) := by
  unfold writeVtb
  dsimp only
  split
  · split
    · with_reducible apply safe_writeVctl
      with_reducible assumption
    · with_reducible apply safe_writeGaze
      with_reducible assumption
    · with_reducible apply safe_setView
      with_reducible assumption
    · with_reducible apply safe_setView
      with_reducible assumption
    · with_reducible assumption
  · split
    · split
      · with_reducible apply safe_writeOutCtl
        with_reducible assumption
      · with_reducible apply safe_setOut
        with_reducible assumption
      · with_reducible apply safe_setOut
        with_reducible assumption
      · with_reducible assumption
    · with_reducible assumption

theorem safe_beginView (o st f n : Nat) (s : State) (hs : Safe s) : Safe (beginView o st f n s) := by
  unfold beginView
  dsimp only
  split
  · split
    · with_reducible apply safe_setView
      with_reducible assumption
    · with_reducible apply safe_setView
      with_reducible assumption
  · split
    · rw [safe_lit]
      with_reducible apply safe_setView
      with_reducible assumption
    · with_reducible assumption

theorem safe_beginFrame (n f : Nat) (s : State) (hs : Safe s) : Safe (beginFrame n f s) := by
  unfold beginFrame
  dsimp only
  with_reducible apply safe_setOut
  (with_reducible refine safe_foldl _ _ _ ?_ ?_) <;> intros
  · with_reducible apply safe_beginView
    with_reducible apply safe_setView
    with_reducible assumption
  · rw [safe_lit]
    with_reducible assumption

theorem safe_openView (f k n : Nat) (r : ViewRec) (s : State) (hs : Safe s) : Safe (openView f k n r s) := by
  unfold openView
  dsimp only
  split
  · rw [safe_lit]
    with_reducible apply safe_setView
    with_reducible assumption
  · with_reducible apply safe_setView
    with_reducible assumption

theorem safe_openWindow (n : Nat) (s : State) (hs : Safe s) : Safe (openWindow n s) := by
  unfold openWindow
  dsimp only
  with_reducible apply safe_placeAll
  (with_reducible refine safe_foldl _ _ _ ?_ ?_) <;> intros
  · split
    · with_reducible apply safe_openView
      with_reducible assumption
    · with_reducible assumption
  · split
    · with_reducible apply safe_beginFrame
      with_reducible apply safe_setOut
      with_reducible assumption
    · with_reducible apply safe_setOut
      with_reducible assumption

theorem safe_substTile (v : View) (r : ViewRec) (s : State) (t : VTile) (hs : Safe s) : Safe (substTile v r s t) := by
  unfold substTile
  dsimp only
  with_reducible apply safe_tookFree
  (with_reducible refine safe_foldl _ _ _ ?_ ?_) <;> intros
  · with_reducible apply safe_storeMem
    with_reducible assumption
  · with_reducible assumption

theorem safe_substView (f k n : Nat) (r : ViewRec) (s : State) (hs : Safe s) : Safe (substView f k n r s) := by
  unfold substView
  dsimp only
  with_reducible apply safe_setView
  (with_reducible refine safe_foldl _ _ _ ?_ ?_) <;> intros
  · with_reducible apply safe_substTile
    with_reducible assumption
  · rw [safe_lit]
    with_reducible apply safe_returnBuffers
    with_reducible assumption

theorem safe_stageStrip (n m : Nat) (s : State) (hs : Safe s) : Safe (stageStrip n m s) := by
  unfold stageStrip
  dsimp only
  split
  · with_reducible assumption
  · with_reducible apply safe_tookFree
    with_reducible apply safe_setOut
    with_reducible assumption

theorem safe_meetDeadline (n : Nat) (s : State) (hs : Safe s) : Safe (meetDeadline n s) := by
  unfold meetDeadline
  dsimp only
  with_reducible apply safe_stageStrip
  with_reducible apply safe_placeAll
  (with_reducible refine safe_foldl _ _ _ ?_ ?_) <;> intros
  · split
    · with_reducible apply safe_substView
      with_reducible assumption
    · with_reducible assumption
  · with_reducible apply safe_setOut
    with_reducible assumption

theorem safe_outputStrip (n : Nat) (s : State) (hs : Safe s) : Safe (outputStrip n s) := by
  unfold outputStrip
  dsimp only
  split
  · split
    · split
      · with_reducible apply safe_setOut
        with_reducible assumption
      · with_reducible apply safe_setOut
        with_reducible assumption
    · split
      · with_reducible apply safe_setOut
        with_reducible assumption
      · with_reducible apply safe_setOut
        with_reducible assumption
  · with_reducible apply safe_setOut
    with_reducible assumption

theorem safe_nextLine (n : Nat) (s : State) (hs : Safe s) : Safe (nextLine n s) := by
  unfold nextLine
  dsimp only
  split
  · with_reducible assumption
  · split
    · split
      · with_reducible apply safe_setOut
        with_reducible assumption
      · with_reducible apply safe_setOut
        with_reducible assumption
    · with_reducible apply safe_setOut
      with_reducible assumption

theorem safe_displayTick (n : Nat) (s : State) (hs : Safe s) : Safe (displayTick n s) := by
  unfold displayTick
  dsimp only
  rw [safe_lit]
  with_reducible assumption

theorem safe_whenDue (e : Event) (f : State → State) (s : State) (hf : ∀ x0, Safe x0 → Safe (f x0)) (hs : Safe s)
    : SafeOut (whenDue e f s) := by
  unfold whenDue
  simp only [SafeOut]
  split
  · with_reducible apply hf
    with_reducible assumption
  · with_reducible assumption

theorem safe_execStripWindowOpen (out : Nat) (s : State) (hs : Safe s) : SafeOut (execStripWindowOpen out s) := by
  unfold execStripWindowOpen
  with_reducible apply safe_whenDue
  · intros
    with_reducible apply safe_openWindow
    with_reducible assumption
  · with_reducible assumption

theorem safe_execStripDeadline (out : Nat) (s : State) (hs : Safe s) : SafeOut (execStripDeadline out s) := by
  unfold execStripDeadline
  with_reducible apply safe_whenDue
  · intros
    with_reducible apply safe_meetDeadline
    with_reducible assumption
  · with_reducible assumption

theorem safe_execStripOutput (out : Nat) (s : State) (hs : Safe s) : SafeOut (execStripOutput out s) := by
  unfold execStripOutput
  with_reducible apply safe_whenDue
  · intros
    with_reducible apply safe_outputStrip
    with_reducible assumption
  · with_reducible assumption

theorem safe_execDisplayLineStart (out : Nat) (s : State) (hs : Safe s) : SafeOut (execDisplayLineStart out s) := by
  unfold execDisplayLineStart
  with_reducible apply safe_whenDue
  · intros
    with_reducible apply safe_nextLine
    with_reducible assumption
  · with_reducible assumption

theorem safe_execDpHotPlug (out : Nat) (attached : Bool) (s : State) (hs : Safe s) : SafeOut
    (execDpHotPlug out attached s) := by
  unfold execDpHotPlug
  dsimp only
  simp only [SafeOut]
  split
  · with_reducible apply safe_setOut
    with_reducible assumption
  · with_reducible assumption

theorem safe_execLinkTrainingDone (out : Nat) (up : Bool) (s : State) (hs : Safe s) : SafeOut
    (execLinkTrainingDone out up s) := by
  unfold execLinkTrainingDone
  dsimp only
  simp only [SafeOut]
  split
  · with_reducible apply safe_setOut
    with_reducible assumption
  · with_reducible assumption

theorem safe_execViewEnable (view : Nat) (value : BitVec 64) (s : State) (hs : Safe s) : SafeOut
    (execViewEnable view value s) := by
  unfold execViewEnable
  simp only [SafeOut]
  split
  · with_reducible apply safe_writeVctl
    with_reducible assumption
  · with_reducible assumption

theorem safe_execViewDisable (view : Nat) (value : BitVec 64) (s : State) (hs : Safe s) : SafeOut
    (execViewDisable view value s) := by
  unfold execViewDisable
  simp only [SafeOut]
  split
  · with_reducible apply safe_writeVctl
    with_reducible assumption
  · with_reducible assumption

theorem safe_execOutputEnable (out : Nat) (value : BitVec 64) (s : State) (hs : Safe s) : SafeOut
    (execOutputEnable out value s) := by
  unfold execOutputEnable
  simp only [SafeOut]
  split
  · with_reducible apply safe_writeOutCtl
    with_reducible assumption
  · with_reducible assumption

theorem safe_execOutputDisable (out : Nat) (value : BitVec 64) (s : State) (hs : Safe s) : SafeOut
    (execOutputDisable out value s) := by
  unfold execOutputDisable
  simp only [SafeOut]
  split
  · with_reducible apply safe_writeOutCtl
    with_reducible assumption
  · with_reducible assumption

theorem safe_setTabard (t : Tabard) (s : State) (hs : Safe s) : Safe (setTabard t s) := by
  unfold setTabard
  rw [safe_lit]
  with_reducible assumption

theorem safe_grantTabard (d : Domain) (s : State) (hs : Safe s) : Safe (grantTabard d s) := by
  unfold grantTabard
  dsimp only
  split
  · split
    · with_reducible apply safe_setTabard
      with_reducible assumption
    · with_reducible assumption
  · with_reducible assumption

theorem safe_grantTabards (s : State) (hs : Safe s) : Safe (grantTabards s) := by
  unfold grantTabards
  (with_reducible refine safe_foldl _ _ _ ?_ ?_) <;> intros
  · with_reducible apply safe_grantTabard
    with_reducible assumption
  · with_reducible assumption

theorem safe_openGroup (sc : Nat) (fb : Bool) (target : W64) (r : Nat) (s : State) (hs : Safe s) : Safe
    (openGroup sc fb target r s) := by
  unfold openGroup
  dsimp only
  rw [safe_lit]
  with_reducible assumption

theorem safe_askTabard (d : Domain) (s : State) (hs : Safe s) : Safe (askTabard d s) := by
  unfold askTabard
  dsimp only
  split
  · with_reducible assumption
  · with_reducible apply safe_setTabard
    with_reducible assumption

theorem safe_execTxbegin (sc : BitVec 3) (fb : Bool) (off : BitVec 21) (s : State) (hs : Safe s) : SafeOut
    (execTxbegin sc fb off s) := by
  unfold execTxbegin
  dsimp only
  with_reducible apply safe_Gate_run
  · intros
    split
    · with_reducible apply safe_trapAct
      with_reducible assumption
    · split
      · with_reducible apply safe_trapAct
        with_reducible assumption
      · split
        · with_reducible apply safe_trapAct
          with_reducible assumption
        · split
          · split
            · simp only [SafeRes]
              with_reducible apply safe_openGroup
              with_reducible assumption
            · simp only [SafeRes]
              with_reducible assumption
          · split
            · simp only [SafeRes]
              with_reducible apply safe_openGroup
              with_reducible apply safe_grantTabards
              with_reducible apply safe_askTabard
              with_reducible assumption
            · simp only [SafeRes]
              with_reducible apply safe_grantTabards
              with_reducible apply safe_askTabard
              with_reducible assumption
  · with_reducible assumption

theorem safe_routeAt (s : State) (hs : Safe s) : SafeRes (routeAt s) := by
  unfold routeAt
  dsimp only
  split
  · simp only [SafeRes]
    with_reducible apply safe_closeGroup
    with_reducible assumption
  · split
    · simp only [SafeRes]
      with_reducible apply safe_closeGroup
      rw [safe_lit]
      with_reducible assumption
    · simp only [SafeRes]
      with_reducible apply safe_closeGroup
      rw [safe_lit]
      with_reducible assumption

theorem safe_execTxend (s : State) (hs : Safe s) : SafeOut (execTxend s) := by
  unfold execTxend
  dsimp only
  with_reducible apply safe_Gate_run
  · intros
    split
    · simp only [SafeRes]
      with_reducible assumption
    · split
      · simp only [SafeRes]
        rw [safe_lit]
        with_reducible assumption
      · with_reducible apply safe_afterAll
        · with_reducible assumption
        · intros
          with_reducible apply safe_routeAt
          rw [safe_lit]
          with_reducible apply safe_acquireL1
          (with_reducible refine safe_foldl _ _ _ ?_ ?_) <;> intros
          · with_reducible apply safe_commitLane
            with_reducible assumption
          · with_reducible assumption
  · with_reducible assumption

theorem safe_execTxabort (code : BitVec 4) (g : Bool) (s : State) (hs : Safe s) : SafeOut (execTxabort code g s) := by
  unfold execTxabort
  with_reducible apply safe_Gate_run
  · intros
    with_reducible apply safe_onWarp
    with_reducible assumption
  · with_reducible assumption

theorem safe_execTxstat (d : BitVec 6) (g : Bool) (s : State) (hs : Safe s) : SafeOut (execTxstat d g s) := by
  unfold execTxstat
  with_reducible apply safe_Gate_run
  · intros
    with_reducible apply safe_onWarp
    with_reducible assumption
  · with_reducible assumption

theorem safe_execTxcause (d : BitVec 6) (g : Bool) (s : State) (hs : Safe s) : SafeOut (execTxcause d g s) := by
  unfold execTxcause
  with_reducible apply safe_Gate_run
  · intros
    with_reducible apply safe_onWarp
    with_reducible assumption
  · with_reducible assumption

end Sys2Proof.Machine
end

