-- ==== Sys2Proof/Laws/SafeUnits.lean ====
section
/-! SUPPORT. Safety, operation by operation: the arrays, sampling, system instructions, graphics, rays, EXIT and
textures keep memory in its canonical form. -/

namespace Sys2Proof.Machine

theorem safe_storeTile (key pitch : Nat) (t : Tile) (s : State) (hs : Safe s) : Safe (storeTile key pitch t s) := by
  unfold storeTile
  dsimp only
  (with_reducible refine safe_foldl _ _ _ ?_ ?_) <;> intros
  · with_reducible apply safe_storeCells
    with_reducible assumption
  · with_reducible assumption

theorem safe_performTile (core : Nat) (j : TileJob) (s : State) (hs : Safe s) : SafeOpt (performTile core j s) := by
  unfold performTile
  dsimp only
  split
  · simp only [SafeOpt]
    with_reducible apply safe_setCore
    with_reducible assumption
  · simp only [SafeOpt]
    with_reducible apply safe_setCore
    with_reducible assumption
  · simp only [SafeOpt]
    with_reducible apply safe_storeTile
    with_reducible assumption
  · simp only [SafeOpt]
    with_reducible apply safe_setCore
    with_reducible assumption
  · simp only [SafeOpt]
    with_reducible apply safe_setCore
    with_reducible assumption
  · simp only [SafeOpt]
    with_reducible apply safe_setCore
    with_reducible assumption
  · simp only [SafeOpt]
    with_reducible apply safe_setCore
    with_reducible assumption
  · simp only [SafeOpt]
    with_reducible apply safe_setCore
    with_reducible assumption
  · simp only [SafeOpt]
    with_reducible apply safe_setCore
    with_reducible apply safe_setCore
    with_reducible assumption
  · split
    · trivial
    · simp only [SafeOpt]
      with_reducible apply safe_setCore
      with_reducible assumption
  · simp only [SafeOpt]
    with_reducible apply safe_modWarp
    with_reducible assumption
  · simp only [SafeOpt]
    with_reducible apply safe_setCore
    with_reducible assumption

theorem safe_mxaStep (core : Nat) (s : State) (hs : Safe s) : Safe (mxaStep core s) := by
  unfold mxaStep
  dsimp only
  split
  · with_reducible assumption
  · split
    · split
      · with_reducible assumption
      · with_reducible apply safe_modWarp
        with_reducible apply safe_setCore
        rename_i hq
        refine safeOpt_of_eq hq ?_
        with_reducible apply safe_performTile
        with_reducible assumption
    · with_reducible assumption

theorem safe_setIssuedCfg (core t : Nat) (c : BitVec 21) (s : State) (hs : Safe s) : Safe
    (setIssuedCfg core t c s) := by
  unfold setIssuedCfg
  dsimp only
  with_reducible apply safe_setCore
  with_reducible assumption

theorem safe_setIssuedTag (core a tag : Nat) (s : State) (hs : Safe s) : Safe (setIssuedTag core a tag s) := by
  unfold setIssuedTag
  dsimp only
  with_reducible apply safe_setCore
  with_reducible assumption

theorem safe_queueTile (wid : Nat) (op : TileOp) (s : State) (hs : Safe s) : Safe (queueTile wid op s) := by
  unfold queueTile
  dsimp only
  split
  · with_reducible assumption
  · with_reducible apply safe_modWarp
    with_reducible apply safe_setCore
    rw [safe_lit]
    with_reducible assumption

theorem safe_queued (op : TileOp) (s : State) (hs : Safe s) : SafeRes (queued op s) := by
  unfold queued
  simp only [SafeRes]
  with_reducible apply safe_queueTile
  with_reducible assumption

theorem safe_execTcfg (d : BitVec 3) (a : BitVec 6) (g : Bool) (s : State) (hs : Safe s) : SafeOut
    (execTcfg d a g s) := by
  unfold execTcfg
  dsimp only
  with_reducible apply safe_Gate_run
  · intros
    split
    · simp only [SafeRes]
      with_reducible assumption
    · split
      · with_reducible apply safe_trapAct
        with_reducible assumption
      · with_reducible apply safe_queued
        with_reducible apply safe_setIssuedCfg
        with_reducible assumption
  · with_reducible assumption

theorem safe_tileMove (op : BitVec 7) (d : BitVec 3) (a b : BitVec 6) (g : Bool) (need : Need)
    (f : Nat → Nat → Nat → TileOp) (s : State) (hs : Safe s) : SafeOut (tileMove op d a b g need f s) := by
  unfold tileMove
  dsimp only
  with_reducible apply safe_Gate_run
  · intros
    split
    · simp only [SafeRes]
      with_reducible assumption
    · split
      · with_reducible apply safe_trapAct
        with_reducible assumption
      · split
        · with_reducible apply safe_trapAct
          with_reducible assumption
        · with_reducible apply safe_queued
          with_reducible assumption
  · with_reducible assumption

theorem safe_execTld (d : BitVec 3) (a b : BitVec 6) (g : Bool) (s : State) (hs : Safe s) : SafeOut
    (execTld d a b g s) := by
  unfold execTld
  with_reducible apply safe_tileMove
  with_reducible assumption

theorem safe_execTst (d : BitVec 3) (a b : BitVec 6) (g : Bool) (s : State) (hs : Safe s) : SafeOut
    (execTst d a b g s) := by
  unfold execTst
  with_reducible apply safe_tileMove
  with_reducible assumption

theorem safe_execTlds (d : BitVec 3) (a b : BitVec 6) (g : Bool) (s : State) (hs : Safe s) : SafeOut
    (execTlds d a b g s) := by
  unfold execTlds
  dsimp only
  with_reducible apply safe_Gate_run
  · intros
    split
    · simp only [SafeRes]
      with_reducible assumption
    · split
      · with_reducible apply safe_trapAct
        with_reducible assumption
      · split
        · split
          · with_reducible apply safe_trapAct
            with_reducible assumption
          · split
            · with_reducible apply safe_trapAct
              with_reducible assumption
            · with_reducible apply safe_queued
              with_reducible assumption
        · split
          · with_reducible apply safe_trapAct
            with_reducible assumption
          · split
            · with_reducible apply safe_trapAct
              with_reducible assumption
            · with_reducible apply safe_queued
              with_reducible assumption
  · with_reducible assumption

theorem safe_execTzero (d : BitVec 3) (g : Bool) (s : State) (hs : Safe s) : SafeOut (execTzero d g s) := by
  unfold execTzero
  with_reducible apply safe_Gate_run
  · intros
    split
    · simp only [SafeRes]
      with_reducible assumption
    · with_reducible apply safe_queued
      with_reducible assumption
  · with_reducible assumption

theorem safe_execAzero (d : BitVec 2) (g : Bool) (s : State) (hs : Safe s) : SafeOut (execAzero d g s) := by
  unfold execAzero
  with_reducible apply safe_Gate_run
  · intros
    split
    · simp only [SafeRes]
      with_reducible assumption
    · with_reducible apply safe_queued
      with_reducible apply safe_setIssuedTag
      with_reducible assumption
  · with_reducible assumption

theorem safe_tagAfter (a d : Nat) (s : State) (hs : Safe s) : Safe (tagAfter a d s) := by
  unfold tagAfter
  with_reducible apply safe_setIssuedTag
  with_reducible assumption

theorem safe_execMma (d : BitVec 2) (a b : BitVec 3) (g : Bool) (s : State) (hs : Safe s) : SafeOut
    (execMma d a b g s) := by
  unfold execMma
  dsimp only
  with_reducible apply safe_Gate_run
  · intros
    split
    · simp only [SafeRes]
      with_reducible assumption
    · split
      · with_reducible apply safe_trapAct
        with_reducible assumption
      · with_reducible apply safe_queued
        with_reducible apply safe_tagAfter
        with_reducible assumption
  · with_reducible assumption

theorem safe_execMmag (d : BitVec 2) (a : BitVec 3) (b : BitVec 6) (g : Bool) (s : State) (hs : Safe s) : SafeOut
    (execMmag d a b g s) := by
  unfold execMmag
  dsimp only
  with_reducible apply safe_Gate_run
  · intros
    split
    · simp only [SafeRes]
      with_reducible assumption
    · split
      · with_reducible apply safe_trapAct
        with_reducible assumption
      · split
        · with_reducible apply safe_trapAct
          with_reducible assumption
        · with_reducible apply safe_queued
          with_reducible apply safe_tagAfter
          with_reducible assumption
  · with_reducible assumption

theorem safe_pairMatch (lead foll : PairWait) (s : State) (hs : Safe s) : Safe (pairMatch lead foll s) := by
  unfold pairMatch
  dsimp only
  split
  · split
    · with_reducible apply safe_giveGrant
      with_reducible apply safe_giveGrant
      with_reducible assumption
    · with_reducible apply safe_giveGrant
      with_reducible apply safe_giveGrant
      with_reducible apply safe_queueTile
      with_reducible apply safe_queueTile
      with_reducible apply safe_setIssuedTag
      with_reducible apply safe_setIssuedTag
      with_reducible assumption
  · with_reducible assumption

theorem safe_pairTry (lead foll : Nat) (s : State) (hs : Safe s) : Safe (pairTry lead foll s) := by
  unfold pairTry
  dsimp only
  split
  · with_reducible apply safe_pairMatch
    with_reducible apply safe_setWg
    with_reducible apply safe_setWg
    with_reducible assumption
  · with_reducible assumption

theorem safe_pairOp (fn : BitVec 4) (leader : Bool) (d : BitVec 2) (a b : BitVec 3) (g : Bool) (s : State)
    (hs : Safe s) : SafeOut (pairOp fn leader d a b g s) := by
  unfold pairOp
  dsimp only
  with_reducible apply safe_Gate_run
  · intros
    split
    · simp only [SafeRes]
      with_reducible assumption
    · split
      · with_reducible apply safe_onGrantValue
        · with_reducible assumption
        · simp only [SafeRes]
          intros
          with_reducible assumption
      · split
        · with_reducible apply safe_trapAct
          with_reducible assumption
        · split
          · with_reducible apply safe_trapAct
            with_reducible assumption
          · split
            · with_reducible apply safe_trapAct
              with_reducible assumption
            · with_reducible apply safe_onGrantValue
              · split
                · with_reducible apply safe_pairTry
                  with_reducible apply safe_setWg
                  with_reducible assumption
                · with_reducible apply safe_pairTry
                  with_reducible apply safe_setWg
                  with_reducible assumption
              · simp only [SafeRes]
                intros
                with_reducible assumption
  · with_reducible assumption

theorem safe_execMmap (d : BitVec 2) (a b : BitVec 3) (g : Bool) (s : State) (hs : Safe s) : SafeOut
    (execMmap d a b g s) := by
  unfold execMmap
  with_reducible apply safe_pairOp
  with_reducible assumption

theorem safe_execMmapF (d : BitVec 2) (a b : BitVec 3) (g : Bool) (s : State) (hs : Safe s) : SafeOut
    (execMmapF d a b g s) := by
  unfold execMmapF
  with_reducible apply safe_pairOp
  with_reducible assumption

theorem safe_execTmovv (d : BitVec 6) (a : BitVec 2) (b : BitVec 6) (g : Bool) (s : State) (hs : Safe s) : SafeOut
    (execTmovv d a b g s) := by
  unfold execTmovv
  dsimp only
  with_reducible apply safe_Gate_run
  · intros
    split
    · simp only [SafeRes]
      with_reducible assumption
    · split
      · with_reducible apply safe_trapAct
        with_reducible assumption
      · split
        · with_reducible apply safe_trapAct
          with_reducible assumption
        · with_reducible apply safe_queued
          with_reducible assumption
  · with_reducible assumption

theorem safe_execTcvt (d : BitVec 3) (a : BitVec 2) (g : Bool) (s : State) (hs : Safe s) : SafeOut
    (execTcvt d a g s) := by
  unfold execTcvt
  dsimp only
  with_reducible apply safe_Gate_run
  · intros
    split
    · simp only [SafeRes]
      with_reducible assumption
    · split
      · split
        · with_reducible apply safe_trapAct
          with_reducible assumption
        · with_reducible apply safe_queued
          with_reducible assumption
      · split
        · with_reducible apply safe_trapAct
          with_reducible assumption
        · with_reducible apply safe_queued
          with_reducible assumption
  · with_reducible assumption

theorem safe_addCharge (c n : Nat) (s : State) (hs : Safe s) : Safe (addCharge c n s) := by
  unfold addCharge
  dsimp only
  with_reducible apply safe_setCluster
  with_reducible assumption

theorem safe_trigIssue (w : Warp) (s : State) (hs : Safe s) : Safe (trigIssue w s) := by
  unfold trigIssue
  dsimp only
  split
  · with_reducible apply safe_setCluster
    with_reducible assumption
  · with_reducible assumption

theorem safe_putRecord (c : Nat) (bs : List Byte) (s : State) (hs : Safe s) : Safe (putRecord c bs s) := by
  unfold putRecord
  dsimp only
  split
  · with_reducible apply safe_setCluster
    with_reducible assumption
  · with_reducible apply safe_setCluster
    with_reducible apply safe_storeBytes
    with_reducible assumption

theorem safe_writeEarly (c : Nat) (s : State) (hs : Safe s) : Safe (writeEarly c s) := by
  unfold writeEarly
  dsimp only
  split
  · (with_reducible refine safe_foldl _ _ _ ?_ ?_) <;> intros
    · with_reducible apply safe_putRecord
      with_reducible assumption
    · with_reducible apply safe_setCluster
      with_reducible assumption
  · with_reducible assumption

theorem safe_makeRecord (c : Nat) (bs : List Byte) (s : State) (hs : Safe s) : Safe (makeRecord c bs s) := by
  unfold makeRecord
  dsimp only
  split
  · with_reducible apply safe_putRecord
    with_reducible apply safe_writeEarly
    with_reducible assumption
  · split
    · with_reducible apply safe_setCluster
      with_reducible assumption
    · with_reducible assumption

theorem safe_sampleSched (cluster core sched : Nat) (s : State) (hs : Safe s) : Safe
    (sampleSched cluster core sched s) := by
  unfold sampleSched
  dsimp only
  split
  · with_reducible assumption
  · with_reducible apply safe_putRecord
    with_reducible apply safe_setCore
    with_reducible assumption

theorem safe_sampleNow (c : Nat) (s : State) (hs : Safe s) : Safe (sampleNow c s) := by
  unfold sampleNow
  dsimp only
  split
  · (with_reducible refine safe_foldl _ _ _ ?_ ?_) <;> intros
    · (with_reducible refine safe_foldl _ _ _ ?_ ?_) <;> intros
      · with_reducible apply safe_sampleSched
        with_reducible assumption
      · with_reducible assumption
    · with_reducible apply safe_setCluster
      with_reducible assumption
  · with_reducible assumption

theorem safe_execSampleTick (cluster : Nat) (s : State) (hs : Safe s) : SafeOut (execSampleTick cluster s) := by
  unfold execSampleTick
  simp only [SafeOut]
  with_reducible apply safe_sampleNow
  with_reducible assumption

theorem safe_execTriggerCycleReached (cluster : Nat) (s : State) (hs : Safe s) : SafeOut
    (execTriggerCycleReached cluster s) := by
  unfold execTriggerCycleReached
  dsimp only
  simp only [SafeOut]
  with_reducible apply safe_setCluster
  with_reducible assumption

theorem safe_traceIssue (pc : W64) (mask : Mask) (slotB : Bool) (w : Warp) (s : State) (hs : Safe s) : Safe
    (traceIssue pc mask slotB w s) := by
  unfold traceIssue
  dsimp only
  split
  · with_reducible apply safe_makeRecord
    with_reducible assumption
  · with_reducible assumption

theorem safe_execPmark (imm : BitVec 16) (s : State) (hs : Safe s) : SafeOut (execPmark imm s) := by
  unfold execPmark
  dsimp only
  with_reducible apply safe_Gate_run
  · intros
    split
    · simp only [SafeRes]
      with_reducible apply safe_makeRecord
      with_reducible apply safe_trigHit
      with_reducible assumption
    · simp only [SafeRes]
      with_reducible apply safe_trigHit
      with_reducible assumption
  · with_reducible assumption

theorem safe_execTrigstatArm (cluster : Nat) (value : BitVec 64) (s : State) (hs : Safe s) : SafeOut
    (execTrigstatArm cluster value s) := by
  unfold execTrigstatArm
  simp only [SafeOut]
  with_reducible apply safe_setCluster
  with_reducible assumption

theorem safe_writeCsr (n : Nat) (x : W64) (s : State) (hs : Safe s) : Safe (writeCsr n x s) := by
  unfold writeCsr
  dsimp only
  split
  · with_reducible apply safe_setCluster
    with_reducible assumption
  · split
    · with_reducible assumption
    · split
      · with_reducible apply safe_setCluster
        with_reducible assumption
      · rw [safe_lit]
        with_reducible assumption

theorem safe_csrStore (fn : BitVec 3) (d : BitVec 6) (csr : BitVec 12) (f : W64 → W64 → W64) (s : State)
    (hs : Safe s) : SafeOut (csrStore fn d csr f s) := by
  unfold csrStore
  dsimp only
  with_reducible apply safe_Gate_run
  · intros
    split
    · with_reducible apply safe_trapAct
      with_reducible assumption
    · simp only [SafeRes]
      with_reducible apply safe_writeCsr
      with_reducible assumption
  · with_reducible assumption

theorem safe_execCsrr (d : BitVec 6) (csr : BitVec 12) (s : State) (hs : Safe s) : SafeOut (execCsrr d csr s) := by
  unfold execCsrr
  with_reducible apply safe_Gate_run
  · simp only [SafeRes]
    intros
    rw [safe_lit]
    with_reducible assumption
  · with_reducible assumption

theorem safe_execCsrw (d : BitVec 6) (csr : BitVec 12) (s : State) (hs : Safe s) : SafeOut (execCsrw d csr s) := by
  unfold execCsrw
  with_reducible apply safe_csrStore
  with_reducible assumption

theorem safe_execCsrs (d : BitVec 6) (csr : BitVec 12) (s : State) (hs : Safe s) : SafeOut (execCsrs d csr s) := by
  unfold execCsrs
  with_reducible apply safe_csrStore
  with_reducible assumption

theorem safe_execCsrc (d : BitVec 6) (csr : BitVec 12) (s : State) (hs : Safe s) : SafeOut (execCsrc d csr s) := by
  unfold execCsrc
  with_reducible apply safe_csrStore
  with_reducible assumption

theorem safe_softTrap (fn : BitVec 3) (cause : Nat) (imm : BitVec 16) (s : State) (hs : Safe s) : SafeOut
    (softTrap fn cause imm s) := by
  unfold softTrap
  with_reducible apply safe_Gate_run
  · simp only [SafeRes]
    intros
    with_reducible assumption
  · with_reducible assumption

theorem safe_execTrap (imm : BitVec 16) (s : State) (hs : Safe s) : SafeOut (execTrap imm s) := by
  unfold execTrap
  with_reducible apply safe_softTrap
  with_reducible assumption

theorem safe_execBrk (imm : BitVec 16) (s : State) (hs : Safe s) : SafeOut (execBrk imm s) := by
  unfold execBrk
  with_reducible apply safe_softTrap
  with_reducible assumption

theorem safe_execRett (s : State) (hs : Safe s) : SafeOut (execRett s) := by
  unfold execRett
  with_reducible apply safe_Gate_run
  · intros
    with_reducible apply safe_returnTrap
    with_reducible assumption
  · with_reducible assumption

theorem safe_execYield (g : Bool) (s : State) (hs : Safe s) : SafeOut (execYield g s) := by
  unfold execYield
  dsimp only
  with_reducible apply safe_Gate_run
  · intros
    split
    · simp only [SafeRes]
      with_reducible assumption
    · simp only [SafeRes]
      rw [safe_lit]
      with_reducible assumption
  · with_reducible assumption

theorem safe_execSleep (a : BitVec 6) (g : Bool) (s : State) (hs : Safe s) : SafeOut (execSleep a g s) := by
  unfold execSleep
  dsimp only
  with_reducible apply safe_Gate_run
  · intros
    split
    · simp only [SafeRes]
      with_reducible assumption
    · split
      · simp only [SafeRes]
        rw [safe_lit]
        with_reducible assumption
      · split
        · split
          · simp only [SafeRes]
            rw [safe_lit]
            with_reducible assumption
          · simp only [SafeRes]
            with_reducible assumption
        · simp only [SafeRes]
          rw [safe_lit]
          with_reducible assumption
  · with_reducible assumption

theorem safe_execSleepTimeout (wid : Nat) (s : State) (hs : Safe s) : SafeOut (execSleepTimeout wid s) := by
  unfold execSleepTimeout
  simp only [SafeOut]
  with_reducible apply safe_modWarp
  with_reducible assumption

theorem safe_execWake (a : BitVec 6) (g : Bool) (s : State) (hs : Safe s) : SafeOut (execWake a g s) := by
  unfold execWake
  dsimp only
  with_reducible apply safe_Gate_run
  · intros
    split
    · simp only [SafeRes]
      with_reducible assumption
    · split
      · with_reducible apply safe_trapAct
        with_reducible assumption
      · simp only [SafeRes]
        with_reducible apply safe_mapWarps
        with_reducible assumption
  · with_reducible assumption

theorem safe_execFramesync (s : State) (hs : Safe s) : SafeOut (execFramesync s) := by
  unfold execFramesync
  refine safe_Gate_run _ _ _ (fun t act ht => ?_) hs
  dsimp only
  split
  · exact safe_trapAct _ _ _ _ ht
  · repeat' split
    · exact ht
    · exact ht
    · exact ht
    · rename_i hq
      exact safeExc_of_eq hq (safe_syncRecords _ _ ht)
    · exact safe_addFault _ _ _ _ _ ht
    · exact safe_trapAct _ _ _ _ ht

theorem safe_vamHead (c : Nat) (s : State) (hs : Safe s) : Safe (vamHead c s) := by
  unfold vamHead
  dsimp only
  split
  · with_reducible assumption
  · split
    · with_reducible assumption
    · (with_reducible refine safe_foldl _ _ _ ?_ ?_) <;> intros
      · with_reducible apply safe_setView
        with_reducible assumption
      · with_reducible apply safe_setCluster
        with_reducible assumption

theorem safe_vamDrain (c : Nat) (s : State) (hs : Safe s) : Safe (vamDrain c s) := by
  unfold vamDrain
  (with_reducible refine safe_foldl _ _ _ ?_ ?_) <;> intros
  · with_reducible apply safe_vamHead
    with_reducible assumption
  · with_reducible assumption

theorem safe_closeArrival (s : State) (n : Nat) (hs : Safe s) : Safe (closeArrival s n) := by
  unfold closeArrival
  dsimp only
  split
  · split
    · split
      · with_reducible apply safe_setView
        with_reducible assumption
      · with_reducible apply safe_setView
        with_reducible assumption
    · with_reducible assumption
  · with_reducible assumption

theorem safe_execVamp (a : BitVec 6) (g : Bool) (s : State) (hs : Safe s) : SafeOut (execVamp a g s) := by
  unfold execVamp
  dsimp only
  with_reducible apply safe_Gate_run
  · intros
    split
    · simp only [SafeRes]
      with_reducible assumption
    · split
      · with_reducible apply safe_trapAct
        with_reducible assumption
      · split
        · simp only [SafeRes]
          with_reducible assumption
        · split
          · split
            · simp only [SafeRes]
              rw [safe_lit]
              (with_reducible refine safe_foldl _ _ _ ?_ ?_) <;> intros
              · with_reducible apply safe_closeArrival
                with_reducible assumption
              · with_reducible apply safe_vamDrain
                with_reducible assumption
            · simp only [SafeRes]
              with_reducible apply safe_vamDrain
              with_reducible assumption
          · simp only [SafeRes]
            rw [safe_lit]
            with_reducible assumption
  · with_reducible assumption

theorem safe_dropFor (s : State) (hs : Safe s) : Safe (dropFor s) := by
  unfold dropFor
  dsimp only
  (with_reducible refine safe_foldl _ _ _ ?_ ?_) <;> intros
  · with_reducible apply safe_setView
    with_reducible assumption
  · with_reducible assumption

theorem safe_emitVertex (a b : Nat) (s : State) (l : Nat) (hs : Safe s) : Safe (emitVertex a b s l) := by
  unfold emitVertex
  dsimp only
  split
  · with_reducible apply safe_dropFor
    with_reducible assumption
  · rw [safe_lit]
    with_reducible assumption

theorem safe_emitPrim (a b : Nat) (s : State) (l : Nat) (hs : Safe s) : Safe (emitPrim a b s l) := by
  unfold emitPrim
  dsimp only
  split
  · split
    · with_reducible apply safe_dropFor
      with_reducible assumption
    · rw [safe_lit]
      with_reducible apply safe_setCluster
      with_reducible assumption
  · with_reducible apply safe_dropFor
    with_reducible assumption

theorem safe_msemit (fn : BitVec 4) (n : Nat) (a b : BitVec 6) (g : Bool) (emit : Nat → Nat → State → Nat → State)
    (s : State) (hemit : ∀ x0 x1 x2 x3, Safe x2 → Safe (emit x0 x1 x2 x3)) (hs : Safe s) : SafeOut (msemit fn n a b g
        emit s) := by
  unfold msemit
  refine safe_Gate_run _ _ _ (fun t act ht => ?_) hs
  repeat' split
  · exact ht
  · exact ht
  · exact ht
  · exact safe_foldl _ _ _ (fun _ _ h => hemit _ _ _ _ h) ht

theorem safe_execMsemitv (a b : BitVec 6) (g : Bool) (s : State) (hs : Safe s) : SafeOut (execMsemitv a b g s) := by
  unfold execMsemitv
  with_reducible apply safe_msemit
  · intros
    with_reducible apply safe_emitVertex
    with_reducible assumption
  · with_reducible assumption

theorem safe_execMsemitp (a b : BitVec 6) (g : Bool) (s : State) (hs : Safe s) : SafeOut (execMsemitp a b g s) := by
  unfold execMsemitp
  with_reducible apply safe_msemit
  · intros
    with_reducible apply safe_emitPrim
    with_reducible assumption
  · with_reducible assumption

theorem safe_execVamPrimitive (cluster : Nat) (s : State) (hs : Safe s) : SafeOut (execVamPrimitive cluster s) := by
  unfold execVamPrimitive
  simp only [SafeOut]
  with_reducible apply safe_vamHead
  with_reducible assumption

theorem safe_finishTile (c : Nat) (s : State) (hs : Safe s) : Safe (finishTile c s) := by
  unfold finishTile
  dsimp only
  split
  · with_reducible assumption
  · rw [safe_lit]
    (with_reducible refine safe_foldl2 _ _ _ ?_ ?_) <;> intros
    · dsimp only
      split
      · with_reducible assumption
      · with_reducible apply safe_writeSample
        with_reducible assumption
    · with_reducible assumption

theorem safe_execWrsTileFinished (cluster : Nat) (s : State) (hs : Safe s) : SafeOut
    (execWrsTileFinished cluster s) := by
  unfold execWrsTileFinished
  simp only [SafeOut]
  with_reducible apply safe_finishTile
  with_reducible assumption

theorem safe_takeTile (d : Nat) (t : VTile) (s : State) (hs : Safe s) : SafeRes (takeTile d t s) := by
  unfold takeTile
  simp only [SafeRes]
  rw [safe_lit]
  exact hs

theorem safe_fetchTile (d : Nat) (nowait : Bool) (s : State) (hs : Safe s) : SafeRes (fetchTile d nowait s) := by
  unfold fetchTile
  dsimp only
  split
  · with_reducible apply safe_takeTile
    with_reducible assumption
  · split
    · simp only [SafeRes]
      rw [safe_lit]
      with_reducible assumption
    · simp only [SafeRes]
      with_reducible assumption

theorem safe_execRtfetch (d a : BitVec 6) (g : Bool) (s : State) (hs : Safe s) : SafeOut (execRtfetch d a g s) := by
  unfold execRtfetch
  dsimp only
  with_reducible apply safe_Gate_run
  · intros
    split
    · simp only [SafeRes]
      with_reducible assumption
    · split
      · with_reducible apply safe_fetchTile
        with_reducible assumption
      · split
        · with_reducible apply safe_trapAct
          with_reducible assumption
        · split
          · split
            · with_reducible apply safe_afterAll
              · with_reducible assumption
              · intros
                with_reducible apply safe_fetchTile
                with_reducible apply safe_placeTiles
                with_reducible apply safe_setCluster
                with_reducible apply safe_setWg
                rw [safe_lit]
                with_reducible assumption
            · with_reducible apply safe_trapAct
              with_reducible assumption
          · with_reducible apply safe_fetchTile
            with_reducible assumption
  · with_reducible assumption

theorem safe_readPixels (t : VTile) (r : ViewRec) (base pitch : Nat) (s : State) (hs : Safe s) : Safe
    (readPixels t r base pitch s) := by
  unfold readPixels
  dsimp only
  with_reducible apply safe_tookFree
  (with_reducible refine safe_foldl _ _ _ ?_ ?_) <;> intros
  · with_reducible apply safe_logUnc
    with_reducible assumption
  · (with_reducible refine safe_foldl _ _ _ ?_ ?_) <;> intros
    · with_reducible apply safe_storeMem
      with_reducible assumption
    · with_reducible assumption

theorem safe_tileDone (d : Nat) (t : VTile) (base pitch : Nat) (s : State) (hs : Safe s) : SafeRes
    (tileDone d t base pitch s) := by
  unfold tileDone
  dsimp only
  split
  · simp only [SafeRes]
    rw [safe_lit]
    with_reducible assumption
  · split
    · simp only [SafeRes]
      rw [safe_lit]
      with_reducible apply safe_setView
      with_reducible assumption
    · simp only [SafeRes]
      rw [safe_lit]
      with_reducible apply safe_readPixels
      with_reducible apply safe_placeTiles
      rw [safe_lit]
      with_reducible apply safe_returnBuffers
      with_reducible assumption

theorem safe_execVtdone (d a : BitVec 6) (g : Bool) (s : State) (hs : Safe s) : SafeOut (execVtdone d a g s) := by
  unfold execVtdone
  dsimp only
  with_reducible apply safe_Gate_run
  · intros
    split
    · simp only [SafeRes]
      with_reducible assumption
    · split
      · simp only [SafeRes]
        rw [safe_lit]
        with_reducible assumption
      · split
        · with_reducible apply safe_trapAct
          with_reducible assumption
        · split
          · with_reducible apply safe_trapAct
            with_reducible assumption
          · with_reducible apply safe_afterAll
            · with_reducible assumption
            · intros
              with_reducible apply safe_tileDone
              with_reducible assumption
  · with_reducible assumption

theorem safe_execGaze (d a : BitVec 6) (g : Bool) (s : State) (hs : Safe s) : SafeOut (execGaze d a g s) := by
  unfold execGaze
  dsimp only
  with_reducible apply safe_Gate_run
  · intros
    split
    · simp only [SafeRes]
      with_reducible assumption
    · split
      · with_reducible apply safe_trapAct
        with_reducible assumption
      · simp only [SafeRes]
        rw [safe_lit]
        with_reducible assumption
  · with_reducible assumption

theorem safe_finishBatch (wid id : Nat) (s : State) (hs : Safe s) : Safe (finishBatch wid id s) := by
  unfold finishBatch
  dsimp only
  split
  · exact hs
  · rename_i w _
    split
    · exact hs
    · rename_i b _
      have ht := safe_sendAll w.ctx ((batchLines s w b).map (128 * ·)) s hs
      split
      · exact hs
      · split
        · exact ht
        · refine safe_foldl _ _ _ (fun _ _ h => safe_addFault _ _ _ _ _ h) (safe_modWarp _ _ _ ?_)
          split
          · exact safe_noteLinesOf _ _ _ ht
          · exact ht

theorem safe_execRayTraversalComplete (wid batch : Nat) (s : State) (hs : Safe s) : SafeOut
    (execRayTraversalComplete wid batch s) := by
  unfold execRayTraversalComplete
  simp only [SafeOut]
  with_reducible apply safe_finishBatch
  with_reducible assumption

theorem safe_launchRays (d : Nat) (warped : Bool) (base : W64) (rays : List Ray) (act : Mask) (s : State)
    (hs : Safe s) : SafeRes (launchRays d warped base rays act s) := by
  unfold launchRays
  dsimp only
  simp only [SafeRes]
  rw [safe_lit]
  with_reducible assumption

theorem safe_execRayl (d a b : BitVec 6) (g : Bool) (s : State) (hs : Safe s) : SafeOut (execRayl d a b g s) := by
  unfold execRayl
  dsimp only
  with_reducible apply safe_Gate_run
  · intros
    split
    · simp only [SafeRes]
      with_reducible assumption
    · split
      · with_reducible apply safe_trapAct
        with_reducible assumption
      · split
        · simp only [SafeRes]
          with_reducible assumption
        · with_reducible apply safe_launchRays
          with_reducible assumption
  · with_reducible assumption

theorem safe_execRaylw (d a b : BitVec 6) (g : Bool) (s : State) (hs : Safe s) : SafeOut (execRaylw d a b g s) := by
  unfold execRaylw
  refine safe_Gate_run _ _ _ (fun t act ht => ?_) hs
  dsimp only
  split
  · exact ht
  · split
    · exact safe_trapAct _ _ _ _ ht
    · refine safe_afterOps _ _ ht fun t ht => safe_overFabric _ _ _ ht fun t ht => ?_
      split
      · exact safe_trapAct _ _ _ _ ht
      · exact safe_parkAt _ _ _ ht
      · split
        · exact safe_trapAct _ _ _ _ ht
        · split
          · exact ht
          · exact safe_launchRays _ _ _ _ _ _ (safe_noteReads _ _ _ ht)

theorem safe_execRayr (d a : BitVec 6) (g : Bool) (s : State) (hs : Safe s) : SafeOut (execRayr d a g s) := by
  unfold execRayr
  dsimp only
  with_reducible apply safe_Gate_run
  · intros
    split
    · simp only [SafeRes]
      with_reducible assumption
    · split
      · with_reducible apply safe_trapAct
        with_reducible assumption
      · split
        · with_reducible apply safe_trapAct
          with_reducible assumption
        · split
          · with_reducible apply safe_trapAct
            with_reducible assumption
          · split
            · simp only [SafeRes]
              with_reducible assumption
            · with_reducible apply safe_failLanes
              · with_reducible assumption
              · simp only [SafeRes]
                intros
                with_reducible apply safe_issueOp
                rw [safe_lit]
                with_reducible assumption
  · with_reducible assumption

theorem safe_freeHandles (wg : Nat) (p : Handle → Bool) (s : State) (hs : Safe s) : Safe (freeHandles wg p s) := by
  unfold freeHandles
  dsimp only
  with_reducible apply safe_setWg
  (with_reducible refine safe_foldl _ _ _ ?_ ?_) <;> intros
  · with_reducible apply safe_dropSeg
    with_reducible assumption
  · with_reducible assumption

theorem safe_releaseArray (wg : Nat) (s : State) (hs : Safe s) : Safe (releaseArray wg s) := by
  unfold releaseArray
  dsimp only
  rw [safe_lit]
  with_reducible assumption

theorem safe_endLaunch (id : Nat) (s : State) (hs : Safe s) : Safe (endLaunch id s) := by
  unfold endLaunch
  dsimp only
  split
  · with_reducible assumption
  · rw [safe_lit]
    (with_reducible refine safe_foldl _ _ _ ?_ ?_) <;> intros
    · with_reducible apply safe_freeHandles
      with_reducible assumption
    · with_reducible assumption

theorem safe_retireWg (wg : Nat) (s : State) (hs : Safe s) : Safe (retireWg wg s) := by
  unfold retireWg
  dsimp only
  with_reducible apply safe_endLaunch
  with_reducible apply safe_setKernel
  with_reducible apply safe_setWg
  with_reducible apply safe_freeHandles
  with_reducible apply safe_releaseArray
  with_reducible apply safe_pairEvent
  with_reducible apply safe_withdrawWg
  with_reducible assumption

theorem safe_removeWarp (wid : Nat) (s : State) (hs : Safe s) : Safe (removeWarp wid s) := by
  unfold removeWarp
  dsimp only
  split
  · rw [safe_lit]
    with_reducible assumption
  · rw [safe_lit]
    with_reducible assumption

theorem safe_tryRetire (wid : Nat) (s : State) (hs : Safe s) : Safe (tryRetire wid s) := by
  unfold tryRetire
  dsimp only
  split
  · with_reducible assumption
  · split
    · split
      · with_reducible apply safe_removeWarp
        with_reducible apply safe_releaseTabard
        with_reducible assumption
      · with_reducible apply safe_retireWg
        with_reducible apply safe_removeWarp
        with_reducible apply safe_releaseTabard
        with_reducible assumption
    · with_reducible assumption

theorem safe_retireGone (s : State) (hs : Safe s) : Safe (retireGone s) := by
  unfold retireGone
  (with_reducible refine safe_foldl _ _ _ ?_ ?_) <;> intros
  · with_reducible apply safe_tryRetire
    with_reducible assumption
  · with_reducible assumption

theorem safe_departed (wg : Nat) (s : State) (hs : Safe s) : Safe (departed wg s) := by
  unfold departed
  with_reducible apply safe_cpcTry
  with_reducible apply safe_barTry
  with_reducible apply safe_barTry
  with_reducible apply safe_regroupTry
  with_reducible assumption

theorem safe_exitRec (m : Mask) (s : State) (r : Rec) (hs : Safe s) : SafeExc (exitRec m s r) := by
  unfold exitRec
  dsimp only
  split
  · trivial
  · simp only [SafeExc]
    with_reducible assumption
  · split
    · simp only [SafeExc]
      with_reducible assumption
    · simp only [SafeExc]
      rw [safe_lit]
      with_reducible assumption

theorem safe_exitRecs (m : Mask) (s : State) (hs : Safe s) : SafeExc (exitRecs m s) := by
  unfold exitRecs
  (with_reducible refine safe_foldlE _ _ _ ?_ ?_) <;> intros
  · split
    · with_reducible assumption
    · with_reducible apply safe_exitRec
      have hb := ‹SafeExc (.ok _)›
      exact hb
  · simp only [SafeExc]
    with_reducible assumption

theorem safe_exitLanes (s : State) (act : Mask) (hs : Safe s) : SafeRes (exitLanes s act) := by
  unfold exitLanes
  dsimp only
  split
  · simp only [SafeRes]
    with_reducible assumption
  · split
    · simp only [SafeRes]
      with_reducible assumption
    · split
      · with_reducible apply safe_recFault
        with_reducible assumption
      · split
        · simp only [SafeRes]
          with_reducible apply safe_closeGroup
          rw [safe_lit]
          rename_i hq _
          refine safeExc_of_eq hq ?_
          with_reducible apply safe_exitRecs
          with_reducible assumption
        · simp only [SafeRes]
          with_reducible apply safe_closeGroup
          rw [safe_lit]
          rename_i hq _
          refine safeExc_of_eq hq ?_
          with_reducible apply safe_exitRecs
          with_reducible assumption

theorem safe_afterExit (s : State) (hs : Safe s) : Safe (afterExit s) := by
  unfold afterExit
  split
  · with_reducible apply safe_tryRetire
    with_reducible apply safe_departed
    with_reducible assumption
  · with_reducible assumption

theorem safe_execExit (g : Bool) (s : State) (hs : Safe s) : SafeOut (execExit g s) := by
  unfold execExit
  dsimp only
  split
  · simp only [SafeOut]
    with_reducible apply safe_afterExit
    rename_i hq
    refine safeOut_of_eq hq ?_
    with_reducible apply safe_Gate_run
    · intros
      with_reducible apply safe_exitLanes
      with_reducible assumption
    · with_reducible assumption
  · with_reducible apply safe_Gate_run
    · intros
      with_reducible apply safe_exitLanes
      with_reducible assumption
    · with_reducible assumption

theorem safe_execMemoryOpComplete (wid seq : Nat) (lanes : BitVec 32) (s : State) (hs : Safe s) : SafeOut
    (execMemoryOpComplete wid seq lanes s) := by
  unfold execMemoryOpComplete
  simp only [SafeOut]
  with_reducible apply safe_tryRetire
  with_reducible apply safe_runOp
  with_reducible assumption

theorem safe_execMxaOperation (core : Nat) (s : State) (hs : Safe s) : SafeOut (execMxaOperation core s) := by
  unfold execMxaOperation
  simp only [SafeOut]
  with_reducible apply safe_retireGone
  with_reducible apply safe_mxaStep
  with_reducible assumption

theorem safe_execCopyRow (copy : Nat) (s : State) (hs : Safe s) : SafeOut (execCopyRow copy s) := by
  unfold execCopyRow
  simp only [SafeOut]
  with_reducible apply safe_retireGone
  with_reducible apply safe_copyRow
  with_reducible assumption

theorem safe_execRangeLockRelease (copy : Nat) (s : State) (hs : Safe s) : SafeOut (execRangeLockRelease copy s) := by
  unfold execRangeLockRelease
  simp only [SafeOut]
  with_reducible apply safe_releaseLocks
  with_reducible assumption

theorem safe_execTabardGrant (dom : Nat) (s : State) (hs : Safe s) : SafeOut (execTabardGrant dom s) := by
  unfold execTabardGrant
  simp only [SafeOut]
  with_reducible apply safe_grantTabard
  with_reducible assumption

theorem safe_withDesc (b : Nat) (s : State) (act : Mask) (k : State → TexDesc → Res) (hs : Safe s)
    (hk : ∀ x0 x1, Safe x0 → SafeRes (k x0 x1)) : SafeRes (withDesc b s act k) := by
  unfold withDesc
  dsimp only
  split
  · exact hs
  · refine safe_afterOps _ _ hs fun t ht => safe_overFabric _ _ _ ht fun t ht => ?_
    split
    · exact safe_trapAct _ _ _ _ ht
    · exact safe_parkAt _ _ _ ht
    · split
      · exact hk _ _ (safe_noteReads _ _ _ ht)
      · exact safe_trapAct _ _ _ _ ht

theorem safe_texOp (fn : BitVec 4) (n : Nat) (form : TexForm) (d a b : BitVec 6) (g : Bool) (s : State) (hs : Safe s)
    : SafeOut (texOp fn n form d a b g s) := by
  unfold texOp
  refine safe_Gate_run _ _ _ (fun t act ht => ?_) hs
  refine safe_withDesc _ _ _ _ ht fun t _ ht => safe_overFabric _ _ _ ht fun t ht => ?_
  refine safe_failLanes _ _ _ _ ht fun t _ ht => ?_
  dsimp only
  split
  · exact safe_issueOp _ _ (safe_noteLines _ _ (safe_noteReads _ _ _ ht))
  · exact safe_parkAt _ _ _ ht

theorem safe_execTex (d a b : BitVec 6) (g : Bool) (s : State) (hs : Safe s) : SafeOut (execTex d a b g s) := by
  unfold execTex
  with_reducible apply safe_texOp
  with_reducible assumption

theorem safe_execTexl (d a b : BitVec 6) (g : Bool) (s : State) (hs : Safe s) : SafeOut (execTexl d a b g s) := by
  unfold execTexl
  with_reducible apply safe_texOp
  with_reducible assumption

theorem safe_execTexg (d a b : BitVec 6) (g : Bool) (s : State) (hs : Safe s) : SafeOut (execTexg d a b g s) := by
  unfold execTexg
  with_reducible apply safe_texOp
  with_reducible assumption

theorem safe_execTexf (d a b : BitVec 6) (g : Bool) (s : State) (hs : Safe s) : SafeOut (execTexf d a b g s) := by
  unfold execTexf
  with_reducible apply safe_texOp
  with_reducible assumption

theorem safe_execTexq (d a b : BitVec 6) (g : Bool) (s : State) (hs : Safe s) : SafeOut (execTexq d a b g s) := by
  unfold execTexq
  dsimp only
  with_reducible apply safe_Gate_run
  · intros
    with_reducible apply safe_withDesc
    · with_reducible assumption
    · simp only [SafeRes]
      intros
      with_reducible apply safe_issueOp
      with_reducible assumption
  · with_reducible assumption

end Sys2Proof.Machine
end

