-- ==== Sys2Proof/Laws/SafeDevice.lean ====
section
/-! SUPPORT. Safety, operation by operation: launches, pre-emption, the host, the management controller and the
clocks keep memory in its canonical form. -/

namespace Sys2Proof.Machine

theorem safe_setTail (q : Nat) (t : W32) (s : State) (hs : Safe s) : Safe (setTail q t s) := by
  unfold setTail
  dsimp only
  split
  · with_reducible assumption
  · with_reducible apply safe_setQueue
    rw [safe_lit]
    with_reducible assumption

theorem safe_dropPass (n idx : Nat) (s : State) (hs : Safe s) : Safe (dropPass n idx s) := by
  unfold dropPass
  dsimp only
  rw [safe_lit]
  with_reducible assumption

theorem safe_takeHead (n : Nat) (k : Kernel) (s : State) (hs : Safe s) : Safe (takeHead n k s) := by
  unfold takeHead
  dsimp only
  split
  · with_reducible apply safe_dropPass
    with_reducible apply safe_setQueue
    with_reducible apply safe_setKernel
    rw [safe_lit]
    with_reducible assumption
  · with_reducible apply safe_setKernel
    with_reducible apply safe_dropPass
    with_reducible apply safe_setQueue
    with_reducible apply safe_setKernel
    rw [safe_lit]
    with_reducible assumption

theorem safe_rejectHead (n reason : Nat) (s : State) (hs : Safe s) : Safe (rejectHead n reason s) := by
  unfold rejectHead
  dsimp only
  split
  · with_reducible apply safe_setQueue
    with_reducible apply safe_takeHead
    with_reducible assumption
  · with_reducible apply safe_ringOrHold
    with_reducible apply safe_setQueue
    with_reducible apply safe_takeHead
    with_reducible assumption

theorem safe_examineHead (die n : Nat) (s : State) (hs : Safe s) : Safe (examineHead die n s) := by
  unfold examineHead
  dsimp only
  generalize hp : headPkt s n = p
  have hrej : ∀ r, Safe (if ((s.queue n).dl || ringReady s (s.queue n).cx 3) = true then rejectHead n r s else s) := by
    intro r; split
    · exact safe_rejectHead _ _ _ hs
    · exact hs
  split
  · exact hs
  · split
    · exact hrej _
    · split
      · exact hs
      · split
        · exact safe_setQueue _ _ _ hs
        · split
          · exact hrej _
          · rename_i x _
            split
            · exact safe_addFault _ _ _ _ _ (safe_setDie _ _ _ hs)
            · have ht := safe_sendAll (s.queue n).cx [x.key] s hs
              split
              · exact ht
              · split
                · split
                  · exact safe_rejectHead _ _ _ (safe_logUnc _ _ ht)
                  · exact hs
                · split
                  · exact safe_setQueue _ _ _ ht
                  · exact ht

theorem safe_addWarp (w : Warp) (s : State) (hs : Safe s) : Safe (addWarp w s) := by
  unfold addWarp
  split
  · rw [safe_lit]
    with_reducible assumption
  · rw [safe_lit]
    with_reducible assumption

theorem safe_placeWarps (ctx kern wg core : Nat) (pkt : Pkt) (sys : Bool) (s : State) (hs : Safe s) : Safe
    (placeWarps ctx kern wg core pkt sys s) := by
  unfold placeWarps
  dsimp only
  with_reducible apply safe_setCore
  (with_reducible refine safe_foldl _ _ _ ?_ ?_) <;> intros
  · with_reducible apply safe_addWarp
    rw [safe_lit]
    with_reducible assumption
  · with_reducible assumption

theorem safe_takeArray (wg core : Nat) (s : State) (hs : Safe s) : Safe (takeArray wg core s) := by
  unfold takeArray
  dsimp only
  with_reducible apply safe_setCore
  with_reducible assumption

theorem safe_placeWg (ctx kern launch rank core i : Nat) (pkt : Pkt) (sys : Bool) (s : State) (hs : Safe s) : Safe
    (placeWg ctx kern launch rank core i pkt sys s) := by
  unfold placeWg
  dsimp only
  with_reducible apply safe_placeWarps
  split
  · with_reducible apply safe_takeArray
    with_reducible apply safe_setWg
    rw [safe_lit]
    with_reducible apply safe_dropL1
    with_reducible assumption
  · with_reducible apply safe_setWg
    rw [safe_lit]
    with_reducible apply safe_dropL1
    with_reducible assumption

theorem safe_placeLaunch (kern : Nat) (cores : List Nat) (sys : Bool) (s : State) (hs : Safe s) : Safe
    (placeLaunch kern cores sys s) := by
  unfold placeLaunch
  dsimp only
  with_reducible apply safe_setKernel
  (with_reducible refine safe_foldl _ _ _ ?_ ?_) <;> intros
  · with_reducible apply safe_placeWg
    with_reducible assumption
  · with_reducible apply safe_setLaunch
    rw [safe_lit]
    with_reducible assumption

theorem safe_haltHead (die n bp : Nat) (s : State) (hs : Safe s) : Safe (haltHead die n bp s) := by
  unfold haltHead
  dsimp only
  with_reducible apply safe_setDie
  with_reducible apply safe_setQueue
  with_reducible assumption

theorem safe_releaseHalt (die : Nat) (s : State) (hs : Safe s) : Safe (releaseHalt die s) := by
  unfold releaseHalt
  dsimp only
  split
  · with_reducible apply safe_setDie
    with_reducible apply safe_setQueue
    with_reducible assumption
  · with_reducible assumption

theorem safe_openKernel (n : Nat) (s : State) (hs : Safe s) : Safe (openKernel n s) := by
  unfold openKernel
  dsimp only
  split
  · with_reducible assumption
  · with_reducible apply safe_takeHead
    with_reducible assumption

theorem safe_placeHead (n : Nat) (cores : List Nat) (s : State) (hs : Safe s) : Safe (placeHead n cores s) := by
  unfold placeHead
  dsimp only
  split
  · with_reducible apply safe_setQueue
    with_reducible apply safe_placeLaunch
    with_reducible apply safe_openKernel
    with_reducible assumption
  · with_reducible apply safe_placeLaunch
    with_reducible apply safe_openKernel
    with_reducible assumption

theorem safe_chooseHead (die : Nat) (asked a2 : List Nat) (a3 : State) (ha3 : Safe a3) : Safe
    (chooseHead die asked a2 a3) := by
  induction a2 generalizing a3 with
  | nil => exact ha3
  | cons n ns ih =>
    unfold chooseHead
    split
    · exact ih _ ha3
    · split
      · exact safe_placeHead _ _ _ ha3
      · split
        · exact ih _ ha3
        · exact safe_haltHead _ _ _ _ ha3

theorem safe_seatWarp (core : Nat) (w : Warp) (s : State) (hs : Safe s) : Safe (seatWarp core w s) := by
  unfold seatWarp
  with_reducible apply safe_addWarp
  rw [safe_lit]
  with_reducible assumption

theorem safe_seatWg (u : ResUnit) (core : Nat) (e : Nat × WG) (s : State) (hs : Safe s) : Safe (seatWg u core e s) := by
  unfold seatWg
  dsimp only
  with_reducible apply safe_setCluster
  with_reducible apply safe_setWg
  (with_reducible refine safe_foldl _ _ _ ?_ ?_) <;> intros
  · with_reducible apply safe_seatWarp
    with_reducible assumption
  · split
    · with_reducible apply safe_setCore
      with_reducible apply safe_takeArray
      with_reducible apply safe_setWg
      with_reducible apply safe_dropL1
      with_reducible assumption
    · with_reducible apply safe_setWg
      with_reducible apply safe_dropL1
      with_reducible assumption

theorem safe_placeUnit (die : Nat) (asked : List Nat) (u : ResUnit) (s : State) (hs : Safe s) : SafeOpt
    (placeUnit die asked u s) := by
  unfold placeUnit
  dsimp only
  split
  · trivial
  · simp only [SafeOpt]
    with_reducible apply safe_placeAll
    (with_reducible refine safe_foldl _ _ _ ?_ ?_) <;> intros
    · with_reducible apply safe_seatWg
      with_reducible assumption
    · with_reducible apply safe_setLaunch
      rw [safe_lit]
      with_reducible assumption

theorem safe_placeUnits (die : Nat) (asked : List Nat) (s : State) (a3 : List ResUnit) (hs : Safe s) : SafeOpt
    (placeUnits die asked s a3) := by
  induction a3 with
  | nil => trivial
  | cons u us ih =>
    unfold placeUnits
    split
    · next t h =>
      refine safeOpt_of_eq h ?_
      split
      · exact safe_placeUnit _ _ _ _ hs
      · trivial
    · exact ih

theorem safe_dispatch (die : Nat) (asked : List Nat) (s : State) (hs : Safe s) : Safe (dispatch die asked s) := by
  unfold dispatch
  dsimp only
  split
  · with_reducible assumption
  · split
    · rename_i hq
      refine safeOpt_of_eq hq ?_
      with_reducible apply safe_placeUnits
      with_reducible assumption
    · with_reducible apply safe_chooseHead
      (with_reducible refine safe_foldl _ _ _ ?_ ?_) <;> intros
      · with_reducible apply safe_examineHead
        with_reducible assumption
      · with_reducible assumption

theorem safe_execDispatchStep (die : Nat) (cores : List Nat) (s : State) (hs : Safe s) : SafeOut
    (execDispatchStep die cores s) := by
  unfold execDispatchStep
  simp only [SafeOut]
  with_reducible apply safe_dispatch
  with_reducible assumption

theorem safe_execHeadReadinessCheck (die queue : Nat) (s : State) (hs : Safe s) : SafeOut
    (execHeadReadinessCheck die queue s) := by
  unfold execHeadReadinessCheck
  simp only [SafeOut]
  split
  · with_reducible apply safe_examineHead
    with_reducible assumption
  · with_reducible assumption

theorem safe_execDbpstatHaltClear (die : Nat) (s : State) (hs : Safe s) : SafeOut (execDbpstatHaltClear die s) := by
  unfold execDbpstatHaltClear
  simp only [SafeOut]
  with_reducible apply safe_releaseHalt
  with_reducible assumption

theorem safe_hostTail (q : Nat) (t : W32) (s : State) (hs : Safe s) : Safe (hostTail q t s) := by
  unfold hostTail
  split
  · with_reducible assumption
  · with_reducible apply safe_setTail
    with_reducible assumption

theorem safe_execQtailWrite (queue : Nat) (tail : BitVec 64) (s : State) (hs : Safe s) : SafeOut
    (execQtailWrite queue tail s) := by
  unfold execQtailWrite
  simp only [SafeOut]
  split
  · with_reducible apply safe_hostTail
    with_reducible assumption
  · with_reducible assumption

theorem safe_doneFailed (k : Kernel) (cause : Nat) (s : State) (hs : Safe s) : Safe (doneFailed k cause s) := by
  unfold doneFailed
  with_reducible apply safe_ringOrHold
  with_reducible assumption

theorem safe_doneSig (kern : Nat) (s : State) (hs : Safe s) : Safe (doneSig kern s) := by
  unfold doneSig
  dsimp only
  split
  · exact hs
  · split
    · exact safe_setKernel _ _ _ hs
    · split
      · split
        · refine safe_doneFailed _ _ _ ?_
          split
          · exact safe_logUnc _ _ (safe_setKernel _ _ _ hs)
          · exact safe_setKernel _ _ _ hs
        · exact hs
      · rename_i x _
        split
        · exact safe_addFault _ _ _ _ _ (safe_setKernel _ _ _ hs)
        · have ht := safe_sendAll (s.kernel kern).ctx [x.key] s hs
          split
          · exact ht
          · split
            · split
              · exact safe_doneFailed _ _ _ (safe_logUnc _ _ (safe_setKernel _ _ _ ht))
              · exact ht
            · exact safe_setKernel _ _ _ (safe_storeMem _ _ _ _ _ ht)

theorem safe_execDoneSigIncrement (kernel : Nat) (s : State) (hs : Safe s) : SafeOut
    (execDoneSigIncrement kernel s) := by
  unfold execDoneSigIncrement
  simp only [SafeOut]
  with_reducible apply safe_doneSig
  with_reducible assumption

theorem safe_appendPkt (q : Nat) (pkt : List Byte) (kern : Nat) (s : State) (hs : Safe s) : Safe
    (appendPkt q pkt kern s).1 := by
  unfold appendPkt
  dsimp only
  with_reducible apply safe_setKernel
  with_reducible apply safe_setQueue
  with_reducible apply safe_setTail
  with_reducible apply safe_storeBytes
  with_reducible assumption

theorem safe_execDlaunch (d a b : BitVec 6) (g : Bool) (s : State) (hs : Safe s) : SafeOut (execDlaunch d a b g s) := by
  unfold execDlaunch
  refine safe_Gate_run _ _ _ (fun t act ht => ?_) hs
  dsimp only
  split
  · exact ht
  · split
    · exact safe_trapAct _ _ _ _ ht
    · split
      · exact safe_trapAct _ _ _ _ ht
      · split
        · exact safe_trapAct _ _ _ _ ht
        · refine safe_afterAll _ _ ht fun t ht => ?_
          split
          · exact ht
          · refine safe_overFabric _ _ _ (safe_noteReads _ _ _ (safe_dropL1 _ _ ht)) fun u hu => ?_
            split
            · exact safe_trapAct _ _ _ _ ht
            · exact safe_parkAt _ _ _ ht
            · rename_i bs _; exact safe_appendPkt _ bs t.w.kern _ hu

theorem safe_execDjoin (d a : BitVec 6) (g : Bool) (s : State) (hs : Safe s) : SafeOut (execDjoin d a g s) := by
  unfold execDjoin
  dsimp only
  with_reducible apply safe_Gate_run
  · intros
    split
    · simp only [SafeRes]
      with_reducible assumption
    · split
      · simp only [SafeRes]
        with_reducible assumption
      · simp only [SafeRes]
        rw [safe_lit]
        split
        · with_reducible apply safe_dropL1
          with_reducible assumption
        · with_reducible assumption
  · with_reducible assumption

theorem safe_command (code : Nat) (ctx : BitVec 24) (f : Nat → State → State × Nat) (s : State)
    (hf : ∀ x0 x1, Safe x1 → Safe (f x0 x1).1) (hs : Safe s) : Safe (command code ctx f s) := by
  unfold command
  dsimp only
  split
  · with_reducible assumption
  · split
    · rw [safe_lit]
      with_reducible assumption
    · rw [safe_lit]
      with_reducible apply hf
      rw [safe_lit]
      with_reducible assumption

theorem safe_onCtx (f : Nat → State → State × Nat) (n : Nat) (s : State) (hf : ∀ x0 x1, Safe x1 → Safe (f x0 x1).1)
    (hs : Safe s) : Safe (onCtx f n s).1 := by
  unfold onCtx
  split
  · with_reducible apply hf
    with_reducible assumption
  · with_reducible assumption

theorem safe_register (n : Nat) (s : State) (hs : Safe s) : Safe (register n s).1 := by
  unfold register
  dsimp only
  split
  · with_reducible assumption
  · split
    · with_reducible assumption
    · dsimp only
      with_reducible apply safe_setCtx
      with_reducible assumption

theorem safe_unregister (n : Nat) (s : State) (hs : Safe s) : Safe (unregister n s).1 := by
  unfold unregister
  split
  · with_reducible assumption
  · dsimp only
    with_reducible apply safe_setCtx
    with_reducible assumption

theorem safe_tlbInv (n : Nat) (s : State) (hs : Safe s) : Safe (tlbInv n s).1 := by
  unfold tlbInv
  dsimp only
  split
  · with_reducible assumption
  · dsimp only
    rw [safe_lit]
    with_reducible assumption

theorem safe_endTlbInv (n : Nat) (s : State) (hs : Safe s) : Safe (endTlbInv n s) := by
  unfold endTlbInv
  split
  · rw [safe_lit]
    with_reducible assumption
  · with_reducible assumption

theorem safe_replay (on : Nat → Bool) (n : Nat) (s : State) (hs : Safe s) : Safe (replay on n s) := by
  unfold replay
  dsimp only
  rw [safe_lit]
  with_reducible apply safe_mapWarps
  with_reducible assumption

theorem safe_replayCmd (n : Nat) (s : State) (hs : Safe s) : Safe (replayCmd n s).1 := by
  unfold replayCmd
  dsimp only
  with_reducible apply safe_replay
  with_reducible assumption

theorem safe_disableQueues (n : Nat) (s : State) (hs : Safe s) : Safe (disableQueues n s) := by
  unfold disableQueues
  dsimp only
  rw [safe_lit]
  with_reducible assumption

theorem safe_killCmd (n : Nat) (s0 : State) (hs0 : Safe s0) : Safe (killCmd n s0).1 := by
  unfold killCmd
  dsimp only
  split
  · dsimp only
    with_reducible apply safe_disableQueues
    with_reducible apply safe_endKill
    with_reducible assumption
  · dsimp only
    with_reducible apply safe_disableQueues
    with_reducible apply safe_killCtx
    with_reducible apply safe_endKill
    with_reducible assumption

theorem safe_requestStop (n at_ : Nat) (s : State) (hs : Safe s) : Safe (requestStop n at_ s) := by
  unfold requestStop
  dsimp only
  with_reducible apply safe_setCtx
  with_reducible assumption

theorem safe_preemptCmd (n : Nat) (s : State) (hs : Safe s) : Safe (preemptCmd n s).1 := by
  unfold preemptCmd deferred
  dsimp only
  split
  · exact hs
  · split
    · exact hs
    · dsimp only
      split
      · exact safe_setCtx _ _ _ hs
      · exact safe_requestStop _ _ _ hs

theorem safe_cancelArrivals (w : Warp) (s : State) (hs : Safe s) : Safe (cancelArrivals w s) := by
  unfold cancelArrivals
  dsimp only
  split
  · with_reducible apply safe_setLaunch
    with_reducible apply safe_setWg
    with_reducible assumption
  · with_reducible apply safe_setWg
    with_reducible assumption

theorem safe_stopWg (wg : Nat) (s : State) (hs : Safe s) : Safe (stopWg wg s) := by
  unfold stopWg
  dsimp only
  with_reducible apply safe_setWg
  with_reducible apply safe_withdrawWg
  with_reducible assumption

theorem safe_stopCore (core n : Nat) (s : State) (hs : Safe s) : Safe (stopCore core n s) := by
  unfold stopCore
  dsimp only
  split
  · with_reducible assumption
  · with_reducible apply safe_placeAll
    with_reducible apply safe_setCtx
    with_reducible apply safe_mapWarps
    (with_reducible refine safe_foldl _ _ _ ?_ ?_) <;> intros
    · with_reducible apply safe_stopWg
      with_reducible assumption
    · (with_reducible refine safe_foldl _ _ _ ?_ ?_) <;> intros
      · with_reducible apply safe_releaseTabard
        split
        · with_reducible apply safe_cancelArrivals
          with_reducible assumption
        · with_reducible assumption
      · with_reducible assumption

theorem safe_execPreemptionStop (core : Nat) (ctx : BitVec 24) (s : State) (hs : Safe s) : SafeOut
    (execPreemptionStop core ctx s) := by
  unfold execPreemptionStop
  simp only [SafeOut]
  with_reducible apply safe_stopCore
  with_reducible assumption

theorem safe_syncAll (n : Nat) (s : State) (hs : Safe s) : Safe (syncAll n s) := by
  unfold syncAll
  (with_reducible refine safe_foldl _ _ _ ?_ ?_) <;> intros
  · split
    · rename_i hq
      refine safeExc_of_eq hq ?_
      with_reducible apply safe_syncRecords
      with_reducible assumption
    · with_reducible apply safe_fseFault
      with_reducible assumption
  · with_reducible assumption

theorem safe_writeImage (n : Nat) (s : State) (kern : Nat) (hs : Safe s) : Safe (writeImage n s kern) := by
  unfold writeImage
  dsimp only
  with_reducible apply safe_setCtx
  rw [safe_lit]
  with_reducible apply safe_storeBytes
  with_reducible assumption

theorem safe_clearStopped (n : Nat) (s : State) (hs : Safe s) : Safe (clearStopped n s) := by
  unfold clearStopped
  dsimp only
  rw [safe_lit]
  with_reducible assumption

theorem safe_stageUnit (queue kern : Nat) (s : State) (u : ResUnit) (hs : Safe s) : Safe
    (stageUnit queue kern s u) := by
  unfold stageUnit
  dsimp only
  have hf : ∀ (l : List (Nat × Byte)) (m : List (Nat × Byte)) (f : Nat → Nat), canon (0 : Byte) m = true →
      canon (0 : Byte) (l.foldl (fun m e => put 0 m (f e.1) e.2) m) = true := by
    intro l
    induction l with
    | nil => intro m f h; exact h
    | cons x l ih => intro m f h; exact ih _ _ (canon_put _ _ _ _ h)
  exact hf _ _ _ hs

theorem safe_kernelOfImage (n queue : Nat) (i : Image) (s : State) (hs : Safe s) : Safe
    (kernelOfImage n queue i s).1 := by
  unfold kernelOfImage
  dsimp only
  split
  · with_reducible assumption
  · dsimp only
    with_reducible apply safe_setKernel
    rw [safe_lit]
    with_reducible assumption

theorem safe_resumeAt (n q : Nat) (is : List (Option Image × Bool)) (s : State) (hs : Safe s) : Safe (resumeAt n q is s) := by
  unfold resumeAt
  refine safe_setCtx _ _ _ (safe_foldl _ _ _ (fun _ _ h => ?_) hs)
  exact safe_foldl _ _ _ (fun _ _ h => safe_stageUnit _ _ _ _ h) (safe_kernelOfImage _ _ _ _ h)

theorem safe_resumeCmd (n : Nat) (s : State) (hs : Safe s) : Safe (resumeCmd n s).1 := by
  unfold resumeCmd deferred
  dsimp only
  repeat' split
  · exact hs
  · exact safe_setCtx _ _ _ hs
  · exact safe_resumeAt _ _ _ _ hs
  · exact hs

theorem safe_runLater (n : Nat) (l : List (Option Nat × Nat)) (s : State) (hs : Safe s) : Safe (runLater n l s) := by
  induction l generalizing s with
  | nil => exact hs
  | cons x l ih =>
    obtain ⟨q, a⟩ := x
    cases q with
    | none => exact safe_setCtx _ _ _ (safe_requestStop _ _ _ hs)
    | some q =>
      refine ih _ ?_
      split
      · exact safe_resumeAt _ _ _ _ hs
      · exact hs

theorem safe_imagesOut (n : Nat) (s0 : State) (hs0 : Safe s0) : Safe (imagesOut n s0) := by
  unfold imagesOut
  dsimp only
  with_reducible apply safe_runLater
  with_reducible apply safe_ringOrHold
  with_reducible apply safe_setCtx
  with_reducible apply safe_clearStopped
  (with_reducible refine safe_foldl _ _ _ ?_ ?_) <;> intros
  · with_reducible apply safe_writeImage
    with_reducible assumption
  · with_reducible apply safe_setCtx
    with_reducible assumption

theorem safe_freesJoined (n : Nat) (s : State) (hs : Safe s) : Safe (freesJoined n s) := by
  unfold freesJoined
  (with_reducible refine safe_foldl _ _ _ ?_ ?_) <;> intros
  · with_reducible apply safe_clusterTry
    with_reducible assumption
  · with_reducible assumption

theorem safe_writeImages (n : Nat) (s : State) (hs : Safe s) : Safe (writeImages n s) := by
  unfold writeImages
  dsimp only
  split
  · split
    · with_reducible apply safe_imagesOut
      with_reducible apply safe_syncAll
      with_reducible apply safe_freesJoined
      with_reducible assumption
    · with_reducible apply safe_syncAll
      with_reducible apply safe_freesJoined
      with_reducible assumption
  · with_reducible assumption

theorem safe_execContextImageWrite (ctx : BitVec 24) (s : State) (hs : Safe s) : SafeOut
    (execContextImageWrite ctx s) := by
  unfold execContextImageWrite
  simp only [SafeOut]
  with_reducible apply safe_writeImages
  with_reducible assumption

theorem safe_gstartCmd (n : Nat) (s : State) (hs : Safe s) : Safe (gstartCmd n s).1 := by
  unfold gstartCmd
  dsimp only
  split
  · with_reducible assumption
  · dsimp only
    with_reducible apply safe_setCtx
    with_reducible assumption

theorem safe_execGangAccept (ctx : BitVec 24) (s : State) (hs : Safe s) : SafeOut (execGangAccept ctx s) := by
  unfold execGangAccept
  dsimp only
  simp only [SafeOut]
  split
  · split
    · with_reducible apply safe_setCtx
      with_reducible assumption
    · with_reducible assumption
  · with_reducible assumption

theorem safe_gangLate (n role at_ : Nat) (s : State) (hs : Safe s) : Safe (gangLate n role at_ s) := by
  unfold gangLate
  dsimp only
  with_reducible apply safe_ringOrHold
  split
  · exact safe_setCtx _ _ _ (safe_setCtx _ _ _ hs)
  · exact safe_requestStop _ _ _ (safe_setCtx _ _ _ hs)

theorem safe_gangTimeout (n : Nat) (s : State) (hs : Safe s) : Safe (gangTimeout n s) := by
  unfold gangTimeout
  dsimp only
  split
  · split
    · with_reducible assumption
    · with_reducible apply safe_gangLate
      rw [safe_lit]
      with_reducible assumption
  · with_reducible assumption

theorem safe_microsecond (s : State) (hs : Safe s) : Safe (microsecond s) := by
  unfold microsecond
  dsimp only
  rw [safe_lit]
  (with_reducible refine safe_foldl _ _ _ ?_ ?_) <;> intros
  · with_reducible apply safe_gangTimeout
    with_reducible assumption
  · with_reducible assumption

theorem safe_execGangTimeout (ctx : BitVec 24) (s : State) (hs : Safe s) : SafeOut (execGangTimeout ctx s) := by
  unfold execGangTimeout
  simp only [SafeOut]
  with_reducible apply safe_gangTimeout
  with_reducible assumption

theorem safe_execGangAbort (gang : BitVec 16) (s : State) (hs : Safe s) : SafeOut (execGangAbort gang s) := by
  unfold execGangAbort
  dsimp only
  simp only [SafeOut]
  (with_reducible refine safe_foldl _ _ _ ?_ ?_) <;> intros
  · split
    · with_reducible apply safe_gangLate
      with_reducible assumption
    · with_reducible assumption
  · with_reducible assumption

theorem safe_execRegister (ctx : BitVec 24) (s : State) (hs : Safe s) : SafeOut (execRegister ctx s) := by
  unfold execRegister
  simp only [SafeOut]
  with_reducible apply safe_command
  · intros
    with_reducible apply safe_register
    with_reducible assumption
  · with_reducible assumption

theorem safe_execUnregister (ctx : BitVec 24) (s : State) (hs : Safe s) : SafeOut (execUnregister ctx s) := by
  unfold execUnregister
  simp only [SafeOut]
  with_reducible apply safe_command
  · intros
    with_reducible apply safe_onCtx
    · intros
      with_reducible apply safe_unregister
      with_reducible assumption
    · with_reducible assumption
  · with_reducible assumption

theorem safe_execTlbinv (ctx : BitVec 24) (s : State) (hs : Safe s) : SafeOut (execTlbinv ctx s) := by
  unfold execTlbinv
  simp only [SafeOut]
  split
  · with_reducible apply safe_endTlbInv
    with_reducible assumption
  · with_reducible apply safe_command
    · intros
      with_reducible apply safe_onCtx
      · intros
        with_reducible apply safe_tlbInv
        with_reducible assumption
      · with_reducible assumption
    · with_reducible assumption

theorem safe_execReplay (ctx : BitVec 24) (s : State) (hs : Safe s) : SafeOut (execReplay ctx s) := by
  unfold execReplay
  simp only [SafeOut]
  with_reducible apply safe_command
  · intros
    with_reducible apply safe_onCtx
    · intros
      with_reducible apply safe_replayCmd
      with_reducible assumption
    · with_reducible assumption
  · with_reducible assumption

theorem safe_execPreempt (ctx : BitVec 24) (s : State) (hs : Safe s) : SafeOut (execPreempt ctx s) := by
  unfold execPreempt
  simp only [SafeOut]
  with_reducible apply safe_command
  · intros
    with_reducible apply safe_onCtx
    · intros
      with_reducible apply safe_preemptCmd
      with_reducible assumption
    · with_reducible assumption
  · with_reducible assumption

theorem safe_execResume (ctx : BitVec 24) (s : State) (hs : Safe s) : SafeOut (execResume ctx s) := by
  unfold execResume
  simp only [SafeOut]
  with_reducible apply safe_command
  · intros
    with_reducible apply safe_onCtx
    · intros
      with_reducible apply safe_resumeCmd
      with_reducible assumption
    · with_reducible assumption
  · with_reducible assumption

theorem safe_execKill (ctx : BitVec 24) (s : State) (hs : Safe s) : SafeOut (execKill ctx s) := by
  unfold execKill
  simp only [SafeOut]
  with_reducible apply safe_command
  · intros
    with_reducible apply safe_onCtx
    · intros
      with_reducible apply safe_killCmd
      with_reducible assumption
    · with_reducible assumption
  · with_reducible assumption

theorem safe_execGstart (ctx : BitVec 24) (s : State) (hs : Safe s) : SafeOut (execGstart ctx s) := by
  unfold execGstart
  simp only [SafeOut]
  with_reducible apply safe_command
  · intros
    with_reducible apply safe_onCtx
    · intros
      with_reducible apply safe_gstartCmd
      with_reducible assumption
    · with_reducible assumption
  · with_reducible assumption

theorem safe_writeCmd (x : W64) (s : State) (hs : Safe s) : Safe (writeCmd x s) := by
  unfold writeCmd
  dsimp only
  split
  · with_reducible apply safe_command
    · intros
      with_reducible apply safe_register
      with_reducible assumption
    · with_reducible assumption
  · with_reducible apply safe_command
    · intros
      with_reducible apply safe_onCtx
      · intros
        with_reducible apply safe_unregister
        with_reducible assumption
      · with_reducible assumption
    · with_reducible assumption
  · with_reducible apply safe_command
    · intros
      with_reducible apply safe_onCtx
      · intros
        with_reducible apply safe_tlbInv
        with_reducible assumption
      · with_reducible assumption
    · with_reducible assumption
  · with_reducible apply safe_command
    · intros
      with_reducible apply safe_onCtx
      · intros
        with_reducible apply safe_replayCmd
        with_reducible assumption
      · with_reducible assumption
    · with_reducible assumption
  · with_reducible apply safe_command
    · intros
      with_reducible apply safe_onCtx
      · intros
        with_reducible apply safe_preemptCmd
        with_reducible assumption
      · with_reducible assumption
    · with_reducible assumption
  · with_reducible apply safe_command
    · intros
      with_reducible apply safe_onCtx
      · intros
        with_reducible apply safe_resumeCmd
        with_reducible assumption
      · with_reducible assumption
    · with_reducible assumption
  · with_reducible apply safe_command
    · intros
      with_reducible apply safe_onCtx
      · intros
        with_reducible apply safe_killCmd
        with_reducible assumption
      · with_reducible assumption
    · with_reducible assumption
  · with_reducible apply safe_command
    · intros
      with_reducible apply safe_onCtx
      · intros
        with_reducible apply safe_gstartCmd
        with_reducible assumption
      · with_reducible assumption
    · with_reducible assumption
  · with_reducible apply safe_command
    · dsimp only
      intros
      with_reducible assumption
    · with_reducible assumption

theorem safe_execCmdUnknownCode (value : BitVec 64) (s : State) (hs : Safe s) : SafeOut
    (execCmdUnknownCode value s) := by
  unfold execCmdUnknownCode
  simp only [SafeOut]
  with_reducible apply safe_writeCmd
  with_reducible assumption

theorem safe_writeDevice (off : Nat) (x : W64) (s : State) (hs : Safe s) : Safe (writeDevice off x s) := by
  unfold writeDevice
  split
  · split
    · with_reducible assumption
    · rw [safe_lit]
      with_reducible assumption
  · with_reducible apply safe_writeCmd
    with_reducible assumption
  · rw [safe_lit]
    with_reducible assumption
  · rw [safe_lit]
    with_reducible assumption
  · with_reducible assumption

theorem safe_writeQueue (n off : Nat) (x : W64) (s : State) (hs : Safe s) : Safe (writeQueue n off x s) := by
  unfold writeQueue
  dsimp only
  split
  · with_reducible apply safe_setQueue
    with_reducible assumption
  · with_reducible apply safe_setQueue
    with_reducible assumption
  · with_reducible apply safe_setQueue
    with_reducible assumption
  · with_reducible apply safe_hostTail
    with_reducible assumption
  · with_reducible apply safe_setQueue
    with_reducible assumption
  · with_reducible apply safe_setQueue
    with_reducible assumption
  · with_reducible apply safe_setQueue
    with_reducible assumption
  · with_reducible apply safe_setQueue
    with_reducible assumption
  · with_reducible apply safe_setQueue
    with_reducible assumption
  · with_reducible assumption

theorem safe_writeDbp (die off : Nat) (x : W64) (s : State) (hs : Safe s) : Safe (writeDbp die off x s) := by
  unfold writeDbp
  dsimp only
  split
  · with_reducible apply safe_setDie
    with_reducible assumption
  · with_reducible apply safe_setDie
    with_reducible assumption
  · with_reducible apply safe_setDie
    with_reducible assumption
  · with_reducible apply safe_setDie
    with_reducible assumption
  · split
    · with_reducible apply safe_releaseHalt
      with_reducible assumption
    · with_reducible assumption
  · with_reducible assumption

theorem safe_writeCluster (c off : Nat) (x : W64) (s : State) (hs : Safe s) : Safe (writeCluster c off x s) := by
  unfold writeCluster
  dsimp only
  split
  · with_reducible apply safe_setCluster
    with_reducible assumption
  · split
    · with_reducible apply safe_setCluster
      with_reducible assumption
    · with_reducible assumption

theorem safe_writeMailbox (off : Nat) (x : W64) (s : State) (hs : Safe s) : Safe (writeMailbox off x s) := by
  unfold writeMailbox
  split
  · exact hs
  · exact hs
  · exact hs

theorem safe_writeBar64 (off : Nat) (x : W64) (s : State) (hs : Safe s) : Safe (writeBar64 off x s) := by
  unfold writeBar64
  split
  · with_reducible assumption
  · split
    · with_reducible apply safe_writeDevice
      with_reducible assumption
    · split
      · with_reducible apply safe_writeQueue
        with_reducible assumption
      · split
        · with_reducible apply safe_writeVtb
          with_reducible assumption
        · split
          · with_reducible apply safe_writeDbp
            with_reducible assumption
          · split
            · with_reducible apply safe_writeCluster
              with_reducible assumption
            · split
              · with_reducible apply safe_writeMailbox
                with_reducible assumption
              · with_reducible assumption

theorem safe_execRegisterWrite (off : Nat) (value : BitVec 64) (s : State) (hs : Safe s) : SafeOut
    (execRegisterWrite off value s) := by
  unfold execRegisterWrite
  simp only [SafeOut]
  with_reducible apply safe_writeBar64
  with_reducible assumption

theorem safe_pokeBytes (k size : Nat) (x : W64) (s : State) (hs : Safe s) : Safe (pokeBytes k size x s) := by
  unfold pokeBytes
  split
  · with_reducible apply safe_storeMem
    with_reducible assumption
  · (with_reducible refine safe_foldl _ _ _ ?_ ?_) <;> intros
    · with_reducible apply safe_storeMem
      with_reducible assumption
    · with_reducible assumption

theorem safe_peekBytes (k size : Nat) (s : State) (hs : Safe s) : Safe (peekBytes k size s) := by
  unfold peekBytes
  dsimp only
  rw [safe_lit]
  with_reducible assumption

theorem safe_execHostMemoryAccess (write : Bool) (pa size : Nat) (value : BitVec 64) (s : State) (hs : Safe s)
    : SafeOut (execHostMemoryAccess write pa size value s) := by
  unfold execHostMemoryAccess
  simp only [SafeOut]
  split
  · with_reducible assumption
  · split
    · with_reducible apply safe_pokeBytes
      with_reducible assumption
    · with_reducible apply safe_peekBytes
      with_reducible assumption

theorem safe_fabricOp (op : FabricOp) (pa size : Nat) (x : W64) (s : State) (hs : Safe s) : Safe
    (fabricOp op pa size x s) := by
  unfold fabricOp
  dsimp only
  split
  · with_reducible apply safe_peekBytes
    with_reducible assumption
  · with_reducible apply safe_pokeBytes
    with_reducible assumption
  · split
    · with_reducible apply safe_peekBytes
      with_reducible assumption
    · with_reducible apply safe_storeMem
      with_reducible apply safe_peekBytes
      with_reducible assumption
  · split
    · with_reducible apply safe_logUnc
      with_reducible assumption
    · with_reducible apply safe_storeMem
      with_reducible assumption

theorem safe_execFabricAccess (gang : BitVec 16) (op : FabricOp) (pa size : Nat) (x : BitVec 64) (s : State)
    (hs : Safe s) : SafeOut (execFabricAccess gang op pa size x s) := by
  unfold execFabricAccess
  dsimp only
  simp only [SafeOut]
  split
  · rw [safe_lit]
    with_reducible apply safe_fabricOp
    with_reducible assumption
  · rw [safe_lit]
    with_reducible assumption

theorem safe_execLasiaPortFail (port : Nat) (s : State) (hs : Safe s) : SafeOut (execLasiaPortFail port s) := by
  unfold execLasiaPortFail
  dsimp only
  simp only [SafeOut]
  rw [safe_lit]
  with_reducible assumption

theorem safe_execLasiaPortTrained (port : Nat) (s : State) (hs : Safe s) : SafeOut (execLasiaPortTrained port s) := by
  unfold execLasiaPortTrained
  dsimp only
  simp only [SafeOut]
  rw [safe_lit]
  with_reducible assumption

theorem safe_writeBatch (die n : Nat) (s : State) (hs : Safe s) : Safe (writeBatch die n s) := by
  unfold writeBatch
  dsimp only
  (with_reducible refine safe_foldl _ _ _ ?_ ?_) <;> intros
  · with_reducible apply safe_ringOrHold
    with_reducible assumption
  · with_reducible apply safe_setDie
    with_reducible assumption

theorem safe_execFaultBatchFull (die : Nat) (ctx : BitVec 24) (s : State) (hs : Safe s) : SafeOut
    (execFaultBatchFull die ctx s) := by
  unfold execFaultBatchFull
  simp only [SafeOut]
  split
  · with_reducible apply safe_writeBatch
    with_reducible assumption
  · with_reducible assumption

theorem safe_execFaultBatchTimeout (die : Nat) (ctx : BitVec 24) (s : State) (hs : Safe s) : SafeOut
    (execFaultBatchTimeout die ctx s) := by
  unfold execFaultBatchTimeout
  simp only [SafeOut]
  with_reducible apply safe_writeBatch
  with_reducible assumption

theorem safe_writeHeld (n ring : Nat) (s : State) (hs : Safe s) : Safe (writeHeld n ring s) := by
  unfold writeHeld
  dsimp only
  split
  · split
    · with_reducible assumption
    · with_reducible apply safe_ringWrite
      with_reducible apply safe_setCtx
      with_reducible assumption
  · split
    · with_reducible apply safe_retireGone
      with_reducible apply safe_copyRow
      with_reducible assumption
    · with_reducible assumption

theorem safe_execHeldRecordWrite (ctx : BitVec 24) (ring : Nat) (s : State) (hs : Safe s) : SafeOut
    (execHeldRecordWrite ctx ring s) := by
  unfold execHeldRecordWrite
  simp only [SafeOut]
  with_reducible apply safe_writeHeld
  with_reducible assumption

theorem safe_loopCluster (thermal : BitVec 32) (current slew cap : Bool) (reliability : BitVec 32) (step : Nat)
    (s : State) (c : Nat) (hs : Safe s) : Safe (loopCluster thermal current slew cap reliability step s c) := by
  unfold loopCluster
  dsimp only
  with_reducible apply safe_setCluster
  with_reducible assumption

theorem safe_lowerSupply (thermal : BitVec 32) (cap : Bool) (s : State) (c : Nat) (hs : Safe s) : Safe
    (lowerSupply thermal cap s c) := by
  unfold lowerSupply
  dsimp only
  split
  · rw [safe_lit]
    with_reducible assumption
  · with_reducible assumption

theorem safe_execMcLoopTick (thermal : BitVec 32) (current slew : Bool) (power : Nat) (reliability : BitVec 32)
    (s : State) (hs : Safe s) : SafeOut (execMcLoopTick thermal current slew power reliability s) := by
  unfold execMcLoopTick
  dsimp only
  simp only [SafeOut]
  rw [safe_lit]
  (with_reducible refine safe_foldl _ _ _ ?_ ?_) <;> intros
  · with_reducible apply safe_lowerSupply
    with_reducible apply safe_loopCluster
    with_reducible assumption
  · with_reducible assumption

theorem safe_raiseGuard (s : State) (c : Nat) (hs : Safe s) : Safe (raiseGuard s c) := by
  unfold raiseGuard
  dsimp only
  split
  · rw [safe_lit]
    with_reducible assumption
  · with_reducible assumption

theorem safe_showYarrow (s : State) (hs : Safe s) : Safe (showYarrow s) := by
  unfold showYarrow
  dsimp only
  (with_reducible refine safe_foldl _ _ _ ?_ ?_) <;> intros
  · with_reducible apply safe_setCluster
    with_reducible assumption
  · with_reducible assumption

theorem safe_execYarrowReading (delays : List Nat) (reading : Reading) (s : State) (hs : Safe s) : SafeOut
    (execYarrowReading delays reading s) := by
  unfold execYarrowReading
  dsimp only
  simp only [SafeOut]
  with_reducible apply safe_showYarrow
  rw [safe_lit]
  (with_reducible refine safe_foldl _ _ _ ?_ ?_) <;> intros
  · with_reducible apply safe_raiseGuard
    with_reducible assumption
  · rw [safe_lit]
    with_reducible assumption

theorem safe_execCorrectedError (cluster : Nat) (s : State) (hs : Safe s) : SafeOut (execCorrectedError cluster s) := by
  unfold execCorrectedError
  dsimp only
  simp only [SafeOut]
  with_reducible apply safe_setCluster
  with_reducible assumption

theorem safe_poisonAt (place : Nat) (s : State) (hs : Safe s) : Safe (poisonAt place s) := by
  unfold poisonAt
  dsimp only
  split
  · with_reducible apply safe_setCore
    with_reducible assumption
  · split
    · rw [safe_lit]
      with_reducible assumption
    · with_reducible apply safe_modWarp
      with_reducible assumption

theorem safe_execUncorrectableError (cluster place : Nat) (fetch : Bool) (s : State) (hs : Safe s) : SafeOut
    (execUncorrectableError cluster place fetch s) := by
  unfold execUncorrectableError
  have ht : Safe (if fetch = true then s.setCluster cluster { s.cluster cluster with fetchUnrep := bump (s.cluster cluster).fetchUnrep }
      else poisonAt place (logUnc cluster s)) := by
    split
    · exact safe_setCluster _ _ _ hs
    · exact safe_poisonAt _ _ (safe_logUnc _ _ hs)
  dsimp only [SafeOut]
  split
  · exact ht
  · exact ht

theorem safe_execExpanderFailure (port : Nat) (s : State) (hs : Safe s) : SafeOut (execExpanderFailure port s) := by
  unfold execExpanderFailure
  dsimp only
  simp only [SafeOut]
  rw [safe_lit]
  with_reducible assumption

theorem safe_afterReset (failed : BitVec 128) (expanders : List Nat) (s : State) (hs : Safe s) : Safe
    (afterReset failed expanders s) := by
  unfold afterReset
  refine safe_showYarrow _ ?_
  exact canon_filter _ _ _ hs

theorem safe_execDeviceReset (failed : BitVec 128) (expanders : List Nat) (s : State) (hs : Safe s) : SafeOut
    (execDeviceReset failed expanders s) := by
  unfold execDeviceReset
  simp only [SafeOut]
  with_reducible apply safe_afterReset
  with_reducible assumption

theorem safe_execFirmwareRecovery (image : Recovery) (s : State) (hs : Safe s) : SafeOut (execFirmwareRecovery image s) := by
  unfold execFirmwareRecovery
  dsimp only
  simp only [SafeOut]
  split
  · with_reducible apply safe_afterReset
    rw [safe_lit]
    with_reducible assumption
  · with_reducible assumption

theorem safe_spdmAnswer (kind n step : Nat) (s : State) (hs : Safe s) : Safe (spdmAnswer kind n step s) := by
  unfold spdmAnswer
  dsimp only
  rw [safe_lit]
  with_reducible assumption

theorem safe_spdmAfter (need kind n step : Nat) (s : State) (hs : Safe s) : Safe (spdmAfter need kind n step s) := by
  unfold spdmAfter
  dsimp only
  split
  · with_reducible apply safe_spdmAnswer
    with_reducible assumption
  · rw [safe_lit]
    with_reducible assumption

theorem safe_measureAnswer (index : Nat) (s : State) (hs : Safe s) : Safe (measureAnswer index s) := by
  unfold measureAnswer
  dsimp only
  rw [safe_lit]
  with_reducible assumption

theorem safe_execGetVersion (s : State) (hs : Safe s) : SafeOut (execGetVersion s) := by
  unfold execGetVersion
  simp only [SafeOut]
  with_reducible apply safe_spdmAnswer
  with_reducible assumption

theorem safe_execGetCapabilities (s : State) (hs : Safe s) : SafeOut (execGetCapabilities s) := by
  unfold execGetCapabilities
  simp only [SafeOut]
  with_reducible apply safe_spdmAfter
  with_reducible assumption

theorem safe_execNegotiateAlgorithms (s : State) (hs : Safe s) : SafeOut (execNegotiateAlgorithms s) := by
  unfold execNegotiateAlgorithms
  simp only [SafeOut]
  with_reducible apply safe_spdmAfter
  with_reducible assumption

theorem safe_execGetDigests (s : State) (hs : Safe s) : SafeOut (execGetDigests s) := by
  unfold execGetDigests
  simp only [SafeOut]
  with_reducible apply safe_spdmAfter
  with_reducible assumption

theorem safe_execGetCertificate (slot : Nat) (s : State) (hs : Safe s) : SafeOut (execGetCertificate slot s) := by
  unfold execGetCertificate
  simp only [SafeOut]
  with_reducible apply safe_spdmAfter
  with_reducible assumption

theorem safe_execChallenge (nonce : BitVec 256) (s : State) (hs : Safe s) : SafeOut (execChallenge nonce s) := by
  unfold execChallenge
  simp only [SafeOut]
  with_reducible apply safe_spdmAfter
  with_reducible assumption

theorem safe_execGetMeasurements (index : Nat) (s : State) (hs : Safe s) : SafeOut (execGetMeasurements index s) := by
  unfold execGetMeasurements
  dsimp only
  simp only [SafeOut]
  split
  · with_reducible apply safe_measureAnswer
    with_reducible assumption
  · rw [safe_lit]
    with_reducible assumption

theorem safe_withWarp (wid : Nat) (f : State → State) (s : State) (hf : ∀ x0, Safe x0 → Safe (f x0)) (hs : Safe s)
    : Safe (withWarp wid f s) := by
  unfold withWarp
  split
  · with_reducible assumption
  · with_reducible apply hf
    with_reducible apply safe_bring
    with_reducible assumption

theorem safe_execTrapEntry (wid : Nat) (s : State) (hs : Safe s) : SafeOut (execTrapEntry wid s) := by
  unfold execTrapEntry
  simp only [SafeOut]
  with_reducible apply safe_withWarp
  · intros
    with_reducible apply safe_enterTrap
    with_reducible assumption
  · with_reducible assumption

theorem safe_execFseSpill (wid blk : Nat) (s : State) (hs : Safe s) : SafeOut (execFseSpill wid blk s) := by
  unfold execFseSpill
  simp only [SafeOut]
  split
  · with_reducible assumption
  · split
    · with_reducible apply safe_spillBlock
      with_reducible assumption
    · with_reducible assumption

theorem safe_execFseFill (wid blk : Nat) (s : State) (hs : Safe s) : SafeOut (execFseFill wid blk s) := by
  unfold execFseFill
  simp only [SafeOut]
  split
  · with_reducible assumption
  · split
    · with_reducible apply safe_fillBlock
      with_reducible assumption
    · with_reducible assumption

theorem safe_holdRecord (w : Warp) (off : Nat) (s : State) (hs : Safe s) : Safe (holdRecord w off s) := by
  unfold holdRecord
  split
  · exact hs
  · exact safe_addFault _ _ _ _ _ (safe_modWarp _ _ _ hs)

theorem safe_reWarp (wid : Nat) (f : Warp → Warp) (s : State) (hs : Safe s) : Safe (reWarp wid f s) := by
  unfold reWarp
  split
  · exact hs
  · exact safe_foldl _ _ _ (fun _ _ h => safe_holdRecord _ _ _ h) (safe_modWarp _ _ _ hs)

theorem safe_execAgeingSwap (wid : Nat) (s : State) (hs : Safe s) : SafeOut (execAgeingSwap wid s) := by
  unfold execAgeingSwap
  simp only [SafeOut]
  with_reducible apply safe_reWarp
  with_reducible assumption

theorem safe_execAgeRelease (wid : Nat) (slotB : Bool) (s : State) (hs : Safe s) : SafeOut
    (execAgeRelease wid slotB s) := by
  unfold execAgeRelease
  simp only [SafeOut]
  with_reducible apply safe_reWarp
  with_reducible assumption

theorem safe_execParkedAgeSwap (wid : Nat) (s : State) (hs : Safe s) : SafeOut (execParkedAgeSwap wid s) := by
  unfold execParkedAgeSwap
  simp only [SafeOut]
  with_reducible apply safe_reWarp
  with_reducible assumption

theorem safe_dueNow (s : State) (wid : Nat) (hs : Safe s) : Safe (dueNow s wid) := by
  unfold dueNow
  dsimp only
  split
  · with_reducible assumption
  · with_reducible apply safe_modWarp
    split
    · with_reducible apply safe_reWarp
      with_reducible apply safe_reWarp
      with_reducible apply safe_reWarp
      with_reducible apply safe_reWarp
      with_reducible assumption
    · with_reducible assumption

theorem safe_lockCycle (c : Nat) (s : State) (hs : Safe s) : Safe (lockCycle c s) := by
  unfold lockCycle
  dsimp only
  rw [safe_lit]
  (with_reducible refine safe_foldl _ _ _ ?_ ?_) <;> intros
  · with_reducible apply safe_releaseLocks
    with_reducible assumption
  · with_reducible assumption

theorem safe_tickCluster (c : Nat) (s : State) (hs : Safe s) : Safe (tickCluster c s) := by
  unfold tickCluster
  dsimp only
  with_reducible apply safe_lockCycle
  (with_reducible refine safe_foldl _ _ _ ?_ ?_) <;> intros
  · with_reducible apply safe_dueNow
    with_reducible assumption
  · with_reducible apply safe_setCluster
    rw [safe_lit]
    with_reducible apply safe_mapWarps
    with_reducible apply safe_endKills
    with_reducible apply safe_writeEarly
    with_reducible apply safe_sampleNow
    with_reducible assumption

theorem safe_illegalWord (word : W32) (s : State) (hs : Safe s) : SafeOut (illegalWord word s) := by
  unfold illegalWord
  dsimp only
  with_reducible apply safe_finish
  split
  · simp only [SafeRes]
    with_reducible assumption
  · simp only [SafeRes]
    with_reducible assumption

theorem safe_frameFault (word : W32) (a : W64) (s : State) (hs : Safe s) : SafeOut (frameFault word a s) := by
  unfold frameFault
  refine safe_finish _ _ ?_
  simp only [SafeRes]
  rw [safe_lit]
  exact hs

theorem safe_fetchFailed (f : Fetched) (s : State) (hs : Safe s) : SafeOut (fetchFailed f s) := by
  unfold fetchFailed
  split
  · exact safe_frameFault _ _ _ hs
  · exact safe_finish _ _ (safe_trapAct _ _ _ _ hs)
  · exact safe_finish _ _ (safe_parkAt _ _ _ hs)

theorem safe_noteIdle (slotB : Bool) (s : State) (hs : Safe s) : Safe (noteIdle slotB s) := by
  unfold noteIdle
  split
  · rw [safe_lit]
    with_reducible assumption
  · with_reducible assumption

theorem safe_noteEntry (s : State) (hs : Safe s) : Safe (noteEntry s) := by
  unfold noteEntry
  split
  · rw [safe_lit]
    with_reducible assumption
  · with_reducible assumption

theorem safe_noteIssue (slotB : Bool) (before : Warp) (s : State) (hs : Safe s) : Safe (noteIssue slotB before s) := by
  unfold noteIssue
  dsimp only
  rw [safe_lit]
  with_reducible apply safe_setCore
  with_reducible assumption

theorem safe_traceOf (slotB : Bool) (before : Warp) (s : State) (hs : Safe s) : Safe (traceOf slotB before s) := by
  unfold traceOf
  with_reducible apply safe_traceIssue
  with_reducible apply safe_trigIssue
  with_reducible apply safe_noteIssue
  with_reducible assumption

theorem safe_noteWaits (bs : List Byte) (s : State) (hs : Safe s) : Safe (noteWaits bs s) := by
  unfold noteWaits
  split
  · rw [safe_lit]
    with_reducible assumption
  · with_reducible assumption

theorem safe_afterExec (slotB : Bool) (before : Warp) (bs : List Byte) (s : State) (hs : Safe s) : Safe
    (afterExec slotB before bs s) := by
  unfold afterExec
  with_reducible apply safe_noteWaits
  split
  · with_reducible apply safe_addCharge
    with_reducible apply safe_traceOf
    with_reducible assumption
  · with_reducible apply safe_noteIdle
    with_reducible assumption

theorem safe_afterOther (slotB : Bool) (before : Warp) (s : State) (hs : Safe s) : Safe
    (afterOther slotB before s) := by
  unfold afterOther
  split
  · with_reducible apply safe_traceOf
    with_reducible assumption
  · with_reducible apply safe_noteIdle
    with_reducible assumption

theorem safe_onNext (f : State → State) (a1 : Host.Outcome State Fault Refusal) (hf : ∀ x0, Safe x0 → Safe (f x0))
    (ha1 : SafeOut a1) : SafeOut (onNext f a1) := by
  unfold onNext
  split
  · simp only [SafeOut]
    with_reducible apply hf
    have hb := ‹SafeOut (.next _)›
    exact hb
  · with_reducible assumption

/-- The look at a path's stall code changes the stall codes alone (R364). -/
theorem stallNow_only (s : State) (w : Warp) :
    ∃ a b, stallNow s w = { w with p := { w.p with stall := a }, q := { w.q with stall := b } } := by
  unfold stallNow
  split
  · simp only [Warp.setStall]
    split
    · exact ⟨_, w.q.stall, rfl⟩
    · exact ⟨w.p.stall, _, rfl⟩
  · exact ⟨w.p.stall, w.q.stall, rfl⟩

theorem safe_stallsNow (c : Nat) (s : State) (hs : Safe s) : Safe (stallsNow c s) := by
  unfold stallsNow
  split
  · with_reducible apply safe_mapWarps
    with_reducible assumption
  · with_reducible assumption

theorem safe_takeTlb (die ctx : Nat) (va : W64) (s : State) (hs : Safe s) : Safe (takeTlb die ctx va s) := by
  unfold takeTlb
  dsimp only
  split
  · with_reducible assumption
  · split
    · with_reducible assumption
    · split
      · with_reducible apply safe_setDie
        with_reducible assumption
      · with_reducible assumption

theorem safe_takeL1 (core line : Nat) (s : State) (hs : Safe s) : Safe (takeL1 core line s) := by
  unfold takeL1
  split
  · with_reducible apply safe_fillL1
    with_reducible assumption
  · with_reducible assumption

theorem safe_takeIc (core line : Nat) (s : State) (hs : Safe s) : Safe (takeIc core line s) := by
  unfold takeIc
  dsimp only
  split
  · with_reducible apply safe_setCore
    with_reducible assumption
  · with_reducible assumption

theorem safe_placeWords (k nbits w : Nat) (s : State) (hs : Safe s) : Safe (placeWords k nbits w s) := by
  unfold placeWords
  with_reducible apply safe_storeMem
  with_reducible assumption

theorem safe_launchOne (s : State) (hs : Safe s) : Safe (launchOne s) := by
  unfold launchOne
  dsimp only
  rw [safe_lit]
  with_reducible apply safe_setLaunch
  with_reducible apply safe_setWg
  with_reducible apply safe_setKernel
  with_reducible apply safe_setCtx
  with_reducible apply safe_storeMem
  with_reducible apply safe_storeMem
  with_reducible apply safe_storeMem
  with_reducible assumption

end Sys2Proof.Machine
end

