-- ==== Sys2Proof/Tests/Slice0.lean ====
section
/-! SUPPORT. Tests of the model: refused ill-formed terms, words of the spec's encodings, single steps of instructions on
small states, and for every obligation with hypotheses a state and operands that meet them (named witness_<Obligation>). -/

namespace Sys2Proof.Tests
open Sys2Proof Sys2Proof.Machine

set_option Elab.async false

/-- A GENERAL warp with all lanes live at a placed path of eight frame blocks, with registers as given. -/
def warpWith (mode : W32) (s : List (Nat × SW)) (v : List (Nat × LW)) (pr : List (Nat × Mask)) : Warp :=
  { resident := true, fresh := false, p := { st := .running, pc := 0x1000#64, mode := mode, mask := fullMask }
    fslim := 0x100000#64, s := s, v := v, pr := pr }

/-- The device after reset, with one resident warp on turn. -/
def onlyWarp (w : Warp) : State := { State.reset with w := w }

/-- What a function of the next state gives, or a default where there is none. -/
def nextOf {α : Type} (d : α) (f : State → α) : Host.Outcome State Fault Refusal → α
  | .next s => f s
  | _ => d

/-- The scalar register d after an instruction on two scalar operands s1 and s2. -/
def scal (i : Instr) (x y : W64) (d : Nat) : W64 :=
  nextOf 0 (fun s => (s.w.sr d).bits) (exec i (onlyWarp (warpWith modeReset [(1, ⟨x, false⟩), (2, ⟨y, false⟩)] [] [])))


/-! ### Well-formedness and decoding -/

/-- A scope past the opcode's last and an ordering code that the opcode does not take are refused (R85). -/
theorem test_ill_formed_memory : (Instr.ld 10 4 11 7 1 false false).check = some .scope ∧
    (Instr.ld 10 4 11 5 2 false false).check = some .order ∧ (Instr.ld 10 4 11 5 1 false false).check = none ∧
    (Instr.sth 10 4 11 3 1 false false).check = some .order ∧ (Instr.icinv 7 false).check = some .scope := by decide
/-- An AOP that R93 does not assign is refused, and so are RED's SWAP and CAS (R93). -/
theorem test_ill_formed_aop : (Instr.atom 3 1 2 13 1).check = some .aop ∧ (Instr.red 3 1 9 1).check = some .aop ∧
    (Instr.atom 3 1 2 12 1).check = none := by decide
/-- A count outside 1 to 16 and a range that passes v63 are refused (R78, R92). -/
theorem test_ill_formed_range : (Instr.xsend 0 5 17 false).check = some .count ∧ (Instr.xsend 0 5 0 false).check = some .count ∧
    (Instr.regroup 60 1 5 false).check = some .range ∧ (Instr.regroup 60 1 4 false).check = none := by decide
/-- The other limits that a word alone decides: RCD, F of ENTER, a CSR number and an even register (R73, R91, R318, R319, R347). -/
theorem test_ill_formed_other : (Instr.brc 2 false 12 0).check = some .reconvergence ∧
    (Instr.brcl 2 false 12 0).check = some .reconvergence ∧ (Instr.enter 9).check = some .frame ∧
    (Instr.enter 0).check = some .frame ∧ (Instr.csrr 1 0x01D).check = some .csr ∧
    (Instr.rtfetch 3 1 false).check = some .odd ∧ (Instr.vtdone 1 3 false).check = some .odd := by decide
/-- The decoder refuses the words of ill-formed instructions, each under its limit's name. -/
theorem test_ill_formed_words : decode (encodeBytes (.ld 10 4 11 7 1 false false)) = .error (.illFormed .scope) ∧
    decode (encodeBytes (.ld 10 4 11 5 2 false false)) = .error (.illFormed .order) ∧
    decode (encodeBytes (.red 3 1 9 1)) = .error (.illFormed .aop) ∧
    decode (encodeBytes (.xsend 0 5 17 false)) = .error (.illFormed .count) ∧
    decode (encodeBytes (.regroup 60 1 5 false)) = .error (.illFormed .range) ∧
    decode (encodeBytes (.brc 2 false 12 0)) = .error (.illFormed .reconvergence) ∧
    decode (encodeBytes (.enter 9)) = .error (.illFormed .frame) ∧
    decode (encodeBytes (.csrr 1 0x01D)) = .error (.illFormed .csr) ∧
    decode (encodeBytes (.rtfetch 3 1 false)) = .error (.illFormed .odd) :=
  ⟨rfl, rfl, rfl, rfl, rfl, rfl, rfl, rfl, rfl⟩
/-- An OP or an FN that the map leaves unassigned, a reserved bit and a missing byte or literal are refused by name (R86, R87). -/
theorem test_decode_refuses : decode [0xFF, 0xFF, 0xFF, 0xFF] = .error .unassignedOp ∧
    decode (bytesOfWord 0xF2000018) = .error .unassignedFn ∧ decode (bytesOfWord 0x00000100) = .error .reserved ∧
    decode (bytesOfWord 0x4028C387) = .error .reserved ∧ decode [0x04, 0x21, 0x18] = .error .short ∧
    decode (bytesOfWord 0x0A210000) = .error .short := ⟨rfl, rfl, rfl, rfl, rfl, rfl⟩
/-- The spec's worked words (04_encoding_notes, 10_memory_notes, 16_copy_matrix_notes), arithmetic and literals. -/
theorem test_worked_words : decode (bytesOfWord 0x58182104) = .ok (.fadd 3 1 2 true false, []) ∧
    decode (bytesOfWord 0x4028C386) = .ok (.vadd 5 6 7 true true, []) ∧
    decode (bytesOfWord 0x52480000 ++ bytesOfWord 0x3FC00000) = .ok (.vmovl 9 false 0x3FC00000, []) ∧
    decode (bytesOfWord 0x0A210000 ++ bytesOfWord 0xFFFFFFFF) = .ok (.smovlz 4 false 0xFFFFFFFF, []) ∧
    decode (bytesOfWord 0xC8000080) = .ok (.mma 0 0 1 false, []) ∧
    decode (bytesOfWord 0x6E288084) = .ok (.regroup 5 4 1 true, []) :=
  ⟨rfl, rfl, rfl, rfl, rfl, rfl⟩
/-- The spec's worked words, control flow and memory. -/
theorem test_worked_words_control : decode (bytesOfWord 0x18800C18) = .ok (.brc 2 false 12 24, []) ∧
    decode (bytesOfWord 0x18A00C18) = .ok (.brc 2 true 12 24, []) ∧
    decode (bytesOfWord 0x1A800C00 ++ bytesOfWord 0x100) = .ok (.brcl 2 false 12 0x100, []) ∧
    decode (bytesOfWord 0x1CC00080) = .ok (.call 3 128, []) ∧ decode (bytesOfWord 0x1CBFFFF0) = .ok (.call 2 (-16), []) ∧
    decode (bytesOfWord 0x22000002) = .ok (.enter 2, []) ∧ decode (bytesOfWord 0x805085D4) = .ok (.ld 10 4 11 5 1 false false, []) ∧
    decode (bytesOfWord 0x9607E17E) = .ok (.wait 0 63 2 63, []) ∧ decode (bytesOfWord 0x961FFFFE) = .ok (.wait 3 63 63 63, []) ∧
    decode (bytesOfWord 0x2A000000) = .ok (.exit false, []) :=
  ⟨rfl, rfl, rfl, rfl, rfl, rfl, rfl, rfl, rfl, rfl⟩
/-- The encoder writes the worked words. -/
theorem test_encode_worked : encodeWord (.fadd 3 1 2 true false) = 0x58182104 ∧ encodeWord (.vadd 5 6 7 true true) = 0x4028C386 ∧
    encodeWord (.call 2 (-16)) = 0x1CBFFFF0 ∧ encodeWord (.ld 10 4 11 5 1 false false) = 0x805085D4 ∧
    encode (.smovlz 4 false 0xFFFFFFFF) = [0x0A210000, 0xFFFFFFFF] := by decide

/-- Words of opcodes 0x00 to 0x01 (R91 to R98): each field at its place of the format, other bits as the table fixes them. -/
theorem test_decode_part0 :
    decodeTableWord 32 0b00000000000000000000000000000000 = some (.nop) ∧
    decodeTableWord 32 0b00000010110011001000011000000010 = some (.sadd 25 36 12 false true) ∧
    decodeTableWord 32 0b00000011110111101111100100001110 = some (.ssub 59 55 50 true true) ∧
    decodeTableWord 32 0b00000010111110111111111100010110 = some (.smul 31 31 62 true true) ∧
    decodeTableWord 32 0b00000011001111110000001010011100 = some (.smulh 39 56 5 true false) ∧
    decodeTableWord 32 0b00000010011111110010100010100010 = some (.sand 15 57 17 false true) ∧
    decodeTableWord 32 0b00000011100000111111111000101000 = some (.sor 48 31 60 false false) ∧
    decodeTableWord 32 0b00000010011100010101001110110000 = some (.sxor 14 10 39 false false) ∧
    decodeTableWord 32 0b00000010111111010011100100111110 = some (.sshl 31 41 50 true true) ∧
    decodeTableWord 32 0b00000011001011101000000011000000 = some (.sshr 37 52 1 false false) := by
  refine ⟨rfl, rfl, rfl, rfl, rfl, rfl, rfl, rfl, rfl, rfl⟩

/-- Words of opcodes 0x01 to 0x03 (R91 to R98): each field at its place of the format, other bits as the table fixes them. -/
theorem test_decode_part1 :
    decodeTableWord 32 0b00000010010110011101011111001110 = some (.ssar 11 14 47 true true) ∧
    decodeTableWord 32 0b00000010101011101101000101010100 = some (.smin 21 54 34 true false) ∧
    decodeTableWord 32 0b00000010100010101110100001011110 = some (.smax 17 23 16 true true) ∧
    decodeTableWord 32 0b00000010010111011111100101100010 = some (.sminu 11 47 50 false true) ∧
    decodeTableWord 32 0b00000011110110110100010111101000 = some (.smaxu 59 26 11 false false) ∧
    decodeTableWord 32 0b00000011001000111010000001110010 = some (.sclz 36 29 false true) ∧
    decodeTableWord 32 0b00000011001101110110000001111110 = some (.spop 38 59 true true) ∧
    decodeTableWord 32 0b00000101000110001111000010000100 = some (.saddi 35 7 2114 false) ∧
    decodeTableWord 32 0b00000110001001110101111000000010 = some (.scmpeq 4 58 60 false true) ∧
    decodeTableWord 32 0b00000110000011111111010010001110 = some (.scmpne 1 63 41 true true) := by
  refine ⟨rfl, rfl, rfl, rfl, rfl, rfl, rfl, rfl, rfl, rfl⟩

/-- Words of opcodes 0x03 to 0x04 (R91 to R98): each field at its place of the format, other bits as the table fixes them. -/
theorem test_decode_part2 :
    decodeTableWord 32 0b00000110001001001101110100010000 = some (.scmplt 4 38 58 false false) ∧
    decodeTableWord 32 0b00000110001010010101000000011100 = some (.scmple 5 10 32 true false) ∧
    decodeTableWord 32 0b00000110000010001001000110100000 = some (.scmpltu 1 4 35 false false) ∧
    decodeTableWord 32 0b00000110000010100001000100101100 = some (.scmpleu 1 16 34 true false) ∧
    decodeTableWord 32 0b00000110001101011100110010110110 = some (.scmpgt 6 46 25 true true) ∧
    decodeTableWord 32 0b00000110000111001110110000111000 = some (.scmpge 3 39 24 false false) ∧
    decodeTableWord 32 0b00000110000010010111011001000010 = some (.scmpgtu 1 11 44 false true) ∧
    decodeTableWord 32 0b00000110001001110010000011001000 = some (.scmpgeu 4 57 1 false false) ∧
    decodeTableWord 32 0b00001000101100000000000100011010 = some (.smovi 22 282) ∧
    decodeTableWord 32 0b00001001101010011001101100011101 = some (.sins16 53 39709) := by
  refine ⟨rfl, rfl, rfl, rfl, rfl, rfl, rfl, rfl, rfl, rfl⟩

/-- Words of opcodes 0x04 to 0x08 (R91 to R98): each field at its place of the format, other bits as the table fixes them. -/
theorem test_decode_part3 :
    decodeTableWord 32 0b00001001000000100101000000111000 = some (.sins32 32 20536) ∧
    decodeTableWord 32 0b00001000000010110011010011100110 = some (.sins48 1 13542) ∧
    decodeTableWord 32 0b00001101110100000111001100110101 = some (.ssel 58 3 38 26 true) ∧
    decodeTableWord 32 0b00001111110111010110101010000110 = some (.sdiv 59 43 21 true true) ∧
    decodeTableWord 32 0b00001110001110100010011110001110 = some (.sdivu 7 17 15 true true) ∧
    decodeTableWord 32 0b00001111011110010100101110010010 = some (.srem 47 10 23 false true) ∧
    decodeTableWord 32 0b00001110101000101101011010011010 = some (.sremu 20 22 45 false true) ∧
    decodeTableWord 32 0b00010000000110001110000110000100 = some (.pand 3 7 3 true) ∧
    decodeTableWord 32 0b00010000000110000100001110001100 = some (.por 3 2 7 true) ∧
    decodeTableWord 32 0b00010000000100000110000010010000 = some (.pxor 2 3 1 false) := by
  refine ⟨rfl, rfl, rfl, rfl, rfl, rfl, rfl, rfl, rfl, rfl⟩

/-- Words of opcodes 0x08 to 0x09 (R91 to R98): each field at its place of the format, other bits as the table fixes them. -/
theorem test_decode_part4 :
    decodeTableWord 32 0b00010000000100001000000110011100 = some (.pandn 2 4 3 true) ∧
    decodeTableWord 32 0b00010000001000000010000000100000 = some (.pnot 4 1 false) ∧
    decodeTableWord 32 0b00010000001010001010000000101000 = some (.pmov 5 5 false) ∧
    decodeTableWord 32 0b00010000001110000000000000110100 = some (.pset 7 true) ∧
    decodeTableWord 32 0b00010000001100000000000000111000 = some (.pclr 6 false) ∧
    decodeTableWord 32 0b00010011000110001110000000000100 = some (.pany 35 7 true) ∧
    decodeTableWord 32 0b00010011001110001100000000001000 = some (.pall 39 6 false) ∧
    decodeTableWord 32 0b00010010001110000010000000010000 = some (.ppop 7 1 false) ∧
    decodeTableWord 32 0b00010010001100001110000000011100 = some (.ptos 6 7 true) ∧
    decodeTableWord 32 0b00010010001111011010000000100100 = some (.stop 7 45 true) := by
  refine ⟨rfl, rfl, rfl, rfl, rfl, rfl, rfl, rfl, rfl, rfl⟩

/-- Words of opcodes 0x0A to 0x14 (R91 to R98): each field at its place of the format, other bits as the table fixes them. -/
theorem test_decode_part5 :
    decodeTableWord 32 0b00010100000110001110101101001101 = some (.br 1633101) ∧
    decodeTableWord 32 0b00010111010011010110111111110010 = some (.brs 41 true 94194) ∧
    decodeTableWord 32 0b00011000011001001110011101111011 = some (.brc 1 true 1255 123) ∧
    decodeTableWord 32 0b00011100101001010010000101101100 = some (.call 2 2433388) ∧
    decodeTableWord 32 0b00011110000001101000000000001000 = some (.callr 52 1) ∧
    decodeTableWord 32 0b00100000000000000000000000000000 = some (.ret) ∧
    decodeTableWord 32 0b00100010000000000000000000000110 = some (.enter 6) ∧
    decodeTableWord 32 0b00100101101010100010011000010010 = some (.loop 213 4873) ∧
    decodeTableWord 32 0b00100111001101000000000001101100 = some (.loopr 154 54) ∧
    decodeTableWord 32 0b00101000000000000000000000000000 = some (.lbrk) := by
  refine ⟨rfl, rfl, rfl, rfl, rfl, rfl, rfl, rfl, rfl, rfl⟩

/-- Words of opcodes 0x15 to 0x20 (R91 to R98): each field at its place of the format, other bits as the table fixes them. -/
theorem test_decode_part6 :
    decodeTableWord 32 0b00101010000000000000000000000001 = some (.exit true) ∧
    decodeTableWord 32 0b00101100000000000000000000000101 = some (.setmg 5) ∧
    decodeTableWord 32 0b00101100000000010000001110011111 = some (.setmt 927) ∧
    decodeTableWord 32 0b00101100000000100000000001111011 = some (.setmr 123) ∧
    decodeTableWord 32 0b00101101000010110000000000000000 = some (.setm 33) ∧
    decodeTableWord 32 0b00101111001110000000000000000000 = some (.getm 39) ∧
    decodeTableWord 32 0b01000001111000010011001010000100 = some (.vadd 60 9 37 true false) ∧
    decodeTableWord 32 0b01000001110010100000101100001110 = some (.vsub 57 16 22 true true) ∧
    decodeTableWord 32 0b01000001101001011011001010010000 = some (.vmul 52 45 37 false false) ∧
    decodeTableWord 32 0b01000000111111011011100000011100 = some (.vmulh 31 45 48 true false) := by
  refine ⟨rfl, rfl, rfl, rfl, rfl, rfl, rfl, rfl, rfl, rfl⟩

/-- Words of opcodes 0x20 to 0x21 (R91 to R98): each field at its place of the format, other bits as the table fixes them. -/
theorem test_decode_part7 :
    decodeTableWord 32 0b01000001100010111001101010100110 = some (.vmulhu 49 28 53 true true) ∧
    decodeTableWord 32 0b01000001010010010101101110101110 = some (.vmin 41 10 55 true true) ∧
    decodeTableWord 32 0b01000001110011101011001100110010 = some (.vmax 57 53 38 false true) ∧
    decodeTableWord 32 0b01000001110001010100000000111110 = some (.vabs 56 42 true true) ∧
    decodeTableWord 32 0b01000000111011000110000001000110 = some (.vneg 29 35 true true) ∧
    decodeTableWord 32 0b01000001010110010111101101001000 = some (.vabsdiff 43 11 54 false false) ∧
    decodeTableWord 32 0b01000000110110110101011111010100 = some (.vavg 27 26 47 true false) ∧
    decodeTableWord 32 0b01000011101001001110000010000110 = some (.vand 52 39 1 true true) ∧
    decodeTableWord 32 0b01000011100011010111011000001100 = some (.vor 49 43 44 true false) ∧
    decodeTableWord 32 0b01000011001111001001011000010000 = some (.vxor 39 36 44 false false) := by
  refine ⟨rfl, rfl, rfl, rfl, rfl, rfl, rfl, rfl, rfl, rfl⟩

/-- Words of opcodes 0x21 to 0x21 (R91 to R98): each field at its place of the format, other bits as the table fixes them. -/
theorem test_decode_part8 :
    decodeTableWord 32 0b01000011000011011010110000011010 = some (.vandn 33 45 24 false true) ∧
    decodeTableWord 32 0b01000011101001011110000000100000 = some (.vnot 52 47 false false) ∧
    decodeTableWord 32 0b01000010000110100010110010101110 = some (.vshl 3 17 25 true true) ∧
    decodeTableWord 32 0b01000010001111001101010110110000 = some (.vshr 7 38 43 false false) ∧
    decodeTableWord 32 0b01000010100001010010011110111010 = some (.vsar 16 41 15 false true) ∧
    decodeTableWord 32 0b01000011110010101110111011000010 = some (.vrol 57 23 29 false true) ∧
    decodeTableWord 32 0b01000010101101000000001011001000 = some (.vror 22 32 5 false false) ∧
    decodeTableWord 32 0b01000011011000111000000001010010 = some (.vclz 44 28 false true) ∧
    decodeTableWord 32 0b01000011001100001000000001011000 = some (.vpop 38 4 false false) ∧
    decodeTableWord 32 0b01000010010011000100000001100000 = some (.vbrev 9 34 false false) := by
  refine ⟨rfl, rfl, rfl, rfl, rfl, rfl, rfl, rfl, rfl, rfl⟩

/-- Words of opcodes 0x22 to 0x25 (R91 to R98): each field at its place of the format, other bits as the table fixes them. -/
theorem test_decode_part9 :
    decodeTableWord 32 0b01000100010111001010101110011010 = some (.vimad 11 37 23 13 false) ∧
    decodeTableWord 32 0b01000111000110011010011100000110 = some (.vbfe 35 13 14 true true) ∧
    decodeTableWord 32 0b01000111000111010000111000001000 = some (.vbfes 35 40 28 false false) ∧
    decodeTableWord 32 0b01001000011000111011101010010001 = some (.vbfi 12 29 53 8 true) ∧
    decodeTableWord 32 0b01001010000110001001101110000110 = some (.vcmpeq 3 4 55 true true) ∧
    decodeTableWord 32 0b01001010001101000010011100001000 = some (.vcmpne 6 33 14 false false) ∧
    decodeTableWord 32 0b01001010000110111000000100010110 = some (.vcmplt 3 28 2 true true) ∧
    decodeTableWord 32 0b01001010000111001001001100011010 = some (.vcmple 3 36 38 false true) ∧
    decodeTableWord 32 0b01001010000100111001001000100000 = some (.vcmpltu 2 28 36 false false) ∧
    decodeTableWord 32 0b01001010001111110011010000101010 = some (.vcmpleu 7 57 40 false true) := by
  refine ⟨rfl, rfl, rfl, rfl, rfl, rfl, rfl, rfl, rfl, rfl⟩

/-- Words of opcodes 0x25 to 0x27 (R91 to R98): each field at its place of the format, other bits as the table fixes them. -/
theorem test_decode_part10 :
    decodeTableWord 32 0b01001010001100110110010100110100 = some (.vcmpgt 6 27 10 true false) ∧
    decodeTableWord 32 0b01001010001011101001011010111100 = some (.vcmpge 5 52 45 true false) ∧
    decodeTableWord 32 0b01001010001100000101100101000000 = some (.vcmpgtu 6 2 50 false false) ∧
    decodeTableWord 32 0b01001010001111111001001011001010 = some (.vcmpgeu 7 60 37 false true) ∧
    decodeTableWord 32 0b01001101100101011000110010000011 = some (.vsel 50 44 25 1 true) ∧
    decodeTableWord 32 0b01001111100011000000000000000000 = some (.vmov 49 32 false false) ∧
    decodeTableWord 32 0b01001110110111010010000000001000 = some (.vbcast 27 41 false false) ∧
    decodeTableWord 32 0b01001111100101110101011010010110 = some (.vtos 50 58 45 true true) ∧
    decodeTableWord 32 0b01001110100100000010100100011010 = some (.stov 18 1 18 false true) ∧
    decodeTableWord 32 0b01001110111010101000000000110000 = some (.vrdout 29 20 false false) := by
  refine ⟨rfl, rfl, rfl, rfl, rfl, rfl, rfl, rfl, rfl, rfl⟩

/-- Words of opcodes 0x27 to 0x2C (R91 to R98): each field at its place of the format, other bits as the table fixes them. -/
theorem test_decode_part11 :
    decodeTableWord 32 0b01001110110000111010000000111010 = some (.vwrout 24 29 false true) ∧
    decodeTableWord 32 0b01010001110000000000010011100000 = some (.vmovi 56 624 false) ∧
    decodeTableWord 32 0b01010101100000110110001010000000 = some (.vdiv 48 27 5 false false) ∧
    decodeTableWord 32 0b01010101111010001101010000001010 = some (.vrem 61 6 40 false true) ∧
    decodeTableWord 32 0b01010110110101001010000000000100 = some (.vcvt 26 37 true) ∧
    decodeTableWord 32 0b01010110000101010110000000001000 = some (.vrndi 2 43 false) ∧
    decodeTableWord 32 0b01010111000001000111000010010100 = some (.vpack 32 35 33 true) ∧
    decodeTableWord 32 0b01010111101010111000000000011000 = some (.vunpkl 53 28 false) ∧
    decodeTableWord 32 0b01010111001011101010000000100000 = some (.vunpkh 37 53 false) ∧
    decodeTableWord 32 0b01011000111100000110010100000010 = some (.fadd 30 3 10 false true) := by
  refine ⟨rfl, rfl, rfl, rfl, rfl, rfl, rfl, rfl, rfl, rfl⟩

/-- Words of opcodes 0x2C to 0x2E (R91 to R98): each field at its place of the format, other bits as the table fixes them. -/
theorem test_decode_part12 :
    decodeTableWord 32 0b01011001111001100110010000001010 = some (.fsub 60 51 8 false true) ∧
    decodeTableWord 32 0b01011001001100110001100110010000 = some (.fmul 38 24 51 false false) ∧
    decodeTableWord 32 0b01011000101101101000101110011000 = some (.fmin 22 52 23 false false) ∧
    decodeTableWord 32 0b01011001110000110101101000100010 = some (.fmax 56 26 52 false true) ∧
    decodeTableWord 32 0b01011001110000011100000000101110 = some (.fabs 56 14 true true) ∧
    decodeTableWord 32 0b01011001001011110110000000110010 = some (.fneg 37 59 false true) ∧
    decodeTableWord 32 0b01011001000101110000011010111110 = some (.fcopysign 34 56 13 true true) ∧
    decodeTableWord 32 0b01011000100001101101100011000110 = some (.fscale 16 54 49 true true) ∧
    decodeTableWord 32 0b01011011010001100110100110010110 = some (.ffma 40 51 19 11 false) ∧
    decodeTableWord 32 0b01011100001101110001011010000110 = some (.fcmpeq 6 56 45 true true) := by
  refine ⟨rfl, rfl, rfl, rfl, rfl, rfl, rfl, rfl, rfl, rfl⟩

/-- Words of opcodes 0x2E to 0x2E (R91 to R98): each field at its place of the format, other bits as the table fixes them. -/
theorem test_decode_part13 :
    decodeTableWord 32 0b01011100000010111000001100001000 = some (.fcmpne 1 28 6 false false) ∧
    decodeTableWord 32 0b01011100000111010010100010010000 = some (.fcmplt 3 41 17 false false) ∧
    decodeTableWord 32 0b01011100001100100111010100011110 = some (.fcmple 6 19 42 true true) ∧
    decodeTableWord 32 0b01011100000100001001011010100010 = some (.fcmpgt 2 4 45 false true) ∧
    decodeTableWord 32 0b01011100001101000111010110101110 = some (.fcmpge 6 35 43 true true) ∧
    decodeTableWord 32 0b01011100001101110011010000110010 = some (.fcmpueq 6 57 40 false true) ∧
    decodeTableWord 32 0b01011100001110011001110100111110 = some (.fcmpune 7 12 58 true true) ∧
    decodeTableWord 32 0b01011100001110010110001111000110 = some (.fcmpult 7 11 7 true true) ∧
    decodeTableWord 32 0b01011100000011010111011111001100 = some (.fcmpule 1 43 47 true false) ∧
    decodeTableWord 32 0b01011100000011111000111111010000 = some (.fcmpugt 1 60 31 false false) := by
  refine ⟨rfl, rfl, rfl, rfl, rfl, rfl, rfl, rfl, rfl, rfl⟩

/-- Words of opcodes 0x2E to 0x2F (R91 to R98): each field at its place of the format, other bits as the table fixes them. -/
theorem test_decode_part14 :
    decodeTableWord 32 0b01011100000011100001010111011010 = some (.fcmpuge 1 48 43 false true) ∧
    decodeTableWord 32 0b01011100001111111110010011100000 = some (.fcmpord 7 63 9 false false) ∧
    decodeTableWord 32 0b01011100001111001101110011101010 = some (.fcmpunord 7 38 57 false true) ∧
    decodeTableWord 32 0b01011111101010010010000000000000 = some (.frcp 53 9 false false) ∧
    decodeTableWord 32 0b01011110010010110110000000001000 = some (.frsq 9 27 false false) ∧
    decodeTableWord 32 0b01011110100011110010000000010000 = some (.fsqrt 17 57 false false) ∧
    decodeTableWord 32 0b01011110101001100010000000011010 = some (.fexp2 20 49 false true) ∧
    decodeTableWord 32 0b01011111100000111110000000100010 = some (.flog2 48 31 false true) ∧
    decodeTableWord 32 0b01011110101111011110000000101100 = some (.fsin 23 47 true false) ∧
    decodeTableWord 32 0b01011110000011001000000000110100 = some (.fcos 1 36 true false) := by
  refine ⟨rfl, rfl, rfl, rfl, rfl, rfl, rfl, rfl, rfl, rfl⟩

/-- Words of opcodes 0x2F to 0x31 (R91 to R98): each field at its place of the format, other bits as the table fixes them. -/
theorem test_decode_part15 :
    decodeTableWord 32 0b01011110000100001100000000111100 = some (.ftanh 2 6 true false) ∧
    decodeTableWord 32 0b01011111101001011000000001000010 = some (.ffract 52 44 false true) ∧
    decodeTableWord 32 0b01011111001100001000000001001110 = some (.fclass 38 4 true true) ∧
    decodeTableWord 32 0b01011111110001000100101111010010 = some (.fdiv 56 34 23 false true) ∧
    decodeTableWord 32 0b01100001110101100011110001110010 = some (.fdot 58 49 56 57 false) ∧
    decodeTableWord 32 0b01100011001100001110010010000010 = some (.lshuf 38 7 9 false true) ∧
    decodeTableWord 32 0b01100010001010110100101000001100 = some (.lrot 5 26 20 true false) ∧
    decodeTableWord 32 0b01100011101001010111000110010110 = some (.lxorl 52 43 35 true true) ∧
    decodeTableWord 32 0b01100010110011110101110100011100 = some (.lup 25 58 58 true false) ∧
    decodeTableWord 32 0b01100010101111001100011010100000 = some (.ldown 23 38 13 false false) := by
  refine ⟨rfl, rfl, rfl, rfl, rfl, rfl, rfl, rfl, rfl, rfl⟩

/-- Words of opcodes 0x31 to 0x32 (R91 to R98): each field at its place of the format, other bits as the table fixes them. -/
theorem test_decode_part16 :
    decodeTableWord 32 0b01100011111100100100100100101100 = some (.lbcast 62 18 18 true false) ∧
    decodeTableWord 32 0b01100010011100001111010110110110 = some (.lrotw 14 7 43 true true) ∧
    decodeTableWord 32 0b01100101001101111000000000000100 = some (.lredadd 38 60 true false) ∧
    decodeTableWord 32 0b01100100111101001110000000001010 = some (.lredmin 30 39 false true) ∧
    decodeTableWord 32 0b01100100010001110010000000010010 = some (.lredmax 8 57 false true) ∧
    decodeTableWord 32 0b01100100111001011100000000011000 = some (.lredand 28 46 false false) ∧
    decodeTableWord 32 0b01100100001110101110000000100010 = some (.lredor 7 23 false true) ∧
    decodeTableWord 32 0b01100101010010110010000000101010 = some (.lredxor 41 25 false true) ∧
    decodeTableWord 32 0b01100101001001110010000000110100 = some (.lredfadd 36 57 true false) ∧
    decodeTableWord 32 0b01100100111010100110000000111000 = some (.lredfmin 29 19 false false) := by
  refine ⟨rfl, rfl, rfl, rfl, rfl, rfl, rfl, rfl, rfl, rfl⟩

/-- Words of opcodes 0x32 to 0x33 (R91 to R98): each field at its place of the format, other bits as the table fixes them. -/
theorem test_decode_part17 :
    decodeTableWord 32 0b01100100100101101110000001000100 = some (.lredfmax 18 55 true false) ∧
    decodeTableWord 32 0b01100110001010001110000000000000 = some (.lscanadd 5 7 false false) ∧
    decodeTableWord 32 0b01100111001110011100000000001110 = some (.lscanmin 39 14 true true) ∧
    decodeTableWord 32 0b01100110101111001010000000010000 = some (.lscanmax 23 37 false false) ∧
    decodeTableWord 32 0b01100111100011010000000000011110 = some (.lscanand 49 40 true true) ∧
    decodeTableWord 32 0b01100111011001111010000000100100 = some (.lscanor 44 61 true false) ∧
    decodeTableWord 32 0b01100110111011011110000000101000 = some (.lscanxor 29 47 false false) ∧
    decodeTableWord 32 0b01100110000100110000000000110010 = some (.lscanfadd 2 24 false true) ∧
    decodeTableWord 32 0b01100110111101000000000001000010 = some (.lxscanadd 30 32 false true) ∧
    decodeTableWord 32 0b01100111000011100010000001001110 = some (.lxscanmin 33 49 true true) := by
  refine ⟨rfl, rfl, rfl, rfl, rfl, rfl, rfl, rfl, rfl, rfl⟩

/-- Words of opcodes 0x33 to 0x37 (R91 to R98): each field at its place of the format, other bits as the table fixes them. -/
theorem test_decode_part18 :
    decodeTableWord 32 0b01100110100000101110000001010110 = some (.lxscanmax 16 23 true true) ∧
    decodeTableWord 32 0b01100111011100000100000001011010 = some (.lxscanand 46 2 false true) ∧
    decodeTableWord 32 0b01100111100100000100000001100110 = some (.lxscanor 50 2 true true) ∧
    decodeTableWord 32 0b01100111000010001110000001101110 = some (.lxscanxor 33 7 true true) ∧
    decodeTableWord 32 0b01100111000110100010000001110000 = some (.lxscanfadd 35 17 false false) ∧
    decodeTableWord 32 0b01101001100110000100000000000100 = some (.lballot 51 2 true) ∧
    decodeTableWord 32 0b01101000111011001010000000001110 = some (.lmatch 29 37 true true) ∧
    decodeTableWord 32 0b01101010010010111000001100000100 = some (.xsend 9 28 6 true) ∧
    decodeTableWord 32 0b01101100011100001110010010000000 = some (.xrecv 14 7 9 false) ∧
    decodeTableWord 32 0b01101110101000101110001100000100 = some (.regroup 20 23 6 true) := by
  refine ⟨rfl, rfl, rfl, rfl, rfl, rfl, rfl, rfl, rfl, rfl⟩

/-- Words of opcodes 0x38 to 0x48 (R91 to R98): each field at its place of the format, other bits as the table fixes them. -/
theorem test_decode_part19 :
    decodeTableWord 32 0b01110000011000000000000000000100 = some (.vlane 12 true) ∧
    decodeTableWord 32 0b10000001000001011011001000100111 = some (.ld 32 45 36 2 1 true true) ∧
    decodeTableWord 32 0b10000010110010111001011110111011 = some (.st 25 28 47 3 2 true true) ∧
    decodeTableWord 32 0b10000100011110011101101110010101 = some (.ldu 15 14 55 1 1 false true) ∧
    decodeTableWord 32 0b10000111010110100111010100101000 = some (.stu 43 19 42 2 2 false false) ∧
    decodeTableWord 32 0b10001000010010011101000100100100 = some (.ldh 9 14 34 2 1 false false) ∧
    decodeTableWord 32 0b10001010001101011001111010101011 = some (.sth 6 44 61 2 2 true true) ∧
    decodeTableWord 32 0b10001100000110011110001010011010 = some (.atom 3 15 5 3 2) ∧
    decodeTableWord 32 0b10001110010001011001011100111001 = some (.atoma 8 44 46 7 1) ∧
    decodeTableWord 32 0b10010000000000100011000000101011 = some (.red 17 32 5 3) := by
  refine ⟨rfl, rfl, rfl, rfl, rfl, rfl, rfl, rfl, rfl, rfl⟩

/-- Words of opcodes 0x49 to 0x4D (R91 to R98): each field at its place of the format, other bits as the table fixes them. -/
theorem test_decode_part20 :
    decodeTableWord 32 0b10010010010100100011001110111001 = some (.atomh 10 17 39 7 1) ∧
    decodeTableWord 32 0b10010100001011110000000000000000 = some (.talloc 5 56 false) ∧
    decodeTableWord 32 0b10010100000001000010000000001100 = some (.tfree 33 true) ∧
    decodeTableWord 32 0b10010101001100000000000000010100 = some (.tinfo 38 true) ∧
    decodeTableWord 32 0b10010110100010111110101001101100 = some (.wait 17 31 20 54) ∧
    decodeTableWord 32 0b10011000000000010000000000000000 = some (.waitrld 8 false) ∧
    decodeTableWord 32 0b10011000000001110100000000001100 = some (.waitrst 58 true) ∧
    decodeTableWord 32 0b10011000000000100010000000010100 = some (.waitrcp 17 true) ∧
    decodeTableWord 32 0b10011000000000010100000000011000 = some (.waitrtl 10 false) ∧
    decodeTableWord 32 0b10011010000001010101011010000000 = some (.pfl1 42 45 false) := by
  refine ⟨rfl, rfl, rfl, rfl, rfl, rfl, rfl, rfl, rfl, rfl⟩

/-- Words of opcodes 0x4D to 0x53 (R91 to R98): each field at its place of the format, other bits as the table fixes them. -/
theorem test_decode_part21 :
    decodeTableWord 32 0b10011010000001000100010000001000 = some (.pfllc 34 8 false) ∧
    decodeTableWord 32 0b10011010000001101011011110010100 = some (.cwb 53 47 true) ∧
    decodeTableWord 32 0b10011010000001101101000100011000 = some (.cinv 54 34 false) ∧
    decodeTableWord 32 0b10011010000000000000001010100100 = some (.icinv 5 true) ∧
    decodeTableWord 32 0b10100000000000000000000000001000 = some (.fence 1 false) ∧
    decodeTableWord 32 0b10100010000000101110001000000100 = some (.binit 23 4 true) ∧
    decodeTableWord 32 0b10100100000001010100000000000100 = some (.barv 42 true) ∧
    decodeTableWord 32 0b10100100000001101001001000001000 = some (.barvx 52 36 false) ∧
    decodeTableWord 32 0b10100100000000010100000000010000 = some (.barvd 10 false) ∧
    decodeTableWord 32 0b10100110000000100101010000000100 = some (.bwait 18 40 true) := by
  refine ⟨rfl, rfl, rfl, rfl, rfl, rfl, rfl, rfl, rfl, rfl⟩

/-- Words of opcodes 0x53 to 0x5A (R91 to R98): each field at its place of the format, other bits as the table fixes them. -/
theorem test_decode_part22 :
    decodeTableWord 32 0b10100110001100101011101110001000 = some (.btest 6 21 55 false) ∧
    decodeTableWord 32 0b10101000000000000000000000000000 = some (.cbara false) ∧
    decodeTableWord 32 0b10101000000000000000000000001000 = some (.cbarw false) ∧
    decodeTableWord 32 0b10101000000000000000000000010100 = some (.cbar true) ∧
    decodeTableWord 32 0b10101010000000000000000000000000 = some (.wgbar false) ∧
    decodeTableWord 32 0b10101010000000000000000000001100 = some (.wgbara true) ∧
    decodeTableWord 32 0b10101010000000000000000000010100 = some (.wgbarw true) ∧
    decodeTableWord 32 0b10110000110101100111000110111110 = some (.txbegin 3 false 1470910) ∧
    decodeTableWord 32 0b10110010000000000000000000000000 = some (.txend) ∧
    decodeTableWord 32 0b10110100000000000000000000001100 = some (.txabort 1 true) := by
  refine ⟨rfl, rfl, rfl, rfl, rfl, rfl, rfl, rfl, rfl, rfl⟩

/-- Words of opcodes 0x5B to 0x5F (R91 to R98): each field at its place of the format, other bits as the table fixes them. -/
theorem test_decode_part23 :
    decodeTableWord 32 0b10110111000100000000000000000000 = some (.txstat 34 false) ∧
    decodeTableWord 32 0b10110110001110000000000000001100 = some (.txcause 7 true) ∧
    decodeTableWord 32 0b10111000000001000001100000000000 = some (.cpld 32 12 false) ∧
    decodeTableWord 32 0b10111000000001001101100000001000 = some (.cpst 38 12 false) ∧
    decodeTableWord 32 0b10111000000000101111011000010100 = some (.cpred 23 11 true) ∧
    decodeTableWord 32 0b10111000000001100000100000011100 = some (.cpg 48 4 true) ∧
    decodeTableWord 32 0b10111010000000001000110000000000 = some (.cpc 4 6 false) ∧
    decodeTableWord 32 0b10111100000001011000110000000000 = some (.cpw 44 6 false) ∧
    decodeTableWord 32 0b10111111011111110010000000000000 = some (.cpq 47 57 false) ∧
    decodeTableWord 32 0b10111110000001100010000000001000 = some (.cpcan 49 false) := by
  refine ⟨rfl, rfl, rfl, rfl, rfl, rfl, rfl, rfl, rfl, rfl⟩

/-- Words of opcodes 0x60 to 0x67 (R91 to R98): each field at its place of the format, other bits as the table fixes them. -/
theorem test_decode_part24 :
    decodeTableWord 32 0b11000000001101111000000000000100 = some (.tcfg 6 60 true) ∧
    decodeTableWord 32 0b11000010000100100000011010000100 = some (.tld 2 16 13 true) ∧
    decodeTableWord 32 0b11000100001111111011101000000100 = some (.tst 7 61 52 true) ∧
    decodeTableWord 32 0b11000110000010000000000000000100 = some (.tzero 1 true) ∧
    decodeTableWord 32 0b11000110000010000000000000001000 = some (.azero 1 false) ∧
    decodeTableWord 32 0b11001000000110000110001010000100 = some (.mma 3 3 5 true) ∧
    decodeTableWord 32 0b11001010000100001100001100000100 = some (.mmap 2 6 6 true) ∧
    decodeTableWord 32 0b11001010000110001110000110001000 = some (.mmapF 3 7 3 false) ∧
    decodeTableWord 32 0b11001100000100001110100000000000 = some (.mmag 2 7 16 false) ∧
    decodeTableWord 32 0b11001111000110000011010100000100 = some (.tmovv 35 1 42 true) := by
  refine ⟨rfl, rfl, rfl, rfl, rfl, rfl, rfl, rfl, rfl, rfl⟩

/-- Words of opcodes 0x68 to 0x70 (R91 to R98): each field at its place of the format, other bits as the table fixes them. -/
theorem test_decode_part25 :
    decodeTableWord 32 0b11010000000110000100000000000100 = some (.tcvt 3 2 true) ∧
    decodeTableWord 32 0b11010010000010110111101000000000 = some (.tlds 1 27 52 false) ∧
    decodeTableWord 32 0b11011000000000010100110100000000 = some (.msemitv 10 26 false) ∧
    decodeTableWord 32 0b11011000000001011100100010001100 = some (.msemitp 46 17 true) ∧
    decodeTableWord 32 0b11011010000000101100000000000000 = some (.vamp 22 false) ∧
    decodeTableWord 32 0b11011100011111001110000000000000 = some (.gaze 15 39 false) ∧
    decodeTableWord 32 0b11011111001100000010000000000100 = some (.rtfetch 38 1 true) ∧
    decodeTableWord 32 0b11100000101010011010101000000100 = some (.tex 21 13 20 true) ∧
    decodeTableWord 32 0b11100000001011101000110110001000 = some (.texl 5 52 27 false) ∧
    decodeTableWord 32 0b11100001100110001010110110010100 = some (.texg 51 5 27 true) := by
  refine ⟨rfl, rfl, rfl, rfl, rfl, rfl, rfl, rfl, rfl, rfl⟩

/-- Words of opcodes 0x70 to 0x76 (R91 to R98): each field at its place of the format, other bits as the table fixes them. -/
theorem test_decode_part26 :
    decodeTableWord 32 0b11100001111000100110011000011100 = some (.texf 60 19 12 true) ∧
    decodeTableWord 32 0b11100001000101000011101110100100 = some (.texq 34 33 55 true) ∧
    decodeTableWord 32 0b11100011001110010111000110000000 = some (.rayl 39 11 35 false) ∧
    decodeTableWord 32 0b11100011101011101010011000001100 = some (.raylw 53 53 12 true) ∧
    decodeTableWord 32 0b11100100101011001010000000000100 = some (.rayr 21 37 true) ∧
    decodeTableWord 32 0b11100111001011011000000000000100 = some (.vtdone 37 44 true) ∧
    decodeTableWord 32 0b11101101010010000000000000010001 = some (.csrr 41 17) ∧
    decodeTableWord 32 0b11101101101010010000001000001010 = some (.csrw 53 522) ∧
    decodeTableWord 32 0b11101101111000100000000000010001 = some (.csrs 60 17) ∧
    decodeTableWord 32 0b11101101000100110000001000001010 = some (.csrc 34 522) := by
  refine ⟨rfl, rfl, rfl, rfl, rfl, rfl, rfl, rfl, rfl, rfl⟩

/-- Words of opcodes 0x77 to 0x7D (R91 to R98): each field at its place of the format, other bits as the table fixes them. -/
theorem test_decode_part27 :
    decodeTableWord 32 0b11101110000000000010010001100011 = some (.trap 9315) ∧
    decodeTableWord 32 0b11101110000000011000100000100111 = some (.brk 34855) ∧
    decodeTableWord 32 0b11110000000000000000000000000000 = some (.rett) ∧
    decodeTableWord 32 0b11110010000000000000000000000000 = some (.yield false) ∧
    decodeTableWord 32 0b11110010000000000100000000001100 = some (.sleep 2 true) ∧
    decodeTableWord 32 0b11110010000000111000000000010000 = some (.wake 28 false) ∧
    decodeTableWord 32 0b11110101001100011110111110000100 = some (.dlaunch 38 15 31 true) ∧
    decodeTableWord 32 0b11110111100000011000000000000100 = some (.djoin 48 12 true) ∧
    decodeTableWord 32 0b11111000000000001110001011100010 = some (.pmark 58082) ∧
    decodeTableWord 32 0b11111010000000000000000000000000 = some (.framesync) := by
  refine ⟨rfl, rfl, rfl, rfl, rfl, rfl, rfl, rfl, rfl, rfl⟩

/-! ### Scalar instructions: sums, products, shifts and quotients worked by hand from R151 to R157 -/

/-- R151: 64-bit sums wrap; a 32-bit sum is sign-extended. -/
theorem test_sadd : scal (.sadd 3 1 2 false false) 0xFFFFFFFFFFFFFFFF 2 3 = 1 ∧
    scal (.sadd 3 1 2 false true) 0x7FFFFFFF 1 3 = 0xFFFFFFFF80000000 := by decide +kernel
theorem test_ssub : scal (.ssub 3 1 2 false false) 5 7 3 = 0xFFFFFFFFFFFFFFFE := by decide +kernel
theorem test_smul : scal (.smul 3 1 2 false true) 0x10001 0x10001 3 = 0x20001 := by decide +kernel
/-- R151: the high half of (−1) × 2 is −1, of 2^63 × 2^63 (both −2^63) it is 2^62. -/
theorem test_smulh : scal (.smulh 3 1 2 false false) 0xFFFFFFFFFFFFFFFF 2 3 = 0xFFFFFFFFFFFFFFFF ∧
    scal (.smulh 3 1 2 false false) 0x8000000000000000 0x8000000000000000 3 = 0x4000000000000000 := by decide +kernel
theorem test_logic : scal (.sand 3 1 2 false false) 0xF0F0 0xFF00 3 = 0xF000 ∧ scal (.sor 3 1 2 false false) 0xF0F0 0xFF00 3 = 0xFFF0 ∧
    scal (.sxor 3 1 2 false false) 0xF0F0 0xFF00 3 = 0x0FF0 := by decide +kernel
/-- R151: shift amounts are taken modulo the width. -/
theorem test_shifts : scal (.sshl 3 1 2 false false) 1 65 3 = 2 ∧ scal (.sshr 3 1 2 false false) 0x8000000000000000 63 3 = 1 ∧
    scal (.ssar 3 1 2 false true) 0x80000000 33 3 = 0xFFFFFFFFC0000000 := by decide +kernel
theorem test_minmax : scal (.smin 3 1 2 false false) 0xFFFFFFFFFFFFFFFF 1 3 = 0xFFFFFFFFFFFFFFFF ∧
    scal (.smax 3 1 2 false false) 0xFFFFFFFFFFFFFFFF 1 3 = 1 ∧ scal (.sminu 3 1 2 false false) 0xFFFFFFFFFFFFFFFF 1 3 = 1 ∧
    scal (.smaxu 3 1 2 false false) 0xFFFFFFFFFFFFFFFF 1 3 = 0xFFFFFFFFFFFFFFFF := by decide +kernel
theorem test_counts : scal (.sclz 3 1 false false) 0 0 3 = 64 ∧ scal (.sclz 3 1 false true) 0xFFFFFFFF00000001 0 3 = 31 ∧
    scal (.spop 3 1 false false) 0xF00000000000000F 0 3 = 8 := by decide +kernel
theorem test_saddi : scal (.saddi 3 1 0xFFF false) 0 0 3 = 0xFFFFFFFFFFFFFFFF := by decide +kernel
/-- R154, R155: sign extension, and the four insertions. -/
theorem test_moves : scal (.smovi 3 0x8000) 0 0 3 = 0xFFFFFFFFFFFF8000 ∧ scal (.sins16 1 0xABCD) 0x1111111111111111 0 1 = 0x11111111ABCD1111 ∧
    scal (.sins32 1 0xABCD) 0x1111111111111111 0 1 = 0x1111ABCD11111111 ∧
    scal (.sins48 1 0xABCD) 0x1111111111111111 0 1 = 0xABCD111111111111 := by decide +kernel
/-- 04_encoding_notes.md: SMOVLZ leaves 0x00000000FFFFFFFF, and SMOVL gives all ones. -/
theorem test_literals : scal (.smovlz 4 false 0xFFFFFFFF) 0 0 4 = 0xFFFFFFFF ∧
    scal (.smovl 4 false 0xFFFFFFFF) 0 0 4 = 0xFFFFFFFFFFFFFFFF ∧
    scal (.smovlh 1 false 0x12345678) 0xFFFFFFFFFFFFFFFF 0 1 = 0x12345678FFFFFFFF := by decide +kernel
theorem test_ssel : scal (.ssel 3 1 2 1 false) 7 9 3 = 7 ∧ scal (.ssel 3 1 2 1 false) 0 9 3 = 9 := by decide +kernel
/-- R157: truncating division, the corner −2^63 ÷ −1, and a zero divisor. -/
theorem test_sdiv : scal (.sdiv 3 1 2 false false) 0xFFFFFFFFFFFFFFF9 2 3 = 0xFFFFFFFFFFFFFFFD ∧
    scal (.sdiv 3 1 2 false false) 0x8000000000000000 0xFFFFFFFFFFFFFFFF 3 = 0x8000000000000000 ∧
    scal (.sdiv 3 1 2 false false) 5 0 3 = 0xFFFFFFFFFFFFFFFF ∧ scal (.sdivu 3 1 2 false false) 0xFFFFFFFFFFFFFFFF 2 3 = 0x7FFFFFFFFFFFFFFF := by
  decide +kernel
theorem test_srem : scal (.srem 3 1 2 false false) 0xFFFFFFFFFFFFFFF9 2 3 = 0xFFFFFFFFFFFFFFFF ∧
    scal (.srem 3 1 2 false false) 5 0 3 = 5 ∧ scal (.sremu 3 1 2 false true) 7 4 3 = 3 := by decide +kernel

/-- The predicate register d after an instruction on s1 and s2. -/
def predOf (i : Instr) (x y : W64) (pr : List (Nat × Mask)) (d : Nat) : Mask :=
  nextOf 0 (fun s => s.w.pred d) (exec i (onlyWarp (warpWith modeReset [(1, ⟨x, false⟩), (2, ⟨y, false⟩)] [] pr)))

/-- R153: −1 < 1 as signed numbers and not as unsigned ones; p7 takes nothing (R77). -/
theorem test_scmp : predOf (.scmplt 1 1 2 false false) 0xFFFFFFFFFFFFFFFF 1 [] 1 = 0xFFFFFFFF ∧
    predOf (.scmpltu 1 1 2 false false) 0xFFFFFFFFFFFFFFFF 1 [(1, 0xFF)] 1 = 0 ∧
    predOf (.scmpeq 2 1 2 false true) 0x100000001 1 [] 2 = 0xFFFFFFFF ∧ predOf (.scmpne 2 1 2 false false) 1 1 [(2, 1)] 2 = 0 ∧
    predOf (.scmple 2 1 2 false false) 1 1 [] 2 = 0xFFFFFFFF ∧ predOf (.scmpleu 2 1 2 false false) 2 1 [] 2 = 0 := by decide +kernel
theorem test_scmp_greater : predOf (.scmpgt 1 1 2 false false) 1 0xFFFFFFFFFFFFFFFF [] 1 = 0xFFFFFFFF ∧
    predOf (.scmpge 1 1 2 false false) 1 1 [] 1 = 0xFFFFFFFF ∧ predOf (.scmpgtu 1 1 2 false false) 1 0xFFFFFFFFFFFFFFFF [] 1 = 0 ∧
    predOf (.scmpgeu 1 1 2 false false) 0 1 [] 1 = 0 ∧ predOf (.scmpeq 7 1 2 false false) 1 2 [] 7 = 0xFFFFFFFF := by decide +kernel
/-- R158: predicate logic by lane. -/
theorem test_plog : predOf (.pand 1 2 3 false) 0 0 [(2, 0xC), (3, 0xA)] 1 = 8 ∧ predOf (.por 1 2 3 false) 0 0 [(2, 0xC), (3, 0xA)] 1 = 14 ∧
    predOf (.pxor 1 2 3 false) 0 0 [(2, 0xC), (3, 0xA)] 1 = 6 ∧ predOf (.pandn 1 2 3 false) 0 0 [(2, 0xC), (3, 0xA)] 1 = 4 ∧
    predOf (.pnot 1 2 false) 0 0 [(2, 0xC)] 1 = 0xFFFFFFF3 ∧ predOf (.pmov 1 2 false) 0 0 [(2, 0xC)] 1 = 12 ∧
    predOf (.pset 1 false) 0 0 [] 1 = 0xFFFFFFFF ∧ predOf (.pclr 1 false) 0 0 [(1, 5)] 1 = 0 := by decide +kernel
/-- R81: a guard on p2 with GN clear leaves the other lanes of p1 as they were. -/
theorem test_guard : nextOf 0 (fun s => s.w.pred 1) (exec (.pset 1 true)
    (onlyWarp (warpWith (modeReset ||| 2#32) [] [] [(1, 0x100), (2, 0xC)]))) = 0x10C := by decide +kernel

/-- The scalar register d after an instruction on predicates. -/
def scalOfPred (i : Instr) (pr : List (Nat × Mask)) (d : Nat) : W64 :=
  nextOf 0 (fun s => (s.w.sr d).bits) (exec i (onlyWarp (warpWith modeReset [] [] pr)))

theorem test_pred_to_scalar : scalOfPred (.pany 3 1 false) [(1, 4)] 3 = 1 ∧ scalOfPred (.pall 3 1 false) [(1, 4)] 3 = 0 ∧
    scalOfPred (.ppop 3 1 false) [(1, 0xFF0)] 3 = 8 ∧ scalOfPred (.ptos 3 1 false) [(1, 0xFF0)] 3 = 0xFF0 ∧
    scalOfPred (.lballot 3 1 false) [(1, 0xF0F)] 3 = 0xF0F := by decide +kernel
theorem test_stop : predOf (.stop 1 1 false) 0xFFFFFFFF00001234 0 [] 1 = 0x1234 := by decide +kernel

/-- MODE after an instruction, from its reset value. -/
def modeAfter (i : Instr) (x : W64) : W32 :=
  nextOf 0 (fun s => s.w.p.mode) (exec i (onlyWarp (warpWith modeReset [(1, ⟨x, false⟩)] [] [])))

/-- R80: the three fields; 06_vector_notes.md sets TA to E4M3 and TB to F32 with SETMT 0x18F; 20_traps_notes.md reaches
0x00080EC0 with SETMR 0x20. -/
theorem test_setm : modeAfter (.setmt 0x18F) 0 = 0x18F0 ∧ modeAfter (.setmr 0x20) 0 = 0x00080EC0 ∧ modeAfter (.setmg 9) 0 = 0xEC9 ∧
    modeAfter (.setm 1) 0x00001860 = 0x1860 := by decide +kernel
theorem test_getm : scal (.getm 3) 0 0 3 = 0xEC0 := by decide +kernel

/-! ### Control: the paths of 02_execution_notes.md -/

/-- The warp of the example "Three paths, two slots" at its first branch. -/
def threePaths : State :=
  onlyWarp { warpWith modeReset [] [] [(1, 0x0000FFFF), (2, 0x000000FF)] with
    p := { st := .running, pc := 0x100#64, mode := modeReset, mask := fullMask } }

/-- Step 1: 0x0000FFFF at 0x140 in slot A, 0xFFFF0000 at 0x104 in slot B, each with RSTK 0x1C0. -/
theorem test_brc_splits : nextOf (0, 0, 0, 0, 0) (fun s => (s.w.p.mask, s.w.p.pc, s.w.q.mask, s.w.q.pc, s.w.q.r0))
    (exec (.brc 1 false 16 48) threePaths) = (0x0000FFFF, 0x140, 0xFFFF0000, 0x104, 0x1C0) := by decide +kernel
/-- Step 2: the second split stacks its fall-through part: FSRP becomes 128, and the RSTK of slot A is 0x1A0, 0x1C0. -/
theorem test_brc_stacks : nextOf (0, 0, 0, 0, 0) (fun s => (s.w.p.mask, s.w.p.pc, s.w.p.r0, s.w.p.r1, s.w.fsrp))
    (exec (.brc 2 false 16 24) (nextOf {} id (exec (.brc 1 false 16 48) threePaths))) =
      (0x000000FF, 0x180, 0x1A0, 0x1C0, 128) := by decide +kernel
theorem test_brcl : nextOf (0, 0, 0) (fun s => (s.w.p.pc, s.w.q.pc, s.w.q.r0))
    (exec (.brcl 2 false 12 0x100) (onlyWarp { warpWith modeReset [] [] [(2, 0xFF)] with
      p := { st := .running, pc := 0x400#64, mask := fullMask } })) = (0x430, 0x408, 0x800) := by decide +kernel
/-- R161, R162: BR with −3 from 0x1000 goes to 0xFF4; BRS falls through where s[a] is 0. -/
theorem test_br : nextOf 0 (fun s => s.w.p.pc) (exec (.br 0x3FFFFD) (onlyWarp (warpWith modeReset [] [] []))) = 0xFF4 ∧
    nextOf 0 (fun s => s.w.p.pc) (exec (.brs 1 false 4) (onlyWarp (warpWith modeReset [] [] []))) = 0x1004 ∧
    nextOf 0 (fun s => s.w.p.pc) (exec (.brs 1 true 4) (onlyWarp (warpWith modeReset [] [] []))) = 0x1010 := by decide +kernel
/-- 08_control_notes.md: the kernel's CALL reserves 4,352 bytes, pushes one record and slides the window by 24. -/
theorem test_call : nextOf (0, 0, 0, 0, 0) (fun s => (s.w.p.pc, s.w.p.wbase, s.w.p.fdepth, s.w.fsrp, s.w.fshwm))
    (exec (.call 3 2) (onlyWarp { warpWith modeReset [] [] [] with
      p := { st := .running, pc := 0x20038#64, fsize := 4, mask := 0xEFDFBF7E#32 } })) = (0x20040, 24, 1, 256, 4352) := by decide +kernel
theorem test_callr : nextOf (0, 0) (fun s => (s.w.p.pc, s.w.p.wbase))
    (exec (.callr 1 2) (onlyWarp { warpWith modeReset [(1, ⟨0x2000, false⟩)] [] [] with
      p := { st := .running, pc := 0x1000#64, fsize := 4, mask := fullMask } })) = (0x2000, 16) := by decide +kernel
/-- R168: ENTER sets the frame; as a first instruction it needs no CALL (R45). -/
theorem test_enter : nextOf (0, 0) (fun s => (s.w.p.fsize, s.w.p.pc))
    (exec (.enter 4) (onlyWarp { warpWith modeReset [] [] [] with fresh := true })) = (4, 0x1004) := by decide +kernel
/-- R169: RET goes back to the word behind the CALL, at depth 0, and frees the record. -/
theorem test_ret : nextOf (0, 1, 1) (fun s => (s.w.p.pc, s.w.p.fdepth, s.w.fsrp))
    (exec .ret (nextOf {} id (exec (.enter 2) (nextOf {} id (exec (.call 3 2) (onlyWarp { warpWith modeReset [] [] [] with
      p := { st := .running, pc := 0x1000#64, fsize := 4, mask := fullMask } })))))) =
      (0x1004, 0, 0) := by decide +kernel
/-- R170: LOOP sets START to the word behind it; a zero count goes past the end address. -/
theorem test_loop : nextOf (0, 0, 0, 0) (fun s => (s.w.p.pc, s.w.p.lc0.start, s.w.p.lc0.count, s.w.p.levels))
    (exec (.loop 4 4) (onlyWarp (warpWith modeReset [] [] []))) = (0x1004, 0x1004, 4, 1) ∧
    nextOf 0 (fun s => s.w.p.pc) (exec (.loop 4 0) (onlyWarp (warpWith modeReset [] [] []))) = 0x1018 := by decide +kernel
theorem test_loopr : nextOf 0 (fun s => s.w.p.lc0.count)
    (exec (.loopr 0 1) (onlyWarp (warpWith modeReset [(1, ⟨60, false⟩)] [] []))) = 60 := by decide +kernel
/-- R172: LBRK goes on behind the end address, and without a level it traps: TVEC is 0, so the context is killed (R345). -/
theorem test_lbrk : nextOf (0, 9) (fun s => (s.w.p.pc, s.w.p.levels))
    (exec .lbrk (nextOf {} id (exec (.loop 4 4) (onlyWarp (warpWith modeReset [] [] []))))) = (0x1018, 0) := by decide +kernel
/-- R173: EXIT under a guard retires its lanes; a full EXIT leaves no warp. -/
theorem test_exit : nextOf 0 (fun s => s.w.p.mask) (exec (.exit true)
      (onlyWarp (warpWith (modeReset ||| 2#32) [] [] [(2, 0xFFFFFF00)]))) = 0xFF ∧
    nextOf true (fun s => s.w.resident) (exec (.exit false) (onlyWarp (warpWith modeReset [] [] []))) = false := by decide +kernel
theorem test_nop : nextOf 0 (fun s => s.w.p.pc) (exec .nop (onlyWarp (warpWith modeReset [] [] []))) = 0x1004 := by decide +kernel

/-! ### Vector instructions -/

/-- MODE with the element types TA and TB (R79). -/
def types (ta tb : Nat) : W32 := BitVec.ofNat 32 (16 * ta + 512 * tb)

/-- The device with lane words of v registers, given by register and lane. -/
def laneState (mode : W32) (v : List (Nat × Nat × W32)) : State :=
  onlyWarp (v.foldl (fun w e => w.setL e.1 e.2.1 ⟨e.2.2, false⟩) (warpWith mode [(1, ⟨1, false⟩), (2, ⟨0x8000000000000021, false⟩)] [] [(1, 1)]))

/-- Lane l of register d after an instruction on these lane words. -/
def vec (mode : W32) (i : Instr) (v : List (Nat × Nat × W32)) (d l : Nat) : W32 :=
  nextOf 0 (fun s => (s.w.vl d l).bits) (exec i (laneState mode v))

/-- v3 in lane 0, from v1 and v2 in lane 0. -/
def vec1 (mode : W32) (i : Instr) (x y : W32) : W32 := vec mode i [(1, 0, x), (2, 0, y)] 3 0

/-- R117: a sum on SI32 wraps, with SAT it saturates; on packed halves each half is its own. -/
theorem test_vadd : vec1 (types 7 7) (.vadd 3 1 2 false false) 0x7FFFFFFF 1 = 0x80000000 ∧
    vec1 (types 7 7 ||| 0x20000#32) (.vadd 3 1 2 false false) 0x7FFFFFFF 1 = 0x7FFFFFFF ∧
    vec1 (types 28 28) (.vadd 3 1 2 false false) 0x0001FFFF 0x00010001 = 0x00020000 := by decide +kernel
theorem test_vadd_pair : vec (types 8 8) (.vadd 4 0 2 false false) [(0, 0, 0xFFFFFFFF), (1, 0, 0), (2, 0, 1), (3, 0, 7)] 5 0 = 8 := by decide +kernel
theorem test_vsub_vmul : vec1 (types 6 6) (.vsub 3 1 2 false false) 5 7 = 0xFFFFFFFE ∧
    vec1 (types 6 6) (.vmul 3 1 2 false false) 0x10001 0x10001 = 0x20001 := by decide +kernel
/-- R117: the high product is signed in VMULH and unsigned in VMULHU, whatever the type. -/
theorem test_vmulh : vec1 (types 6 6) (.vmulh 3 1 2 false false) 0xFFFFFFFF 2 = 0xFFFFFFFF ∧
    vec1 (types 7 7) (.vmulhu 3 1 2 false false) 0xFFFFFFFF 2 = 1 := by decide +kernel
theorem test_vminmax : vec1 (types 7 7) (.vmin 3 1 2 false false) 0xFFFFFFFF 1 = 0xFFFFFFFF ∧
    vec1 (types 6 6) (.vmax 3 1 2 false false) 0xFFFFFFFF 1 = 0xFFFFFFFF ∧
    vec1 (types 7 7) (.vmax 3 1 2 false false) 0xFFFFFFFF 1 = 1 := by decide +kernel
theorem test_vabs_vneg : vec1 (types 7 7) (.vabs 3 1 false false) 0x80000000 0 = 0x80000000 ∧
    vec1 (types 7 7 ||| 0x20000#32) (.vabs 3 1 false false) 0x80000000 0 = 0x7FFFFFFF ∧
    vec1 (types 7 7) (.vneg 3 1 false false) 1 0 = 0xFFFFFFFF := by decide +kernel
theorem test_vabsdiff_vavg : vec1 (types 7 7) (.vabsdiff 3 1 2 false false) 0xFFFFFFFF 1 = 2 ∧
    vec1 (types 6 6) (.vavg 3 1 2 false false) 0xFFFFFFFF 0xFFFFFFFE = 0xFFFFFFFF ∧
    vec1 (types 7 7) (.vavg 3 1 2 false false) 0xFFFFFFFE 0xFFFFFFFF = 0xFFFFFFFF := by decide +kernel
/-- 18_graphics_notes.md: VIMAD packs 191 into the grey word 0xFFBFBFBF. -/
theorem test_vimad : vec (types 6 12) (.vimad 3 1 2 4 false) [(1, 0, 191), (2, 0, 0x00010101), (4, 0, 0xFF000000)] 3 0 = 0xFFBFBFBF := by
  decide +kernel
theorem test_vlog : vec1 (types 6 6) (.vand 3 1 2 false false) 0xF0F0 0xFF00 = 0xF000 ∧
    vec1 (types 6 6) (.vor 3 1 2 false false) 0xF0F0 0xFF00 = 0xFFF0 ∧ vec1 (types 6 6) (.vxor 3 1 2 false false) 0xF0F0 0xFF00 = 0x0FF0 ∧
    vec1 (types 6 6) (.vandn 3 1 2 false false) 0xF0F0 0xFF00 = 0x00F0 ∧ vec1 (types 6 6) (.vnot 3 1 false false) 0xF0F0 0 = 0xFFFF0F0F := by
  decide +kernel
/-- R118: amounts are taken modulo the width, of each half for a packed type. -/
theorem test_vshift : vec1 (types 6 6) (.vshl 3 1 2 false false) 1 33 = 2 ∧ vec1 (types 6 6) (.vshr 3 1 2 false false) 0x80000000 31 = 1 ∧
    vec1 (types 6 6) (.vsar 3 1 2 false false) 0x80000000 31 = 0xFFFFFFFF ∧
    vec1 (types 6 6) (.vrol 3 1 2 false false) 0x80000001 4 = 0x00000018 ∧ vec1 (types 6 6) (.vror 3 1 2 false false) 0x80000001 4 = 0x18000000 ∧
    vec1 (types 28 28) (.vshl 3 1 2 false false) 0x80018001 0x00110001 = 0x00020002 := by decide +kernel
theorem test_vcounts : vec1 (types 6 6) (.vclz 3 1 false false) 0 0 = 32 ∧ vec1 (types 6 6) (.vpop 3 1 false false) 0xF000000F 0 = 8 ∧
    vec1 (types 6 6) (.vbrev 3 1 false false) 0x00000003 0 = 0xC0000000 ∧ vec1 (types 28 28) (.vclz 3 1 false false) 0x00010000 0 = 0x000F0010 := by
  decide +kernel
/-- R120: a field of eight bits from bit 4, zero- and sign-extended; a field that begins at the width is empty. -/
theorem test_vbfe : vec1 (types 6 6) (.vbfe 3 1 2 false false) 0x00000F80 0x0804 = 0xF8 ∧
    vec1 (types 6 6) (.vbfes 3 1 2 false false) 0x00000F80 0x0804 = 0xFFFFFFF8 ∧ vec1 (types 6 6) (.vbfe 3 1 2 false false) 0xFFFFFFFF 0x0820 = 0 := by
  decide +kernel
theorem test_vbfi : vec (types 6 6) (.vbfi 3 1 2 4 false) [(1, 0, 0xAB), (2, 0, 0x0804), (4, 0, 0xFFFFFFFF)] 3 0 = 0xFFFFFABF := by decide +kernel

/-- The predicate p3 after a comparison of v1 and v2 in lane 0, where the other lanes hold zeros. -/
def cmp1 (mode : W32) (i : Instr) (x y : W32) : Bool :=
  nextOf false (fun s => (s.w.pred 3).getLsbD 0) (exec i (laneState mode [(1, 0, x), (2, 0, y)]))

theorem test_vcmp : cmp1 (types 6 6) (.vcmpeq 3 1 2 false false) 1 1 = true ∧ cmp1 (types 6 6) (.vcmpne 3 1 2 false false) 1 1 = false ∧
    cmp1 (types 6 6) (.vcmplt 3 1 2 false false) 0xFFFFFFFF 1 = true ∧ cmp1 (types 6 6) (.vcmple 3 1 2 false false) 1 1 = true ∧
    cmp1 (types 6 6) (.vcmpltu 3 1 2 false false) 0xFFFFFFFF 1 = false ∧ cmp1 (types 6 6) (.vcmpleu 3 1 2 false false) 1 1 = true := by decide +kernel
theorem test_vcmp_greater : cmp1 (types 6 6) (.vcmpgt 3 1 2 false false) 1 0xFFFFFFFF = true ∧ cmp1 (types 6 6) (.vcmpge 3 1 2 false false) 1 2 = false ∧
    cmp1 (types 6 6) (.vcmpgtu 3 1 2 false false) 1 0xFFFFFFFF = false ∧ cmp1 (types 6 6) (.vcmpgeu 3 1 2 false false) 0xFFFFFFFF 1 = true := by decide +kernel
/-- R122: p1 holds in lane 0 alone. -/
theorem test_vsel : vec (types 6 6) (.vsel 3 1 2 1 false) [(1, 0, 5), (1, 1, 6), (2, 0, 7), (2, 1, 8)] 3 0 = 5 ∧
    vec (types 6 6) (.vsel 3 1 2 1 false) [(1, 0, 5), (1, 1, 6), (2, 0, 7), (2, 1, 8)] 3 1 = 8 := by decide +kernel
/-- 20_traps_notes.md: lane 7 divides −1 by 2 and gets 0; a zero divisor gives all ones, and the dividend as remainder. -/
theorem test_vdiv : vec (types 7 7) (.vdiv 3 1 2 false false) [(1, 0, 0xFFFFFFFF), (1, 1, 5), (2, 0, 2)] 3 0 = 0 ∧
    vec (types 7 7) (.vdiv 3 1 2 false false) [(1, 0, 0xFFFFFFFF), (1, 1, 5), (2, 0, 2)] 3 1 = 0xFFFFFFFF ∧
    vec (types 7 7) (.vrem 3 1 2 false false) [(1, 0, 0xFFFFFFFF), (1, 1, 5), (2, 0, 2)] 3 1 = 5 := by decide +kernel
/-- The example of 20_traps_notes.md: (l mod 4) − 1 is zero in the lanes of 0x22222222, which trap with DZT set and TVEC 0,
so the context is killed and no warp is left; with TVEC set the handler runs at level 1. -/
theorem test_vdiv_traps : nextOf (0, 0, 0, 0) (fun s => ((s.w.bank 1).tmask, (s.w.bank 1).cause, s.w.p.pc, s.w.p.wbase))
    (exec (.vdiv 8 9 10 false true) (onlyWarp { warpWith 0x00080EC0#32 [] ((List.range 32).filterMap (fun l =>
      if l % 4 = 1 then none else some (32 * 10 + l, (⟨1, false⟩ : LW)))) [] with tvec := 0x25080#64, budget := 192 })) =
    (0x22222222, 9, 0x25080, 64) := by decide +kernel
theorem test_vmov : vec1 (types 6 6) (.vmov 3 1 false false) 7 0 = 7 ∧ vec1 (types 6 6) (.vmovi 3 0xFFF false) 7 0 = 0xFFFFFFFF ∧
    vec1 (types 6 6) (.vmovl 3 false 0x40200000) 7 0 = 0x40200000 := by decide +kernel
/-- R124: VBCAST of a 64-bit scalar to a pair, and STOV into one lane: s2 holds 0x8000000000000021, s1 holds 1. -/
theorem test_vbcast : vec (types 9 9) (.vbcast 4 2 false false) [] 5 31 = 0x80000000 ∧
    vec (types 6 6) (.stov 3 2 1 false false) [] 3 1 = 0x21 ∧ vec (types 6 6) (.stov 3 2 1 false false) [] 3 0 = 0 := by decide +kernel
theorem test_vtos : nextOf 0 (fun s => (s.w.sr 3).bits) (exec (.vtos 3 1 1 false false) (laneState (types 7 7) [(1, 1, 0x80000000)])) =
    0xFFFFFFFF80000000 := by decide +kernel
/-- R124: a handler at level 1 reads and writes the window that was trapped, which begins at absolute register 0. -/
theorem test_vrdout : nextOf (0, 0) (fun s => ((s.w.vl 3 5).bits, (look {} s.w.v (32 * 8 + 5)).bits))
    (exec (.vwrout 8 3 false false) (nextOf {} id (exec (.vrdout 3 9 false false)
      (onlyWarp { warpWith (types 6 6) [] [(32 * 9 + 5, ⟨77, false⟩)] [] with
        tlevel := 1, budget := 192, p := { st := .running, pc := 0x1000#64, mode := types 6 6, mask := fullMask, wbase := 64, fsize := 4 }
        bank1 := { fsize := 8 } })))) = (77, 77) := by decide +kernel

/-! ### Floating point -/

/-- FFLAGS after an instruction on v1 and v2 in lane 0, under a guard on p1, which holds there alone. -/
def flags1 (mode : W32) (i : Instr) (x y : W32) : BitVec 5 :=
  nextOf 0 (fun s => s.w.fflags) (exec i (laneState (mode ||| 1#32) [(1, 0, x), (2, 0, y)]))

theorem test_fadd : vec1 (types 12 12) (.fadd 3 1 2 false false) 0x3F800000 0x40000000 = 0x40400000 ∧
    vec1 (types 12 12) (.fsub 3 1 2 false false) 0x3F800000 0x3F800000 = 0 ∧
    vec1 (types 12 12 ||| 0x8000#32) (.fsub 3 1 2 false false) 0x3F800000 0x3F800000 = 0x80000000 := by decide +kernel
/-- 16_copy_matrix_notes.md: 2.5 times 2 is 5; ∞ − ∞ is the canonical NaN with IV (R112, R113). -/
theorem test_fmul : vec1 (types 12 12) (.fmul 3 1 2 false false) 0x40200000 0x40000000 = 0x40A00000 ∧
    vec1 (types 12 12) (.fsub 3 1 2 false false) 0x7F800000 0x7F800000 = 0x7FC00000 ∧
    flags1 (types 12 12) (.fsub 3 1 2 true false) 0x7F800000 0x7F800000 = 0x10 := by decide +kernel
/-- 02_execution and 16 notes: 1 + 2^−24 is halfway and rounds to even with NX; FFMA rounds the exact sum once. -/
theorem test_ffma : vec1 (types 12 12) (.fadd 3 1 2 false false) 0x3F800000 0x33800000 = 0x3F800000 ∧
    flags1 (types 12 12) (.fadd 3 1 2 true false) 0x3F800000 0x33800000 = 0x01 ∧
    vec (types 12 12) (.ffma 3 1 2 4 false) [(1, 0, 0x3F800001), (2, 0, 0x3F800001), (4, 0, 0xBF800002)] 3 0 = 0x28800000 := by decide +kernel
theorem test_fdot : vec (types 26 12) (.fdot 3 1 2 4 false) [(1, 0, 0x3C004000), (2, 0, 0x3C004200), (4, 0, 0x3F800000)] 3 0 = 0x41000000 := by
  decide +kernel
/-- R128: of zeros of both signs FMIN takes −0; a NaN gives the other operand. -/
theorem test_fminmax : vec1 (types 12 12) (.fmin 3 1 2 false false) 0 0x80000000 = 0x80000000 ∧
    vec1 (types 12 12) (.fmax 3 1 2 false false) 0x7FC00000 0x3F800000 = 0x3F800000 := by decide +kernel
theorem test_fsign : vec1 (types 12 12) (.fabs 3 1 false false) 0xBF800000 0 = 0x3F800000 ∧ vec1 (types 12 12) (.fneg 3 1 false false) 0 0 = 0x80000000 ∧
    vec1 (types 12 12) (.fcopysign 3 1 2 false false) 0x3F800000 0x80000000 = 0xBF800000 ∧
    vec1 (types 12 12) (.fscale 3 1 2 false false) 0x3F800000 3 = 0x41000000 := by decide +kernel
/-- R130: the fourteen conditions on 1 and 2, and on a NaN. -/
theorem test_fcmp : cmp1 (types 12 12) (.fcmpeq 3 1 2 false false) 0 0x80000000 = true ∧
    cmp1 (types 12 12) (.fcmpne 3 1 2 false false) 0x3F800000 0x7FC00000 = false ∧ cmp1 (types 12 12) (.fcmplt 3 1 2 false false) 0x3F800000 0x40000000 = true ∧
    cmp1 (types 12 12) (.fcmple 3 1 2 false false) 0x3F800000 0x3F800000 = true ∧ cmp1 (types 12 12) (.fcmpgt 3 1 2 false false) 0x3F800000 0x40000000 = false ∧
    cmp1 (types 12 12) (.fcmpge 3 1 2 false false) 0x3F800000 0x7FC00000 = false ∧ cmp1 (types 12 12) (.fcmpord 3 1 2 false false) 0x3F800000 0 = true := by
  decide +kernel
theorem test_fcmp_unordered : cmp1 (types 12 12) (.fcmpueq 3 1 2 false false) 0x7FC00000 0 = true ∧
    cmp1 (types 12 12) (.fcmpune 3 1 2 false false) 0x3F800000 0x3F800000 = false ∧ cmp1 (types 12 12) (.fcmpult 3 1 2 false false) 0x7FC00000 0 = true ∧
    cmp1 (types 12 12) (.fcmpule 3 1 2 false false) 0x40000000 0x3F800000 = false ∧ cmp1 (types 12 12) (.fcmpugt 3 1 2 false false) 0x40000000 0x3F800000 = true ∧
    cmp1 (types 12 12) (.fcmpuge 3 1 2 false false) 0x3F800000 0x40000000 = false ∧ cmp1 (types 12 12) (.fcmpunord 3 1 2 false false) 0x7FC00000 0 = true := by
  decide +kernel
/-- R131, R132: division, root and fraction, exact on these operands. -/
theorem test_special : vec1 (types 12 12) (.fdiv 3 1 2 false false) 0x3F800000 0x40800000 = 0x3E800000 ∧
    vec1 (types 12 12) (.frcp 3 1 false false) 0x40000000 0 = 0x3F000000 ∧ vec1 (types 12 12) (.fsqrt 3 1 false false) 0x40800000 0 = 0x40000000 ∧
    vec1 (types 12 12) (.ffract 3 1 false false) 0x40200000 0 = 0x3F000000 := by decide +kernel
theorem test_approximate : vec1 (types 12 12) (.frsq 3 1 false false) 0x40800000 0 = 0x3F000000 ∧ vec1 (types 12 12) (.flog2 3 1 false false) 0x41000000 0 = 0x40400000 ∧
    vec1 (types 12 12) (.fexp2 3 1 false false) 0x40400000 0 = 0x41000000 ∧
    vec1 (types 12 12) (.fsin 3 1 false false) 0 0 = 0 ∧ vec1 (types 12 12) (.fcos 3 1 false false) 0 0 = 0x3F800000 ∧
    vec1 (types 12 12) (.ftanh 3 1 false false) 0x7F800000 0 = 0x3F800000 := by decide +kernel
/-- R133: the classes of 1, +∞, −0 and a signalling NaN. -/
theorem test_fclass : vec1 (types 12 12) (.fclass 3 1 false false) 0x3F800000 0 = 0x40 ∧ vec1 (types 12 12) (.fclass 3 1 false false) 0x7F800000 0 = 0x80 ∧
    vec1 (types 12 12) (.fclass 3 1 false false) 0x80000000 0 = 8 ∧ vec1 (types 12 12) (.fclass 3 1 false false) 0x7F800001 0 = 0x100 := by decide +kernel

/-- The six lanes of 06_vector_notes.md. -/
def sixLanes : List (Nat × Nat × W32) :=
  [(2, 0, 0x43E00000), (2, 1, 0x43E80000), (2, 2, 0x43F00000), (2, 3, 0xC3F00000), (2, 4, 0x7F800000), (2, 5, 0x3A800000)]

/-- The first six lanes of v4 after `VCVT v4, v2` under a MODE. -/
def sixResults (mode : W32) : List W32 :=
  nextOf [] (fun s => (List.range 6).map (fun l => (s.w.vl 4 l).bits)) (exec (.vcvt 4 2 false) (laneState mode sixLanes))

theorem test_vcvt_rne : sixResults 0x18F0 = [0x7E, 0x7E, 0x7F, 0x7F, 0x7F, 0x00] := by decide +kernel
theorem test_vcvt_sat : sixResults 0x218F0 = [0x7E, 0x7E, 0x7E, 0xFE, 0x7E, 0x00] := by decide +kernel
theorem test_vcvt_rup : sixResults (0x18F0 ||| 0xC000#32) = [0x7E, 0x7F, 0x7F, 0xFE, 0x7F, 0x01] := by decide +kernel
theorem test_vcvt_flags : nextOf 0 (fun s => s.w.fflags) (exec (.vcvt 4 2 false) (laneState 0x18F0 sixLanes)) = 0x17 := by decide +kernel
/-- 06_vector_notes.md: 2.5 and −2.5 to SI32 under RNE; VRNDI keeps F32. -/
theorem test_vcvt_int : vec1 (types 7 12) (.vcvt 3 1 false) 0x40200000 0 = 2 ∧ vec1 (types 7 12) (.vcvt 3 1 false) 0xC0200000 0 = 0xFFFFFFFE ∧
    vec1 (types 12 12) (.vrndi 3 1 false) 0x40200000 0 = 0x40000000 := by decide +kernel
theorem test_vpack : vec1 (types 26 12) (.vpack 3 1 2 false) 0x3F800000 0x40000000 = 0x40003C00 ∧
    vec1 (types 12 26) (.vunpkl 3 1 false) 0x40003C00 0 = 0x3F800000 ∧ vec1 (types 12 26) (.vunpkh 3 1 false) 0x40003C00 0 = 0x40000000 := by decide +kernel

/-! ### Lanes and warps -/

/-- 06_vector_notes.md, "One sum, three answers": the tree gives 1.0 in every active lane, with NX. -/
theorem test_lredfadd : nextOf (0, 0, 0) (fun s => ((s.w.vl 4 0).bits, (s.w.vl 4 3).bits, s.w.fflags))
    (exec (.lredfadd 4 3 true false) (onlyWarp { (laneState (types 12 12 ||| 2#32)
      [(3, 0, 0x4B800000), (3, 1, 0x3F800000), (3, 2, 0x3F800000), (3, 3, 0xCB800000)]).w with pr := [(2, 0xF)] })) = (0x3F800000, 0x3F800000, 1) := by
  decide +kernel
theorem test_lred : vec (types 7 7) (.lredadd 3 1 false false) [(1, 0, 5), (1, 31, 7)] 3 9 = 12 ∧ vec (types 7 7) (.lredmin 3 1 false false) [(1, 4, 0xFFFFFFFF)] 3 9 = 0xFFFFFFFF ∧
    vec (types 7 7) (.lredmax 3 1 false false) [(1, 4, 6)] 3 9 = 6 ∧ vec (types 6 6) (.lredor 3 1 false false) [(1, 0, 5), (1, 31, 8)] 3 9 = 13 ∧
    vec (types 6 6) (.lredand 3 1 false false) [(1, 0, 5)] 3 9 = 0 ∧ vec (types 6 6) (.lredxor 3 1 false false) [(1, 0, 5), (1, 31, 4)] 3 9 = 1 := by decide +kernel
theorem test_lredf : vec (types 12 12) (.lredfmin 3 1 false false) [(1, 0, 0xBF800000)] 3 9 = 0xBF800000 ∧
    vec (types 12 12) (.lredfmax 3 1 false false) [(1, 0, 0x3F800000)] 3 9 = 0x3F800000 := by decide +kernel
/-- R140: inclusive and exclusive prefixes of 1 in lane 0 and 2 in lane 2. -/
theorem test_lscan : vec (types 7 7) (.lscanadd 3 1 false false) [(1, 0, 1), (1, 2, 2)] 3 2 = 3 ∧ vec (types 7 7) (.lxscanadd 3 1 false false) [(1, 0, 1), (1, 2, 2)] 3 2 = 1 ∧
    vec (types 7 7) (.lscanmax 3 1 false false) [(1, 0, 1), (1, 2, 2)] 3 31 = 2 ∧ vec (types 7 7) (.lxscanmax 3 1 false false) [(1, 0, 1), (1, 2, 2)] 3 0 = 0x80000000 := by decide +kernel
theorem test_lscan_logic : vec (types 6 6) (.lscanor 3 1 false false) [(1, 0, 1), (1, 2, 2)] 3 2 = 3 ∧ vec (types 6 6) (.lscanxor 3 1 false false) [(1, 0, 1), (1, 2, 3)] 3 2 = 2 ∧
    vec (types 6 6) (.lscanand 3 1 false false) [(1, 0, 1)] 3 0 = 1 ∧ vec (types 6 6) (.lxscanand 3 1 false false) [(1, 0, 1)] 3 0 = 0xFFFFFFFF ∧
    vec (types 6 6) (.lxscanor 3 1 false false) [(1, 0, 1)] 3 1 = 1 ∧ vec (types 6 6) (.lxscanxor 3 1 false false) [(1, 0, 1)] 3 1 = 1 := by decide +kernel
theorem test_lscan_rest : vec (types 6 6) (.lscanmin 3 1 false false) [(1, 0, 1)] 3 1 = 0 ∧ vec (types 6 6) (.lxscanmin 3 1 false false) [(1, 0, 1)] 3 1 = 1 ∧
    vec (types 12 12) (.lscanfadd 3 1 false false) [(1, 0, 0x3F800000), (1, 1, 0x3F800000)] 3 1 = 0x40000000 ∧
    vec (types 12 12) (.lxscanfadd 3 1 false false) [(1, 0, 0x3F800000)] 3 0 = 0x80000000 := by decide +kernel
/-- R137, R138: s1 holds 1 and s2 ends in 0x21; lanes beyond the ends keep their own value. -/
theorem test_lperm : vec (types 6 6) (.lrot 3 1 1 false false) [(1, 0, 9)] 3 31 = 9 ∧ vec (types 6 6) (.lxorl 3 1 1 false false) [(1, 0, 9)] 3 1 = 9 ∧
    vec (types 6 6) (.lup 3 1 1 false false) [(1, 0, 9)] 3 1 = 9 ∧ vec (types 6 6) (.ldown 3 1 1 false false) [(1, 1, 9)] 3 0 = 9 ∧
    vec (types 6 6) (.lbcast 3 1 1 false false) [(1, 1, 9)] 3 30 = 9 ∧ vec (types 6 6) (.lshuf 3 1 0 false false) [(1, 4, 9), (3, 0, 0x24)] 3 0 = 9 ∧
    vec (types 6 6) (.lrotw 3 1 2 false false) [(1, 4, 9)] 3 0 = 9 := by decide +kernel
theorem test_lmatch : vec (types 6 6) (.lmatch 3 1 false false) [(1, 0, 9), (1, 5, 9)] 3 5 = 0x21 := by decide +kernel
theorem test_vlane : nextOf 0 (fun s => (s.w.vl 3 6).bits) (exec (.vlane 3 false) (onlyWarp { warpWith (types 6 6) [] [] [] with tid := [(6, 38)] })) = 38 := by decide +kernel

/-! ### Witnesses: for every statement with hypotheses, states and operands that meet them, one conjunct for each clause -/

/-- Whether nothing keeps the path on turn from issuing an instruction with these demands (Safety.lean). -/
def clearB (s : State) (d : Demand) : Bool :=
  let quiet (r : Nat × Nat) : Bool := (s.w.awaitedV ++ awaitedMovv s s.w).all (fun a => !rangesMeet r a)
  s.w.active d.guard != 0 && (s.w.p.enter == d.enter || (d.enter && s.w.fresh && s.w.p.fdepth == 0)) &&
    d.regs.all (fun r => r.legal s.w.p && quiet (s.w.p.wbase + r.n, r.cnt)) && (d.len != 8 || !s.w.p.pc.getLsbD 2) &&
    (s.w.tlevel != 0 || s.w.role.may d.cls) && d.outer.all quiet && d.scals.all (fun n => !s.w.awaitedS.contains n) &&
    (List.range 32).all (fun l => !(s.w.active d.guard).getLsbD l || d.uses.all (fun u => !u.bad s.w l))

theorem clear_of {s : State} {d : Demand} (h : clearB s d = true) : Clear s d := by
  simp only [clearB, Bool.and_eq_true, bne_iff_ne, ne_eq, Bool.or_eq_true, beq_iff_eq, List.all_eq_true,
    Bool.not_eq_eq_eq_not, Bool.not_true, List.contains_eq_mem, decide_eq_false_iff_not, List.mem_range] at h
  obtain ⟨⟨⟨⟨⟨⟨⟨h1, h2⟩, h3⟩, h4⟩, h5⟩, h6⟩, h7⟩, h8⟩ := h
  refine ⟨h1, ?_, fun r hr => (h3 r hr).1, ?_, ?_, fun r hr => (h3 r hr).2, h6, h7, ?_⟩
  · rcases h2 with h2 | ⟨⟨h2, h9⟩, h10⟩
    · exact .inl h2
    · exact .inr ⟨h2, h9, h10⟩
  · intro h; exact h4.resolve_left (by simp [h])
  · intro h; exact h5.resolve_left (by simp [h])
  · intro u hu l hl
    have hlt : l < 32 := Decidable.byContradiction fun hn => by simp [BitVec.getLsbD_of_ge _ _ (Nat.le_of_not_lt hn)] at hl
    have := (h8 l hlt).resolve_left (by simp [hl])
    simpa using this u hu

/-- The device with one GENERAL warp under a MODE, with predicates p1 = 1 and p2 = 0xC and a guard on p2 where MODE names it. -/
def gen (mode : W32) : State := onlyWarp (warpWith mode [] [] [(1, 1), (2, 0xC), (3, 0xFFFFFFFF)])
/-- That device with its warp changed. -/
def genW (f : Warp → Warp) : State := let s := gen modeReset; { s with w := f s.w }
/-- A mode whose guard is on p2. -/
def onP2 : W32 := modeReset ||| 2#32
/-- MODE with DZT set. -/
def onDzt : W32 := 0x00080EC0#32

/-- The device with one warp of a registered context, whose page at 0x10000 is mapped to itself, in a workgroup that owns its
core's array and has a 4 KiB segment under handle 1. -/
def dev (f : Warp → Warp) : State :=
  { onlyWarp (f { warpWith modeReset [] [] [(1, 1), (2, 0xC)] with wid := 1, ctx := 1, wg := 1, kern := 1 }) with
    ctxs := [(1, { live := true })]
    dies := [(0, { tlb := [{ ctx := 1, page := 1, leaf := 0x1009D#64 }] })]
    wgs := [(1, { live := true, kern := 1, launch := 1, owns := true, reserve := 8192, free := 4096
                  handles := [(1, { live := true, rows := 16, rowb := 8, seg := 1 })] })]
    launches := [(1, { live := true, wgs := [1] })]
    kernels := [(1, { live := true, ctx := 1 })]
    cores := [(0, { owner := some 1 })] }
/-- That warp under a MODE, with registers. -/
def devM (mode : W32) (sr : List (Nat × SW)) (v : List (Nat × LW)) : State := dev (fun w => { w with s := sr, v := v, p := { w.p with mode := mode } })

/-- Every lane of a mask passes a check at a resident page. -/
def passesB (chk : Nat → Except Fail Pass) (act : Mask) (pass : Nat → Pass) : Bool :=
  (List.range 32).all (fun l => !act.getLsbD l || (match chk l with | .ok p => p == pass l | .error _ => false) && (pass l).resident)

/-- A result that is compared by its value. -/
theorem ok_of {ε α : Type} [DecidableEq α] {r : Except ε α} {a : α} (h : (match r with | .ok b => decide (b = a) | .error _ => false) = true) : r = .ok a := by
  cases r with
  | error e => cases h
  | ok b => rw [of_decide_eq_true h]

theorem passes_of {chk : Nat → Except Fail Pass} {act : Mask} {pass : Nat → Pass} (h : passesB chk act pass = true) : Passes chk act pass := by
  intro l hl
  have hlt : l < 32 := Decidable.byContradiction fun hn => by simp [BitVec.getLsbD_of_ge _ _ (Nat.le_of_not_lt hn)] at hl
  have := List.all_eq_true.1 h l (List.mem_range.2 hlt)
  simp only [hl, Bool.not_true, Bool.false_or, Bool.and_eq_true] at this
  refine ⟨?_, this.2⟩
  cases hc : chk l with
  | error e => simp [hc] at this
  | ok p => simp only [hc, beq_iff_eq] at this; rw [this.1]

theorem noTx_of {s : State} {g : Bool} (h : s.w.activeTx (s.w.active g) = 0) : NoTx s g := h
theorem untouched_of {s : State} {g : Bool} (h : s.w.activeTx (s.w.active g) = 0 ∧ s.w.irrTx (s.w.active g) = 0) : Untouched s g := h

/-- The path of the other slot, and a stacked record, for the states below. -/
def heldQ : Path := { st := .running, pc := 0x2000#64, mask := 0 }
theorem witness_BranchesComplete :
    Clear (gen modeReset) { cls := .control } ∧ Clear (gen modeReset) { cls := .control, scals := [63], uses := [useS 63] } ∧
    Clear (gen modeReset) { cls := .control, len := 8 } ∧ Clear (genW (fun w => { w with q := heldQ })) { cls := .control } ∧
    Clear (genW (fun w => { w with q := heldQ, fslim := 0#64 })) { cls := .control, len := 8 } ∧
    Clear (genW (fun w => { w with fslim := 0x100000#64, group := some {}, tx := [(0, { st := .irrevocable })] })) { cls := .control } := by
  refine ⟨clear_of ?_, clear_of ?_, clear_of ?_, clear_of ?_, clear_of ?_, clear_of ?_⟩ <;> decide +kernel
/-- On p0 no lane is taken, on p3 no lane is left, and on p2 the path splits; the checked split finds room or does not. -/
theorem witness_BranchesComplete_lanes (w : Warp) (hw : w = (gen modeReset).w) :
    w.pred 0 &&& w.active false = 0 ∧ (w.pred 3 &&& w.active false ≠ 0 ∧ w.p.mask &&& ~~~(w.pred 3 &&& w.active false) = 0) ∧
    (w.pred 2 &&& w.active false ≠ 0 ∧ w.p.mask &&& ~~~(w.pred 2 &&& w.active false) ≠ 0) ∧
    w.fsbase.toNat + (({ w with q := heldQ } : Warp).pushRec (.split {})).resv ≤ w.fslim.toNat ∧
    (let v : Warp := { w with group := some {}, tx := [(0, { st := .irrevocable })], fslim := 0x100000#64 }
     v.q.held = false ∧ v.fsbase.toNat + (v.resv + 128) ≤ v.fslim.toNat ∧ (0 : W64).toNat < v.resv + 128) := by subst hw; decide +kernel
/-- The warp that a CALL of `gen modeReset` with window slide 8 K leaves before its span is looked at, from a caller at a depth. -/
def calling (depth k : Nat) (lim : W64) : State × Warp :=
  let s := genW (fun w => { w with fslim := lim, budget := 192, p := { w.p with fdepth := depth } })
  let w := s.w
  let r : CallRec := { retpc := w.p.pc + 4, prev := w.p.frp, wbase := w.p.wbase, fdepth := w.p.fdepth, fsize := w.p.fsize
                       mode := w.p.mode, pmask := w.p.mask, scal := (List.range 16).map (fun n => w.sr (48 + n)) }
  (s, { w with recs := { off := w.fsrp, order := w.pushes, body := .call r } :: w.recs, fsrp := w.fsrp + 256, pushes := w.pushes + 1
               p := { w.p with pc := 0x2000#64, frp := BitVec.ofNat 32 w.fsrp, wbase := w.p.wbase + 8 * k, fdepth := w.p.fdepth + 1
                               fsize := provisional s 0x2000#64, enter := true } })
/-- The warp that an ENTER 8 leaves before its span is looked at. -/
def entering (w : Warp) : Warp := { w with p := { w.p with fsize := 8, enter := false } }
/-- CALL and CALLR with K at both ends of its range: at the greatest depth, without room, and with room and the span in the
ring; a CALLR target of either kind; ENTER without room and with room. -/
theorem witness_CallsAndEnterComplete :
    (Clear (calling 65535 7 0).1 { cls := .control, scals := (List.range 16).map (· + 48) } ∧ (calling 65535 7 0).1.w.p.fdepth = 65535 ∧
      7 ≤ (calling 65535 7 0).1.w.p.fsize) ∧
    (Clear (calling 0 0 0x100#64).1 { cls := .control, scals := (List.range 16).map (· + 48) } ∧ (calling 0 0 0x100#64).1.w.p.fdepth ≠ 65535 ∧
      (0x100#64).toNat < (calling 0 0 0x100#64).1.w.fsbase.toNat + (calling 0 0 0x100#64).2.resv) ∧
    (Clear (calling 0 7 0x100000#64).1 { cls := .control, scals := 63 :: (List.range 16).map (· + 48), uses := [useS 63] } ∧
      (let c := calling 0 7 0x100000#64
       let w2 := (c.2.recordHwm c.2.resv).parkOther
       ((c.1.w.sr 63).bits.extractLsb' 0 2 = 0 ∧ c.1.w.fsbase.toNat + c.2.resv ≤ c.1.w.fslim.toNat) ∧ w2.need w2.span w2.p.window = .ready)) ∧
    (let s := genW (fun w => { w with s := [(63, ⟨3, false⟩)] })
     Clear s { cls := .control, scals := 63 :: (List.range 16).map (· + 48), uses := [useS 63] } ∧ (s.w.sr 63).bits.extractLsb' 0 2 ≠ 0) ∧
    (let s := genW (fun w => { w with fslim := 0x100#64, p := { w.p with enter := true } })
     Clear s { cls := .control, enter := true, outer := zeroedBy s 8 } ∧ callerTop s 8 = .ok 64 ∧
      s.w.fslim.toNat < s.w.fsbase.toNat + (entering s.w).resv) ∧
    (let s := genW (fun w => { w with
       fsrp := 256, recs := [{ body := .call { retpc := 0x1004#64, pmask := 0, fsize := 2 } }], budget := 192
       p := { w.p with enter := true, frp := 0, wbase := 8, fdepth := 1, fsize := 2 } })
     let w2 := ((entering s.w).recordHwm (entering s.w).resv).parkOther
     Clear s { cls := .control, enter := true, outer := zeroedBy s 8 } ∧ zeroedBy s 8 = [(16, 56)] ∧ callerTop s 8 = .ok 16 ∧
      s.w.fsbase.toNat + (entering s.w).resv ≤ s.w.fslim.toNat ∧ w2.need w2.span w2.p.window = .ready) := by
  refine ⟨⟨clear_of ?_, ?_⟩, ⟨clear_of ?_, ?_⟩, ⟨clear_of ?_, ?_⟩, ⟨clear_of ?_, ?_⟩, ⟨clear_of ?_, rfl, ?_⟩, ⟨clear_of ?_, ?_, rfl, ?_⟩⟩ <;> decide +kernel

/-- The record that a CALL of the caller has left: its PMASK and where it returns to. -/
def callRec (m : Mask) (ret : W64) : CallRec := { retpc := ret, pmask := m, fsize := 8 }
/-- The warp in a function of depth 1. -/
def called (m : Mask) (ret : W64) : State := genW (fun w => { w with
  fsrp := 256, recs := [{ body := .call (callRec m ret) }], p := { w.p with frp := 0, wbase := 16, fdepth := 1, fsize := 2 }, budget := 64 })
/-- That warp with some lanes of the call in its path. -/
def returning1 (lanes m : Mask) (ret : W64) : State := let s := called m ret; { s with w := { s.w with p := { s.w.p with mask := lanes } } }
/-- What RET asks of that warp: demands that are met, the record at FRP, and room for the caller's window. -/
def mayReturn (lanes m : Mask) (ret : W64) : Bool :=
  let s := returning1 lanes m ret
  let w1 := if m &&& ~~~lanes = 0 then s.w.restoreScal (callRec m ret) else s.w.setRec 0 (.call (callRec (m &&& ~~~lanes) ret))
  let w : Warp := { w1 with p := { s.w.p with wbase := 0, fsize := 8 } }
  clearB s { cls := .control, scals := retScals s } && s.w.p.fdepth != 0 && s.w.group.isNone && s.w.tlevel == 0 &&
    (match callOf s s.w.p with | .ok c => c == callRec m ret | .error _ => false) && w.parkOther.need w.parkOther.span w.parkOther.p.window == .ready
/-- The last lanes of the call, lanes left behind, and a mask that is empty already; a RETPC that is no multiple of 4. -/
theorem witness_ReturnCompletes : mayReturn fullMask fullMask 0x1004 = true ∧ mayReturn 1 fullMask 0x1004 = true ∧ mayReturn fullMask 0 0x1004 = true ∧
    mayReturn fullMask fullMask 0x1006 = true ∧ (callRec fullMask 0x1004).retpc.extractLsb' 0 2 = 0 ∧
    (callRec fullMask 0x1006).retpc.extractLsb' 0 2 ≠ 0 ∧ retScals (returning1 fullMask fullMask 0x1004) = savedScals ∧
    retScals (returning1 1 fullMask 0x1004) = [] := by decide +kernel

/-- A warp with n loop levels active, innermost last. -/
def looping (n : Nat) (x : W64) : State := genW (fun w =>
  let l : Loop := { active := true, start := 0x1000#64, count := 2, len := 4 }
  { w with s := [(63, ⟨x, false⟩)]
           p := { w.p with lc0 := if 1 ≤ n then l else {}, lc1 := if 2 ≤ n then l else {}, lc2 := if 3 ≤ n then l else {} } })
/-- A warp with one level of four instructions from an address on, as a handler may leave it in a record. -/
def loopAt (a : W64) : State := genW (fun w => { w with p := { w.p with lc0 := { active := true, start := a, count := 2, len := 4 } } })
theorem witness_LoopsComplete :
    (∀ n ∈ [0, 1, 2], clearB (looping n 0xFFFFFFFF) { cls := .control, scals := [63], uses := [useS 63] } = true ∧
      (looping n 0xFFFFFFFF).w.p.lc2.active = false ∧ ((looping n 0).w.p.levels ≠ 0 →
        (looping n 0).w.p.pc ≠ ((looping n 0).w.p.lc ((looping n 0).w.p.levels - 1)).endAddr)) ∧
    (Clear (looping 2 0) { cls := .control } ∧ (looping 2 0).w.p.levels ≠ 0) ∧
    ((looping 0 0xFFFFFFFF).w.sr 63).bits.toNat < 2 ^ 32 ∧ 2 ^ 32 ≤ ((looping 0 0x100000000).w.sr 63).bits.toNat ∧
    Clear (looping 0 0x100000000) { cls := .control, scals := [63], uses := [useS 63] } := by
  refine ⟨?_, ⟨clear_of ?_, ?_⟩, ?_, ?_, clear_of ?_⟩ <;> decide +kernel
theorem witness_LoopsComplete_break :
    (Clear (loopAt 0x1000) { cls := .control } ∧ (loopAt 0x1000).w.p.levels = 1 ∧
      (((loopAt 0x1000).w.p.lc 0).start + BitVec.ofNat 64 16).extractLsb' 0 2 = 0) ∧
    (Clear (loopAt 0x1002) { cls := .control } ∧ (loopAt 0x1002).w.p.levels = 1 ∧
      (((loopAt 0x1002).w.p.lc 0).start + BitVec.ofNat 64 16).extractLsb' 0 2 ≠ 0) := by
  refine ⟨⟨clear_of ?_, ?_⟩, ⟨clear_of ?_, ?_⟩⟩ <;> decide +kernel
/-- A path at the end of a loop's body, and one elsewhere, on the last turn and before it; three levels that end together. -/
theorem witness_LoopsComplete_ends : let p (pc : W64) (n : W32) : Path := { pc := pc, lc0 := { active := true, start := 0x1000, count := n, len := 4 } }
    (p 0 1).levels = 1 ∧ ((p 0x100C 1).pc = (p 0 1).lc0.start + BitVec.ofNat 64 (4 * ((p 0 1).lc0.len - 1))) ∧
    (p 0x1008 2).pc + 4 = (p 0 1).lc0.start + BitVec.ofNat 64 (4 * ((p 0 1).lc0.len - 1)) ∧ ({} : Path).levels = 0 ∧
    (let l : Loop := { active := true, start := 0x1000, count := 1, len := 4 }
     let q : Path := { pc := 0x100C, lc0 := { l with count := 2 }, lc1 := l, lc2 := l }
     q.levels = 3 ∧ (∀ k < 2, (q.lc k).active = true) ∧ q.pc = (q.lc 2).start + BitVec.ofNat 64 (4 * ((q.lc 2).len - 1)) ∧ (q.lc 2).count = 1 ∧
      ((q.setLc 2 { l with active := false, count := 0 }).setLc 1 { l with active := false, count := 0 }).levels = 1 ∧ (q.lc 0).count ≠ 1) := by decide +kernel
theorem witness_LoopStateTraps : (Clear (looping 3 0) { cls := .control } ∧ (looping 3 0).w.p.lc2.active = true) ∧
    (Clear (looping 3 0) { cls := .control, scals := [63], uses := [useS 63] }) ∧
    (Clear (looping 0 0) { cls := .control } ∧ (looping 0 0).w.p.levels = 0) ∧
    (let s := genW (fun w => { w with p := { (loopAt 0x1000).w.p with pc := 0x100C }, s := [(63, ⟨0x100000000, false⟩)] })
     Clear s { cls := .control } ∧ Clear s { cls := .control, scals := [63], uses := [useS 63] } ∧ s.w.p.lc2.active = false ∧ s.w.p.levels = 1 ∧
      s.w.p.pc = (s.w.p.lc 0).start + BitVec.ofNat 64 (4 * ((s.w.p.lc 0).len - 1)) ∧ 2 ^ 32 ≤ (s.w.sr 63).bits.toNat) := by
  refine ⟨⟨clear_of ?_, ?_⟩, clear_of ?_, ⟨clear_of ?_, ?_⟩, ⟨clear_of ?_, clear_of ?_, ?_⟩⟩ <;> decide +kernel
/-- A warp at a trap level, whose handler has the frame that begins at 64; the frame that was trapped has eight blocks from 0. -/
def inHandler (m : W32) (lvl : Nat) : State := onlyWarp { warpWith m [] [] [] with
  tlevel := lvl, budget := 192, p := { st := .running, pc := 0x1000#64, mode := m, mask := fullMask, wbase := 64, fsize := 4 }
  bank1 := { fsize := 8 }, bank2 := { fsize := 8 } }
/-- Some lanes and all lanes of a path, with no record, with one of its lanes and with one of others; an empty guard. -/
theorem witness_ExitCompletes : (∀ x ∈ [(true, gen onP2), (false, called 0x80000000#32 0x1004), (false, called fullMask 0x1004)],
      clearB x.2 { guard := x.1, cls := .control, scals := exitScals x.2 (x.2.w.active x.1) } = true ∧ x.2.w.tlevel = 0 ∧ x.2.w.group = none ∧
      (∀ e ∈ x.2.w.tx, e.2.st = .none)) ∧
    (gen onP2).w.p.mask &&& ~~~(gen onP2).w.active true ≠ 0 ∧ (gen onP2).w.p.mask &&& ~~~(gen onP2).w.active false = 0 ∧ (gen onP2).w.recs = [] ∧
    (match exitRecs fullMask (called fullMask 0x1004) with | .ok t => t.w.recs.isEmpty | .error _ => false) = true ∧
    callBody (called 0x80000000#32 0x1004) { body := .call (callRec 0x80000000#32 0x1004) } = .ok (some (callRec 0x80000000#32 0x1004)) ∧
    (callRec 0x80000000#32 0).pmask &&& 0xC#32 = 0 ∧ (gen modeReset).w.active true = 0 := by
  refine ⟨?_, ?_, ?_, ?_, ?_, ok_of ?_, ?_, ?_⟩ <;> decide +kernel
/-- An ACTIVE lane in the path of some lanes. -/
def exiting (m : Mask) : State := dev (fun w => { w with group := some {}, tx := [(0, { st := .active })], p := { w.p with mask := m } })
/-- An IRREVOCABLE lane alone in its path, with and without an access that is still to be performed. -/
theorem witness_ExitCompletes_irrevocable :
    let s (ops : List MemOp) : State := dev (fun w => { w with group := some {}, tx := [(0, { st := .irrevocable })], p := { w.p with mask := 1 }, ops := ops })
    (∀ ops ∈ [[], [{ todo := [{ key := 0x10000 }] }]], clearB (s ops) { cls := .control, scals := exitScals (s ops) 1 } = true ∧
      (s ops).w.tlevel = 0 ∧ (s ops).w.activeTx 1 = 0 ∧ (s ops).w.irrTx 1 = 1) ∧
    ((s []).w.allPerformed = true ∧ (s []).tileBusy = false ∧ (s [{ todo := [{ key := 0x10000 }] }]).w.allPerformed = false) := by decide +kernel
/-- In a handler; records apart that are not current in memory; and an ACTIVE lane alone in its path, and beside another. -/
theorem witness_ExitCompletes_handlers :
    (∀ lvl ∈ [1, 2], clearB (inHandler modeReset lvl) { cls := .control } = true ∧ (inHandler modeReset lvl).w.tlevel ≠ 0) ∧
    (∀ r ∈ (called fullMask 0x1004).w.recs, r.inMem = false) ∧ (called fullMask 0x1004).w.recs.Pairwise (fun r x => r.off ≠ x.off) ∧
    clearB (exiting 1) { cls := .control, scals := exitScals (exiting 1) 1 } = true ∧
    clearB (exiting 3) { cls := .control, scals := exitScals (exiting 3) 3 } = true ∧
    (exiting 1).w.activeTx 1 = 1 ∧ (exiting 3).w.activeTx 3 = 1 ∧ (exiting 1).w.tlevel = 0 ∧ ((exiting 3).w.abort 1 10 0).recs = [] := by decide +kernel
theorem witness_ExitCompletes_records (m : Mask) (t : State) (h : t.w.recs = []) : exitRecs m t = .ok t := by simp [exitRecs, h]

theorem witness_ScalarArithmeticCompletes : Clear (gen modeReset) { cls := .control } ∧
    Clear (gen onP2) { guard := true, cls := .control, scals := [63, 0], uses := [useS 0] } ∧
    Clear (gen onP2) { guard := true, cls := .control, scals := [63, 0, 63], uses := [useS 0, useS 63] } ∧
    Clear (gen onDzt) { cls := .control, scals := [0, 63, 0], uses := [useS 63, useS 0] } :=
  ⟨clear_of (by decide +kernel), clear_of (by decide +kernel), clear_of (by decide +kernel), clear_of (by decide +kernel)⟩
theorem witness_ScalarComparisonCompletes :
    Clear (gen onP2) { guard := true, cls := .control, scals := [0, 63], uses := [useS 0, useS 63] } := clear_of (by decide +kernel)
theorem witness_ScalarMovesComplete : Clear (gen modeReset) { cls := .control, scals := [63] } ∧
    Clear (gen onP2) { guard := true, len := 8, cls := .control, scals := [0] } ∧
    Clear (gen onP2) { guard := true, cls := .control, scals := [0, 1, 63, 2], uses := [useS 2] } :=
  ⟨clear_of (by decide +kernel), clear_of (by decide +kernel), clear_of (by decide +kernel)⟩
theorem witness_PredicatesAndModeComplete : Clear (gen onP2) { guard := true, cls := .control } ∧
    Clear (gen onP2) { guard := true, cls := .control, scals := [63] } ∧
    Clear (gen onP2) { guard := true, cls := .control, scals := [63], uses := [useS 63] } ∧
    Clear (gen modeReset) { cls := .control } ∧ Clear (gen modeReset) { cls := .control, scals := [0], uses := [useS 0] } ∧
    Clear (gen modeReset) { cls := .control, scals := [0] } :=
  ⟨clear_of (by decide +kernel), clear_of (by decide +kernel), clear_of (by decide +kernel), clear_of (by decide +kernel),
    clear_of (by decide +kernel), clear_of (by decide +kernel)⟩

/-- MODE with TA and TB of type ty, and a guard on p2. -/
def ofType (ty : Nat) : W32 := BitVec.ofNat 32 (16 * ty + 512 * ty) ||| 2#32
theorem witness_VectorArithmeticCompletes : (intType 7 = true ∧ isSigned 7 = true ∧ intType 9 = true) ∧
    Clear (gen (ofType 7)) { guard := true, cls := .vector, regs := [vop 63 7, vop 0 7, vop 63 7], uses := [useV 0 7, useV 63 7] } ∧
    Clear (gen (ofType 9)) { guard := true, cls := .vector, regs := [vop 62 9, vop 0 9], uses := [useV 0 9] } ∧
    Clear (gen (ofType 6)) { guard := true, cls := .vector, regs := [vop 63 6, vop 0 6, vop 1 6, vop 63 6], uses := [useV 0 6, useV 1 6, useV 63 6] } := by
  refine ⟨by decide, clear_of ?_, clear_of ?_, clear_of ?_⟩ <;> decide +kernel
theorem witness_VectorLogicCompletes : logType 8 = true ∧ logType 28 = true ∧
    Clear (gen (ofType 8)) { guard := true, cls := .vector, regs := [vop 62 8, vop 0 8, vop 62 8], uses := [useV 0 8, useV 62 8] } ∧
    Clear (gen (ofType 28)) { guard := true, cls := .vector, regs := [vop 63 28, vop 0 28], uses := [useV 0 28] } := by
  refine ⟨by decide, by decide, clear_of ?_, clear_of ?_⟩ <;> decide +kernel
theorem witness_VectorFieldsAndDivisionComplete : (wordType 6 = true ∧ wordType 8 = true ∧ moveType 8 = true) ∧
    Clear (gen (ofType 8)) { guard := true, cls := .vector, regs := [vop 62 8, vop 0 8, vop1 63], uses := [useV 0 8, useV1 63] } ∧
    Clear (gen (ofType 6)) { guard := true, cls := .vector, regs := [vop 63 6, vop 0 6, vop1 1, vop 63 6], uses := [useV 0 6, useV1 1, useV 63 6] } ∧
    Clear (gen (ofType 6)) { guard := true, cls := .vector, regs := [vop 0 6, vop 63 6], uses := [useV 0 6, useV 63 6] } ∧
    Clear (gen (ofType 8)) { guard := true, cls := .vector, regs := [vop 62 8, vop 0 8, vop 62 8] } := by
  refine ⟨by decide, clear_of ?_, clear_of ?_, clear_of ?_, clear_of ?_⟩ <;> decide +kernel
/-- The division clauses: with DZT set and zero divisors in every lane, with DZT set and none, and with DZT clear. -/
theorem witness_VectorDivision :
    let zeros (s : State) : Mask := maskOf (fun l => (s.w.active false).getLsbD l && decide (s.w.opnd 7 2 l = 0))
    let full : State := let t := laneState (types 7 7 ||| 0x80000#32) [(2, 0, 1#32)]
      { t with w := { t.w with p := { t.w.p with mask := 1 } } }
    clearB (gen (types 7 7)) { cls := .vector, regs := [vop 3 7, vop 1 7, vop 2 7], uses := [useV 1 7, useV 2 7] } = true ∧
    clearB (gen (types 7 7 ||| 0x80000#32)) { cls := .vector, regs := [vop 3 7, vop 1 7, vop 2 7], uses := [useV 1 7, useV 2 7] } = true ∧
    ((gen (types 7 7 ||| 0x80000#32)).w.p.dzt = true ∧ zeros (gen (types 7 7 ||| 0x80000#32)) ≠ 0) ∧ (full.w.p.dzt = true ∧ zeros full = 0) ∧
    (gen (types 7 7)).w.p.dzt = false := by decide +kernel
theorem witness_VectorMovesComplete : moveType 8 = true ∧
    Clear (gen (ofType 8)) { guard := true, cls := .vector, regs := [vop 62 8, vop 0 8] } ∧
    Clear (gen (ofType 8)) { guard := true, cls := .vector, regs := [vop 62 8], scals := [63] } ∧
    Clear (gen (ofType 8)) { guard := true, cls := .vector, regs := [vop 62 8], scals := [63, 0], uses := [useS 0] } ∧
    Clear (gen (ofType 8)) { guard := true, cls := .vector, regs := [vop1 63] } ∧
    Clear (gen (ofType 8)) { guard := true, len := 8, cls := .vector, regs := [vop1 63] } ∧
    Clear (gen (ofType 6)) { guard := true, cls := .vector, regs := [vop 63 6], outer := [(63, 1)] } ∧
    (let s := inHandler (types 9 9) 2
     Clear s { cls := .vector, regs := [vop 30 9], outer := [((s.w.bank s.w.tlevel).wbase + 62, 2)] } ∧ s.w.tlevel ≠ 0 ∧
      62 + 2 ≤ 8 * (s.w.bank s.w.tlevel).fsize ∧ 62 % 2 = 0 ∧
      ∀ i < 2, s.w.spilled.contains (((s.w.bank s.w.tlevel).wbase + 62 + i) / 8) = false) ∧
    (∀ lvl < 3, let s := inHandler (types 9 9) lvl
     clearB s { cls := .vector, regs := [vop 30 9], outer := [((s.w.bank s.w.tlevel).wbase + 63, 2)] } = true ∧ moveType 9 = true ∧
      wideType 9 = true ∧ 63 % 2 = 1 ∧ 8 * (s.w.bank 2).fsize < 63 + 2) := by
  refine ⟨by decide, clear_of ?_, clear_of ?_, clear_of ?_, clear_of ?_, clear_of ?_, clear_of ?_, ⟨clear_of ?_, ?_⟩, ?_⟩ <;> decide +kernel
/-- F32, F64 and packed F16; FPT clear, and set with a lane that raises IV and with none. -/
theorem witness_FloatArithmeticAndComparisonComplete : (arithType 12 = true ∧ arithType 26 = true ∧ floatType 13 = true) ∧
    Clear (gen (ofType 13)) { guard := true, cls := .vector, regs := [vop 62 13, vop 0 13, vop 62 13], uses := [useV 0 13, useV 62 13] } ∧
    Clear (gen (ofType 26)) { guard := true, cls := .vector, regs := [vop 63 26, vop 0 26], uses := [useV 0 26] } ∧
    Clear (gen (ofType 13)) { guard := true, cls := .vector, regs := [vop 62 13, vop 0 13, vop1 63], uses := [useV 0 13, useV1 63] } ∧
    Clear (gen (ofType 12)) { guard := true, cls := .vector, regs := [vop 63 12, vop 0 12, vop 1 12, vop 63 12], uses := [useV 0 12, useV 1 12, useV 63 12] } ∧
    Clear (gen (ofType 27)) { guard := true, cls := .vector, regs := [vop 63 12, vop 0 12, vop 1 12, vop 63 12], uses := [useV 0 12, useV 1 12, useV 63 12] } ∧
    Clear (gen (ofType 12)) { guard := true, cls := .vector, regs := [vop 0 12, vop 63 12], uses := [useV 0 12, useV 63 12] } ∧
    ((gen (ofType 12)).w.p.fpt = false ∧ (gen (types 12 12 ||| 0x100000#32)).w.p.fpt = true) := by
  refine ⟨by decide, clear_of ?_, clear_of ?_, clear_of ?_, clear_of ?_, clear_of ?_, clear_of ?_, ?_⟩ <;> decide +kernel
/-- Under FPT, FADD of a signalling NaN raises IV in lane 0 and of zeros in no lane; so does the comparison of a signalling NaN. -/
theorem witness_FloatTraps :
    let iv (v : List (Nat × Nat × W32)) : Mask :=
      let s := laneState (types 12 12 ||| 0x100000#32) v
      maskOf (fun l => (s.w.active false).getLsbD l && (onFloats s.w.p 12 fAdd (s.w.opnd 12 1 l) (s.w.opnd 12 2 l)).2.getLsbD 4)
    iv [(1, 0, 0x7F800001)] ≠ 0 ∧ iv [] = 0 ∧ (readF (fmtFor 12) false 0x7F800001).isSig = true := by decide +kernel
theorem witness_SpecialFunctionsAndConversionsComplete :
    (floatType 13 = true ∧ approxType 12 = true ∧ scalarType 12 = true ∧ isPacked 26 = true) ∧
    Clear (gen (ofType 13)) { guard := true, cls := .vector, regs := [vop 62 13, vop 0 13], uses := [useV 0 13] } ∧
    Clear (gen (ofType 12)) { guard := true, cls := .vector, regs := [vop 63 12, vop 0 12, vop 63 12], uses := [useV 0 12, useV 63 12] } ∧
    Clear (gen (ofType 13)) { guard := true, cls := .vector, regs := [vop1 63, vop 62 13], uses := [useV 62 13] } ∧
    Clear (gen (types 12 26 ||| 2#32)) { guard := true, cls := .vector, regs := [vop 63 12, vop 0 26], uses := [useV 0 26] } ∧
    Clear (gen (types 26 12 ||| 2#32)) { guard := true, cls := .vector, regs := [vop 63 26, vop 0 12, vop 63 12], uses := [useV 0 12, useV 63 12] } := by
  refine ⟨by decide, clear_of ?_, clear_of ?_, clear_of ?_, clear_of ?_, clear_of ?_⟩ <;> decide +kernel
theorem witness_LanePermutationsComplete : moveType 8 = true ∧
    Clear (gen (ofType 8)) { guard := true, cls := .vector, regs := [vop 62 8, vop 0 8], scals := [63], uses := [useV1 62] } ∧
    Clear (gen (ofType 8)) { guard := true, cls := .vector, regs := [vop 62 8, vop 0 8], scals := [63], uses := [useS 63] } ∧
    Clear (gen (ofType 8)) { guard := true, cls := .vector, regs := [vop1 63, vop 62 8], uses := [useV 62 8] } ∧
    Clear (gen (ofType 8)) { guard := true, cls := .vector, scals := [63] } ∧
    Clear (gen (ofType 8)) { guard := true, cls := .vector, regs := [vop1 63] } := by
  refine ⟨by decide, clear_of ?_, clear_of ?_, clear_of ?_, clear_of ?_, clear_of ?_⟩ <;> decide +kernel
/-- A type that each operation takes, with and without SAT, and float sums with and without IV. -/
theorem witness_ReductionsAndScansComplete : (∀ ty ∈ [7, 9], clearB (gen (ofType ty)) { guard := true, cls := .vector, regs := [vop 62 ty, vop 0 ty], uses := [useV 0 ty] } = true) ∧
    ([redAdd, redMin, redMax, redAnd, redOr, redXor].all (fun r => r.legal 7) = true ∧ [redFadd, redFmin, redFmax].all (fun r => r.legal 12) = true) ∧
    redAdd.sums = true ∧ redFadd.sums = false ∧ (gen (ofType 7 ||| 0x20000#32)).w.p.sat = true ∧ (gen (ofType 7)).w.p.sat = false ∧
    (let raised (x : Nat) : BitVec 5 :=
       let ys := laneSteps (redFadd.op { mode := types 12 12 } 12) treePair (x :: List.replicate 31 0)
       (lanesOf fullMask).foldl (fun f l => f ||| (ys.getD l (0, 0)).2) 0
     (raised 0x7F800001).getLsbD 4 = true ∧ (raised 0).getLsbD 4 = false) ∧
    (gen (types 12 12 ||| 0x100000#32)).w.p.fpt = true ∧ (gen (types 12 12)).w.p.fpt = false := by decide +kernel
theorem witness_ReductionTreeSums : (6 ≤ 9 ∧ 9 ≤ 9) ∧ ∀ l, (fun l => l % 2 ^ 64) l < 2 ^ typeBits 9 :=
  ⟨by decide, fun l => Nat.mod_lt l (by decide)⟩

/-- A warp that sends, with another of the same workgroup. -/
def xferAt (x : List (Nat × Xfer)) (blk : Option Nat) (gr : Option Grant) : State :=
  { dev (fun w => { w with block := blk, grant := gr }) with wgs := [(1, { live := true, xfer := x })] }
/-- A FREE slot; a slot with a sender of as many registers, and one with a receiver, at slot 15 and count 16 from v48; a
completed transfer. -/
theorem witness_TransfersComplete :
    (Clear (xferAt [] none none) { cls := .vector, regs := [{ n := 48, cnt := 16 }] } ∧ NoTx (xferAt [] none none) false) ∧
    (let s := xferAt [(15, { busy := true, send := true, wid := 2, n := 16, first := 0, act := 1 })] none none
     let x := look {} (s.wg s.w.wg).xfer 15
     Clear s { cls := .vector, regs := [{ n := 48, cnt := 16 }] } ∧ NoTx s false ∧ s.w.block ≠ some 8 ∧ x.busy = true ∧ x.wid ≠ s.w.wid ∧
      x.send = !false ∧ x.send = true ∧ x.n = 16) ∧
    (let s := xferAt [] (some 8) (some .done)
     Clear s { cls := .vector, regs := [{ n := 63, cnt := 1 }] } ∧ NoTx s false ∧ s.w.block = some 8 ∧ s.w.grant = some .done) ∧
    (∀ x ∈ [({ busy := true, send := true, wid := 2, n := 15 } : Xfer), { busy := true, send := true, wid := 1, n := 16 }],
     let s := xferAt [(15, x)] none none
     clearB s { cls := .vector, regs := [{ n := 48, cnt := 16 }] } = true ∧ s.w.activeTx (s.w.active false) = 0 ∧ s.w.block ≠ some 8 ∧ s.w.wid = 1 ∧
      (x.wid = 2 → x.send = !false ∧ x.n ≠ 16)) ∧
    ((xferAt [] (some 8) (some (.trap 0x19 0))).w.grant = some (.trap 0x19 0)) ∧
    (look {} ((xferAt [] none none).wg 1).xfer 15).busy = false := by
  refine ⟨⟨clear_of ?_, noTx_of ?_⟩, ⟨clear_of ?_, noTx_of ?_, ?_⟩, ⟨clear_of ?_, noTx_of ?_, ?_⟩, ?_, ?_, ?_⟩ <;> decide +kernel
/-- The last warp to arrive completes the collective; a warp of two waits. -/
def regrouping (others : List Warp) : State := { dev id with others := others }
def arrived (s : State) : State := regroupTry 1 (s.setWg 1 { s.wg 1 with regroup := [{ wid := 1, d := 48, a := 47, n := 16, act := fullMask }] })
theorem witness_RegroupCompletes :
    (let s := dev (fun w => { w with block := some 9, grant := some .done })
     Clear s { cls := .vector, regs := [{ n := 48, cnt := 16 }, vop1 47] } ∧ NoTx s false ∧ s.w.block = some 9 ∧ s.w.grant = some .done) ∧
    (let s := regrouping []
     Clear s { cls := .vector, regs := [{ n := 48, cnt := 16 }, vop1 47] } ∧
      Clear s { cls := .vector, regs := [{ n := 63, cnt := max 1 0 }, vop1 47] } ∧ NoTx s false ∧ s.w.recs = [] ∧ s.w.q.held = false ∧ s.w.p.levels = 0 ∧
      s.w.p.fdepth = 0 ∧ s.w.tlevel = 0) ∧
    (arrived (dev (fun w => { w with p := { w.p with mask := 1 } }))).w.grant = some .done ∧
    (arrived (regrouping [{ (dev id).w with wid := 2, warpid := 1 }])).w.grant = none := by
  refine ⟨⟨clear_of ?_, noTx_of ?_, ?_⟩, ⟨clear_of ?_, clear_of ?_, noTx_of ?_, ?_⟩, ?_, ?_⟩ <;> decide +kernel
/-- A path with a call, a stacked path, another slot held, and a loop. -/
theorem witness_RegroupStateTraps :
    (let s := dev (fun w => { w with p := { w.p with fdepth := 1 } })
     Clear s { cls := .vector, regs := [{ n := 48, cnt := 16 }, vop1 47] } ∧ NoTx s false ∧ s.w.p.fdepth ≠ 0) ∧
    (let s := dev (fun w => { w with recs := [{ body := .split heldQ }] })
     Clear s { cls := .vector, regs := [{ n := 48, cnt := 1 }, vop1 63] } ∧ NoTx s false ∧ s.w.recs = [{ body := .split heldQ }]) ∧
    (let s := dev (fun w => { w with q := heldQ })
     Clear s { cls := .vector, regs := [{ n := 48, cnt := 16 }, vop1 0] } ∧ NoTx s false ∧ s.w.q.held = true) ∧
    (let s := dev (fun w => { w with p := (looping 1 0).w.p })
     Clear s { cls := .vector, regs := [{ n := 48, cnt := 16 }, vop1 0] } ∧ NoTx s false ∧ s.w.p.levels ≠ 0) := by
  refine ⟨⟨clear_of ?_, noTx_of ?_, ?_⟩, ⟨clear_of ?_, noTx_of ?_, ?_⟩, ⟨clear_of ?_, noTx_of ?_, ?_⟩, ⟨clear_of ?_, noTx_of ?_, ?_⟩⟩ <;> decide +kernel

/-- Loads and stores of UI32 at the last word of the page, and of the segment; of F64 at the first doubleword. -/
def memW : State := devM (types 6 6 ||| 2#32) [(1, ⟨0x1FFFC, false⟩), (2, ⟨1, false⟩), (3, ⟨0, false⟩)]
  [(32 * 5 + 2, ⟨4092, false⟩), (32 * 5 + 3, ⟨4092, false⟩)]
theorem witness_LoadsAndStoresIssue : memType 6 = true ∧ memType 13 = true ∧ Untouched memW true ∧ memW.w.ld < 63 ∧ memW.w.st < 63 ∧ (memW.tileBusy = false ∧ memW.w.raysOpen = false) ∧
    Clear memW { guard := true, cls := .memory, regs := [vop 63 6, vop1 4], scals := [1], uses := [useS 1, useV1 4] } ∧
    Passes (fun l => checkGlobal memW memW.w (0x1FFFC + (memW.w.vl 4 l).bits.signExtend 64) 4 .read) (memW.w.active true) (fun _ => { key := 0x1FFFC }) ∧
    Passes (fun l => checkGlobal memW memW.w (0x1FFFC + (memW.w.vl 4 l).bits.signExtend 64) 4 .write) (memW.w.active true) (fun _ => { key := 0x1FFFC }) ∧
    Clear memW { guard := true, cls := .memory, regs := [vop 63 6, vop1 5], scals := [2], uses := [useS 2, useV1 5] } ∧
    Passes (fun l => checkScratch memW memW.w 1 (memW.w.vl 5 l).bits.toNat 4 4 .read) (memW.w.active true) (fun _ => { key := scratchKey 1 4092, l1 := false }) ∧
    Passes (fun l => checkScratch memW memW.w 1 (memW.w.vl 5 l).bits.toNat 4 4 .write) (memW.w.active true) (fun _ => { key := scratchKey 1 4092, l1 := false }) ∧
    Clear memW { guard := true, cls := .memory, scals := [63, 1, 3], uses := [useS 1, useS 3] } ∧
    Passes (fun _ => checkGlobal memW memW.w 0x1FFFC 4 .read) (memW.w.active true) (fun _ => { key := 0x1FFFC }) ∧
    Passes (fun _ => checkGlobal memW memW.w 0x1FFFC 4 .write) (memW.w.active true) (fun _ => { key := 0x1FFFC }) := by
  refine ⟨?_, ?_, untouched_of ?_, ?_, ?_, ?_, clear_of ?_, passes_of ?_, passes_of ?_, clear_of ?_, passes_of ?_, passes_of ?_, clear_of ?_, passes_of ?_, passes_of ?_⟩ <;>
    decide +kernel
/-- Atomics of UI64 with AOP 9 (compare and swap) at the end of the page, of UI32 with AOP 0 in scratch. -/
def atomW : State := devM (types 8 8) [(1, ⟨0x1FFF8, false⟩), (2, ⟨1, false⟩)] []
theorem witness_AtomicsIssue : atomLegal 9 8 = true ∧ atomLegal 0 8 = true ∧ Untouched atomW false ∧ atomW.w.ld < 63 ∧ (atomW.tileBusy = false ∧ atomW.w.raysOpen = false) ∧ atomW.w.st < 63 ∧
    Clear atomW { cls := .memory, regs := [vop 62 8, { n := 4, even := true }, { n := 6, cnt := 4 }], scals := [1]
                  uses := [useS 1, useV1 4, { n := 4, cnt := 4, off := 2 }] } ∧
    Clear atomW { cls := .memory, regs := [{ n := 4, even := true }, { n := 6, cnt := 2 }], scals := [1]
                  uses := [useS 1, useV1 4, { n := 4, cnt := 2, off := 2 }] } ∧
    Passes (fun l => checkGlobal atomW atomW.w (0x1FFF8 + (atomW.w.vl 4 l).bits.signExtend 64) 8 .rmw) (atomW.w.active false) (fun _ => { key := 0x1FFF8 }) ∧
    Passes (fun l => checkScratch atomW atomW.w 1 (atomW.w.vl 4 l).bits.toNat 8 8 .rmw) (atomW.w.active false) (fun _ => { key := scratchKey 1 0, l1 := false }) := by
  refine ⟨?_, ?_, untouched_of ?_, ?_, ?_, ?_, clear_of ?_, clear_of ?_, passes_of ?_, passes_of ?_⟩ <;> decide +kernel
/-- The device with one outstanding operation: its core's L1 holds a line, and one word of memory is poisoned. -/
def outstandingOp (o : MemOp) : State :=
  let s := storeMem 0x10000 8 0 true (dev (fun w => { w with ops := [o] }))
  { s with cores := [(0, { l1 := [(lineOf 0x1FFFF, { live := true })], behind := true })] }
/-- One outstanding load to s5 at the last byte of the page, in the L1 and past it, to the scalar and to a vector register; a store,
an atomic at a good word and at a poisoned one, a RED and a write-back; an acquire; and stores of two lanes. -/
theorem witness_MemoryOperationCompletes :
    let r : MemOp := { dst := .scalar 5 1 true, todo := [{ key := 0x1FFFF, size := 1 }] }
    let rv : MemOp := { dst := .vec 63 8 false, acq := true, drop := true, todo := [{ key := 0x1FFF8, size := 8, slot := 31, l1 := false }] }
    let w : MemOp := { cls := .st, todo := [{ kind := .write, key := 0x1FFF8, size := 8, x := 0x0123456789ABCDEF#64 }] }
    let t (k : AccKind) (d : Dest) (key : Nat) : MemOp := { cls := .st, dst := d, todo := [{ kind := k, key := key, size := 4, x := 1 }] }
    let two : MemOp := { cls := .st, todo := [{ kind := .write, key := 0x10000, size := 1, x := 1 }, { slot := 1, kind := .write, key := 0x10001, size := 1, x := 2 }] }
    (∀ o ∈ [r, rv, w, t (.atomic 0 6) (.vec 5 4 false) 0x10008, t (.atomic 0 6) (.vec 5 4 false) 0x10000, t (.reduce 0 6) .none 0x10008,
        t (.reduce 0 6) .none 0x10000, t .writeBack .none 0x10000, two],
      (outstandingOp o).w.resident = true ∧ (outstandingOp o).w.live = true ∧ (outstandingOp o).w.ops = [o] ∧ o.done = false ∧ o.wait = false ∧ o.got = [] ∧
      (∀ a ∈ o.todo, fullMask.getLsbD (a.slot % 32) = true ∧ isRemote a.key = false ∧ 1 ≤ a.size ∧ a.size ≤ 8)) ∧
    (look {} ((outstandingOp r).core 0).l1 (lineOf 0x1FFFF)).live = true ∧ (look {} ((outstandingOp w).core 0).l1 (lineOf 0x10008)).live = false ∧
    isBad (outstandingOp r) 0x10000 = true ∧ isBad (outstandingOp r) 0x10008 = false ∧
    (two.todo ≠ [] ∧ two.acq = false ∧ two.rel = false ∧ two.drop = false ∧ (two.todo.map (fun a => a.slot)).Nodup) ∧
    (outstandingOp w).w.raysOpen = false ∧
    (outstandingOp w).w.batches = [] ∧
    (let b : Batch := { base := 0x10000, seq := 1 }
     b.done = false ∧ b.seq ≤ 1 ∧ 2 ^ 100 ≤ scratchKey 0 0 ∧ isRemote (scratchKey 0 0) = false) := by decide +kernel

/-- The device, its segment's handles and free bytes as given, and s63 a value. -/
def handlesAt (x : W64) (free : Nat) (hs : List (Nat × Handle)) (f : Warp → Warp) : State :=
  { dev (fun w => f { w with s := [(63, ⟨x, false⟩)] }) with
    wgs := [(1, { live := true, kern := 1, launch := 1, reserve := 8192, free := free, handles := hs })] }
/-- TALLOC of 1 by 32 bytes with room for exactly it, of the greatest shape without room; TALLOC and TFREE once their
collective has granted them; TFREE of handle 1. -/
theorem witness_ScratchAllocationAndInformation :
    Clear (dev id) { cls := .memory, scals := [63] } ∧
    (let s := handlesAt 0x10001 256 [] id
     Clear s { cls := .memory, scals := [0, 63], uses := [useS 63] } ∧ NoTx s false ∧ s.w.block ≠ some 9 ∧
      ∃ h, shapeOf 0x10001 = some h ∧ h.cluster = false ∧ firstHandle (fun n => !(look {} (s.wg s.w.wg).handles n).live) = some 0 ∧ h.need ≤ (s.wg s.w.wg).free) ∧
    (let s := handlesAt 0x00014000 4096 [] id
     Clear s { cls := .memory, scals := [0, 63], uses := [useS 63] } ∧ NoTx s false ∧
      ∃ h, shapeOf 0x00014000 = some h ∧ h.cluster = false ∧ (s.wg s.w.wg).free < h.need) ∧
    (let s := handlesAt 0x10010001 0 [] (fun w => { w with block := some 9, grant := some (.value 1 0) })
     Clear s { cls := .memory, scals := [0, 63], uses := [useS 63] } ∧ NoTx s false ∧ s.w.block = some 9 ∧ s.w.grant = some (.value 1 0)) ∧
    (let s := handlesAt 63 4096 [(63, { live := true, rows := 16, rowb := 8, seg := 1 })] id
     Clear s { cls := .memory, scals := [63], uses := [useS 63] } ∧ NoTx s false ∧ s.w.block ≠ some 9 ∧ (handleOf s s.w 63).isSome = true ∧
      (look {} (s.wg s.w.wg).handles 63).cluster = false ∧ segsBusy s s.w.wg [1] = false) ∧
    (let s := handlesAt 1 0 [] (fun w => { w with block := some 9, grant := some .done })
     Clear s { cls := .memory, scals := [63], uses := [useS 63] } ∧ NoTx s false ∧ s.w.block = some 9 ∧
      (clusterTry (s.wg s.w.wg).launch true s).w.grant = some .done) := by
  refine ⟨clear_of ?_, ⟨clear_of ?_, noTx_of ?_, ?_, ⟨_, rfl, rfl, ?_⟩⟩, ⟨clear_of ?_, noTx_of ?_, ⟨_, rfl, rfl, ?_⟩⟩, ⟨clear_of ?_, noTx_of ?_, ?_⟩,
    ⟨clear_of ?_, noTx_of ?_, ?_⟩, ⟨clear_of ?_, noTx_of ?_, ?_⟩⟩ <;> decide +kernel

/-- Counters at their bound and above it; hints and line write-backs at the last line of the page; ICINV. -/
def outstanding : Warp → Warp := fun w => { w with s := [(1, ⟨0x1FFFF, false⟩)], ops := [{ todo := [{ key := 0x10000 }] }] }
theorem witness_WaitsAndCacheControlComplete :
    (Clear (dev outstanding) { cls := .memory } ∧ (dev outstanding).w.ld = 1 ∧ (dev outstanding).w.ld ≤ (63#6).toNat ∧
      ¬ (dev outstanding).w.ld ≤ (0#6).toNat ∧ (dev outstanding).w.st ≤ (0#6).toNat ∧ (dev outstanding).w.cp ≤ (0#6).toNat ∧
      (dev outstanding).w.tl ≤ (0#6).toNat ∧ (dev outstanding).w.cpFaults = []) ∧
    (Clear (dev outstanding) { cls := .memory, scals := [63], uses := [useS 63] } ∧ ((dev outstanding).w.sr 63).bits.toNat < (dev outstanding).w.ld ∧
      (dev outstanding).w.st ≤ ((dev outstanding).w.sr 63).bits.toNat) ∧
    (hintLines (dev outstanding) 1 63 ((dev outstanding).w.active false) = List.replicate 32 (lineOf 0x1FFFF, true) ∧
      ((dev outstanding).core 0).l1.length + 32 ≤ 2048) ∧
    Clear (dev outstanding) { cls := .memory, regs := [vop1 63], scals := [1] } ∧ NoTx (dev outstanding) false ∧ Untouched (dev outstanding) false ∧
    Clear (dev outstanding) { cls := .memory, regs := [vop1 63], scals := [1], uses := [useS 1, useV1 63] } ∧ (dev outstanding).w.st < 63 ∧
    Passes (fun l => lineChecks (dev outstanding) 1 63 l) ((dev outstanding).w.active false) (fun _ => { key := 0x1FFFF }) := by
  refine ⟨⟨clear_of ?_, ?_⟩, ⟨clear_of ?_, ?_⟩, ?_, clear_of ?_, noTx_of ?_, untouched_of ?_, clear_of ?_, ?_, passes_of ?_⟩ <;> decide +kernel

/-- A barrier object at offset 4080 of handle 1, with one pending arrival, in phase 0; the last word of an object names it. -/
def barWord : W64 := 1 + 4080 * 65536
def barAt (flags : W64) (f : Warp → Warp) : State :=
  storeMem (scratchKey 1 4088) 8 (flags * 0x10000) false (storeMem (scratchKey 1 4080) 8 0x00010001#64 false
    (dev (fun w => f { w with s := [(1, ⟨barWord, false⟩), (2, ⟨1, false⟩)] })))
theorem witness_FencesAndBarrierObjectsComplete :
    let s := barAt 8 id
    let key := scratchKey 1 4080
    let obj := readBar s key
    NoTx s false ∧ Clear s { cls := .barrier } ∧ (s.w.allPerformed = true ∧ s.tileBusy = false) ∧
      (barAt 8 outstanding).w.allPerformed = false ∧ ownPending s.w key = false ∧ orderPending s.w true = false ∧
      barCheck s s.w barWord false = .ok key ∧ barCheck s s.w barWord true = .ok key ∧
      Clear s { cls := .barrier, scals := [1], uses := [useS 1] } ∧ Clear s { cls := .barrier, scals := [1, 2], uses := [useS 1, useS 2] } ∧
      (obj.valid = true ∧ obj.retired = false ∧ obj.pend ≠ 0) ∧ (1 ≤ (s.w.sr 2).bits.toNat ∧ (s.w.sr 2).bits.toNat ≤ 65535) ∧
      obj.phase ≠ (s.w.sr 2).bits.getLsbD 0 ∧ obj.phase = (s.w.sr 3).bits.getLsbD 0 ∧
      obj.poison true = false ∧ (readBar (barAt 12 id) key).poison true = true ∧
      (let w : Warp := (barAt 8 (fun w => { w with ops := [{ rel := true, todo := [{ key := 0x10000 }] }] })).w
       ownPending w key = false ∧ orderPending w false = false ∧ orderPending w true = true) := by
  refine ⟨noTx_of ?_, clear_of ?_, ?_, ?_, ?_, ?_, rfl, rfl, clear_of ?_, clear_of ?_, ?_⟩ <;> decide +kernel

/-- No arrival yet; an arrival in the current phase; a completed arrival of WGBAR whose phase has passed. -/
theorem witness_HardwareBarriersComplete :
    let s0 := dev id
    let s1 := dev (fun w => { w with wgTok := { arrived := true, phase := 0 }, clTok := { arrived := true, phase := 0 } })
    let s2 := dev (fun w => { w with block := some 7, grant := some .done, wgTok := { arrived := true, phase := 1 } })
    (Clear s0 { cls := .barrier } ∧ NoTx s0 false ∧ (s0.w.token false).open_ (hwBar false s0) = false ∧ (s0.w.token true).open_ (hwBar true s0) = false ∧
      s0.w.allPerformed = true ∧ s0.tileBusy = false ∧ s0.w.block ≠ some 7) ∧
    (Clear (dev outstanding) { cls := .barrier } ∧ NoTx (dev outstanding) false ∧ (dev outstanding).w.allPerformed = false) ∧
    (Clear s1 { cls := .barrier } ∧ NoTx s1 false ∧ (s1.w.token false).open_ (hwBar false s1) = true ∧ (s1.w.token true).open_ (hwBar true s1) = true ∧
      (s1.w.block = some 7 → s1.w.grant ≠ some .done)) ∧
    (Clear s2 { cls := .barrier } ∧ NoTx s2 false ∧ s2.w.block = some 7 ∧ s2.w.grant = some .done ∧ (s2.w.token false).open_ (hwBar false s2) = false) := by
  refine ⟨⟨clear_of ?_, noTx_of ?_, ?_⟩, ⟨clear_of ?_, noTx_of ?_, ?_⟩, ⟨clear_of ?_, noTx_of ?_, ?_⟩, ⟨clear_of ?_, noTx_of ?_, ?_⟩⟩ <;> decide +kernel

/-- A lane in a logged transaction with one word in each log, whose read still holds, alone in its path. -/
def inTx : Warp → Warp := fun w => { w with
  group := some {}, tx := [(31, { st := .active, rlog := [{ key := 0x10000 }], wlog := [{ key := 0x10008, val := 5, bytes := 0xFF }] })]
  p := { w.p with mask := 1#32 <<< 31 } }
/-- TXEND meets a lane to commit, one that is irrevocable, one that is aborted beside lanes that are in no transaction, and aborted
lanes alone. A commit meets a changed word, and a log that holds. That a slice is full is a free value: no witness shows it. -/
theorem witness_TransactionsComplete :
    (let s := dev id
     Clear s { cls := .memory } ∧ s.w.tlevel = 0 ∧ s.w.group = none ∧ s.w.resvOk s.w.txResv = true ∧ txSetFree s = true ∧
      (tabardOf (grantTabards (askTabard (domainOf s 0) s)) (domainOf s 0)).holder = some s.w.wid ∧
      ∀ l, s.w.p.mask.getLsbD l = true → (s.w.txl l).st = .none) ∧
    (let s : State := { dev id with tabards := [{ dom := .cluster 0, holder := some 2 }] }
     Clear s { cls := .memory } ∧ (tabardOf (grantTabards (askTabard (domainOf s 3) s)) (domainOf s 3)).holder ≠ some s.w.wid) ∧
    (let s := dev inTx
     Clear s { cls := .memory } ∧ (∃ gr, s.w.group = some gr ∧ s.w.p.fdepth = gr.depth) ∧ s.w.allPerformed = true ∧ s.tileBusy = false ∧
      s.w.p.mask &&& (s.w.txMask .active ||| s.w.txMask .aborted ||| s.w.txMask .irrevocable) ≠ 0 ∧
      (meetsTabard s (s.w.txl 31) = false ∧ ∀ e ∈ (s.w.txl 31).rlog, BitVec.ofNat 64 (rdMem s.mem e.key 8) = e.val)) ∧
    (let routedOf (ts : List (Nat × TxLane)) (m : Mask) : Mask × Mask :=
       let s := dev (fun w => { inTx w with tx := ts, p := { w.p with mask := m } })
       let s1 := (lanesOf (s.w.activeTx m)).foldl (fun t l => commitLane l t) s
       (m &&& s1.w.txMask .aborted, m &&& ~~~(m &&& s1.w.txMask .aborted))
     routedOf [(31, { st := .active, rlog := [{ key := 0x10000, val := 1 }] })] (1#32 <<< 31) = (1#32 <<< 31, 0) ∧
      routedOf [(0, { st := .aborted }), (1, { st := .irrevocable })] fullMask = (1, 0xFFFFFFFE) ∧ routedOf [(0, { st := .active })] 1 = (0, 1)) ∧
    (Clear (dev inTx) { cls := .memory, scals := [63] } ∧ Clear (dev inTx) { cls := .memory, regs := [vop1 63] }) ∧
    (let s := dev (fun w => { inTx w with group := some { depth := 1 } })
     Clear s { cls := .memory } ∧ s.w.tlevel = 0 ∧ s.w.p.fdepth ≠ 1 ∧ s.w.p.mask &&& s.w.txMask .active ≠ 0) ∧
    (let s : State := { dev id with others := List.replicate 8 { (dev inTx).w with wid := 2, txset := true } }
     txSetFree s = false) ∧
    (let s : State := { storeWords (dev (fun w => { inTx w with p := { (inTx w).p with pc := 0x10000 } })) 0x10000 [0x00000000B2000000] with agenda := [] }
     committing s s.w s.w.p = true ∧ committing s s.w { s.w.p with pc := 0x10008 } = false) := by
  refine ⟨⟨clear_of ?_, ?_, ?_, ?_, ?_, ?_, fun _ _ => rfl⟩, ⟨clear_of ?_, ?_⟩, ⟨clear_of ?_, ⟨_, rfl, rfl⟩, ?_, ?_, ?_, ?_⟩, ?_, ⟨clear_of ?_, clear_of ?_⟩,
    ⟨clear_of ?_, ?_⟩, ?_, ?_⟩ <;>
    decide +kernel
/-- A logged write of one byte at the end of its word, and of a whole word. -/
theorem witness_TransactionReadsItsOwnWrite :
    (∃ t, logWrite 31 1 { key := 0x10007 } 0xFF false (dev inTx) = (t, true)) ∧ (∃ t, logWrite 31 8 { key := 0x10010 } 0xFF false (dev inTx) = (t, true)) := by
  refine ⟨⟨(logWrite 31 1 { key := 0x10007 } 0xFF false (dev inTx)).1, Prod.ext rfl ?_⟩, ⟨(logWrite 31 8 { key := 0x10010 } 0xFF false (dev inTx)).1, Prod.ext rfl ?_⟩⟩ <;>
    decide +kernel

/-- The host with a context descriptor at 0x20000, its rings of the least size, and contexts in the states that the commands ask for. -/
def hosting (c : Ctx) : State :=
  { storeMem 0x20068 1 4 false (storeMem 0x20048 1 16 false (storeMem 0x20028 1 4 false State.reset)) with
    cmdarg0 := 0x20000, cmdarg1 := 0x10000, ctxs := if c.live then [(1, c)] else [] }
/-! Copies: a descriptor of one row of eight F32 at 0x10000, and the operand words of each form. -/

theorem prep_of {r : PrepRes} {c : Prep → Bool} (h : (match r with | .ok p => c p | _ => false) = true) : ∃ p, r = .ok p ∧ c p = true := by
  cases r with
  | ok p => exact ⟨p, rfl, h⟩
  | trap _ _ => cases h
  | retry _ => cases h
/-- The device with a descriptor of a rank and a BMODE; s0 to s3 are the operand block, s63 the descriptor's address. -/
def copying (rank bmode : Nat) (blk : List (Nat × SW)) : State :=
  storeWords (barAt 8 (fun w => { w with s := [] })) 0x10000 [0x11000, rank + 0x0C0C00 + bmode * 2 ^ 32, 0x100000008, 0x100000001, 1, 0, 7 * 2 ^ 32,
    if bmode = 0 then 0 else 1 * 2 ^ 32 + 255 * 2 ^ 48] |> fun s => { s with w := { s.w with s := blk ++ [(63, ⟨0x10000, false⟩)] } }
/-- What the statement asks of a prepared slice. -/
def asked (s : State) (p : Prep) : Bool :=
  locksFree s p.locks && (p.desc.bmode ≤ 1 || ((readBar s p.barKey).valid && !(readBar s p.barKey).retired)) && p.slice.wid == s.w.wid
def copyDemand : Demand := { cls := .copy, scals := [63, 0, 1, 2, 3]
                             uses := [useS 63, { sc := true, n := 0 }, { sc := true, n := 0, off := 1 }, { sc := true, n := 0, off := 2 }
                               , { sc := true, n := 0, off := 3 }] }
/-- The device whose one page lies on its neighbour along X, with no port up: no access to it leaves. -/
def abroad (f : Warp → Warp) : State := let s := dev f
  { s with devpos := 0x20000#32, ctxs := [(1, { live := true, gang := 7 })], mc := { s.mc with lasia := 0 }, dies := [(0, { tlb := [{ ctx := 1, page := 1, leaf := 0x001000000001039D#64 }] })] }
/-- The reads of an issue that leave the state as it is, since nothing of them leaves the device. -/
def readsHere (s : State) (f : CopyForm) : Bool := decide (readsOut s (issueReads f s.w 63 0) = (s, true))
theorem witness_CopiesIssue :
    (let s := copying 1 0 [(0, ⟨1, false⟩)]
     (∀ f ∈ [CopyForm.cpld, .cpst, .cpred, .cpg], readsHere s f = true) ∧
     Clear s copyDemand ∧ NoTx s false ∧ s.w.cp < 63 ∧ s.w.allPerformed = true ∧ s.tileBusy = false ∧ s.w.resident = true ∧ s.others = [] ∧ s.w.grant = none ∧
      (s.wg s.w.wg).cpc = [] ∧ (∃ p, prepare .cpld s s.w 0x10000 0 = .ok p ∧ (asked s p && p.desc.bmode == 0) = true) ∧
      (∃ p, prepare .cpst s s.w 0x10000 0 = .ok p ∧ (asked s p && p.desc.bmode == 0) = true) ∧
      (∃ p, prepare .cpred s s.w 0x10000 0 = .ok p ∧ (asked s p && p.desc.bmode == 0) = true)) ∧
    (let s : State := { copying 1 0 [(0, ⟨1, false⟩)] with cores := [(0, { owner := some 1, locks := List.replicate 64 { owner := 9 } })] }
     Clear s copyDemand ∧ ∃ p, prepare .cpld s s.w 0x10000 0 = .ok p ∧ (!locksFree s p.locks) = true) ∧
    (let s := copying 1 3 [(0, ⟨1, false⟩)]
     Clear s copyDemand ∧ ∃ p, prepare .cpld s s.w 0x10000 0 = .ok p ∧ (asked s p && p.desc.bmode == 3) = true) ∧
    (let s := copying 2 0 [(0, ⟨1, false⟩), (1, ⟨1 + 32 * 65536, false⟩)]
     Clear s copyDemand ∧ ∃ p, prepare .cpg s s.w 0x10000 0 = .ok p ∧ asked s p = true) ∧
    (let s := storeWords (copying 4 0 [(0, ⟨1, false⟩), (1, ⟨0x10100, false⟩)]) 0x10100 [0x0101010100010001, 0x0000010100000000]
     readsHere s .cpw = true ∧ Clear s copyDemand ∧ ∃ p, prepare .cpw s s.w 0x10000 0 = .ok p ∧ asked s p = true) ∧
    (let s := abroad (fun w => { w with s := [(63, ⟨0x10000, false⟩)] })
     Clear s copyDemand ∧ (readsOut s (issueReads .cpw s.w 63 0)).2 = false) ∧
    (let s := copying 1 0 [(0, ⟨1, false⟩)]
     ({ s with w := { s.w with ops := [{ todo := [{ key := 0x10000 }] }] } } : State).w.allPerformed = false) ∧
    (let s := copying 1 0 [(0, ⟨1, false⟩)]
     let t := cpcTry s.w.wg (s.setWg s.w.wg { s.wg s.w.wg with cpc := [{ wid := s.w.wid, desc := 0x10000, blk := 0, act := s.w.active false }] })
     t.w.wg = s.w.wg ∧ t.w.grant = some .done) ∧
    (let s : State := { copying 1 0 [(0, ⟨1, false⟩)] with others := [{ (dev id).w with wid := 2, warpid := 1 }] }
     let t := cpcTry s.w.wg (s.setWg s.w.wg { s.wg s.w.wg with cpc := [{ wid := s.w.wid, desc := 0x10000, blk := 0, act := s.w.active false }] })
     t.w.wg = s.w.wg ∧ t.w.grant = none) ∧
    (Clear (dev id) { cls := .copy, scals := [0, 63], uses := [useS 63] } ∧ Clear (dev id) { cls := .copy, scals := [63], uses := [useS 63] }) := by
  refine ⟨⟨?_, clear_of ?_, noTx_of ?_, ?_, ?_, ?_, ?_, ?_, ?_, ?_, prep_of ?_, prep_of ?_, prep_of ?_⟩, ⟨clear_of ?_, prep_of ?_⟩, ⟨clear_of ?_, prep_of ?_⟩, ⟨clear_of ?_, prep_of ?_⟩,
    ⟨?_, clear_of ?_, prep_of ?_⟩, ⟨clear_of ?_, ?_⟩, ?_, ?_, ?_, ⟨clear_of ?_, clear_of ?_⟩⟩ <;> decide +kernel

/-- A one-row F32 tile of eight columns, the largest F32 tile, an index tile, and an MX tile of one block. -/
def cfgRow : BitVec 21 := BitVec.ofNat 21 (12 + 7 * 2048)
def cfgMost : W64 := 12 + 63 * 32 + 31 * 2048
def cfgIndex : BitVec 21 := BitVec.ofNat 21 (2 + 32 + 63 * 2048)
def cfgMx : BitVec 21 := BitVec.ofNat 21 (20 + 31 * 2048)
/-- The device whose core's tiles 5, 6 and 7 have the last three configurations issued; accumulator 3 holds F64; one scalar register. -/
def tiling (x y : W64) : State :=
  let s := dev (fun w => { w with s := [(62, ⟨x, false⟩), (63, ⟨y, false⟩)] })
  { s with cores := [(0, { owner := some 1, issuedCfg := [(5, cfgIndex), (6, cfgMx), (7, cfgRow)], issuedTag := [(3, 3)] })] }
/-- A pair of workgroups on cores 0 and 1, each with a warp; the partner waits or has not yet come. -/
def pairing (lead came : Bool) (blk : Option Nat) (gr : Option Grant) : State :=
  let me (w : Warp) : Warp := { w with core := if lead then 0 else 1, block := blk, grant := gr }
  { dev me with
    others := [{ (dev id).w with wid := 2, wg := 2, core := if lead then 1 else 0 }]
    wgs := [(1, { live := true, kern := 1, launch := 1, owns := true, pair := true, rank := if lead then 0 else 1 })
      , (2, { live := true, kern := 1, launch := 1, owns := true, pair := true, rank := if lead then 1 else 0
              pairWait := if came then [{ wid := 2, d := 0, a := 0, b := 0 }] else [] })]
    launches := [(1, { live := true, wgs := [1, 2], size := 2 })]
    cores := [(0, { owner := some (if lead then 1 else 2) }), (1, { owner := some (if lead then 2 else 1) })] }
/-- Whether the meeting of the pair grants the warp on turn. -/
def pairMet (lead came : Bool) : Bool :=
  let s := pairing lead came none none
  let t := s.setWg 1 { s.wg 1 with pairWait := [{ wid := 1, d := 0, a := 0, b := 0 }] }
  (if lead then pairTry 1 2 t else pairTry 2 1 t).w.grant == some .done
theorem witness_TileInstructionsIssue :
    (let s := tiling cfgMost 0xFFF
     Clear s { cls := .tile, scals := [62], uses := [useS 62] } ∧ ownsArray s = true ∧ s.w.tl < 63 ∧ cfgOk (s.w.sr 62).bits = true ∧
      Clear s { cls := .tile, scals := [63], uses := [useS 63] } ∧ cfgOk (s.w.sr 63).bits = false) ∧
    (let s := tiling 0 0
     Clear s { cls := .tile } ∧ mmaOk s 0 0 1 = true ∧ mmaOk s 3 0 1 = false ∧ tcvtOk (issuedTag s 0) (cfgType (issuedCfg s 0)) = true ∧
      cfgCols (issuedCfg s 0) ≤ (if issuedTag s 0 = 3 then 32 else 64)) ∧
    (let s := pairing true false (some 16) (some .done)
     Clear s { cls := .tile } ∧ ownsArray s = true ∧ (s.wg s.w.wg).pair = true ∧ (s.w.core % 2 == 0) = true ∧ s.w.block = some 16 ∧ s.w.grant = some .done) ∧
    (let s := pairing true false none none
     Clear s { cls := .tile } ∧ ownsArray s = true ∧ mmaOk s 0 0 0 = true ∧ partnerOf s s.w.wg = some 2 ∧ pairNow s 2 = none ∧ pairMet true false = false ∧
      pairMet true true = true) ∧
    (let s := pairing false true none none
     Clear s { cls := .tile } ∧ ownsArray s = true ∧ (s.w.core % 2 == 0) = false ∧ mmaOk s 0 0 0 = true ∧ partnerOf s s.w.wg = some 2 ∧ pairNow s 2 = none ∧
      pairMet false true = true ∧ pairMet false false = false) ∧
    (let s := tiling 0 (1 + 5 * 16)
     let y := (s.w.sr 63).bits
     Clear s { cls := .tile, scals := [63], uses := [useS 63] } ∧ y.getLsbD 3 = false ∧ bits y 63 7 = 0 ∧ indexTileOk (issuedCfg s (bits y 6 4)) = true ∧
      mmaOk s 0 0 (bits y 2 0) = true) ∧
    (let s := tiling 0 (63 + 63 * 256)
     let y := (s.w.sr 63).bits
     Clear s { cls := .tile, regs := [{ n := 56, cnt := 8 }], scals := [63], uses := [useS 63] } ∧ bits y 7 6 = 0 ∧ bits y 63 14 = 0 ∧
      (issuedTag s 3 = 3 ∧ 56 % 2 = 0)) ∧
    (let s := tiling (1 + 4064 * 65536) 32
     let y := (s.w.sr 63).bits
     let c := issuedCfg s 7
     Clear s { cls := .tile, scals := [62, 63], uses := [useS 62, useS 63] } ∧ bits y 63 16 = 0 ∧ bits y 15 0 % 32 = 0 ∧ bits y 15 0 ≠ 0 ∧ rowLen c ≤ bits y 15 0 ∧
      tileRange s (s.w.sr 62).bits 32 (((scratchRows c).1 - 1) * bits y 15 0 + rowLen c) .read = .ok (scratchKey 1 4064) ∧
      tileRange s (s.w.sr 62).bits 32 (((scratchRows c).1 - 1) * bits y 15 0 + rowLen c) .write = .ok (scratchKey 1 4064)) ∧
    (let s := tiling (1 + 4080 * 65536) 16
     let y := (s.w.sr 63).bits
     let c := issuedCfg s 6
     Clear s { cls := .tile, scals := [62, 63], uses := [useS 62, useS 63] } ∧ isBlock (cfgType c) = true ∧ cfgType c ≠ 25 ∧ bits y 31 16 = 0 ∧ bits y 63 32 = 0 ∧
      bits y 15 0 % 16 = 0 ∧ cfgCols c / 32 ≤ bits y 15 0 ∧
      tileRange s (s.w.sr 62).bits 16 ((cfgRows c - 1) * bits y 15 0 + cfgCols c / 32) .read = .ok (scratchKey 1 4080)) := by
  refine ⟨⟨clear_of ?_, ?_, ?_, ?_, clear_of ?_, ?_⟩, ⟨clear_of ?_, ?_⟩, ⟨clear_of ?_, ?_⟩, ⟨clear_of ?_, ?_⟩, ⟨clear_of ?_, ?_⟩, ⟨clear_of ?_, ?_⟩,
    ⟨clear_of ?_, ?_⟩, ⟨clear_of ?_, ?_, ?_, ?_, ?_, rfl, rfl⟩, ⟨clear_of ?_, ?_, ?_, ?_, ?_, ?_, ?_, rfl⟩⟩ <;> decide +kernel

/-- One operation in the array's queue; a copy of two rows under way, and one that has ended. -/
theorem witness_EngineEventsComplete :
    (let s (op : TileOp) : State := { dev (fun w => { w with tls := [(1, false)] }) with
       cores := [(0, { owner := some 1, mxa := [{ id := 1, wid := 1, seq := 0, op := op }] })] }
     (∀ op, ((s op).core 0).mxa = { id := 1, wid := 1, seq := 0, op := op } :: []) ∧ (∀ v ∈ (s (.tzero 7)).warps, v.live = true) ∧
      tileReady (s (.tzero 7)) { id := 1, wid := 1, op := .tzero 7 } = true ∧ tileReady (s (.azero 3)) { id := 1, wid := 1, op := .azero 3 } = true ∧
      (∀ op ∈ [.cfg 0 0, .load 7 (scratchKey 1 0) 32, .store 7 (scratchKey 1 0) 32, .scales 7 (scratchKey 1 0) 16 0, .mma 3 7 7 true, .mmag 3 7 7 6 false
          , .lead 3 7 7 false 1, .follow 3 7 7 false 1, .movv 48 3 63 63 1, .cvt 7 3 0 true], tileReady (s op) { id := 1, wid := 1, op := op } = true) ∧
      (let c : Core := { fromLeader := [(1, {})] }
       c.fromLeader.find? (fun x => x.1 == 1) = some (1, {}) ∧ c.fromLeader.find? (fun x => x.1 == 2) = none) ∧
      (s (.tzero 7)).warp? 1 = some (s (.tzero 7)).w ∧ (s (.tzero 7)).w.resident = true) ∧
    (let sl : Slice := { wid := 1, seg := 1, c := [0, 0, 0, 0, 0], rows := 2, rowBytes := 32 }
     let c : Copy := { id := 1, ctx := 1, wg := 1, desc := { base := 0x11000, rank := 2, mtype := 12, htype := 12, ext := [8, 2, 1, 1, 1]
                                                             stride := [0, 32, 0, 0, 0], box := [8, 2, 1, 1, 1] }, slices := [sl], size := 64 }
     let s : State := { dev id with copies := [c, { id := 2, ending := 1, ripe := true }, { id := 3, ending := 1 }] }
     s.copies.find? (fun x => x.id == c.id && x.ending == 0) = some c ∧ c.stop = 0 ∧ c.cancel = false ∧ c.held = false ∧ c.blocked s = false ∧
      c.slices.find? (fun x => x.nextRow < x.rows) = some sl ∧ sl.nextRow + 1 < sl.rows ∧ c.desc.bmode = 0 ∧ (∃ pages, c.checkRow sl s sl.nextRow = .ok pages) ∧
      (c.sendRow sl sl.nextRow [] s).2 = true ∧ ((({ sl with nextRow := 1, rows := 1 } : Slice).rows ≤ 1) ∧ c.cause ≠ 0x07 ∧ c.desc.stat = false) ∧
      (s.copies.any (fun c => c.id == 2 && c.ending != 0 && c.ripe) = true ∧
      s.copies.any (fun c => c.id == 3 && c.ending != 0 && c.ripe) = false)) ∧
    (let steps (s : State) (mode : Nat) : Bool := let b := readBar s (scratchKey 1 4080)
       b.valid && !b.retired && (mode != 3 || b.pend != 0)
     steps (barAt 8 id) 1 = true ∧ steps (barAt 8 id) 3 = true ∧ steps (barAt 0 id) 3 = false) ∧
    (ringFull (hosting { live := true, desc := 0x20000 }) 1 2 = false ∧
      ringFull (storeMem 0x20050 8 0x10000 false (hosting { live := true, desc := 0x20000 })) 1 2 = true) := by
  refine ⟨⟨fun _ => rfl, ?_⟩, ⟨?_, ?_, ?_, ?_, ?_, ?_, ?_, ?_, ⟨_, rfl⟩, ?_, ?_, ?_⟩, ?_, ?_⟩ <;> decide +kernel
theorem witness_ElementPackingRoundTrip : typeBits 17 ∈ [4, 6, 8, 16, 32, 64] ∧ [63, 0, 63, 1].length % packUnit 17 = 0 ∧
    (∀ x ∈ [63, 0, 63, 1], x < 2 ^ typeBits 17) ∧ 3 < [63, 0, 63, 1].length := by decide +kernel

/-- A GENERAL warp with one scalar value. -/
def one (x : W64) : State := dev (fun w => { w with s := [(63, ⟨x, false⟩)] })
/-- A finished tile of the workgroup's, and one that has been fetched, at the last place of its fields. -/
def tileAt (st : TileSt) (named : Bool) : VTile :=
  { view := 3, frame := 5, strip := 15, tx := 127, ty := 127, st := st, pw := 32, ph := 32, wg := 1, h := 1, bound := st == .finished, named := named }
def tileToken : W64 := w64 (1 + 3 * 2 ^ 16 + 15 * 2 ^ 20 + 127 * 2 ^ 24 + 127 * 2 ^ 32 + 5 * 2 ^ 40)
def tileDev (x y : W64) (ts : List VTile) (f : Warp → Warp) : State :=
  { dev (fun w => f { w with s := [(62, ⟨x, false⟩), (63, ⟨y, false⟩)] }) with
    tiles := ts
    outs := [(0, { run := true, nW := 96, f0 := 1 })]
    wgs := [(1, { live := true, kern := 1, launch := 1, handles := [(1, { live := true, rows := 32, rowb := 16, seg := 1 })] })] }
theorem witness_GraphicsInstructionsComplete :
    (let s := one 0x1FFFF
     NoTx s false ∧ (viewsOf s.w.vmask).any (viewStalled s) = false ∧ vamFull s s.w.cluster = false ∧
      Clear s { cls := .graphics, regs := [{ n := 61, cnt := 3 }, vop1 63], uses := [{ n := 61, cnt := 3 }, useV1 63] } ∧
      Clear s { cls := .graphics, regs := [{ n := 63, cnt := 1 }, vop1 63], uses := [{ n := 63, cnt := 1 }, useV1 63] } ∧
      Clear s { cls := .graphics, scals := [63], uses := [useS 63] } ∧ bits (s.w.sr 63).bits 63 17 = 0 ∧
      (viewsOf ((s.w.sr 63).bits.extractLsb' 0 16)).any (viewStalled s) = false ∧ (s.w.sr 63).bits.getLsbD 16 = true ∧ (s.cluster s.w.cluster).vamq = [] ∧
      (s.w.sr 0).bits.getLsbD 16 = false) ∧
    (Clear (one 0x1FF) { cls := .graphics, scals := [0, 63], uses := [useS 63] } ∧ bits ((one 0x1FF).w.sr 63).bits 63 9 = 0) ∧
    (let s := tileDev 0 0 [tileAt .finished false] id
     Clear s { cls := .graphics, scals := [62, 63, 63], uses := [useS 63] } ∧ NoTx s false ∧ s.w.block ≠ some 20 ∧ (bits (s.w.sr 63).bits 63 8 = 0 ∧
      (s.w.sr 63).bits.getLsbD 6 = false) ∧ oldestTile s s.w.wg = some (tileAt .finished false)) ∧
    (let s := tileDev 0 0x80 [] id
     Clear s { cls := .graphics, scals := [62, 63, 63], uses := [useS 63] } ∧ oldestTile s s.w.wg = none ∧ (s.w.sr 63).bits.getLsbD 7 = true ∧
      (s.w.sr 62).bits.getLsbD 7 = false) ∧
    (let s := tileDev 0 0x41 [] id
     let t := placeTiles s.w.cluster ((({ s with w := { s.w with handed := some 1 } } : State).setWg s.w.wg { s.wg s.w.wg with
       handOrder := (s.wg s.w.wg).handOrder.erase 1 ++ [1] }).setCluster s.w.cluster
       { s.cluster s.w.cluster with hand := (s.cluster s.w.cluster).hand ++ [({ wg := s.w.wg, h := 1 } : HandIn)] })
     Clear s { cls := .graphics, scals := [62, 63, 63], uses := [useS 63] } ∧ bits (s.w.sr 63).bits 63 8 = 0 ∧ (s.w.sr 63).bits.getLsbD 6 = true ∧
      mayHandIn s (bits (s.w.sr 63).bits 5 0) = true ∧ s.w.allPerformed = true ∧ s.tileBusy = false ∧ oldestTile t t.w.wg = none) ∧
    (let s := tileDev 0 0x7F [] id
     Clear s { cls := .graphics, scals := [62, 63, 63], uses := [useS 63] } ∧ mayHandIn s (bits (s.w.sr 63).bits 5 0) = false) ∧
    (let s := tileDev tileToken (1 + 4096 * 65536 + 32 * 2 ^ 36) [tileAt .fetched false] id
     Clear s { cls := .graphics, scals := [0, 62, 63], uses := [useS 62] } ∧ s.tileBusy = false ∧ s.w.allPerformed = true ∧
      tileNamed s (s.w.sr 62).bits = some (tileAt .fetched false) ∧ (s.w.sr 63).bad = false ∧
      (∃ seg off, pixelBlock s (tileAt .fetched false) (s.w.sr 63).bits = .ok (seg, off)) ∧ (tileAt .fetched true).named = true ∧
      tileNamed (tileDev tileToken 0 [] id) tileToken = none ∧ overdue s (tileAt .fetched false) = false ∧
      overdue { s with dclk := 1 } (tileAt .fetched false) = true ∧ (tileAt .substituted false).st = .substituted ∧ (tileAt .done false).st = .done) ∧
    (viewStalled { dev id with views := [(0, { admitted := true, g := 9 })] } 0 = true) := by
  refine ⟨⟨noTx_of ?_, ?_, ?_, clear_of ?_, clear_of ?_, clear_of ?_, ?_⟩, ⟨clear_of ?_, ?_⟩, ⟨clear_of ?_, noTx_of ?_, ?_⟩, ⟨clear_of ?_, ?_⟩, ⟨clear_of ?_, ?_⟩,
    ⟨clear_of ?_, ?_⟩, ⟨clear_of ?_, ?_, ?_, ?_, ?_, ⟨_, _, rfl⟩, ?_⟩, ?_⟩ <;> decide +kernel
/-- A VAM queue of one primitive more than the free length that Config leaves it is full. -/
theorem witness_GraphicsInstructionsComplete_full :
    vamFull { dev id with clusters := [(0, { vamq := List.replicate (Config.vamQueueExtra + 1) {} })] } 0 = true := by
  show (!(List.replicate (Config.vamQueueExtra + 1) ({} : Prim)).isEmpty &&
    decide (Config.vamQueueExtra < (List.replicate (Config.vamQueueExtra + 1) ({} : Prim)).length)) = true
  rw [List.length_replicate, decide_eq_true (Nat.lt_succ_self _)]
  rfl

/-- A texture of one texel at 0x10100 whose descriptor is at 0x10000; for one lane at the origin. -/
def texDev : State := storeWords (dev (fun w => { w with s := [(63, ⟨0x10000, false⟩)], p := { w.p with mask := 1 } })) 0x10000
  [0x10100, 0x0001000100010001, 0, 0, 0, 0, 0, 0]
def texRun : State := runAllOps texDev.w.wid texDev
def texBytes : List Byte := [0, 1, 1, 0, 0, 0, 0, 0, 1, 0, 1, 0, 1, 0, 1, 0] ++ List.replicate 48 0
/-- The lane's sample meets no check and no page that is not resident. -/
def texGoes (f : TexForm) : Bool := match texLane texRun (texDescOf texBytes) f 61 0 with | .ok _ _ => true | _ => false
theorem witness_TextureInstructionsComplete :
    NoTx texDev false ∧ texDev.w.ld < 63 ∧ (peek texRun texRun.w (texDev.w.sr 63).bits 64 64 == .bytes texBytes) = true ∧ texDescOk texBytes (texDescOf texBytes) = true ∧
    Clear texDev { cls := .graphics, regs := [{ n := 60, cnt := 4 }, { n := 61, cnt := 3 }], scals := [63], uses := [useS 63, { n := 61, cnt := 3 }] } ∧
    (texDev.w.raysOpen = false ∧ (∀ o ∈ texRun.w.ops, o.todo = []) ∧ readsOut texRun [(texDev.w.sr 63).bits] = (texRun, true) ∧
      readsOut texRun ((lanesOf 1#32).filterMap (mapByte texRun (texDescOf texBytes) .tex 61)) = (texRun, true)) ∧
    ((abroad (fun w => { w with s := [(63, ⟨0x10000, false⟩)] })).w.ops = [] ∧
      (readsOut (abroad id) [0x10000]).2 = false) ∧
    ((dev (fun w => { w with batches := [{}] })).w.raysOpen = true) ∧
    texGoes .tex = true ∧ texGoes .texl = true ∧ texGoes .texg = true ∧ texGoes .texf = true ∧
    Clear texDev { cls := .graphics, regs := [{ n := 60, cnt := 4 }, vop1 63], scals := [63], uses := [useS 63, useV1 63] } := by
  refine ⟨noTx_of ?_, ?_, ?_, ?_, clear_of ?_, ?_, ?_, ?_, ?_, ?_, ?_, ?_, clear_of ?_⟩ <;> decide +kernel
/-- A warp with n batches, the first complete. -/
def raying (n : Nat) (x : W64) : State := storeWords (dev (fun w => { w with
  s := [(62, ⟨0x10000, false⟩), (63, ⟨x, false⟩)], batches := (List.range n).map (fun i => { id := i, warped := i == 1, done := i != 2 }) })) 0x10000 [0, 0, 0, 0, 0, 0, 0, 0]
  |> fun s => { s with views := [(0, { grids := [{}] })], outs := [(0, { run := true, nW := 1 })] }
/-- RAYR's operand word x names a batch and a chunk of it. -/
def rayrMeets (x : W64) : Bool :=
  let s := raying 7 x
  clearB s { cls := .graphics, regs := [{ n := 60, cnt := 4 }], scals := [63], uses := [useS 63] } && decide (s.w.ld < 63) && bits x 30 22 == 0 && bits x 63 32 == 0 &&
    (match s.w.batches.find? (fun z => z.id == bits x 15 0) with
      | some y => (if y.warped then decide (bits x 21 16 < 32) else bits x 21 16 == 0) && !(rayFor y (bits x 21 16) 0).bad
      | none => false)
theorem witness_RayInstructionsComplete :
    (Clear (raying 7 0x40) { cls := .graphics, regs := [{ n := 56, cnt := 8 }], scals := [0, 63], uses := [useS 63, { n := 56, cnt := 8 }] } ∧
      bits ((raying 7 0x40).w.sr 63).bits 5 0 = 0 ∧ (raying 7 0x40).w.batches.length < 8 ∧ 8 ≤ (raying 8 0x40).w.batches.length ∧
      Clear (raying 8 0x40) { cls := .graphics, regs := [{ n := 56, cnt := 8 }], scals := [0, 63], uses := [useS 63, { n := 56, cnt := 8 }] }) ∧
    (Clear (raying 7 0x40) { cls := .graphics, scals := [0, 62, 63], uses := [useS 62, useS 63] } ∧
      (peek (runAllOps 1 (raying 7 0x40)) (runAllOps 1 (raying 7 0x40)).w 0x10000 64 64 == .bytes (List.replicate 64 0)) = true ∧
      (gridNamed (raying 7 0x40) 0).isSome = true) ∧
    rayrMeets 0 = true ∧ rayrMeets (1 + 31 * 2 ^ 16) = true ∧ rayrMeets 2 = true ∧ rayrMeets 0x80000000 = true ∧
    ((raying 7 0).w.batches.map (fun b => b.done)) = [true, true, false, true, true, true, true] := by
  refine ⟨⟨clear_of ?_, ?_, ?_, ?_, clear_of ?_⟩, ⟨clear_of ?_, ?_⟩, ?_⟩ <;> decide +kernel

/-- At level 0 a CSR for all and one for handlers; at level 1 a handler's, with a legal MODE value and one whose RM is 5. -/
theorem witness_ControlRegistersComplete :
    (let s := one 0
     Clear s { cls := .control, scals := [63] } ∧ Clear s { cls := .control, scals := [63], uses := [useS 63] } ∧ NoTx s false ∧ csrPriv s.w 0x31F false = true ∧
      csrPriv s.w 0x105 false = false ∧ csrPriv s.w 0x11 true = true ∧ csrPriv s.w 0x114 true = false ∧ csrPriv s.w 0x200 true = false) ∧
    (let s := dev (fun w => { w with tlevel := 1, sys := true, s := [(63, ⟨0x14000, false⟩)] })
     Clear s { cls := .control, scals := [63], uses := [useS 63] } ∧ NoTx s false ∧ csrPriv s.w 0x114 true = true ∧ csrPriv s.w 0x20A true = true ∧
      5 ≤ bits (s.w.sr 63).bits 16 14) ∧
    (bits (modeReset.zeroExtend 64) 16 14 < 5 ∧ bits (modeReset.zeroExtend 64) 31 21 = 0) := by
  refine ⟨⟨clear_of ?_, clear_of ?_, noTx_of ?_, ?_⟩, ⟨clear_of ?_, noTx_of ?_, ?_⟩, ?_⟩ <;> decide +kernel
/-- A handler at level 1 whose bank matches its path, and one whose bank does not. -/
def returning (mark : Nat) (lvl : Nat) : State := { dev id with w := { (inHandler modeReset lvl).w with
  wid := 1, ctx := 1, wg := 1, kern := 1, bank1 := { tepc := 0x1000, fsize := 8, hmask := fullMask, mark := mark, skip := true }
  bank2 := { tepc := 0x1000, fsize := 8, hmask := fullMask, mark := mark } } }
theorem witness_TrapsAndReturnComplete :
    (Clear (dev id) { cls := .control } ∧ (dev id).w.tlevel = 0) ∧
    (let s := returning 0 2
     let b := s.w.bank s.w.tlevel
     let t : Warp := { s.w with p := { st := .running, pc := b.tepc, frp := b.hfrp, wbase := b.wbase, fdepth := b.hfdepth, fsize := b.fsize, mode := b.mode, mask := b.hmask }
                                tlevel := s.w.tlevel - 1 }
     Clear s { cls := .control } ∧ s.w.tlevel ≠ 0 ∧ s.w.q.held = false ∧ s.w.fsrp = b.mark ∧ s.w.p.fdepth = b.depth ∧
      t.need t.span t.p.window = .ready ∧ t.parkOther = t) ∧
    (Clear (returning 0 1) { cls := .control } ∧ ((returning 0 1).w.bank 1).skip = true) ∧
    (Clear (returning 128 1) { cls := .control } ∧ (returning 128 1).w.fsrp ≠ ((returning 128 1).w.bank 1).mark) := by
  refine ⟨⟨clear_of ?_, ?_⟩, ⟨clear_of ?_, ?_⟩, ⟨clear_of ?_, ?_⟩, ⟨clear_of ?_, ?_⟩⟩ <;> decide +kernel
/-- A warp at a trap level, with the other slot held and a handler at v, in a pair or not, whose budget and frame limit are as given. -/
def trapping (lvl : Nat) (v lim : W64) (budget : Nat) (pair : Bool) (fse : List FseFault) : State :=
  { dev (fun w => { w with tlevel := lvl, tvec := v, fslim := lim, budget := budget, q := heldQ, fse := fse, spilled := if budget = 64 then [8] else [] }) with
    wgs := [(1, { live := true, kern := 1, launch := 1, owns := true, pair := pair })
      , (2, { live := true, kern := 1, launch := 1, owns := true, pair := pair, rank := 1, pairWait := [{ wid := 2, d := 0, a := 0, b := 0 }] })]
    launches := [(1, { live := true, wgs := [1, 2], size := 2 })] }
def trapEntered (s : State) : Warp :=
  let w := s.w.abort fullMask 9 0
  let w0 : Warp := { w with p := { w.p with age := 0, ran := true, stall := none, want := none }, pend := some { cause := 9 }, block := none, grant := none
                            retry := [], sleep := none, issued := true }
  w0.entered (w.tlevel + 1) { cause := 9 }
/-- An entry with room, alone and in a pair, with a blocked ring and with a failed access of the engine; and the three that are not. -/
theorem witness_TrapEntryEnters :
    let fits (s : State) : Bool := let e := trapEntered s; e.resvOk (e.fsrp + 4 * 32 * e.topT)
    let place (s : State) : SpanNeed := let e := trapEntered s; e.need e.span e.p.window
    let bad : FseFault := { fill := false, blk := 0, addr := 0x100 }
    (∀ lvl < 2, let s := trapping lvl 0x25080 0x100000 192 false []
      s.w.tlevel < 2 ∧ s.w.tvec ≠ 0 ∧ partnerOf s s.w.wg = none ∧ fits s = true ∧ place s = .ready) ∧
    (let s := trapping 0 0x25080 0x100000 192 true []
     partnerOf s s.w.wg = some 2 ∧ fits s = true ∧ place s = .ready) ∧
    (let s := trapping 0 0x25080 0x100000 64 false []
     s.w.tlevel < 2 ∧ s.w.tvec ≠ 0 ∧ fits s = true ∧ place s = .stall) ∧
    (let s := trapping 0 0x25080 0x100000 64 false [bad]
     s.w.tlevel < 2 ∧ s.w.tvec ≠ 0 ∧ fits s = true ∧ place s = .failed 0x100) ∧
    (trapping 2 0x25080 0x100000 192 false []).w.tlevel = 2 ∧ (trapping 0 0 0x100000 192 false []).w.tvec = 0 ∧
    fits (trapping 0 0x25080 0 192 false []) = false ∧ ({ cause := 0x0C } : TrapInfo).cause = 0x0C := by decide +kernel

/-- A queue that takes device launches from the context: it holds n packets. -/
def launching (n : W32) (f : Warp → Warp) : State := { dev (fun w => f { w with s := [(62, ⟨0x1FF80, false⟩), (63, ⟨63, false⟩)] }) with
  queues := [(63, { ctl := 3, base := 0x20000, pctx := 1, tail := n, log2n := 4 })] }
theorem witness_SystemInstructionsComplete :
    (NoTx (dev id) false ∧ Clear (dev id) { cls := .control }) ∧
    (let s (x : W64) := dev (fun w => { w with s := [(63, ⟨x, false⟩)], wake := x == 1 })
     Clear (s 1) { cls := .control, scals := [63], uses := [useS 63] } ∧ (s 1).w.wake = true ∧ NoTx (s 1) false ∧
      Clear (s 0) { cls := .control, scals := [63], uses := [useS 63] } ∧ (s 0).w.wake = false ∧ (s 0).w.block ≠ some 12) ∧
    (let s := dev (fun w => { w with s := [(63, ⟨0x20, false⟩)], block := some 12, grant := some .done })
     Clear s { cls := .control, scals := [63], uses := [useS 63] } ∧ s.w.wake = false ∧ s.w.block = some 12 ∧ s.w.grant = some .done ∧
      bits (s.w.sr 63).bits 63 6 = 0 ∧ (s.w.sr 63).bits.getLsbD 5 = true) ∧
    (let s : State := { dev id with clusters := [(0, { sampctl := 0x1001000, sampctx := 0x1000000, sampbase := 0x10000, trigOn := true })] }
     Clear s { cls := .control } ∧ (let c := (trigHit 3 0xFFFF 16 s).cluster s.w.cluster; (c.recording && sampled c s.w.ctx) = true) ∧
      (let c := (trigHit 3 0xFFFF 16 (dev id)).cluster 0; (c.recording && sampled c 1) = false)) ∧
    (let s := dev (fun w => { w with fsbase := 0x10000#64, recs := [{ body := .split heldQ }] })
     Clear s { cls := .control } ∧ s.w.fse = [] ∧ s.w.fseBusy = false ∧ s.w.raysBehind = false ∧ s.w.raysFrame = false ∧ ({ s.w with batches := [{ level := 1 }] } : Warp).raysFrame = true ∧
      ({ s.w with spilled := [7], fslim := 0x20000#64 } : Warp).fseBusy = true ∧
      ({ s.w with ops := [{ todo := [{ kind := .write, key := 0x10000 }] }], batches := [{}] } : Warp).raysBehind = true ∧ (match syncRecords s s.w with | .ok _ => true | .error _ => false) = true) ∧
    (let s := launching 0 id
     Clear s { cls := .control, scals := [0, 62, 63], uses := [useS 62, useS 63] } ∧ bits (s.w.sr 62).bits 6 0 = 0 ∧ (s.w.sr 63).bits.toNat ≤ 63 ∧ s.w.allPerformed = true ∧
      s.tileBusy = false ∧ openToLaunch s 63 s.w.ctx = true ∧ (s.queue 63).waiting ≠ 2 ^ (s.queue 63).log2n ∧ openChildren s s.w.kern < 4096 ∧
      (match peek (dropL1 s.w.core s) s.w 0x1FF80 128 128 with | .bytes _ => true | _ => false) = true ∧
      readsOut (dropL1 s.w.core s) [0x1FF80] = (dropL1 s.w.core s, true) ∧ (readsOut (abroad id) [0x1FF80]).2 = false ∧
      ((launching 16 id).queue 63).waiting = 2 ^ ((launching 16 id).queue 63).log2n) ∧
    (openToLaunch (launching 0 (fun w => { w with ctx := 2 })) 63 2 = false) ∧
    (let s : State := { dev id with kernels := [(1, { live := true, ctx := 1, children := [(63, 0), (64, 2)] }), (2, { live := true, st := .done })] }
     Clear s { cls := .control, scals := [0, 63], uses := [useS 63] } ∧ joinStatus s 1 63 = none ∧ joinStatus s 1 64 = some 0 ∧ joinStatus s 1 0 = some 0xFF) := by
  refine ⟨⟨noTx_of ?_, clear_of ?_⟩, ⟨clear_of ?_, ?_, noTx_of ?_, clear_of ?_, ?_⟩, ⟨clear_of ?_, ?_⟩, ⟨clear_of ?_, ?_⟩, ⟨clear_of ?_, ?_⟩, ⟨clear_of ?_, ?_⟩, ?_,
    ⟨clear_of ?_, ?_⟩⟩ <;> decide +kernel

/-- What a warp's engines act on: a raised trap, a block to spill and one to fill, aged paths, and a SLEEP at its end. -/
theorem witness_WarpEngineEventsComplete :
    (let s := dev (fun w => { w with pend := some { cause := 9 }, tvec := 0x25080#64, budget := 192 })
     let e := s.w.entered 1 { cause := 9 }
     s.warp? 1 = some s.w ∧ s.w.tlevel < 2 ∧ s.w.tvec ≠ 0 ∧ e.resvOk e.entryResv = true ∧ e.need e.span e.p.window = .ready) ∧
    (let s := dev (fun w => { w with fslim := 0x20000#64, p := { w.p with want := some (56, 120) } })
     s.warp? 1 = some s.w ∧ 0 ∈ s.w.maySpill ∧ s.w.raysFrame = false ∧ blockAwaited s s.w 0 = false ∧
      (match checkPage s 1 0 (s.w.blockAddr 0) .write with | .ok (_, p) => p.resident | .error _ => false) = true) ∧
    (let s := dev (fun w => { w with fslim := 0x20000#64, spilled := [7] })
     s.warp? 1 = some s.w ∧ s.w.mayFill = some 7 ∧ s.w.raysFrame = false ∧ (match checkPage s 1 0 (s.w.blockAddr 7) .read with | .ok (_, p) => p.resident | .error _ => false) = true) ∧
    (let w := (dev (fun w => { w with recs := [{ body := .split { heldQ with age := 4096 } }], q := { heldQ with age := 1 } })).w
     w.free = true ∧ (w.agedRec).isSome = true ∧ w.swapHere = true ∧ w.p.held = true) ∧
    (let w := (dev (fun w => { w with recs := [{ body := .split { heldQ with age := 4096 } }], p := {} })).w
     w.free = true ∧ w.swapped = false ∧ (w.agedRec).isSome = true ∧ w.swapHere = true ∧ w.p.held = false) ∧
    (let w := (dev (fun w => { w with recs := [{ body := .split { heldQ with age := 4096 } }], q := { heldQ with age := 1 }
                                      p := { w.p with age := 2 }, onB := true, swapped := true })).w
     w.swapped = true ∧ w.swapHere = false ∧ (w.agedRec).isSome = true) ∧
    (let w := (dev (fun w => { w with p := { w.p with parked := true, age := 4096 }, q := heldQ })).w
     w.p.parked = true ∧ w.agelim ≤ w.p.age) ∧
    (let w := (dev (fun w => { w with q := { heldQ with parked := true, age := 4096 } })).w
     w.p.parked = false ∧ w.q.parked = true ∧ w.agelim ≤ w.q.age) ∧
    (let r : Rec := { body := .split { heldQ with age := 0xFFFFFFFF } }
     let w := (dev (fun w => { w with recs := [r], q := heldQ })).w
     w.p.held = true ∧ w.q.held = true ∧ r ∈ w.recs ∧ heldQ.held = true ∧ w.freezeMark ≤ r.off) ∧
    (let w := (dev (fun w => { w with p := { w.p with st := .waiting, age := 4096 } })).w
     w.p.st = .waiting ∧ w.agelim ≤ w.p.age) ∧
    (let s := dev (fun w => { w with block := some 12, sleep := some 0 })
     s.warp? 1 = some s.w ∧ s.w.block = some 12 ∧ s.w.sleep = some 0 ∧ s.w.resident = true) := by decide +kernel

/-- A Tabard with a request, a primitive in a queue, a FILLING tile, and a batch of one ray over an empty structure. -/
def rayBatch : Batch := { base := 0x10000, rays := [{ slot := 31, dx := 0x3F800000, tmax := 0x3F800000 }] }
theorem witness_UnitAndSamplingEventsComplete :
    (let s : State := { dev id with tabards := [{ dom := .device, queue := [1] }] }
     (∃ dom, domOf dom = .device ∧ (tabardOf s (domOf dom)).queue = [1]) ∧ (tabardOf s .device).holder = none ∧ grantable s .device = true) ∧
    (let p : Prim := { wid := 1, views := 0x8001 }
     let s : State := { dev id with clusters := [(0, { vamq := [p] })] }
     (s.cluster 0).vamq = [p] ∧ (viewsOf p.views).any (viewStalled s) = false) ∧
    (let t : VTile := { st := .filling, bound := true, cluster := 0 }
     let s : State := { dev id with tiles := [t] }
     s.tiles.find? (fun t => t.st == .filling && t.bound && t.cluster == 0) = some t) ∧
    (let s := storeWords (dev (fun w => { w with batches := [rayBatch] })) 0x10000 (List.replicate 16 0)
     (s.warp? 1).isSome = true ∧ rayBatch.done = false ∧ rayBatch.held = [] ∧ mayTraverse s.w rayBatch = true ∧
      (sendAll 1 ((batchLines s s.w rayBatch).map (128 * ·)) s).2 = true ∧
      mayTraverse { s.w with ops := [{ todo := [{ key := 0x10000 }] }] } { rayBatch with seq := 1 } = false ∧ (match (castRay s s.w 0x10000 { slot := 31, dx := 0x3F800000, tmax := 0x3F800000 }).1 with
       | .hit _ => true | _ => false) = true ∧ rayBatch.irr = false ∧ rayBatch.results = [] ∧ (rayBatch.rays.map (fun r => r.slot)).Nodup ∧
      (match (castRay { s with ctxs := [(1, { live := true })], dies := [(0, { tlb := [{ ctx := 1, page := 1, leaf := 0x1001D#64 }] })] } s.w 0x10000
          { slot := 31, dx := 0x3F800000, tmax := 0x3F800000 }).1 with | .retry _ => true | _ => false) = true) ∧
    (let c : Cluster := { sampctl := 0x1001000, trigOn := true, cycle := 8192, trigstart := 4 + 8192 * 65536, trigstop := 4 + 8192 * 65536 }
     c.recording = true ∧ c.sampctl.getLsbD 25 = false ∧ c.cycle.toNat % bits c.sampctl 23 0 = 0 ∧ c.sampledAt ≠ some c.cycle ∧ bits c.trigstart 3 0 = 4 ∧
      bits c.trigstart 63 16 ≤ c.cycle.toNat ∧ bits c.trigstop 3 0 = 4 ∧ bits c.trigstop 63 16 ≤ c.cycle.toNat ∧ (4 : W64).getLsbD 2 = true ∧ (3 : W64).getLsbD 2 = false) := by
  refine ⟨⟨⟨0, rfl, rfl⟩, ?_⟩, ?_, ?_, ?_, ?_⟩ <;> decide +kernel

/-- An output whose next moment is due: strips of 100 cycles from 0, at each of the moments. -/
theorem witness_DisplayEventsComplete :
    let run : Out := { run := true, runTiming := 0, link := true, attached := true }
    let st := run.st
    (run.nW = run.nD ∧ run.f0 + run.nW * st ≤ 0) ∧
    (let o : Out := { run with nW := 1 }
     o.nW ≠ o.nD ∧ o.f0 + (o.nD + 1) * st ≤ 1 * st) ∧
    (let o : Out := { run with nW := 1, nD := 1, staged := [(0, 0, [])] }
     o.nO < o.nD ∧ o.f0 + (o.nO + 1) * st + 64000 ≤ st + 64000 ∧ o.link = true ∧ o.nO % 16 = 0 ∧ o.bad = false ∧ ({ o with bad := true } : Out).bad = true ∧ o.staged.filter (fun y => y.1 == o.nO) = (0, 0, []) :: []) ∧
    (let o : Out := { run with nO := 1, line := some 0, staged := [(0, 1, [])] }
     o.line = some 0 ∧ o.f0 + o.nO * o.st + 64000 + (0 + 1) * o.linecyc ≤ st + 64000 + o.linecyc ∧ o.staged = (0, 0 + 1, []) :: [] ∧ 0 + 1 = o.nO) ∧
    (run.run = true ∧ run.attached = true ∧ ({} : Out).attached = false ∧ ({ run with line := some 0 } : Out).link = true ∧ 3 < 4 ∧ 15 < 16) ∧ (({} : Out).ctl.getLsbD 0 = false ∧ ({ ctl := 1 } : Out).ctl.getLsbD 0 = true) ∧
    (({} : View).vctl.getLsbD 0 = false ∧ ({ vctl := 1 } : View).vctl.getLsbD 0 = true) := by decide +kernel

theorem witness_CommandsComplete :
    (let s := hosting {}
     s.cmdbusy = false ∧ s.mc.recovery = false ∧ s.cmdarg0.toNat % 256 = 0 ∧ (inRange s 0 0x20000 256 || inRange s 1 0x20000 256) = true ∧
      ctxDescOk (loadBytes s 0x20000 256) = true ∧ (s.ctx 0xFFFFFF).live = false ∧ (s.ctxs.filter (fun e => e.2.live)).length < 1024) ∧
    (let s := hosting { live := true, gang := 7 }
     (s.ctx 1).live = true ∧ hasWork s 1 = false ∧ s.queues.any (fun e => e.2.en && e.2.cx == 1) = false ∧ s.cmdarg0.toNat % 65536 = 0 ∧ s.cmdarg1.toNat % 65536 = 0 ∧
      inFlight s 1 = false ∧ s.cmdarg0.toNat % 4096 = 0 ∧ (s.ctx 1).stop ≠ 1 ∧ (s.ctx 1).killed = false ∧ (s.ctx 1).gang ≠ 0 ∧
      bits s.cmdarg1 19 0 ≠ 0 ∧ s.cmdarg1.toNat ≤ 1000000) ∧
    (let s : State := { hosting { live := true } with queues := [(63, { ctl := 0x10009 })] }
     (s.ctx 1).live = true ∧ (s.ctx 1).stop = 0 ∧ s.queues.any (fun e => e.2.pe && e.2.cx == 1) = true) ∧
    (let s := storeWords (hosting { live := true, stop := 2 }) 0x20000 [1 + 2 ^ 32, 264, 32 * 2 ^ 32]
     imagesFrom s 1 (s.mem.length + 1) 0x20000 = [(none, true)] ∧ (s.ctx 1).stop ≠ 1 ∧ imagesFrom s 1 (s.mem.length + 1) 0x30000 = []) ∧
    (let s : State := { storeWords (hosting { live := true, stop := 2 }) 0x20000 [1 + 2 ^ 32, 264, 32 * 2 ^ 32] with
       cmdarg0 := 0x20000 }
     (s.ctx 1).live = true ∧ s.cmdarg0.toNat % 4096 = 0 ∧ ((hosting {}).cmdarg0 + 8).toNat % 4096 ≠ 0) ∧
    (let s (c : Ctx) := storeWords (hosting { c with live := true }) 0x20000 [1 + 2 ^ 32, 264, 32 * 2 ^ 32]
     ((s { stop := 1 }).ctx 1).live = true ∧ ((s { stop := 1 }).ctx 1).stop = 1 ∧
      ((s { killed := true }).ctx 1).killed = true) ∧
    (bits (0x100 : W64) 7 0 = 0 ∧ 8 < bits (0x109 : W64) 7 0) ∧
    (({ hosting {} with mc := { recovery := true } } : State).mc.recovery = true) ∧
    (let s : State := { hosting {} with cmdbusy := true, cmd := 0x103 }
     s.cmdbusy = true ∧ bits32 s.cmd 31 8 = 1 ∧ inFlight s 1 = false) := by decide +kernel
theorem witness_HostRegisterWritesComplete :
    (63 < 64 ∧ (hosting {}).mc.recovery = false ∧ ((hosting {}).queue 63).dl = false ∧ lo32 1 ≠ ((hosting {}).queue 63).tail) ∧
    ((launching 0 id).queue 63).dl = true ∧ (4 ≤ bits (16 : W64) 4 0 ∧ bits (16 : W64) 4 0 ≤ 16) ∧ (4 ≤ bits (4 : W64) 4 0) ∧
    (hosting {}).ctxs.any (fun e => e.2.live) = false ∧ (hosting { live := true }).ctxs.any (fun e => e.2.live) = true ∧
    (31 < (liveClusters (hosting {})).length ∧ 31 < 32) ∧ (0x34 % 8 ≠ 0 ∧ 0x60000 ≤ 0x60000) ∧
    (let s : State := { hosting {} with dies := [(1, { halt := true })] }
     (s.die 1).halt = true) := by decide +kernel

/-- A queue of an open context with one packet whose bytes from 0x30 and 0x40 are a wait word's and a signal's address and value. -/
def dispatching (wait : W64) (value : Nat) (ctl : W64) : State :=
  storeWords { State.reset with
      ctxs := [(1, { live := true })], dies := [(0, { tlb := [{ ctx := 1, page := 1, leaf := 0x1009D#64 }] })]
      queues := [(0, { ctl := ctl, base := 0x20000, mask0 := BitVec.allOnes 64, tail := 1, ready := true, arrivals := [(1, 1)] })
        , (63, { ctl := ctl, base := 0x20000, mask0 := BitVec.allOnes 64, tail := 1, arrivals := [(1, 0)] })] }
    0x20000 [0x10000, 0, 0x100000001, 0x10100000001, 0x10000 + 4 * 2 ^ 48, 0, wait.toNat, value]
/-- A head with a misaligned word, one that waits for nothing, and ones whose word has and has not come. -/
theorem witness_DispatchEventsComplete_heads :
    (let s := dispatching 0 0 0x10001
     presents s 63 = true ∧ (s.queue 63).headKern = none ∧ (s.queue 63).ready = false ∧ (63, (s.queue 63).head.toNat) ∉ (s.die 0).heldHeads ∧ ((headPkt s 63).reason s (s.queue 63)) = none ∧
      (headPkt s 63).barrier = false ∧ (headPkt s 63).f 0x38 8 = 0) ∧
    (let s := dispatching 0x10001 1 0x10001
     presents s 63 = true ∧ ((headPkt s 63).reason s (s.queue 63)) = some 2 ∧ ((s.queue 63).dl || ringReady s 1 3) = true ∧
      ringReady { s with ctxs := [(1, { live := true, held := [(3, [])] })] } 1 3 = false) ∧
    (let s := dispatching 0x100000 1 0x10001
     ((headPkt s 63).reason s (s.queue 63)) = none ∧ (headPkt s 63).f 0x38 8 ≠ 0 ∧
      (match checkPage s 1 0 (w64 ((headPkt s 63).f 0x30 8)) .read with | .ok _ => false | .error _ => true) = true) ∧
    (let s (n : Nat) := dispatching 0x1FFF8 n 0x10001
     ((headPkt (s 1) 63).reason (s 1) ((s 1).queue 63)) = none ∧ (headPkt (s 1) 63).f 0x38 8 = 1 ∧ w64 ((headPkt (s 1) 63).f 0x30 8) = 0x1FFF8 ∧
      (match checkPage (s 1) 1 0 0x1FFF8 .read with | .ok (_, p) => p.resident && p.key == 0x1FFF8 | .error _ => false) = true ∧
      sendAll 1 [0x1FFF8] (s 1) = (s 1, true) ∧ isBad (s 1) 0x1FFF8 = false ∧ rdMem (s 1).mem 0x1FFF8 8 < 1 ∧ 1 ≤ rdMem (storeMem 0x1FFF8 8 1 false (s 1)).mem 0x1FFF8 8) := by decide +kernel
/-- The dispatcher places the ready head of the lowest queue on core 0; a breakpoint on its queue halts it. -/
theorem witness_DispatchEventsComplete_placement :
    let s := dispatching 0 0 0x10001
    s.mc.recovery = false ∧ s.resumes = [] ∧ choosable s 0 = true ∧ (s.queue 0).ready = true ∧ (headPlace s 0 0 [0]).isSome = true ∧ toMatch s 0 0 = true ∧ matchBp s 0 0 = none ∧
      matchBp { s with dies := [(0, { dbp3 := 3 })] } 0 0 = some 3 ∧ (s.die 0).halt = false := by decide +kernel
/-- A kernel that has ended, without a signal and with one at a resident word. -/
theorem witness_DispatchEventsComplete_signal :
    let k : Kernel := { live := true, ctx := 1, st := .signal }
    let k2 : Kernel := { k with pkt := recordOf 128 [(0x40, 8, 0x1FFF8)] }
    let s : State := { dispatching 0 0 0x10001 with kernels := [(1, k), (2, k2)] }
    (s.kernel 1).st = .signal ∧ (s.kernel 1).pktField 0x40 8 = 0 ∧ (s.kernel 2).st = .signal ∧ (s.kernel 2).pktField 0x40 8 = 0x1FFF8 ∧
      (match checkPage s 1 0 0x1FFF8 .rmw with | .ok (_, p) => p.resident && !isBad s p.key | .error _ => false) = true ∧
      sendAll 1 [0x1FFF8] s = (s, true) ∧ (sendAll 1 [2 ^ 80] { s with mc := { s.mc with lasia := 0 } }).2 = false ∧
      (match checkPage s 1 0 0x100000 .rmw with | .ok _ => false | .error _ => true) = true ∧ ringReady s 1 3 = true := by decide +kernel

theorem witness_ContextEventsComplete :
    (32 ≤ (batchOf { State.reset with dies := [(0, { batch := List.replicate 32 { ctx := 1 } })] } 0 1).length) ∧
    (let s := hosting { live := true, desc := 0x20000, held := [(1, [])] }
     ((s.ctx 1).held.find? (fun h => h.1 == 1)).isSome = true ∧ ringFull s 1 1 = false) ∧
    (let s : State := { dev id with ctxs := [(1, { live := true, gang := 7, gstart := some (0, 1) })] }
     (s.ctx 1).gstart = some (0, 1) ∧ mayAccept s 1 = true ∧ (s.ctx 1).accepted = false ∧
      s.ctxs.filter (fun e => e.2.live && e.2.gang == 7 && (7 : BitVec 16) != 0) = [(1, s.ctx 1)] ∧ (s.ctx 1).stop ≠ 1 ∧ s.mc.us < 1) ∧
    (let s : State := { dev id with ctxs := [(1, { live := true, gang := 7, gstart := some (0, 0) })] }
     (s.ctx 1).gstart = some (0, 0) ∧ (s.ctx 1).accepted = false ∧ 0 ≤ s.mc.us) ∧
    (let s : State := { hosting { live := true, desc := 0x20000, stop := 1, stopped := [0], stopKerns := [1], imageAt := 0x30000 } with
       kernels := [(1, { live := true, ctx := 1, pkt := List.replicate 128 0 })] }
     drained s 1 = true ∧ ringReady s 1 3 = true ∧ drained (syncAll 1 (freesJoined 1 s)) 1 = true ∧ (s.kernel 1).pkt.length = 128 ∧ (s.ctx 1).nImg = 0) ∧
    (let s : State := { dev id with ctxs := [(1, { live := true, stop := 1 })] }
     (s.ctx 1).stop = 1 ∧ 0 ∉ (s.ctx 1).stopped ∧ drained s 1 = false ∧
      drained { s with ctxs := [(1, { live := true, stop := 1, stopped := [0], stopKerns := [1] })] } 1 = true) := by decide +kernel
theorem witness_MemoryAndErrorEventsComplete :
    (State.reset.mc.recovery = false ∧ isDevice State.reset 0x2FFFFFFFF8 (min 8 8) = true ∧ isDevice State.reset 0x2FFFFFFFF9 (min 8 8) = false ∧
      isDevice State.reset 0x2FFFFFFFFF (min 1 8) = true) ∧
    (gangHere { dev id with ctxs := [(1, { live := true, gang := 65535 })] } 65535 = true ∧ gangHere State.reset 65535 = false) ∧ 2 ^ 100 - 1 < 2 ^ 100 ∧
    (isBad (storeMem 0 8 0 true State.reset) 0 = true ∧ isBad State.reset 0 = false ∧ isDevice State.reset 0 8 = true) ∧
    (3 < 4 ∧ 255 < 256 ∧ 2 ^ 104 - 1 < 2 ^ 104) := by
  decide +kernel
/-- Whether an image of firmware passes its check is a free value of Config: no value of it can be shown. -/
theorem witness_ManagementEventsComplete (image : Recovery) :
    (Config.firmwareAccepted image.bytes = true ∨ Config.firmwareAccepted image.bytes = false) ∧
    (let s (n : Nat) : State := { State.reset with mc := { spdm := n } }
     1 ≤ (s 1).mc.spdm ∧ 2 ≤ (s 2).mc.spdm ∧ 3 ≤ (s 3).mc.spdm ∧ (s 2).mc.spdm < 3 ∧ 1 ≤ 5 ∧ 5 ≤ 5) := by
  refine ⟨?_, by decide⟩
  cases Config.firmwareAccepted image.bytes <;> simp

/-- A warp whose page holds an EXIT, a literal-bearing word and an unassigned word; its turn comes first. -/
def running (w : Nat) (pc : W64) : State := { storeWords (dev (fun v => { v with p := { v.p with pc := pc } })) 0x10000 [w] with agenda := [.issue 1 false] }
theorem witness_StepRunsTheInstruction : let s := running 0x123456782A000000 0x10000
    (s.agenda = [.issue s.w.wid s.w.onB] ∧ s.w.resident = true ∧ s.w.pend = none ∧ mayExamine { s with agenda := [] } s.w s.w.onB = true ∧
      firstChoice { s with agenda := [] } s.w s.w.onB = true ∧ s.w.arrived = none ∧ s.w.dueFault = none ∧ spanMet s.w = .ready ∧ toRoute s.w = false ∧ (match checkPage s 1 0 0x10000 .fetch with | .ok (_, p) => p.resident && p.key == 0x10000 | .error _ => false) = true ∧
      (icLine s 0 0x10000).live = false ∧ isBad s 0x10000 = false ∧ isLiteralOp (firstWord (loadBytes s 0x10000 4)) = false) ∧
    (let t := running 0x3FC0000052480000 0x10000
     isLiteralOp (firstWord (loadBytes t 0x10000 4)) = true ∧ t.w.p.pc.getLsbD 2 = false) ∧
    (let u : State := { s with w := { s.w with block := some 9, waits := [0x00, 0x00, 0x00, 0x2A] } }
     mayExamine { u with agenda := [] } u.w u.w.onB = true ∧ firstChoice { u with agenda := [] } u.w u.w.onB = true ∧
      toRoute u.w = false ∧ u.w.arrived = some [0x00, 0x00, 0x00, 0x2A]) := by decide +kernel
theorem witness_StepRunsTheInstruction_decodes :
    (∃ i rest, decode [0x00, 0x00, 0x00, 0x2A] = .ok (i, rest)) ∧ (∃ e, decode [0xFF, 0xFF, 0xFF, 0xFF] = .error e) := ⟨⟨_, _, rfl⟩, ⟨_, rfl⟩⟩
theorem witness_DecodeInvertsEncode : (Instr.xsend 15 48 16 true).isEvent = false ∧ (Instr.xsend 15 48 16 true).WF ∧
    (Instr.vmovl 63 false 0xFFFFFFFF).isEvent = false ∧ (Instr.vmovl 63 false 0xFFFFFFFF).WF := ⟨rfl, rfl, rfl, rfl⟩
theorem witness_GuardedOffFallsThrough : (Instr.vmovl 63 true 1).isEvent = false ∧ guarded (encodeWord (.vmovl 63 true 1)) = true ∧
    ((gen modeReset).w.active true = 0) ∧ ∀ g, Instr.vmovl 63 true 1 ≠ .exit g := by
  refine ⟨rfl, rfl, by decide +kernel, fun _ h => by cases h⟩
/-- A legal VADD, one of a register beyond the frame, an awaited and a poisoned operand, another role, and a misaligned VMOVL. -/
theorem witness_IssueChecksTrap :
    (let s := gen (types 7 7)
     s.w.active false ≠ 0 ∧ intType 7 = true ∧ intType 12 = false ∧ s.w.p.enter = false ∧ (vop 63 7).legal s.w.p = true ∧ (vop 63 9).legal s.w.p = false ∧
      s.w.awaitedV ++ awaitedMovv s s.w = [] ∧ s.w.role = .general) ∧
    (let s := genW (fun w => { w with role := .feed })
     s.w.tlevel = 0 ∧ s.w.role ≠ .general) ∧
    (let s := genW (fun w => { w with ops := [{ dst := .vec 63 4 false }] })
     ∃ x ∈ s.w.awaitedV ++ awaitedMovv s s.w, rangesMeet (s.w.p.wbase + (vop 63 7).n, (vop 63 7).cnt) x = true) ∧
    (let s := genW (fun w => { w with v := [(32 * 63 + 31, ⟨0, true⟩)] })
     (s.w.active false).getLsbD 31 = true ∧ (useV 63 7).bad s.w 31 = true ∧ (useV 62 7).bad s.w 31 = false ∧ s.w.activeTx (s.w.active false) = 0) ∧
    (let s := genW (fun w => { w with p := { w.p with pc := 0x1004#64 } })
     s.w.p.enter = false ∧ (vop1 63).legal s.w.p = true ∧ s.w.p.pc.getLsbD 2 = true) := by decide +kernel
theorem witness_StepKeepsMemoryCanonical : Safe (running 0x2A000000 0x10000) := by
  show canon (0 : Byte) (running 0x2A000000 0x10000).mem = true
  decide +kernel

/-! ### Memory, scratch, barriers and transactions -/

/-- The state that follows, or the state itself. -/
def after (i : Instr) (s : State) : State := nextOf s id (exec i s)
/-- The scalar register 5 after an LDU from s1 under a MODE, once its operation has been performed, where memory holds a doubleword at 0x10000. -/
noncomputable def loaded (ty : Nat) (ea : W64) : W64 :=
  ((after (.memoryOpComplete 1 0 0xFFFFFFFF) (after (.ldu 5 1 0 0 0 false false)
    (storeMem 0x10000 8 0x8182838485868788#64 false (devM (types ty ty) [(1, ⟨ea, false⟩)] [])))).w.sr 5).bits
/-- R14, R111, R209: little-endian bytes; SI8 is sign-extended, UI8 is not; SI32 at the upper word. -/
theorem test_ldu : loaded 2 0x10007 = 0x81 ∧ loaded 3 0x10007 = 0xFFFFFFFFFFFFFF81 ∧ loaded 7 0x10004 = 0xFFFFFFFF81828384 ∧
    loaded 8 0x10000 = 0x8182838485868788 := by decide +kernel
/-- R202: an LDU of a poisoned word is poisoned; a misaligned one traps with ALIGN at level 1. -/
theorem test_ldu_poison : ((after (.memoryOpComplete 1 0 0xFFFFFFFF) (after (.ldu 5 1 0 0 0 false false)
    (storeMem 0x10000 8 0 true (devM (types 6 6) [(1, ⟨0x10004, false⟩)] [])))).w.sr 5).bad = true ∧
    (after (.ldu 5 1 0 0 0 false false) (let s := devM (types 6 6) [(1, ⟨0x10002, false⟩)] []
      { s with w := { s.w with tvec := 0x25080#64, budget := 192 } })).w.bank1.cause = 3 := by decide +kernel
/-- R210: STU.TB of one byte changes that byte alone. -/
theorem test_stu : let s := after (.memoryOpComplete 1 0 0xFFFFFFFF) (after (.stu 2 1 0 0 0 false true)
      (storeMem 0x10000 8 0x1111111111111111#64 false (devM (types 6 2) [(1, ⟨0x10003, false⟩), (2, ⟨0xABCD, false⟩)] [])))
    rdMem s.mem 0x10000 8 = 0x11111111CD111111 := by decide +kernel
/-- R214: lanes of an atomic add to one word act in ascending order: lane 0 gets the old value, lane 1 one more. -/
theorem test_atom : let s := devM (types 6 6) [(1, ⟨0x10000, false⟩)] [(32 * 3, ⟨1, false⟩), (32 * 3 + 1, ⟨1, false⟩)]
    let t := after (.memoryOpComplete 1 0 0xFFFFFFFF) (after (.atom 5 1 2 0 0) { s with w := { s.w with p := { s.w.p with mask := 3 } } })
    (t.w.vl 5 0).bits = 0 ∧ (t.w.vl 5 1).bits = 1 ∧ rdMem t.mem 0x10000 4 = 2 := by decide +kernel
/-- 10_memory_notes.md: WAIT 3 with four loads outstanding blocks, and with three passes. -/
theorem test_wait : let s (n : Nat) := dev (fun w => { w with ops := List.replicate n { todo := [{ key := 0x10000 }] } })
    (after (.wait 3 63 63 63) (s 4)).w.block = some 5 ∧ (after (.wait 3 63 63 63) (s 3)).w.p.pc = 0x1004 := by decide +kernel
/-- 16_copy_matrix_notes.md: the shape word 0x00040081 is 129 rows of 128 bytes, which rounds up to 16,640 and gives handle 0. -/
theorem test_talloc : let s := after (.talloc 17 18 false) { dev (fun w => { w with s := [(18, ⟨0x00040081, false⟩)] }) with
      wgs := [(1, { live := true, kern := 1, launch := 1, reserve := 16640, free := 16640 })] }
    (s.w.sr 17).bits = 0 ∧ (s.wg 1).free = 0 ∧ (look {} (s.wg 1).handles 0).live = true := by decide +kernel
/-- R229, R230: BINIT of EXPECT 1 writes EXPECT, PEND and VALID; one arrival completes the phase, so PHASE is 1 and PEND is 1 again. -/
theorem test_barrier_object : let s := after (.binit 1 2 false) (dev (fun w => { w with s := [(1, ⟨1, false⟩), (2, ⟨1, false⟩)] }))
    rdMem s.mem (scratchKey 1 0) 8 = 0x00010001 ∧ rdMem s.mem (scratchKey 1 8) 8 = 0x080000 ∧
    (readBar (after (.barv 1 false) s) (scratchKey 1 0)).phase = true ∧ (readBar (after (.barv 1 false) s) (scratchKey 1 0)).pend = 1 := by decide +kernel
/-- R235: WGBAR of the one warp of a workgroup completes the phase and passes. -/
theorem test_wgbar : let s := after (.wgbar false) (dev id)
    (s.wg 1).bar.phase = 1 ∧ s.w.p.pc = 0x1004 ∧ s.w.block = none := by decide +kernel
/-- R246, R254: a store of an ACTIVE lane is not seen in memory until TXEND commits it. -/
theorem test_transaction : let s0 := devM (types 6 6) [(1, ⟨0x10000, false⟩)] [(32 * 4, ⟨77, false⟩)]
    let s1 := after (.txbegin 0 false 4) { s0 with w := { s0.w with p := { s0.w.p with mask := 1 } } }
    let s2 := after (.st 4 1 2 0 0 false false) s1
    rdMem s2.mem 0x10000 4 = 0 ∧ rdMem (after .txend s2).mem 0x10000 4 = 77 ∧ (after .txend s2).w.group = none := by decide +kernel
/-- R255: TXABORT 5 leaves the cause EXPLICIT (6) with its code, which TXCAUSE reads after the routing. -/
theorem test_txabort : let s1 := after (.txbegin 0 false 4) (dev id)
    ((after (.txabort 5 false) s1).w.txl 31).cause = 6 ∧ ((after (.txabort 5 false) s1).w.txl 31).code = 5 := by decide +kernel
/-- R203, R281: a copy of eight F32 is outstanding with number 0; a row moves 32 bytes to the segment, and the copy ends. -/
theorem test_cpld : let s := storeMem 0x11000 4 0x3F800000 false (copying 1 0 [(0, ⟨1, false⟩)])
    let t := after (.cpld 63 0 false) s
    t.w.cp = 1 ∧ t.w.cpseq = 1 ∧ rdMem t.mem (scratchKey 1 0) 4 = 0 ∧ rdMem (after (.copyRow 1) t).mem (scratchKey 1 0) 4 = 0x3F800000 ∧
    (after (.wait 63 63 0 63) (after (.copyRow 1) (after (.copyRow 1) t))).w.p.pc = 0x1008 := by decide +kernel

/-! ### Tiles, REGROUP, traps and control registers -/

/-- One element of `MMA a0, t0, t1` on E4M3 rows of 32 columns (16_copy_matrix_notes.md). -/
def fp8 (a b : List (Nat × W64)) : W64 :=
  let c : BitVec 21 := BitVec.ofNat 21 (15 + 31 * 2048)
  look 0 (mmaInto { cfg := c, el := a } { cfg := c, el := b } false {}).el 0
/-- Case 1 cancels to +0; case 2 keeps 2^−17. -/
theorem test_mma_blocks : fp8 [(0, 0x7E), (1, 0x01), (16, 0xFE), (17, 0x01)] [(0, 0x7E), (1, 0x01), (16, 0x7E), (17, 0x01)] = 0 ∧
    fp8 [(0, 0x7E), (1, 0x01), (2, 0xFE), (17, 0x01)] [(0, 0x7E), (1, 0x01), (2, 0x7E), (17, 0x01)] = 0x37000000 := by decide +kernel
/-- 06_vector_notes.md: REGROUP.G v5, v4, 1 on the lanes 1, 2, 5 and 6 of p1. -/
theorem test_regroup : let s := dev (fun w => { w with
      pr := [(1, 0x66)], p := { w.p with mask := 0xFF, mode := modeReset ||| 1#32 }
      tid := (List.range 8).map (fun l => (l, BitVec.ofNat 32 l))
      v := [(128, ⟨9, false⟩), (129, ⟨7, false⟩), (130, ⟨3, false⟩), (131, ⟨1, false⟩), (132, ⟨5, false⟩), (133, ⟨3, false⟩), (135, ⟨8, false⟩)
        , (161, ⟨101, false⟩), (162, ⟨102, false⟩), (165, ⟨105, false⟩), (166, ⟨106, false⟩)] })
    let t := after (.regroup 5 4 1 true) s
    (t.w.vl 5 1).bits = 106 ∧ (t.w.vl 5 2).bits = 102 ∧ (t.w.vl 5 6).bits = 101 ∧ (t.w.vl 4 1).bits = 0 ∧ (t.w.vl 4 6).bits = 7 ∧ look 0 t.w.tid 1 = 6 ∧
      look 0 t.w.tid 6 = 1 := by decide +kernel
/-- R44: windows count as they stand: [64,128) and [136,200) span 136 registers, whatever window a stalled CALL asks for. -/
theorem test_span : let x : Path := { st := .running, wbase := 64, fsize := 8, want := some (120, 184) }
    let y : Path := { st := .running, wbase := 136, fsize := 8 }
    ({ budget := 128 } : Warp).fits [x, y] = false ∧ ({ budget := 136 } : Warp).fits [x, y] = true := by decide +kernel
/-- R314 step 4: a vertex whose w has rounded to infinity has x/w, y/w, z/w and 1/w of 0, and is no drop. -/
theorem test_vam_infinite_w : stored ⟨.fin ⟨1, 1⟩, .fin ⟨-1, 1⟩, .fin ⟨0, 1⟩, .inf false⟩ = some { x := 0, y := 0, z := 0, q := 0 } := by decide +kernel
/-- R343: TRAP 42 enters with cause USER_TRAP and the immediate as TVAL; without a handler the context is killed (R345). -/
theorem test_trap : let s := after (.trap 42) (dev (fun w => { w with tvec := 0x25080#64, budget := 192 }))
    s.w.bank1.cause = 0x14 ∧ s.w.bank1.tval = 42 ∧ s.w.tlevel = 1 ∧ s.w.p.pc = 0x25080 ∧ (let t := after (.brk 1) (dev id)
     (t.ctx 1).dying.map (fun d => (d.reason, d.cause)) = some (1, 0x13) ∧ (endKills t).w.resident = false) := by decide +kernel
/-- R344: RETT goes back behind the trapped instruction where SKIP is set. -/
theorem test_rett : let s := after (.trap 42) (dev (fun w => { w with tvec := 0x25080#64, budget := 192 }))
    (after .rett { s with w := { s.w with bank1 := { s.w.bank1 with skip := true } } }).w.p.pc = 0x1004 ∧ (after .rett s).w.tlevel = 0 := by decide +kernel
/-- R347, R350: CSR 0x000 reads the warp width, FFLAGS keeps five bits, and TVEC's low bits read 0. -/
theorem test_csr : let s := dev (fun w => { w with s := [(1, ⟨0xFFFFFFFFFFFFFFFF, false⟩)] })
    ((after (.csrr 2 0x000) s).w.sr 2).bits = 32 ∧ (after (.csrw 1 0x011) s).w.fflags = 0x1F ∧ (after (.csrs 1 0x101) s).w.tvec = 0xFFFFFFFFFFFFFFFC := by decide +kernel
/-- R348: SLEEP with the wake bit set passes and clears it, without it the warp blocks; WAKE with ALL names every other warp, not its own. -/
theorem test_sleep : (after (.sleep 0 false) (dev (fun w => { w with wake := true }))).w.wake = false ∧ (after (.sleep 0 false) (dev id)).w.block = some 12 ∧
    (after (.wake 1 false) (dev (fun w => { w with s := [(1, ⟨0x20, false⟩)] }))).w.wake = false := by decide +kernel
/-- R371: REGISTER of a legal descriptor ends with STATUS 0, of a misaligned one with STATUS 1, TLBINV of no context with STATUS 2. -/
theorem test_register : (after (.register 1) (hosting {})).cmdstatus = 0 ∧ ((after (.register 1) (hosting {})).ctx 1).live = true ∧
    (after (.register 1) { hosting {} with cmdarg0 := 0x20080 }).cmdstatus = 1 ∧ (after (.tlbinv 9) (hosting {})).cmdstatus = 2 := by decide +kernel
/-- R8, R14: after reset memory lists nothing out of form, and 256 cores are present. -/
theorem test_reset_memory_form : Memory.wf State.reset.mem ∧ coreCount State.reset = 256 := by decide +kernel
/-- The word placed for a step is the one that the step runs. -/
theorem test_fetch_word : loadBytes (State.reset.withFetchWord 32 0x2A000000) 0x40000 4 = [0x00, 0x00, 0x00, 0x2A] ∧
    (State.reset.withFetchWord 32 0x2A000000).w.p.pc = 0x10000 := by decide +kernel

end Sys2Proof.Tests
end

section
/-! SUPPORT. Execution: the trap of the loop instructions, the warp at placement, and the pop of the reconvergence entries. -/

namespace Sys2Proof.Proofs
open Sys2Proof Sys2Proof.Machine

/-! ### The loop state (R56, R57, R170, R172) -/

/-- An instruction of one word and class control whose body traps in the lanes that it is given raises that trap (R86). -/
theorem controlGate_traps {word tval : W64} {scals : List Nat} {uses : List Use} {body : State → Mask → Res} {s : State} {cause : Nat}
    (hc : Clear s { cls := .control, scals := scals, uses := uses })
    (hbody : body s (s.w.active false) = trapAct cause tval (s.w.active false) s) :
    ({ word := word, cls := .control, scals := scals, uses := uses } : Gate).run body s =
      .next (raise (trapOf cause tval (s.w.active false) false) s) := by
  refine gate_clear rfl hc rfl rfl rfl rfl (by simp) (by simp) (.inl rfl) ?_
  dsimp only
  rw [hbody]
  rfl

/-- Three levels are active where the highest one is (R56). -/
theorem levels_eq_three {p : Path} (h : p.lc2.active = true) : p.levels = 3 := by
  rw [Path.levels, if_pos h]

/-- A path that can begin no further loop: three levels are active (R57), or it stands at the end address of the innermost
one (R170). -/
def AdmitsNoLoop (p : Path) : Prop :=
  p.lc2.active = true ∨ (p.levels ≠ 0 ∧ p.pc = (p.lc (p.levels - 1)).endAddr)

/-- Whatever the count, a loop instruction of such a path traps with LOOP_STATE. -/
theorem loopOp_traps {s : State} (h : AdmitsNoLoop s.w.p) (word : W64) (last : BitVec 8) (count : W64) (act : Mask) :
    loopOp word last count s act = trapAct 0x16 word act s := by
  rcases h with h3 | hend
  · exact if_pos (levels_eq_three h3)
  · rw [loopOp, if_pos hend, ite_self]

theorem exec_loop_traps {s : State} (last : BitVec 8) (count : BitVec 16) (hc : Clear s { cls := .control })
    (h : AdmitsNoLoop s.w.p) :
    exec (.loop last count) s = .next (raise (trapOf 0x16 (wordH 0x12 last count) (s.w.active false) false) s) :=
  controlGate_traps hc (loopOp_traps h ..)

theorem exec_loopr_traps {s : State} (last : BitVec 8) (sc : BitVec 6)
    (hc : Clear s { cls := .control, scals := [sc.toNat], uses := [useS sc] }) (h : AdmitsNoLoop s.w.p) :
    exec (.loopr last sc) s = .next (raise (trapOf 0x16
      (if 2 ^ 32 ≤ (s.w.sr sc.toNat).bits.toNat then (s.w.sr sc.toNat).bits else wordH 0x13 last (sc.zeroExtend 16))
      (s.w.active false) false) s) := by
  refine controlGate_traps hc ?_
  by_cases hbig : 2 ^ 32 ≤ (s.w.sr sc.toNat).bits.toNat
  · rw [if_pos hbig]
    exact if_pos hbig
  · rw [if_neg hbig]
    exact (if_neg hbig).trans (loopOp_traps h ..)

theorem exec_lbrk_traps {s : State} (hc : Clear s { cls := .control }) (h : s.w.p.levels = 0) :
    exec .lbrk s = .next (raise (trapOf 0x16 (wordN 0x14 false) (s.w.active false) false) s) := by
  refine controlGate_traps hc ?_
  dsimp only
  rw [h]

/-- LOOPR's 16-bit field holds ten zeroes above the number of its scalar (R170). -/
theorem zeroExtend_scalar (sc : BitVec 6) : sc.zeroExtend 16 = 0#10 ++ sc :=
  BitVec.setWidth_eq_append (by decide)

/-- Settles O9: LOOP and LOOPR through `loopOp`, which tests the levels before the count; LOOPR's own test comes first. -/
theorem loopStateTraps : Obligations.LoopStateTraps := by
  intro s last count sc
  refine ⟨fun hc h => exec_loop_traps last count hc h, fun hc h => ?_, fun hc h => exec_lbrk_traps hc h⟩
  have hr := exec_loopr_traps last sc hc h
  rw [zeroExtend_scalar] at hr
  exact hr

/-! ### A warp at placement (R31) -/

section
variable (s : State) (ctx kern wg core i : Nat) (pkt : Pkt) (sys : Bool)

/-- The path of a new warp: slot A's, with every lane, at the kernel's entry; its other fields are those of a path's default. -/
theorem newWarp_p : (newWarp s ctx kern wg core i pkt sys).p =
    { st := .running, pc := BitVec.ofNat 64 (pkt.f 0 8), mask := BitVec.allOnes 32 } := rfl

/-- No vector register of a new warp holds anything. -/
theorem newWarp_vl (n l : Nat) : (newWarp s ctx kern wg core i pkt sys).vl n l = {} := rfl

/-- No scalar register of a new warp holds anything. -/
theorem newWarp_sr (n : Nat) : (newWarp s ctx kern wg core i pkt sys).sr n = {} := rfl

end

/-- Settles O52, from the path and the registers that `newWarp` gives; what it does not name stands at the default of a warp. -/
theorem warpAtPlacement : Obligations.WarpAtPlacement := by
  intro s ctx kern wg core i pkt sys
  have hv := newWarp_vl s ctx kern wg core i pkt sys
  have hs := newWarp_sr s ctx kern wg core i pkt sys
  dsimp only
  rw [newWarp_p]
  exact ⟨rfl, rfl, rfl, rfl, rfl, rfl, rfl, rfl, rfl, hv, hs, rfl, rfl, rfl, rfl, rfl, rfl, rfl, ⟨rfl, rfl, rfl, rfl⟩, rfl, rfl⟩

/-! ### Reconvergence entries (R33) -/

/-- A pop moves the entries and changes nothing else exactly where the path owes no merge: it also withdraws the merge or
exchange that the path is still to seek (R36, R37, R49). -/
theorem popR_moves_entries_iff (p : Path) :
    p.popR = { p with r0 := p.r1, r1 := p.r2, r2 := p.r3, r3 := BitVec.allOnes 64 } ↔ p.owed = none := by
  constructor
  · intro h
    exact (congrArg Path.owed h).symm
  · intro h
    rw [Path.popR, ← h]
    rfl

/-- Refutes O60: a path that waits at its reconvergence address and still owes its merge, popped, owes it no longer, so that
the pop changes more than the entries. -/
theorem not_reconvergenceEntries : ¬ Obligations.ReconvergenceEntries := by
  intro h
  let p : Path := { st := .waiting, pc := 0x1000, r0 := 0x1000, owed := some true }
  obtain ⟨-, -, hpop, -⟩ := h p 0
  exact absurd ((popR_moves_entries_iff p).1 hpop) (by decide)

end Sys2Proof.Proofs
end

section
/-! SUPPORT. General facts that the proofs use beside the core library. -/

namespace Sys2Proof.Proofs

/-- A conditional depends on its branches where they are taken, and on its condition up to equivalence. -/
theorem ite_of_iff_ctx {α : Sort _} {p q : Prop} [Decidable p] [Decidable q] {x y u v : α} (h : p ↔ q) (h1 : q → x = u) (h2 : ¬q → y = v) :
    (if p then x else y) = if q then u else v :=
  ite_congr (propext h) h1 h2

theorem ite_of_iff {α : Sort _} {p q : Prop} [Decidable p] [Decidable q] {x y u v : α} (h : p ↔ q) (h1 : x = u) (h2 : y = v) :
    (if p then x else y) = if q then u else v :=
  ite_of_iff_ctx h (fun _ => h1) fun _ => h2

theorem foldl_ext {α β : Type} (f g : α → β → α) (a : α) {xs : List β} (h : ∀ a, ∀ x ∈ xs, f a x = g a x) : xs.foldl f a = xs.foldl g a := by
  induction xs generalizing a with
  | nil => rfl
  | cons x xs ih =>
    rw [List.foldl_cons, List.foldl_cons, h a x List.mem_cons_self]
    exact ih _ fun b y hy => h b y (List.mem_cons_of_mem x hy)

theorem getD_of_lt {α : Type} (xs : List α) (d : α) {i : Nat} (h : i < xs.length) : xs.getD i d = xs[i] := by
  rw [List.getD_eq_getElem?_getD, List.getElem?_eq_getElem h, Option.getD_some]

/-- Induction over a list from its front, one element added at its end. -/
theorem reverse_induct {α : Type} {motive : List α → Prop} (nil : motive [])
    (append_singleton : ∀ xs x, motive xs → motive (xs ++ [x])) (xs : List α) : motive xs := by
  have h : ∀ ys : List α, motive ys.reverse := fun ys => by
    induction ys with
    | nil => exact nil
    | cons y ys ih =>
      rw [List.reverse_cons]
      exact append_singleton _ y ih
  exact List.reverse_reverse xs ▸ h xs.reverse

end Sys2Proof.Proofs
end

section
/-! SUPPORT. Decoding: every instruction is read back from its words, and the words of the manual's encodings. -/

namespace Sys2Proof.Proofs
open Sys2Proof Sys2Proof.Laws

/-- The decoder reads every instruction back from its word and its literal: one case for each row of the opcode table. -/
theorem roundTrip : (i : Instr) → RoundTrip.Statement i
  | .nop => RoundTrip.nop
  | .sadd d a b g t => RoundTrip.sadd d a b g t
  | .ssub d a b g t => RoundTrip.ssub d a b g t
  | .smul d a b g t => RoundTrip.smul d a b g t
  | .smulh d a b g t => RoundTrip.smulh d a b g t
  | .sand d a b g t => RoundTrip.sand d a b g t
  | .sor d a b g t => RoundTrip.sor d a b g t
  | .sxor d a b g t => RoundTrip.sxor d a b g t
  | .sshl d a b g t => RoundTrip.sshl d a b g t
  | .sshr d a b g t => RoundTrip.sshr d a b g t
  | .ssar d a b g t => RoundTrip.ssar d a b g t
  | .smin d a b g t => RoundTrip.smin d a b g t
  | .smax d a b g t => RoundTrip.smax d a b g t
  | .sminu d a b g t => RoundTrip.sminu d a b g t
  | .smaxu d a b g t => RoundTrip.smaxu d a b g t
  | .sclz d a g t => RoundTrip.sclz d a g t
  | .spop d a g t => RoundTrip.spop d a g t
  | .saddi d a imm g => RoundTrip.saddi d a imm g
  | .scmpeq d a b g t => RoundTrip.scmpeq d a b g t
  | .scmpne d a b g t => RoundTrip.scmpne d a b g t
  | .scmplt d a b g t => RoundTrip.scmplt d a b g t
  | .scmple d a b g t => RoundTrip.scmple d a b g t
  | .scmpltu d a b g t => RoundTrip.scmpltu d a b g t
  | .scmpleu d a b g t => RoundTrip.scmpleu d a b g t
  | .scmpgt d a b g t => RoundTrip.scmpgt d a b g t
  | .scmpge d a b g t => RoundTrip.scmpge d a b g t
  | .scmpgtu d a b g t => RoundTrip.scmpgtu d a b g t
  | .scmpgeu d a b g t => RoundTrip.scmpgeu d a b g t
  | .smovi d imm => RoundTrip.smovi d imm
  | .sins16 d imm => RoundTrip.sins16 d imm
  | .sins32 d imm => RoundTrip.sins32 d imm
  | .sins48 d imm => RoundTrip.sins48 d imm
  | .smovl d g lit => RoundTrip.smovl d g lit
  | .smovlz d g lit => RoundTrip.smovlz d g lit
  | .smovlh d g lit => RoundTrip.smovlh d g lit
  | .ssel d a b c g => RoundTrip.ssel d a b c g
  | .sdiv d a b g t => RoundTrip.sdiv d a b g t
  | .sdivu d a b g t => RoundTrip.sdivu d a b g t
  | .srem d a b g t => RoundTrip.srem d a b g t
  | .sremu d a b g t => RoundTrip.sremu d a b g t
  | .pand d a b g => RoundTrip.pand d a b g
  | .por d a b g => RoundTrip.por d a b g
  | .pxor d a b g => RoundTrip.pxor d a b g
  | .pandn d a b g => RoundTrip.pandn d a b g
  | .pnot d a g => RoundTrip.pnot d a g
  | .pmov d a g => RoundTrip.pmov d a g
  | .pset d g => RoundTrip.pset d g
  | .pclr d g => RoundTrip.pclr d g
  | .pany d a g => RoundTrip.pany d a g
  | .pall d a g => RoundTrip.pall d a g
  | .ppop d a g => RoundTrip.ppop d a g
  | .ptos d a g => RoundTrip.ptos d a g
  | .stop d a g => RoundTrip.stop d a g
  | .br off => RoundTrip.br off
  | .brs a n off => RoundTrip.brs a n off
  | .brc p n tgt rcd => RoundTrip.brc p n tgt rcd
  | .brcl p n tgt lit => RoundTrip.brcl p n tgt lit
  | .call k off => RoundTrip.call k off
  | .callr a k => RoundTrip.callr a k
  | .ret => RoundTrip.ret
  | .enter f => RoundTrip.enter f
  | .loop last count => RoundTrip.loop last count
  | .loopr last sc => RoundTrip.loopr last sc
  | .lbrk => RoundTrip.lbrk
  | .exit g => RoundTrip.exit g
  | .setmg imm => RoundTrip.setmg imm
  | .setmt imm => RoundTrip.setmt imm
  | .setmr imm => RoundTrip.setmr imm
  | .setm d => RoundTrip.setm d
  | .getm d => RoundTrip.getm d
  | .vadd d a b g t => RoundTrip.vadd d a b g t
  | .vsub d a b g t => RoundTrip.vsub d a b g t
  | .vmul d a b g t => RoundTrip.vmul d a b g t
  | .vmulh d a b g t => RoundTrip.vmulh d a b g t
  | .vmulhu d a b g t => RoundTrip.vmulhu d a b g t
  | .vmin d a b g t => RoundTrip.vmin d a b g t
  | .vmax d a b g t => RoundTrip.vmax d a b g t
  | .vabs d a g t => RoundTrip.vabs d a g t
  | .vneg d a g t => RoundTrip.vneg d a g t
  | .vabsdiff d a b g t => RoundTrip.vabsdiff d a b g t
  | .vavg d a b g t => RoundTrip.vavg d a b g t
  | .vand d a b g t => RoundTrip.vand d a b g t
  | .vor d a b g t => RoundTrip.vor d a b g t
  | .vxor d a b g t => RoundTrip.vxor d a b g t
  | .vandn d a b g t => RoundTrip.vandn d a b g t
  | .vnot d a g t => RoundTrip.vnot d a g t
  | .vshl d a b g t => RoundTrip.vshl d a b g t
  | .vshr d a b g t => RoundTrip.vshr d a b g t
  | .vsar d a b g t => RoundTrip.vsar d a b g t
  | .vrol d a b g t => RoundTrip.vrol d a b g t
  | .vror d a b g t => RoundTrip.vror d a b g t
  | .vclz d a g t => RoundTrip.vclz d a g t
  | .vpop d a g t => RoundTrip.vpop d a g t
  | .vbrev d a g t => RoundTrip.vbrev d a g t
  | .vimad d a b c g => RoundTrip.vimad d a b c g
  | .vbfe d a b g t => RoundTrip.vbfe d a b g t
  | .vbfes d a b g t => RoundTrip.vbfes d a b g t
  | .vbfi d a b c g => RoundTrip.vbfi d a b c g
  | .vcmpeq d a b g t => RoundTrip.vcmpeq d a b g t
  | .vcmpne d a b g t => RoundTrip.vcmpne d a b g t
  | .vcmplt d a b g t => RoundTrip.vcmplt d a b g t
  | .vcmple d a b g t => RoundTrip.vcmple d a b g t
  | .vcmpltu d a b g t => RoundTrip.vcmpltu d a b g t
  | .vcmpleu d a b g t => RoundTrip.vcmpleu d a b g t
  | .vcmpgt d a b g t => RoundTrip.vcmpgt d a b g t
  | .vcmpge d a b g t => RoundTrip.vcmpge d a b g t
  | .vcmpgtu d a b g t => RoundTrip.vcmpgtu d a b g t
  | .vcmpgeu d a b g t => RoundTrip.vcmpgeu d a b g t
  | .vsel d a b c g => RoundTrip.vsel d a b c g
  | .vmov d a g t => RoundTrip.vmov d a g t
  | .vbcast d a g t => RoundTrip.vbcast d a g t
  | .vtos d a b g t => RoundTrip.vtos d a b g t
  | .stov d a b g t => RoundTrip.stov d a b g t
  | .vrdout d n g t => RoundTrip.vrdout d n g t
  | .vwrout n a g t => RoundTrip.vwrout n a g t
  | .vmovi d imm g => RoundTrip.vmovi d imm g
  | .vmovl d g lit => RoundTrip.vmovl d g lit
  | .vdiv d a b g t => RoundTrip.vdiv d a b g t
  | .vrem d a b g t => RoundTrip.vrem d a b g t
  | .vcvt d a g => RoundTrip.vcvt d a g
  | .vrndi d a g => RoundTrip.vrndi d a g
  | .vpack d a b g => RoundTrip.vpack d a b g
  | .vunpkl d a g => RoundTrip.vunpkl d a g
  | .vunpkh d a g => RoundTrip.vunpkh d a g
  | .fadd d a b g t => RoundTrip.fadd d a b g t
  | .fsub d a b g t => RoundTrip.fsub d a b g t
  | .fmul d a b g t => RoundTrip.fmul d a b g t
  | .fmin d a b g t => RoundTrip.fmin d a b g t
  | .fmax d a b g t => RoundTrip.fmax d a b g t
  | .fabs d a g t => RoundTrip.fabs d a g t
  | .fneg d a g t => RoundTrip.fneg d a g t
  | .fcopysign d a b g t => RoundTrip.fcopysign d a b g t
  | .fscale d a b g t => RoundTrip.fscale d a b g t
  | .ffma d a b c g => RoundTrip.ffma d a b c g
  | .fcmpeq d a b g t => RoundTrip.fcmpeq d a b g t
  | .fcmpne d a b g t => RoundTrip.fcmpne d a b g t
  | .fcmplt d a b g t => RoundTrip.fcmplt d a b g t
  | .fcmple d a b g t => RoundTrip.fcmple d a b g t
  | .fcmpgt d a b g t => RoundTrip.fcmpgt d a b g t
  | .fcmpge d a b g t => RoundTrip.fcmpge d a b g t
  | .fcmpueq d a b g t => RoundTrip.fcmpueq d a b g t
  | .fcmpune d a b g t => RoundTrip.fcmpune d a b g t
  | .fcmpult d a b g t => RoundTrip.fcmpult d a b g t
  | .fcmpule d a b g t => RoundTrip.fcmpule d a b g t
  | .fcmpugt d a b g t => RoundTrip.fcmpugt d a b g t
  | .fcmpuge d a b g t => RoundTrip.fcmpuge d a b g t
  | .fcmpord d a b g t => RoundTrip.fcmpord d a b g t
  | .fcmpunord d a b g t => RoundTrip.fcmpunord d a b g t
  | .frcp d a g t => RoundTrip.frcp d a g t
  | .frsq d a g t => RoundTrip.frsq d a g t
  | .fsqrt d a g t => RoundTrip.fsqrt d a g t
  | .fexp2 d a g t => RoundTrip.fexp2 d a g t
  | .flog2 d a g t => RoundTrip.flog2 d a g t
  | .fsin d a g t => RoundTrip.fsin d a g t
  | .fcos d a g t => RoundTrip.fcos d a g t
  | .ftanh d a g t => RoundTrip.ftanh d a g t
  | .ffract d a g t => RoundTrip.ffract d a g t
  | .fclass d a g t => RoundTrip.fclass d a g t
  | .fdiv d a b g t => RoundTrip.fdiv d a b g t
  | .fdot d a b c g => RoundTrip.fdot d a b c g
  | .lshuf d a b g t => RoundTrip.lshuf d a b g t
  | .lrot d a b g t => RoundTrip.lrot d a b g t
  | .lxorl d a b g t => RoundTrip.lxorl d a b g t
  | .lup d a b g t => RoundTrip.lup d a b g t
  | .ldown d a b g t => RoundTrip.ldown d a b g t
  | .lbcast d a b g t => RoundTrip.lbcast d a b g t
  | .lrotw d a b g t => RoundTrip.lrotw d a b g t
  | .lredadd d a g t => RoundTrip.lredadd d a g t
  | .lredmin d a g t => RoundTrip.lredmin d a g t
  | .lredmax d a g t => RoundTrip.lredmax d a g t
  | .lredand d a g t => RoundTrip.lredand d a g t
  | .lredor d a g t => RoundTrip.lredor d a g t
  | .lredxor d a g t => RoundTrip.lredxor d a g t
  | .lredfadd d a g t => RoundTrip.lredfadd d a g t
  | .lredfmin d a g t => RoundTrip.lredfmin d a g t
  | .lredfmax d a g t => RoundTrip.lredfmax d a g t
  | .lscanadd d a g t => RoundTrip.lscanadd d a g t
  | .lscanmin d a g t => RoundTrip.lscanmin d a g t
  | .lscanmax d a g t => RoundTrip.lscanmax d a g t
  | .lscanand d a g t => RoundTrip.lscanand d a g t
  | .lscanor d a g t => RoundTrip.lscanor d a g t
  | .lscanxor d a g t => RoundTrip.lscanxor d a g t
  | .lscanfadd d a g t => RoundTrip.lscanfadd d a g t
  | .lxscanadd d a g t => RoundTrip.lxscanadd d a g t
  | .lxscanmin d a g t => RoundTrip.lxscanmin d a g t
  | .lxscanmax d a g t => RoundTrip.lxscanmax d a g t
  | .lxscanand d a g t => RoundTrip.lxscanand d a g t
  | .lxscanor d a g t => RoundTrip.lxscanor d a g t
  | .lxscanxor d a g t => RoundTrip.lxscanxor d a g t
  | .lxscanfadd d a g t => RoundTrip.lxscanfadd d a g t
  | .lballot d a g => RoundTrip.lballot d a g
  | .lmatch d a g t => RoundTrip.lmatch d a g t
  | .xsend d a b g => RoundTrip.xsend d a b g
  | .xrecv d a b g => RoundTrip.xrecv d a b g
  | .regroup d a b g => RoundTrip.regroup d a b g
  | .vlane d g => RoundTrip.vlane d g
  | .ld d a b sc ord g t => RoundTrip.ld d a b sc ord g t
  | .st d a b sc ord g t => RoundTrip.st d a b sc ord g t
  | .ldu d a b sc ord g t => RoundTrip.ldu d a b sc ord g t
  | .stu d a b sc ord g t => RoundTrip.stu d a b sc ord g t
  | .ldh d a b sc ord g t => RoundTrip.ldh d a b sc ord g t
  | .sth d a b sc ord g t => RoundTrip.sth d a b sc ord g t
  | .atom d a b aop sc => RoundTrip.atom d a b aop sc
  | .atoma d a b aop sc => RoundTrip.atoma d a b aop sc
  | .red a b aop sc => RoundTrip.red a b aop sc
  | .atomh d a b aop sc => RoundTrip.atomh d a b aop sc
  | .talloc d a g => RoundTrip.talloc d a g
  | .tfree a g => RoundTrip.tfree a g
  | .tinfo d g => RoundTrip.tinfo d g
  | .wait ld st cp tl => RoundTrip.wait ld st cp tl
  | .waitrld a g => RoundTrip.waitrld a g
  | .waitrst a g => RoundTrip.waitrst a g
  | .waitrcp a g => RoundTrip.waitrcp a g
  | .waitrtl a g => RoundTrip.waitrtl a g
  | .pfl1 a b g => RoundTrip.pfl1 a b g
  | .pfllc a b g => RoundTrip.pfllc a b g
  | .cwb a b g => RoundTrip.cwb a b g
  | .cinv a b g => RoundTrip.cinv a b g
  | .icinv n g => RoundTrip.icinv n g
  | .fence sc g => RoundTrip.fence sc g
  | .binit a b g => RoundTrip.binit a b g
  | .barv a g => RoundTrip.barv a g
  | .barvx a b g => RoundTrip.barvx a b g
  | .barvd a g => RoundTrip.barvd a g
  | .bwait a b g => RoundTrip.bwait a b g
  | .btest d a b g => RoundTrip.btest d a b g
  | .cbara g => RoundTrip.cbara g
  | .cbarw g => RoundTrip.cbarw g
  | .cbar g => RoundTrip.cbar g
  | .wgbar g => RoundTrip.wgbar g
  | .wgbara g => RoundTrip.wgbara g
  | .wgbarw g => RoundTrip.wgbarw g
  | .txbegin sc fb off => RoundTrip.txbegin sc fb off
  | .txend => RoundTrip.txend
  | .txabort code g => RoundTrip.txabort code g
  | .txstat d g => RoundTrip.txstat d g
  | .txcause d g => RoundTrip.txcause d g
  | .cpld a b g => RoundTrip.cpld a b g
  | .cpst a b g => RoundTrip.cpst a b g
  | .cpred a b g => RoundTrip.cpred a b g
  | .cpg a b g => RoundTrip.cpg a b g
  | .cpc a b g => RoundTrip.cpc a b g
  | .cpw a b g => RoundTrip.cpw a b g
  | .cpq d a g => RoundTrip.cpq d a g
  | .cpcan a g => RoundTrip.cpcan a g
  | .tcfg d a g => RoundTrip.tcfg d a g
  | .tld d a b g => RoundTrip.tld d a b g
  | .tst d a b g => RoundTrip.tst d a b g
  | .tzero d g => RoundTrip.tzero d g
  | .azero d g => RoundTrip.azero d g
  | .mma d a b g => RoundTrip.mma d a b g
  | .mmap d a b g => RoundTrip.mmap d a b g
  | .mmapF d a b g => RoundTrip.mmapF d a b g
  | .mmag d a b g => RoundTrip.mmag d a b g
  | .tmovv d a b g => RoundTrip.tmovv d a b g
  | .tcvt d a g => RoundTrip.tcvt d a g
  | .tlds d a b g => RoundTrip.tlds d a b g
  | .msemitv a b g => RoundTrip.msemitv a b g
  | .msemitp a b g => RoundTrip.msemitp a b g
  | .vamp a g => RoundTrip.vamp a g
  | .gaze d a g => RoundTrip.gaze d a g
  | .rtfetch d a g => RoundTrip.rtfetch d a g
  | .tex d a b g => RoundTrip.tex d a b g
  | .texl d a b g => RoundTrip.texl d a b g
  | .texg d a b g => RoundTrip.texg d a b g
  | .texf d a b g => RoundTrip.texf d a b g
  | .texq d a b g => RoundTrip.texq d a b g
  | .rayl d a b g => RoundTrip.rayl d a b g
  | .raylw d a b g => RoundTrip.raylw d a b g
  | .rayr d a g => RoundTrip.rayr d a g
  | .vtdone d a g => RoundTrip.vtdone d a g
  | .csrr d csr => RoundTrip.csrr d csr
  | .csrw d csr => RoundTrip.csrw d csr
  | .csrs d csr => RoundTrip.csrs d csr
  | .csrc d csr => RoundTrip.csrc d csr
  | .trap imm => RoundTrip.trap imm
  | .brk imm => RoundTrip.brk imm
  | .rett => RoundTrip.rett
  | .yield g => RoundTrip.yield g
  | .sleep a g => RoundTrip.sleep a g
  | .wake a g => RoundTrip.wake a g
  | .dlaunch d a b g => RoundTrip.dlaunch d a b g
  | .djoin d a g => RoundTrip.djoin d a g
  | .pmark imm => RoundTrip.pmark imm
  | .framesync => RoundTrip.framesync
  | .trapEntry wid => RoundTrip.trapEntry wid
  | .fseSpill wid blk => RoundTrip.fseSpill wid blk
  | .fseFill wid blk => RoundTrip.fseFill wid blk
  | .ageingSwap wid => RoundTrip.ageingSwap wid
  | .ageRelease wid slotB => RoundTrip.ageRelease wid slotB
  | .parkedAgeSwap wid => RoundTrip.parkedAgeSwap wid
  | .sleepTimeout wid => RoundTrip.sleepTimeout wid
  | .memoryOpComplete wid seq lanes => RoundTrip.memoryOpComplete wid seq lanes
  | .mxaOperation core => RoundTrip.mxaOperation core
  | .copyRow copy => RoundTrip.copyRow copy
  | .rangeLockRelease copy => RoundTrip.rangeLockRelease copy
  | .tabardGrant dom => RoundTrip.tabardGrant dom
  | .vamPrimitive cluster => RoundTrip.vamPrimitive cluster
  | .wrsTileFinished cluster => RoundTrip.wrsTileFinished cluster
  | .rayTraversalComplete wid batch => RoundTrip.rayTraversalComplete wid batch
  | .stripWindowOpen out => RoundTrip.stripWindowOpen out
  | .stripDeadline out => RoundTrip.stripDeadline out
  | .stripOutput out => RoundTrip.stripOutput out
  | .displayLineStart out => RoundTrip.displayLineStart out
  | .dpHotPlug out attached => RoundTrip.dpHotPlug out attached
  | .viewEnable view value => RoundTrip.viewEnable view value
  | .viewDisable view value => RoundTrip.viewDisable view value
  | .outputEnable out value => RoundTrip.outputEnable out value
  | .outputDisable out value => RoundTrip.outputDisable out value
  | .sampleTick cluster => RoundTrip.sampleTick cluster
  | .trigstatArm cluster value => RoundTrip.trigstatArm cluster value
  | .register ctx => RoundTrip.register ctx
  | .unregister ctx => RoundTrip.unregister ctx
  | .tlbinv ctx => RoundTrip.tlbinv ctx
  | .replay ctx => RoundTrip.replay ctx
  | .preempt ctx => RoundTrip.preempt ctx
  | .resume ctx => RoundTrip.resume ctx
  | .kill ctx => RoundTrip.kill ctx
  | .gstart ctx => RoundTrip.gstart ctx
  | .preemptionStop core ctx => RoundTrip.preemptionStop core ctx
  | .contextImageWrite ctx => RoundTrip.contextImageWrite ctx
  | .qtailWrite queue tail => RoundTrip.qtailWrite queue tail
  | .dbpstatHaltClear die => RoundTrip.dbpstatHaltClear die
  | .registerWrite off value => RoundTrip.registerWrite off value
  | .dispatchStep die cores => RoundTrip.dispatchStep die cores
  | .headReadinessCheck die queue => RoundTrip.headReadinessCheck die queue
  | .doneSigIncrement kernel => RoundTrip.doneSigIncrement kernel
  | .faultBatchFull die ctx => RoundTrip.faultBatchFull die ctx
  | .faultBatchTimeout die ctx => RoundTrip.faultBatchTimeout die ctx
  | .heldRecordWrite ctx ring => RoundTrip.heldRecordWrite ctx ring
  | .gangAccept ctx => RoundTrip.gangAccept ctx
  | .gangTimeout ctx => RoundTrip.gangTimeout ctx
  | .gangAbort gang => RoundTrip.gangAbort gang
  | .fabricAccess gang op pa size x => RoundTrip.fabricAccess gang op pa size x
  | .lasiaPortFail port => RoundTrip.lasiaPortFail port
  | .hostMemoryAccess write pa size value => RoundTrip.hostMemoryAccess write pa size value
  | .correctedError cluster => RoundTrip.correctedError cluster
  | .uncorrectableError cluster place fetch => RoundTrip.uncorrectableError cluster place fetch
  | .expanderFailure port => RoundTrip.expanderFailure port
  | .mcLoopTick thermal current slew power reliability => RoundTrip.mcLoopTick thermal current slew power reliability
  | .yarrowReading delays reading => RoundTrip.yarrowReading delays reading
  | .deviceReset failed expanders => RoundTrip.deviceReset failed expanders
  | .firmwareRecovery image => RoundTrip.firmwareRecovery image
  | .getVersion => RoundTrip.getVersion
  | .getCapabilities => RoundTrip.getCapabilities
  | .negotiateAlgorithms => RoundTrip.negotiateAlgorithms
  | .getDigests => RoundTrip.getDigests
  | .getCertificate slot => RoundTrip.getCertificate slot
  | .challenge nonce => RoundTrip.challenge nonce
  | .getMeasurements index => RoundTrip.getMeasurements index
  | .triggerCycleReached cluster => RoundTrip.triggerCycleReached cluster
  | .linkTrainingDone out up => RoundTrip.linkTrainingDone out up
  | .lasiaPortTrained port => RoundTrip.lasiaPortTrained port
  | .cmdUnknownCode value => RoundTrip.cmdUnknownCode value

/-- Settles O55: each constructor's words are read back (`roundTrip`), and with them its bytes. -/
theorem decodeInvertsEncode : Obligations.DecodeInvertsEncode :=
  fun i rest hi hw => decode_bytes (roundTrip i) hi hw rest

/-- Settles O54: each word is decoded. -/
theorem wordsDecode : Obligations.WordsDecode := by
  refine ⟨?_, ?_, ?_, ?_, ?_, ?_, ?_, ?_, ?_⟩ <;> rfl

end Sys2Proof.Proofs
end

section
/-! SUPPORT. Every step of the machine keeps the canonical form of memory (R177). -/

namespace Sys2Proof.Proofs
open Sys2Proof Sys2Proof.Machine

/-- Every instruction and every event keeps memory canonical: one case for each. -/
theorem safe_exec (i : Instr) (s : State) (hs : Safe s) : SafeOut (exec i s) :=
  match i with
  | .nop => safe_execNop s hs
  | .sadd d a b g t => safe_execSadd d a b g t s hs
  | .ssub d a b g t => safe_execSsub d a b g t s hs
  | .smul d a b g t => safe_execSmul d a b g t s hs
  | .smulh d a b g t => safe_execSmulh d a b g t s hs
  | .sand d a b g t => safe_execSand d a b g t s hs
  | .sor d a b g t => safe_execSor d a b g t s hs
  | .sxor d a b g t => safe_execSxor d a b g t s hs
  | .sshl d a b g t => safe_execSshl d a b g t s hs
  | .sshr d a b g t => safe_execSshr d a b g t s hs
  | .ssar d a b g t => safe_execSsar d a b g t s hs
  | .smin d a b g t => safe_execSmin d a b g t s hs
  | .smax d a b g t => safe_execSmax d a b g t s hs
  | .sminu d a b g t => safe_execSminu d a b g t s hs
  | .smaxu d a b g t => safe_execSmaxu d a b g t s hs
  | .sclz d a g t => safe_execSclz d a g t s hs
  | .spop d a g t => safe_execSpop d a g t s hs
  | .saddi d a imm g => safe_execSaddi d a imm g s hs
  | .scmpeq d a b g t => safe_execScmpeq d a b g t s hs
  | .scmpne d a b g t => safe_execScmpne d a b g t s hs
  | .scmplt d a b g t => safe_execScmplt d a b g t s hs
  | .scmple d a b g t => safe_execScmple d a b g t s hs
  | .scmpltu d a b g t => safe_execScmpltu d a b g t s hs
  | .scmpleu d a b g t => safe_execScmpleu d a b g t s hs
  | .scmpgt d a b g t => safe_execScmpgt d a b g t s hs
  | .scmpge d a b g t => safe_execScmpge d a b g t s hs
  | .scmpgtu d a b g t => safe_execScmpgtu d a b g t s hs
  | .scmpgeu d a b g t => safe_execScmpgeu d a b g t s hs
  | .smovi d imm => safe_execSmovi d imm s hs
  | .sins16 d imm => safe_execSins16 d imm s hs
  | .sins32 d imm => safe_execSins32 d imm s hs
  | .sins48 d imm => safe_execSins48 d imm s hs
  | .smovl d g lit => safe_execSmovl d g lit s hs
  | .smovlz d g lit => safe_execSmovlz d g lit s hs
  | .smovlh d g lit => safe_execSmovlh d g lit s hs
  | .ssel d a b c g => safe_execSsel d a b c g s hs
  | .sdiv d a b g t => safe_execSdiv d a b g t s hs
  | .sdivu d a b g t => safe_execSdivu d a b g t s hs
  | .srem d a b g t => safe_execSrem d a b g t s hs
  | .sremu d a b g t => safe_execSremu d a b g t s hs
  | .pand d a b g => safe_execPand d a b g s hs
  | .por d a b g => safe_execPor d a b g s hs
  | .pxor d a b g => safe_execPxor d a b g s hs
  | .pandn d a b g => safe_execPandn d a b g s hs
  | .pnot d a g => safe_execPnot d a g s hs
  | .pmov d a g => safe_execPmov d a g s hs
  | .pset d g => safe_execPset d g s hs
  | .pclr d g => safe_execPclr d g s hs
  | .pany d a g => safe_execPany d a g s hs
  | .pall d a g => safe_execPall d a g s hs
  | .ppop d a g => safe_execPpop d a g s hs
  | .ptos d a g => safe_execPtos d a g s hs
  | .stop d a g => safe_execStop d a g s hs
  | .br off => safe_execBr off s hs
  | .brs a n off => safe_execBrs a n off s hs
  | .brc p n tgt rcd => safe_execBrc p n tgt rcd s hs
  | .brcl p n tgt lit => safe_execBrcl p n tgt lit s hs
  | .call k off => safe_execCall k off s hs
  | .callr a k => safe_execCallr a k s hs
  | .ret => safe_execRet s hs
  | .enter f => safe_execEnter f s hs
  | .loop last count => safe_execLoop last count s hs
  | .loopr last sc => safe_execLoopr last sc s hs
  | .lbrk => safe_execLbrk s hs
  | .exit g => safe_execExit g s hs
  | .setmg imm => safe_execSetmg imm s hs
  | .setmt imm => safe_execSetmt imm s hs
  | .setmr imm => safe_execSetmr imm s hs
  | .setm d => safe_execSetm d s hs
  | .getm d => safe_execGetm d s hs
  | .vadd d a b g t => safe_execVadd d a b g t s hs
  | .vsub d a b g t => safe_execVsub d a b g t s hs
  | .vmul d a b g t => safe_execVmul d a b g t s hs
  | .vmulh d a b g t => safe_execVmulh d a b g t s hs
  | .vmulhu d a b g t => safe_execVmulhu d a b g t s hs
  | .vmin d a b g t => safe_execVmin d a b g t s hs
  | .vmax d a b g t => safe_execVmax d a b g t s hs
  | .vabs d a g t => safe_execVabs d a g t s hs
  | .vneg d a g t => safe_execVneg d a g t s hs
  | .vabsdiff d a b g t => safe_execVabsdiff d a b g t s hs
  | .vavg d a b g t => safe_execVavg d a b g t s hs
  | .vand d a b g t => safe_execVand d a b g t s hs
  | .vor d a b g t => safe_execVor d a b g t s hs
  | .vxor d a b g t => safe_execVxor d a b g t s hs
  | .vandn d a b g t => safe_execVandn d a b g t s hs
  | .vnot d a g t => safe_execVnot d a g t s hs
  | .vshl d a b g t => safe_execVshl d a b g t s hs
  | .vshr d a b g t => safe_execVshr d a b g t s hs
  | .vsar d a b g t => safe_execVsar d a b g t s hs
  | .vrol d a b g t => safe_execVrol d a b g t s hs
  | .vror d a b g t => safe_execVror d a b g t s hs
  | .vclz d a g t => safe_execVclz d a g t s hs
  | .vpop d a g t => safe_execVpop d a g t s hs
  | .vbrev d a g t => safe_execVbrev d a g t s hs
  | .vimad d a b c g => safe_execVimad d a b c g s hs
  | .vbfe d a b g t => safe_execVbfe d a b g t s hs
  | .vbfes d a b g t => safe_execVbfes d a b g t s hs
  | .vbfi d a b c g => safe_execVbfi d a b c g s hs
  | .vcmpeq d a b g t => safe_execVcmpeq d a b g t s hs
  | .vcmpne d a b g t => safe_execVcmpne d a b g t s hs
  | .vcmplt d a b g t => safe_execVcmplt d a b g t s hs
  | .vcmple d a b g t => safe_execVcmple d a b g t s hs
  | .vcmpltu d a b g t => safe_execVcmpltu d a b g t s hs
  | .vcmpleu d a b g t => safe_execVcmpleu d a b g t s hs
  | .vcmpgt d a b g t => safe_execVcmpgt d a b g t s hs
  | .vcmpge d a b g t => safe_execVcmpge d a b g t s hs
  | .vcmpgtu d a b g t => safe_execVcmpgtu d a b g t s hs
  | .vcmpgeu d a b g t => safe_execVcmpgeu d a b g t s hs
  | .vsel d a b c g => safe_execVsel d a b c g s hs
  | .vmov d a g t => safe_execVmov d a g t s hs
  | .vbcast d a g t => safe_execVbcast d a g t s hs
  | .vtos d a b g t => safe_execVtos d a b g t s hs
  | .stov d a b g t => safe_execStov d a b g t s hs
  | .vrdout d n g t => safe_execVrdout d n g t s hs
  | .vwrout n a g t => safe_execVwrout n a g t s hs
  | .vmovi d imm g => safe_execVmovi d imm g s hs
  | .vmovl d g lit => safe_execVmovl d g lit s hs
  | .vdiv d a b g t => safe_execVdiv d a b g t s hs
  | .vrem d a b g t => safe_execVrem d a b g t s hs
  | .vcvt d a g => safe_execVcvt d a g s hs
  | .vrndi d a g => safe_execVrndi d a g s hs
  | .vpack d a b g => safe_execVpack d a b g s hs
  | .vunpkl d a g => safe_execVunpkl d a g s hs
  | .vunpkh d a g => safe_execVunpkh d a g s hs
  | .fadd d a b g t => safe_execFadd d a b g t s hs
  | .fsub d a b g t => safe_execFsub d a b g t s hs
  | .fmul d a b g t => safe_execFmul d a b g t s hs
  | .fmin d a b g t => safe_execFmin d a b g t s hs
  | .fmax d a b g t => safe_execFmax d a b g t s hs
  | .fabs d a g t => safe_execFabs d a g t s hs
  | .fneg d a g t => safe_execFneg d a g t s hs
  | .fcopysign d a b g t => safe_execFcopysign d a b g t s hs
  | .fscale d a b g t => safe_execFscale d a b g t s hs
  | .ffma d a b c g => safe_execFfma d a b c g s hs
  | .fcmpeq d a b g t => safe_execFcmpeq d a b g t s hs
  | .fcmpne d a b g t => safe_execFcmpne d a b g t s hs
  | .fcmplt d a b g t => safe_execFcmplt d a b g t s hs
  | .fcmple d a b g t => safe_execFcmple d a b g t s hs
  | .fcmpgt d a b g t => safe_execFcmpgt d a b g t s hs
  | .fcmpge d a b g t => safe_execFcmpge d a b g t s hs
  | .fcmpueq d a b g t => safe_execFcmpueq d a b g t s hs
  | .fcmpune d a b g t => safe_execFcmpune d a b g t s hs
  | .fcmpult d a b g t => safe_execFcmpult d a b g t s hs
  | .fcmpule d a b g t => safe_execFcmpule d a b g t s hs
  | .fcmpugt d a b g t => safe_execFcmpugt d a b g t s hs
  | .fcmpuge d a b g t => safe_execFcmpuge d a b g t s hs
  | .fcmpord d a b g t => safe_execFcmpord d a b g t s hs
  | .fcmpunord d a b g t => safe_execFcmpunord d a b g t s hs
  | .frcp d a g t => safe_execFrcp d a g t s hs
  | .frsq d a g t => safe_execFrsq d a g t s hs
  | .fsqrt d a g t => safe_execFsqrt d a g t s hs
  | .fexp2 d a g t => safe_execFexp2 d a g t s hs
  | .flog2 d a g t => safe_execFlog2 d a g t s hs
  | .fsin d a g t => safe_execFsin d a g t s hs
  | .fcos d a g t => safe_execFcos d a g t s hs
  | .ftanh d a g t => safe_execFtanh d a g t s hs
  | .ffract d a g t => safe_execFfract d a g t s hs
  | .fclass d a g t => safe_execFclass d a g t s hs
  | .fdiv d a b g t => safe_execFdiv d a b g t s hs
  | .fdot d a b c g => safe_execFdot d a b c g s hs
  | .lshuf d a b g t => safe_execLshuf d a b g t s hs
  | .lrot d a b g t => safe_execLrot d a b g t s hs
  | .lxorl d a b g t => safe_execLxorl d a b g t s hs
  | .lup d a b g t => safe_execLup d a b g t s hs
  | .ldown d a b g t => safe_execLdown d a b g t s hs
  | .lbcast d a b g t => safe_execLbcast d a b g t s hs
  | .lrotw d a b g t => safe_execLrotw d a b g t s hs
  | .lredadd d a g t => safe_execLredadd d a g t s hs
  | .lredmin d a g t => safe_execLredmin d a g t s hs
  | .lredmax d a g t => safe_execLredmax d a g t s hs
  | .lredand d a g t => safe_execLredand d a g t s hs
  | .lredor d a g t => safe_execLredor d a g t s hs
  | .lredxor d a g t => safe_execLredxor d a g t s hs
  | .lredfadd d a g t => safe_execLredfadd d a g t s hs
  | .lredfmin d a g t => safe_execLredfmin d a g t s hs
  | .lredfmax d a g t => safe_execLredfmax d a g t s hs
  | .lscanadd d a g t => safe_execLscanadd d a g t s hs
  | .lscanmin d a g t => safe_execLscanmin d a g t s hs
  | .lscanmax d a g t => safe_execLscanmax d a g t s hs
  | .lscanand d a g t => safe_execLscanand d a g t s hs
  | .lscanor d a g t => safe_execLscanor d a g t s hs
  | .lscanxor d a g t => safe_execLscanxor d a g t s hs
  | .lscanfadd d a g t => safe_execLscanfadd d a g t s hs
  | .lxscanadd d a g t => safe_execLxscanadd d a g t s hs
  | .lxscanmin d a g t => safe_execLxscanmin d a g t s hs
  | .lxscanmax d a g t => safe_execLxscanmax d a g t s hs
  | .lxscanand d a g t => safe_execLxscanand d a g t s hs
  | .lxscanor d a g t => safe_execLxscanor d a g t s hs
  | .lxscanxor d a g t => safe_execLxscanxor d a g t s hs
  | .lxscanfadd d a g t => safe_execLxscanfadd d a g t s hs
  | .lballot d a g => safe_execLballot d a g s hs
  | .lmatch d a g t => safe_execLmatch d a g t s hs
  | .xsend d a b g => safe_execXsend d a b g s hs
  | .xrecv d a b g => safe_execXrecv d a b g s hs
  | .regroup d a b g => safe_execRegroup d a b g s hs
  | .vlane d g => safe_execVlane d g s hs
  | .ld d a b sc ord g t => safe_execLd d a b sc ord g t s hs
  | .st d a b sc ord g t => safe_execSt d a b sc ord g t s hs
  | .ldu d a b sc ord g t => safe_execLdu d a b sc ord g t s hs
  | .stu d a b sc ord g t => safe_execStu d a b sc ord g t s hs
  | .ldh d a b sc ord g t => safe_execLdh d a b sc ord g t s hs
  | .sth d a b sc ord g t => safe_execSth d a b sc ord g t s hs
  | .atom d a b aop sc => safe_execAtom d a b aop sc s hs
  | .atoma d a b aop sc => safe_execAtoma d a b aop sc s hs
  | .red a b aop sc => safe_execRed a b aop sc s hs
  | .atomh d a b aop sc => safe_execAtomh d a b aop sc s hs
  | .talloc d a g => safe_execTalloc d a g s hs
  | .tfree a g => safe_execTfree a g s hs
  | .tinfo d g => safe_execTinfo d g s hs
  | .wait ld st cp tl => safe_execWait ld st cp tl s hs
  | .waitrld a g => safe_execWaitrld a g s hs
  | .waitrst a g => safe_execWaitrst a g s hs
  | .waitrcp a g => safe_execWaitrcp a g s hs
  | .waitrtl a g => safe_execWaitrtl a g s hs
  | .pfl1 a b g => safe_execPfl1 a b g s hs
  | .pfllc a b g => safe_execPfllc a b g s hs
  | .cwb a b g => safe_execCwb a b g s hs
  | .cinv a b g => safe_execCinv a b g s hs
  | .icinv n g => safe_execIcinv n g s hs
  | .fence sc g => safe_execFence sc g s hs
  | .binit a b g => safe_execBinit a b g s hs
  | .barv a g => safe_execBarv a g s hs
  | .barvx a b g => safe_execBarvx a b g s hs
  | .barvd a g => safe_execBarvd a g s hs
  | .bwait a b g => safe_execBwait a b g s hs
  | .btest d a b g => safe_execBtest d a b g s hs
  | .cbara g => safe_execCbara g s hs
  | .cbarw g => safe_execCbarw g s hs
  | .cbar g => safe_execCbar g s hs
  | .wgbar g => safe_execWgbar g s hs
  | .wgbara g => safe_execWgbara g s hs
  | .wgbarw g => safe_execWgbarw g s hs
  | .txbegin sc fb off => safe_execTxbegin sc fb off s hs
  | .txend => safe_execTxend s hs
  | .txabort code g => safe_execTxabort code g s hs
  | .txstat d g => safe_execTxstat d g s hs
  | .txcause d g => safe_execTxcause d g s hs
  | .cpld a b g => safe_execCpld a b g s hs
  | .cpst a b g => safe_execCpst a b g s hs
  | .cpred a b g => safe_execCpred a b g s hs
  | .cpg a b g => safe_execCpg a b g s hs
  | .cpc a b g => safe_execCpc a b g s hs
  | .cpw a b g => safe_execCpw a b g s hs
  | .cpq d a g => safe_execCpq d a g s hs
  | .cpcan a g => safe_execCpcan a g s hs
  | .tcfg d a g => safe_execTcfg d a g s hs
  | .tld d a b g => safe_execTld d a b g s hs
  | .tst d a b g => safe_execTst d a b g s hs
  | .tzero d g => safe_execTzero d g s hs
  | .azero d g => safe_execAzero d g s hs
  | .mma d a b g => safe_execMma d a b g s hs
  | .mmap d a b g => safe_execMmap d a b g s hs
  | .mmapF d a b g => safe_execMmapF d a b g s hs
  | .mmag d a b g => safe_execMmag d a b g s hs
  | .tmovv d a b g => safe_execTmovv d a b g s hs
  | .tcvt d a g => safe_execTcvt d a g s hs
  | .tlds d a b g => safe_execTlds d a b g s hs
  | .msemitv a b g => safe_execMsemitv a b g s hs
  | .msemitp a b g => safe_execMsemitp a b g s hs
  | .vamp a g => safe_execVamp a g s hs
  | .gaze d a g => safe_execGaze d a g s hs
  | .rtfetch d a g => safe_execRtfetch d a g s hs
  | .tex d a b g => safe_execTex d a b g s hs
  | .texl d a b g => safe_execTexl d a b g s hs
  | .texg d a b g => safe_execTexg d a b g s hs
  | .texf d a b g => safe_execTexf d a b g s hs
  | .texq d a b g => safe_execTexq d a b g s hs
  | .rayl d a b g => safe_execRayl d a b g s hs
  | .raylw d a b g => safe_execRaylw d a b g s hs
  | .rayr d a g => safe_execRayr d a g s hs
  | .vtdone d a g => safe_execVtdone d a g s hs
  | .csrr d csr => safe_execCsrr d csr s hs
  | .csrw d csr => safe_execCsrw d csr s hs
  | .csrs d csr => safe_execCsrs d csr s hs
  | .csrc d csr => safe_execCsrc d csr s hs
  | .trap imm => safe_execTrap imm s hs
  | .brk imm => safe_execBrk imm s hs
  | .rett => safe_execRett s hs
  | .yield g => safe_execYield g s hs
  | .sleep a g => safe_execSleep a g s hs
  | .wake a g => safe_execWake a g s hs
  | .dlaunch d a b g => safe_execDlaunch d a b g s hs
  | .djoin d a g => safe_execDjoin d a g s hs
  | .pmark imm => safe_execPmark imm s hs
  | .framesync => safe_execFramesync s hs
  | .trapEntry wid => safe_execTrapEntry wid s hs
  | .fseSpill wid blk => safe_execFseSpill wid blk s hs
  | .fseFill wid blk => safe_execFseFill wid blk s hs
  | .ageingSwap wid => safe_execAgeingSwap wid s hs
  | .ageRelease wid slotB => safe_execAgeRelease wid slotB s hs
  | .parkedAgeSwap wid => safe_execParkedAgeSwap wid s hs
  | .sleepTimeout wid => safe_execSleepTimeout wid s hs
  | .memoryOpComplete wid seq lanes => safe_execMemoryOpComplete wid seq lanes s hs
  | .mxaOperation core => safe_execMxaOperation core s hs
  | .copyRow copy => safe_execCopyRow copy s hs
  | .rangeLockRelease copy => safe_execRangeLockRelease copy s hs
  | .tabardGrant dom => safe_execTabardGrant dom s hs
  | .vamPrimitive cluster => safe_execVamPrimitive cluster s hs
  | .wrsTileFinished cluster => safe_execWrsTileFinished cluster s hs
  | .rayTraversalComplete wid batch => safe_execRayTraversalComplete wid batch s hs
  | .stripWindowOpen out => safe_execStripWindowOpen out s hs
  | .stripDeadline out => safe_execStripDeadline out s hs
  | .stripOutput out => safe_execStripOutput out s hs
  | .displayLineStart out => safe_execDisplayLineStart out s hs
  | .dpHotPlug out attached => safe_execDpHotPlug out attached s hs
  | .viewEnable view value => safe_execViewEnable view value s hs
  | .viewDisable view value => safe_execViewDisable view value s hs
  | .outputEnable out value => safe_execOutputEnable out value s hs
  | .outputDisable out value => safe_execOutputDisable out value s hs
  | .sampleTick cluster => safe_execSampleTick cluster s hs
  | .trigstatArm cluster value => safe_execTrigstatArm cluster value s hs
  | .register ctx => safe_execRegister ctx s hs
  | .unregister ctx => safe_execUnregister ctx s hs
  | .tlbinv ctx => safe_execTlbinv ctx s hs
  | .replay ctx => safe_execReplay ctx s hs
  | .preempt ctx => safe_execPreempt ctx s hs
  | .resume ctx => safe_execResume ctx s hs
  | .kill ctx => safe_execKill ctx s hs
  | .gstart ctx => safe_execGstart ctx s hs
  | .preemptionStop core ctx => safe_execPreemptionStop core ctx s hs
  | .contextImageWrite ctx => safe_execContextImageWrite ctx s hs
  | .qtailWrite queue tail => safe_execQtailWrite queue tail s hs
  | .dbpstatHaltClear die => safe_execDbpstatHaltClear die s hs
  | .registerWrite off value => safe_execRegisterWrite off value s hs
  | .dispatchStep die cores => safe_execDispatchStep die cores s hs
  | .headReadinessCheck die queue => safe_execHeadReadinessCheck die queue s hs
  | .doneSigIncrement kernel => safe_execDoneSigIncrement kernel s hs
  | .faultBatchFull die ctx => safe_execFaultBatchFull die ctx s hs
  | .faultBatchTimeout die ctx => safe_execFaultBatchTimeout die ctx s hs
  | .heldRecordWrite ctx ring => safe_execHeldRecordWrite ctx ring s hs
  | .gangAccept ctx => safe_execGangAccept ctx s hs
  | .gangTimeout ctx => safe_execGangTimeout ctx s hs
  | .gangAbort gang => safe_execGangAbort gang s hs
  | .fabricAccess gang op pa size x => safe_execFabricAccess gang op pa size x s hs
  | .lasiaPortFail port => safe_execLasiaPortFail port s hs
  | .hostMemoryAccess write pa size value => safe_execHostMemoryAccess write pa size value s hs
  | .correctedError cluster => safe_execCorrectedError cluster s hs
  | .uncorrectableError cluster place fetch => safe_execUncorrectableError cluster place fetch s hs
  | .expanderFailure port => safe_execExpanderFailure port s hs
  | .mcLoopTick thermal current slew power reliability => safe_execMcLoopTick thermal current slew power reliability s hs
  | .yarrowReading delays reading => safe_execYarrowReading delays reading s hs
  | .deviceReset failed expanders => safe_execDeviceReset failed expanders s hs
  | .firmwareRecovery image => safe_execFirmwareRecovery image s hs
  | .getVersion => safe_execGetVersion s hs
  | .getCapabilities => safe_execGetCapabilities s hs
  | .negotiateAlgorithms => safe_execNegotiateAlgorithms s hs
  | .getDigests => safe_execGetDigests s hs
  | .getCertificate slot => safe_execGetCertificate slot s hs
  | .challenge nonce => safe_execChallenge nonce s hs
  | .getMeasurements index => safe_execGetMeasurements index s hs
  | .triggerCycleReached cluster => safe_execTriggerCycleReached cluster s hs
  | .linkTrainingDone out up => safe_execLinkTrainingDone out up s hs
  | .lasiaPortTrained port => safe_execLasiaPortTrained port s hs
  | .cmdUnknownCode value => safe_execCmdUnknownCode value s hs

/-- The instruction that an event is. -/
noncomputable def eventInstr : Event → Instr
  | .trapEntry wid => .trapEntry wid
  | .fseSpill wid blk => .fseSpill wid blk
  | .fseFill wid blk => .fseFill wid blk
  | .ageingSwap wid => .ageingSwap wid
  | .ageRelease wid slotB => .ageRelease wid slotB
  | .parkedAgeSwap wid => .parkedAgeSwap wid
  | .sleepTimeout wid => .sleepTimeout wid
  | .memoryOpComplete wid seq lanes => .memoryOpComplete wid seq lanes
  | .mxaOperation core => .mxaOperation core
  | .copyRow copy => .copyRow copy
  | .rangeLockRelease copy => .rangeLockRelease copy
  | .tabardGrant dom => .tabardGrant dom
  | .vamPrimitive cluster => .vamPrimitive cluster
  | .wrsTileFinished cluster => .wrsTileFinished cluster
  | .rayTraversalComplete wid batch => .rayTraversalComplete wid batch
  | .stripWindowOpen out => .stripWindowOpen out
  | .stripDeadline out => .stripDeadline out
  | .stripOutput out => .stripOutput out
  | .displayLineStart out => .displayLineStart out
  | .dpHotPlug out attached => .dpHotPlug out attached
  | .viewEnable view value => .viewEnable view value
  | .viewDisable view value => .viewDisable view value
  | .outputEnable out value => .outputEnable out value
  | .outputDisable out value => .outputDisable out value
  | .sampleTick cluster => .sampleTick cluster
  | .trigstatArm cluster value => .trigstatArm cluster value
  | .register ctx => .register ctx
  | .unregister ctx => .unregister ctx
  | .tlbinv ctx => .tlbinv ctx
  | .replay ctx => .replay ctx
  | .preempt ctx => .preempt ctx
  | .resume ctx => .resume ctx
  | .kill ctx => .kill ctx
  | .gstart ctx => .gstart ctx
  | .preemptionStop core ctx => .preemptionStop core ctx
  | .contextImageWrite ctx => .contextImageWrite ctx
  | .qtailWrite queue tail => .qtailWrite queue tail
  | .dbpstatHaltClear die => .dbpstatHaltClear die
  | .registerWrite off value => .registerWrite off value
  | .dispatchStep die cores => .dispatchStep die cores
  | .headReadinessCheck die queue => .headReadinessCheck die queue
  | .doneSigIncrement kernel => .doneSigIncrement kernel
  | .faultBatchFull die ctx => .faultBatchFull die ctx
  | .faultBatchTimeout die ctx => .faultBatchTimeout die ctx
  | .heldRecordWrite ctx ring => .heldRecordWrite ctx ring
  | .gangAccept ctx => .gangAccept ctx
  | .gangTimeout ctx => .gangTimeout ctx
  | .gangAbort gang => .gangAbort gang
  | .fabricAccess gang op pa size x => .fabricAccess gang op pa size x
  | .lasiaPortFail port => .lasiaPortFail port
  | .hostMemoryAccess write pa size value => .hostMemoryAccess write pa size value
  | .correctedError cluster => .correctedError cluster
  | .uncorrectableError cluster place fetch => .uncorrectableError cluster place fetch
  | .expanderFailure port => .expanderFailure port
  | .mcLoopTick thermal current slew power reliability => .mcLoopTick thermal current slew power reliability
  | .yarrowReading delays reading => .yarrowReading delays reading
  | .deviceReset failed expanders => .deviceReset failed expanders
  | .firmwareRecovery image => .firmwareRecovery image
  | .getVersion => .getVersion
  | .getCapabilities => .getCapabilities
  | .negotiateAlgorithms => .negotiateAlgorithms
  | .getDigests => .getDigests
  | .getCertificate slot => .getCertificate slot
  | .challenge nonce => .challenge nonce
  | .getMeasurements index => .getMeasurements index
  | .triggerCycleReached cluster => .triggerCycleReached cluster
  | .linkTrainingDone out up => .linkTrainingDone out up
  | .lasiaPortTrained port => .lasiaPortTrained port
  | .cmdUnknownCode value => .cmdUnknownCode value

/-- An event runs as the instruction that it is. -/
theorem runEvent_eq_exec (e : Event) (s : State) : runEvent e s = exec (eventInstr e) s := by
  cases e <;> rfl

theorem eventInstr_isEvent (e : Event) : (eventInstr e).isEvent = true := by
  cases e <;> rfl

theorem safe_runEvent (e : Event) (s : State) (hs : Safe s) : SafeOut (runEvent e s) := by
  rw [runEvent_eq_exec]
  exact safe_exec _ s hs

/-! ### The issue of a path -/

theorem safe_execBytes (bs : List Byte) (s : State) (hs : Safe s) : SafeOut (execBytes bs s) := by
  unfold execBytes
  split
  · exact safe_exec _ s hs
  · exact safe_illegalWord _ s hs

theorem safe_issueBytes (bs : List Byte) (s : State) (hs : Safe s) : SafeOut (issueBytes bs s) := by
  unfold issueBytes
  dsimp only
  split
  · exact safe_frameFault _ _ s hs
  · split
    · exact safe_frameFault _ _ s hs
    · exact safe_finish 4 (.wait 4 s) hs
    · exact safe_finish 4 (.block 13 s) hs
    · exact safe_execBytes bs s hs

theorem safe_examineHere (s : State) (hs : Safe s) : SafeOut (examineHere s) := by
  unfold examineHere
  have after (bs : List Byte) (o) (ho : SafeOut o) : SafeOut (onNext (afterExec s.w.onB s.w bs) o) :=
    safe_onNext _ o (safe_afterExec s.w.onB s.w bs) ho
  have other (o) (ho : SafeOut o) : SafeOut (onNext (afterOther s.w.onB s.w) o) :=
    safe_onNext _ o (safe_afterOther s.w.onB s.w) ho
  split
  · exact other _ (safe_finish 4 _ (safe_routePath s hs))
  · split
    · exact after _ _ (safe_execBytes _ s hs)
    · split
      · exact other _ (safe_issueBytes [] s hs)
      · split
        · exact after _ _ (safe_issueBytes _ s hs)
        · exact other _ (safe_fetchFailed _ s hs)

theorem safe_issueTurn (wid : Nat) (slotB : Bool) (s : State) (hs : Safe s) : SafeOut (issueTurn wid slotB s) := by
  have hb : Safe (s.bring wid) := safe_bring s wid hs
  unfold issueTurn
  split
  · exact hs
  · dsimp only
    split
    · exact safe_noteEntry _ (safe_enterTrap _ hb)
    · split
      · exact hb
      · split
        · exact safe_examineHere _ hb
        · exact safe_examineHere _ hb

/-! ### A turn, and a step -/

theorem safe_runTurn (t : Turn) (s : State) (hs : Safe s) : SafeOut (runTurn t s) := by
  unfold runTurn
  split
  · exact safe_issueTurn _ _ s hs
  · exact safe_runEvent _ _ (safe_stallsNow _ s hs)
  · exact safe_runEvent _ s hs
  · split
    · exact safe_tickCluster _ _ (safe_stallsNow _ s hs)
    · exact hs
  · exact safe_displayTick _ s hs
  · exact safe_takeTlb _ _ _ s hs
  · exact safe_setDie _ _ _ hs
  · exact safe_takeL1 _ _ s hs
  · exact safe_setCore _ _ _ hs
  · exact safe_takeIc _ _ s hs
  · exact safe_setCore _ _ _ hs
  · exact safe_microsecond s hs

theorem safe_step (s : State) (hs : Safe s) : SafeOut (step s) := by
  unfold step
  split
  · exact safe_runTurn _ _ hs
  · trivial

/-- Settles O59: a step is a turn, a turn an event, an issue or a change outside memory, and each keeps memory canonical. -/
theorem stepKeepsMemoryCanonical : Obligations.StepKeepsMemoryCanonical := by
  intro s t hs ht
  have h := safe_step s hs
  rwa [ht] at h

end Sys2Proof.Proofs
end

section
/-! SUPPORT. What instructions that only change the warp leave, and the scalar and predicate instructions and the MODE accesses. -/

namespace Sys2Proof.Proofs
open Sys2Proof Sys2Proof.Machine

/-! ### Gates of instructions that nothing but their demands keeps from issuing (R86) -/

/-- A gate that asks for nothing beyond its demands: it needs no privilege, engine or counter, waits for no earlier access, and
is performed in ACTIVE lanes. -/
structure Gate.Plain (gt : Gate) : Prop where
  ok : gt.ok = true
  priv : gt.priv = true
  engine : gt.engine = true
  full : gt.full = false
  sync : gt.sync = false
  rel : gt.rel = false
  tx : gt.tx = true

/-- An instruction of such a gate, its demands met, has the outcome of its body in its active lanes. -/
theorem plain_run {o : Host.Outcome State Fault Refusal} {gt : Gate} {s : State} {body : State → Mask → Res}
    (e : o = gt.run body s) (hp : Gate.Plain gt) (hc : Clear s gt.demand) : o = gt.out (body s (s.w.active gt.guard)) :=
  gate_clear e hc hp.ok hp.priv hp.engine hp.full (by simp [hp.sync]) (by simp [hp.rel]) (.inl hp.tx) rfl

/-- One that only changes the warp falls through with the change. -/
theorem plain_onWarp {o : Host.Outcome State Fault Refusal} {gt : Gate} {s : State} {f : Warp → Mask → Warp}
    (e : o = gt.run (onWarp f) s) (hp : Gate.Plain gt) (hc : Clear s gt.demand) :
    o = .next (fellW gt.len s (f s.w (s.w.active gt.guard))) :=
  plain_run e hp hc

/-! ### Scalar arithmetic (R149 to R152) -/

section
variable {s : State} {d a b : BitVec 6} {g t : Bool} {r : W64} {r' : W32}

/-- An SALU instruction of two sources gives its operation's results on 64 and on 32 bits. -/
theorem salu_gives {fn : BitVec 4} {op : (n : Nat) → BitVec n → BitVec n → BitVec n}
    (hc : Clear s { guard := g, cls := .control, scals := [d.toNat, a.toNat, b.toNat], uses := [useS a, useS b] })
    (h : op 64 (s.w.sr a.toNat).bits (s.w.sr b.toNat).bits = r)
    (h' : op 32 (lo32 (s.w.sr a.toNat).bits) (lo32 (s.w.sr b.toNat).bits) = r') :
    salu fn d a b g t op s = .next (fellW 4 s (s.w.setS d.toNat (if t then r'.signExtend 64 else r) false)) := by
  subst h h'
  exact plain_onWarp rfl ⟨rfl, rfl, rfl, rfl, rfl, rfl, rfl⟩ hc

/-- So does one of one source. -/
theorem salu1_gives {fn : BitVec 4} {op : (n : Nat) → BitVec n → BitVec n}
    (hc : Clear s { guard := g, cls := .control, scals := [d.toNat, a.toNat], uses := [useS a] })
    (h : op 64 (s.w.sr a.toNat).bits = r) (h' : op 32 (lo32 (s.w.sr a.toNat).bits) = r') :
    salu1 fn d a g t op s = .next (fellW 4 s (s.w.setS d.toNat (if t then r'.signExtend 64 else r) false)) := by
  subst h h'
  exact plain_onWarp rfl ⟨rfl, rfl, rfl, rfl, rfl, rfl, rfl⟩ hc

end

/-- The leading zeros of a word that is zero where its bits are. -/
theorem clzOf_toNat {n : Nat} (x : BitVec n) : clzOf n x.toNat = if x = 0 then n else n - 1 - Nat.log2 x.toNat := by
  simp only [clzOf, BitVec.toNat_eq]
  simp

/-! ### Division (R123, R157) -/

/-- Signed division of words is that of the integers that they hold, rounded to zero, cut to their width: the most negative
number divided by −1 gives itself. -/
theorem sdiv_eq_ofInt {n : Nat} (x y : BitVec n) : x.sdiv y = BitVec.ofInt n (x.toInt.tdiv y.toInt) := by
  apply BitVec.eq_of_toInt_eq
  rw [BitVec.toInt_sdiv, BitVec.toInt_ofInt]

theorem srem_eq_ofInt {n : Nat} (x y : BitVec n) : x.srem y = BitVec.ofInt n (x.toInt.tmod y.toInt) := by
  rw [← BitVec.toInt_srem, BitVec.ofInt_toInt]

/-- The most negative number is its own quotient by −1, and the remainder is 0. -/
theorem intMin_divRem {n : Nat} :
    (BitVec.intMin n).sdiv (BitVec.allOnes n) = BitVec.intMin n ∧ (BitVec.intMin n).srem (BitVec.allOnes n) = 0 := by
  rw [← BitVec.neg_one_eq_allOnes]
  refine ⟨BitVec.intMin_sdiv_neg_one, ?_⟩
  apply BitVec.eq_of_toInt_eq
  rw [BitVec.toInt_srem, BitVec.neg_one_eq_allOnes, BitVec.toInt_allOnes]
  split
  · simp
  · obtain rfl : n = 0 := by omega
    rfl

/-- The signed quotient and remainder of words. -/
theorem divRem_signed {n : Nat} (x y : BitVec n) :
    divRem n true x y = (if y = 0 then BitVec.allOnes n else BitVec.ofInt n (x.toInt.tdiv y.toInt)
      , if y = 0 then x else BitVec.ofInt n (x.toInt.tmod y.toInt)) := by
  rw [divRem, ← sdiv_eq_ofInt, ← srem_eq_ofInt]
  by_cases hy : y = 0
  · simp only [if_pos hy]
  · simp only [if_neg hy, if_true]
    by_cases hm : x = BitVec.intMin n ∧ y = BitVec.allOnes n
    · obtain ⟨rfl, rfl⟩ := hm
      simp [intMin_divRem]
    · rw [if_neg hm]

/-- The unsigned ones. -/
theorem divRem_unsigned {n : Nat} (x y : BitVec n) :
    divRem n false x y = (if y = 0 then BitVec.allOnes n else x / y, if y = 0 then x else x % y) := by
  by_cases hy : y = 0 <;> simp only [divRem, hy, if_true, if_false, Bool.false_eq_true]

/-- A scalar division traps with DIV_ZERO where MODE.DZT is set and the divisor is zero, and gives its result otherwise. -/
theorem sdivOp_gives {s : State} {fn : BitVec 4} {d a b : BitVec 6} {g t sgn rem : Bool} {r : W64} {r' : W32}
    (hc : Clear s { guard := g, cls := .control, scals := [d.toNat, a.toNat, b.toNat], uses := [useS a, useS b] })
    (h : (if rem then (divRem 64 sgn (s.w.sr a.toNat).bits (s.w.sr b.toNat).bits).2
      else (divRem 64 sgn (s.w.sr a.toNat).bits (s.w.sr b.toNat).bits).1) = r)
    (h' : (if rem then (divRem 32 sgn (lo32 (s.w.sr a.toNat).bits) (lo32 (s.w.sr b.toNat).bits)).2
      else (divRem 32 sgn (lo32 (s.w.sr a.toNat).bits) (lo32 (s.w.sr b.toNat).bits)).1) = r') :
    sdivOp fn d a b g t sgn rem s =
      if (if t then lo32 (s.w.sr b.toNat).bits == 0 else (s.w.sr b.toNat).bits == 0) && s.w.p.dzt then
        .next (raise (trapOf 0x09 (wordA 7 d a b fn g t) (s.w.active g) false) s)
      else .next (fellW 4 s (s.w.setS d.toNat (if t then r'.signExtend 64 else r) false)) := by
  subst h h'
  refine (plain_run rfl ⟨rfl, rfl, rfl, rfl, rfl, rfl, rfl⟩ hc).trans ?_
  dsimp only
  by_cases hz : (if t then lo32 (s.w.sr b.toNat).bits = 0 else (s.w.sr b.toNat).bits = 0) ∧ s.w.p.dzt
  · have hz' : ((if t then lo32 (s.w.sr b.toNat).bits == 0 else (s.w.sr b.toNat).bits == 0) && s.w.p.dzt) = true := by
      cases t <;> simpa using hz
    rw [if_pos hz, if_pos hz']
    rfl
  · have hz' : ((if t then lo32 (s.w.sr b.toNat).bits == 0 else (s.w.sr b.toNat).bits == 0) && s.w.p.dzt) ≠ true := by
      cases t <;> simpa using hz
    rw [if_neg hz, if_neg hz']
    rfl

/-- Settles O1: the SALU forms through `salu_gives`, the divisions through `sdivOp_gives`. -/
theorem scalarArithmeticCompletes : Obligations.ScalarArithmeticCompletes := by
  refine ⟨fun s d a b imm g t => ⟨fun hc => ?_, fun hc => ?_, fun hc => ⟨?_, ?_⟩, fun hc => ?_⟩, fun s d a b g t hc => ?_⟩
  · exact (plain_onWarp rfl ⟨rfl, rfl, rfl, rfl, rfl, rfl, rfl⟩ hc : execNop s = _)
  · exact plain_onWarp rfl ⟨rfl, rfl, rfl, rfl, rfl, rfl, rfl⟩ hc
  · exact salu1_gives hc (congrArg _ (clzOf_toNat _)) (congrArg _ (clzOf_toNat _))
  · exact salu1_gives hc rfl rfl
  · refine ⟨salu_gives hc rfl rfl, salu_gives hc rfl rfl, salu_gives hc rfl rfl, salu_gives hc ?_ ?_, salu_gives hc rfl rfl,
      salu_gives hc rfl rfl, salu_gives hc rfl rfl, salu_gives hc rfl rfl, salu_gives hc rfl rfl, salu_gives hc rfl rfl,
      salu_gives hc ?_ ?_, salu_gives hc ?_ ?_, salu_gives hc ?_ ?_, salu_gives hc ?_ ?_⟩
    all_goals simp [mulHigh, BitVec.sle, BitVec.ule]
  · exact ⟨sdivOp_gives hc (by rw [divRem_signed]; rfl) (by rw [divRem_signed]; rfl),
      sdivOp_gives hc (by rw [divRem_unsigned]; rfl) (by rw [divRem_unsigned]; rfl),
      sdivOp_gives hc (by rw [divRem_signed]; rfl) (by rw [divRem_signed]; rfl),
      sdivOp_gives hc (by rw [divRem_unsigned]; rfl) (by rw [divRem_unsigned]; rfl)⟩

/-! ### Comparison (R153) -/

/-- A write to a predicate register, whose number p7's is the only one discarded (R77). -/
theorem setP_toNat (w : Warp) (d : BitVec 3) (act m : Mask) : w.setP d.toNat act m =
    if d = 7 then w else { w with pr := put 0 w.pr d.toNat ((w.pred d.toNat &&& ~~~act) ||| (m &&& act)) } := by
  have hd : d.toNat = 7 ↔ d = 7 := by rw [BitVec.toNat_eq]; rfl
  simp only [Warp.setP, hd]

/-- Writing all lanes or none of `act` sets or clears them. -/
theorem mask_flag (x act : Mask) (c : Bool) :
    (x &&& ~~~act) ||| ((if c then fullMask else 0) &&& act) = if c then x ||| act else x &&& ~~~act := by
  cases c
  · simp
  · apply BitVec.eq_of_getLsbD_eq
    intro i hi
    simp only [fullMask, if_true, BitVec.allOnes_and, BitVec.getLsbD_or, BitVec.getLsbD_and, BitVec.getLsbD_not, hi, decide_true]
    cases x.getLsbD i <;> cases act.getLsbD i <;> rfl

/-- SCMP sets or clears p[d] in the active lanes by its condition on 64 or on 32 bits. -/
theorem scmp_gives {s : State} {fn : BitVec 4} {d : BitVec 3} {a b : BitVec 6} {g t c c' : Bool}
    {cond : (n : Nat) → BitVec n → BitVec n → Bool}
    (hc : Clear s { guard := g, cls := .control, scals := [a.toNat, b.toNat], uses := [useS a, useS b] })
    (h : cond 64 (s.w.sr a.toNat).bits (s.w.sr b.toNat).bits = c)
    (h' : cond 32 (lo32 (s.w.sr a.toNat).bits) (lo32 (s.w.sr b.toNat).bits) = c') :
    scmp fn d a b g t cond s = .next (fellW 4 s (if d = 7 then s.w else
      { s.w with
        pr := put 0 s.w.pr d.toNat
          (if (if t then c' else c) then s.w.pred d.toNat ||| s.w.active g else s.w.pred d.toNat &&& ~~~(s.w.active g)) })) := by
  subst h h'
  rw [← mask_flag, ← setP_toNat]
  exact plain_onWarp rfl ⟨rfl, rfl, rfl, rfl, rfl, rfl, rfl⟩ hc

/-- Settles O2, each condition as BitVec states it. -/
theorem scalarComparisonCompletes : Obligations.ScalarComparisonCompletes := by
  intro s d a b g t hc
  exact ⟨(scmp_gives hc rfl rfl : execScmpeq d a b g t s = _),
    (scmp_gives hc rfl rfl : execScmpne d a b g t s = _),
    (scmp_gives hc rfl rfl : execScmplt d a b g t s = _),
    (scmp_gives hc rfl rfl : execScmple d a b g t s = _),
    (scmp_gives hc rfl rfl : execScmpltu d a b g t s = _),
    (scmp_gives hc rfl rfl : execScmpleu d a b g t s = _),
    (scmp_gives hc rfl rfl : execScmpgt d a b g t s = _),
    (scmp_gives hc rfl rfl : execScmpge d a b g t s = _),
    (scmp_gives hc rfl rfl : execScmpgtu d a b g t s = _),
    (scmp_gives hc rfl rfl : execScmpgeu d a b g t s = _)⟩

/-! ### Immediates, literals and SSEL (R154 to R156) -/

/-- Inserting a field leaves the bits above it and those below it. -/
theorem insertField_eq {w k hi lo : Nat} (h : hi + k + lo = w) (imm : BitVec k) (x : BitVec w) :
    (x &&& ~~~((BitVec.allOnes k).zeroExtend w <<< lo)) ||| (imm.zeroExtend w <<< lo) =
      (x.extractLsb' (k + lo) hi ++ imm ++ x.extractLsb' 0 lo).cast h := by
  apply BitVec.eq_of_getLsbD_eq
  intro i hi'
  simp only [BitVec.getLsbD_or, BitVec.getLsbD_and, BitVec.getLsbD_not, BitVec.getLsbD_shiftLeft, BitVec.getLsbD_cast,
    BitVec.getLsbD_append, BitVec.getLsbD_extractLsb', BitVec.getLsbD_setWidth, BitVec.getLsbD_allOnes, hi', decide_true, Bool.true_and]
  by_cases h1 : i < lo
  · simp [h1]
  · have h0 : i - lo < w := by omega
    by_cases h2 : i - lo < k
    · simp [h1, h2, h0]
    · have h3 : imm.getLsbD (i - lo) = false := BitVec.getLsbD_of_ge _ _ (by omega)
      have h4 : i - lo - k < hi := by omega
      have h5 : k + lo + (i - lo - k) = i := by omega
      simp [h1, h2, h3, h4, h5]

/-- An instruction of OP 0x04 gives s[d] its value, with the old poison where it keeps it. -/
theorem smov16_gives {s : State} {fn : BitVec 3} {d : BitVec 6} {imm : BitVec 16} {keep bad : Bool} {f : W64 → W64} {r : W64}
    (hc : Clear s { cls := .control, scals := [d.toNat] }) (h : f (s.w.sr d.toNat).bits = r)
    (hb : (keep && (s.w.sr d.toNat).bad) = bad) :
    smov16 fn d imm keep f s = .next (fellW 4 s (s.w.setS d.toNat r bad)) := by
  subst h hb
  exact plain_onWarp rfl ⟨rfl, rfl, rfl, rfl, rfl, rfl, rfl⟩ hc

/-- So does one of OP 0x05. -/
theorem smov32_gives {s : State} {fn : BitVec 3} {d : BitVec 6} {g keep bad : Bool} {f : W64 → W64} {r : W64}
    (hc : Clear s { guard := g, len := 8, cls := .control, scals := [d.toNat] }) (h : f (s.w.sr d.toNat).bits = r)
    (hb : (keep && (s.w.sr d.toNat).bad) = bad) :
    smov32 fn d g keep f s = .next (fellW 8 s (s.w.setS d.toNat r bad)) := by
  subst h hb
  exact plain_onWarp rfl ⟨rfl, rfl, rfl, rfl, rfl, rfl, rfl⟩ hc

/-- Settles O3: the insertions through `insertField_eq`. -/
theorem scalarMovesComplete : Obligations.ScalarMovesComplete := by
  intro s d a b c imm lit g
  refine ⟨fun hc => ⟨?_, ?_, ?_, ?_⟩, fun hc => ⟨?_, ?_, ?_⟩, fun hc => ?_⟩
  · exact (smov16_gives hc rfl rfl : execSmovi d imm s = _)
  · exact (smov16_gives hc (insertField_eq (w := 64) (hi := 32) (lo := 16) rfl imm _) rfl : execSins16 d imm s = _)
  · exact (smov16_gives hc (insertField_eq (w := 64) (hi := 16) (lo := 32) rfl imm _) rfl : execSins32 d imm s = _)
  · refine (smov16_gives hc (insertField_eq (w := 64) (hi := 0) (lo := 48) rfl imm _) rfl : execSins48 d imm s = _).trans ?_
    rw [BitVec.zero_width_append]
    rfl
  · exact (smov32_gives hc rfl rfl : execSmovl d g lit s = _)
  · exact (smov32_gives hc rfl rfl : execSmovlz d g lit s = _)
  · exact (smov32_gives hc rfl rfl : execSmovlh d g lit s = _)
  · exact (plain_onWarp rfl ⟨rfl, rfl, rfl, rfl, rfl, rfl, rfl⟩ hc : execSsel d a b c g s = _)

end Sys2Proof.Proofs
end

section
/-! SUPPORT. The predicate instructions and the MODE accesses (R80, R158 to R160, R174, R175). -/

namespace Sys2Proof.Proofs
open Sys2Proof Sys2Proof.Machine

section
variable {s : State} {d a : BitVec 6} {pd pa pb : BitVec 3} {g : Bool}

/-- A predicate operation gives p[d] its value in the active lanes. -/
theorem plog_gives {fn : BitVec 4} {f : Mask → Mask → Mask} {m : Mask} (hc : Clear s { guard := g, cls := .control })
    (h : f (s.w.pred pa.toNat) (s.w.pred pb.toNat) = m) :
    plog fn pd pa pb g f s = .next (fellW 4 s (if pd = 7 then s.w else
      { s.w with
        pr := put 0 s.w.pr pd.toNat ((s.w.pred pd.toNat &&& ~~~(s.w.active g)) ||| (m &&& s.w.active g)) })) := by
  subst h
  rw [← setP_toNat]
  exact plain_onWarp rfl ⟨rfl, rfl, rfl, rfl, rfl, rfl, rfl⟩ hc

/-- A value of a predicate register and `active` goes to s[d]. -/
theorem predS_gives {fn : BitVec 4} {f : Mask → Mask → W64} {r : W64}
    (hc : Clear s { guard := g, cls := .control, scals := [d.toNat] }) (h : f (s.w.pred pa.toNat) (s.w.active g) = r) :
    predS fn d pa g f s = .next (fellW 4 s (s.w.setS d.toNat r false)) := by
  subst h
  exact plain_onWarp rfl ⟨rfl, rfl, rfl, rfl, rfl, rfl, rfl⟩ hc

theorem execStop_gives (hc : Clear s { guard := g, cls := .control, scals := [a.toNat], uses := [useS a] }) :
    execStop pd a g s = .next (fellW 4 s (if pd = 7 then s.w else
      { s.w with
        pr := put 0 s.w.pr pd.toNat
          ((s.w.pred pd.toNat &&& ~~~(s.w.active g)) ||| (lo32 (s.w.sr a.toNat).bits &&& s.w.active g)) })) := by
  rw [← setP_toNat]
  exact plain_onWarp rfl ⟨rfl, rfl, rfl, rfl, rfl, rfl, rfl⟩ hc

end

/-- A mask holds all lanes of another where none of them is left outside it. -/
theorem and_eq_right_iff (p act : Mask) : p &&& act = act ↔ act &&& ~~~p = 0 := by
  have key (i : Nat) (hi : i < 32) : (p &&& act).getLsbD i = act.getLsbD i ↔ (act &&& ~~~p).getLsbD i = false := by
    simp only [BitVec.getLsbD_and, BitVec.getLsbD_not, hi, decide_true, Bool.true_and]
    cases p.getLsbD i <;> cases act.getLsbD i <;> decide
  refine ⟨fun h => ?_, fun h => ?_⟩
  · apply BitVec.eq_of_getLsbD_eq
    intro i hi
    rw [(key i hi).1 (by rw [h])]
    exact BitVec.getLsbD_zero.symm
  · apply BitVec.eq_of_getLsbD_eq
    intro i hi
    exact (key i hi).2 (by rw [h]; exact BitVec.getLsbD_zero)

/-- The values that MODE may hold (R79, R80). -/
theorem modeOk_iff (m : W32) : modeOk m = true ↔ bits32 m 16 14 ≤ 4 ∧ bits32 m 31 21 = 0 := by
  simp [modeOk]

/-- A SETM form gives MODE its value, or traps with ILLEGAL_OP where MODE may not hold it. -/
theorem setMode_gives {s : State} {word : W64} {scals : List Nat} {us : List Use} {f : Warp → W32} {v : W32}
    (hc : Clear s { cls := .control, scals := scals, uses := us }) (h : f s.w = v) :
    setMode word scals us f s = if bits32 v 16 14 ≤ 4 ∧ bits32 v 31 21 = 0
      then .next (fellW 4 s ({ s.w with p := { s.w.p with mode := v } }))
      else .next (raise (trapOf 0x01 (v.zeroExtend 64) (s.w.active false) false) s) := by
  subst h
  refine (plain_run rfl ⟨rfl, rfl, rfl, rfl, rfl, rfl, rfl⟩ hc).trans ?_
  dsimp only
  simp only [← modeOk_iff]
  split <;> rfl

/-- Settles O4: the predicates through `plog_gives` and `predS_gives`, MODE through `setMode_gives` and `insertField_eq`. -/
theorem predicatesAndModeComplete : Obligations.PredicatesAndModeComplete := by
  refine ⟨fun s pd pa pb d a g => ⟨fun hc => ?_, fun hc => ⟨?_, ?_, ?_, ?_⟩, fun hc => ?_⟩,
    fun s d i4 i10 i7 => ⟨fun hc => ⟨?_, ?_, ?_⟩, fun hc => ?_, fun hc => ?_⟩⟩
  · exact ⟨(plog_gives hc rfl : execPand pd pa pb g s = _), (plog_gives hc rfl : execPor pd pa pb g s = _),
      (plog_gives hc rfl : execPxor pd pa pb g s = _), (plog_gives hc rfl : execPandn pd pa pb g s = _),
      (plog_gives hc rfl : execPnot pd pa g s = _), (plog_gives hc rfl : execPmov pd pa g s = _),
      (plog_gives hc rfl : execPset pd g s = _), (plog_gives hc rfl : execPclr pd g s = _)⟩
  · exact (predS_gives hc (ite_not ..).symm : execPany d pa g s = _)
  · exact (predS_gives hc (ite_of_iff (and_eq_right_iff _ _) rfl rfl) : execPall d pa g s = _)
  · exact (predS_gives hc rfl : execPpop d pa g s = _)
  · exact (predS_gives hc rfl : execPtos d pa g s = _)
  · exact (execStop_gives hc : execStop pd a g s = _)
  · refine (setMode_gives hc ?_ : execSetmg i4 s = _)
    have := insertField_eq (w := 32) (hi := 28) (lo := 0) rfl i4 s.w.p.mode
    simp only [BitVec.shiftLeft_zero] at this
    exact this.trans (by simp)
  · exact (setMode_gives hc (insertField_eq (w := 32) (hi := 18) (lo := 4) rfl i10 _) : execSetmt i10 s = _)
  · exact (setMode_gives hc (insertField_eq (w := 32) (hi := 11) (lo := 14) rfl i7 _) : execSetmr i7 s = _)
  · exact (setMode_gives hc rfl : execSetm d s = _)
  · exact (plain_onWarp rfl ⟨rfl, rfl, rfl, rfl, rfl, rfl, rfl⟩ hc : execGetm d s = _)

end Sys2Proof.Proofs
end

section
/-! SUPPORT. Guards: the G bit of every word, and what an instruction does whose guard selects no lane (R81, R86). -/

namespace Sys2Proof.Proofs
open Sys2Proof Sys2Proof.Machine Sys2Proof.Laws

/-! ### The G bit of a word (R72, R74) -/

/-- The G field of an instruction that has one, and false for the others. -/
def guardField : Instr → Bool
  | .sadd _ _ _ g _ | .ssub _ _ _ g _ | .smul _ _ _ g _ | .smulh _ _ _ g _ | .sand _ _ _ g _ | .sor _ _ _ g _ | .sxor _ _ _ g _
  | .sshl _ _ _ g _ | .sshr _ _ _ g _ | .ssar _ _ _ g _ | .smin _ _ _ g _ | .smax _ _ _ g _ | .sminu _ _ _ g _
  | .smaxu _ _ _ g _ | .sclz _ _ g _ | .spop _ _ g _ | .saddi _ _ _ g | .scmpeq _ _ _ g _ | .scmpne _ _ _ g _
  | .scmplt _ _ _ g _ | .scmple _ _ _ g _ | .scmpltu _ _ _ g _ | .scmpleu _ _ _ g _ | .scmpgt _ _ _ g _ | .scmpge _ _ _ g _
  | .scmpgtu _ _ _ g _ | .scmpgeu _ _ _ g _ | .smovl _ g _ | .smovlz _ g _ | .smovlh _ g _ | .ssel _ _ _ _ g | .sdiv _ _ _ g _
  | .sdivu _ _ _ g _ | .srem _ _ _ g _ | .sremu _ _ _ g _ | .pand _ _ _ g | .por _ _ _ g | .pxor _ _ _ g | .pandn _ _ _ g
  | .pnot _ _ g | .pmov _ _ g | .pset _ g | .pclr _ g | .pany _ _ g | .pall _ _ g | .ppop _ _ g | .ptos _ _ g | .stop _ _ g
  | .exit g | .vadd _ _ _ g _ | .vsub _ _ _ g _ | .vmul _ _ _ g _ | .vmulh _ _ _ g _ | .vmulhu _ _ _ g _ | .vmin _ _ _ g _
  | .vmax _ _ _ g _ | .vabs _ _ g _ | .vneg _ _ g _ | .vabsdiff _ _ _ g _ | .vavg _ _ _ g _ | .vand _ _ _ g _ | .vor _ _ _ g _
  | .vxor _ _ _ g _ | .vandn _ _ _ g _ | .vnot _ _ g _ | .vshl _ _ _ g _ | .vshr _ _ _ g _ | .vsar _ _ _ g _ | .vrol _ _ _ g _
  | .vror _ _ _ g _ | .vclz _ _ g _ | .vpop _ _ g _ | .vbrev _ _ g _ | .vimad _ _ _ _ g | .vbfe _ _ _ g _ | .vbfes _ _ _ g _
  | .vbfi _ _ _ _ g | .vcmpeq _ _ _ g _ | .vcmpne _ _ _ g _ | .vcmplt _ _ _ g _ | .vcmple _ _ _ g _ | .vcmpltu _ _ _ g _
  | .vcmpleu _ _ _ g _ | .vcmpgt _ _ _ g _ | .vcmpge _ _ _ g _ | .vcmpgtu _ _ _ g _ | .vcmpgeu _ _ _ g _ | .vsel _ _ _ _ g
  | .vmov _ _ g _ | .vbcast _ _ g _ | .vtos _ _ _ g _ | .stov _ _ _ g _ | .vrdout _ _ g _ | .vwrout _ _ g _ | .vmovi _ _ g
  | .vmovl _ g _ | .vdiv _ _ _ g _ | .vrem _ _ _ g _ | .vcvt _ _ g | .vrndi _ _ g | .vpack _ _ _ g | .vunpkl _ _ g
  | .vunpkh _ _ g | .fadd _ _ _ g _ | .fsub _ _ _ g _ | .fmul _ _ _ g _ | .fmin _ _ _ g _ | .fmax _ _ _ g _ | .fabs _ _ g _
  | .fneg _ _ g _ | .fcopysign _ _ _ g _ | .fscale _ _ _ g _ | .ffma _ _ _ _ g | .fcmpeq _ _ _ g _ | .fcmpne _ _ _ g _
  | .fcmplt _ _ _ g _ | .fcmple _ _ _ g _ | .fcmpgt _ _ _ g _ | .fcmpge _ _ _ g _ | .fcmpueq _ _ _ g _ | .fcmpune _ _ _ g _
  | .fcmpult _ _ _ g _ | .fcmpule _ _ _ g _ | .fcmpugt _ _ _ g _ | .fcmpuge _ _ _ g _ | .fcmpord _ _ _ g _
  | .fcmpunord _ _ _ g _ | .frcp _ _ g _ | .frsq _ _ g _ | .fsqrt _ _ g _ | .fexp2 _ _ g _ | .flog2 _ _ g _ | .fsin _ _ g _
  | .fcos _ _ g _ | .ftanh _ _ g _ | .ffract _ _ g _ | .fclass _ _ g _ | .fdiv _ _ _ g _ | .fdot _ _ _ _ g | .lshuf _ _ _ g _
  | .lrot _ _ _ g _ | .lxorl _ _ _ g _ | .lup _ _ _ g _ | .ldown _ _ _ g _ | .lbcast _ _ _ g _ | .lrotw _ _ _ g _
  | .lredadd _ _ g _ | .lredmin _ _ g _ | .lredmax _ _ g _ | .lredand _ _ g _ | .lredor _ _ g _ | .lredxor _ _ g _
  | .lredfadd _ _ g _ | .lredfmin _ _ g _ | .lredfmax _ _ g _ | .lscanadd _ _ g _ | .lscanmin _ _ g _ | .lscanmax _ _ g _
  | .lscanand _ _ g _ | .lscanor _ _ g _ | .lscanxor _ _ g _ | .lscanfadd _ _ g _ | .lxscanadd _ _ g _ | .lxscanmin _ _ g _
  | .lxscanmax _ _ g _ | .lxscanand _ _ g _ | .lxscanor _ _ g _ | .lxscanxor _ _ g _ | .lxscanfadd _ _ g _ | .lballot _ _ g
  | .lmatch _ _ g _ | .xsend _ _ _ g | .xrecv _ _ _ g | .regroup _ _ _ g | .vlane _ g | .ld _ _ _ _ _ g _ | .st _ _ _ _ _ g _
  | .ldu _ _ _ _ _ g _ | .stu _ _ _ _ _ g _ | .ldh _ _ _ _ _ g _ | .sth _ _ _ _ _ g _ | .talloc _ _ g | .tfree _ g | .tinfo _ g
  | .waitrld _ g | .waitrst _ g | .waitrcp _ g | .waitrtl _ g | .pfl1 _ _ g | .pfllc _ _ g | .cwb _ _ g | .cinv _ _ g
  | .icinv _ g | .fence _ g | .binit _ _ g | .barv _ g | .barvx _ _ g | .barvd _ g | .bwait _ _ g | .btest _ _ _ g | .cbara g
  | .cbarw g | .cbar g | .wgbar g | .wgbara g | .wgbarw g | .txabort _ g | .txstat _ g | .txcause _ g | .cpld _ _ g
  | .cpst _ _ g | .cpred _ _ g | .cpg _ _ g | .cpc _ _ g | .cpw _ _ g | .cpq _ _ g | .cpcan _ g | .tcfg _ _ g | .tld _ _ _ g
  | .tst _ _ _ g | .tzero _ g | .azero _ g | .mma _ _ _ g | .mmap _ _ _ g | .mmapF _ _ _ g | .mmag _ _ _ g | .tmovv _ _ _ g
  | .tcvt _ _ g | .tlds _ _ _ g | .msemitv _ _ g | .msemitp _ _ g | .vamp _ g | .gaze _ _ g | .rtfetch _ _ g | .tex _ _ _ g
  | .texl _ _ _ g | .texg _ _ _ g | .texf _ _ _ g | .texq _ _ _ g | .rayl _ _ _ g | .raylw _ _ _ g | .rayr _ _ g
  | .vtdone _ _ g | .yield g | .sleep _ g | .wake _ g | .dlaunch _ _ _ g | .djoin _ _ g => g
  | _ => false

theorem guarded_eq {w : W32} {k : Nat} {b : Bool} (h : guardBit (fld w 25 7).toNat = some k) (hb : w.getLsbD k = b) :
    guarded w = b := by
  rw [guarded, opOf, h]
  exact hb

/-- A bit above the last field of a word is one of the fields above it. -/
theorem bit_above {n m : Nat} (a : BitVec n) (b : BitVec m) (k : Nat) (h : m ≤ k) : (a ++ b).getLsbD k = a.getLsbD (k - m) := by
  rw [BitVec.getLsbD_append, if_neg (by omega)]

theorem bit_flag {n : Nat} (a : BitVec n) (g : Bool) : (a ++ bit g).getLsbD 0 = g := by
  rw [BitVec.getLsbD_append, if_pos (by decide), BitVec.getLsbD_ofBool]
  rfl

section
variable {g t : Bool}

/-- A word whose G bit stands at bit 0. -/
theorem guarded_bit0 {hi : BitVec 31} (h : guardBit (hi.extractLsb' 24 7).toNat = some 0) : guarded (hi ++ bit g) = g :=
  guarded_eq (by rw [fld, field_above _ _ _ (by decide)]; exact h) (bit_flag hi g)

/-- A word whose G bit stands at bit 1, above T. -/
theorem guarded_bit1 {hi : BitVec 30} (h : guardBit (hi.extractLsb' 23 7).toNat = some 1) :
    guarded (hi ++ bit g ++ bit t) = g :=
  guarded_eq (by rw [fld, field_above _ _ _ (by decide), field_above _ _ _ (by decide)]; exact h)
    ((bit_above _ _ _ (by decide)).trans (bit_flag hi g))

/-- A word whose G bit stands at bit 2, above T. -/
theorem guarded_bit2_T {hi : BitVec 29} (h : guardBit (hi.extractLsb' 22 7).toNat = some 2) :
    guarded (hi ++ bit g ++ bit t ++ 0#1) = g :=
  guarded_eq (by rw [fld, field_above _ _ _ (by decide), field_above _ _ _ (by decide), field_above _ _ _ (by decide)]; exact h)
    ((bit_above _ _ _ (by decide)).trans ((bit_above _ _ _ (by decide)).trans (bit_flag hi g)))

/-- A word whose G bit stands at bit 2, above two bits that must be zero. -/
theorem guarded_bit2 {hi : BitVec 29} (h : guardBit (hi.extractLsb' 22 7).toNat = some 2) :
    guarded (hi ++ bit g ++ 0#2) = g :=
  guarded_eq (by rw [fld, field_above _ _ _ (by decide), field_above _ _ _ (by decide)]; exact h)
    ((bit_above _ _ _ (by decide)).trans (bit_flag hi g))

end

/-- A word is guarded exactly where its instruction's G field is set: a case for each place of the G bit, and one for the
formats that have none. -/
theorem guarded_encodeWord (i : Instr) (hi : i.isEvent = false) : guarded (encodeWord i) = guardField i := by
  cases i with
  | saddi _ _ _ _ | smovl _ _ _ | smovlz _ _ _ | smovlh _ _ _ | ssel _ _ _ _ _ | exit _ | vimad _ _ _ _ _ | vbfi _ _ _ _ _
  | vsel _ _ _ _ _ | vmovi _ _ _ | vmovl _ _ _ | ffma _ _ _ _ _ | fdot _ _ _ _ _ =>
    exact guarded_bit0 (by simp (disch := decide) only [field_above, field_whole, Nat.reduceSub]; rfl)
  | ld _ _ _ _ _ _ _ | st _ _ _ _ _ _ _ | ldu _ _ _ _ _ _ _ | stu _ _ _ _ _ _ _ | ldh _ _ _ _ _ _ _ | sth _ _ _ _ _ _ _ =>
    exact guarded_bit1 (by simp (disch := decide) only [field_above, field_whole, Nat.reduceSub]; rfl)
  | sadd _ _ _ _ _ | ssub _ _ _ _ _ | smul _ _ _ _ _ | smulh _ _ _ _ _ | sand _ _ _ _ _ | sor _ _ _ _ _ | sxor _ _ _ _ _
  | sshl _ _ _ _ _ | sshr _ _ _ _ _ | ssar _ _ _ _ _ | smin _ _ _ _ _ | smax _ _ _ _ _ | sminu _ _ _ _ _ | smaxu _ _ _ _ _
  | sclz _ _ _ _ | spop _ _ _ _ | scmpeq _ _ _ _ _ | scmpne _ _ _ _ _ | scmplt _ _ _ _ _ | scmple _ _ _ _ _ | scmpltu _ _ _ _ _
  | scmpleu _ _ _ _ _ | scmpgt _ _ _ _ _ | scmpge _ _ _ _ _ | scmpgtu _ _ _ _ _ | scmpgeu _ _ _ _ _ | sdiv _ _ _ _ _
  | sdivu _ _ _ _ _ | srem _ _ _ _ _ | sremu _ _ _ _ _ | vadd _ _ _ _ _ | vsub _ _ _ _ _ | vmul _ _ _ _ _ | vmulh _ _ _ _ _
  | vmulhu _ _ _ _ _ | vmin _ _ _ _ _ | vmax _ _ _ _ _ | vabs _ _ _ _ | vneg _ _ _ _ | vabsdiff _ _ _ _ _ | vavg _ _ _ _ _
  | vand _ _ _ _ _ | vor _ _ _ _ _ | vxor _ _ _ _ _ | vandn _ _ _ _ _ | vnot _ _ _ _ | vshl _ _ _ _ _ | vshr _ _ _ _ _
  | vsar _ _ _ _ _ | vrol _ _ _ _ _ | vror _ _ _ _ _ | vclz _ _ _ _ | vpop _ _ _ _ | vbrev _ _ _ _ | vbfe _ _ _ _ _
  | vbfes _ _ _ _ _ | vcmpeq _ _ _ _ _ | vcmpne _ _ _ _ _ | vcmplt _ _ _ _ _ | vcmple _ _ _ _ _ | vcmpltu _ _ _ _ _
  | vcmpleu _ _ _ _ _ | vcmpgt _ _ _ _ _ | vcmpge _ _ _ _ _ | vcmpgtu _ _ _ _ _ | vcmpgeu _ _ _ _ _ | vmov _ _ _ _
  | vbcast _ _ _ _ | vtos _ _ _ _ _ | stov _ _ _ _ _ | vrdout _ _ _ _ | vwrout _ _ _ _ | vdiv _ _ _ _ _ | vrem _ _ _ _ _
  | fadd _ _ _ _ _ | fsub _ _ _ _ _ | fmul _ _ _ _ _ | fmin _ _ _ _ _ | fmax _ _ _ _ _ | fabs _ _ _ _ | fneg _ _ _ _
  | fcopysign _ _ _ _ _ | fscale _ _ _ _ _ | fcmpeq _ _ _ _ _ | fcmpne _ _ _ _ _ | fcmplt _ _ _ _ _ | fcmple _ _ _ _ _
  | fcmpgt _ _ _ _ _ | fcmpge _ _ _ _ _ | fcmpueq _ _ _ _ _ | fcmpune _ _ _ _ _ | fcmpult _ _ _ _ _ | fcmpule _ _ _ _ _
  | fcmpugt _ _ _ _ _ | fcmpuge _ _ _ _ _ | fcmpord _ _ _ _ _ | fcmpunord _ _ _ _ _ | frcp _ _ _ _ | frsq _ _ _ _
  | fsqrt _ _ _ _ | fexp2 _ _ _ _ | flog2 _ _ _ _ | fsin _ _ _ _ | fcos _ _ _ _ | ftanh _ _ _ _ | ffract _ _ _ _
  | fclass _ _ _ _ | fdiv _ _ _ _ _ | lshuf _ _ _ _ _ | lrot _ _ _ _ _ | lxorl _ _ _ _ _ | lup _ _ _ _ _ | ldown _ _ _ _ _
  | lbcast _ _ _ _ _ | lrotw _ _ _ _ _ | lredadd _ _ _ _ | lredmin _ _ _ _ | lredmax _ _ _ _ | lredand _ _ _ _ | lredor _ _ _ _
  | lredxor _ _ _ _ | lredfadd _ _ _ _ | lredfmin _ _ _ _ | lredfmax _ _ _ _ | lscanadd _ _ _ _ | lscanmin _ _ _ _
  | lscanmax _ _ _ _ | lscanand _ _ _ _ | lscanor _ _ _ _ | lscanxor _ _ _ _ | lscanfadd _ _ _ _ | lxscanadd _ _ _ _
  | lxscanmin _ _ _ _ | lxscanmax _ _ _ _ | lxscanand _ _ _ _ | lxscanor _ _ _ _ | lxscanxor _ _ _ _ | lxscanfadd _ _ _ _
  | lmatch _ _ _ _ =>
    exact guarded_bit2_T (by simp (disch := decide) only [field_above, field_whole, Nat.reduceSub]; rfl)
  | pand _ _ _ _ | por _ _ _ _ | pxor _ _ _ _ | pandn _ _ _ _ | pnot _ _ _ | pmov _ _ _ | pset _ _ | pclr _ _ | pany _ _ _
  | pall _ _ _ | ppop _ _ _ | ptos _ _ _ | stop _ _ _ | vcvt _ _ _ | vrndi _ _ _ | vpack _ _ _ _ | vunpkl _ _ _ | vunpkh _ _ _
  | lballot _ _ _ | xsend _ _ _ _ | xrecv _ _ _ _ | regroup _ _ _ _ | vlane _ _ | talloc _ _ _ | tfree _ _ | tinfo _ _
  | waitrld _ _ | waitrst _ _ | waitrcp _ _ | waitrtl _ _ | pfl1 _ _ _ | pfllc _ _ _ | cwb _ _ _ | cinv _ _ _ | icinv _ _
  | fence _ _ | binit _ _ _ | barv _ _ | barvx _ _ _ | barvd _ _ | bwait _ _ _ | btest _ _ _ _ | cbara _ | cbarw _ | cbar _
  | wgbar _ | wgbara _ | wgbarw _ | txabort _ _ | txstat _ _ | txcause _ _ | cpld _ _ _ | cpst _ _ _ | cpred _ _ _ | cpg _ _ _
  | cpc _ _ _ | cpw _ _ _ | cpq _ _ _ | cpcan _ _ | tcfg _ _ _ | tld _ _ _ _ | tst _ _ _ _ | tzero _ _ | azero _ _
  | mma _ _ _ _ | mmap _ _ _ _ | mmapF _ _ _ _ | mmag _ _ _ _ | tmovv _ _ _ _ | tcvt _ _ _ | tlds _ _ _ _ | msemitv _ _ _
  | msemitp _ _ _ | vamp _ _ | gaze _ _ _ | rtfetch _ _ _ | tex _ _ _ _ | texl _ _ _ _ | texg _ _ _ _ | texf _ _ _ _
  | texq _ _ _ _ | rayl _ _ _ _ | raylw _ _ _ _ | rayr _ _ _ | vtdone _ _ _ | yield _ | sleep _ _ | wake _ _ | dlaunch _ _ _ _
  | djoin _ _ _ =>
    exact guarded_bit2 (by simp (disch := decide) only [field_above, field_whole, Nat.reduceSub]; rfl)
  | nop | smovi _ _ | sins16 _ _ | sins32 _ _ | sins48 _ _ | br _ | brs _ _ _ | brc _ _ _ _ | brcl _ _ _ _ | call _ _
  | callr _ _ | ret | enter _ | loop _ _ | loopr _ _ | lbrk | setmg _ | setmt _ | setmr _ | setm _ | getm _ | atom _ _ _ _ _
  | atoma _ _ _ _ _ | red _ _ _ _ | atomh _ _ _ _ _ | wait _ _ _ _ | txbegin _ _ _ | txend | csrr _ _ | csrw _ _ | csrs _ _
  | csrc _ _ | trap _ | brk _ | rett | pmark _ | framesync =>
    unfold encodeWord
    simp (disch := decide) only [guarded, opOf, fld, field_above, field_whole, Nat.reduceSub]; rfl
  | trapEntry _ | fseSpill _ _ | fseFill _ _ | ageingSwap _ | ageRelease _ _ | parkedAgeSwap _ | sleepTimeout _
  | memoryOpComplete _ _ _ | mxaOperation _ | copyRow _ | rangeLockRelease _ | tabardGrant _ | vamPrimitive _
  | wrsTileFinished _ | rayTraversalComplete _ _ | stripWindowOpen _ | stripDeadline _ | stripOutput _ | displayLineStart _
  | dpHotPlug _ _ | viewEnable _ _ | viewDisable _ _ | outputEnable _ _ | outputDisable _ _ | sampleTick _ | trigstatArm _ _
  | register _ | unregister _ | tlbinv _ | replay _ | preempt _ | resume _ | kill _ | gstart _ | preemptionStop _ _
  | contextImageWrite _ | qtailWrite _ _ | dbpstatHaltClear _ | registerWrite _ _ | dispatchStep _ _ | headReadinessCheck _ _
  | doneSigIncrement _ | faultBatchFull _ _ | faultBatchTimeout _ _ | heldRecordWrite _ _ | gangAccept _ | gangTimeout _
  | gangAbort _ | fabricAccess _ _ _ _ _ | lasiaPortFail _ | hostMemoryAccess _ _ _ _ | correctedError _
  | uncorrectableError _ _ _ | expanderFailure _ | mcLoopTick _ _ _ _ _ | yarrowReading _ _ | deviceReset _ _
  | firmwareRecovery _ | getVersion | getCapabilities | negotiateAlgorithms | getDigests | getCertificate _ | challenge _
  | getMeasurements _ | triggerCycleReached _ | linkTrainingDone _ _ | lasiaPortTrained _ | cmdUnknownCode _ =>
    cases hi

/-! ### Guarded off (R81, R86 step 2) -/

/-- An instruction that issues through a gate falls through where its guard selects no lane. -/
theorem gate_off {o : Host.Outcome State Fault Refusal} {gt : Gate} {body : State → Mask → Res} {s : State} {len : Nat}
    (e : o = gt.run body s) (hl : gt.len = len) (hg : gt.guard = true) (h : s.w.active true = 0) : o = .next (fell len s) := by
  rw [e, gt.run_off body s hg h, hl]

/-- Every instruction with a G bit issues through a gate with that guard: one case for each. EXIT goes on to what follows an EXIT. -/
theorem exec_off (s : State) (i : Instr) (hg : guardField i = true) (h : s.w.active true = 0) (hx : ∀ g, i ≠ .exit g) :
    exec i s = .next (fell (if i.literal.isSome then 8 else 4) s) := by
  cases i with
  | sadd d a b g t => exact (gate_off rfl rfl hg h : execSadd d a b g t s = _)
  | ssub d a b g t => exact (gate_off rfl rfl hg h : execSsub d a b g t s = _)
  | smul d a b g t => exact (gate_off rfl rfl hg h : execSmul d a b g t s = _)
  | smulh d a b g t => exact (gate_off rfl rfl hg h : execSmulh d a b g t s = _)
  | sand d a b g t => exact (gate_off rfl rfl hg h : execSand d a b g t s = _)
  | sor d a b g t => exact (gate_off rfl rfl hg h : execSor d a b g t s = _)
  | sxor d a b g t => exact (gate_off rfl rfl hg h : execSxor d a b g t s = _)
  | sshl d a b g t => exact (gate_off rfl rfl hg h : execSshl d a b g t s = _)
  | sshr d a b g t => exact (gate_off rfl rfl hg h : execSshr d a b g t s = _)
  | ssar d a b g t => exact (gate_off rfl rfl hg h : execSsar d a b g t s = _)
  | smin d a b g t => exact (gate_off rfl rfl hg h : execSmin d a b g t s = _)
  | smax d a b g t => exact (gate_off rfl rfl hg h : execSmax d a b g t s = _)
  | sminu d a b g t => exact (gate_off rfl rfl hg h : execSminu d a b g t s = _)
  | smaxu d a b g t => exact (gate_off rfl rfl hg h : execSmaxu d a b g t s = _)
  | sclz d a g t => exact (gate_off rfl rfl hg h : execSclz d a g t s = _)
  | spop d a g t => exact (gate_off rfl rfl hg h : execSpop d a g t s = _)
  | saddi d a imm g => exact (gate_off rfl rfl hg h : execSaddi d a imm g s = _)
  | scmpeq d a b g t => exact (gate_off rfl rfl hg h : execScmpeq d a b g t s = _)
  | scmpne d a b g t => exact (gate_off rfl rfl hg h : execScmpne d a b g t s = _)
  | scmplt d a b g t => exact (gate_off rfl rfl hg h : execScmplt d a b g t s = _)
  | scmple d a b g t => exact (gate_off rfl rfl hg h : execScmple d a b g t s = _)
  | scmpltu d a b g t => exact (gate_off rfl rfl hg h : execScmpltu d a b g t s = _)
  | scmpleu d a b g t => exact (gate_off rfl rfl hg h : execScmpleu d a b g t s = _)
  | scmpgt d a b g t => exact (gate_off rfl rfl hg h : execScmpgt d a b g t s = _)
  | scmpge d a b g t => exact (gate_off rfl rfl hg h : execScmpge d a b g t s = _)
  | scmpgtu d a b g t => exact (gate_off rfl rfl hg h : execScmpgtu d a b g t s = _)
  | scmpgeu d a b g t => exact (gate_off rfl rfl hg h : execScmpgeu d a b g t s = _)
  | smovl d g _ => exact (gate_off rfl rfl hg h : execSmovl d g _ s = _)
  | smovlz d g _ => exact (gate_off rfl rfl hg h : execSmovlz d g _ s = _)
  | smovlh d g _ => exact (gate_off rfl rfl hg h : execSmovlh d g _ s = _)
  | ssel d a b c g => exact (gate_off rfl rfl hg h : execSsel d a b c g s = _)
  | sdiv d a b g t => exact (gate_off rfl rfl hg h : execSdiv d a b g t s = _)
  | sdivu d a b g t => exact (gate_off rfl rfl hg h : execSdivu d a b g t s = _)
  | srem d a b g t => exact (gate_off rfl rfl hg h : execSrem d a b g t s = _)
  | sremu d a b g t => exact (gate_off rfl rfl hg h : execSremu d a b g t s = _)
  | pand d a b g => exact (gate_off rfl rfl hg h : execPand d a b g s = _)
  | por d a b g => exact (gate_off rfl rfl hg h : execPor d a b g s = _)
  | pxor d a b g => exact (gate_off rfl rfl hg h : execPxor d a b g s = _)
  | pandn d a b g => exact (gate_off rfl rfl hg h : execPandn d a b g s = _)
  | pnot d a g => exact (gate_off rfl rfl hg h : execPnot d a g s = _)
  | pmov d a g => exact (gate_off rfl rfl hg h : execPmov d a g s = _)
  | pset d g => exact (gate_off rfl rfl hg h : execPset d g s = _)
  | pclr d g => exact (gate_off rfl rfl hg h : execPclr d g s = _)
  | pany d a g => exact (gate_off rfl rfl hg h : execPany d a g s = _)
  | pall d a g => exact (gate_off rfl rfl hg h : execPall d a g s = _)
  | ppop d a g => exact (gate_off rfl rfl hg h : execPpop d a g s = _)
  | ptos d a g => exact (gate_off rfl rfl hg h : execPtos d a g s = _)
  | stop d a g => exact (gate_off rfl rfl hg h : execStop d a g s = _)
  | vadd d a b g t => exact (gate_off rfl rfl hg h : execVadd d a b g t s = _)
  | vsub d a b g t => exact (gate_off rfl rfl hg h : execVsub d a b g t s = _)
  | vmul d a b g t => exact (gate_off rfl rfl hg h : execVmul d a b g t s = _)
  | vmulh d a b g t => exact (gate_off rfl rfl hg h : execVmulh d a b g t s = _)
  | vmulhu d a b g t => exact (gate_off rfl rfl hg h : execVmulhu d a b g t s = _)
  | vmin d a b g t => exact (gate_off rfl rfl hg h : execVmin d a b g t s = _)
  | vmax d a b g t => exact (gate_off rfl rfl hg h : execVmax d a b g t s = _)
  | vabs d a g t => exact (gate_off rfl rfl hg h : execVabs d a g t s = _)
  | vneg d a g t => exact (gate_off rfl rfl hg h : execVneg d a g t s = _)
  | vabsdiff d a b g t => exact (gate_off rfl rfl hg h : execVabsdiff d a b g t s = _)
  | vavg d a b g t => exact (gate_off rfl rfl hg h : execVavg d a b g t s = _)
  | vand d a b g t => exact (gate_off rfl rfl hg h : execVand d a b g t s = _)
  | vor d a b g t => exact (gate_off rfl rfl hg h : execVor d a b g t s = _)
  | vxor d a b g t => exact (gate_off rfl rfl hg h : execVxor d a b g t s = _)
  | vandn d a b g t => exact (gate_off rfl rfl hg h : execVandn d a b g t s = _)
  | vnot d a g t => exact (gate_off rfl rfl hg h : execVnot d a g t s = _)
  | vshl d a b g t => exact (gate_off rfl rfl hg h : execVshl d a b g t s = _)
  | vshr d a b g t => exact (gate_off rfl rfl hg h : execVshr d a b g t s = _)
  | vsar d a b g t => exact (gate_off rfl rfl hg h : execVsar d a b g t s = _)
  | vrol d a b g t => exact (gate_off rfl rfl hg h : execVrol d a b g t s = _)
  | vror d a b g t => exact (gate_off rfl rfl hg h : execVror d a b g t s = _)
  | vclz d a g t => exact (gate_off rfl rfl hg h : execVclz d a g t s = _)
  | vpop d a g t => exact (gate_off rfl rfl hg h : execVpop d a g t s = _)
  | vbrev d a g t => exact (gate_off rfl rfl hg h : execVbrev d a g t s = _)
  | vimad d a b c g => exact (gate_off rfl rfl hg h : execVimad d a b c g s = _)
  | vbfe d a b g t => exact (gate_off rfl rfl hg h : execVbfe d a b g t s = _)
  | vbfes d a b g t => exact (gate_off rfl rfl hg h : execVbfes d a b g t s = _)
  | vbfi d a b c g => exact (gate_off rfl rfl hg h : execVbfi d a b c g s = _)
  | vcmpeq d a b g t => exact (gate_off rfl rfl hg h : execVcmpeq d a b g t s = _)
  | vcmpne d a b g t => exact (gate_off rfl rfl hg h : execVcmpne d a b g t s = _)
  | vcmplt d a b g t => exact (gate_off rfl rfl hg h : execVcmplt d a b g t s = _)
  | vcmple d a b g t => exact (gate_off rfl rfl hg h : execVcmple d a b g t s = _)
  | vcmpltu d a b g t => exact (gate_off rfl rfl hg h : execVcmpltu d a b g t s = _)
  | vcmpleu d a b g t => exact (gate_off rfl rfl hg h : execVcmpleu d a b g t s = _)
  | vcmpgt d a b g t => exact (gate_off rfl rfl hg h : execVcmpgt d a b g t s = _)
  | vcmpge d a b g t => exact (gate_off rfl rfl hg h : execVcmpge d a b g t s = _)
  | vcmpgtu d a b g t => exact (gate_off rfl rfl hg h : execVcmpgtu d a b g t s = _)
  | vcmpgeu d a b g t => exact (gate_off rfl rfl hg h : execVcmpgeu d a b g t s = _)
  | vsel d a b c g => exact (gate_off rfl rfl hg h : execVsel d a b c g s = _)
  | vmov d a g t => exact (gate_off rfl rfl hg h : execVmov d a g t s = _)
  | vbcast d a g t => exact (gate_off rfl rfl hg h : execVbcast d a g t s = _)
  | vtos d a b g t => exact (gate_off rfl rfl hg h : execVtos d a b g t s = _)
  | stov d a b g t => exact (gate_off rfl rfl hg h : execStov d a b g t s = _)
  | vrdout d n g t => exact (gate_off rfl rfl hg h : execVrdout d n g t s = _)
  | vwrout n a g t => exact (gate_off rfl rfl hg h : execVwrout n a g t s = _)
  | vmovi d imm g => exact (gate_off rfl rfl hg h : execVmovi d imm g s = _)
  | vmovl d g _ => exact (gate_off rfl rfl hg h : execVmovl d g _ s = _)
  | vdiv d a b g t => exact (gate_off rfl rfl hg h : execVdiv d a b g t s = _)
  | vrem d a b g t => exact (gate_off rfl rfl hg h : execVrem d a b g t s = _)
  | vcvt d a g => exact (gate_off rfl rfl hg h : execVcvt d a g s = _)
  | vrndi d a g => exact (gate_off rfl rfl hg h : execVrndi d a g s = _)
  | vpack d a b g => exact (gate_off rfl rfl hg h : execVpack d a b g s = _)
  | vunpkl d a g => exact (gate_off rfl rfl hg h : execVunpkl d a g s = _)
  | vunpkh d a g => exact (gate_off rfl rfl hg h : execVunpkh d a g s = _)
  | fadd d a b g t => exact (gate_off rfl rfl hg h : execFadd d a b g t s = _)
  | fsub d a b g t => exact (gate_off rfl rfl hg h : execFsub d a b g t s = _)
  | fmul d a b g t => exact (gate_off rfl rfl hg h : execFmul d a b g t s = _)
  | fmin d a b g t => exact (gate_off rfl rfl hg h : execFmin d a b g t s = _)
  | fmax d a b g t => exact (gate_off rfl rfl hg h : execFmax d a b g t s = _)
  | fabs d a g t => exact (gate_off rfl rfl hg h : execFabs d a g t s = _)
  | fneg d a g t => exact (gate_off rfl rfl hg h : execFneg d a g t s = _)
  | fcopysign d a b g t => exact (gate_off rfl rfl hg h : execFcopysign d a b g t s = _)
  | fscale d a b g t => exact (gate_off rfl rfl hg h : execFscale d a b g t s = _)
  | ffma d a b c g => exact (gate_off rfl rfl hg h : execFfma d a b c g s = _)
  | fcmpeq d a b g t => exact (gate_off rfl rfl hg h : execFcmpeq d a b g t s = _)
  | fcmpne d a b g t => exact (gate_off rfl rfl hg h : execFcmpne d a b g t s = _)
  | fcmplt d a b g t => exact (gate_off rfl rfl hg h : execFcmplt d a b g t s = _)
  | fcmple d a b g t => exact (gate_off rfl rfl hg h : execFcmple d a b g t s = _)
  | fcmpgt d a b g t => exact (gate_off rfl rfl hg h : execFcmpgt d a b g t s = _)
  | fcmpge d a b g t => exact (gate_off rfl rfl hg h : execFcmpge d a b g t s = _)
  | fcmpueq d a b g t => exact (gate_off rfl rfl hg h : execFcmpueq d a b g t s = _)
  | fcmpune d a b g t => exact (gate_off rfl rfl hg h : execFcmpune d a b g t s = _)
  | fcmpult d a b g t => exact (gate_off rfl rfl hg h : execFcmpult d a b g t s = _)
  | fcmpule d a b g t => exact (gate_off rfl rfl hg h : execFcmpule d a b g t s = _)
  | fcmpugt d a b g t => exact (gate_off rfl rfl hg h : execFcmpugt d a b g t s = _)
  | fcmpuge d a b g t => exact (gate_off rfl rfl hg h : execFcmpuge d a b g t s = _)
  | fcmpord d a b g t => exact (gate_off rfl rfl hg h : execFcmpord d a b g t s = _)
  | fcmpunord d a b g t => exact (gate_off rfl rfl hg h : execFcmpunord d a b g t s = _)
  | frcp d a g t => exact (gate_off rfl rfl hg h : execFrcp d a g t s = _)
  | frsq d a g t => exact (gate_off rfl rfl hg h : execFrsq d a g t s = _)
  | fsqrt d a g t => exact (gate_off rfl rfl hg h : execFsqrt d a g t s = _)
  | fexp2 d a g t => exact (gate_off rfl rfl hg h : execFexp2 d a g t s = _)
  | flog2 d a g t => exact (gate_off rfl rfl hg h : execFlog2 d a g t s = _)
  | fsin d a g t => exact (gate_off rfl rfl hg h : execFsin d a g t s = _)
  | fcos d a g t => exact (gate_off rfl rfl hg h : execFcos d a g t s = _)
  | ftanh d a g t => exact (gate_off rfl rfl hg h : execFtanh d a g t s = _)
  | ffract d a g t => exact (gate_off rfl rfl hg h : execFfract d a g t s = _)
  | fclass d a g t => exact (gate_off rfl rfl hg h : execFclass d a g t s = _)
  | fdiv d a b g t => exact (gate_off rfl rfl hg h : execFdiv d a b g t s = _)
  | fdot d a b c g => exact (gate_off rfl rfl hg h : execFdot d a b c g s = _)
  | lshuf d a b g t => exact (gate_off rfl rfl hg h : execLshuf d a b g t s = _)
  | lrot d a b g t => exact (gate_off rfl rfl hg h : execLrot d a b g t s = _)
  | lxorl d a b g t => exact (gate_off rfl rfl hg h : execLxorl d a b g t s = _)
  | lup d a b g t => exact (gate_off rfl rfl hg h : execLup d a b g t s = _)
  | ldown d a b g t => exact (gate_off rfl rfl hg h : execLdown d a b g t s = _)
  | lbcast d a b g t => exact (gate_off rfl rfl hg h : execLbcast d a b g t s = _)
  | lrotw d a b g t => exact (gate_off rfl rfl hg h : execLrotw d a b g t s = _)
  | lredadd d a g t => exact (gate_off rfl rfl hg h : execLredadd d a g t s = _)
  | lredmin d a g t => exact (gate_off rfl rfl hg h : execLredmin d a g t s = _)
  | lredmax d a g t => exact (gate_off rfl rfl hg h : execLredmax d a g t s = _)
  | lredand d a g t => exact (gate_off rfl rfl hg h : execLredand d a g t s = _)
  | lredor d a g t => exact (gate_off rfl rfl hg h : execLredor d a g t s = _)
  | lredxor d a g t => exact (gate_off rfl rfl hg h : execLredxor d a g t s = _)
  | lredfadd d a g t => exact (gate_off rfl rfl hg h : execLredfadd d a g t s = _)
  | lredfmin d a g t => exact (gate_off rfl rfl hg h : execLredfmin d a g t s = _)
  | lredfmax d a g t => exact (gate_off rfl rfl hg h : execLredfmax d a g t s = _)
  | lscanadd d a g t => exact (gate_off rfl rfl hg h : execLscanadd d a g t s = _)
  | lscanmin d a g t => exact (gate_off rfl rfl hg h : execLscanmin d a g t s = _)
  | lscanmax d a g t => exact (gate_off rfl rfl hg h : execLscanmax d a g t s = _)
  | lscanand d a g t => exact (gate_off rfl rfl hg h : execLscanand d a g t s = _)
  | lscanor d a g t => exact (gate_off rfl rfl hg h : execLscanor d a g t s = _)
  | lscanxor d a g t => exact (gate_off rfl rfl hg h : execLscanxor d a g t s = _)
  | lscanfadd d a g t => exact (gate_off rfl rfl hg h : execLscanfadd d a g t s = _)
  | lxscanadd d a g t => exact (gate_off rfl rfl hg h : execLxscanadd d a g t s = _)
  | lxscanmin d a g t => exact (gate_off rfl rfl hg h : execLxscanmin d a g t s = _)
  | lxscanmax d a g t => exact (gate_off rfl rfl hg h : execLxscanmax d a g t s = _)
  | lxscanand d a g t => exact (gate_off rfl rfl hg h : execLxscanand d a g t s = _)
  | lxscanor d a g t => exact (gate_off rfl rfl hg h : execLxscanor d a g t s = _)
  | lxscanxor d a g t => exact (gate_off rfl rfl hg h : execLxscanxor d a g t s = _)
  | lxscanfadd d a g t => exact (gate_off rfl rfl hg h : execLxscanfadd d a g t s = _)
  | lballot d a g => exact (gate_off rfl rfl hg h : execLballot d a g s = _)
  | lmatch d a g t => exact (gate_off rfl rfl hg h : execLmatch d a g t s = _)
  | xsend d a b g => exact (gate_off rfl rfl hg h : execXsend d a b g s = _)
  | xrecv d a b g => exact (gate_off rfl rfl hg h : execXrecv d a b g s = _)
  | regroup d a b g => exact (gate_off rfl rfl hg h : execRegroup d a b g s = _)
  | vlane d g => exact (gate_off rfl rfl hg h : execVlane d g s = _)
  | ld d a b sc ord g t => exact (gate_off rfl rfl hg h : execLd d a b sc ord g t s = _)
  | st d a b sc ord g t => exact (gate_off rfl rfl hg h : execSt d a b sc ord g t s = _)
  | ldu d a b sc ord g t => exact (gate_off rfl rfl hg h : execLdu d a b sc ord g t s = _)
  | stu d a b sc ord g t => exact (gate_off rfl rfl hg h : execStu d a b sc ord g t s = _)
  | ldh d a b sc ord g t => exact (gate_off rfl rfl hg h : execLdh d a b sc ord g t s = _)
  | sth d a b sc ord g t => exact (gate_off rfl rfl hg h : execSth d a b sc ord g t s = _)
  | talloc d a g => exact (gate_off rfl rfl hg h : execTalloc d a g s = _)
  | tfree a g => exact (gate_off rfl rfl hg h : execTfree a g s = _)
  | tinfo d g => exact (gate_off rfl rfl hg h : execTinfo d g s = _)
  | waitrld a g => exact (gate_off rfl rfl hg h : execWaitrld a g s = _)
  | waitrst a g => exact (gate_off rfl rfl hg h : execWaitrst a g s = _)
  | waitrcp a g => exact (gate_off rfl rfl hg h : execWaitrcp a g s = _)
  | waitrtl a g => exact (gate_off rfl rfl hg h : execWaitrtl a g s = _)
  | pfl1 a b g => exact (gate_off rfl rfl hg h : execPfl1 a b g s = _)
  | pfllc a b g => exact (gate_off rfl rfl hg h : execPfllc a b g s = _)
  | cwb a b g => exact (gate_off rfl rfl hg h : execCwb a b g s = _)
  | cinv a b g => exact (gate_off rfl rfl hg h : execCinv a b g s = _)
  | icinv n g => exact (gate_off rfl rfl hg h : execIcinv n g s = _)
  | fence sc g => exact (gate_off rfl rfl hg h : execFence sc g s = _)
  | binit a b g => exact (gate_off rfl rfl hg h : execBinit a b g s = _)
  | barv a g => exact (gate_off rfl rfl hg h : execBarv a g s = _)
  | barvx a b g => exact (gate_off rfl rfl hg h : execBarvx a b g s = _)
  | barvd a g => exact (gate_off rfl rfl hg h : execBarvd a g s = _)
  | bwait a b g => exact (gate_off rfl rfl hg h : execBwait a b g s = _)
  | btest d a b g => exact (gate_off rfl rfl hg h : execBtest d a b g s = _)
  | cbara g => exact (gate_off rfl rfl hg h : execCbara g s = _)
  | cbarw g => exact (gate_off rfl rfl hg h : execCbarw g s = _)
  | cbar g => exact (gate_off rfl rfl hg h : execCbar g s = _)
  | wgbar g => exact (gate_off rfl rfl hg h : execWgbar g s = _)
  | wgbara g => exact (gate_off rfl rfl hg h : execWgbara g s = _)
  | wgbarw g => exact (gate_off rfl rfl hg h : execWgbarw g s = _)
  | txabort code g => exact (gate_off rfl rfl hg h : execTxabort code g s = _)
  | txstat d g => exact (gate_off rfl rfl hg h : execTxstat d g s = _)
  | txcause d g => exact (gate_off rfl rfl hg h : execTxcause d g s = _)
  | cpld a b g => exact (gate_off rfl rfl hg h : execCpld a b g s = _)
  | cpst a b g => exact (gate_off rfl rfl hg h : execCpst a b g s = _)
  | cpred a b g => exact (gate_off rfl rfl hg h : execCpred a b g s = _)
  | cpg a b g => exact (gate_off rfl rfl hg h : execCpg a b g s = _)
  | cpc a b g => exact (gate_off rfl rfl hg h : execCpc a b g s = _)
  | cpw a b g => exact (gate_off rfl rfl hg h : execCpw a b g s = _)
  | cpq d a g => exact (gate_off rfl rfl hg h : execCpq d a g s = _)
  | cpcan a g => exact (gate_off rfl rfl hg h : execCpcan a g s = _)
  | tcfg d a g => exact (gate_off rfl rfl hg h : execTcfg d a g s = _)
  | tld d a b g => exact (gate_off rfl rfl hg h : execTld d a b g s = _)
  | tst d a b g => exact (gate_off rfl rfl hg h : execTst d a b g s = _)
  | tzero d g => exact (gate_off rfl rfl hg h : execTzero d g s = _)
  | azero d g => exact (gate_off rfl rfl hg h : execAzero d g s = _)
  | mma d a b g => exact (gate_off rfl rfl hg h : execMma d a b g s = _)
  | mmap d a b g => exact (gate_off rfl rfl hg h : execMmap d a b g s = _)
  | mmapF d a b g => exact (gate_off rfl rfl hg h : execMmapF d a b g s = _)
  | mmag d a b g => exact (gate_off rfl rfl hg h : execMmag d a b g s = _)
  | tmovv d a b g => exact (gate_off rfl rfl hg h : execTmovv d a b g s = _)
  | tcvt d a g => exact (gate_off rfl rfl hg h : execTcvt d a g s = _)
  | tlds d a b g => exact (gate_off rfl rfl hg h : execTlds d a b g s = _)
  | msemitv a b g => exact (gate_off rfl rfl hg h : execMsemitv a b g s = _)
  | msemitp a b g => exact (gate_off rfl rfl hg h : execMsemitp a b g s = _)
  | vamp a g => exact (gate_off rfl rfl hg h : execVamp a g s = _)
  | gaze d a g => exact (gate_off rfl rfl hg h : execGaze d a g s = _)
  | rtfetch d a g => exact (gate_off rfl rfl hg h : execRtfetch d a g s = _)
  | tex d a b g => exact (gate_off rfl rfl hg h : execTex d a b g s = _)
  | texl d a b g => exact (gate_off rfl rfl hg h : execTexl d a b g s = _)
  | texg d a b g => exact (gate_off rfl rfl hg h : execTexg d a b g s = _)
  | texf d a b g => exact (gate_off rfl rfl hg h : execTexf d a b g s = _)
  | texq d a b g => exact (gate_off rfl rfl hg h : execTexq d a b g s = _)
  | rayl d a b g => exact (gate_off rfl rfl hg h : execRayl d a b g s = _)
  | raylw d a b g => exact (gate_off rfl rfl hg h : execRaylw d a b g s = _)
  | rayr d a g => exact (gate_off rfl rfl hg h : execRayr d a g s = _)
  | vtdone d a g => exact (gate_off rfl rfl hg h : execVtdone d a g s = _)
  | yield g => exact (gate_off rfl rfl hg h : execYield g s = _)
  | sleep a g => exact (gate_off rfl rfl hg h : execSleep a g s = _)
  | wake a g => exact (gate_off rfl rfl hg h : execWake a g s = _)
  | dlaunch d a b g => exact (gate_off rfl rfl hg h : execDlaunch d a b g s = _)
  | djoin d a g => exact (gate_off rfl rfl hg h : execDjoin d a g s = _)
  | exit g => exact absurd rfl (hx g)
  | nop | smovi _ _ | sins16 _ _ | sins32 _ _ | sins48 _ _ | br _ | brs _ _ _ | brc _ _ _ _ | brcl _ _ _ _ | call _ _
  | callr _ _ | ret | enter _ | loop _ _ | loopr _ _ | lbrk | setmg _ | setmt _ | setmr _ | setm _ | getm _ | atom _ _ _ _ _
  | atoma _ _ _ _ _ | red _ _ _ _ | atomh _ _ _ _ _ | wait _ _ _ _ | txbegin _ _ _ | txend | csrr _ _ | csrw _ _ | csrs _ _
  | csrc _ _ | trap _ | brk _ | rett | pmark _ | framesync | trapEntry _ | fseSpill _ _ | fseFill _ _ | ageingSwap _
  | ageRelease _ _ | parkedAgeSwap _ | sleepTimeout _ | memoryOpComplete _ _ _ | mxaOperation _ | copyRow _
  | rangeLockRelease _ | tabardGrant _ | vamPrimitive _ | wrsTileFinished _ | rayTraversalComplete _ _ | stripWindowOpen _
  | stripDeadline _ | stripOutput _ | displayLineStart _ | dpHotPlug _ _ | viewEnable _ _ | viewDisable _ _ | outputEnable _ _
  | outputDisable _ _ | sampleTick _ | trigstatArm _ _ | register _ | unregister _ | tlbinv _ | replay _ | preempt _ | resume _
  | kill _ | gstart _ | preemptionStop _ _ | contextImageWrite _ | qtailWrite _ _ | dbpstatHaltClear _ | registerWrite _ _
  | dispatchStep _ _ | headReadinessCheck _ _ | doneSigIncrement _ | faultBatchFull _ _ | faultBatchTimeout _ _
  | heldRecordWrite _ _ | gangAccept _ | gangTimeout _ | gangAbort _ | fabricAccess _ _ _ _ _ | lasiaPortFail _
  | hostMemoryAccess _ _ _ _ | correctedError _ | uncorrectableError _ _ _ | expanderFailure _ | mcLoopTick _ _ _ _ _
  | yarrowReading _ _ | deviceReset _ _ | firmwareRecovery _ | getVersion | getCapabilities | negotiateAlgorithms | getDigests
  | getCertificate _ | challenge _ | getMeasurements _ | triggerCycleReached _ | linkTrainingDone _ _ | lasiaPortTrained _
  | cmdUnknownCode _ => cases hg

/-- Settles O56: a guarded word's instruction has its G field set. -/
theorem guardedOffFallsThrough : Obligations.GuardedOffFallsThrough := by
  intro s i hi hg h hx
  exact exec_off s i (guarded_encodeWord i hi ▸ hg) h hx

end Sys2Proof.Proofs
end

section
/-! SUPPORT. What completion leaves (R38, R39, R44, R47, R56), the state that REGROUP traps in (R59), and the order of the checks
of an issue (R86). -/

namespace Sys2Proof.Proofs
open Sys2Proof Sys2Proof.Machine Sys2Proof.Laws

/-! ### Completion -/

/-- What dropping the dead blocks leaves of a warp that settling has reached from another: everything but the paths, their records
and the blocks of its registers is as it was. -/
theorem dropDead_of_pathsOnly {w u : Warp} (h : PathsOnly w u) :
    u.dropDead = { w with
      p := u.p, q := u.q, onB := u.onB, recs := u.recs, fsrp := u.fsrp
      v := w.v.filter (fun e => decide (e.1 / 256 < max ((u.topT + 7) / 8) ((u.span.2 + 7) / 8)))
      spilled := w.spilled.filter (fun j => decide (j < (u.topT + 7) / 8))
      fse := u.fse.filter (fun f => f.record || decide (f.blk < (u.topT + 7) / 8)) } := by
  obtain ⟨p, q, b, rs, n, e, -, rfl⟩ := h
  rfl

theorem pathsOnly_fse {w u : Warp} (h : PathsOnly w u) : ∀ f ∈ u.fse, f ∈ w.fse := by
  obtain ⟨p, q, b, rs, n, e, he, rfl⟩ := h
  exact he

/-- Settles O58: settling changes the paths and their records alone, and what is dead is dropped behind it. -/
theorem completionFrame : Obligations.CompletionFrame := by
  intro len s passed u top
  have hu : PathsOnly _ u := pathsOnly_settleWith pathsOnly_settle _ _
  refine ⟨?_, fun f hf => pathsOnly_fse hu f hf⟩
  show ({ passed with w := u.dropDead } : State) = _
  rw [dropDead_of_pathsOnly hu]

/-! ### REGROUP -/

/-- Settles O22: the state of the path is looked at once the checks of the issue are passed. -/
theorem regroupStateTraps : Obligations.RegroupStateTraps := by
  intro s d a b g hc htx hblk hst
  refine ⟨wordA 0x37 d a b 0 g false, ?_⟩
  have hcond : s.w.p.fdepth ≠ 0 ∨ s.w.recs.any (fun r => match r.body with | .split _ => true | .call _ => false) ∨ s.w.q.held ∨
      s.w.p.levels ≠ 0 ∨ s.w.tlevel ≠ 0 := by
    rcases hst with h | ⟨r, hr, p, hp⟩ | h | h
    · exact .inl h
    · exact .inr (.inl (List.any_eq_true.2 ⟨r, hr, by rw [hp]⟩))
    · exact .inr (.inr (.inl h))
    · exact .inr (.inr (.inr (.inl h)))
  refine gate_clear (o := execRegroup d a b g s) rfl hc rfl rfl rfl rfl (fun h => nomatch h) (fun h => nomatch h) (.inr htx) ?_
  dsimp only
  rw [if_neg hblk]
  split
  · rfl
  · exact absurd hcond ‹_›

/-! ### The order of the checks of an issue (R86) -/

section
variable {gt : Gate} {body : State → Mask → Res} {s : State} {t : TrapInfo}

/-- A failed check of legality or alignment traps before anything else of the issue is looked at. -/
theorem run_of_check (h0 : s.w.active gt.guard ≠ 0) (h : gt.check s.w (s.w.active gt.guard) = some t) :
    gt.run body s = .next (raise t s) := by
  have hact : (gt.guard && s.w.active gt.guard == 0) = false := by rw [beq_eq_false_iff_ne.mpr h0, Bool.and_false]
  simp only [Gate.run, hact, h]
  rfl

/-- A failed check of rights traps before the operands are looked at. -/
theorem run_of_rights (h0 : s.w.active gt.guard ≠ 0) (hc : gt.check s.w (s.w.active gt.guard) = none) (htx : gt.tx = true)
    (h : gt.rights s.w (s.w.active gt.guard) = some t) : gt.run body s = .next (raise t s) := by
  have hact : (gt.guard && s.w.active gt.guard == 0) = false := by rw [beq_eq_false_iff_ne.mpr h0, Bool.and_false]
  have hl : gt.left s.w (s.w.active gt.guard) = s.w.active gt.guard := by simp [Gate.left, htx]
  simp only [Gate.run, hact, hc, hl, h, Gate.dropTx, htx]
  rfl

/-- An operand that awaits an outstanding write makes the path wait. -/
theorem run_of_hazard (h0 : s.w.active gt.guard ≠ 0) (hc : gt.check s.w (s.w.active gt.guard) = none) (htx : gt.tx = true)
    (hr : gt.rights s.w (s.w.active gt.guard) = none) (h : gt.hazard s = true) : gt.run body s = .next (waits 1 s) := by
  have hact : (gt.guard && s.w.active gt.guard == 0) = false := by rw [beq_eq_false_iff_ne.mpr h0, Bool.and_false]
  have hl : gt.left s.w (s.w.active gt.guard) = s.w.active gt.guard := by simp [Gate.left, htx]
  simp only [Gate.run, hact, hc, hl, hr, h]
  rfl

/-- What the poisoned operands of its lanes give is the outcome of an instruction that passes the checks before them. -/
theorem run_of_poison (hp : Gate.Plain gt) (h0 : s.w.active gt.guard ≠ 0) (hc : gt.check s.w (s.w.active gt.guard) = none)
    (hr : gt.rights s.w (s.w.active gt.guard) = none) (hz : gt.hazard s = false) (htx : NoTx s gt.guard)
    (h : failLanes (poisonFail s.w gt.uses) s (s.w.active gt.guard) body = .trap s t) :
    gt.run body s = .next (raise { t with lit := gt.len == 8 } s) := by
  have hact : (gt.guard && s.w.active gt.guard == 0) = false := by rw [beq_eq_false_iff_ne.mpr h0, Bool.and_false]
  have hl : gt.left s.w (s.w.active gt.guard) = s.w.active gt.guard := by simp [Gate.left, hp.tx]
  have hd : gt.dropTx s (s.w.active gt.guard) = s := by simp [Gate.dropTx, hp.tx]
  have hb : gt.abortLater s (s.w.active gt.guard) = s := by
    simp only [NoTx] at htx
    simp [Gate.abortLater, htx]
  have hlanes : gt.lanes body s (s.w.active gt.guard) = .trap s t := by
    simp only [Gate.lanes, hl, hd, hb]
    rw [if_neg (fun hx => h0 hx.1), h]
  simp only [Gate.run, hact, hc, hl, hr, hz, hp.full, hp.sync, hp.rel, hlanes]
  rfl

end

/-- The failing lanes of a mask, with the failure of each. -/
theorem mem_failing {fail : Nat → Option Fail} {act : Mask} (x : Nat × Fail) :
    x ∈ (lanesOf act).filterMap (fun l => (fail l).map (fun f => (l, f))) ↔ act.getLsbD x.1 = true ∧ fail x.1 = some x.2 := by
  rw [List.mem_filterMap]
  constructor
  · rintro ⟨l, hl, h⟩
    obtain ⟨f, hf, rfl⟩ := Option.map_eq_some_iff.1 h
    exact ⟨mem_lanesOf hl, hf⟩
  · rintro ⟨h1, h2⟩
    exact ⟨x.1, lane_mem h1, by rw [h2]; rfl⟩

/-- The first cause in the order of R187 among failures that are all the same is theirs. -/
theorem first_same {e : Fail} : ∀ (fs : List (Nat × Fail)), (∀ x ∈ fs, x.2 = e) →
    fs.foldl (fun (m : Fail) g => if g.2.stage < m.stage then g.2 else m) e = e
  | [], _ => rfl
  | g :: gs, h => by
    rw [List.foldl_cons, h g (List.mem_cons_self ..), if_neg (Nat.lt_irrefl _)]
    exact first_same gs (fun x hx => h x (List.mem_cons_of_mem _ hx))

/-- Lanes outside every transaction of which each failing one fails in the same way trap with that failure. -/
theorem failLanes_same {fail : Nat → Option Fail} {s : State} {act : Mask} {k : State → Mask → Res} {e : Fail}
    (htx : s.w.activeTx act = 0) (hall : ∀ l, act.getLsbD l = true → ∀ f, fail l = some f → f = e)
    (hex : ∃ l, act.getLsbD l = true ∧ fail l = some e) :
    failLanes fail s act k = .trap s { cause := e.cause, tval := e.tval, act := act
                                       lanes := maskOf (fun l => act.getLsbD l && (fail l).isSome) } := by
  have hmem := mem_failing (fail := fail) (act := act)
  unfold failLanes
  generalize (lanesOf act).filterMap (fun l => (fail l).map (fun f => (l, f))) = fs at hmem
  have hsame : ∀ x ∈ fs, x.2 = e := fun x hx => hall _ ((hmem x).1 hx).1 _ ((hmem x).1 hx).2
  have hany : ∀ (q : Fail → Bool) (l : Nat), fs.any (fun f => f.1 == l && q f.2) = (act.getLsbD l && ((fail l).isSome && q e)) := by
    intro q l
    rw [Bool.eq_iff_iff, List.any_eq_true]
    simp only [Bool.and_eq_true, Option.isSome_iff_exists, beq_iff_eq]
    constructor
    · rintro ⟨x, hx, rfl, h⟩
      exact ⟨((hmem x).1 hx).1, ⟨x.2, ((hmem x).1 hx).2⟩, hsame x hx ▸ h⟩
    · rintro ⟨h1, ⟨f, h2⟩, h3⟩
      exact ⟨(l, f), (hmem (l, f)).2 ⟨h1, h2⟩, rfl, hall l h1 f h2 ▸ h3⟩
  have hbad : s.w.activeTx (maskOf (fun l => fs.any (fun f => f.1 == l && faultAborts f.2.cause))) = 0 := by
    rw [funext (hany (fun f => faultAborts f.cause))]
    exact activeTx_sub htx _
  have hrest : fs.filter (fun f => !(0#32).getLsbD f.1) = fs := List.filter_eq_self.2 (fun x _ => by simp)
  have hlanes := funext (hany (fun f => f.stage == e.stage && f.cause == e.cause))
  simp only [beq_self_eq_true, Bool.and_true] at hlanes
  obtain ⟨l, h1, h2⟩ := hex
  cases fs with
  | nil => exact absurd ((hmem (l, e)).2 ⟨h1, h2⟩) List.not_mem_nil
  | cons f more =>
    dsimp only
    rw [hbad, abort_none, show (0 : Mask) = 0#32 from rfl, hrest]
    dsimp only
    rw [hsame f (List.mem_cons_self ..), first_same more (fun x hx => hsame x (List.mem_cons_of_mem _ hx)), ← hlanes]
    simp only [Bool.and_assoc]
    rfl

section
variable {gt : Gate} {w : Warp} {act : Mask}

theorem check_eq_some_of_illegal (h : gt.legal w = false) : gt.check w act = gt.trap 0x01 gt.word act := by simp [Gate.check, h]

theorem check_eq_none_of_legal (h : gt.legal w = true) (hl : gt.len ≠ 8) : gt.check w act = none := by simp [Gate.check, h, hl]

theorem rights_eq_trap_of_role (h0 : act ≠ 0) (h : w.tlevel = 0) (hr : w.role.may gt.cls = false) :
    gt.rights w act = gt.trap 0x02 gt.word act := by rw [Gate.rights, if_neg h0]; simp [h, hr]

theorem rights_eq_none (hp : Gate.Plain gt) (h : w.tlevel ≠ 0 ∨ w.role.may gt.cls = true) : gt.rights w act = none := by
  rcases h with h | h <;> simp [Gate.rights, hp.engine, hp.priv, h]

end

/-- What makes a vector instruction of one type legal (R43, R45, R78, R82). -/
theorem vGate_legal {w : Warp} {word : W64} {g ok : Bool} {ty : Nat} {d a b : BitVec 6} :
    (vGate word g ok ty d [a, b]).legal w = true ↔
      ok = true ∧ w.p.enter = false ∧ (vop d ty).legal w.p = true ∧ (vop a ty).legal w.p = true ∧ (vop b ty).legal w.p = true := by
  simp [Gate.legal, vGate, and_assoc]

/-- Where it awaits an outstanding write (R205). -/
theorem vGate_hazard {s : State} {word : W64} {g ok : Bool} {ty : Nat} {d a b : BitVec 6} :
    (vGate word g ok ty d [a, b]).hazard s = true ↔ ∃ r ∈ [d, a, b], ∃ x ∈ s.w.awaitedV ++ awaitedMovv s s.w,
      rangesMeet (s.w.p.wbase + (vop r ty).n, (vop r ty).cnt) x = true := by
  simp only [Gate.hazard, vGate, List.any_nil, Bool.or_false, Bool.and_eq_true, List.any_eq_true, List.mem_cons, List.map_cons,
    List.map_nil, List.not_mem_nil, or_false]
  generalize s.w.awaitedV ++ awaitedMovv s s.w = aw
  constructor
  · rintro ⟨-, r, rfl | rfl | rfl, h⟩
    · exact ⟨d, .inl rfl, h⟩
    · exact ⟨a, .inr (.inl rfl), h⟩
    · exact ⟨b, .inr (.inr rfl), h⟩
  · rintro ⟨r, hr, x, hx, h⟩
    refine ⟨by cases aw with | nil => cases hx | cons => rfl, vop r ty, ?_, x, hx, h⟩
    rcases hr with rfl | rfl | rfl <;> simp

/-- The failure of a lane whose first poisoned operand is the first one that the instruction names. -/
theorem poisonFail_first {w : Warp} {ty l : Nat} {a b : BitVec 6} (h : (useV b ty).bad w l = true → (useV a ty).bad w l = true) :
    poisonFail w [useV a ty, useV b ty] l =
      if (useV a ty).bad w l = true then some ⟨1, 0x15, BitVec.ofNat 64 a.toNat⟩ else none := by
  by_cases ha : (useV a ty).bad w l = true
  · simp only [poisonFail, List.find?, ha, if_true]
    rfl
  · have hb : (useV b ty).bad w l = false := by simpa using mt h ha
    simp [poisonFail, ha, hb]

/-- Settles O57: each step of R86 with the state that the steps before it let pass. -/
theorem issueChecksTrap : Obligations.IssueChecksTrap := by
  intro s d a b g t lit w act ty word legal awaits h0
  refine ⟨fun h => ?_, fun hty hent hd ha hb => ?_, fun hent hd hpc => ?_⟩
  · refine run_of_check (gt := vGate word g (intType ty) ty d [a, b]) h0 (check_eq_some_of_illegal ?_)
    rw [Bool.eq_false_iff]
    intro hl
    obtain ⟨h1, h2, h3, h4, h5⟩ := vGate_legal.1 hl
    rcases h with h | h | h | h | h
    · exact absurd (h1.symm.trans h) Bool.noConfusion
    · exact absurd (h2.symm.trans h) Bool.noConfusion
    · exact h h3
    · exact h h4
    · exact h h5
  · have hc : (vGate word g (intType ty) ty d [a, b]).check s.w act = none :=
      check_eq_none_of_legal (vGate_legal.2 ⟨hty, hent, hd, ha, hb⟩) (Nat.ne_of_beq_eq_false rfl)
    refine ⟨fun hl hr => ?_, fun hr => ?_⟩
    · refine run_of_rights (gt := vGate word g (intType ty) ty d [a, b]) h0 hc rfl (rights_eq_trap_of_role h0 hl ?_)
      show w.role.may .vector = false
      cases hrole : w.role with
      | general => exact absurd hrole hr
      | feed => rfl
      | matrix => rfl
    · have hp : Gate.Plain (vGate word g (intType ty) ty d [a, b]) := ⟨hty, rfl, rfl, rfl, rfl, rfl, rfl⟩
      have hrt : (vGate word g (intType ty) ty d [a, b]).rights s.w act = none :=
        rights_eq_none hp (hr.imp_right (fun h => by rw [show s.w.role = .general from h]; rfl))
      refine ⟨fun haw => ?_, fun hnd hna hnb htx hex hdom => ?_⟩
      · refine run_of_hazard (gt := vGate word g (intType ty) ty d [a, b]) h0 hc rfl hrt (vGate_hazard.2 ?_)
        rcases haw with h | h | h
        · exact ⟨d, by simp, h⟩
        · exact ⟨a, by simp, h⟩
        · exact ⟨b, by simp, h⟩
      · have hz : (vGate word g (intType ty) ty d [a, b]).hazard s = false := by
          rw [Bool.eq_false_iff]
          intro hzd
          obtain ⟨r, hr, h⟩ := vGate_hazard.1 hzd
          clear hzd
          simp only [List.mem_cons, List.not_mem_nil, or_false] at hr
          rcases hr with rfl | rfl | rfl
          · exact hnd h
          · exact hna h
          · exact hnb h
        have hf : ∀ l, act.getLsbD l = true → poisonFail s.w [useV a ty, useV b ty] l =
            if (useV a ty).bad w l = true then some ⟨1, 0x15, BitVec.ofNat 64 a.toNat⟩ else none :=
          fun l hl => poisonFail_first (hdom l hl)
        have hlanes : maskOf (fun l => act.getLsbD l && (poisonFail s.w [useV a ty, useV b ty] l).isSome) =
            maskOf (fun l => act.getLsbD l && (useV a ty).bad w l) := by
          congr 1
          funext l
          cases hl : act.getLsbD l with
          | false => rfl
          | true => rw [hf l hl]; split <;> simp_all
        refine (run_of_poison (gt := vGate word g (intType ty) ty d [a, b]) hp h0 hc hrt hz htx
          (failLanes_same (e := ⟨1, 0x15, BitVec.ofNat 64 a.toNat⟩) htx (fun l hl f hfl => ?_) ?_)).trans ?_
        · have := (hf l hl).symm.trans hfl
          split at this
          · exact (Option.some.inj this).symm
          · exact nomatch this
        · obtain ⟨l, hl, hbad⟩ := hex
          exact ⟨l, hl, (hf l hl).trans (if_pos hbad)⟩
        · exact congrArg (fun m => Host.Outcome.next (raise { cause := 0x15, tval := BitVec.ofNat 64 a.toNat, act := act, lanes := m } s))
            hlanes
  · refine run_of_check (gt := { word := wordX 0x29 d 0 g, len := 8, guard := g, cls := .vector, regs := [vop1 d] }) h0 ?_
    have hl : ({ word := wordX 0x29 d 0 g, len := 8, guard := g, cls := .vector, regs := [vop1 d] } : Gate).legal s.w = true := by
      simp [Gate.legal, show s.w.p.enter = false from hent, show (vop1 d).legal s.w.p = true from hd]
    rw [Gate.check, hl]
    exact (if_neg Bool.noConfusion).trans (if_pos (And.intro rfl hpc))

/-! ### A step (R65 to R68, R86) -/

/-- A step takes the first turn that the agenda names. -/
theorem step_of_agenda {s : State} {t : Turn} {ts : List Turn} (h : s.agenda = t :: ts) :
    step s = runTurn t { s with agenda := ts } := by
  have ht : turnsOf s = t :: ts := by rw [turnsOf, h]; rfl
  rw [step, ht]

/-- The turn of the path on turn, which may be examined and is the first choice of its scheduler, examines it. -/
theorem issueTurn_here {s : State} (hr : s.w.resident = true) (hp : s.w.pend = none) (hm : mayExamine s s.w s.w.onB = true)
    (hf : firstChoice s s.w s.w.onB = true) : issueTurn s.w.wid s.w.onB s = examineHere s := by
  have hw : s.warp? s.w.wid = some s.w := by simp [State.warp?, State.warps, hr]
  have hb : s.bring s.w.wid = s := by simp [State.bring, hr]
  simp only [issueTurn, hw, hb, hp, hm, hf]
  simp

/-- A path that has arrived goes on from the bytes that were fetched. -/
theorem examineHere_arrived {s : State} {bs : List Byte} (hr : toRoute s.w = false) (ha : s.w.arrived = some bs) :
    examineHere s = onNext (afterExec s.w.onB s.w bs) (execBytes bs s) := by
  simp [examineHere, hr, ha]

/-- A path whose window is ready issues what is fetched. -/
theorem examineHere_ready {s : State} {bs : List Byte} (hr : toRoute s.w = false) (ha : s.w.arrived = none)
    (hd : s.w.dueFault = none) (hs : spanMet s.w = .ready) (hf : fetchInstr s s.w = .bytes bs) :
    examineHere s = onNext (afterExec s.w.onB s.w bs) (execBytes bs s) := by
  have hl : s.w.p.lost = none := by
    cases hl : s.w.p.lost with
    | none => rfl
    | some l =>
      simp only [spanMet, hl] at hs
      split at hs
      · exact nomatch hs
      · split at hs <;> exact nomatch hs
  have hu : s.w.unread = false := by simp [Warp.unread, hl]
  simp [examineHere, hr, ha, hu, hf, issueBytes, hd, hs]

/-- The bytes that memory holds where a page is mapped, executable and resident, and no instruction cache holds the line. -/
theorem fetch_of_memory {s : State} {w : Warp} {pc : W64} {e : Leaf} {p : Pass} {n : Nat}
    (h : checkPage s w.ctx w.die pc .fetch = .ok (e, p)) (hr : p.resident = true) (hl : (icLine s w.core p.key).live = false)
    (hb : isBad s p.key = false) : fetch s w pc n = .bytes (loadBytes s p.key n) := by
  simp [fetch, h, hr, hl, hb]

/-- Settles O53: the turn is reduced to the examination of the path, and that to its bytes. -/
theorem stepRunsTheInstruction : Obligations.StepRunsTheInstruction := by
  intro s ts s1 w
  refine ⟨fun hag hr hp hm hf hroute => ⟨fun ha hd hs => ⟨fun bs i rest hbs hi => ?_, fun bs e hbs he => ?_⟩,
    fun bs i rest ha hi => ?_⟩, fun e pa hpage hres hline hbad => ⟨fun hlit => ?_, fun hlit hpc => ?_⟩, fun e hag hne => ?_, fun c hag => ?_,
    fun e => ⟨eventInstr e, eventInstr_isEvent e, fun t => runEvent_eq_exec e t⟩⟩
  · rw [step_of_agenda hag]
    refine (issueTurn_here (s := s1) hr hp hm hf).trans ((examineHere_ready (s := s1) hroute ha hd hs hbs).trans ?_)
    rw [execBytes, hi]
  · rw [step_of_agenda hag]
    refine (issueTurn_here (s := s1) hr hp hm hf).trans ((examineHere_ready (s := s1) hroute ha hd hs hbs).trans ?_)
    rw [execBytes, he]
  · rw [step_of_agenda hag]
    refine (issueTurn_here (s := s1) hr hp hm hf).trans ((examineHere_arrived (s := s1) hroute ha).trans ?_)
    rw [execBytes, hi]
  · simp only [fetchInstr, fetch_of_memory hpage hres hline hbad, hlit]
    rfl
  · simp only [fetchInstr, fetch_of_memory hpage hres hline hbad, hlit, hpc]
    rfl
  · rw [step_of_agenda hag]
    cases e with
    | sampleTick c => exact absurd rfl (hne c)
    | _ => rfl
  · rw [step_of_agenda hag]
    rfl

end Sys2Proof.Proofs
end

section
/-! SUPPORT. The registers of the host's window (R358, R361, R367, R368, R372, R391): which block an offset reads and writes,
what reset leaves in them, and what the host's writes change. -/

namespace Sys2Proof.Proofs
open Sys2Proof Sys2Proof.Machine

/-! ### The block of an offset (R367) -/

section
variable {n off : Nat} (s : State) (x : W64)

/-- The parts of an offset within a block of units of `size` bytes. -/
theorem block_parts {base size : Nat} (h : off < size) :
    (base + size * n + off - base) / size = n ∧ (base + size * n + off - base) % size = off := by
  have h1 : base + size * n + off - base = off + size * n := by omega
  rw [h1, Nat.add_mul_div_left _ _ (by omega), Nat.add_mul_mod_self_left, Nat.div_eq_of_lt h, Nat.mod_eq_of_lt h]
  simp

theorem readBar64_queue (hn : n < 64) (ho : off < 0x100) (h8 : off % 8 = 0) :
    readBar64 s (0x10000 + 0x100 * n + off) = readQueue s n off := by
  obtain ⟨h1, h2⟩ := block_parts (n := n) (base := 0x10000) ho
  have h3 : (0x10000 + 0x100 * n + off) % 0x100 = off := by omega
  rw [readBar64, if_neg (by omega), if_neg (by omega), if_pos (by omega), h1, h3]

theorem readBar64_vtb (ho : off < 0x1000) (h8 : off % 8 = 0) : readBar64 s (0x20000 + off) = readVtb off s := by
  rw [readBar64, if_neg (by omega), if_neg (by omega), if_neg (by omega), if_pos (by omega), Nat.add_sub_cancel_left]

theorem readBar64_dbp (hn : n < 2) (ho : off < 0x1000) (h8 : off % 8 = 0) :
    readBar64 s (0x30000 + 0x1000 * n + off) = readDbp s n off := by
  obtain ⟨h1, h2⟩ := block_parts (n := n) (base := 0x30000) ho
  have h3 : (0x30000 + 0x1000 * n + off) % 0x1000 = off := by omega
  rw [readBar64, if_neg (by omega), if_neg (by omega), if_neg (by omega), if_neg (by omega), if_pos (by omega), h1, h3]

theorem readBar64_cluster (hn : n < 32) (hl : n < (liveClusters s).length) (ho : off < 0x1000) (h8 : off % 8 = 0) :
    readBar64 s (0x40000 + 0x1000 * n + off) = readCluster s n off := by
  obtain ⟨h1, h2⟩ := block_parts (n := n) (base := 0x40000) ho
  have h3 : (0x40000 + 0x1000 * n + off) % 0x1000 = off := by omega
  rw [readBar64, if_neg (by omega), if_neg (by omega), if_neg (by omega), if_neg (by omega), if_neg (by omega),
    if_pos ⟨by omega, by omega, by rw [h1]; exact hl⟩, h1, h3]

theorem writeBar64_queue (hn : n < 64) (ho : off < 0x100) (h8 : off % 8 = 0) :
    writeBar64 (0x10000 + 0x100 * n + off) x s = writeQueue n off x s := by
  obtain ⟨h1, h2⟩ := block_parts (n := n) (base := 0x10000) ho
  have h3 : (0x10000 + 0x100 * n + off) % 0x100 = off := by omega
  rw [writeBar64, if_neg (by omega), if_neg (by omega), if_pos (by omega), h1, h3]

theorem writeBar64_cluster (hn : n < 32) (hl : n < (liveClusters s).length) (ho : off < 0x1000) (h8 : off % 8 = 0) :
    writeBar64 (0x40000 + 0x1000 * n + off) x s = writeCluster n off x s := by
  obtain ⟨h1, h2⟩ := block_parts (n := n) (base := 0x40000) ho
  have h3 : (0x40000 + 0x1000 * n + off) % 0x1000 = off := by omega
  rw [writeBar64, if_neg (by omega), if_neg (by omega), if_neg (by omega), if_neg (by omega), if_neg (by omega),
    if_pos ⟨by omega, by omega, by rw [h1]; exact hl⟩, h1, h3]

theorem writeBar64_mailbox (ho : off < 0x10000) (h8 : off % 8 = 0) : writeBar64 (0x80000 + off) x s = writeMailbox off x s := by
  rw [writeBar64, if_neg (by omega), if_neg (by omega), if_neg (by omega), if_neg (by omega), if_neg (by omega),
    if_neg (by omega), if_pos (by omega), Nat.add_sub_cancel_left]

/-- An offset that the map does not list discards a write (R367). -/
theorem writeBar64_unlisted (h : off % 8 ≠ 0 ∨ (0x60000 ≤ off ∧ off < 0x80000) ∨ 0x90000 ≤ off) : writeBar64 off x s = s := by
  by_cases h8 : off % 8 ≠ 0
  · rw [writeBar64, if_pos h8]
  · rw [writeBar64, if_neg h8, if_neg (by omega), if_neg (by omega), if_neg (by omega), if_neg (by omega), if_neg (by omega),
      if_neg (by omega)]

end

/-! ### Reset (R16) -/

theorem liveClusters_reset : (liveClusters State.reset).length = 32 := by decide

theorem coreCount_reset : coreCount State.reset = 256 := by decide +kernel

theorem pairsLive_reset : ∀ c < 32, pairsLive State.reset c = 4 := by decide

/-- What is not listed reads as the default of its kind. -/
theorem reset_defaults (n : Nat) : State.reset.queue n = {} ∧ State.reset.view n = {} ∧ State.reset.out n = {} ∧
    State.reset.cluster n = {} ∧ State.reset.die n = {} := ⟨rfl, rfl, rfl, rfl, rfl⟩

theorem readQueue_reset (n : Nat) : readQueue State.reset n 0x10 = 4 ∧
    ∀ off ∈ [0x00, 0x08, 0x18, 0x20, 0x28, 0x30, 0x38, 0x40, 0x48, 0x50], readQueue State.reset n off = 0 := by
  obtain ⟨h, -⟩ := reset_defaults n
  simp only [readQueue, h]
  decide

theorem readVtb_reset (n : Nat) : ∀ off, off < 0x40 →
    (n < 16 → readVtb (0x40 * n + off) State.reset = 0) ∧ (n < 4 → readVtb (0x400 + 0x40 * n + off) State.reset = 0) := by
  intro off ho
  obtain ⟨-, hv, -⟩ := reset_defaults ((0x40 * n + off) / 0x40)
  obtain ⟨-, -, hx, -⟩ := reset_defaults ((0x400 + 0x40 * n + off - 0x400) / 0x40)
  refine ⟨fun hn => ?_, fun hn => ?_⟩
  · rw [readVtb, if_pos (by omega), hv]
    split <;> rfl
  · rw [readVtb, if_neg (by omega), if_pos (by omega), hx]
    split <;> rfl

theorem readDbp_reset (n off : Nat) : readDbp State.reset n off = 0 := by
  obtain ⟨-, -, -, -, h⟩ := reset_defaults n
  simp only [readDbp, h]
  split <;> rfl

theorem readCluster_reset (n : Nat) : readCluster State.reset n 0 = 4096 ∧ readCluster State.reset n 0x18 = 6 ∧
    ∀ off ∈ [0x08, 0x10, 0x20, 0x28, 0x30, 0x38, 0x40, 0x48, 0x50, 0x100], readCluster State.reset n off = 0 := by
  obtain ⟨-, -, -, h, -⟩ := reset_defaults n
  simp only [readCluster, h]
  decide

/-- Settles O51: each block reads as the defaults of its parts. -/
theorem resetState : Obligations.ResetState := by
  refine ⟨rfl, rfl, rfl, rfl, rfl, rfl, rfl, rfl, rfl, rfl, rfl, rfl, rfl, rfl, fun n => ?_, fun n => ⟨rfl, rfl, rfl⟩,
    fun n => ?_, fun n => ⟨rfl, rfl⟩, fun n => ?_, ?_, ?_, ?_, fun n hn => ⟨?_, fun off ho => ?_⟩,
    fun n hn off ho => ?_, fun n hn off ho => ?_, fun n hn off ho => ?_, fun n hn => ⟨?_, ?_, fun off ho => ?_⟩⟩
  · obtain ⟨hq, -⟩ := reset_defaults n
    rw [hq]
    decide
  · obtain ⟨-, -, -, hc, -⟩ := reset_defaults n
    rw [hc]
    decide
  · obtain ⟨-, hv, hx, -⟩ := reset_defaults n
    rw [hv, hx]
    decide
  · show devInfo State.reset = _
    rw [devInfo, liveClusters_reset, coreCount_reset]
  · show clMap State.reset = _
    rw [clMap, liveClusters_reset, foldl_ext _ _ _ (fun x c hc => by rw [pairsLive_reset c (List.mem_range.1 hc)])]
    decide
  · decide
  · exact (readBar64_queue _ hn (by decide) rfl).trans (readQueue_reset n).1
  · refine (readBar64_queue _ hn ?_ ?_).trans ((readQueue_reset n).2 off ho) <;> revert ho off <;> decide
  · have hoff : off < 0x40 ∧ off % 8 = 0 := by revert ho off; decide
    rw [Nat.add_assoc, readBar64_vtb _ (by omega) (by omega)]
    exact (readVtb_reset n off hoff.1).1 hn
  · have hoff : off < 0x40 ∧ off % 8 = 0 := by revert ho off; decide
    rw [show 0x20400 + 0x40 * n + off = 0x20000 + (0x400 + 0x40 * n + off) by omega, readBar64_vtb _ (by omega) (by omega)]
    exact (readVtb_reset n off hoff.1).2 hn
  · refine (readBar64_dbp _ hn ?_ ?_).trans (readDbp_reset n off) <;> revert ho off <;> decide
  · exact (readBar64_cluster (off := 0) _ hn (by rw [liveClusters_reset]; exact hn) (by decide) rfl).trans (readCluster_reset n).1
  · exact (readBar64_cluster _ hn (by rw [liveClusters_reset]; exact hn) (by decide) rfl).trans (readCluster_reset n).2.1
  · refine (readBar64_cluster _ hn (by rw [liveClusters_reset]; exact hn) ?_ ?_).trans ((readCluster_reset n).2.2 off ho) <;>
      revert ho off <;> decide

/-! ### What the host writes (R15, R358, R367, R372) -/

/-- Settles O46: each write is that of its block. -/
theorem hostRegisterWritesComplete : Obligations.HostRegisterWritesComplete := by
  intro s n off x q
  refine ⟨fun hn => ⟨fun hdl hrec hne => ?_, fun hdl => ?_, ?_, ?_, ?_, ?_, fun h4 h16 => ?_⟩, rfl, rfl, rfl, rfl, fun hc => ?_, fun hc => ?_,
    fun hl hn => ?_, fun h => ?_, fun ho h8 => ?_, fun hh => ?_, fun hh => ?_⟩
  · show Host.Outcome.next (if n < 64 then hostTail n (lo32 x) s else s) = _
    rw [if_pos hn, hostTail, show (s.queue n).dl = false from hdl, hrec, if_neg (by decide), setTail, if_neg hne]
    rfl
  · show Host.Outcome.next (if n < 64 then hostTail n (lo32 x) s else s) = _
    rw [if_pos hn, hostTail, show (s.queue n).dl = true from hdl]
    rfl
  · exact congrArg _ (writeBar64_queue (off := 0x08) s x hn (by decide) rfl)
  · exact congrArg _ (writeBar64_queue (off := 0x28) s x hn (by decide) rfl)
  · exact congrArg _ (writeBar64_queue (off := 0x48) s x hn (by decide) rfl)
  · exact congrArg _ (writeBar64_queue (off := 0x20) s x hn (by decide) rfl)
  · refine congrArg _ ((writeBar64_queue (off := 0x10) s x hn (by decide) rfl).trans ?_)
    simp only [writeQueue]
    rw [if_pos ⟨h4, h16⟩]
  · exact congrArg _ (if_neg (by rw [hc]; decide) : writeDevice 0x20 x s = _)
  · exact congrArg _ (if_pos hc : writeDevice 0x20 x s = _)
  · exact congrArg _ (writeBar64_cluster (off := 0x100) s x hn hl (by decide) rfl)
  · exact congrArg _ (writeBar64_unlisted s x h)
  · refine congrArg _ ((writeBar64_mailbox s x ho h8).trans ?_)
    unfold writeMailbox
    split <;> simp_all
  · exact congrArg _ (if_pos hh : releaseHalt n s = _)
  · exact congrArg _ (if_neg (by rw [show (s.die n).halt = false from hh]; decide) : releaseHalt n s = _)

end Sys2Proof.Proofs
end

section
/-! SUPPORT. Vector integer instructions and moves (R116 to R125): the forms that they share, and what each gives. -/

namespace Sys2Proof.Proofs
open Sys2Proof Sys2Proof.Machine

/-! ### Shared forms (R116) -/

section
variable {s : State} {d a b : BitVec 6} {g t : Bool} {op : BitVec 7} {fn : BitVec 4} {legal : Nat → Bool}

/-- A vector instruction of two sources gives its operation's value in each active lane. -/
theorem vBin_gives {f : Path → Nat → Nat → Nat → Nat}
    (hc : Clear s { guard := g, cls := .vector, regs := [vop d (s.w.p.typ t), vop a (s.w.p.typ t), vop b (s.w.p.typ t)]
                    uses := [useV a (s.w.p.typ t), useV b (s.w.p.typ t)] }) (hl : legal (s.w.p.typ t) = true) :
    vBin op fn d a b g t legal f s = .next (fellW 4 s (s.w.results (s.w.p.typ t) d.toNat (s.w.active g) (fun l =>
      f s.w.p (s.w.p.typ t) (s.w.opnd (s.w.p.typ t) a.toNat l) (s.w.opnd (s.w.p.typ t) b.toNat l)))) :=
  plain_onWarp rfl ⟨hl, rfl, rfl, rfl, rfl, rfl, rfl⟩ hc

/-- So does one of one source. -/
theorem vUn_gives {f : Path → Nat → Nat → Nat}
    (hc : Clear s { guard := g, cls := .vector, regs := [vop d (s.w.p.typ t), vop a (s.w.p.typ t)], uses := [useV a (s.w.p.typ t)] })
    (hl : legal (s.w.p.typ t) = true) :
    vUn op fn d a g t legal f s = .next (fellW 4 s (s.w.results (s.w.p.typ t) d.toNat (s.w.active g) (fun l =>
      f s.w.p (s.w.p.typ t) (s.w.opnd (s.w.p.typ t) a.toNat l)))) :=
  plain_onWarp rfl ⟨hl, rfl, rfl, rfl, rfl, rfl, rfl⟩ hc

end

/-- A pattern of n bits read as a signed number. -/
theorem sgnOf_eq (n x : Nat) : sgnOf n x =
    if 2 ^ (n - 1) ≤ x % 2 ^ n then ((x % 2 ^ n : Nat) : Int) - (2 ^ n : Nat) else (x % 2 ^ n : Nat) := by
  simp only [sgnOf, Int.cast_ofNat_Int, Int.natCast_emod, Int.natCast_pow]

/-! ### Integer arithmetic (R117, R119) -/

/-- Settles O11: each form delivers its exact result, saturated where it saturates. -/
theorem vectorArithmeticCompletes : Obligations.VectorArithmeticCompletes := by
  intro s d a b c g t
  refine ⟨fun hc hl => ⟨(vBin_gives hc hl : execVadd d a b g t s = _),
      (vBin_gives hc hl : execVsub d a b g t s = _),
      (vBin_gives hc hl : execVmul d a b g t s = _),
      (vBin_gives hc hl : execVmulh d a b g t s = _).trans ?_, (vBin_gives hc hl : execVmulhu d a b g t s = _),
      (vBin_gives hc hl : execVmin d a b g t s = _), (vBin_gives hc hl : execVmax d a b g t s = _),
      (vBin_gives hc hl : execVabsdiff d a b g t s = _), (vBin_gives hc hl : execVavg d a b g t s = _)⟩,
    fun hc hl => ⟨(vUn_gives hc hl : execVneg d a g t s = _), fun hs => (vUn_gives hc ?_ : execVabs d a g t s = _)⟩, fun hc hl => ?_⟩
  · simp only [sgnOf_eq]
  · rw [hl, hs]; rfl
  · exact (plain_onWarp rfl ⟨hl, rfl, rfl, rfl, rfl, rfl, rfl⟩ hc : execVimad d a b c g s = _)

/-- Settles O12: the type supplies the width alone. -/
theorem vectorLogicCompletes : Obligations.VectorLogicCompletes := by
  intro s d a b g t
  refine ⟨fun hc hl => ⟨(vBin_gives hc hl : execVand d a b g t s = _),
      (vBin_gives hc hl : execVor d a b g t s = _),
      (vBin_gives hc hl : execVxor d a b g t s = _),
      (vBin_gives hc hl : execVandn d a b g t s = _),
      (vBin_gives hc hl : execVshl d a b g t s = _),
      (vBin_gives hc hl : execVshr d a b g t s = _),
      (vBin_gives hc hl : execVsar d a b g t s = _).trans ?_, (vBin_gives hc hl : execVrol d a b g t s = _),
      (vBin_gives hc hl : execVror d a b g t s = _)⟩,
    fun hc hl => ⟨(vUn_gives hc hl : execVnot d a g t s = _), (vUn_gives hc hl : execVclz d a g t s = _),
      (vUn_gives hc hl : execVpop d a g t s = _), (vUn_gives hc hl : execVbrev d a g t s = _)⟩⟩
  simp only [vlog, sgnOf_eq]

/-! ### Bit fields, comparisons and division (R120 to R123) -/

theorem vbfeOp_gives {s : State} {fn : BitVec 4} {d a b : BitVec 6} {g t sgn : Bool}
    (hc : Clear s { guard := g, cls := .vector, regs := [vop d (s.w.p.typ t), vop a (s.w.p.typ t), vop1 b]
                    uses := [useV a (s.w.p.typ t), useV1 b] }) (hl : wordType (s.w.p.typ t) = true) :
    vbfeOp fn d a b g t sgn s = .next (fellW 4 s (s.w.results (s.w.p.typ t) d.toNat (s.w.active g) (fun l =>
      let f := fieldAt (typeBits (s.w.p.typ t)) (s.w.vl b.toNat l).bits
      let x := s.w.opnd (s.w.p.typ t) a.toNat l / 2 ^ f.1 % 2 ^ f.2
      if f.2 = 0 then 0 else if sgn then lowBits (typeBits (s.w.p.typ t)) (sgnOf f.2 x) else x))) :=
  plain_onWarp rfl ⟨hl, rfl, rfl, rfl, rfl, rfl, rfl⟩ hc

/-- A comparison writes its condition on the bits of the type. -/
theorem vcmp_gives {s : State} {fn : BitVec 4} {d : BitVec 3} {a b : BitVec 6} {g t : Bool} {c : Nat → Nat → Nat → Bool}
    {c' : Nat → Nat → Bool} (h : ∀ x y, c (typeBits (s.w.p.typ t)) x y = c' x y)
    (hc : Clear s { guard := g, cls := .vector, regs := [vop a (s.w.p.typ t), vop b (s.w.p.typ t)]
                    uses := [useV a (s.w.p.typ t), useV b (s.w.p.typ t)] }) (hl : wordType (s.w.p.typ t) = true) :
    vcmp fn d a b g t c s = .next (fellW 4 s (s.w.setP d.toNat (s.w.active g) (maskOf (fun l => (s.w.active g).getLsbD l &&
      c' (s.w.opnd (s.w.p.typ t) a.toNat l) (s.w.opnd (s.w.p.typ t) b.toNat l))))) := by
  rw [← show c (typeBits (s.w.p.typ t)) = c' from funext fun x => funext (h x)]
  have h := plain_onWarp (o := vcmp fn d a b g t c s) rfl ⟨hl, rfl, rfl, rfl, rfl, rfl, rfl⟩ hc
  exact h

/-- The least integer of a type, divided by −1, gives itself on the bits of the type, with remainder 0 (R123). -/
theorem intMin_over_negOne {ty x : Nat} (h6 : 6 ≤ ty) (h9 : ty ≤ 9) (hs : isSigned ty = true) (hx : x < 2 ^ typeBits ty)
    (hm : intOf ty x = intMin ty) :
    lowBits (typeBits ty) ((intOf ty x).tdiv (-1)) = x ∧ lowBits (typeBits ty) ((intOf ty x).tmod (-1)) = 0 := by
  have hx2 : x = 2 ^ (typeBits ty - 1) := by
    obtain rfl | rfl | rfl | rfl : ty = 6 ∨ ty = 7 ∨ ty = 8 ∨ ty = 9 := by omega
    all_goals simp [isSigned] at hs
    all_goals simp only [intOf, intMin, typeBits, isSigned] at hm hx ⊢; simp at hm hx ⊢; split at hm <;> omega
  rw [hm, Int.tdiv_neg, Int.tmod_neg, Int.tdiv_one, Int.tmod_one, hx2]
  have h0 : lowBits (typeBits ty) (-0) = 0 := by
    show ((-0 : Int) % ((2 ^ typeBits ty : Nat) : Int)).toNat = 0
    simp
  refine ⟨?_, h0⟩
  obtain rfl | rfl | rfl | rfl : ty = 6 ∨ ty = 7 ∨ ty = 8 ∨ ty = 9 := by omega
  all_goals simp [isSigned] at hs
  all_goals rfl

/-- A quotient or remainder on the bits of a type; the overflow case is the general one. -/
theorem vdiv_cases {ty x : Nat} {y : Int} {rem : Bool} (h6 : 6 ≤ ty) (h9 : ty ≤ 9) (hx : x < 2 ^ typeBits ty) :
    (if intOf ty x = intMin ty ∧ isSigned ty = true ∧ y = -1 then (if rem = true then 0 else x)
      else lowBits (typeBits ty) (if rem = true then (intOf ty x).tmod y else (intOf ty x).tdiv y)) =
    lowBits (typeBits ty) (if rem = true then (intOf ty x).tmod y else (intOf ty x).tdiv y) := by
  split
  · next h =>
    obtain ⟨hm, hs, rfl⟩ := h
    obtain ⟨h1, h2⟩ := intMin_over_negOne h6 h9 hs hx hm
    cases rem
    · exact h1.symm
    · exact h2.symm
  · rfl

/-- A vector division traps in the lanes of zero divisors where MODE.DZT is set, and gives its results otherwise. -/
theorem vdivOp_gives {s : State} {fn : BitVec 4} {d a b : BitVec 6} {g t rem : Bool} (h6 : 6 ≤ s.w.p.typ t) (h9 : s.w.p.typ t ≤ 9)
    (hc : Clear s { guard := g, cls := .vector, regs := [vop d (s.w.p.typ t), vop a (s.w.p.typ t), vop b (s.w.p.typ t)]
                    uses := [useV a (s.w.p.typ t), useV b (s.w.p.typ t)] }) :
    let ty := s.w.p.typ t
    let zeros := maskOf (fun l => (s.w.active g).getLsbD l && decide (s.w.opnd ty b.toNat l = 0))
    (s.w.p.dzt = true → zeros ≠ 0 → vdivOp fn d a b g t rem s =
      .next (raise { cause := 0x09, tval := wordA 0x2A d a b fn g t, lanes := zeros, act := s.w.active g } s)) ∧
    (s.w.p.dzt = false ∨ zeros = 0 → vdivOp fn d a b g t rem s = .next (fellW 4 s (s.w.results ty d.toNat (s.w.active g) (fun l =>
      if s.w.opnd ty b.toNat l = 0 then (if rem = true then s.w.opnd ty a.toNat l else 2 ^ typeBits ty - 1)
      else lowBits (typeBits ty) (if rem = true then (intOf ty (s.w.opnd ty a.toNat l)).tmod (intOf ty (s.w.opnd ty b.toNat l))
        else (intOf ty (s.w.opnd ty a.toNat l)).tdiv (intOf ty (s.w.opnd ty b.toNat l))))))) := by
  intro ty zeros
  have hok : (6 ≤ ty && ty ≤ 9) = true := by simp [ty, h6, h9]
  have hrun := plain_run (o := vdivOp fn d a b g t rem s) rfl ⟨hok, rfl, rfl, rfl, rfl, rfl, rfl⟩ hc
  refine ⟨fun hz hne => hrun.trans ?_, fun hz => hrun.trans ?_⟩
  · dsimp only
    exact congrArg _ (if_pos ⟨hz, hne⟩)
  · have hn : ¬ (s.w.p.dzt = true ∧ zeros ≠ 0) := by
      rintro ⟨h1, h2⟩
      rcases hz with hz | hz
      · exact Bool.noConfusion (hz.symm.trans h1)
      · exact h2 hz
    have hlt : ∀ l, s.w.opnd (s.w.p.typ t) a.toNat l < 2 ^ typeBits (s.w.p.typ t) := fun l => Nat.mod_lt _ (Nat.two_pow_pos _)
    dsimp only
    split
    · exact absurd ‹_› hn
    · simp only [vdiv_cases h6 h9 (hlt _), out_fall]
      rfl

/-- Settles O13. -/
theorem vectorFieldsAndDivisionComplete : Obligations.VectorFieldsAndDivisionComplete := by
  intro s d a b c pd pc g t
  refine ⟨fun hc hl => ⟨?_, ?_⟩, fun hc hl => ?_, fun hc hl => ?_, fun hc hl => ?_, fun hc h6 h9 => ⟨?_, ?_⟩⟩
  · exact (vbfeOp_gives hc hl : execVbfe d a b g t s = _)
  · refine (vbfeOp_gives hc hl : execVbfes d a b g t s = _).trans ?_
    simp only [sgnOf_eq, if_true]
    rfl
  · exact (plain_onWarp rfl ⟨hl, rfl, rfl, rfl, rfl, rfl, rfl⟩ hc : execVbfi d a b c g s = _)
  · intro i
    refine ⟨(vcmp_gives (c' := fun x y => decide (x = y)) ?_ hc hl : execVcmpeq pd a b g t s = _),
      (vcmp_gives (c' := fun x y => decide (x ≠ y)) ?_ hc hl : execVcmpne pd a b g t s = _),
      (vcmp_gives (c' := fun x y => decide (i x < i y)) ?_ hc hl : execVcmplt pd a b g t s = _),
      (vcmp_gives (c' := fun x y => decide (i x ≤ i y)) ?_ hc hl : execVcmple pd a b g t s = _),
      (vcmp_gives (c' := fun x y => decide (x < y)) ?_ hc hl : execVcmpltu pd a b g t s = _),
      (vcmp_gives (c' := fun x y => decide (x ≤ y)) ?_ hc hl : execVcmpleu pd a b g t s = _),
      (vcmp_gives (c' := fun x y => decide (i y < i x)) ?_ hc hl : execVcmpgt pd a b g t s = _),
      (vcmp_gives (c' := fun x y => decide (i y ≤ i x)) ?_ hc hl : execVcmpge pd a b g t s = _),
      (vcmp_gives (c' := fun x y => decide (y < x)) ?_ hc hl : execVcmpgtu pd a b g t s = _),
      (vcmp_gives (c' := fun x y => decide (y ≤ x)) ?_ hc hl : execVcmpgeu pd a b g t s = _)⟩
    · exact fun x y => rfl
    · exact fun x y => (decide_not (p := x = y)).symm
    all_goals exact fun x y => by simp only [sgnOf_eq, i]
  · exact (plain_onWarp rfl ⟨hl, rfl, rfl, rfl, rfl, rfl, rfl⟩ hc : execVsel d a b pc g s = _)
  · exact (vdivOp_gives h6 h9 hc : _ ∧ (_ → execVdiv d a b g t s = _))
  · exact (vdivOp_gives h6 h9 hc : _ ∧ (_ → execVrem d a b g t s = _))

/-! ### Moves (R124, R125) -/

/-- A fold of steps that may fail, none of which does. -/
theorem foldl_ok {ε α β : Type} {f : Except ε α → β → Except ε α} {g : α → β → α} (p : α → Prop) :
    ∀ (ls : List β) (a : α), p a → (∀ t, p t → ∀ x ∈ ls, f (.ok t) x = .ok (g t x) ∧ p (g t x)) →
      ls.foldl f (.ok a) = .ok (ls.foldl g a)
  | [], _, _, _ => rfl
  | x :: xs, a, ha, h => by
    obtain ⟨h1, h2⟩ := h a ha x (List.mem_cons_self ..)
    rw [List.foldl_cons, h1]
    exact foldl_ok p xs _ h2 (fun t ht y hy => h t ht y (List.mem_cons_of_mem _ hy))

/-- A fold that changes the warp on turn alone. -/
theorem foldl_warp {β : Type} (h : Warp → β → Warp) : ∀ (ls : List β) (s : State),
    ls.foldl (fun t x => ({ t with w := h t.w x } : State)) s = { s with w := ls.foldl h s.w }
  | [], _ => rfl
  | x :: xs, s => by rw [List.foldl_cons, foldl_warp h xs]; rfl

/-- A fold that changes the vector registers of a warp alone. -/
theorem foldl_regs {β : Type} (h : List (Nat × LW) → β → List (Nat × LW)) : ∀ (ls : List β) (w : Warp),
    ls.foldl (fun u x => ({ u with v := h u.v x } : Warp)) w = { w with v := ls.foldl h w.v }
  | [], _ => rfl
  | x :: xs, w => by rw [List.foldl_cons, foldl_regs h xs]; rfl

section
variable {s : State} {w : Warp} {word : W64} {g : Bool} {ty : Nat} {n : BitVec 6} {r : VOp}

theorem outerGate_legal : (outerGate w word g ty n r).legal w = true ↔
    (moveType ty = true ∧ (wideType ty = true → n.toNat % 2 = 0) ∧
      (w.tlevel ≠ 0 → n.toNat + (if wideType ty then 2 else 1) ≤ 8 * (w.bank w.tlevel).fsize)) ∧
    w.p.enter = false ∧ r.legal w.p = true := by
  simp [Gate.legal, outerGate, vop, typeRegs, and_assoc, Decidable.imp_iff_not_or]
  exact .inr (.inr (.inr (or_congr_right decide_eq_true_iff)))

/-- An illegal outer-frame move traps with ILLEGAL_OP. -/
theorem outerGate_illegal {body : State → Mask → Res} (h0 : s.w.active g ≠ 0) (h : (outerGate s.w word g ty n r).legal s.w = false) :
    (outerGate s.w word g ty n r).run body s = .next (raise (trapOf 0x01 word (s.w.active g) false) s) :=
  run_of_check h0 (check_eq_some_of_illegal h)

/-- At trap level 0 a legal one traps with PRIV. -/
theorem outerGate_priv {body : State → Mask → Res} (h0 : s.w.active g ≠ 0) (h : (outerGate s.w word g ty n r).legal s.w = true)
    (hr : s.w.role.may .vector = true) (hl : s.w.tlevel = 0) :
    (outerGate s.w word g ty n r).run body s = .next (raise (trapOf 0x17 word (s.w.active g) false) s) := by
  refine run_of_rights h0 (check_eq_none_of_legal h (Nat.ne_of_beq_eq_false rfl)) rfl ?_
  have hp : (outerGate s.w word g ty n r).priv = false := by simp [outerGate, hl]
  have hm : s.w.role.may (outerGate s.w word g ty n r).cls = true := hr
  rw [Gate.rights, if_neg (show s.w.active (outerGate s.w word g ty n r).guard ≠ 0 from h0), if_neg (by simp [hm]), hp]
  rfl

end

/-- A cross-lane read gives zero outside the path's mask (R137). -/
theorem crossV_eq (w : Warp) (wide : Bool) (n l : Nat) : w.crossV wide n l =
    (if w.p.mask.getLsbD l then w.rawV wide n l else 0, w.p.mask.getLsbD l && w.badV wide n l) := by
  rw [Warp.crossV]
  cases w.p.mask.getLsbD l <;> rfl

/-- A lane word of an absolute register that stands in the ring. -/
theorem absLane_ring {s : State} {x l : Nat} (h : s.w.spilled.contains (x / 8) = false) :
    absLane s x l = .ok (look {} s.w.v (32 * x + l)) := by
  rw [absLane, if_neg (by rw [h]; exact Bool.noConfusion)]

theorem setAbsLane_ring {s : State} {x l : Nat} {v : LW} (h : s.w.spilled.contains (x / 8) = false) :
    setAbsLane s x l v = .ok { s with w := { s.w with v := put {} s.w.v (32 * x + l) v } } := by
  rw [setAbsLane, if_neg (by rw [h]; exact Bool.noConfusion)]

/-- The places of an outer-frame move name the registers of the operand. -/
theorem outerPlaces_lt {cnt : Nat} {act : Mask} : ∀ il ∈ outerPlaces cnt act, il.1 < cnt := by
  intro il h
  obtain ⟨l, -, h⟩ := List.mem_flatMap.1 h
  obtain ⟨i, hi, rfl⟩ := List.mem_map.1 h
  exact List.mem_range.1 hi

section
variable {s : State} {d n : BitVec 6} {g t : Bool} (hm : moveType (s.w.p.typ t) = true)
  (hc : Clear s { guard := g, cls := .vector, regs := [vop d (s.w.p.typ t)]
                  outer := [((s.w.bank s.w.tlevel).wbase + n.toNat, typeRegs (s.w.p.typ t))] })
  (hl : s.w.tlevel ≠ 0) (hn : n.toNat + typeRegs (s.w.p.typ t) ≤ 8 * (s.w.bank s.w.tlevel).fsize)
  (he : wideType (s.w.p.typ t) = true → n.toNat % 2 = 0)
  (hs : ∀ i < typeRegs (s.w.p.typ t), s.w.spilled.contains ((outerReg s.w n + i) / 8) = false)
include hm hl hn he

theorem outerGate_plain (word : W64) : Gate.Plain (outerGate s.w word g (s.w.p.typ t) n (vop d (s.w.p.typ t))) := by
  refine ⟨?_, ?_, rfl, rfl, rfl, rfl, rfl⟩
  · simp [outerGate, vop, hm, hn]
    simpa [Decidable.imp_iff_not_or] using he
  · simp [outerGate, hl]

include hc hs

/-- VRDOUT reads the registers of the frame that was trapped. -/
theorem vrdout_gives : execVrdout d n g t s = .next (fellW 4 s ((outerPlaces (typeRegs (s.w.p.typ t)) (s.w.active g)).foldl
    (fun v il => v.setL (d.toNat + il.1) il.2 (look {} s.w.v (32 * (outerReg s.w n + il.1) + il.2))) s.w)) := by
  refine (plain_run rfl (outerGate_plain hm hl hn he _) hc).trans ?_
  dsimp only
  rw [foldl_ok (g := fun t il => { t with w := t.w.setL (d.toNat + il.1) il.2 (look {} s.w.v (32 * (outerReg s.w n + il.1) + il.2)) })
    (fun _ => True) _ s trivial (fun t _ il hil => ⟨?_, trivial⟩),
    foldl_warp (fun v (il : Nat × Nat) => v.setL (d.toNat + il.1) il.2 (look {} s.w.v (32 * (outerReg s.w n + il.1) + il.2)))]
  · rfl
  · dsimp only
    rw [absLane_ring (hs _ (outerPlaces_lt il hil))]

/-- VWROUT writes them. -/
theorem vwrout_gives : execVwrout n d g t s = .next (fellW 4 s { s.w with
    v := (outerPlaces (typeRegs (s.w.p.typ t)) (s.w.active g)).foldl
      (fun v il => put {} v (32 * (outerReg s.w n + il.1) + il.2) (s.w.vl (d.toNat + il.1) il.2)) s.w.v }) := by
  refine (plain_run rfl (outerGate_plain hm hl hn he _) hc).trans ?_
  dsimp only
  rw [foldl_ok (g := fun t il => { t with w := { t.w with
      v := put {} t.w.v (32 * (outerReg s.w n + il.1) + il.2) (s.w.vl (d.toNat + il.1) il.2) } })
    (fun t => t.w.spilled = s.w.spilled) _ s rfl (fun t ht il hil => ⟨?_, ht⟩),
    foldl_warp (fun w (il : Nat × Nat) => { w with v := put {} w.v (32 * (outerReg s.w n + il.1) + il.2) (s.w.vl (d.toNat + il.1) il.2) }),
    foldl_regs (fun v (il : Nat × Nat) => put {} v (32 * (outerReg s.w n + il.1) + il.2) (s.w.vl (d.toNat + il.1) il.2))]
  · rfl
  · dsimp only
    rw [setAbsLane_ring (by rw [ht]; exact hs _ (outerPlaces_lt il hil))]

end

/-- Settles O14. -/
theorem vectorMovesComplete : Obligations.VectorMovesComplete := by
  refine ⟨fun s d a b imm lit g t => ⟨fun hc hm => ?_, fun hc hm => ?_, fun hc hm => ?_, fun hc hm => ?_, fun hc => ?_, fun hc => ?_⟩,
    ?_⟩
  · exact (plain_onWarp rfl ⟨hm, rfl, rfl, rfl, rfl, rfl, rfl⟩ hc : execVmov d a g t s = _)
  · exact (plain_onWarp rfl ⟨hm, rfl, rfl, rfl, rfl, rfl, rfl⟩ hc : execVbcast d a g t s = _)
  · refine (plain_onWarp rfl ⟨hm, rfl, rfl, rfl, rfl, rfl, rfl⟩ hc : execVtos d a b g t s = _).trans ?_
    dsimp only
    rw [crossV_eq]
    rfl
  · exact (plain_onWarp rfl ⟨hm, rfl, rfl, rfl, rfl, rfl, rfl⟩ hc : execStov d a b g t s = _)
  · exact (plain_onWarp rfl ⟨rfl, rfl, rfl, rfl, rfl, rfl, rfl⟩ hc : execVmovi d imm g s = _)
  · exact (plain_onWarp rfl ⟨rfl, rfl, rfl, rfl, rfl, rfl, rfl⟩ hc : execVmovl d g lit s = _)
  · intro s d n g t w act ty cnt base hc hm word traps
    have hent : s.w.p.enter = false := hc.entered.resolve_right (fun h => Bool.noConfusion h.1)
    have hreg : (vop d ty).legal s.w.p = true := hc.regs _ (List.mem_cons_self ..)
    refine ⟨fun hl he => ?_, fun hw ho => ?_, fun hl hn => ?_, fun hl hn he hs => ⟨vrdout_gives hm hc hl hn he hs, vwrout_gives hm hc hl hn he hs⟩⟩
    · exact ⟨outerGate_priv hc.lanes (outerGate_legal.2 ⟨⟨hm, he, fun h => absurd hl h⟩, hent, hreg⟩) (hc.role hl) hl,
        outerGate_priv hc.lanes (outerGate_legal.2 ⟨⟨hm, he, fun h => absurd hl h⟩, hent, hreg⟩) (hc.role hl) hl⟩
    · have hill : ∀ word, (outerGate s.w word g ty n (vop d ty)).legal s.w = false := by
        intro word
        rw [Bool.eq_false_iff]
        intro h
        obtain ⟨⟨-, he, -⟩, -, -⟩ := outerGate_legal.1 h
        exact absurd (he hw) (by omega)
      exact ⟨outerGate_illegal hc.lanes (hill _), outerGate_illegal hc.lanes (hill _)⟩
    · have hill : ∀ word, (outerGate s.w word g ty n (vop d ty)).legal s.w = false := by
        intro word
        rw [Bool.eq_false_iff]
        intro h
        obtain ⟨⟨-, -, hf⟩, -, -⟩ := outerGate_legal.1 h
        exact absurd (hf hl) (Nat.not_le.2 hn)
      exact ⟨outerGate_illegal hc.lanes (hill _), outerGate_illegal hc.lanes (hill _)⟩

end Sys2Proof.Proofs
end

section
/-! SUPPORT. Floating-point instructions (R113 to R115, R126 to R136): what one delivers, with its flags and its trap, and what
each form computes. -/

namespace Sys2Proof.Proofs
open Sys2Proof Sys2Proof.Machine

/-! ### Writes of lanes leave the flags -/

@[simp] theorem setRaw_fflags (w : Warp) (wide : Bool) (n l : Nat) (x : W64) (bad : Bool) :
    (w.setRaw wide n l x bad).fflags = w.fflags := by
  unfold Warp.setRaw
  split <;> rfl

theorem foldl_fflags {β : Type} {f : Warp → β → Warp} (hf : ∀ w x, (f w x).fflags = w.fflags) :
    ∀ (ls : List β) (w : Warp), (ls.foldl f w).fflags = w.fflags
  | [], _ => rfl
  | x :: xs, w => by rw [List.foldl_cons, foldl_fflags hf xs, hf]

@[simp] theorem lanesTo_fflags (w : Warp) (wide : Bool) (d : Nat) (act : Mask) (f : Nat → W64 × Bool) :
    (w.lanesTo wide d act f).fflags = w.fflags :=
  foldl_fflags (fun _ _ => setRaw_fflags ..) _ _

@[simp] theorem results_fflags (w : Warp) (ty d : Nat) (act : Mask) (f : Nat → Nat) : (w.results ty d act f).fflags = w.fflags :=
  lanesTo_fflags ..

@[simp] theorem setP_fflags (w : Warp) (d : Nat) (act m : Mask) : (w.setP d act m).fflags = w.fflags := by
  unfold Warp.setP
  split <;> rfl

/-! ### Flags and FP_INVALID (R114, R115) -/

/-- An instruction whose lane l raises the flags `fl l` traps with FP_INVALID in the lanes that raise IV where MODE.FPT is set, and
otherwise leaves the warp `k` with the flags gathered. -/
def Flagged (s : State) (o : Host.Outcome State Fault Refusal) (word : W64) (act : Mask) (fl : Nat → BitVec 5) (k : Warp) : Prop :=
  let iv := maskOf (fun l => act.getLsbD l && (fl l).getLsbD 4)
  (s.w.p.fpt = true → iv ≠ 0 → o = .next (raise { cause := 0x0A, tval := word, lanes := iv, act := act } s)) ∧
  (s.w.p.fpt = false ∨ iv = 0 → o = .next (fellW 4 s { k with
    fflags := s.w.fflags ||| (lanesOf act).foldl (fun f l => f ||| fl l) 0 }))

/-- So does an instruction whose body ends with its flags. -/
theorem flagged_of_run {o : Host.Outcome State Fault Refusal} {gt : Gate} {s : State} {word : W64} {fl : State → Mask → Nat → BitVec 5}
    {k : State → Mask → Warp → Warp} (e : o = gt.run (fun s act => withFlags word s act (fl s act) (k s act)) s) (hp : Gate.Plain gt)
    (hlen : gt.len = 4) (hc : Clear s gt.demand) (hk : (k s (s.w.active gt.guard) s.w).fflags = s.w.fflags) :
    Flagged s o word (s.w.active gt.guard) (fl s (s.w.active gt.guard)) (k s (s.w.active gt.guard) s.w) := by
  have hrun := plain_run e hp hc
  refine ⟨fun hf hiv => hrun.trans ?_, fun h => hrun.trans ?_⟩
  · rw [withFlags]
    refine (congrArg gt.out (if_pos ⟨hf, hiv⟩)).trans ?_
    rw [out_trap, hlen]
    rfl
  · have hn : ¬ (s.w.p.fpt = true ∧ ivLanes (s.w.active gt.guard) (fl s (s.w.active gt.guard)) ≠ 0) := by
      rintro ⟨h1, h2⟩
      rcases h with h | h
      · exact Bool.noConfusion (h.symm.trans h1)
      · exact h2 h
    rw [withFlags]
    refine (congrArg gt.out (if_neg hn)).trans ?_
    rw [out_fall, hlen, Warp.orFlags, hk]
    rfl

/-- An instruction delivers `r l` in lane l, in register `d` of type `ty`. -/
def Delivers (s : State) (g : Bool) (o : Host.Outcome State Fault Refusal) (word : W64) (ty d : Nat) (r : Nat → FRes) : Prop :=
  Flagged s o word (s.w.active g) (fun l => (r l).2) (s.w.results ty d (s.w.active g) (fun l => (r l).1))

theorem delivers_of_run {o : Host.Outcome State Fault Refusal} {gt : Gate} {s : State} {word : W64} {ty d : Nat}
    {r : State → Nat → FRes} (e : o = gt.run (fun s act => floatDone word ty d s act (r s)) s) (hp : Gate.Plain gt)
    (hlen : gt.len = 4) (hc : Clear s gt.demand) : Delivers s gt.guard o word ty d (r s) :=
  flagged_of_run (fl := fun s _ l => (r s l).2) (k := fun s act w => w.results ty d act (fun l => (r s l).1)) e hp hlen hc
    (results_fflags ..)

section
variable {s : State} {d a b : BitVec 6} {g t : Bool} {op : BitVec 7} {fn : BitVec 4} {legal : Nat → Bool}

theorem fBin_delivers {f : Fmt → Nat → Bool → FV → FV → FRes}
    (hc : Clear s { guard := g, cls := .vector, regs := [vop d (s.w.p.typ t), vop a (s.w.p.typ t), vop b (s.w.p.typ t)]
                    uses := [useV a (s.w.p.typ t), useV b (s.w.p.typ t)] }) (hl : legal (s.w.p.typ t) = true) :
    Delivers s g (fBin op fn d a b g t legal f s) (wordA op d a b fn g t) (s.w.p.typ t) d.toNat (fun l =>
      onFloats s.w.p (s.w.p.typ t) f (s.w.opnd (s.w.p.typ t) a.toNat l) (s.w.opnd (s.w.p.typ t) b.toNat l)) :=
  delivers_of_run (gt := vGate (wordA op d a b fn g t) g (legal (s.w.p.typ t)) (s.w.p.typ t) d [a, b])
    (r := fun u l => onFloats u.w.p (s.w.p.typ t) f (u.w.opnd (s.w.p.typ t) a.toNat l) (u.w.opnd (s.w.p.typ t) b.toNat l))
    rfl ⟨hl, rfl, rfl, rfl, rfl, rfl, rfl⟩ rfl hc

theorem fUn_delivers {f : Fmt → Nat → Bool → FV → FRes}
    (hc : Clear s { guard := g, cls := .vector, regs := [vop d (s.w.p.typ t), vop a (s.w.p.typ t)], uses := [useV a (s.w.p.typ t)] })
    (hl : legal (s.w.p.typ t) = true) :
    Delivers s g (fUn op fn d a g t legal f s) (wordA op d a 0 fn g t) (s.w.p.typ t) d.toNat (fun l =>
      onFloats s.w.p (s.w.p.typ t) (fun m rm ftz x _ => f m rm ftz x) (s.w.opnd (s.w.p.typ t) a.toNat l) 0) :=
  delivers_of_run (gt := vGate (wordA op d a 0 fn g t) g (legal (s.w.p.typ t)) (s.w.p.typ t) d [a])
    (r := fun u l => onFloats u.w.p (s.w.p.typ t) (fun m rm ftz x _ => f m rm ftz x) (u.w.opnd (s.w.p.typ t) a.toNat l) 0)
    rfl ⟨hl, rfl, rfl, rfl, rfl, rfl, rfl⟩ rfl hc

end

/-! ### Comparisons (R130) -/

/-- A mask of lanes is empty where none of its lanes satisfies the condition. -/
theorem maskOf_eq_zero {act : Mask} {f : Nat → Bool} : maskOf (fun l => act.getLsbD l && f l) = 0 ↔ ∀ l ∈ lanesOf act, f l = false := by
  constructor
  · intro h l hl
    have h1 := maskOf_getLsbD (fun l => act.getLsbD l && f l) l (BitVec.lt_of_getLsbD (mem_lanesOf hl))
    rw [h, mem_lanesOf hl, Bool.true_and] at h1
    exact h1.symm.trans (by simp)
  · intro h
    apply BitVec.eq_of_getLsbD_eq
    intro l hl
    rw [maskOf_getLsbD _ _ hl]
    cases ha : act.getLsbD l with
    | false => simp
    | true => simp [h l (lane_mem ha)]

/-- The flags of lanes that raise IV or nothing: IV where some lane raises it. -/
theorem foldl_iv (bad : Nat → Bool) : ∀ (ls : List Nat) (f : BitVec 5),
    ls.foldl (fun f l => f ||| (if bad l then flIV else 0)) f = f ||| (if ls.all (fun l => !bad l) then 0 else flIV)
  | [], f => by simp
  | l :: ls, f => by
    rw [List.foldl_cons, foldl_iv bad ls]
    cases hb : bad l <;> cases hr : ls.all (fun l => !bad l) <;> simp [hb, hr, BitVec.or_assoc]

/-- A comparison writes its condition, or what an unordered pair gives; lanes that are bad raise IV. -/
theorem fcmp_gives {s : State} {fn : BitVec 4} {d : BitVec 3} {a b : BitVec 6} {g t quiet unord : Bool} {c : Ordering → Bool}
    (hc : Clear s { guard := g, cls := .vector, regs := [vop a (s.w.p.typ t), vop b (s.w.p.typ t)]
                    uses := [useV a (s.w.p.typ t), useV b (s.w.p.typ t)] }) (hl : floatType (s.w.p.typ t) = true) :
    let ty := s.w.p.typ t
    let act := s.w.active g
    let x (l : Nat) : FV := readF (fmtFor ty) (ftzFor ty s.w.p.ftz) (s.w.opnd ty a.toNat l)
    let y (l : Nat) : FV := readF (fmtFor ty) (ftzFor ty s.w.p.ftz) (s.w.opnd ty b.toNat l)
    let nan (l : Nat) : Bool := (x l).isNan || (y l).isNan
    let bad (l : Nat) : Bool := if quiet then (x l).isSig || (y l).isSig else nan l
    let iv := maskOf (fun l => act.getLsbD l && bad l)
    (s.w.p.fpt = true → iv ≠ 0 → fcmp fn d a b g t quiet unord c s =
      .next (raise { cause := 0x0A, tval := wordA 0x2E (in6 d) a b fn g t, lanes := iv, act := act } s)) ∧
    (s.w.p.fpt = false ∨ iv = 0 → fcmp fn d a b g t quiet unord c s = .next (fellW 4 s {
      s.w.setP d.toNat act (maskOf (fun l => act.getLsbD l && (if nan l then unord else c (fCmp (x l) (y l))))) with
      fflags := s.w.fflags ||| (if iv = 0 then 0 else 0x10#5) })) := by
  intro ty act x y nan bad iv
  have h := flagged_of_run (o := fcmp fn d a b g t quiet unord c s)
    (gt := { word := wordA 0x2E (in6 d) a b fn g t, guard := g, cls := .vector, ok := floatType ty, regs := [vop a ty, vop b ty]
             uses := [useV a ty, useV b ty] })
    (fl := fun s _ l =>
      let x : FV := readF (fmtFor ty) (ftzFor ty s.w.p.ftz) (s.w.opnd ty a.toNat l)
      let y : FV := readF (fmtFor ty) (ftzFor ty s.w.p.ftz) (s.w.opnd ty b.toNat l)
      if (if quiet then x.isSig || y.isSig else x.isNan || y.isNan) then flIV else 0)
    (k := fun s act w => w.setP d.toNat act (maskOf (fun l =>
      let x : FV := readF (fmtFor ty) (ftzFor ty s.w.p.ftz) (s.w.opnd ty a.toNat l)
      let y : FV := readF (fmtFor ty) (ftzFor ty s.w.p.ftz) (s.w.opnd ty b.toNat l)
      act.getLsbD l && (if x.isNan || y.isNan then unord else c (fCmp x y)))))
    rfl ⟨hl, rfl, rfl, rfl, rfl, rfl, rfl⟩ rfl hc (setP_fflags ..)
  have hiv : maskOf (fun l => act.getLsbD l && (if bad l then flIV else 0).getLsbD 4) = iv := by
    congr 1
    funext l
    cases bad l <;> rfl
  have hfl : (lanesOf act).foldl (fun f l => f ||| (if bad l then flIV else 0)) 0 = if iv = 0 then 0 else 0x10#5 := by
    have h0 : iv = 0 ↔ (lanesOf act).all (fun l => !bad l) = true := by
      simp only [iv, maskOf_eq_zero, List.all_eq_true, Bool.not_eq_true']
    simp only [foldl_iv, h0]
    exact BitVec.zero_or
  obtain ⟨h1, h2⟩ := h
  rw [← hfl, ← hiv]
  exact ⟨h1, h2⟩

/-- Settles O15. -/
theorem floatArithmeticAndComparisonComplete : Obligations.FloatArithmeticAndComparisonComplete := by
  refine ⟨fun s d a b c g t => ⟨fun hc hl => ⟨?_, ?_, ?_, ?_, ?_, ?_⟩, fun hc hl => ⟨?_, ?_⟩, fun hc hl => ?_, fun hc hl => ?_,
    fun hc hl => ?_⟩, fun s d a b g t => ?_⟩
  · exact (fBin_delivers hc hl : Delivers s g (execFadd d a b g t s) _ _ _ _)
  · exact (fBin_delivers hc hl : Delivers s g (execFsub d a b g t s) _ _ _ _)
  · exact (fBin_delivers hc hl : Delivers s g (execFmul d a b g t s) _ _ _ _)
  · exact (fBin_delivers hc hl : Delivers s g (execFmin d a b g t s) _ _ _ _)
  · exact (fBin_delivers hc hl : Delivers s g (execFmax d a b g t s) _ _ _ _)
  · have h := delivers_of_run (o := execFcopysign d a b g t s) rfl ⟨hl, rfl, rfl, rfl, rfl, rfl, rfl⟩ rfl hc
    exact h
  · exact (fUn_delivers hc hl : Delivers s g (execFabs d a g t s) _ _ _ _)
  · exact (fUn_delivers hc hl : Delivers s g (execFneg d a g t s) _ _ _ _)
  · have h := delivers_of_run (o := execFscale d a b g t s) rfl ⟨hl, rfl, rfl, rfl, rfl, rfl, rfl⟩ rfl hc
    exact h
  · have h := delivers_of_run (o := execFfma d a b c g s) rfl ⟨hl, rfl, rfl, rfl, rfl, rfl, rfl⟩ rfl hc
    exact h
  · have hok : (s.w.p.ta == 26 || s.w.p.ta == 27) = true := by simpa using hl
    have h := delivers_of_run (o := execFdot d a b c g s) rfl ⟨hok, rfl, rfl, rfl, rfl, rfl, rfl⟩ rfl hc
    exact h
  · intro w act ty val x y nan compares hc hl
    exact ⟨(fcmp_gives hc hl : _ ∧ (_ → execFcmpeq d a b g t s = _)),
      (fcmp_gives hc hl : _ ∧ (_ → execFcmpne d a b g t s = _)),
      (fcmp_gives hc hl : _ ∧ (_ → execFcmplt d a b g t s = _)),
      (fcmp_gives hc hl : _ ∧ (_ → execFcmple d a b g t s = _)),
      (fcmp_gives hc hl : _ ∧ (_ → execFcmpgt d a b g t s = _)),
      (fcmp_gives hc hl : _ ∧ (_ → execFcmpge d a b g t s = _)),
      (fcmp_gives hc hl : _ ∧ (_ → execFcmpueq d a b g t s = _)),
      (fcmp_gives hc hl : _ ∧ (_ → execFcmpune d a b g t s = _)),
      (fcmp_gives hc hl : _ ∧ (_ → execFcmpult d a b g t s = _)),
      (fcmp_gives hc hl : _ ∧ (_ → execFcmpule d a b g t s = _)),
      (fcmp_gives hc hl : _ ∧ (_ → execFcmpugt d a b g t s = _)),
      (fcmp_gives hc hl : _ ∧ (_ → execFcmpuge d a b g t s = _)),
      (fcmp_gives hc hl : _ ∧ (_ → execFcmpord d a b g t s = _)),
      (fcmp_gives hc hl : _ ∧ (_ → execFcmpunord d a b g t s = _))⟩

/-! ### Special functions and conversions (R131 to R136) -/

theorem unpackOp_delivers {s : State} {fn : BitVec 4} {d a : BitVec 6} {g hi : Bool}
    (hc : Clear s { guard := g, cls := .vector, regs := [vop d s.w.p.ta, vop a s.w.p.tb], uses := [useV a s.w.p.tb] })
    (ha : scalarType s.w.p.ta = true) (hb : isPacked s.w.p.tb = true) :
    Delivers s g (unpackOp fn d a g hi s) (wordA 0x2B d a 0 fn g false) s.w.p.ta d.toNat (fun l =>
      cvtBy s.w.p (elemOf s.w.p.tb) s.w.p.ta (if hi then s.w.opnd s.w.p.tb a.toNat l / 65536 else s.w.opnd s.w.p.tb a.toNat l % 65536)) := by
  have hok : (scalarType s.w.p.ta && isPacked s.w.p.tb) = true := by rw [ha, hb]; rfl
  have h := delivers_of_run (o := unpackOp fn d a g hi s) rfl ⟨hok, rfl, rfl, rfl, rfl, rfl, rfl⟩ rfl hc
  exact h

/-- Settles O16. -/
theorem specialFunctionsAndConversionsComplete : Obligations.SpecialFunctionsAndConversionsComplete := by
  intro s d a b g t
  refine ⟨fun hc hl => ⟨?_, ?_, ?_, fun hx => ⟨?_, ?_, ?_, ?_, ?_, ?_⟩⟩, fun hc hl => ?_, fun hc hl => ?_, fun hc hl => ?_,
    fun hc => ⟨fun ha hb => ?_, fun ha hb => ⟨?_, ?_⟩⟩, fun hc ha hb => ?_⟩
  · exact (fUn_delivers hc hl : Delivers s g (execFrcp d a g t s) _ _ _ _)
  · exact (fUn_delivers hc hl : Delivers s g (execFsqrt d a g t s) _ _ _ _)
  · exact (fUn_delivers hc hl : Delivers s g (execFfract d a g t s) _ _ _ _)
  · exact (fUn_delivers hc hx : Delivers s g (execFrsq d a g t s) _ _ _ _)
  · exact (fUn_delivers hc hx : Delivers s g (execFexp2 d a g t s) _ _ _ _)
  · exact (fUn_delivers hc hx : Delivers s g (execFlog2 d a g t s) _ _ _ _)
  · exact (fUn_delivers hc hx : Delivers s g (execFsin d a g t s) _ _ _ _)
  · exact (fUn_delivers hc hx : Delivers s g (execFcos d a g t s) _ _ _ _)
  · exact (fUn_delivers hc hx : Delivers s g (execFtanh d a g t s) _ _ _ _)
  · exact (fBin_delivers hc hl : Delivers s g (execFdiv d a b g t s) _ _ _ _)
  · exact (plain_onWarp rfl ⟨hl, rfl, rfl, rfl, rfl, rfl, rfl⟩ hc : execFclass d a g t s = _)
  · have h := delivers_of_run (o := execVrndi d a g s) rfl ⟨hl, rfl, rfl, rfl, rfl, rfl, rfl⟩ rfl hc
    exact h
  · have hok : (scalarType s.w.p.ta && scalarType s.w.p.tb) = true := by rw [ha, hb]; rfl
    have h := delivers_of_run (o := execVcvt d a g s) rfl ⟨hok, rfl, rfl, rfl, rfl, rfl, rfl⟩ rfl hc
    exact h
  · exact (unpackOp_delivers hc ha hb : Delivers s g (execVunpkl d a g s) _ _ _ _)
  · exact (unpackOp_delivers hc ha hb : Delivers s g (execVunpkh d a g s) _ _ _ _)
  · have hok : (isPacked s.w.p.ta && scalarType s.w.p.tb) = true := by rw [ha, hb]; rfl
    have h := delivers_of_run (o := execVpack d a b g s) rfl ⟨hok, rfl, rfl, rfl, rfl, rfl, rfl⟩ rfl hc
    exact h

end Sys2Proof.Proofs
end

section
/-! SUPPORT. Cross-lane and cross-warp instructions (R58, R59, R137 to R146). -/

namespace Sys2Proof.Proofs
open Sys2Proof Sys2Proof.Machine

/-! ### Lane permutations (R137, R138, R141, R142) -/

theorem lperm_gives {s : State} {fn : BitVec 4} {d a b : BitVec 6} {g t : Bool} {us : List Use} {src : Warp → Nat → Nat → Nat}
    (hm : moveType (s.w.p.typ t) = true)
    (hc : Clear s { guard := g, cls := .vector, regs := [vop d (s.w.p.typ t), vop a (s.w.p.typ t)], scals := [b.toNat], uses := us }) :
    lperm fn d a b g t us src s = .next (fellW 4 s (s.w.lanesTo (wideType (s.w.p.typ t)) d.toNat (s.w.active g) (fun l =>
      s.w.crossV (wideType (s.w.p.typ t)) a.toNat (src s.w (s.w.sr b.toNat).bits.toNat l)))) :=
  plain_onWarp (gt := { word := wordA 0x31 d a b fn g t, guard := g, cls := .vector, ok := moveType (s.w.p.typ t)
                        regs := [vop d (s.w.p.typ t), vop a (s.w.p.typ t)], scals := [b.toNat], uses := us })
    (f := fun w act => w.lanesTo (wideType (s.w.p.typ t)) d.toNat act (fun l =>
      w.crossV (wideType (s.w.p.typ t)) a.toNat (src w (w.sr b.toNat).bits.toNat l)))
    rfl ⟨hm, rfl, rfl, rfl, rfl, rfl, rfl⟩ hc

/-- Settles O17. -/
theorem lanePermutationsComplete : Obligations.LanePermutationsComplete := by
  intro s d a b pa g t
  refine ⟨fun hm => ⟨fun hc => ?_, fun hc => ⟨?_, ?_, ?_, ?_, ?_, ?_⟩, fun hc => ?_⟩, fun hc => ?_, fun hc => ?_⟩
  · exact (lperm_gives hm hc : execLshuf d a b g t s = _)
  · exact (lperm_gives hm hc : execLrot d a b g t s = _)
  · exact (lperm_gives hm hc : execLxorl d a b g t s = _)
  · exact (lperm_gives hm hc : execLup d a b g t s = _)
  · exact (lperm_gives hm hc : execLdown d a b g t s = _)
  · exact (lperm_gives hm hc : execLbcast d a b g t s = _)
  · exact (lperm_gives hm hc : execLrotw d a b g t s = _)
  · have h := plain_onWarp (o := execLmatch d a g t s) rfl ⟨hm, rfl, rfl, rfl, rfl, rfl, rfl⟩ hc
    exact h
  · have h := plain_onWarp (o := execLballot d pa g s) rfl ⟨rfl, rfl, rfl, rfl, rfl, rfl, rfl⟩ hc
    exact h
  · have h := plain_onWarp (o := execVlane d g s) rfl ⟨rfl, rfl, rfl, rfl, rfl, rfl, rfl⟩ hc
    exact h

/-! ### Reductions and scans (R139, R140) -/

/-- A reduction or a scan delivers the exact sums where it sums and MODE.SAT is set; otherwise it runs its steps, whose flags it
gathers or traps on. -/
theorem crossOp_gives {s : State} {op : BitVec 7} {fn : BitVec 4} {d a : BitVec 6} {g t : Bool} {r : RedOp}
    {pair : Nat → Nat → Option (Nat × Nat)} {excl scan : Bool}
    (hc : Clear s { guard := g, cls := .vector, regs := [vop d (s.w.p.typ t), vop a (s.w.p.typ t)], uses := [useV a (s.w.p.typ t)] })
    (hl : r.legal (s.w.p.typ t) = true) :
    let w := s.w
    let act := w.active g
    let ty := w.p.typ t
    let x (l : Nat) : Nat := if act.getLsbD l then w.opnd ty a.toNat l else r.identity ty
    let xs := (List.range 32).map (fun l => if excl then (if l = 0 then r.identity ty else x (l - 1)) else x l)
    let ys := laneSteps (r.op w.p ty) pair xs
    let flags := (lanesOf act).foldl (fun f l => f ||| (ys.getD l (0, 0)).2) 0
    (r.sums = true → w.p.sat = true → crossOp op fn d a g t r pair excl scan s =
      .next (fellW 4 s (w.results ty d.toNat act (fun l => satSum ty (if scan then xs.take (l + 1) else xs))))) ∧
    (r.sums = false ∨ w.p.sat = false →
      (w.p.fpt = true → flags.getLsbD 4 = true → crossOp op fn d a g t r pair excl scan s =
        .next (raise (trapOf 0x0A (wordA op d a 0 fn g t) act false) s)) ∧
      (w.p.fpt = false ∨ flags.getLsbD 4 = false → crossOp op fn d a g t r pair excl scan s =
        .next (fellW 4 s { w.results ty d.toNat act (fun l => r.out w.p ty (ys.getD l (0, 0)).1) with
          fflags := w.fflags ||| flags }))) := by
  intro w act ty x xs ys flags
  have hrun := plain_run (o := crossOp op fn d a g t r pair excl scan s) rfl ⟨hl, rfl, rfl, rfl, rfl, rfl, rfl⟩ hc
  refine ⟨fun h1 h2 => hrun.trans ?_, fun h => ⟨fun hf hi => hrun.trans ?_, fun hf => hrun.trans ?_⟩⟩
  · have hs : (r.sums && s.w.p.sat) = true := by rw [h1, h2]; rfl
    dsimp only
    rw [if_pos hs]
    rfl
  all_goals
    have hs : ¬ (r.sums && s.w.p.sat) = true := by
      rw [Bool.and_eq_true]
      rintro ⟨h1, h2⟩
      rcases h with h | h
      · exact Bool.noConfusion (h.symm.trans h1)
      · exact Bool.noConfusion (h.symm.trans h2)
    dsimp only
    rw [if_neg hs, withTreeFlags]
  · refine (congrArg _ (if_pos ⟨hf, hi⟩)).trans ?_
    rfl
  · have hn : ¬ (s.w.p.fpt = true ∧ raisesIV flags = true) := by
      rintro ⟨h1, h2⟩
      rcases hf with hf | hf
      · exact Bool.noConfusion (hf.symm.trans h1)
      · exact Bool.noConfusion (hf.symm.trans h2)
    refine (congrArg _ (if_neg hn)).trans ?_
    rw [out_fall, Warp.orFlags, results_fflags]
    rfl

/-- Settles O18. -/
theorem reductionsAndScansComplete : Obligations.ReductionsAndScansComplete := by
  intro s d a g t w act ty runs hc
  have hred : ∀ (fn : BitVec 4) (r : RedOp) (i : Instr), exec i s = lred fn d a g t r s → runs i 0x32 fn r false false := by
    intro fn r i hi hl
    rw [hi]
    exact crossOp_gives hc hl
  have hscan : ∀ (fn : BitVec 4) (r : RedOp) (excl : Bool) (i : Instr), exec i s = lscan fn d a g t r excl s →
      runs i 0x33 fn r true excl := by
    intro fn r excl i hi hl
    rw [hi]
    exact crossOp_gives hc hl
  exact ⟨hred 0 redAdd _ rfl, hred 1 redMin _ rfl, hred 2 redMax _ rfl, hred 3 redAnd _ rfl, hred 4 redOr _ rfl, hred 5 redXor _ rfl,
    hred 6 redFadd _ rfl, hred 7 redFmin _ rfl, hred 8 redFmax _ rfl, hscan 0 redAdd false _ rfl, hscan 1 redMin false _ rfl,
    hscan 2 redMax false _ rfl, hscan 3 redAnd false _ rfl, hscan 4 redOr false _ rfl, hscan 5 redXor false _ rfl,
    hscan 6 redFadd false _ rfl, hscan 8 redAdd true _ rfl, hscan 9 redMin true _ rfl, hscan 10 redMax true _ rfl,
    hscan 11 redAnd true _ rfl, hscan 12 redOr true _ rfl, hscan 13 redXor true _ rfl, hscan 14 redFadd true _ rfl⟩

/-! ### The tree of a sum (R139) -/

/-- The sum of patterns of a type of 32 or 64 bits is that of their values modulo its width. -/
theorem redAdd_op {p : Path} {ty x y : Nat} (h6 : 6 ≤ ty) (h9 : ty ≤ 9) (hx : x < 2 ^ typeBits ty) (hy : y < 2 ^ typeBits ty) :
    redAdd.op p ty x y = ((x + y) % 2 ^ typeBits ty, 0) := by
  obtain ⟨he, hp⟩ : elemOf ty = ty ∧ isPacked ty = false := by
    obtain rfl | rfl | rfl | rfl : ty = 6 ∨ ty = 7 ∨ ty = 8 ∨ ty = 9 := by omega
    all_goals exact ⟨rfl, rfl⟩
  have hi : ∀ z, z < 2 ^ typeBits ty → ∃ k : Int, intOf ty z = z + k * (2 ^ typeBits ty : Nat) := by
    intro z hz
    simp only [intOf, Nat.mod_eq_of_lt hz]
    split
    · exact ⟨-1, by omega⟩
    · exact ⟨0, by omega⟩
  obtain ⟨k, hk⟩ := hi x hx
  obtain ⟨m, hm⟩ := hi y hy
  have hs : lowBits (typeBits ty) (intOf ty x + intOf ty y) = (x + y) % 2 ^ typeBits ty := by
    have h1 : intOf ty x + intOf ty y = ((x + y : Nat) : Int) + (2 ^ typeBits ty : Nat) * (k + m) := by
      rw [hk, hm]
      rw [Int.natCast_add, Int.mul_add, Int.mul_comm k, Int.mul_comm m]
      omega
    have h2 : (((x + y : Nat) : Int) + (2 ^ typeBits ty : Nat) * (k + m)).emod (2 ^ typeBits ty : Nat) =
        (((x + y) % 2 ^ typeBits ty : Nat) : Int) := (Int.add_mul_emod_self_left ..).trans (Int.natCast_emod ..).symm
    rw [lowBits, h1, h2, Int.toNat_natCast]
  simp only [redAdd, plainOp, perElem, hp, he, intPat, hs]
  rfl

/-- The sum of the values of a lane's block of 2^k lanes. -/
def blockSum (f : Nat → Nat) (k l : Nat) : Nat := ((List.range (2 ^ k)).map (fun i => f (l / 2 ^ k * 2 ^ k + i))).sum

/-- The two lanes that a step of the tree combines stand in the two halves of the block. -/
theorem tree_halves : ∀ k < 5, ∀ l < 32, min l (l ^^^ 2 ^ k) < 32 ∧ max l (l ^^^ 2 ^ k) < 32 ∧
    min l (l ^^^ 2 ^ k) / 2 ^ k * 2 ^ k = l / 2 ^ (k + 1) * 2 ^ (k + 1) ∧
    max l (l ^^^ 2 ^ k) / 2 ^ k * 2 ^ k = l / 2 ^ (k + 1) * 2 ^ (k + 1) + 2 ^ k := by decide

/-- A block's sum is that of its halves. -/
theorem blockSum_succ {f : Nat → Nat} {k l : Nat} (hk : k < 5) (hl : l < 32) :
    blockSum f (k + 1) l = blockSum f k (min l (l ^^^ 2 ^ k)) + blockSum f k (max l (l ^^^ 2 ^ k)) := by
  obtain ⟨-, -, h1, h2⟩ := tree_halves k hk l hl
  simp only [blockSum, h1, h2]
  rw [show 2 ^ (k + 1) = 2 ^ k + 2 ^ k by omega, List.range_add, List.map_append, List.sum_append, List.map_map]
  congr 3
  funext i
  simp only [Function.comp, Nat.add_assoc]

/-- Each step of the tree takes the sums of blocks to those of blocks of twice the size. -/
theorem laneStep_blockSum {p : Path} {ty k : Nat} (h6 : 6 ≤ ty) (h9 : ty ≤ 9) (f : Nat → Nat) (hk : k < 5) :
    laneStep (redAdd.op p ty) (treePair k) ((List.range 32).map (fun l => (blockSum f k l % 2 ^ typeBits ty, 0))) =
      (List.range 32).map (fun l => (blockSum f (k + 1) l % 2 ^ typeBits ty, 0)) := by
  have hget : ∀ l < 32, ((List.range 32).map (fun l => (blockSum f k l % 2 ^ typeBits ty, (0 : BitVec 5)))).getD l (0, 0) =
      (blockSum f k l % 2 ^ typeBits ty, 0) := by
    intro l hl
    simp [List.getD_eq_getElem?_getD, hl]
  refine List.map_congr_left (fun l hl => ?_)
  have hl : l < 32 := List.mem_range.1 hl
  obtain ⟨h1, h2, -, -⟩ := tree_halves k hk l hl
  have hlt : ∀ x, x % 2 ^ typeBits ty < 2 ^ typeBits ty := fun x => Nat.mod_lt _ (Nat.two_pow_pos _)
  simp only [treePair, hget _ h1, hget _ h2, redAdd_op h6 h9 (hlt _) (hlt _), blockSum_succ hk hl, ← Nat.add_mod]
  rfl

/-- Settles O19: after its five steps each lane holds the sum of the block of all lanes. -/
theorem reductionTreeSums : Obligations.ReductionTreeSums := by
  rintro p ty ⟨h6, h9⟩ f hf l hl
  have h0 : ((List.range 32).map f).map (fun x => (x, (0 : BitVec 5))) =
      (List.range 32).map (fun l => (blockSum f 0 l % 2 ^ typeBits ty, 0)) := by
    rw [List.map_map]
    refine List.map_congr_left (fun l _ => ?_)
    simp [blockSum, Nat.mod_eq_of_lt (hf l)]
  have h5 : laneSteps (redAdd.op p ty) treePair ((List.range 32).map f) =
      (List.range 32).map (fun l => (blockSum f 5 l % 2 ^ typeBits ty, 0)) := by
    simp only [laneSteps, h0, List.foldl_cons, List.foldl_nil]
    rw [laneStep_blockSum h6 h9 f (k := 0) (by decide), laneStep_blockSum h6 h9 f (k := 1) (by decide),
      laneStep_blockSum h6 h9 f (k := 2) (by decide), laneStep_blockSum h6 h9 f (k := 3) (by decide),
      laneStep_blockSum h6 h9 f (k := 4) (by decide)]
  have hdiv : l / 32 = 0 := Nat.div_eq_of_lt hl
  rw [h5]
  simp [List.getD_eq_getElem?_getD, hl, blockSum, hdiv]

/-! ### Transfer slots (R58, R143) -/

/-- What XSEND or XRECV does at a slot, in its active lanes. -/
theorem xferOp_gives {s : State} {word : W64} {slot first n : Nat} {send : Bool} {act : Mask} :
    let w := s.w
    let x := look {} (s.wg w.wg).xfer slot
    let abs := w.p.wbase + first
    let freed := s.setWg w.wg { s.wg w.wg with xfer := del (s.wg w.wg).xfer slot }
    let o := xferOp word slot first n send s act
    (w.block ≠ some 8 → x.busy = false → o = .block 8 (s.setWg w.wg (putXfer (s.wg w.wg) slot w.wid send n abs act))) ∧
    (w.block ≠ some 8 → x.busy = true → x.wid ≠ w.wid → x.send = !send → x.n = n →
      let t := if send then transfer s w.wid abs act x.wid x.first x.act n else transfer s x.wid x.first x.act w.wid abs act n
      o = .fall (giveGrant x.wid .done (t.setWg t.w.wg { t.wg t.w.wg with xfer := del (t.wg t.w.wg).xfer slot }))) ∧
    (w.block ≠ some 8 → x.busy = true → x.wid ≠ w.wid → x.send = send → o = trapAct 0x11 word act (giveGrant x.wid (.trap 0x11 0) freed)) ∧
    (w.block ≠ some 8 → x.busy = true → x.wid ≠ w.wid → x.send = !send → x.n ≠ n →
      o = trapAct 0x19 word act (giveGrant x.wid (.trap 0x19 0) freed)) ∧
    (w.block ≠ some 8 → x.busy = true → x.wid = w.wid → o = trapAct 0x19 word act s) ∧
    (w.block = some 8 → w.grant = some .done → o = .fall s) ∧
    (w.block = some 8 → ∀ c v, w.grant = some (.trap c v) → o = trapAct c word act s) := by
  intro w x abs freed o
  have hb : ∀ {y : Bool}, y = true → ¬ (!y) = true := fun h => by rw [h]; decide
  refine ⟨fun h1 h2 => ?_, fun h1 h2 h3 h4 h5 => ?_, fun h1 h2 h3 h4 => ?_, fun h1 h2 h3 h4 h5 => ?_, fun h1 h2 h3 => ?_,
    fun h1 h2 => ?_, fun h1 c v h2 => ?_⟩
  · exact (if_neg h1).trans (if_pos (by rw [show (look {} (s.wg s.w.wg).xfer slot).busy = false from h2]; rfl))
  · refine (if_neg h1).trans ((if_neg (hb h2)).trans ((if_neg h3).trans ((if_neg ?_).trans (if_neg (not_not_intro h5)))))
    rw [h4]
    cases send <;> decide
  · exact (if_neg h1).trans ((if_neg (hb h2)).trans ((if_neg h3).trans (if_pos h4)))
  · refine (if_neg h1).trans ((if_neg (hb h2)).trans ((if_neg h3).trans ((if_neg ?_).trans (if_pos h5))))
    rw [h4]
    cases send <;> decide
  · exact (if_neg h1).trans ((if_neg (hb h2)).trans (if_pos h3))
  · refine (if_pos h1).trans ?_
    rw [onGrant, h2]
  · refine (if_pos h1).trans ?_
    rw [onGrant, h2]

/-- Words that end in two zero bits. -/
theorem append_zeros {n : Nat} (x : BitVec n) : x ++ BitVec.ofBool false ++ 0#1 = (x ++ 0#2 : BitVec (n + 2)) := by
  apply BitVec.eq_of_getLsbD_eq
  intro i hi
  simp [BitVec.getLsbD_append]
  grind

/-- A four-bit register number in a register field. -/
theorem in6_four (d : BitVec 4) : in6 d = 0#2 ++ d := by
  apply BitVec.eq_of_toNat_eq
  have hd : d.toNat < 2 ^ 4 := d.isLt
  refine Eq.trans ?_ (BitVec.toNat_append (0#2) d).symm
  simp only [in6, BitVec.truncate_eq_setWidth, BitVec.toNat_setWidth, BitVec.toNat_ofNat, Nat.zero_mod, Nat.zero_shiftLeft, Nat.zero_or]
  exact Nat.mod_eq_of_lt (by omega)

/-- The words of XSEND and XRECV. -/
theorem wordA_send (op : BitVec 7) (d a b : BitVec 6) (g : Bool) :
    wordA op d a b 0 g false = zx (op ++ d ++ a ++ b ++ 0#4 ++ BitVec.ofBool g ++ 0#2) :=
  congrArg zx (append_zeros (n := 30) (op ++ d ++ a ++ b ++ 0#4 ++ BitVec.ofBool g))

/-- Settles O20: the outcome at the slot is that of the instruction. -/
theorem transfersComplete : Obligations.TransfersComplete := by
  intro s d4 r n g w act x first freed hc htx meets
  have hrun : ∀ (i : Instr) (word : W64) (send : Bool),
      exec i s = Gate.out { word := word, guard := g, cls := .vector, regs := [{ n := r.toNat, cnt := n.toNat }], tx := false }
        (xferOp word d4.toNat r.toNat n.toNat send s act) → meets i send word := by
    intro i word send h
    obtain ⟨h1, h2, h3, h4, h5, h6, h7⟩ := xferOp_gives (s := s) (word := word) (slot := d4.toNat) (first := r.toNat) (n := n.toNat)
      (send := send) (act := act)
    refine ⟨fun a b => ?_, fun a b c d e => ?_, fun a b c d => ?_, fun a b c d e => ?_, fun a b c => ?_, fun a b => ?_, fun a c v b => ?_⟩
    · rw [h, h1 a b]; rfl
    · rw [h, h2 a b c d e]; rfl
    · exact h.trans (congrArg _ (h3 a b c d))
    · exact h.trans (congrArg _ (h4 a b c d e))
    · exact h.trans (congrArg _ (h5 a b c))
    · rw [h, h6 a b]; rfl
    · exact h.trans (congrArg _ (h7 a c v b))
  refine ⟨?_, ?_⟩
  · rw [← in6_four, ← wordA_send]
    exact hrun _ _ _ (gate_clear (o := execXsend d4 r n g s) rfl hc rfl rfl rfl rfl (fun h => nomatch h) (fun h => nomatch h) (.inr htx) rfl)
  · rw [← in6_four, ← wordA_send]
    exact hrun _ _ _ (gate_clear (o := execXrecv r d4 n g s) rfl hc rfl rfl rfl rfl (fun h => nomatch h) (fun h => nomatch h) (.inr htx) rfl)

/-! ### REGROUP (R59, R144 to R146) -/

/-- Settles O21. -/
theorem regroupCompletes : Obligations.RegroupCompletes := by
  intro s d a b g w hc htx
  have hrun {r : Host.Outcome State Fault Refusal} := gate_clear (o := execRegroup d a b g s) rfl hc rfl rfl rfl rfl
    (fun h => nomatch h) (fun h => nomatch h) (.inr htx) (r := r)
  refine ⟨fun hb hg => hrun ?_, fun hb hd hrec hq hlv htl => ?_⟩
  · dsimp only
    rw [if_pos hb, onGrant, hg]
    rfl
  · intro t
    have hst : ∀ {p q : Res}, (if s.w.p.fdepth ≠ 0 ∨ s.w.recs.any (fun r => match r.body with | .split _ => true | .call _ => false) ∨
        s.w.q.held ∨ s.w.p.levels ≠ 0 ∨ s.w.tlevel ≠ 0 then p else q) = q := by
      intro p q
      refine if_neg ?_
      rintro (h | h | h | h | h)
      · exact h hd
      · obtain ⟨r, hr, h⟩ := List.any_eq_true.1 h
        cases hbody : r.body with
        | split p => exact hrec r hr p hbody
        | call c => simp [hbody] at h
      · exact Bool.noConfusion (hq.symm.trans h)
      · exact h hlv
      · exact h htl
    refine ⟨fun hg => hrun ?_, fun hg => hrun ?_⟩
    · dsimp only
      rw [if_neg hb]
      refine (congrArg _ hst).trans ?_
      rw [onGrant, show (regroupTry _ _).w.grant = _ from hg]
      rfl
    · dsimp only
      rw [if_neg hb]
      refine (congrArg _ hst).trans ?_
      rw [onGrant, show (regroupTry _ _).w.grant = _ from hg]
      rfl

end Sys2Proof.Proofs
end

section
/-! SUPPORT. Control flow (R34, R45, R46, R56, R161 to R172): branches, calls, frames, returns and hardware loops. -/

namespace Sys2Proof.Proofs
open Sys2Proof Sys2Proof.Machine

/-! ### Offsets and alignment (R67, R73) -/

/-- A word offset is four times its signed number of bytes. -/
theorem offset_eq {n : Nat} (x : BitVec n) : offset x = BitVec.ofInt 64 (4 * x.toInt) := by
  rw [offset, BitVec.signExtend, BitVec.shiftLeft_eq_mul_twoPow, BitVec.ofInt_mul, BitVec.mul_comm]
  rfl

/-- An unsigned word offset. -/
theorem zeroOffset_eq {n : Nat} (h : n ≤ 64) (x : BitVec n) : x.zeroExtend 64 <<< 2 = BitVec.ofNat 64 (4 * x.toNat) := by
  apply BitVec.eq_of_toNat_eq
  have hx : x.toNat < 2 ^ 64 := Nat.lt_of_lt_of_le x.isLt (Nat.pow_le_pow_right (by decide) h)
  rw [BitVec.toNat_shiftLeft, BitVec.toNat_setWidth, BitVec.toNat_ofNat, Nat.mod_eq_of_lt hx, Nat.shiftLeft_eq, Nat.mul_comm]

/-- The two low bits of an address. -/
theorem bits_low_eq_zero {x : W64} : bits x 1 0 = 0 ↔ x.extractLsb' 0 2 = 0 := by
  rw [BitVec.toNat_eq]
  simp [bits]

/-! ### The end of a loop's body (R56, R70, R171) -/

/-- Falling through changes the PC and the loop levels alone. -/
theorem loopEnd_eq (len : Nat) : ∀ (n : Nat) (p : Path), ∃ pc a b c, p.loopEnd len n = { p with pc := pc, lc0 := a, lc1 := b, lc2 := c }
  | 0, p => ⟨_, p.lc0, p.lc1, p.lc2, rfl⟩
  | n + 1, p => by
    have hset : ∀ l, ∃ a b c, p.setLc n l = { p with lc0 := a, lc1 := b, lc2 := c } := by
      intro l
      unfold Path.setLc
      split
      · exact ⟨l, p.lc1, p.lc2, rfl⟩
      · exact ⟨p.lc0, l, p.lc2, rfl⟩
      · exact ⟨p.lc0, p.lc1, l, rfl⟩
    unfold Path.loopEnd
    dsimp only
    split
    · split
      · obtain ⟨a, b, c, h⟩ := hset { p.lc n with active := false, count := 0 }
        obtain ⟨pc, a', b', c', h'⟩ := loopEnd_eq len n (p.setLc n { p.lc n with active := false, count := 0 })
        exact ⟨pc, a', b', c', by rw [h', h]⟩
      · obtain ⟨a, b, c, h⟩ := hset { p.lc n with count := (p.lc n).count - 1 }
        exact ⟨(p.lc n).start, a, b, c, by rw [h]⟩
    · exact ⟨_, p.lc0, p.lc1, p.lc2, rfl⟩

/-- A reconvergence address is pushed on a path that falls through as on the path before it. -/
theorem fall_pushR (p : Path) (len : Nat) (j : W64) :
    (p.fall len).pushR j = { p.fall len with r0 := j, r1 := p.r0, r2 := p.r1, r3 := p.r2 } := by
  obtain ⟨pc, a, b, c, h⟩ := loopEnd_eq len p.levels p
  rw [Path.fall, h]
  rfl

/-! ### Branches (R34, R161 to R164, R252) -/

/-- The parts of a split, with the reconvergence address pushed where it is not entry 0 already (R34). -/
theorem splitTo_join {w : Warp} {len : Nat} {taken rest : Mask} {dst j : W64} :
    let join (x : Path) : Path := if w.p.r0 = j then x else { x with r0 := j, r1 := w.p.r0, r2 := w.p.r1, r3 := w.p.r2 }
    let p0 : Path := { w.p with age := 0, mask := taken, pc := dst }
    let q0 : Path := { w.p with age := 0, mask := rest }.fall len
    (if j != w.p.r0 then w.splitTo (p0.pushR j) (q0.pushR j) else w.splitTo p0 q0) = w.splitTo (join p0) (join q0) := by
  intro join p0 q0
  by_cases h : w.p.r0 = j
  · rw [if_neg (by simp [h]), show join p0 = p0 from if_pos h, show join q0 = q0 from if_pos h]
  · rw [if_pos (by simpa using fun h' => h h'.symm), show join p0 = p0.pushR j from if_neg h,
      show join q0 = _ from (if_neg h).trans (fall_pushR { w.p with age := 0, mask := rest } len j).symm]

@[simp] theorem splitTo_fsbase (w : Warp) (p q : Path) : (w.splitTo p q).fsbase = w.fsbase := by
  unfold Warp.splitTo
  split <;> rfl

@[simp] theorem splitTo_fslim (w : Warp) (p q : Path) : (w.splitTo p q).fslim = w.fslim := by
  unfold Warp.splitTo
  split <;> rfl

/-- A divergent branch falls through, goes on at its target, or splits the path, where a record that the split needs has room. -/
theorem branchSplit_gives {s : State} {word : W64} {len : Nat} {p : BitVec 3} {n : Bool} {tgt : BitVec 13} {join : W64 → W64}
    {j : W64} (hj : join s.w.p.pc = j) (hc : Clear s { cls := .control, len := len }) :
    let c := s.w.pred p.toNat
    let taken := (if n then ~~~c else c) &&& s.w.active false
    let rest := s.w.p.mask &&& ~~~taken
    let dst := s.w.p.pc + BitVec.ofInt 64 (4 * tgt.toInt)
    let o := branchSplit word len p n tgt join s
    (taken = 0 → o = .next (fell len s)) ∧
    (taken ≠ 0 → rest = 0 → o = .next (issued { s with w := { s.w with p := { s.w.p with pc := dst } } })) ∧
    (taken ≠ 0 → rest ≠ 0 →
      let push (x : Path) : Path := if s.w.p.r0 = j then x else { x with r0 := j, r1 := s.w.p.r0, r2 := s.w.p.r1, r3 := s.w.p.r2 }
      let w := s.w.splitTo (push { s.w.p with age := 0, mask := taken, pc := dst }) (push ({ s.w.p with age := 0, mask := rest }.fall len))
      let r := w.resv + if s.w.q.held then 0 else 128
      o = if !(s.w.q.held || (s.w.group.isSome && s.w.holdsGroup s.w.p)) then .next (issued { s with w := w })
        else if s.w.fsbase.toNat + r ≤ s.w.fslim.toNat then .next (issued { s with w := w.recordHwm r })
        else .next (raise (trapOf 0x0B (w64 r) (s.w.active false) (len == 8)) s)) := by
  subst hj
  intro c taken rest dst o
  have hrun := plain_run (o := o) rfl ⟨rfl, rfl, rfl, rfl, rfl, rfl, rfl⟩ hc
  refine ⟨fun h => hrun.trans ?_, fun h h' => hrun.trans ?_, fun h h' => ?_⟩
  · exact congrArg _ (if_pos h)
  · refine (congrArg _ ((if_neg h).trans (if_pos h'))).trans ?_
    rw [offset_eq]
    rfl
  · intro push w r
    refine hrun.trans ((congrArg _ ((if_neg h).trans (if_neg h'))).trans ?_)
    rw [offset_eq]
    dsimp only
    rw [splitTo_join]
    cases s.w.q.held || (s.w.group.isSome && s.w.holdsGroup s.w.p) with
    | false => rfl
    | true =>
      have hroom : w.resvOk r = true ↔ s.w.fsbase.toNat + r ≤ s.w.fslim.toNat := by
        rw [Warp.resvOk, decide_eq_true_iff, splitTo_fsbase, splitTo_fslim]
      by_cases hr : s.w.fsbase.toNat + r ≤ s.w.fslim.toNat
      · exact (congrArg _ (if_pos (hroom.2 hr))).trans (if_pos hr).symm
      · exact (congrArg _ (if_neg (mt hroom.1 hr))).trans (if_neg hr).symm

/-- Settles O5: the parts of a split are those of the statement, whether or not the reconvergence address is pushed. -/
theorem branchesComplete : Obligations.BranchesComplete := by
  refine ⟨fun s a n o22 o18 => ⟨fun hc => ?_, fun hc => ?_⟩, fun s p n tgt rcd lit => ?_⟩
  · refine (plain_run rfl ⟨rfl, rfl, rfl, rfl, rfl, rfl, rfl⟩ hc : execBr o22 s = _).trans ?_
    dsimp only
    rw [offset_eq]
    rfl
  · refine (plain_run rfl ⟨rfl, rfl, rfl, rfl, rfl, rfl, rfl⟩ hc : execBrs a n o18 s = _).trans ?_
    dsimp only
    rw [offset_eq]
    split <;> rfl
  · refine ⟨fun hc => ?_, fun hc => ?_⟩
    · obtain ⟨h1, h2, h3⟩ := branchSplit_gives (word := wordB 0x0C p n tgt rcd) (p := p) (n := n) (tgt := tgt)
        (join := fun pc => pc + (rcd.zeroExtend 64 <<< 2)) (congrArg _ (zeroOffset_eq (by decide) rcd)) hc
      exact ⟨h1, h2, h3⟩
    · obtain ⟨h1, h2, h3⟩ := branchSplit_gives (word := wordB 0x0D p n tgt 0) (p := p) (n := n) (tgt := tgt)
        (join := fun pc => pc + offset lit) (congrArg _ (offset_eq lit)) hc
      exact ⟨h1, h2, h3⟩

/-! ### Calls, frames and returns (R45, R46, R165 to R169) -/

/-- An instruction whose span has the ring and whose own window is filled goes on with it (R48). -/
theorem withSpan_ready {s : State} {act : Mask} {w : Warp} {k : State → Res}
    (h : w.parkOther.need w.parkOther.span w.parkOther.p.window = .ready) : withSpan s act w k = k { s with w := w.parkOther } := by
  rw [withSpan, h]

/-- A reservation has room where it does not pass FSLIM (R54). -/
theorem resvOk_iff {w : Warp} {r : Nat} : w.resvOk r = true ↔ w.fsbase.toNat + r ≤ w.fslim.toNat := decide_eq_true_iff

/-- A call traps at the greatest depth and where its record has no room, and otherwise establishes the callee's span. -/
theorem callTo_gives {s : State} {k : Nat} {target : W64} {act : Mask} :
    let w1 := s.w.called k (provisional s target) target
    let w2 := (w1.recordHwm w1.resv).parkOther
    (s.w.p.fdepth = 65535 → callTo k target s act = trapAct 0x0B (BitVec.allOnes 64) act s) ∧
    (s.w.p.fdepth ≠ 65535 → s.w.fslim.toNat < s.w.fsbase.toNat + w1.resv →
      callTo k target s act = trapAct 0x0B (w64 w1.resv) act s) ∧
    (s.w.p.fdepth ≠ 65535 → s.w.fsbase.toNat + w1.resv ≤ s.w.fslim.toNat → w2.need w2.span w2.p.window = .ready →
      callTo k target s act = .jump { s with w := w2 }) := by
  intro w1 w2
  refine ⟨fun h => if_pos h, fun h hr => (if_neg h).trans (if_neg ?_), fun h hr hs => (if_neg h).trans ((if_pos ?_).trans (withSpan_ready hs))⟩
  · exact fun ho => Nat.not_le.2 hr (resvOk_iff.1 ho)
  · exact resvOk_iff.2 hr

/-- The path on turn has its window without asking for another, and its lanes are the same. -/
theorem parkOther_mask (w : Warp) : w.parkOther.p.mask = w.p.mask := by
  unfold Warp.parkOther
  dsimp only
  split <;> rfl

/-- Settles O6. -/
theorem callsAndEnterComplete : Obligations.CallsAndEnterComplete := by
  intro s a k off f
  refine ⟨fun hc hk => ?_, fun hc hk => ?_, fun caller hc hcaller => ?_⟩
  · have hok : decide (k.toNat ≤ s.w.p.fsize) = true := decide_eq_true hk
    have hrun := plain_run (o := execCall k off s) rfl ⟨hok, rfl, rfl, rfl, rfl, rfl, rfl⟩ hc
    obtain ⟨h1, h2, h3⟩ := callTo_gives (s := s) (k := k.toNat) (target := s.w.p.pc + offset off) (act := s.w.active false)
    rw [offset_eq] at h1 h2 h3
    simp only [offset_eq] at hrun
    exact ⟨fun a => hrun.trans (congrArg _ (h1 a)), fun a b => hrun.trans (congrArg _ (h2 a b)),
      fun a b c => hrun.trans (congrArg _ (h3 a b c))⟩
  · have hok : decide (k.toNat ≤ s.w.p.fsize) = true := decide_eq_true hk
    have hrun := plain_run (o := execCallr a k s) rfl ⟨hok, rfl, rfl, rfl, rfl, rfl, rfl⟩ hc
    refine ⟨fun ha => hrun.trans (congrArg _ (if_pos (mt bits_low_eq_zero.1 ha))), fun ha => ?_⟩
    have hrun := hrun.trans (congrArg _ (if_neg (not_not_intro (bits_low_eq_zero.2 ha))))
    obtain ⟨h1, h2, h3⟩ := callTo_gives (s := s) (k := k.toNat) (target := (s.w.sr a.toNat).bits) (act := s.w.active false)
    exact ⟨fun a => hrun.trans (congrArg _ (h1 a)), fun a b => hrun.trans (congrArg _ (h2 a b)),
      fun a b c => hrun.trans (congrArg _ (h3 a b c))⟩
  · intro w1 w2 top
    have hrun := plain_run (o := execEnter f s) rfl ⟨rfl, rfl, rfl, rfl, rfl, rfl, rfl⟩ hc
    rw [hcaller] at hrun
    refine ⟨fun hr => hrun.trans (congrArg _ (if_neg fun ho => Nat.not_le.2 hr (resvOk_iff.1 ho))), fun hr hs => ?_⟩
    · refine hrun.trans ((congrArg _ ((if_pos ?_).trans (withSpan_ready hs))).trans ?_)
      · exact resvOk_iff.2 hr
      · rw [out_fall, zeroRegs, parkOther_mask]
        rfl

/-- Settles O7. -/
theorem returnCompletes : Obligations.ReturnCompletes := by
  intro s c hc hd hg hl hcall
  have hok : (!(s.w.p.fdepth == 0) && !decide (s.w.tlevel ≠ 0 ∧ s.w.p.fdepth = (s.w.bank s.w.tlevel).depth)) = true := by
    simpa [hd, Decidable.imp_iff_not_or] using hl
  have hng : ¬ (s.w.tlevel = 0 ∧ s.w.group.isSome = true ∧ s.w.p.fdepth = (s.w.group.getD {}).depth) := by
    rw [hg]
    exact fun h => Bool.noConfusion h.2.1
  have hrun := plain_run (o := execRet s) (gt := { word := wordN 0x10 false, cls := .control, ok := _, scals := retScals s }) rfl
    ⟨hok, rfl, rfl, rfl, rfl, rfl, rfl⟩ hc
  dsimp only at hrun
  rw [if_neg hng, retAll, hcall] at hrun
  refine ⟨fun ha => hrun.trans (congrArg _ (if_pos (mt bits_low_eq_zero.1 ha))), ?_⟩
  intro ha m p w1 w2 hs
  have hw : { (s.w.retThrough s.w.p c true).1 with p := (s.w.retThrough s.w.p c true).2 } = w2 := by
    have hsplit : (c.splitRet || decide (c.pmask &&& ~~~s.w.p.mask ≠ 0)) = true ↔ c.splitRet = true ∨ m ≠ 0 := by
      rw [Bool.or_eq_true, decide_eq_true_iff]
    simp only [Warp.retThrough, Bool.and_true, returned, hsplit]
    rfl
  refine (hrun.trans (congrArg _ (if_neg (not_not_intro (bits_low_eq_zero.2 ha))))).trans ?_
  dsimp only
  rw [hw, withSpan_ready hs]
  rfl

/-! ### Hardware loops (R56, R70, R170 to R172) -/

/-- A loop instruction of a path that admits a further loop begins it, or goes on past its end where the count is zero. -/
theorem loopOp_gives {s : State} {word : W64} {last : BitVec 8} {count : W64} {act : Mask} (h2 : s.w.p.lc2.active = false)
    (he : s.w.p.levels ≠ 0 → s.w.p.pc ≠ (s.w.p.lc (s.w.p.levels - 1)).endAddr) :
    loopOp word last count s act = .jump { s with w := { s.w with p :=
      if count = 0 then { s.w.p with pc := s.w.p.pc + BitVec.ofNat 64 (4 + 4 * (last.toNat + 1)) }
      else { s.w.p.setLc s.w.p.levels { active := true, start := s.w.p.pc + 4, count := count.extractLsb' 0 32, len := last.toNat + 1 } with
        pc := s.w.p.pc + 4 } } } := by
  have h3 : s.w.p.levels ≠ 3 := by
    unfold Path.levels
    rw [h2]
    cases s.w.p.lc1.active <;> cases s.w.p.lc0.active <;> decide
  refine (if_neg h3).trans ((if_neg fun h => he h.1 h.2).trans ?_)
  by_cases hc : count = 0
  · refine (if_pos hc).trans ?_
    rw [if_pos hc]
    rfl
  · refine (if_neg hc).trans ?_
    rw [if_neg hc]
    rfl

/-- An address that an instruction occupies (R70). -/
theorem occupies_iff {pc a : W64} {len : Nat} : occupies pc len a = true ↔ pc = a ∨ (len = 8 ∧ pc + 4 = a) := by
  simp [occupies]

/-- The innermost of n + 1 levels is active, and the levels outside it are those of the path without it. -/
theorem level_active {p : Path} {n : Nat} (h : p.levels = n + 1) : (p.lc n).active = true := by
  unfold Path.levels at h
  split at h
  · obtain rfl : n = 2 := by omega
    assumption
  · split at h
    · obtain rfl : n = 1 := by omega
      assumption
    · split at h
      · obtain rfl : n = 0 := by omega
        assumption
      · omega

theorem levels_setLc {p : Path} {n : Nat} (hn : n < 3) (h : p.levels = n + 1) (hk : ∀ k < n, (p.lc k).active = true) (l : Loop)
    (hl : l.active = false) : (p.setLc n l).levels = n := by
  unfold Path.levels at h
  obtain rfl | rfl | rfl : n = 0 ∨ n = 1 ∨ n = 2 := by omega
  · have h2 : p.lc2.active = false := by split at h <;> simp_all
    have h1 : p.lc1.active = false := by
      rw [h2] at h
      cases hb : p.lc1.active
      · rfl
      · simp [hb] at h
    simp [Path.levels, Path.setLc, hl, h1, h2]
  · have h2 : p.lc2.active = false := by split at h <;> simp_all
    have h0 : p.lc0.active = true := hk 0 (by decide)
    simp [Path.levels, Path.setLc, hl, h0, h2]
  · have h1 : p.lc1.active = true := hk 1 (by decide)
    simp [Path.levels, Path.setLc, hl, h1]

/-- Settles O8. -/
theorem loopsComplete : Obligations.LoopsComplete := by
  refine ⟨fun s last count sc => ⟨fun hc h2 he => ?_, fun hc => ⟨fun hlt h2 he => ?_, fun hge => ?_⟩, ?_⟩, fun p len hlen => ⟨fun h => ?_, ?_⟩⟩
  · refine (plain_run (gt := { word := wordH 0x12 last count, cls := .control })
      rfl ⟨rfl, rfl, rfl, rfl, rfl, rfl, rfl⟩ hc : execLoop last count s = _).trans ?_
    rw [loopOp_gives h2 he]
    rfl
  · refine (plain_run (gt := { word := wordH 0x13 last (sc.zeroExtend 16), cls := .control, scals := [sc.toNat], uses := [useS sc] })
      rfl ⟨rfl, rfl, rfl, rfl, rfl, rfl, rfl⟩ hc : execLoopr last sc s = _).trans ?_
    dsimp only
    rw [if_neg (by omega), loopOp_gives h2 he]
    rfl
  · refine (plain_run (gt := { word := wordH 0x13 last (sc.zeroExtend 16), cls := .control, scals := [sc.toNat], uses := [useS sc] })
      rfl ⟨rfl, rfl, rfl, rfl, rfl, rfl, rfl⟩ hc : execLoopr last sc s = _).trans ?_
    dsimp only
    rw [if_pos (by omega)]
    rfl
  · intro hc h0 l after
    obtain ⟨n, hn⟩ := Nat.exists_eq_succ_of_ne_zero h0
    have hl : l = s.w.p.lc n := by rw [show l = s.w.p.lc (s.w.p.levels - 1) from rfl, hn]; rfl
    have hrun := plain_run (o := execLbrk s) (gt := { word := wordN 0x14 false, cls := .control }) rfl ⟨rfl, rfl, rfl, rfl, rfl, rfl, rfl⟩ hc
    dsimp only at hrun
    rw [hn] at hrun
    refine ⟨fun ha => hrun.trans ?_, fun ha => hrun.trans ?_⟩
    · refine (congrArg _ (if_pos (mt bits_low_eq_zero.1 ?_))).trans ?_
      · rw [← hl]
        exact ha
      · rw [← hl]
        rfl
    · refine (congrArg _ (if_neg (not_not_intro (bits_low_eq_zero.2 ?_)))).trans ?_
      · rw [← hl]
        exact ha
      · rw [← hl, hn]
        rfl
  · rw [Path.fall, h]
    rfl
  · intro n hn h hk l e ends
    have hact := level_active h
    have hocc : ((p.lc n).active && occupies p.pc len (p.lc n).endAddr) = true ↔ ends := by
      rw [hact, Bool.true_and, occupies_iff]
      rfl
    have hfall : p.fall len = Path.loopEnd len (n + 1) p := by rw [Path.fall, h]
    refine ⟨fun he => hfall.trans (if_neg (mt hocc.1 he)), fun he hc => ?_, fun he hc => ?_⟩
    · refine hfall.trans ((if_pos (hocc.2 he)).trans (if_neg ?_))
      simpa using hc
    · refine hfall.trans ((if_pos (hocc.2 he)).trans ((if_pos ?_).trans ?_))
      · simpa using hc
      · rw [Path.fall, levels_setLc hn h hk _ rfl]

end Sys2Proof.Proofs
end

section
/-! SUPPORT. EXIT (R46, R60, R173): what it does in the lanes left by the aborts of R247, and the CALL records that the lanes leave. -/

namespace Sys2Proof.Proofs
open Sys2Proof Sys2Proof.Machine

/-! ### Instructions that are not performed in ACTIVE lanes (R247) -/

/-- An instruction that ACTIVE lanes abort at, its demands met, acts in the lanes left, if there are any. -/
theorem run_dropping {gt : Gate} {s : State} {body : State → Mask → Res} (hc : Clear s gt.demand) (htx : gt.tx = false)
    (hok : gt.ok = true) (hpriv : gt.priv = true) (heng : gt.engine = true) (hfull : gt.full = false) (hsync : gt.sync = false)
    (hrel : gt.rel = false) (hu : gt.uses = []) :
    let act := s.w.active gt.guard
    let tx := s.w.activeTx act
    let s0 : State := if tx = 0 then s else { s with w := s.w.abort tx 10 0 }
    let left := act &&& ~~~tx
    gt.run body s = gt.out (if left = 0 then .fall s0 else body s0 left) := by
  intro act tx s0 left
  have h0 : act ≠ 0 := hc.lanes
  have hact : (gt.guard && s.w.active gt.guard == 0) = false := by rw [beq_eq_false_iff_ne.mpr h0, Bool.and_false]
  have hleg : gt.legal s.w = true := by
    simp only [Gate.legal, hok, Bool.true_and, List.all_eq_true, Bool.and_eq_true]
    refine ⟨?_, hc.regs⟩
    rcases hc.entered with h | ⟨h, hf, hd⟩
    · simp [h, Gate.demand]
    · have h : gt.isEnter = true := h
      simp [h, hf, hd]
  have hchk : gt.check s.w act = none := by
    simp only [Gate.check, hleg]
    by_cases hl : gt.len = 8
    · have h4 : s.w.p.pc[2] = false := by simpa using hc.aligned hl
      simp [hl, h4]
    · simp [hl]
  have hleft : gt.left s.w act = left := by simp [Gate.left, htx, left, tx]
  have hdrop : gt.dropTx s act = s0 := by simp [Gate.dropTx, htx, s0, tx]
  have hrgt : gt.rights s.w left = none := by
    have hrole : s.w.tlevel = 0 → s.w.role.may gt.cls = true := hc.role
    by_cases ht : s.w.tlevel = 0
    · simp [Gate.rights, heng, hpriv, ht, hrole ht]
    · simp [Gate.rights, heng, hpriv, ht]
  have hhaz : gt.hazard s = false := by
    simp only [Gate.hazard, Bool.or_eq_false_iff, Bool.and_eq_false_iff, List.any_eq_false]
    refine ⟨Or.inr ⟨?_, ?_⟩, ?_⟩
    · intro r hr
      simp only [List.any_eq_true, not_exists, not_and]
      intro a ha
      simp [hc.vquiet r hr a ha]
    · intro r hr
      simp only [List.any_eq_true, not_exists, not_and]
      intro a ha
      simp [hc.oquiet r hr a ha]
    · intro n hn
      simpa using hc.squiet n hn
  have hpoison : ∀ (w : Warp) (l : Nat), poisonFail w gt.uses l = none := by
    intro w l
    rw [hu]
    rfl
  have hlanes : gt.lanes body s act = if left = 0 then .fall s0 else body s0 left := by
    rw [Gate.lanes, hleft, hdrop]
    by_cases hl : left = 0
    · rw [if_pos hl]
      exact if_pos ⟨hl, h0⟩
    · refine (if_neg fun h => hl h.1).trans ?_
      rw [if_neg hl, Gate.abortLater_none _ _ _ (fun l _ => hpoison _ l), failLanes_none _ _ _ _ (fun l _ => hpoison _ l)]
  rw [Gate.run, hact]
  rw [show gt.check s.w (s.w.active gt.guard) = none from hchk, show gt.left s.w (s.w.active gt.guard) = left from hleft]
  simp only [hrgt, hhaz, hfull, hsync, hrel, Bool.false_and, Bool.or_false, Bool.false_eq_true, if_false]
  rw [show gt.lanes body s (s.w.active gt.guard) = _ from hlanes]
  cases (if left = 0 then Res.fall s0 else body s0 left) <;> rfl

/-! ### Lanes outside every transaction -/

/-- Where no lane is in a transaction, none is in a state of one. -/
theorem txMask_none {w : Warp} (h : ∀ e ∈ w.tx, e.2.st = .none) {st : TxSt} (hst : st ≠ .none) : w.txMask st = 0 := by
  have hlook : ∀ (m : List (Nat × TxLane)) (l : Nat), (∀ e ∈ m, e.2.st = .none) → (look {} m l).st = .none := by
    intro m l hm
    induction m with
    | nil => rfl
    | cons e m ih =>
      rw [look]
      split
      · exact hm e (List.mem_cons_self ..)
      · exact ih (fun x hx => hm x (List.mem_cons_of_mem _ hx))
  unfold Warp.txMask
  split
  · rfl
  · apply BitVec.eq_of_getLsbD_eq
    intro l hl
    rw [maskOf_getLsbD _ _ hl, hlook _ _ h]
    simpa using fun h' => hst h'.symm

theorem commitTx_none {w : Warp} (h : ∀ e ∈ w.tx, e.2.st = .none) (m : Mask) : w.commitTx m = w := by
  have hmap : w.tx.map (fun e => if m.getLsbD e.1 && (e.2.st == .active || e.2.st == .irrevocable) then
      (e.1, { e.2 with st := .none, stat := false, cause := if e.2.st == .irrevocable then 0 else e.2.cause }) else e) = w.tx := by
    refine (List.map_congr_left (fun e he => ?_)).trans (List.map_id _)
    rw [h e he]
    simp
  rw [Warp.commitTx, hmap]

theorem closeGroup_none {s : State} (h : s.w.group = none) : closeGroup s = s := by
  simp [closeGroup, h]

/-! ### CALL records that lanes leave (R46, R173) -/

/-- The scalars once s48 to s63 are restored from a record. -/
def restored (m : List (Nat × SW)) (c : CallRec) : List (Nat × SW) :=
  (c.scal.foldl (fun (a : Nat × List (Nat × SW)) x => (a.1 + 1, put {} a.2 a.1 ⟨x.bits, x.bad⟩)) (48, m)).2

/-- Restoring the scalars of a record changes nothing else of the warp. -/
theorem restoreScal_eq (w : Warp) (c : CallRec) : w.restoreScal c = { w with s := restored w.s c } := by
  have h : ∀ (xs : List SW) (n : Nat) (w : Warp), xs.foldl (fun (a : Nat × Warp) x => (a.1 + 1, a.2.setS a.1 x.bits x.bad)) (n, w) =
      ((xs.foldl (fun (a : Nat × List (Nat × SW)) x => (a.1 + 1, put {} a.2 a.1 ⟨x.bits, x.bad⟩)) (n, w.s)).1,
        { w with s := (xs.foldl (fun (a : Nat × List (Nat × SW)) x => (a.1 + 1, put {} a.2 a.1 ⟨x.bits, x.bad⟩)) (n, w.s)).2 }) := by
    intro xs
    induction xs with
    | nil => exact fun n w => rfl
    | cons x xs ih => exact fun n w => ih (n + 1) (w.setS n x.bits x.bad)
  rw [Warp.restoreScal, h]
  rfl

theorem foldl_restoreScal (w : Warp) (cs : List CallRec) : cs.foldl Warp.restoreScal w = { w with s := cs.foldl restored w.s } := by
  induction cs generalizing w with
  | nil => rfl
  | cons c cs ih => rw [List.foldl_cons, ih, restoreScal_eq]; rfl

/-- What the lanes' leaving a record keeps of the state. -/
theorem exitRec_keeps {m : Mask} {s t : State} {r : Rec} (h : exitRec m s r = .ok t) :
    ∃ sc rs f, t = { s with w := { s.w with s := sc, recs := rs, fsrp := f } } := by
  unfold exitRec at h
  split at h
  · exact nomatch h
  · exact ⟨_, _, _, (Except.ok.inj h).symm⟩
  · split at h
    · exact ⟨_, _, _, (Except.ok.inj h).symm⟩
    · rw [← Except.ok.inj h]
      split
      · exact ⟨_, _, _, by rw [restoreScal_eq]; rfl⟩
      · exact ⟨s.w.s, _, s.w.fsrp, rfl⟩

theorem foldl_error {m : Mask} {e : W64 × Bool} : ∀ (rs : List Rec), rs.foldl (fun (acc : Except (W64 × Bool) State) r =>
    match acc with | .error e => .error e | .ok t => exitRec m t r) (.error e) = .error e
  | [] => rfl
  | _ :: rs => foldl_error rs

/-- The lanes leave a list of records, one after the other. -/
def leaveAll (m : Mask) (rs : List Rec) (s : State) : Except (W64 × Bool) State :=
  rs.foldl (fun (acc : Except (W64 × Bool) State) r => match acc with | .error e => .error e | .ok t => exitRec m t r) (.ok s)

theorem leaveAll_cons {m : Mask} {r : Rec} {rs : List Rec} {s t : State} (h : exitRec m s r = .ok t) :
    leaveAll m (r :: rs) s = leaveAll m rs t := by
  rw [leaveAll, List.foldl_cons]
  dsimp only
  rw [h]
  rfl

theorem leaveAll_keeps {m : Mask} : ∀ (rs : List Rec) (s t : State), leaveAll m rs s = .ok t →
    ∃ sc rs f, t = { s with w := { s.w with s := sc, recs := rs, fsrp := f } }
  | [], s, t, h => ⟨s.w.s, s.w.recs, s.w.fsrp, (Except.ok.inj h).symm⟩
  | r :: rs, s, t, h => by
    cases hr : exitRec m s r with
    | error e =>
      rw [leaveAll, List.foldl_cons] at h
      dsimp only at h
      rw [hr, foldl_error] at h
      exact nomatch h
    | ok u =>
      rw [leaveAll_cons hr] at h
      obtain ⟨sc, rs', f, h1⟩ := leaveAll_keeps rs u t h
      obtain ⟨sc', rs'', f', h2⟩ := exitRec_keeps hr
      subst h2
      exact ⟨sc, rs', f, h1⟩

/-- A record that holds none of the lanes stays. -/
theorem exitRec_skip {m : Mask} {s : State} {r : Rec}
    (h : callBody s r = .ok none ∨ ∃ c, callBody s r = .ok (some c) ∧ c.pmask &&& m = 0) : exitRec m s r = .ok s := by
  rcases h with h | ⟨c, h, hc⟩
  · rw [exitRec, h]
  · rw [exitRec, h]
    exact if_pos hc

theorem leaveAll_skip {m : Mask} {s : State} : ∀ (rs : List Rec),
    (∀ r ∈ rs, callBody s r = .ok none ∨ ∃ c, callBody s r = .ok (some c) ∧ c.pmask &&& m = 0) → leaveAll m rs s = .ok s
  | [], _ => rfl
  | r :: rs, h => (leaveAll_cons (exitRec_skip (h r (List.mem_cons_self ..)))).trans
      (leaveAll_skip rs (fun x hx => h x (List.mem_cons_of_mem _ hx)))

/-- The CALL record that a record is, where it holds some of the lanes. -/
def holdsLanes (m : Mask) (r : Rec) : Option CallRec := match r.body with
  | .split _ => none
  | .call c => if c.pmask &&& m = 0 then none else some c

/-- The same, where it holds no other lane: it is to be freed. -/
def freedBy (m : Mask) (r : Rec) : Option CallRec := (holdsLanes m r).filter (fun c => decide (c.pmask &&& ~~~m = 0))

/-- What the lanes leave of a record. -/
def keptBy (m : Mask) (r : Rec) : Option Rec := match holdsLanes m r with
  | none => some r
  | some c => if c.pmask &&& ~~~m = 0 then none
    else some { r with body := .call { c with pmask := c.pmask &&& ~~~m }, aged := 0, shut := false }

theorem callBody_ring {s : State} {r : Rec} (h : r.inMem = false) :
    callBody s r = match r.body with | .split _ => .ok none | .call c => .ok (some c) := by
  cases hb : r.body with
  | split p => simp only [callBody, hb]
  | call c => simp only [callBody, recBody, h, hb]; rfl

/-- A record in the ring that holds none of the lanes stays, and another keeps its other lanes or is freed. -/
theorem exitRec_ring_skip {m : Mask} {s : State} {r : Rec} (hin : r.inMem = false) (hh : holdsLanes m r = none) :
    exitRec m s r = .ok s := by
  refine exitRec_skip ?_
  rw [callBody_ring hin]
  unfold holdsLanes at hh
  cases hbody : r.body with
  | split p => exact .inl rfl
  | call c =>
    rw [hbody] at hh
    refine .inr ⟨c, rfl, ?_⟩
    refine Classical.byContradiction fun hne => ?_
    exact nomatch (if_neg hne).symm.trans hh

theorem exitRec_holds {m : Mask} {s : State} {r : Rec} {c : CallRec} (hin : r.inMem = false) (hh : holdsLanes m r = some c) :
    exitRec m s r = .ok { s with
      w := if c.pmask &&& ~~~m = 0 then (s.w.restoreScal c).freeRec r.off
        else s.w.setRec r.off (.call { c with pmask := c.pmask &&& ~~~m }) } := by
  rw [exitRec, callBody_ring hin]
  unfold holdsLanes at hh
  cases hbody : r.body with
  | split p => rw [hbody] at hh; exact nomatch hh
  | call c' =>
    rw [hbody] at hh
    dsimp only at hh ⊢
    split at hh
    · exact nomatch hh
    · obtain rfl := Option.some.inj hh
      exact if_neg ‹_›

/-- A record that is not freed takes the bytes that it took. -/
theorem keptBy_same {m : Mask} {r : Rec} (h : freedBy m r = none) : ∃ r', keptBy m r = some r' ∧ r'.off = r.off ∧ r'.size = r.size := by
  unfold keptBy
  cases hh : holdsLanes m r with
  | none => exact ⟨r, rfl, rfl, rfl⟩
  | some c =>
    rw [freedBy, hh] at h
    have hc : ¬ c.pmask &&& ~~~m = 0 := by simpa [Option.filter] using h
    refine ⟨_, if_neg hc, rfl, ?_⟩
    unfold holdsLanes at hh
    cases hb : r.body with
    | split p => rw [hb] at hh; exact nomatch hh
    | call c' => simp only [Rec.size, hb]

/-- Where none of a list of records is freed, the top of the records is where it was. -/
theorem fsrpOf_kept {m : Mask} {pre rs : List Rec} (h : rs.filterMap (freedBy m) = []) :
    fsrpOf (pre ++ rs) = fsrpOf (pre ++ rs.filterMap (keptBy m)) := by
  cases pre with
  | cons x xs => rfl
  | nil =>
    cases rs with
    | nil => rfl
    | cons r rs =>
      have hr : freedBy m r = none := List.filterMap_eq_nil_iff.1 h r (List.mem_cons_self ..)
      obtain ⟨r', h1, h2, h3⟩ := keptBy_same hr
      rw [List.filterMap_cons_some h1]
      show r.off + r.size = r'.off + r'.size
      rw [h2, h3]

theorem filter_off {pre rs : List Rec} {r : Rec} (hpre : ∀ x ∈ pre, x.off ≠ r.off) (hrs : ∀ x ∈ rs, r.off ≠ x.off) :
    (pre ++ r :: rs).filter (fun x => x.off != r.off) = pre ++ rs := by
  rw [List.filter_append, List.filter_cons_of_neg (by simp), List.filter_eq_self.2, List.filter_eq_self.2]
  · exact fun x hx => by simpa using (hrs x hx).symm
  · exact fun x hx => by simpa using hpre x hx

theorem map_off {pre rs : List Rec} {r : Rec} {f : Rec → Rec} (hpre : ∀ x ∈ pre, x.off ≠ r.off) (hrs : ∀ x ∈ rs, r.off ≠ x.off) :
    (pre ++ r :: rs).map (fun x => if x.off == r.off then f x else x) = pre ++ f r :: rs := by
  have hid : ∀ (xs : List Rec), (∀ x ∈ xs, x.off ≠ r.off) → xs.map (fun x => if x.off == r.off then f x else x) = xs := by
    intro xs h
    refine (List.map_congr_left (fun x hx => ?_)).trans (List.map_id _)
    rw [if_neg (by simpa using h x hx)]
    rfl
  rw [List.map_append, List.map_cons, hid pre hpre, hid rs (fun x hx => (hrs x hx).symm), if_pos (by simp)]

/-- The warp once the lanes have left a list of its records, the records before these being `pre` by now. -/
def leftWarp (m : Mask) (pre rs : List Rec) (w : Warp) : Warp :=
  { w with s := (rs.filterMap (freedBy m)).foldl restored w.s
           recs := pre ++ rs.filterMap (keptBy m)
           fsrp := if rs.filterMap (freedBy m) = [] then w.fsrp else fsrpOf (pre ++ rs.filterMap (keptBy m)) }

/-- The lanes leave records that stand in the ring at offsets of their own. -/
theorem leaveAll_ring {m : Mask} : ∀ (rs pre : List Rec) (s : State), s.w.recs = pre ++ rs → (∀ r ∈ rs, r.inMem = false) →
    rs.Pairwise (fun r x => r.off ≠ x.off) → (∀ x ∈ pre, ∀ r ∈ rs, x.off ≠ r.off) →
    leaveAll m rs s = .ok { s with w := leftWarp m pre rs s.w }
  | [], pre, s, hrecs, _, _, _ => by
    rw [List.append_nil] at hrecs
    simp only [leftWarp, List.filterMap_nil, List.foldl_nil, List.append_nil, if_true, ← hrecs]
    rfl
  | r :: rs, pre, s, hrecs, hmem, hpair, hpre => by
    obtain ⟨hr, hpair⟩ := List.pairwise_cons.1 hpair
    have hm : ∀ x ∈ rs, x.inMem = false := fun x hx => hmem x (List.mem_cons_of_mem _ hx)
    have hp : ∀ x ∈ pre, x.off ≠ r.off := fun x hx => hpre x hx r (List.mem_cons_self ..)
    have hpr : ∀ x ∈ pre, ∀ y ∈ rs, x.off ≠ y.off := fun x hx y hy => hpre x hx y (List.mem_cons_of_mem _ hy)
    cases hh : holdsLanes m r with
    | none =>
      have hskip := exitRec_ring_skip (s := s) (hmem r (List.mem_cons_self ..)) hh
      have hf : freedBy m r = none := by rw [freedBy, hh]; rfl
      have hk : keptBy m r = some r := by rw [keptBy, hh]
      rw [leaveAll_cons hskip, leaveAll_ring rs (pre ++ [r]) s (by rw [hrecs, List.append_assoc]; rfl) hm hpair ?_]
      · simp only [leftWarp, List.filterMap_cons_none hf, List.filterMap_cons_some hk, List.append_assoc, List.singleton_append]
      · intro x hx y hy
        rcases List.mem_append.1 hx with hx | hx
        · exact hpr x hx y hy
        · rw [List.mem_singleton.1 hx]
          exact hr y hy
    | some c =>
      have hex := exitRec_holds (s := s) (hmem r (List.mem_cons_self ..)) hh
      rw [leaveAll_cons hex]
      by_cases hz : c.pmask &&& ~~~m = 0
      · have hf : freedBy m r = some c := by rw [freedBy, hh]; simp [hz]
        have hk : keptBy m r = none := by rw [keptBy, hh]; exact if_pos hz
        have hrecs' : ((s.w.restoreScal c).freeRec r.off).recs = pre ++ rs := by
          rw [restoreScal_eq]
          show s.w.recs.filter _ = _
          rw [hrecs, filter_off hp hr]
        have hfsrp : ((s.w.restoreScal c).freeRec r.off).fsrp = fsrpOf (pre ++ rs) := by
          rw [← hrecs']
          rfl
        rw [if_pos hz, leaveAll_ring rs pre _ hrecs' hm hpair hpr]
        simp only [leftWarp, List.filterMap_cons_some hf, List.filterMap_cons_none hk, List.foldl_cons, hfsrp]
        rw [if_neg (List.cons_ne_nil _ _), restoreScal_eq]
        have hif : (if rs.filterMap (freedBy m) = [] then fsrpOf (pre ++ rs) else fsrpOf (pre ++ rs.filterMap (keptBy m))) =
            fsrpOf (pre ++ rs.filterMap (keptBy m)) := by
          split
          · exact fsrpOf_kept ‹_›
          · rfl
        rw [hif]
        rfl
      · have hf : freedBy m r = none := by
          rw [freedBy, hh]
          exact if_neg fun h => hz (of_decide_eq_true h)
        have hk : keptBy m r = some { r with body := .call { c with pmask := c.pmask &&& ~~~m }, aged := 0, shut := false } := by
          rw [keptBy, hh]
          exact if_neg hz
        have hrecs' : (s.w.setRec r.off (.call { c with pmask := c.pmask &&& ~~~m })).recs =
            (pre ++ [{ r with body := .call { c with pmask := c.pmask &&& ~~~m }, aged := 0, shut := false }]) ++ rs := by
          have hin : r.inMem = false := hmem r (List.mem_cons_self ..)
          show s.w.recs.map _ = _
          rw [hrecs, map_off hp hr, ← hin, List.append_assoc]
          rfl
        rw [if_neg hz, leaveAll_ring rs _ _ hrecs' hm hpair ?_]
        · simp only [leftWarp, List.filterMap_cons_none hf, List.filterMap_cons_some hk, List.append_assoc, List.singleton_append]
          rfl
        · intro x hx y hy
          rcases List.mem_append.1 hx with hx | hx
          · exact hpr x hx y hy
          · rw [List.mem_singleton.1 hx]
            exact hr y hy

/-! ### EXIT (R60, R173) -/

theorem execExit_eq {s : State} {g : Bool} {t : State}
    (h : ({ word := wordN 0x15 g, guard := g, cls := .control, ok := s.w.tlevel == 0, tx := false
            scals := exitScals s (s.w.active g) } : Gate).run exitLanes s = .next t) : exec (.exit g) s = .next (afterExit t) := by
  show execExit g s = _
  rw [execExit, h]

/-- What EXIT does in the lanes left, once every CALL record that holds them can be read. -/
theorem exitLanes_gives {s : State} {act : Mask} (h0 : act ≠ 0) :
    let quiet : Prop := s.w.irrTx act = 0 ∨ (s.w.allPerformed = true ∧ s.tileBusy = false)
    (¬quiet → exitLanes s act = .wait 3 s) ∧
    (quiet → ∀ t, leaveAll act s.w.recs s = .ok t → exitLanes s act =
      if (t.w.commitTx act).p.mask &&& ~~~act = 0 then .jump (closeGroup { t with w := { t.w.commitTx act with p := {} } })
      else .fall (closeGroup { t with w := { t.w.commitTx act with
        p := { (t.w.commitTx act).p with mask := (t.w.commitTx act).p.mask &&& ~~~act } } })) := by
  intro quiet
  have hq : (s.w.irrTx act ≠ 0 ∧ (!(s.w.allPerformed && !s.tileBusy)) = true) ↔ ¬quiet := by
    simp only [quiet, not_or, not_and, Bool.not_eq_true', Bool.and_eq_false_iff, Bool.not_eq_false']
    refine and_congr_right fun _ => ?_
    cases s.w.allPerformed <;> cases s.tileBusy <;> simp
  refine ⟨fun h => (if_neg h0).trans (if_pos (hq.2 h)), fun h t ht => ((if_neg h0).trans (if_neg fun h' => hq.1 h' h)).trans ?_⟩
  rw [show exitRecs act s = .ok t from ht]

/-- Settles O10. -/
theorem exitCompletes : Obligations.ExitCompletes := by
  intro s g w act
  refine ⟨fun h => execExit_eq (Gate.run_off _ _ _ rfl h), fun hc hl => execExit_eq ?_, ?_, ?_⟩
  · refine run_of_check hc.lanes (check_eq_some_of_illegal ?_)
    simp [Gate.legal, hl]
  · intro hc hl tx s0 left quiet
    have hok : (s.w.tlevel == 0) = true := by simpa using hl
    have hrun := run_dropping (gt := { word := wordN 0x15 g, guard := g, cls := .control, ok := s.w.tlevel == 0, tx := false
                                       scals := exitScals s (s.w.active g) }) (body := exitLanes) hc rfl hok rfl rfl rfl rfl rfl rfl
    have hsame : s0.w.allPerformed = s.w.allPerformed ∧ s0.tileBusy = s.tileBusy := by
      show (if tx = 0 then s else { s with w := s.w.abort tx 10 0 }).w.allPerformed = _ ∧
        (if tx = 0 then s else { s with w := s.w.abort tx 10 0 }).tileBusy = _
      split <;> exact ⟨rfl, rfl⟩
    refine ⟨fun h => execExit_eq (hrun.trans (congrArg _ (if_pos h))), fun h hq => ?_, fun h hq t ht => ?_⟩
    all_goals obtain ⟨h1, h2⟩ := exitLanes_gives (s := s0) h
    all_goals rw [hsame.1, hsame.2] at h1 h2
    · exact execExit_eq (hrun.trans (congrArg _ ((if_neg h).trans (h1 hq))))
    · refine execExit_eq (hrun.trans ((congrArg _ ((if_neg h).trans (h2 hq t ht))).trans ?_))
      split <;> rfl
  · intro hc hl hg htx m leaves
    have hact0 : s.w.activeTx act = 0 := by
      rw [Warp.activeTx, txMask_none htx (by decide)]
      simp
    have hirr : s.w.irrTx act = 0 := by
      rw [Warp.irrTx, txMask_none htx (by decide)]
      simp
    have hok : (s.w.tlevel == 0) = true := by simpa using hl
    have hgen : ∀ t, leaveAll act s.w.recs s = .ok t → exec (.exit g) s = .next (leaves t) := by
      intro t ht
      have hrun := Gate.run_clear { word := wordN 0x15 g, guard := g, cls := .control, ok := s.w.tlevel == 0, tx := false
                                    scals := exitScals s (s.w.active g) } exitLanes s hc hok rfl rfl rfl (fun h => nomatch h)
        (fun h => nomatch h) (.inr hact0)
      have hkeep : t.w.tx = s.w.tx ∧ t.w.group = s.w.group ∧ t.w.p = s.w.p := by
        obtain ⟨sc, rs, f, rfl⟩ := leaveAll_keeps _ _ _ ht
        exact ⟨rfl, rfl, rfl⟩
      obtain ⟨htx', hg', hp⟩ := hkeep
      rw [← htx'] at htx
      rw [hg] at hg'
      refine execExit_eq (hrun.trans ((congrArg _ ((exitLanes_gives hc.lanes).2 (.inl hirr) t ht)).trans ?_))
      rw [commitTx_none htx, closeGroup_none (by exact hg'), closeGroup_none (by exact hg'), hp]
      show _ = Host.Outcome.next (if m = 0 then _ else _)
      split <;> rfl
    refine ⟨hgen, fun hmem hpair => hgen _ ?_, fun h => hgen s (leaveAll_skip _ h)⟩
    rw [leaveAll_ring s.w.recs [] s rfl hmem hpair (fun x hx => nomatch hx), foldl_restoreScal]
    rfl

end Sys2Proof.Proofs
end

section
/-! SUPPORT. The CSR instructions, TRAP, BRK and RETT (R339, R343, R344, R347, R350). -/

namespace Sys2Proof.Proofs
open Sys2Proof Sys2Proof.Machine

/-! ### Instructions that a path lacks the privilege for (R338, R344) -/

section
variable {gt : Gate} {s : State}

/-- An instruction whose demands are met passes the checks of legality and alignment where its own rules hold. -/
theorem check_of_clear (hc : Clear s gt.demand) (hok : gt.ok = true) : gt.check s.w (s.w.active gt.guard) = none := by
  have hleg : gt.legal s.w = true := by
    simp only [Gate.legal, hok, Bool.true_and, List.all_eq_true, Bool.and_eq_true]
    refine ⟨?_, hc.regs⟩
    rcases hc.entered with h | ⟨h, hf, hd⟩
    · simp [h, Gate.demand]
    · have h : gt.isEnter = true := h
      simp [h, hf, hd]
  simp only [Gate.check, hleg]
  by_cases hl : gt.len = 8
  · have h4 : s.w.p.pc[2] = false := by simpa using hc.aligned hl
    simp [hl, h4]
  · simp [hl]

/-- Where no lane is ACTIVE an instruction goes on in all its lanes, whether or not it is performed in ACTIVE lanes. -/
theorem left_of_noTx (htx : gt.tx = true ∨ NoTx s gt.guard) :
    gt.left s.w (s.w.active gt.guard) = s.w.active gt.guard ∧ gt.dropTx s (s.w.active gt.guard) = s := by
  rcases htx with h | h
  · simp [Gate.left, Gate.dropTx, h]
  · have h0 : s.w.activeTx (s.w.active gt.guard) = 0 := h
    have hn : s.w.active gt.guard &&& ~~~(0 : Mask) = s.w.active gt.guard := by
      rw [show ~~~(0 : Mask) = BitVec.allOnes 32 from BitVec.not_zero, BitVec.and_allOnes]
    exact ⟨by rw [Gate.left, h0, hn, ite_self], by simp [Gate.dropTx, h0]⟩

/-- An instruction that its path has no privilege for traps with PRIV. -/
theorem run_of_priv {body : State → Mask → Res} (hc : Clear s gt.demand) (hok : gt.ok = true) (heng : gt.engine = true)
    (hpriv : gt.priv = false) (htx : gt.tx = true ∨ NoTx s gt.guard) :
    gt.run body s = .next (raise (trapOf 0x17 gt.word (s.w.active gt.guard) (gt.len == 8)) s) := by
  have h0 : s.w.active gt.guard ≠ 0 := hc.lanes
  have hact : (gt.guard && s.w.active gt.guard == 0) = false := by rw [beq_eq_false_iff_ne.mpr h0, Bool.and_false]
  obtain ⟨hl, hd⟩ := left_of_noTx htx
  have hrole : s.w.tlevel = 0 → s.w.role.may gt.cls = true := hc.role
  have hr : gt.rights s.w (s.w.active gt.guard) = gt.trap 0x17 gt.word (s.w.active gt.guard) := by
    rw [Gate.rights, if_neg h0]
    by_cases ht : s.w.tlevel = 0
    · simp [heng, hpriv, ht, hrole ht]
    · simp [heng, hpriv, ht]
  simp only [Gate.run, hact, check_of_clear hc hok, hl, hd, hr, Gate.trap]
  rfl

end

/-! ### The CSR instructions (R347, R350) -/

theorem tmodeBad_iff (x : W64) : tmodeBad x = true ↔ 5 ≤ bits x 16 14 ∨ bits x 31 21 ≠ 0 := by
  simp [tmodeBad]

/-- CSRW, CSRS and CSRC trap without the privilege, and otherwise write the register or trap on a value that TMODE may not hold. -/
theorem csrStore_gives {s : State} {fn : BitVec 3} {d : BitVec 6} {csr : BitVec 12} {f : W64 → W64 → W64} {v : W64}
    {o : Host.Outcome State Fault Refusal} (e : o = csrStore fn d csr f s)
    (hc : Clear s { cls := .control, scals := [d.toNat], uses := [useS d] }) (htx : NoTx s false)
    (hv : f (readCsr s csr.toNat) (s.w.sr d.toNat).bits = v) :
    (csrPriv s.w csr.toNat true = false → o =
      .next (raise (trapOf 0x17 (wordL 0x76 d fn (csr.zeroExtend 16)) (s.w.active false) false) s)) ∧
    (csrPriv s.w csr.toNat true = true → o =
      if (csr.toNat = 0x114 ∨ csr.toNat = 0x124) ∧ (5 ≤ bits v 16 14 ∨ bits v 31 21 ≠ 0)
      then .next (raise (trapOf 0x01 v (s.w.active false) false) s)
      else .next (fell 4 (writeCsr csr.toNat v s))) := by
  subst hv e
  refine ⟨fun hp => ?_, fun hp => ?_⟩
  · unfold csrStore
    exact run_of_priv (gt := { word := wordL 0x76 d fn (csr.zeroExtend 16), cls := .control, priv := csrPriv s.w csr.toNat true
                               scals := [d.toNat], uses := [useS d], tx := false }) hc rfl rfl hp (.inr htx)
  · refine (gate_clear (o := csrStore fn d csr f s)
      (gt := { word := wordL 0x76 d fn (csr.zeroExtend 16), cls := .control, priv := csrPriv s.w csr.toNat true
               scals := [d.toNat], uses := [useS d], tx := false })
      rfl hc rfl hp rfl rfl (fun h => nomatch h) (fun h => nomatch h) (.inr htx) rfl).trans ?_
    dsimp only
    simp only [tmodeBad_iff]
    split <;> rfl

/-- The read-only registers of the warp keep their values. -/
theorem writeCsr_readOnly (x : W64) (s : State) {r : Nat}
    (h : r ∈ [0x000, 0x001, 0x00B, 0x010, 0x012, 0x013, 0x014, 0x100, 0x104, 0x105]) : writeCsr r x s = s := by
  simp only [List.mem_cons, List.not_mem_nil, or_false] at h
  obtain rfl | rfl | rfl | rfl | rfl | rfl | rfl | rfl | rfl | rfl := h <;> rfl

/-- Settles O38. -/
theorem controlRegistersComplete : Obligations.ControlRegistersComplete := by
  intro s d csr w n x word
  refine ⟨fun hc => ⟨fun hp => ?_, fun hp => ?_⟩, fun hc htx => ?_, ⟨rfl, rfl, rfl, rfl, rfl, rfl, rfl⟩, rfl, rfl, rfl, rfl, rfl, rfl, rfl,
    fun r hr => writeCsr_readOnly x s hr⟩
  · have h := gate_clear (o := execCsrr d csr s)
      (gt := { word := wordL 0x76 d 0 (csr.zeroExtend 16), cls := .control, priv := csrPriv s.w csr.toNat false
               scals := [d.toNat] })
      rfl hc rfl hp rfl rfl (fun h => nomatch h) (fun h => nomatch h) (.inl rfl) rfl
    exact h
  · have h := run_of_priv (gt := { word := wordL 0x76 d 0 (csr.zeroExtend 16), cls := .control, priv := csrPriv s.w csr.toNat false
                                   scals := [d.toNat] })
      (body := fun s _ => .fall { s with w := s.w.setS d.toNat (readCsr s csr.toNat) false }) hc rfl rfl hp (.inl rfl)
    exact h
  · have hw := csrStore_gives (o := execCsrw d csr s) rfl hc htx rfl
    have hs := csrStore_gives (o := execCsrs d csr s) rfl hc htx rfl
    have hcl := csrStore_gives (o := execCsrc d csr s) rfl hc htx rfl
    exact ⟨hw, hs, hcl⟩

/-! ### TRAP, BRK and RETT (R339, R343, R344) -/

/-- RETT is illegal beside another path, above records that its handler has left, and at another depth than the handler's. -/
theorem returnTrap_illegal {s : State} {act : Mask}
    (h : s.w.q.held = true ∨ s.w.fsrp ≠ (s.w.bank s.w.tlevel).mark ∨ s.w.p.fdepth ≠ (s.w.bank s.w.tlevel).depth) :
    returnTrap s act = trapAct 0x01 0xF0000000#64 act s := by
  unfold returnTrap
  dsimp only
  refine if_pos ?_
  simp only [Bool.or_eq_true, decide_eq_true_eq]
  exact .inl (or_assoc.2 h)

/-- Elsewhere it restores the path of the bank once the window of that path is ready. -/
theorem returnTrap_restores {s : State} {act : Mask} (hq : s.w.q.held = false) (hm : s.w.fsrp = (s.w.bank s.w.tlevel).mark)
    (hd : s.w.p.fdepth = (s.w.bank s.w.tlevel).depth) (he : s.w.p.enter = false) :
    returnTrap s act =
      withSpan s act { s.w with
        p := if (s.w.bank s.w.tlevel).skip then (restoredPath (s.w.bank s.w.tlevel)).fall (if (s.w.bank s.w.tlevel).lit then 8 else 4)
          else restoredPath (s.w.bank s.w.tlevel)
        tlevel := s.w.tlevel - 1 } .jump := by
  unfold returnTrap
  dsimp only
  refine if_neg ?_
  simp [hq, hm, hd, he]

/-- Settles O39. -/
theorem trapsAndReturnComplete : Obligations.TrapsAndReturnComplete := by
  intro s imm w act soft hc
  refine ⟨?_, ?_, fun ht => ?_, fun ht => ?_⟩
  · have h := plain_run (o := execTrap imm s) (gt := { word := wordL 0x77 0 0 imm, cls := .control }) rfl ⟨rfl, rfl, rfl, rfl, rfl, rfl, rfl⟩ hc
    exact h
  · have h := plain_run (o := execBrk imm s) (gt := { word := wordL 0x77 0 1 imm, cls := .control }) rfl ⟨rfl, rfl, rfl, rfl, rfl, rfl, rfl⟩ hc
    exact h
  · have h := run_of_priv (gt := { word := wordN 0x78 false, cls := .control, priv := s.w.tlevel != 0 }) (body := returnTrap)
      hc rfl rfl (by simpa using ht) (.inl rfl)
    exact h
  intro b p t
  have hp : (s.w.tlevel != 0) = true := by simpa using ht
  have hrun := gate_clear (o := execRett s) (gt := { word := wordN 0x78 false, cls := .control, priv := s.w.tlevel != 0 })
    rfl hc rfl hp rfl rfl (fun h => nomatch h) (fun h => nomatch h) (.inl rfl) rfl
  refine ⟨fun hq hm hd hn hpk => (show exec .rett s = _ from hrun).trans ?_, fun h => (show exec .rett s = _ from hrun).trans ?_⟩
  · have he : s.w.p.enter = false := hc.entered.resolve_right (fun h => nomatch h.1)
    rw [returnTrap_restores hq hm hd he]
    have hr : t.parkOther.need t.parkOther.span t.parkOther.p.window = .ready := by rw [hpk]; exact hn
    have h := withSpan_ready (s := s) (act := s.w.active false) (k := .jump) hr
    rw [hpk] at h
    exact congrArg _ h
  · rw [returnTrap_illegal h]
    rfl

end Sys2Proof.Proofs
end

section
/-! SUPPORT. Elements packed into bytes (R268), and what a transaction lane reads through its logs (R246). -/

namespace Sys2Proof.Proofs
open Sys2Proof Sys2Proof.Machine

/-! ### Elements of memory bytes (R268) -/

theorem leBytes_length : ∀ n v : Nat, (leBytes n v).length = n
  | 0, _ => rfl
  | n + 1, v => by rw [leBytes, List.length_cons, leBytes_length n]

theorem ofLe_leBytes : ∀ n v : Nat, v < 256 ^ n → ofLe (leBytes n v) = v
  | 0, v, h => by simp at h; rw [h]; rfl
  | n + 1, v, h => by
    have h1 : v / 256 < 256 ^ n := by rw [Nat.div_lt_iff_lt_mul (by decide), ← Nat.pow_succ]; exact h
    rw [leBytes, ofLe, ofLe_leBytes n _ h1, BitVec.toNat_ofNat]
    omega

/-- Block `q` of blocks of `g` bytes each is the one that element `q` gives. -/
theorem take_drop_flatMap {α β : Type} (f : α → List β) (g : Nat) : ∀ (L : List α), (∀ a ∈ L, (f a).length = g) →
    ∀ (q : Nat) (hq : q < L.length), ((L.flatMap f).drop (q * g)).take g = f L[q]
  | [], _, q, hq => absurd hq (Nat.not_lt_zero q)
  | a :: L, h, 0, _ => by
    rw [List.flatMap_cons, Nat.zero_mul, List.drop_zero]
    exact List.take_left' (h a (List.mem_cons_self ..))
  | a :: L, h, q + 1, hq => by
    have ha : (f a).length = g := h a (List.mem_cons_self ..)
    have hs : (q + 1) * g = (f a).length + q * g := by rw [ha, Nat.succ_mul, Nat.add_comm]
    rw [List.flatMap_cons, hs, List.drop_length_add_append]
    exact take_drop_flatMap f g L (fun b hb => h b (List.mem_cons_of_mem _ hb)) q (Nat.lt_of_succ_lt_succ hq)

/-- The number whose digits in base `2^b` are some elements. -/
def ofDigits (b : Nat) (xs : List Nat) : Nat := xs.foldr (fun x acc => x + 2 ^ b * acc) 0

theorem ofDigits_cons (b x : Nat) (xs : List Nat) : ofDigits b (x :: xs) = x + 2 ^ b * ofDigits b xs := rfl

theorem ofDigits_div (b : Nat) {x : Nat} (hx : x < 2 ^ b) (xs : List Nat) : ofDigits b (x :: xs) / 2 ^ b = ofDigits b xs := by
  rw [ofDigits_cons, Nat.add_mul_div_left _ _ (Nat.two_pow_pos b), Nat.div_eq_of_lt hx, Nat.zero_add]

theorem ofDigits_digit (b : Nat) : ∀ (xs : List Nat) (r : Nat), (∀ x ∈ xs, x < 2 ^ b) →
    ofDigits b xs / 2 ^ (b * r) % 2 ^ b = xs.getD r 0
  | [], r, _ => by simp [ofDigits]
  | x :: xs, 0, h => by
    have hx : x < 2 ^ b := h x (List.mem_cons_self ..)
    rw [Nat.mul_zero, Nat.pow_zero, Nat.div_one, ofDigits_cons, Nat.add_mul_mod_self_left, Nat.mod_eq_of_lt hx, List.getD_cons_zero]
  | x :: xs, r + 1, h => by
    have hx : x < 2 ^ b := h x (List.mem_cons_self ..)
    have hp : 2 ^ (b * (r + 1)) = 2 ^ b * 2 ^ (b * r) := by rw [← Nat.pow_add, Nat.mul_succ, Nat.add_comm]
    rw [hp, ← Nat.div_div_eq_div_mul, ofDigits_div b hx, List.getD_cons_succ]
    exact ofDigits_digit b xs r (fun y hy => h y (List.mem_cons_of_mem _ hy))

theorem ofDigits_lt (b : Nat) : ∀ (xs : List Nat), (∀ x ∈ xs, x < 2 ^ b) → ofDigits b xs < 2 ^ (b * xs.length)
  | [], _ => Nat.two_pow_pos _
  | x :: xs, h => by
    have ih := ofDigits_lt b xs (fun y hy => h y (List.mem_cons_of_mem _ hy))
    rw [List.length_cons, Nat.mul_succ, Nat.pow_add]
    refine (Nat.div_lt_iff_lt_mul (Nat.two_pow_pos b)).1 ?_
    rw [ofDigits_div b (h x (List.mem_cons_self ..))]
    exact ih

/-- The bytes of a group of packed elements, and the elements in it (R268). -/
def groupBytes (b : Nat) : Nat := if b = 6 then 3 else if b < 8 then 1 else b / 8

/-- A group of elements fills its bytes, and a packing unit holds whole groups. -/
theorem group_fits {ty : Nat} (h : typeBits ty ∈ [4, 6, 8, 16, 32, 64]) :
    typeBits ty * (groupBytes (typeBits ty) * 8 / typeBits ty) = 8 * groupBytes (typeBits ty) ∧
      0 < groupBytes (typeBits ty) * 8 / typeBits ty ∧ groupBytes (typeBits ty) * 8 / typeBits ty ∣ packUnit ty := by
  by_cases hty : ty < 32
  · have hall : ∀ t < 32, typeBits t ∈ [4, 6, 8, 16, 32, 64] →
        typeBits t * (groupBytes (typeBits t) * 8 / typeBits t) = 8 * groupBytes (typeBits t) ∧
          0 < groupBytes (typeBits t) * 8 / typeBits t ∧ groupBytes (typeBits t) * 8 / typeBits t ∣ packUnit t := by decide
    exact hall ty hty h
  · obtain ⟨n, rfl⟩ : ∃ n, ty = n + 32 := ⟨ty - 32, by omega⟩
    rw [show typeBits (n + 32) = 32 from rfl, show groupBytes 32 * 8 / 32 = 1 from rfl]
    exact ⟨rfl, Nat.one_pos, Nat.one_dvd _⟩

theorem packElems_eq (ty : Nat) (xs : List Nat) :
    packElems ty xs = (List.range (xs.length / (groupBytes (typeBits ty) * 8 / typeBits ty))).flatMap (fun q =>
      leBytes (groupBytes (typeBits ty)) (ofDigits (typeBits ty)
        ((xs.drop (groupBytes (typeBits ty) * 8 / typeBits ty * q)).take (groupBytes (typeBits ty) * 8 / typeBits ty)))) := rfl

theorem elemAt_eq (ty : Nat) (bs : List Byte) (i : Nat) :
    elemAt ty bs i = ofLe ((bs.drop (i / (groupBytes (typeBits ty) * 8 / typeBits ty) * groupBytes (typeBits ty))).take
      (groupBytes (typeBits ty))) / 2 ^ (typeBits ty * (i % (groupBytes (typeBits ty) * 8 / typeBits ty))) % 2 ^ typeBits ty := rfl

/-- Settles O35: the element's group is found among the bytes, and the element among the digits of its group. -/
theorem elementPackingRoundTrip : Obligations.ElementPackingRoundTrip := by
  intro ty xs i hb hlen hx hi
  obtain ⟨hfit, hper0, hdvd⟩ := group_fits hb
  rw [elemAt_eq, packElems_eq]
  generalize groupBytes (typeBits ty) * 8 / typeBits ty = per at *
  generalize groupBytes (typeBits ty) = g at *
  generalize typeBits ty = b at *
  obtain ⟨m, hm⟩ : per ∣ xs.length := Nat.dvd_trans hdvd (Nat.dvd_of_mod_eq_zero hlen)
  have hq : i / per < (List.range (xs.length / per)).length := by
    rw [List.length_range, hm, Nat.mul_div_cancel_left _ hper0, Nat.div_lt_iff_lt_mul hper0, Nat.mul_comm m, ← hm]
    exact hi
  have hlt : ∀ x ∈ (xs.drop (per * (i / per))).take per, x < 2 ^ b := fun x hxm => hx x (List.mem_of_mem_drop (List.mem_of_mem_take hxm))
  rw [take_drop_flatMap _ g _ (fun q _ => leBytes_length ..) _ hq, List.getElem_range]
  have hbound : ofDigits b ((xs.drop (per * (i / per))).take per) < 256 ^ g := by
    refine Nat.lt_of_lt_of_le (ofDigits_lt b _ hlt) ?_
    rw [show 256 = 2 ^ 8 from rfl, ← Nat.pow_mul, ← hfit]
    exact Nat.pow_le_pow_right (by decide) (Nat.mul_le_mul_left _ (List.length_take_le ..))
  rw [ofLe_leBytes _ _ hbound, ofDigits_digit _ _ _ hlt]
  have hr : i % per < per := Nat.mod_lt _ hper0
  rw [List.getD_eq_getElem?_getD, List.getD_eq_getElem?_getD, List.getElem?_take_of_lt hr, List.getElem?_drop, Nat.div_add_mod]

/-! ### What a lane reads through its logs (R246) -/

/-- A fold that sets bits sets those of each of its steps. -/
theorem foldl_or_getLsbD {n : Nat} (c : Nat → Bool) (f : Nat → BitVec n) (j : Nat) : ∀ (ls : List Nat) (x : BitVec n),
    (ls.foldl (fun x i => if c i then x ||| f i else x) x).getLsbD j = (x.getLsbD j || ls.any (fun i => c i && (f i).getLsbD j))
  | [], x => by simp
  | i :: ls, x => by
    rw [List.foldl_cons, foldl_or_getLsbD c f j ls, List.any_cons]
    cases c i
    · simp
    · simp [Bool.or_assoc]

/-- The byte mask's bits cover the bits of its bytes. -/
theorem bitMask_getLsbD (m : BitVec 8) {j : Nat} (hj : j < 64) : (bitMask m).getLsbD j = m.getLsbD (j / 8) := by
  have hb : ∀ i, (w64 (255 * 2 ^ (8 * i))).getLsbD j = decide (8 * i ≤ j ∧ j - 8 * i < 8) := by
    intro i
    rw [w64, BitVec.getLsbD_ofNat, Nat.testBit_mul_two_pow, show 255 = 2 ^ 8 - 1 from rfl, Nat.testBit_two_pow_sub_one]
    simp [hj]
  rw [bitMask, foldl_or_getLsbD (fun i => m.getLsbD i)]
  rw [show BitVec.getLsbD (0 : W64) j = false from BitVec.getLsbD_zero, Bool.false_or, Bool.eq_iff_iff, List.any_eq_true]
  simp only [hb, Bool.and_eq_true, decide_eq_true_eq, List.mem_range]
  constructor
  · rintro ⟨i, -, hm, h1, h2⟩
    rwa [show j / 8 = i by omega]
  · intro hm
    exact ⟨j / 8, by omega, hm, by omega, by omega⟩

theorem byteMask_getLsbD (k size : Nat) {i : Nat} (hi : i < 8) :
    (byteMask k size).getLsbD i = decide (k % 8 ≤ i ∧ i - k % 8 < size) := by
  rw [byteMask, BitVec.getLsbD_ofNat, Nat.testBit_mul_two_pow, Nat.testBit_two_pow_sub_one]
  simp [hi]

theorem subWord_getLsbD (x : W64) (k size : Nat) {j : Nat} (hj : j < 64) :
    (subWord x k size).getLsbD j = (decide (j < 8 * size) && x.getLsbD (8 * (k % 8) + j)) := by
  rw [subWord, w64, BitVec.getLsbD_ofNat, Nat.testBit_mod_two_pow, Nat.testBit_div_two_pow, BitVec.getLsbD]
  simp [hj, Nat.add_comm]

/-- The bytes of a merged write lie in its entry, and read as they were written. -/
theorem seen_mergeEntry {e : LogEntry} {k size : Nat} {v base : W64} {bad bb : Bool}
    (hfit : k % 8 + size ≤ 8) :
    byteMask k size &&& ~~~(mergeEntry e k size v bad).bytes = 0 ∧
    (seen (mergeEntry e k size v bad) base bb k size).1 = BitVec.ofNat 64 (v.toNat % 2 ^ (8 * size)) := by
  refine ⟨?_, ?_⟩
  · apply BitVec.eq_of_getLsbD_eq
    intro i hi
    simp only [mergeEntry, BitVec.getLsbD_and, BitVec.getLsbD_not, BitVec.getLsbD_or, hi]
    cases (byteMask k size).getLsbD i <;> simp
  · apply BitVec.eq_of_getLsbD_eq
    intro j hj
    rw [seen, subWord_getLsbD _ _ _ hj, BitVec.getLsbD_ofNat, Nat.testBit_mod_two_pow]
    by_cases hs : j < 8 * size
    · have h64 : 8 * (k % 8) + j < 64 := by omega
      have hb : (byteMask k size).getLsbD ((8 * (k % 8) + j) / 8) = true := by
        rw [byteMask_getLsbD _ _ (by omega), decide_eq_true_eq]
        omega
      have hlt : ¬ 8 * (k % 8) + j < 8 * (k % 8) := by omega
      simp only [mergeEntry, BitVec.getLsbD_or, BitVec.getLsbD_and, BitVec.getLsbD_not, bitMask_getLsbD _ h64, hb,
        BitVec.getLsbD_shiftLeft, h64, hlt, Nat.add_sub_cancel_left]
      simp [hs, hj, BitVec.getLsbD]
    · simp [hs]

/-- The first entry that a predicate holds of is the one updated. -/
theorem find?_updFirst {α : Type} {p : α → Bool} {f : α → α} (hf : ∀ a, p (f a) = p a) :
    ∀ xs : List α, (updFirst p f xs).find? p = (xs.find? p).map f
  | [] => rfl
  | x :: xs => by
    rw [updFirst]
    split
    · next h => rw [List.find?_cons_of_pos (by rw [hf]; exact h), List.find?_cons_of_pos h]; rfl
    · next h => rw [List.find?_cons_of_neg h, List.find?_cons_of_neg h, find?_updFirst hf xs]

/-- A write that does not abort its lane leaves an entry of its word in the write log, with the write merged in. -/
theorem logWrite_logs {s t : State} {l size : Nat} {p : Pass} {v : W64} {bad : Bool} (h : logWrite l size p v bad s = (t, true)) :
    t.mem = s.mem ∧ ∃ e, logAt (t.w.txl l).wlog (wordKey p.key) = some (mergeEntry e p.key size v bad) := by
  unfold logWrite at h
  dsimp only at h
  split at h
  · next e he =>
    obtain ⟨rfl, -⟩ := Prod.mk.inj h
    refine ⟨rfl, e, ?_⟩
    have hu := find?_updFirst (p := fun e : LogEntry => e.key == wordKey p.key) (f := fun e => mergeEntry e p.key size v bad)
      (fun _ => rfl) (s.w.txl l).wlog
    rw [show (s.w.txl l).wlog.find? _ = some e from he] at hu
    simpa [Warp.txl, logAt] using hu
  · next he =>
    split at h
    · exact absurd (Prod.mk.inj h).2 (by decide)
    · obtain ⟨rfl, -⟩ := Prod.mk.inj h
      refine ⟨rfl, { key := wordKey p.key }, ?_⟩
      have hn : (s.w.txl l).wlog.find? (fun e => e.key == wordKey p.key) = none := he
      have hk : (mergeEntry { key := wordKey p.key } p.key size v bad).key == wordKey p.key := beq_self_eq_true _
      simp only [Warp.txl] at hn
      simp only [Warp.txl, logAt, Warp.setTxl_tx, look_put_self, List.find?_append, hn, Option.none_or]
      exact List.find?_cons_of_pos hk

/-- Settles O31. -/
theorem transactionReadsItsOwnWrite : Obligations.TransactionReadsItsOwnWrite := by
  intro s t l size p v hl hsize hal hw
  obtain ⟨hmem, e, he⟩ := logWrite_logs hw
  have hfit : p.key % 8 + size ≤ 8 := by
    rcases hsize with rfl | rfl | rfl | rfl <;> omega
  obtain ⟨hall, hval⟩ := seen_mergeEntry (e := e) (v := v) (base := 0) (bad := false) (bb := false) hfit
  refine ⟨hmem, (seen (mergeEntry e p.key size v false) 0 false p.key size).2, ?_⟩
  rw [logRead, he]
  refine (if_pos hall).trans ?_
  rw [← hval]
  rfl

end Sys2Proof.Proofs
end

section
/-! SUPPORT. Taking a trap (R248, R300, R336 to R339, R345, R363). -/

namespace Sys2Proof.Proofs
open Sys2Proof Sys2Proof.Machine

/-! ### What an entry does beside the warp's own state (R300, R363) -/

/-- What the conditions of KIND 5 look at is the same in two states (R363). -/
def SameTriggers (s t : State) : Prop :=
  t.clusters = s.clusters ∧ t.w.cluster = s.w.cluster ∧ t.w.ctx = s.w.ctx

theorem sameTriggers_giveGrant {s u : State} (wid : Nat) (g : Grant) (h : SameTriggers s u) : SameTriggers s (giveGrant wid g u) := by
  unfold giveGrant State.modWarp
  split <;> exact h

theorem sameTriggers_giveGrants {s : State} {α : Type} (f : α → Nat) (g : Grant) :
    ∀ (xs : List α) (t : State), SameTriggers s t → SameTriggers s (xs.foldl (fun t x => giveGrant (f x) g t) t)
  | [], _, h => h
  | x :: xs, t, h => sameTriggers_giveGrants f g xs _ (sameTriggers_giveGrant (f x) g h)

theorem pairEvent_alone {wg tval : Nat} {s : State} (h : partnerOf s wg = none) : pairEvent wg tval s = s := by
  rw [pairEvent, h]

theorem pairEvent_partner {wg tval p : Nat} {s : State} (h : partnerOf s wg = some p) :
    pairEvent wg tval s =
      (s.wg p).pairWait.foldl (fun s x => giveGrant x.wid (.trap 0x0F (w64 tval)) s) (s.setWg p { s.wg p with pairWait := [] }) := by
  rw [pairEvent, h]

/-- An entry's conditions of KIND 5 are those that the cluster had before it. -/
theorem trigEntry_of_same {s t : State} (cause : Nat) (h : SameTriggers s t) :
    trigEntry cause t = if sampled (s.cluster s.w.cluster) s.w.ctx then
      t.setCluster s.w.cluster { s.cluster s.w.cluster with
        nextStart := (s.cluster s.w.cluster).nextStart || trigIs (s.cluster s.w.cluster).trigstart 5 cause 8
        nextStop := (s.cluster s.w.cluster).nextStop || trigIs (s.cluster s.w.cluster).trigstop 5 cause 8 } else t := by
  obtain ⟨hc, hw, hx⟩ := h
  have hk : t.cluster t.w.cluster = s.cluster s.w.cluster := by rw [State.cluster, State.cluster, hc, hw]
  simp only [trigEntry, hk, hx]
  rw [hw]

/-! ### The outcomes of an attempted entry (R339) -/

section
variable {s : State} {t : TrapInfo}

/-- With room, the entry enters once the FSE has made its window ready, reports a failed access as a FRAME_FAULT, and waits otherwise. -/
theorem enterTrap_room (hp : s.w.pend = some t) (hl : s.w.tlevel < 2) (hv : s.w.tvec ≠ 0)
    (hr : (s.w.entered (s.w.tlevel + 1) t).resvOk (s.w.entered (s.w.tlevel + 1) t).entryResv = true) :
    let n := s.w.tlevel + 1
    let e := s.w.entered n t
    let r := e.entryResv
    let enters (cause : Nat) (v : Warp) : State := trigEntry cause (pairEvent s.w.wg 0 { s with w := v.recordHwm r })
    (e.need e.span e.p.window = .ready → enterTrap s = enters t.cause e) ∧
    (∀ a, e.need e.span e.p.window = .failed a →
      (t.cause = 0x0C → enterTrap s = enters 0x0C e) ∧
      (t.cause ≠ 0x0C → enterTrap s =
        enters 0x0C ((s.w.entered n { t with cause := 0x0C, tval := a, lanes := t.act, arg := 0 }).clearFail a))) ∧
    (e.need e.span e.p.window = .stall ∨ e.need e.span e.p.window = .parked → enterTrap s = s) := by
  have h3 : ¬ s.w.tlevel + 1 = 3 := by omega
  have hb : ¬ (!(s.w.entered (s.w.tlevel + 1) t).resvOk (s.w.entered (s.w.tlevel + 1) t).entryResv) = true := by
    rw [hr]
    decide
  unfold enterTrap
  rw [hp]
  dsimp only
  rw [if_neg h3, if_neg hv, if_neg hb]
  refine ⟨fun h => ?_, fun a h => ⟨fun hc => ?_, fun hc => ?_⟩, fun h => ?_⟩
  · rw [h]
  · rw [h]
    exact if_pos hc
  · rw [h]
    exact if_neg hc
  · obtain h | h := h <;> rw [h]

theorem enterTrap_kills (hp : s.w.pend = some t) :
    (s.w.tlevel = 2 → enterTrap s = killFor 0 t.cause t.tval t.lanes s) ∧
    (s.w.tlevel < 2 → s.w.tvec = 0 → enterTrap s = killFor 1 t.cause t.tval t.lanes s) ∧
    (s.w.tlevel < 2 → s.w.tvec ≠ 0 →
      (s.w.entered (s.w.tlevel + 1) t).resvOk (s.w.entered (s.w.tlevel + 1) t).entryResv = false →
      enterTrap s = killFor 2 0x0B (w64 (s.w.entered (s.w.tlevel + 1) t).entryResv) t.lanes s) := by
  unfold enterTrap
  rw [hp]
  dsimp only
  refine ⟨fun h => if_pos (by omega), fun h hv => ?_, fun h hv hr => ?_⟩
  · rw [if_neg (by omega : ¬ s.w.tlevel + 1 = 3), if_pos hv]
  · rw [if_neg (by omega : ¬ s.w.tlevel + 1 = 3), if_neg hv, if_pos (by rw [hr]; rfl)]

end

/-! ### The warp that has entered -/

theorem bank_setBank {w : Warp} {n : Nat} {b : Bank} (h : n = 1 ∨ n = 2) :
    (w.setBank n b).bank n = b ∧ (n = 2 → (w.setBank n b).bank 1 = w.bank 1) ∧ (n = 1 → (w.setBank n b).bank 2 = w.bank 2) := by
  obtain rfl | rfl := h
  · exact ⟨rfl, fun h => absurd h (by decide), fun _ => rfl⟩
  · exact ⟨rfl, fun _ => rfl, fun h => absurd h (by decide)⟩

/-- Where every key of a number is dropped from a list, it reads as the default. -/
theorem look_filter_out {α : Type} {d : α} {p : Nat × α → Bool} {k : Nat} (h : ∀ a, p (k, a) = false) :
    ∀ m : List (Nat × α), look d (m.filter p) k = d
  | [] => rfl
  | (i, a) :: m => by
    by_cases hi : i = k
    · subst hi
      rw [List.filter_cons_of_neg (by rw [h]; decide)]
      exact look_filter_out h m
    · rw [List.filter_cons]
      split
      · rw [look, if_neg (Ne.symm hi)]
        exact look_filter_out h m
      · exact look_filter_out h m

/-- Where no key of a number is dropped from a list, it reads as before. -/
theorem look_filter_in {α : Type} {d : α} {p : Nat × α → Bool} {k : Nat} (h : ∀ a, p (k, a) = true) :
    ∀ m : List (Nat × α), look d (m.filter p) k = look d m k
  | [] => rfl
  | (i, a) :: m => by
    by_cases hi : k = i
    · subst hi
      rw [List.filter_cons_of_pos (h a), look, look, if_pos rfl, if_pos rfl]
    · rw [List.filter_cons]
      split
      · rw [look, look, if_neg hi, if_neg hi]
        exact look_filter_in h m
      · rw [look, if_neg hi]
        exact look_filter_in h m

theorem zeroRegs_inside {v : List (Nat × LW)} {lo hi x l : Nat} {m : Mask} (h1 : lo ≤ x) (h2 : x < hi) (hl : m.getLsbD l = true) :
    look {} (zeroRegs v lo hi m) (32 * x + l) = {} := by
  have hlt : l < 32 := BitVec.lt_of_getLsbD hl
  refine look_filter_out (fun a => ?_) v
  have hm : (32 * x + l) % 32 = l := by omega
  simp only [hm, hl, Bool.and_true, Bool.not_eq_false', Bool.and_eq_true, decide_eq_true_eq]
  omega

theorem zeroRegs_below {v : List (Nat × LW)} {lo hi x l : Nat} {m : Mask} (h : x < lo) (hl : l < 32) :
    look {} (zeroRegs v lo hi m) (32 * x + l) = look {} v (32 * x + l) := by
  refine look_filter_in (fun a => ?_) v
  have hlo : ¬ 32 * lo ≤ 32 * x + l := by omega
  simp [hlo]

theorem setBank_fields (w : Warp) (n : Nat) (b : Bank) :
    (w.setBank n b).q = w.q ∧ (w.setBank n b).recs = w.recs ∧ (w.setBank n b).fsrp = w.fsrp ∧ (w.setBank n b).s = w.s ∧
      (w.setBank n b).pr = w.pr := by
  unfold Warp.setBank
  split <;> exact ⟨rfl, rfl, rfl, rfl, rfl⟩

theorem entered_place (w : Warp) (n : Nat) (t : TrapInfo) :
    (w.entered n t).cluster = w.cluster ∧ (w.entered n t).ctx = w.ctx := by
  unfold Warp.entered Warp.setBank
  constructor
  · dsimp only
    split <;> split <;> rfl
  · dsimp only
    split <;> split <;> rfl

/-- What the warp of a handler holds beside its path and its registers. -/
theorem entered_fields (w : Warp) (n : Nat) (t : TrapInfo) :
    (w.entered n t).q = (if w.q.held then {} else w.q) ∧
    (w.entered n t).recs = (if w.q.held then { off := w.fsrp, order := w.pushes, body := .split w.q.out } :: w.recs else w.recs) ∧
    (w.entered n t).fsrp = w.fsrp + (if w.q.held then 128 else 0) ∧
    (w.entered n t).s = w.s ∧ (w.entered n t).pr = w.pr ∧
    (w.entered n t).v = zeroRegs w.v (w.p.wbase + 8 * w.p.fsize) (w.p.wbase + 8 * w.p.fsize + 8 * w.hsize) w.p.mask := by
  have hf := setBank_fields (if w.q.held then { w.pushRec (.split w.q.out) with q := {} } else w) n
    (bankOf w.p t (if w.q.held then { w.pushRec (.split w.q.out) with q := {} } else w).fsrp)
  obtain ⟨hq, hr, hs, hsc, hpr⟩ := hf
  refine ⟨hq.trans ?_, hr.trans ?_, hs.trans ?_, hsc.trans ?_, hpr.trans ?_, ?_⟩
  iterate 5
    · split <;> rfl
  show zeroRegs (if w.q.held then ({ w.pushRec (.split w.q.out) with q := {} } : Warp) else w).v _ _ _ = _
  split <;> rfl

/-- The banks of the warp that has entered level 1 or 2. -/
theorem entered_bank (w : Warp) {n : Nat} (t : TrapInfo) (h : n = 1 ∨ n = 2) :
    (w.entered n t).bank n = bankOf w.p t (w.entered n t).fsrp ∧
      (n = 2 → (w.entered n t).bank 1 = w.bank 1) ∧ (n = 1 → (w.entered n t).bank 2 = w.bank 2) := by
  obtain ⟨h1, h2, h3⟩ := bank_setBank (w := if w.q.held then { w.pushRec (.split w.q.out) with q := {} } else w)
    (b := bankOf w.p t (if w.q.held then { w.pushRec (.split w.q.out) with q := {} } else w).fsrp) h
  refine ⟨h1.trans ?_, fun hn => (h2 hn).trans ?_, fun hn => (h3 hn).trans ?_⟩
  · congr 1
    exact (setBank_fields _ _ _).2.2.1.symm
  all_goals split <;> rfl

/-- Settles O40. -/
theorem trapEntryEnters : Obligations.TrapEntryEnters := by
  intro s t w w0 n e r c meets enters killed room place
  have hraise : raise t s = enterTrap { s with w := w0 } := rfl
  have henters : ∀ (v : Warp) (cause : Nat), v.cluster = w.cluster → v.ctx = w.ctx →
      raise t s = trigEntry cause (pairEvent w.wg 0 { s with w := v.recordHwm r }) → enters v cause := by
    intro v cause hc hx h
    have hself : SameTriggers { s with w := v.recordHwm r } { s with w := v.recordHwm r } := ⟨rfl, rfl, rfl⟩
    have hmet : ∀ y, SameTriggers { s with w := v.recordHwm r } y → trigEntry cause y =
        if sampled c w.ctx then y.setCluster w.cluster { c with
          nextStart := c.nextStart || meets cause c.trigstart, nextStop := c.nextStop || meets cause c.trigstop } else y := by
      intro y hy
      have h1 := trigEntry_of_same cause hy
      simp only [Warp.recordHwm, hc, hx] at h1
      exact h1
    refine ⟨fun hp => ?_, fun p hp => ?_⟩
    · rw [h, pairEvent_alone hp]
      exact hmet _ hself
    · rw [h, pairEvent_partner hp]
      exact hmet _ (sameTriggers_giveGrants _ _ _ _ ⟨rfl, rfl, rfl⟩)
  have hroom := fun h : room => enterTrap_room (s := { s with w := w0 }) (t := t) rfl h.1 h.2.1 h.2.2
  obtain ⟨hk0, hk1, hk2⟩ := enterTrap_kills (s := { s with w := w0 }) (t := t) rfl
  refine ⟨fun h hr => henters _ _ ?_ ?_ ((hroom h).1 hr), fun h a hf => ⟨fun hc => henters _ _ ?_ ?_ (((hroom h).2.1 a hf).1 hc),
    fun hc => henters _ _ ?_ ?_ (((hroom h).2.1 a hf).2 hc)⟩, fun h hs => ⟨(hroom h).2.2 hs, rfl⟩, hk0, hk1, hk2, fun hl => ?_⟩
  iterate 3
    · exact (entered_place ..).1
    · exact (entered_place ..).2
  have hn : n = 1 ∨ n = 2 := by
    have h : n = w.tlevel + 1 := rfl
    omega
  obtain ⟨hq, hrec, hfs, hs, hpr, hv⟩ := entered_fields w0 n t
  obtain ⟨hb, hb1, hb2⟩ := entered_bank w0 t hn
  refine ⟨rfl, rfl, rfl, hq, hrec, hfs, hb, hb1, hb2, hs, hpr, fun l hm k hk => ?_, fun x l hx hl => ?_⟩
  · rw [Warp.vl, hv]
    exact zeroRegs_inside (Nat.le_add_right ..) (Nat.add_lt_add_left hk _) hm
  · rw [hv]
    exact zeroRegs_below hx hl

end Sys2Proof.Proofs
end

section
/-! SUPPORT. YIELD, SLEEP, WAKE, PMARK, FRAMESYNC, DLAUNCH and DJOIN (R62 to R64, R348, R349, R365, R381). -/

namespace Sys2Proof.Proofs
open Sys2Proof Sys2Proof.Machine

/-! ### Gates of instructions that ACTIVE lanes abort at (R247) -/

/-- A gate that asks for nothing beyond its demands, whether or not its instruction is performed in ACTIVE lanes. -/
structure Gate.Simple (gt : Gate) : Prop where
  ok : gt.ok = true
  priv : gt.priv = true
  engine : gt.engine = true
  full : gt.full = false
  sync : gt.sync = false
  rel : gt.rel = false

/-- An instruction of such a gate has the outcome of its body where no lane is ACTIVE and its demands are met. -/
theorem simple_run {o : Host.Outcome State Fault Refusal} {gt : Gate} {s : State} {body : State → Mask → Res}
    (e : o = gt.run body s) (hp : Gate.Simple gt) (hc : Clear s gt.demand) (htx : NoTx s gt.guard) :
    o = gt.out (body s (s.w.active gt.guard)) :=
  gate_clear e hc hp.ok hp.priv hp.engine hp.full (by simp [hp.sync]) (by simp [hp.rel]) (.inr htx) rfl

/-! ### Reads over the fabric, and what comes after the warp's accesses (R225, R384, R385) -/

section
variable {s u : State} {vas : List W64} {k : State → Res}

theorem overFabric_refused (h : readsOut s vas = (u, false)) : overFabric vas s k = .block 3 u := by
  unfold overFabric
  unfold readsOut at h
  dsimp only
  rw [h]
  exact if_neg Bool.false_ne_true

theorem overFabric_made (h : readsOut s vas = (u, true)) : overFabric vas s k = k u := by
  unfold overFabric
  unfold readsOut at h
  dsimp only
  rw [h]
  exact if_pos rfl

theorem readsOut_w {r : Bool} (h : readsOut s vas = (u, r)) : u.w = s.w := by
  obtain ⟨a, b, he⟩ := readsOut_eq s vas
  rw [h] at he
  dsimp only at he
  rw [he]

theorem afterAll_done (h1 : s.w.allPerformed = true) (h2 : s.tileBusy = false) : afterAll s k = k s := by
  rw [afterAll, h1, h2]
  exact if_pos rfl

end

theorem noteReads_w (act : Mask) (vas : List W64) (s : State) : (noteReads act vas s).w = s.w := by
  unfold noteReads
  split <;> rfl

/-! ### YIELD, SLEEP and WAKE (R348) -/

section
variable {s : State} {a : BitVec 6} {g : Bool}

theorem execYield_gives (hc : Clear s { guard := g, cls := .control }) (htx : NoTx s g) :
    execYield g s = .next (fellW 4 s { s.w with yielded := 2 }) := by
  have hrun := simple_run (o := execYield g s) (gt := yieldGate 0 0 g []) rfl ⟨rfl, rfl, rfl, rfl, rfl, rfl⟩ hc htx
  exact hrun.trans (congrArg _ (if_neg hc.lanes))

/-- A SLEEP completes with the wake bit or with its timeout, and otherwise blocks its warp. -/
theorem execSleep_gives (hc : Clear s { guard := g, cls := .control, scals := [a.toNat], uses := [useS a] }) (htx : NoTx s g) :
    (s.w.wake = true → execSleep a g s = .next (fellW 4 s { s.w with wake := false, sleep := none })) ∧
    (s.w.wake = false → s.w.block ≠ some 12 → execSleep a g s = .next (blocked 12 { s with
      w := { s.w with sleep := if (s.w.sr a.toNat).bits = 0 then none else some (s.w.sr a.toNat).bits.toNat } })) ∧
    (s.w.wake = false → s.w.block = some 12 → s.w.grant = some .done →
      execSleep a g s = .next (fellW 4 s { s.w with sleep := none })) := by
  have hrun := simple_run (o := execSleep a g s) (gt := yieldGate 1 a g [useS a]) rfl ⟨rfl, rfl, rfl, rfl, rfl, rfl⟩ hc htx
  have h0 : ¬ s.w.active g = 0 := hc.lanes
  change execSleep a g s = (yieldGate 1 a g [useS a]).out (if s.w.active g = 0 then _ else _) at hrun
  rw [if_neg h0] at hrun
  refine ⟨fun hw => hrun.trans ?_, fun hw hb => hrun.trans ?_, fun hw hb hg => hrun.trans ?_⟩
  · rw [if_pos hw]
    rfl
  · rw [if_neg (by rw [hw]; decide), if_neg hb]
    have hz : (if (s.w.sr a.toNat).bits.toNat = 0 then none else some (s.w.sr a.toNat).bits.toNat) =
        (if (s.w.sr a.toNat).bits = 0 then none else some (s.w.sr a.toNat).bits.toNat) := ite_of_iff (BitVec.toNat_inj (y := 0#64)) rfl rfl
    exact congrArg (fun z => Host.Outcome.next (blocked 12 { s with w := { s.w with sleep := z } })) hz
  · rw [if_neg (by rw [hw]; decide), if_pos hb, if_pos hg]
    rfl

theorem execWake_gives (hc : Clear s { guard := g, cls := .control, scals := [a.toNat], uses := [useS a] }) (htx : NoTx s g)
    (h0 : bits (s.w.sr a.toNat).bits 63 6 = 0)
    (hn : (s.w.sr a.toNat).bits.getLsbD 5 = true ∨ bits (s.w.sr a.toNat).bits 4 0 < (s.kernel s.w.kern).pktField 0x1C 1) :
    execWake a g s = .next (fell 4 (s.mapWarps (fun v => if wakes s.w (s.w.sr a.toNat).bits v then { v with wake := true } else v))) := by
  have hrun := simple_run (o := execWake a g s) (gt := yieldGate 2 a g [useS a]) rfl ⟨rfl, rfl, rfl, rfl, rfl, rfl⟩ hc htx
  have hact : ¬ s.w.active g = 0 := hc.lanes
  change execWake a g s = (yieldGate 2 a g [useS a]).out (if s.w.active g = 0 then _ else _) at hrun
  rw [if_neg hact] at hrun
  refine hrun.trans ?_
  rw [if_neg]
  · rfl
  · rintro (h | ⟨h1, h2⟩)
    · exact h h0
    · rcases hn with hn | hn
      · rw [hn] at h1
        exact absurd h1 (by decide)
      · exact Nat.not_lt.2 h2 hn

end

/-! ### PMARK and FRAMESYNC (R349, R365) -/

section
variable {s : State} {imm : BitVec 16}

theorem trigHit_w (k v n : Nat) (s : State) : (trigHit k v n s).w = s.w := by
  unfold trigHit
  dsimp only
  split <;> rfl

/-- A PMARK falls through with the condition of KIND 3 met, and with its record where the cluster samples its context. -/
theorem execPmark_gives (hc : Clear s { cls := .control }) :
    let t := trigHit 3 imm.toNat 16 s
    execPmark imm s = .next (fell 4 (if sampled (t.cluster s.w.cluster) s.w.ctx
      then makeRecord s.w.cluster (sampleBytes s.w s.w.tlevel s.w.p.pc s.w.p.mask imm.toNat 31 true s.w.onB) t else t)) := by
  intro t
  have hrun := plain_run (o := execPmark imm s) (gt := { word := wordL 0x7C 0 0 imm, cls := .control }) rfl
    ⟨rfl, rfl, rfl, rfl, rfl, rfl, rfl⟩ hc
  have hw : (trigHit 3 imm.toNat 16 s).w = s.w := trigHit_w ..
  refine hrun.trans ?_
  dsimp only
  rw [hw]
  split <;> rfl

/-- What a record of an issue or a marker leaves (R362, R363). -/
theorem makeRecord_cases (c : Nat) (bs : List Byte) (s : State) :
    ((s.cluster c).recording = true → makeRecord c bs s = putRecord c bs ((s.cluster c).early.foldl (fun u x => putRecord c x u)
      (s.setCluster c { s.cluster c with early := [] }))) ∧
    ((s.cluster c).recording = false → (s.cluster c).sampctl.getLsbD 24 = true → (s.cluster c).trigArm = true →
      makeRecord c bs s = s.setCluster c { s.cluster c with early := (s.cluster c).early ++ [bs] }) ∧
    ((s.cluster c).recording = false → ((s.cluster c).sampctl.getLsbD 24 = false ∨ (s.cluster c).trigArm = false) →
      makeRecord c bs s = s) := by
  unfold makeRecord writeEarly
  refine ⟨fun h => ?_, fun h h1 h2 => ?_, fun h h1 => ?_⟩
  · simp only [h, if_true]
  · simp [h, h1, h2]
  · have hn : ((s.cluster c).sampctl.getLsbD 24 && (s.cluster c).trigArm) = false := by
      rcases h1 with h1 | h1
      · rw [h1, Bool.false_and]
      · rw [h1, Bool.and_false]
    dsimp only
    rw [h, hn]
    rfl

/-- FRAMESYNC waits for the FSE and for the ray batches before it, and then writes the records. -/
theorem execFramesync_gives (hc : Clear s { cls := .control }) (hf : s.w.fse = []) :
    (s.w.fseBusy = true → execFramesync s = .next (blocked 4 s)) ∧
    (s.w.fseBusy = false → (s.w.raysBehind = true ∨ s.w.raysFrame = true) → execFramesync s = .next (waits 3 s)) ∧
    (s.w.fseBusy = false → s.w.raysBehind = false → s.w.raysFrame = false → ∀ t, syncRecords s s.w = .ok t →
      execFramesync s = .next (fell 4 t)) := by
  have hrun := plain_run (o := execFramesync s) (gt := { word := wordN 0x7D false, cls := .control }) rfl
    ⟨rfl, rfl, rfl, rfl, rfl, rfl, rfl⟩ hc
  simp only [hf, List.find?_nil, List.any_nil] at hrun
  refine ⟨fun h => hrun.trans ?_, fun h hr => hrun.trans ?_, fun h h1 h2 t ht => hrun.trans ?_⟩
  · simp only [h]
    rfl
  · have hrb : (s.w.raysBehind || s.w.raysFrame) = true := by simpa using hr
    simp only [h, hrb]
    rfl
  · simp only [h, h1, h2, ht]
    rfl

end

/-! ### DLAUNCH and DJOIN (R63, R64, R381) -/

section
variable {s : State} {d a b : BitVec 6} {g : Bool}

/-- The outcome of a DLAUNCH of an aligned packet to a queue that exists. -/
theorem execDlaunch_eq (hc : Clear s { guard := g, cls := .control, scals := [d.toNat, a.toNat, b.toNat], uses := [useS a, useS b] })
    (htx : NoTx s g) (ha : bits (s.w.sr a.toNat).bits 6 0 = 0) (hq : (s.w.sr b.toNat).bits.toNat ≤ 63)
    (hap : s.w.allPerformed = true) (htb : s.tileBusy = false) :
    (openToLaunch s (s.w.sr b.toNat).bits.toNat s.w.ctx = true →
      (s.queue (s.w.sr b.toNat).bits.toNat).waiting ≠ 2 ^ (s.queue (s.w.sr b.toNat).bits.toNat).log2n → openChildren s s.w.kern < 4096 →
      let x := (s.w.sr a.toNat).bits
      let t := noteReads (s.w.active g) [x] (dropL1 s.w.core s)
      (∀ u, readsOut t [x] = (u, false) → execDlaunch d a b g s = .next (blocked 3 u)) ∧
      ∀ u, readsOut t [x] = (u, true) →
        (∀ bs, peek u s.w x 128 128 = .bytes bs →
          let r := appendPkt (s.w.sr b.toNat).bits.toNat bs s.w.kern u
          execDlaunch d a b g s = .next (fell 4 { r.1 with w := r.1.w.setS d.toNat (BitVec.ofNat 64 r.2) false })) ∧
        (∀ f, peek u s.w x 128 128 = .fail f →
          execDlaunch d a b g s = .next (raise (trapOf f.cause f.tval (s.w.active g) false) s))) ∧
    (openToLaunch s (s.w.sr b.toNat).bits.toNat s.w.ctx = true →
      ((s.queue (s.w.sr b.toNat).bits.toNat).waiting = 2 ^ (s.queue (s.w.sr b.toNat).bits.toNat).log2n ∨
        4096 ≤ openChildren s s.w.kern) →
      execDlaunch d a b g s = .next (blocked 11 s)) ∧
    (openToLaunch s (s.w.sr b.toNat).bits.toNat s.w.ctx = false →
      execDlaunch d a b g s = .next (raise (trapOf 0x17 (s.w.sr b.toNat).bits (s.w.active g) false) s)) := by
  have hrun := simple_run (o := execDlaunch d a b g s)
    (gt := { word := wordA 0x7A d a b 0 g false, guard := g, cls := .control, scals := [d.toNat, a.toNat, b.toNat]
             uses := [useS a, useS b], tx := false }) rfl ⟨rfl, rfl, rfl, rfl, rfl, rfl⟩ hc htx
  have hact : ¬ s.w.active g = 0 := hc.lanes
  dsimp only at hrun
  rw [if_neg hact, if_neg (not_not_intro ha), if_neg (Nat.not_lt.2 hq), afterAll_done hap htb] at hrun
  refine ⟨fun ho hw hk => ⟨fun u hu => hrun.trans ?_, fun u hu => ⟨fun bs hp => hrun.trans ?_, fun f hp => hrun.trans ?_⟩⟩,
    fun ho hfull => hrun.trans ?_, fun ho => hrun.trans ?_⟩
  rotate_left 3
  · rw [if_neg (by rw [ho]; decide), if_pos hfull]
    rfl
  · rw [if_pos (by rw [ho]; rfl)]
    rfl
  all_goals
    have hroom : ¬ ((s.queue (s.w.sr b.toNat).bits.toNat).waiting = 2 ^ (s.queue (s.w.sr b.toNat).bits.toNat).log2n ∨
        4096 ≤ openChildren s s.w.kern) := fun h => h.elim hw (Nat.not_le.2 hk)
    rw [if_neg (by rw [ho]; decide), if_neg hroom]
  · rw [overFabric_refused hu]
    rfl
  all_goals
    have huw : u.w = s.w := (readsOut_w hu).trans (noteReads_w ..)
    rw [overFabric_made hu, huw, hp]
    rfl

theorem execDjoin_gives (hc : Clear s { guard := g, cls := .control, scals := [d.toNat, a.toNat], uses := [useS a] }) (htx : NoTx s g) :
    (joinStatus s s.w.kern (s.w.sr a.toNat).bits.toNat = none → execDjoin d a g s = .next (blocked 10 s)) ∧
    (∀ n, joinStatus s s.w.kern (s.w.sr a.toNat).bits.toNat = some n →
      let t := if n = 0 then dropL1 s.w.core s else s
      execDjoin d a g s = .next (fell 4 { t with w := s.w.setS d.toNat (BitVec.ofNat 64 n) false })) := by
  have hrun := simple_run (o := execDjoin d a g s)
    (gt := { word := wordA 0x7B d a 0 0 g false, guard := g, cls := .control, scals := [d.toNat, a.toNat]
             uses := [useS a], tx := false }) rfl ⟨rfl, rfl, rfl, rfl, rfl, rfl⟩ hc htx
  have hact : ¬ s.w.active g = 0 := hc.lanes
  dsimp only at hrun
  rw [if_neg hact] at hrun
  refine ⟨fun h => hrun.trans ?_, fun n h => hrun.trans ?_⟩
  · rw [h]
    rfl
  · rw [h]
    dsimp only
    split <;> rfl

end

/-- Settles O41. -/
theorem systemInstructionsComplete : Obligations.SystemInstructionsComplete := by
  intro s d a b imm g w x y htx
  refine ⟨fun hc => execYield_gives hc htx, fun hc => ?_, fun hc => ⟨?_, fun hf => execFramesync_gives hc hf⟩, fun hc ha hq hap htb => ?_,
    fun hc => execDjoin_gives hc htx⟩
  · obtain ⟨h1, h2, h3⟩ := execSleep_gives hc htx
    exact ⟨h1, h2, h3, fun h0 hn => execWake_gives hc htx h0 hn⟩
  · intro t c record does
    have hp := execPmark_gives (imm := imm) hc
    obtain ⟨h1, h2, h3⟩ := makeRecord_cases w.cluster record t
    refine ⟨fun hs => ?_, fun hs => ⟨fun hr => ?_, fun hr h24 ha => ?_, fun hr hn => ?_⟩⟩
    · exact hp.trans (congrArg (fun u => Host.Outcome.next (fell 4 u)) (if_neg (Bool.eq_false_iff.1 hs)))
    · exact hp.trans (congrArg (fun u => Host.Outcome.next (fell 4 u)) ((if_pos hs).trans (h1 hr)))
    · exact hp.trans (congrArg (fun u => Host.Outcome.next (fell 4 u)) ((if_pos hs).trans (h2 hr h24 ha)))
    · exact hp.trans (congrArg (fun u => Host.Outcome.next (fell 4 u)) ((if_pos hs).trans (h3 hr hn)))
  · exact execDlaunch_eq hc htx ha hq hap htb

end Sys2Proof.Proofs
end

section
/-! SUPPORT. The steps of a warp's own engines (R38, R40, R41, R44, R47, R49, R339, R348). -/

namespace Sys2Proof.Proofs
open Sys2Proof Sys2Proof.Machine

section
variable {s : State} {wid : Nat} {w : Warp}

theorem warp?_wid (h : s.warp? wid = some w) : w.wid = wid := by
  have hp := List.find?_some h
  exact eq_of_beq hp

/-- A resident warp on turn that a number names is the one that is brought. -/
theorem onTurn_of_warp? (h : s.warp? wid = some w) (hw : s.w = w) (hr : s.w.resident = true) :
    (s.w.resident && s.w.wid == wid) = true := by
  rw [hr, hw, warp?_wid h]
  simp

theorem bring_onTurn (h : (s.w.resident && s.w.wid == wid) = true) : s.bring wid = s := by
  unfold State.bring
  rw [if_pos h]

theorem withWarp_onTurn {f : State → State} (h : s.warp? wid = some w) (hw : s.w = w) (hr : s.w.resident = true) :
    withWarp wid f s = f s := by
  unfold withWarp
  rw [h]
  exact congrArg f (bring_onTurn (onTurn_of_warp? h hw hr))

/-! ### Settling by a change (R53) -/

/-- The warp as settling sees it: with its records as memory has them, where FRAMESYNC has made these current. -/
def seenBy (s : State) (w : Warp) : Warp := if w.fromMem then refreshSplits s w else w

/-- Settling depends on what its change makes of that warp alone. -/
theorem settleWith_congr {f g : Warp → Warp} (h : f (seenBy s w) = g (seenBy s w)) : settleWith f s w = settleWith g s w := by
  unfold seenBy at h
  unfold settleWith
  by_cases hm : w.fromMem = true
  · rw [if_pos hm] at h
    rw [if_pos hm, if_pos hm, h]
  · rw [if_neg hm] at h
    rw [if_neg hm, if_neg hm, h]

/-- What a change of a warp leaves, which gives `x` of the warp as settling sees it. -/
theorem reWarp_gives {f : Warp → Warp} {x : Warp} (h : s.warp? wid = some w) (hf : f (seenBy s w) = x) :
    reWarp wid f s =
      (settleWith (fun _ => x.resettle) s w).heldRecs.foldl (fun u off => holdRecord (settleWith (fun _ => x.resettle) s w) off u)
        (s.modWarp wid (fun _ => settleWith (fun _ => x.resettle) s w)) := by
  have hs : settleWith (fun y => (f y).resettle) s w = settleWith (fun _ => x.resettle) s w :=
    settleWith_congr (congrArg Warp.resettle hf)
  unfold reWarp
  rw [h]
  dsimp only
  rw [hs]

end

/-! ### Changes by age (R38, R41, R44) -/

section
variable {w : Warp} {r : Rec} {t : Path}

theorem ageSwap_shut (hr : w.agedRec = some (r, t)) (h : r.shut = true) : w.ageSwap = w := by
  unfold Warp.ageSwap
  rw [hr]
  dsimp only
  rw [if_pos h, ite_self]

theorem ageSwap_swapped (h : w.swapped = true) : w.ageSwap = w := by
  unfold Warp.ageSwap
  rw [h, Bool.or_true]
  exact if_pos rfl

/-- An aged stacked path that can be read takes a slot. -/
theorem ageSwap_swaps (hf : w.free = true) (hs : w.swapped = false) (hr : w.agedRec = some (r, t)) (h : r.shut = false) :
    w.ageSwap = { (if w.swapHere then w.swapIn r t else (w.flip.swapIn r t).flip) with swapped := true } := by
  unfold Warp.ageSwap
  rw [hf, hs, hr]
  dsimp only
  rw [h]
  rfl

theorem unparkAged_gives (hp : w.p.parked = true) (ha : w.agelim ≤ w.p.age) :
    w.unparkAged = Warp.arrive w.fuel false { w with
      p := { w.p with parked := false }, q := if w.q.held then w.q.park else w.q } := by
  unfold Warp.unparkAged
  rw [hp, decide_eq_true ha]
  exact if_pos rfl

/-- A WAITING path of the slot on turn that has aged pops its RSTK. -/
theorem ageRelease_here (hp : w.p.st = .waiting) (ha : w.agelim ≤ w.p.age) :
    w.ageRelease w.onB = (Warp.arrive w.fuel true { w with
      p := { w.p.popR with st := if w.p.popR.atJoin then .waiting else .running } }).ageFreeRecs := by
  unfold Warp.ageRelease Warp.ageFree releasePath
  rw [if_pos (beq_self_eq_true _), hp, decide_eq_true ha]
  rfl

/-- A path that is held is older by one at the end of a cycle in which it did not issue. -/
theorem older_gives {p : Path} (h : p.held = true) :
    p.older = { p with age := if p.ran then p.age else min (p.age + 1) 0xFFFFFFFF, ran := false } := by
  unfold Path.older
  cases hr : p.ran
  · rw [h]
    refine (if_pos rfl).trans ?_
    cases p
    simp only at hr
    subst hr
    rfl
  · rw [h]
    rfl

end

/-! ### The FSE (R47) -/

section
variable {s : State} {w : Warp} {e : Leaf} {p : Pass} {j : Nat}

/-- The FSE's accesses to a block come after the warp's own, where these can be performed. -/
theorem rays_clear (h1 : w.raysFrame = false) (h2 : ownMeets s w.wid p.key 1024 = true → w.raysBehind = false) :
    (w.raysFrame || (ownMeets s w.wid p.key (32 * Config.warpWidth) && w.raysBehind)) = false := by
  rw [h1, Bool.false_or, Bool.and_eq_false_iff]
  by_cases h : ownMeets s w.wid p.key 1024 = true
  · exact .inr (h2 h)
  · exact .inl (Bool.eq_false_iff.2 h)

/-- A block that may leave the ring is written to the block area. -/
theorem spill_gives {wid : Nat} (hw : s.warp? wid = some w) (hj : j ∈ w.maySpill) (ha : blockAwaited s w j = false)
    (hc : checkPage s w.ctx w.die (w.blockAddr j) .write = .ok (e, p)) (hr : p.resident = true) (h1 : w.raysFrame = false)
    (h2 : ownMeets s w.wid p.key 1024 = true → w.raysBehind = false) :
    execFseSpill wid j s = .next ((storeMarked w (ownFirst w.wid p.key 1024 s) p.key (w.blockWords j)).modWarp w.wid (fun x =>
      { x with v := dropBlock x.v j, spilled := x.spilled ++ [j] })) := by
  have hg : (w.maySpill.contains j && !blockAwaited s w j) = true := by
    rw [ha, List.contains_iff_mem.2 hj]
    rfl
  rw [execFseSpill, hw]
  dsimp only
  rw [if_pos hg, spillBlock, hc]
  dsimp only
  rw [hr, if_neg (by decide), if_neg (Bool.eq_false_iff.1 (rays_clear h1 h2))]
  rfl

/-- The block that may be filled is read back into the ring. -/
theorem fill_gives {wid : Nat} (hw : s.warp? wid = some w) (hj : w.mayFill = some j)
    (hc : checkPage s w.ctx w.die (w.blockAddr j) .read = .ok (e, p)) (hr : p.resident = true) (h1 : w.raysFrame = false)
    (h2 : ownMeets s w.wid p.key 1024 = true → w.raysBehind = false) :
    execFseFill wid j s = .next ((ownFirst w.wid p.key 1024 s).modWarp w.wid (fun x =>
      { x with v := putBlock x.v j (loadMarked (ownFirst w.wid p.key 1024 s) p.key 128)
               spilled := x.spilled.filter (fun i => i != j) })) := by
  rw [execFseFill, hw]
  dsimp only
  rw [if_pos (by rw [hj]; exact beq_self_eq_true _), fillBlock, hc]
  dsimp only
  rw [hr, if_neg (by decide), if_neg (Bool.eq_false_iff.1 (rays_clear h1 h2))]
  rfl

end

/-- Settles O42. -/
theorem warpEngineEventsComplete : Obligations.WarpEngineEventsComplete := by
  refine ⟨fun s wid w hw => ?_, fun w => ?_⟩
  · intro v becomes
    have hbecomes : ∀ (f : Warp → Warp) (x : Warp), f v = x → .next (reWarp wid f s) = becomes x := fun f x hf =>
      congrArg _ (reWarp_gives hw hf)
    refine ⟨fun t hp hsw hres hl hv => ?_, fun j hj ha e p hc hr h1 h2 => ?_, fun j hj e p hc hr h1 h2 => ?_,
      fun hf hs r t hr => ?_, fun hs => ?_, ?_, fun hp ha => ?_, fun hb hsl hsw hres => ?_⟩
    · intro e hres' hn
      subst hsw
      have h := (enterTrap_room hp hl hv hres').1 hn
      exact congrArg _ ((withWarp_onTurn hw rfl hres).trans h)
    · exact spill_gives hw hj ha hc hr h1 h2
    · exact fill_gives hw hj hc hr h1 h2
    · intro into
      refine ⟨fun hsh => hbecomes Warp.ageSwap v (ageSwap_shut hr hsh), fun hsh hh => hbecomes Warp.ageSwap _ ?_,
        fun hsh hh => hbecomes Warp.ageSwap _ ?_⟩
      · rw [ageSwap_swaps hf hs hr hsh, if_pos hh]
        rfl
      · rw [ageSwap_swaps hf hs hr hsh, if_neg (Bool.eq_false_iff.1 hh)]
        rfl
    · exact hbecomes Warp.ageSwap v (ageSwap_swapped hs)
    · intro into
      refine ⟨fun hp ha => hbecomes Warp.parkedSwap _ ?_, fun hp hq ha => hbecomes Warp.parkedSwap _ ?_⟩
      · exact (if_pos hp).trans (unparkAged_gives hp ha)
      · exact (if_neg (Bool.eq_false_iff.1 hp)).trans (congrArg Warp.flip (unparkAged_gives (w := v.flip) hq ha))
    · exact hbecomes (Warp.ageRelease v.onB) _ (ageRelease_here hp ha)
    · have h := onTurn_of_warp? hw hsw.symm hres
      show Host.Outcome.next (s.modWarp wid Warp.timeout) = _
      rw [State.modWarp, if_pos h, ← hsw, Warp.timeout, if_pos ⟨hb, hsl⟩]
  · intro age
    refine ⟨older_gives, older_gives, fun r hr p hb hh => ?_, rfl, rfl, rfl⟩
    refine ⟨_, List.mem_map_of_mem hr, ?_⟩
    rw [hb]
    dsimp only
    by_cases hf : w.freezeMark ≤ r.off
    · rw [if_pos hf, if_pos hf]
      exact ⟨p.older, rfl, rfl, by rw [older_gives hh]⟩
    · rw [if_neg hf, if_neg hf]
      exact ⟨_, rfl, rfl, rfl⟩

end Sys2Proof.Proofs
end

section
/-! SUPPORT. The steps of the shared units, of the sampler and of the triggers (R259, R314, R316, R330, R361 to R363). -/

namespace Sys2Proof.Proofs
open Sys2Proof Sys2Proof.Machine

/-! ### Bytes of memory -/

/-- Bytes that are those of a number read as it. -/
theorem rdMem_of_bytes {m : List Host.Cell} : ∀ (n k v : Nat),
    (∀ i < n, look (0 : Byte) m (k + i) = BitVec.ofNat 8 (v / 256 ^ i)) → rdMem m k n = v % 256 ^ n
  | 0, _, _, _ => by simp [rdMem, Nat.mod_one]
  | n + 1, k, v, h => by
    have h0 := h 0 (Nat.succ_pos n)
    have hs : ∀ i < n, look (0 : Byte) m (k + 1 + i) = BitVec.ofNat 8 (v / 256 / 256 ^ i) := fun i hi => by
      have h1 := h (i + 1) (Nat.succ_lt_succ hi)
      rwa [Nat.pow_succ', ← Nat.div_div_eq_div_mul, show k + (i + 1) = k + 1 + i by omega] at h1
    rw [Nat.add_zero, Nat.pow_zero, Nat.div_one] at h0
    rw [rdMem, rdMem_of_bytes n (k + 1) (v / 256) hs, h0, BitVec.toNat_ofNat]
    exact (Nat.pow_succ' ▸ Nat.mod_mul).symm

/-- Part of the bytes of a number reads as the digits there. -/
theorem rdMem_within {m : List Host.Cell} {k off n size v : Nat} (hn : off + n ≤ size)
    (h : ∀ i < size, look (0 : Byte) m (k + i) = BitVec.ofNat 8 (v / 256 ^ i)) :
    rdMem m (k + off) n = v / 256 ^ off % 256 ^ n := by
  refine rdMem_of_bytes n (k + off) (v / 256 ^ off) (fun i hi => ?_)
  rw [Nat.add_assoc, h (off + i) (by omega), Nat.pow_add, Nat.div_div_eq_div_mul]

/-! ### The samples of a finished tile (R316, R317) -/

/-- The first 8 bytes of a sample, and the other 8. -/
def Sample.low (x : Sample) : Nat := x.depth.toNat + 2 ^ 32 * x.prim.toNat
def Sample.high (x : Sample) : Nat := x.bary.toNat + 2 ^ 32 * x.flags.toNat

/-- A sample's bytes stand at a key. -/
def SampleAt (m : List Host.Cell) (k : Nat) (x : Sample) : Prop :=
  (∀ i < 8, look (0 : Byte) m (k + i) = BitVec.ofNat 8 (Sample.low x / 256 ^ i)) ∧
    ∀ i < 8, look (0 : Byte) m (k + 8 + i) = BitVec.ofNat 8 (Sample.high x / 256 ^ i)

/-- Such a sample is read word by word. -/
theorem SampleAt.reads {m : List Host.Cell} {k : Nat} {x : Sample} (h : SampleAt m k x) :
    rdMem m k 4 = x.depth.toNat ∧ rdMem m (k + 4) 4 = x.prim.toNat ∧ rdMem m (k + 8) 4 = x.bary.toNat ∧
      rdMem m (k + 12) 4 = x.flags.toNat := by
  obtain ⟨hl, hh⟩ := h
  have h1 := x.depth.isLt
  have h2 := x.prim.isLt
  have h3 := x.bary.isLt
  have h4 := x.flags.isLt
  have e1 := rdMem_within (off := 0) (n := 4) (by decide) hl
  have e2 := rdMem_within (off := 4) (n := 4) (by decide) hl
  have e3 := rdMem_within (off := 0) (n := 4) (by decide) hh
  have e4 := rdMem_within (off := 4) (n := 4) (by decide) hh
  rw [Nat.add_assoc] at e4
  simp only [Sample.low, Sample.high, Nat.add_zero, Nat.pow_zero, Nat.div_one, Nat.reduceAdd, Nat.reducePow] at e1 e2 e3 e4
  exact ⟨by omega, by omega, by omega, by omega⟩

theorem SampleAt.congr {m m' : List Host.Cell} {k : Nat} {x : Sample} (h : SampleAt m k x)
    (he : ∀ a, k ≤ a → a < k + 16 → look (0 : Byte) m' a = look 0 m a) : SampleAt m' k x :=
  ⟨fun i hi => (he _ (by omega) (by omega)).trans (h.1 i hi), fun i hi => (he _ (by omega) (by omega)).trans (h.2 i hi)⟩

/-- A sample is written at its place in the buffer, and nowhere else. -/
theorem writeSample_gives (seg : Nat) (s : State) (n : Nat) (x : Sample) :
    ∃ m b, writeSample seg s n x = { s with mem := m, bad := b } ∧ SampleAt m (scratchKey seg (16 * n)) x ∧
      ∀ a, ¬(scratchKey seg (16 * n) ≤ a ∧ a < scratchKey seg (16 * n) + 16) → look (0 : Byte) m a = look 0 s.mem a := by
  have hd := x.depth.isLt
  have hp := x.prim.isLt
  have hb := x.bary.isLt
  have hf := x.flags.isLt
  have hl : (w64 (Sample.low x)).toNat = Sample.low x := by
    rw [w64, BitVec.toNat_ofNat, Sample.low]
    omega
  have hh : (w64 (Sample.high x)).toNat = Sample.high x := by
    rw [w64, BitVec.toNat_ofNat, Sample.high]
    omega
  refine ⟨_, _, rfl, ?_⟩
  show SampleAt (wrMem (wrMem s.mem (scratchKey seg (16 * n)) 8 (w64 (Sample.low x)).toNat) (scratchKey seg (16 * n) + 8) 8
    (w64 (Sample.high x)).toNat) _ x ∧ ∀ a, _ → look (0 : Byte) (wrMem (wrMem s.mem (scratchKey seg (16 * n)) 8
      (w64 (Sample.low x)).toNat) (scratchKey seg (16 * n) + 8) 8 (w64 (Sample.high x)).toNat) a = look 0 s.mem a
  rw [hl, hh]
  generalize scratchKey seg (16 * n) = k
  refine ⟨⟨fun i hi => ?_, fun i hi => ?_⟩, fun a ha => ?_⟩
  · rw [look_wrMem, look_wrMem, if_neg (by omega), if_pos (by omega), Nat.add_sub_cancel_left]
  · rw [look_wrMem, if_pos (by omega), Nat.add_sub_cancel_left]
  · rw [look_wrMem, look_wrMem, if_neg (by omega), if_neg (by omega)]

/-- The samples with FLAGS, written one after another from the one of number `n` on. -/
def writeSamples (seg : Nat) (xs : List Sample) (n : Nat) (s : State) : Nat × State :=
  xs.foldl (fun (a : Nat × State) x => (a.1 + 1, if x.flags = 0 then a.2 else writeSample seg a.2 a.1 x)) (n, s)

/-- Each of these samples stands at its place, and no other byte changes. -/
theorem writeSamples_gives (seg : Nat) : ∀ (xs : List Sample) (n : Nat) (s : State),
    ∃ m b, (writeSamples seg xs n s).2 = { s with mem := m, bad := b } ∧
      (∀ i < xs.length, (xs.getD i {}).flags ≠ 0 → SampleAt m (scratchKey seg (16 * (n + i))) (xs.getD i {})) ∧
      ∀ a, (∀ i < xs.length, (xs.getD i {}).flags ≠ 0 →
        ¬(scratchKey seg (16 * (n + i)) ≤ a ∧ a < scratchKey seg (16 * (n + i)) + 16)) → look (0 : Byte) m a = look 0 s.mem a
  | [], n, s => ⟨s.mem, s.bad, rfl, fun i hi => absurd hi (Nat.not_lt_zero i), fun _ _ => rfl⟩
  | x :: xs, n, s => by
    have hfirst : ∃ m b, (if x.flags = 0 then s else writeSample seg s n x) = { s with mem := m, bad := b } ∧
        (x.flags ≠ 0 → SampleAt m (scratchKey seg (16 * n)) x) ∧
        ∀ a, (x.flags ≠ 0 → ¬(scratchKey seg (16 * n) ≤ a ∧ a < scratchKey seg (16 * n) + 16)) → look (0 : Byte) m a = look 0 s.mem a := by
      by_cases h0 : x.flags = 0
      · exact ⟨s.mem, s.bad, if_pos h0, fun h => absurd h0 h, fun _ _ => rfl⟩
      · obtain ⟨m, b, he, hat, hout⟩ := writeSample_gives seg s n x
        exact ⟨m, b, (if_neg h0).trans he, fun _ => hat, fun a ha => hout a (ha h0)⟩
    obtain ⟨m, b, he, hat, hout⟩ := hfirst
    obtain ⟨m', b', he', hat', hout'⟩ := writeSamples_gives seg xs (n + 1) { s with mem := m, bad := b }
    have hstep : writeSamples seg (x :: xs) n s = writeSamples seg xs (n + 1) { s with mem := m, bad := b } := by
      rw [writeSamples, List.foldl_cons, he]
      rfl
    refine ⟨m', b', by rw [hstep, he'], fun i hi hfl => ?_, fun a ha => ?_⟩
    · cases i with
      | zero =>
        refine (hat hfl).congr (fun a h1 h2 => hout' a (fun j _ _ hj => ?_))
        simp only [scratchKey] at h1 h2 hj
        omega
      | succ i =>
        have h := hat' i (Nat.lt_of_succ_lt_succ hi) hfl
        rwa [show n + 1 + i = n + (i + 1) by omega] at h
    · refine (hout' a (fun i hi hfl => ?_)).trans (hout a (fun hfl => ha 0 (Nat.succ_pos _) hfl))
      have h := ha (i + 1) (Nat.succ_lt_succ hi) hfl
      rwa [show n + (i + 1) = n + 1 + i by omega] at h

theorem rasterTile_length (b : Bin) (strip : Nat) (g : List W32 × List W32) (tx ty : Nat) :
    (rasterTile b strip g tx ty).length = 1024 := by simp [rasterTile]

/-! ### The rays of a batch (R330) -/

/-- The result that a traversal's end gives its ray. -/
def endOf (slot : Nat) : Trav → RayRes
  | .hit h => resultOf slot h
  | .fail f => { slot := slot, cause := f.cause, addr := f.tval, bad := true }
  | .retry _ => {}

theorem endOf_slot {slot : Nat} {t : Trav} (h : ∀ va, t ≠ .retry va) : (endOf slot t).slot = slot := by
  cases t with
  | hit o => cases o <;> rfl
  | fail f => rfl
  | retry va => exact absurd rfl (h va)

/-- A ray's end joins its batch, where the batch has no result of its slot. -/
def castStep (f : Ray → Trav) (a : Batch × List W64) (r : Ray) : Batch × List W64 :=
  if a.1.results.any (fun x => x.slot == r.slot) then a
  else match f r with
    | .hit h => ({ a.1 with results := a.1.results ++ [resultOf r.slot h] }, a.2)
    | .fail e => ({ a.1 with results := a.1.results ++ [{ slot := r.slot, cause := e.cause, addr := e.tval, bad := true }] }, a.2)
    | .retry va => ({ a.1 with held := a.1.held ++ [va] }, a.2 ++ [va])

theorem castRays_eq (s : State) (w : Warp) (b : Batch) :
    castRays s w b = b.rays.foldl (castStep (fun r => (castRay s w b.base r).1)) (b, []) := rfl

/-- Rays of different slots, none of which meets a retry fault, each get the result of their end. -/
theorem castRays_fold {f : Ray → Trav} : ∀ (rays : List Ray) (a : Batch × List W64), (rays.map (·.slot)).Nodup →
    (∀ r ∈ rays, ∀ va, f r ≠ .retry va) → (∀ r ∈ rays, ∀ x ∈ a.1.results, x.slot ≠ r.slot) →
    rays.foldl (castStep f) a = ({ a.1 with results := a.1.results ++ rays.map (fun r => endOf r.slot (f r)) }, a.2)
  | [], a, _, _, _ => by simp
  | r :: rays, a, hn, hr, ha => by
    obtain ⟨hnot, hn'⟩ := List.nodup_cons.1 hn
    have hfresh : ¬ a.1.results.any (fun x => x.slot == r.slot) = true := by
      rw [List.any_eq_true]
      rintro ⟨x, hx, he⟩
      exact ha r (List.mem_cons_self ..) x hx (eq_of_beq he)
    have hend : ∀ va, f r ≠ .retry va := hr r (List.mem_cons_self ..)
    have hone : castStep f a r = ({ a.1 with results := a.1.results ++ [endOf r.slot (f r)] }, a.2) := by
      rw [castStep, if_neg hfresh]
      cases hf : f r with
      | hit h => rfl
      | fail e => rfl
      | retry va => exact absurd hf (hend va)
    rw [List.foldl_cons, hone, castRays_fold rays _ hn' (fun x hx => hr x (List.mem_cons_of_mem _ hx))]
    · simp [List.append_assoc]
    · intro y hy x hx
      rcases List.mem_append.1 hx with hx | hx
      · exact ha y (List.mem_cons_of_mem _ hy) x hx
      · rw [List.mem_singleton.1 hx, endOf_slot hend]
        intro he
        exact hnot (List.mem_map.2 ⟨y, hy, he.symm⟩)

/-- A batch that has no result yet, and whose rays meet no retry fault, has the results of its rays. -/
theorem castRays_ends {s : State} {w : Warp} {b : Batch} (hb : b.results = []) (hn : (b.rays.map (·.slot)).Nodup)
    (hr : ∀ r ∈ b.rays, ∀ va, (castRay s w b.base r).1 ≠ .retry va) :
    castRays s w b = ({ b with results := b.rays.map (fun r => endOf r.slot (castRay s w b.base r).1) }, []) := by
  rw [castRays_eq, castRays_fold _ _ hn hr (fun r _ x hx => by rw [hb] at hx; cases hx)]
  rw [hb]
  rfl

/-- A batch of one ray that meets a retry fault is held at its page. -/
theorem castRays_held {s : State} {w : Warp} {b : Batch} {r : Ray} {va : W64} (hb : b.results = []) (hr : b.rays = [r])
    (h : (castRay s w b.base r).1 = .retry va) : castRays s w b = ({ b with held := b.held ++ [va] }, [va]) := by
  have hone : b.rays.foldl (castStep (fun r => (castRay s w b.base r).1)) (b, []) =
      castStep (fun r => (castRay s w b.base r).1) (b, []) r := by
    rw [hr]
    rfl
  have hfresh : ¬ (b.results.any (fun x => x.slot == r.slot)) = true := by
    rw [hb]
    exact Bool.false_ne_true
  rw [castRays_eq, hone, castStep, if_neg hfresh, h]
  rfl

section
variable {s t : State} {wid id : Nat} {w : Warp} {b : Batch}

/-- A batch that may be traversed makes its reads. -/
theorem finishBatch_waits (hw : s.warp? wid = some w) (hb : w.batches.find? (fun b => b.id == id) = some b)
    (hm : mayTraverse w b = false) : finishBatch wid id s = s := by
  rw [finishBatch, hw]
  dsimp only
  rw [hb]
  dsimp only
  rw [hm]
  exact if_pos (by simp)

theorem finishBatch_reads (hw : s.warp? wid = some w) (hb : w.batches.find? (fun b => b.id == id) = some b)
    (hd : b.done = false) (hh : b.held = []) (hm : mayTraverse w b = true) {taken : Bool}
    (hs : sendAll w.ctx ((batchLines s w b).map (128 * ·)) s = (t, taken)) :
    (taken = false → finishBatch wid id s = t) ∧
    (taken = true → b.irr = false → ∀ b1 hs, castRays t { w with tlevel := b.level } b = (b1, hs) →
      finishBatch wid id s = hs.foldl (fun u va => addFault w.die w.ctx va 0 u) (t.modWarp wid (fun y =>
        { y with batches := y.batches.map (fun z => if z.id == id then { b1 with done := b1.held.isEmpty } else z) }))) := by
  rw [finishBatch, hw]
  dsimp only
  rw [hb]
  dsimp only
  rw [hd, hh, hm, hs, if_neg (by decide)]
  refine ⟨fun ht => ?_, fun ht hi b1 hs hc => ?_⟩
  · rw [ht]
    rfl
  · rw [ht, hi, hc]
    rfl

end

/-! ### The obligation -/

/-- The WRS finishes a tile with its samples in the tile's buffer. -/
theorem finishTile_gives {s : State} {c : Nat} {t : VTile} {xs : List Sample} {seg : Nat}
    (ht : s.tiles.find? (fun t => t.st == .filling && t.bound && t.cluster == c) = some t)
    (hx : rasterTile (if t.frame % 2 = 0 then (s.view t.view).bin0 else (s.view t.view).bin1) t.strip
      (((s.view t.view).gridOf t.out t.frame t.strip).u, ((s.view t.view).gridOf t.out t.frame t.strip).v) t.tx t.ty = xs)
    (hs : (look {} (s.wg t.wg).handles t.h).seg = seg) :
    finishTile c s = { (writeSamples seg xs 0 s).2 with
      nextFin := s.nextFin + 1
      tiles := updFirst (fun t => t.st == .filling && t.bound && t.cluster == c)
        (fun t => { t with st := .finished, fin := s.nextFin, empty := xs.all (fun x => x.flags == 0) }) (writeSamples seg xs 0 s).2.tiles } := by
  unfold finishTile
  dsimp only
  rw [ht]
  dsimp only
  rw [hx, hs]
  rfl

/-- A condition of KIND 4 holds once CYCLE reaches its VALUE (R363). -/
theorem condHolds_reached {r cycle : W64} (h1 : bits r 3 0 = 4) (h2 : bits r 63 16 ≤ cycle.toNat) : condHolds r cycle = true := by
  rw [condHolds, h1, decide_eq_true h2]
  rfl

/-- Settles O43. -/
theorem unitAndSamplingEventsComplete : Obligations.UnitAndSamplingEventsComplete := by
  refine ⟨fun s => ⟨fun dom wid rest => ?_, fun c p rest hq hv => ?_, fun c t ht => ?_, fun wid id w b hw hb hd hh => ?_⟩,
    fun s n x => ?_⟩
  · intro t hq hh hg
    show Host.Outcome.next (grantTabard (domOf dom) s) = _
    have hc : ((tabardOf s (domOf dom)).holder.isNone && grantable s (domOf dom)) = true := by
      rw [show (tabardOf s (domOf dom)).holder = none from hh, hg]
      rfl
    rw [grantTabard]
    rw [show (tabardOf s (domOf dom)).queue = wid :: rest from hq]
    exact congrArg _ (if_pos hc)
  · show Host.Outcome.next (vamHead c s) = _
    rw [vamHead]
    dsimp only
    rw [hq]
    exact congrArg _ (if_neg (Bool.eq_false_iff.1 hv))
  · intro mine grid bin xs key
    have hlen : xs.length = 1024 := rasterTile_length ..
    have hf := finishTile_gives ht (xs := xs) rfl rfl
    clear_value xs
    obtain ⟨m, b, he, hat, hout⟩ := writeSamples_gives (look {} (s.wg t.wg).handles t.h).seg xs 0 s
    rw [hlen] at hat hout
    simp only [Nat.zero_add] at hat hout
    rw [he] at hf
    refine ⟨m, b, congrArg Host.Outcome.next hf, fun i hi => ?_, hout⟩
    intro x hfl
    exact (hat i hi hfl).reads
  · intro becomes
    refine ⟨fun hm => congrArg Host.Outcome.next (finishBatch_waits hw hb hm), fun t taken hm hs => ?_⟩
    obtain ⟨h1, h2⟩ := finishBatch_reads hw hb hd hh hm hs
    refine ⟨fun ht => congrArg Host.Outcome.next (h1 ht), fun ht hi hr => ?_⟩
    intro ends batch
    refine ⟨fun hn hend => ?_, fun r va hrays hend => ?_⟩
    · have hc := castRays_ends (s := t) (w := { w with tlevel := b.level }) hr hn hend
      have h := h2 ht hi _ _ hc
      rw [List.foldl_nil] at h
      refine congrArg Host.Outcome.next (h.trans ?_)
      have hmap : b.rays.map (fun r => endOf r.slot (ends r)) = b.rays.map (fun r => match ends r with
          | .hit h => resultOf r.slot h
          | .fail f => { slot := r.slot, cause := f.cause, addr := f.tval, bad := true }
          | .retry _ => {}) := List.map_congr_left (fun r _ => by cases ends r <;> rfl)
      have hdone : ({ b with results := b.rays.map (fun r => endOf r.slot (ends r)), done := b.held.isEmpty } : Batch) =
          { b with done := true, results := b.rays.map (fun r => endOf r.slot (ends r)) } := by rw [hh]; rfl
      exact (congrArg batch hdone).trans (congrArg (fun rs => batch { b with done := true, results := rs }) hmap)
    · have hc := castRays_held (s := t) (w := { w with tlevel := b.level }) hr hrays hend
      have h := h2 ht hi _ _ hc
      refine congrArg Host.Outcome.next (h.trans ?_)
      rw [hh]
      have hbd : ({ b with held := [va], done := false } : Batch) = { b with held := [va] } := by rw [← hd]
      exact congrArg (fun x => addFault w.die w.ctx va 0 (batch x)) hbd
  · intro c
    refine ⟨fun h1 h2 h3 h4 => ?_, fun h1 h2 => ?_, fun h1 h2 => ?_, fun h => ?_, fun h => ?_⟩
    · have hd : sampleDue n s = true := by
        rw [sampleDue]
        rw [h1, h2, beq_iff_eq.2 h3, bne_iff_ne.2 h4]
        rfl
      show Host.Outcome.next (sampleNow n s) = _
      exact congrArg Host.Outcome.next (if_pos hd)
    · have hs : c.starts = true := by rw [Cluster.starts, condHolds_reached h1 h2, Bool.or_true]
      exact congrArg (fun b => Host.Outcome.next (s.setCluster n { c with hitStart := b, hitStop := c.stops })) hs
    · have hs : c.stops = true := by rw [Cluster.stops, condHolds_reached h1 h2, Bool.or_true]
      exact congrArg (fun b => Host.Outcome.next (s.setCluster n { c with hitStart := c.starts, hitStop := b })) hs
    · show Host.Outcome.next (s.setCluster n ((s.cluster n).setSampReg 7 x)) = _
      rw [Cluster.setSampReg]
      exact congrArg (fun k => Host.Outcome.next (s.setCluster n k)) (if_pos h)
    · show Host.Outcome.next (s.setCluster n ((s.cluster n).setSampReg 7 x)) = _
      rw [Cluster.setSampReg]
      exact congrArg (fun k => Host.Outcome.next (s.setCluster n k)) (if_neg (Bool.eq_false_iff.1 h))

end Sys2Proof.Proofs
end

section
/-! SUPPORT. The display's moments, its sinks, and the enables of views and outputs (R303, R305 to R307). -/

namespace Sys2Proof.Proofs
open Sys2Proof Sys2Proof.Machine

/-! ### What leaves the outputs alone -/

/-- A fold of steps that keep a part of the state keeps it. -/
theorem foldl_keeps {α β σ : Type} (π : σ → β) {f : σ → α → σ} (h : ∀ s x, π (f s x) = π s) : ∀ (xs : List α) (s : σ),
    π (xs.foldl f s) = π s
  | [], _ => rfl
  | x :: xs, s => by rw [List.foldl_cons, foldl_keeps π h xs, h]

theorem storeWords_outs : ∀ (vs : List Nat) (s : State) (k : Nat), (storeWords s k vs).outs = s.outs
  | [], _, _ => rfl
  | v :: vs, s, k => by rw [storeWords, storeWords_outs vs]; rfl

theorem clearBuffer_outs (seg : Nat) (s : State) : (clearBuffer seg s).outs = s.outs := by
  unfold clearBuffer
  exact foldl_keeps State.outs (fun t n => storeWords_outs _ t _) _ s

theorem placeOne_outs (c : Nat) (s : State) : (placeOne c s).outs = s.outs := by
  unfold placeOne
  dsimp only
  split
  · rfl
  · next b rest hh =>
    have h := clearBuffer_outs (look {} (s.wg b.wg).handles b.h).seg (s.setCluster c { s.cluster c with hand := rest })
    generalize clearBuffer _ _ = t at h ⊢
    split
    · exact h
    · rfl

theorem placeAll_outs (s : State) : (placeAll s).outs = s.outs :=
  foldl_keeps State.outs (fun s c => foldl_keeps State.outs (fun s _ => placeOne_outs c s) _ s) _ s

theorem tookFree_outs (b : Bool) (s : State) : (tookFree b s).outs = s.outs := by
  unfold tookFree
  split <;> rfl

theorem returnBuffers_outs (p : VTile → Bool) (s : State) : (returnBuffers p s).outs = s.outs := by
  unfold returnBuffers
  dsimp only
  generalize s.tiles.filter _ = ts
  induction ts with
  | nil => rfl
  | cons t ts ih => exact ih

theorem beginView_outs (o st f n : Nat) (s : State) : (beginView o st f n s).outs = s.outs := by
  unfold beginView
  dsimp only
  split
  · split <;> rfl
  · split <;> rfl

theorem openView_outs (f k n : Nat) (r : ViewRec) (s : State) : (openView f k n r s).outs = s.outs := by
  unfold openView
  dsimp only
  split <;> rfl

theorem substTile_outs (v : View) (r : ViewRec) (s : State) (t : VTile) : (substTile v r s t).outs = s.outs := by
  unfold substTile
  dsimp only
  refine (tookFree_outs _ _).trans (foldl_keeps State.outs (fun u n => ?_) _ s)
  rfl

theorem substView_outs (f k n : Nat) (r : ViewRec) (s : State) : (substView f k n r s).outs = s.outs := by
  unfold substView
  dsimp only
  exact (foldl_keeps State.outs (substTile_outs _ _) _ _).trans (returnBuffers_outs _ s)

/-! ### Strip windows and deadlines (R306, R321) -/

/-- An output changes in other parts than its counts, and the others do not change. -/
structure CountsKept (n : Nat) (s t : State) : Prop where
  nW : (t.out n).nW = (s.out n).nW
  nD : (t.out n).nD = (s.out n).nD
  nO : (t.out n).nO = (s.out n).nO
  others : ∀ m, m ≠ n → t.out m = s.out m

theorem countsKept_of_outs {n : Nat} {s t : State} (h : t.outs = s.outs) : CountsKept n s t := by
  have ho : ∀ m, t.out m = s.out m := fun m => by rw [State.out, State.out, h]
  exact ⟨by rw [ho], by rw [ho], by rw [ho], fun m _ => ho m⟩

theorem CountsKept.trans {n : Nat} {s t u : State} (h1 : CountsKept n s t) (h2 : CountsKept n t u) : CountsKept n s u :=
  ⟨h2.nW.trans h1.nW, h2.nD.trans h1.nD, h2.nO.trans h1.nO, fun m hm => (h2.others m hm).trans (h1.others m hm)⟩

theorem setOut_others {n : Nat} {s : State} {o : Out} {m : Nat} (h : m ≠ n) : (s.setOut n o).out m = s.out m := by
  rw [State.setOut_out, if_neg h]

theorem countsKept_beginFrame (n f : Nat) (s : State) : CountsKept n s (beginFrame n f s) := by
  unfold beginFrame
  dsimp only
  have h : ∀ t : State, t.outs = s.outs → CountsKept n s (t.setOut n { t.out n with
      bad := frameRejected (t.out n) (layout t n), err := (t.out n).err || frameRejected (t.out n) (layout t n) }) := by
    intro t ht
    refine (countsKept_of_outs ht).trans ⟨?_, ?_, ?_, fun m hm => setOut_others hm⟩ <;> rw [State.setOut_out_self]
  refine h _ (foldl_keeps State.outs (fun t v => ?_) _ _)
  exact beginView_outs ..

theorem countsKept_stageStrip (n m : Nat) (s : State) : CountsKept n s (stageStrip n m s) := by
  unfold stageStrip
  dsimp only
  split
  · exact countsKept_of_outs rfl
  · refine CountsKept.trans ?_ (countsKept_of_outs (tookFree_outs _ _))
    refine ⟨?_, ?_, ?_, fun m hm => setOut_others hm⟩ <;> rw [State.setOut_out_self]

/-- A strip window raises its own count alone. -/
theorem openWindow_counts (n : Nat) (s : State) :
    ((openWindow n s).out n).nW = (s.out n).nW + 1 ∧ ((openWindow n s).out n).nD = (s.out n).nD ∧
      ((openWindow n s).out n).nO = (s.out n).nO ∧ ∀ m, m ≠ n → (openWindow n s).out m = s.out m := by
  have hk : CountsKept n (s.setOut n { s.out n with nW := (s.out n).nW + 1 }) (openWindow n s) := by
    unfold openWindow
    dsimp only
    refine CountsKept.trans ?_ (countsKept_of_outs ((placeAll_outs _).trans (foldl_keeps State.outs (fun t e => ?_) _ _)))
    · split
      · exact countsKept_beginFrame ..
      · exact countsKept_of_outs rfl
    · split
      · exact openView_outs ..
      · rfl
  refine ⟨hk.nW.trans ?_, hk.nD.trans ?_, hk.nO.trans ?_, fun m hm => (hk.others m hm).trans (setOut_others hm)⟩ <;>
    rw [State.setOut_out_self]

/-- A strip's deadline raises its own count alone. -/
theorem meetDeadline_counts (n : Nat) (s : State) :
    ((meetDeadline n s).out n).nD = (s.out n).nD + 1 ∧ ((meetDeadline n s).out n).nW = (s.out n).nW ∧
      ((meetDeadline n s).out n).nO = (s.out n).nO ∧ ∀ m, m ≠ n → (meetDeadline n s).out m = s.out m := by
  have hk : CountsKept n (s.setOut n { s.out n with nD := (s.out n).nD + 1 }) (meetDeadline n s) := by
    unfold meetDeadline
    dsimp only
    refine CountsKept.trans (countsKept_of_outs ((placeAll_outs _).trans (foldl_keeps State.outs (fun t e => ?_) _ _)))
      (countsKept_stageStrip ..)
    split
    · exact substView_outs ..
    · rfl
  refine ⟨hk.nD.trans ?_, hk.nW.trans ?_, hk.nO.trans ?_, fun m hm => (hk.others m hm).trans (setOut_others hm)⟩ <;>
    rw [State.setOut_out_self]

/-! ### Moments that are due (R306) -/

section
variable {s : State} {n : Nat} {f : State → State}

/-- An event among an output's next ones takes place once its moment has come. -/
theorem whenDue_fires {e : Event} {d : Nat} (hn : n < 4) (he : (d, e) ∈ (s.out n).next n) (hd : d ≤ s.dclk) :
    whenDue e f s = .next (f s) := by
  unfold whenDue
  refine congrArg Host.Outcome.next (if_pos ?_)
  refine List.any_eq_true.2 ⟨(d, e), List.mem_flatMap.2 ⟨n, List.mem_range.2 hn, he⟩, ?_⟩
  rw [beq_self_eq_true, decide_eq_true hd]
  rfl

theorem window_next (hr : (s.out n).run = true) (h : (s.out n).nW = (s.out n).nD) :
    ((s.out n).windowAt, Event.stripWindowOpen n) ∈ (s.out n).next n := by
  rw [Out.next, if_pos hr, if_pos h]
  simp

theorem deadline_next (hr : (s.out n).run = true) (h : (s.out n).nW ≠ (s.out n).nD) :
    ((s.out n).deadlineAt, Event.stripDeadline n) ∈ (s.out n).next n := by
  rw [Out.next, if_pos hr, if_neg h]
  simp

theorem line_next (hr : (s.out n).run = true) (h : (s.out n).line.isSome = true) :
    ((s.out n).lineAt, Event.displayLineStart n) ∈ (s.out n).next n := by
  rw [Out.next, if_pos hr, if_pos h]
  simp

theorem output_next (hr : (s.out n).run = true) (h : (s.out n).nO < (s.out n).nD) :
    ((s.out n).outputAt, Event.stripOutput n) ∈ (s.out n).next n := by
  rw [Out.next, if_pos hr, if_pos h]
  simp

end

/-! ### Strips and lines that are sent (R306) -/

section
variable {s : State} {n : Nat}

/-- A strip that is sent begins with its first line. -/
theorem outputStrip_sends {m : Nat} {px : List W32} {rest : List (Nat × Nat × List W32)} (hl : (s.out n).link = true)
    (hb : (s.out n).nO % 16 = 0 → (s.out n).bad = false) (hs : (s.out n).nO % 16 = 0 ∨ (s.out n).sending = true)
    (hf : (s.out n).staged.filter (fun y => y.1 == (s.out n).nO) = (m, 0, px) :: rest) :
    outputStrip n s = s.setOut n { s.out n with
      nO := (s.out n).nO + 1, sending := true, vtotal := 16 * (s.out n).st / (s.out n).linecyc, line := some 0, pixels := px
      staged := rest ++ (s.out n).staged.filter (fun y => y.1 != (s.out n).nO) } := by
  have hsend : (if (s.out n).nO % 16 = 0 then (s.out n).link && !(s.out n).bad else (s.out n).sending && (s.out n).link) = true := by
    by_cases h0 : (s.out n).nO % 16 = 0
    · rw [if_pos h0, hl, hb h0]
      rfl
    · rw [if_neg h0, hl, hs.resolve_left h0]
      rfl
  unfold outputStrip
  dsimp only
  rw [hsend, hf]
  rfl

/-- The first strip of a rejected frame is not sent. -/
theorem outputStrip_rejects (h0 : (s.out n).nO % 16 = 0) (hb : (s.out n).bad = true) :
    outputStrip n s = s.setOut n { s.out n with
      nO := (s.out n).nO + 1, sending := false, vtotal := 0, line := none, pixels := []
      staged := (s.out n).staged.filter (fun y => y.1 != (s.out n).nO) } := by
  have hsend : (if (s.out n).nO % 16 = 0 then (s.out n).link && !(s.out n).bad else (s.out n).sending && (s.out n).link) = false := by
    rw [if_pos h0, hb, Bool.not_true, Bool.and_false]
  unfold outputStrip
  dsimp only
  rw [hsend]
  cases hf : (s.out n).staged.filter (fun y => y.1 == (s.out n).nO) with
  | cons y rest => rfl
  | nil =>
    have hall : (s.out n).staged.filter (fun y => y.1 != (s.out n).nO) = (s.out n).staged := by
      rw [List.filter_eq_self]
      intro y hy
      have h := List.filter_eq_nil_iff.1 hf y hy
      rw [bne, Bool.eq_false_iff.2 h]
      rfl
    rw [hall]
    rfl

/-- The next line of the strip that is being sent begins. -/
theorem nextLine_begins {r m : Nat} {px : List W32} {rest : List (Nat × Nat × List W32)} (hr : (s.out n).line = some r)
    (hs : (s.out n).staged = (m, r + 1, px) :: rest) (hm : m + 1 = (s.out n).nO) (hl : (s.out n).link = true) :
    nextLine n s = s.setOut n { s.out n with line := some (r + 1), pixels := px, staged := rest } := by
  unfold nextLine
  dsimp only
  rw [hr, hs]
  exact if_pos ⟨hm, rfl, hl⟩

end

/-! ### Sinks and links (R303, R305) -/

theorem setLink_kept {o : Out} (h : o.link = true) : o.setLink true = o := by
  unfold Out.setLink
  rw [if_pos rfl, h, Bool.and_true, ← h]

/-! ### Enables (R305, R307) -/

theorem ins_ins {α : Type} (k : Nat) (a b : α) : ∀ m : List (Nat × α), ins (ins m k a) k b = ins m k b
  | [] => by simp [ins]
  | e :: m => by
    by_cases h1 : k < e.1
    · simp [ins, h1]
    · by_cases h2 : k = e.1
      · simp [ins, h2]
      · simp [ins, h1, h2, ins_ins k a b m]

/-- A value written over one that is listed stands as if it had been written at once. -/
theorem setOut_setOut {s : State} {n : Nat} {a b : Out} (ha : a ≠ {}) (hb : b ≠ {}) : (s.setOut n a).setOut n b = s.setOut n b := by
  unfold State.setOut put
  simp only [if_neg ha, if_neg hb]
  rw [ins_ins]

/-- A register with EN set is not the one that an output has at reset. -/
theorem out_ne_reset {o : Out} (h : o.ctl.getLsbD 0 = true) : o ≠ {} := by
  intro he
  rw [he] at h
  exact absurd h (by decide)

theorem getLsbD_and_mask {x m : W64} (h : m.getLsbD 0 = true) : (x &&& m).getLsbD 0 = x.getLsbD 0 := by
  rw [BitVec.getLsbD_and, h, Bool.and_true]

theorem getLsbD_or_one (x : W64) : (x ||| 1#64).getLsbD 0 = true := by
  rw [BitVec.getLsbD_or]
  exact Bool.or_true _

theorem getLsbD_and_not_one (x : W64) : (x &&& ~~~1#64).getLsbD 0 = false := by
  rw [BitVec.getLsbD_and]
  exact Bool.and_false _

section
variable {s : State} {n : Nat} {x : W64}

theorem outputEnable_gives (h : (s.out n).ctl.getLsbD 0 = false) :
    let o := s.out n
    let c := (x ||| 1#64) &&& 0xFF0F#64
    writeOutCtl n (x ||| 1#64) s = s.setOut n { o with
      ctl := c, runCtl := c, runTiming := o.timing, run := !outRejected c o.timing, err := o.err || outRejected c o.timing
      f0 := s.dclk, nW := 0, nD := 0, nO := 0, bad := false, sending := false, line := none, staged := [], pixels := []
      vtotal := 0 } := by
  intro o c
  have hc : c.getLsbD 0 = true := (getLsbD_and_mask (by decide)).trans (getLsbD_or_one x)
  have hen : (!(s.out n).ctl.getLsbD 0 && c.getLsbD 0) = true := by rw [h, hc]; rfl
  unfold writeOutCtl
  refine (if_pos hen).trans ?_
  exact setOut_setOut (out_ne_reset hc) (out_ne_reset hc)

theorem outputDisable_gives (h : (s.out n).ctl.getLsbD 0 = true) :
    writeOutCtl n (x &&& ~~~1#64) s = stopOut n (s.setOut n { s.out n with ctl := (x &&& ~~~1#64) &&& 0xFF0F#64 }) := by
  have hc : ((x &&& ~~~1#64) &&& 0xFF0F#64).getLsbD 0 = false := (getLsbD_and_mask (by decide)).trans (getLsbD_and_not_one x)
  unfold writeOutCtl
  refine (if_neg ?_).trans (if_pos ?_)
  · rw [hc, Bool.and_false]
    exact Bool.false_ne_true
  · rw [h, hc]
    rfl

theorem viewEnable_gives (h : (s.view n).vctl.getLsbD 0 = false) :
    writeVctl n (x ||| 1#64) s = s.setView n { s.view n with
      vctl := (x ||| 1#64) &&& ~~~0x38#64, subst := 0, late := 0, drops := 0
      lat := (s.view n).lat.map (fun e => (e.1, { e.2 with valid := false })), g := 0, closes := 0, deferred := false
      bin0 := {}, bin1 := {} } := by
  have hc : ((x ||| 1#64) &&& ~~~0x38#64).getLsbD 0 = true := (getLsbD_and_mask (by decide)).trans (getLsbD_or_one x)
  unfold writeVctl
  refine if_pos ?_
  rw [h, hc]
  rfl

theorem viewDisable_gives (h : (s.view n).vctl.getLsbD 0 = true) :
    writeVctl n (x &&& ~~~1#64) s = withdrawTiles (fun t => t.view == n) (s.setView n { s.view n with
      vctl := (x &&& ~~~1#64) &&& ~~~0x38#64, admitted := false
      zeroFrom := if (s.view n).on then some ((s.view n).zeroFrom.getD (s.out (s.view n).out).nW) else none }) := by
  have hc : ((x &&& ~~~1#64) &&& ~~~0x38#64).getLsbD 0 = false := (getLsbD_and_mask (by decide)).trans (getLsbD_and_not_one x)
  unfold writeVctl
  refine (if_neg ?_).trans (if_pos ?_)
  · rw [hc, Bool.and_false]
    exact Bool.false_ne_true
  · rw [h, hc]
    rfl

end

/-- Settles O44. -/
theorem displayEventsComplete : Obligations.DisplayEventsComplete := by
  refine fun s n x => ⟨fun hn => ?_, fun hn => ?_⟩
  · intro o unsent
    refine ⟨fun hr hw hd => ⟨_, (whenDue_fires hn (window_next hr hw) hd : execStripWindowOpen n s = _), rfl, openWindow_counts n s⟩,
      fun hr hw hd => ⟨_, (whenDue_fires hn (deadline_next hr hw) hd : execStripDeadline n s = _), rfl, meetDeadline_counts n s⟩,
      fun m px rest hr ho hd hl hb hs hf => ?_, fun hr ho hd h0 hb => ?_, fun r m px rest hr hline hd hs hm hl => ?_, ?_, ?_,
      fun ha => ?_, fun ha => ?_, ?_, fun h => ?_, fun h => ?_⟩
    · exact (whenDue_fires hn (output_next hr ho) hd : execStripOutput n s = _).trans
        (congrArg Host.Outcome.next (outputStrip_sends hl hb hs hf))
    · exact (whenDue_fires hn (output_next hr ho) hd : execStripOutput n s = _).trans
        (congrArg Host.Outcome.next (outputStrip_rejects h0 hb))
    · have hdue : (s.out n).lineAt ≤ s.dclk := by
        rw [Out.lineAt, show (s.out n).line = some r from hline]
        exact hd
      have hsome : (s.out n).line.isSome = true := by rw [show (s.out n).line = some r from hline]; rfl
      exact (whenDue_fires hn (line_next hr hsome) hdue : execDisplayLineStart n s = _).trans
        (congrArg Host.Outcome.next (nextLine_begins hline hs hm hl))
    · refine congrArg Host.Outcome.next ((if_pos hn).trans (congrArg (s.setOut n) ?_))
      rw [Bool.true_and]
      by_cases hl : o.link = true
      · rw [if_pos hl]
        exact (congrArg _ hl).trans (setLink_kept (o := { o with attached := true }) hl)
      · rw [if_neg hl]
        exact congrArg (Out.setLink { o with attached := true }) (Bool.eq_false_iff.2 hl)
    · exact congrArg Host.Outcome.next (if_pos hn)
    · refine congrArg Host.Outcome.next ((if_pos hn).trans (congrArg (s.setOut n) ?_))
      exact congrArg o.setLink ((Bool.true_and _).trans ha)
    · refine congrArg Host.Outcome.next ((if_pos hn).trans (congrArg (s.setOut n) ?_))
      exact congrArg o.setLink ((Bool.true_and _).trans ha)
    · exact congrArg Host.Outcome.next (if_pos hn)
    · exact congrArg Host.Outcome.next ((if_pos hn).trans (outputEnable_gives h))
    · exact congrArg Host.Outcome.next ((if_pos hn).trans (outputDisable_gives h))
  · intro v
    exact ⟨fun h => congrArg Host.Outcome.next ((if_pos hn).trans (viewEnable_gives h)),
      fun h => congrArg Host.Outcome.next ((if_pos hn).trans (viewDisable_gives h))⟩

end Sys2Proof.Proofs
end

section
/-! SUPPORT. The management controller: throttling loops, Yarrow readings, reset, firmware and SPDM (R16, R392 to R397). -/

namespace Sys2Proof.Proofs
open Sys2Proof Sys2Proof.Machine

/-! ### Folds that act on one cluster each -/

/-- A fold of steps that change clusters alone changes clusters alone. -/
theorem foldl_clusters {α : Type} {f : State → α → State} (h : ∀ (s : State) (x : α), ∃ cl, f s x = { s with clusters := cl }) :
    ∀ (xs : List α) (s : State), ∃ cl, xs.foldl f s = { s with clusters := cl }
  | [], s => ⟨s.clusters, rfl⟩
  | x :: xs, s => by
    obtain ⟨a, ha⟩ := h s x
    obtain ⟨b, hb⟩ := foldl_clusters h xs { s with clusters := a }
    exact ⟨b, by rw [List.foldl_cons, ha, hb]⟩

/-- A part of the state by number that each step of a fold changes at its own number alone is changed once at each number of the list. -/
theorem foldl_at {β σ : Type} (π : σ → Nat → β) {f : σ → Nat → σ} {g : Nat → β → β}
    (hsame : ∀ s c, π (f s c) c = g c (π s c)) (hother : ∀ s c m, m ≠ c → π (f s c) m = π s m) :
    ∀ (cs : List Nat) (s : σ), cs.Nodup → ∀ m, π (cs.foldl f s) m = if m ∈ cs then g m (π s m) else π s m
  | [], s, _, m => by simp
  | c :: cs, s, hn, m => by
    obtain ⟨hc, hn'⟩ := List.nodup_cons.1 hn
    rw [List.foldl_cons, foldl_at π hsame hother cs _ hn' m]
    by_cases hm : m = c
    · subst hm
      rw [if_neg hc, if_pos (List.mem_cons_self ..), hsame]
    · rw [hother s c m hm]
      simp [List.mem_cons, hm]

/-! ### The loops (R392) -/

section
variable {thermal reliability : BitVec 32} {current slew cap : Bool} {step : Nat}

/-- What a run of the loops does to a cluster. -/
def loopStep (thermal reliability : BitVec 32) (current slew cap : Bool) (step : Nat) (s : State) (c : Nat) : State :=
  lowerSupply thermal cap (loopCluster thermal current slew cap reliability step s c) c

theorem lowerSupply_clusters (s : State) (c : Nat) : (lowerSupply thermal cap s c).clusters = s.clusters := by
  unfold lowerSupply
  split <;> rfl

theorem lowerSupply_wm (s : State) (c : Nat) : (lowerSupply thermal cap s c).w = s.w ∧ (lowerSupply thermal cap s c).mem = s.mem := by
  unfold lowerSupply
  split <;> exact ⟨rfl, rfl⟩

/-- THROTTLE_WHY of a cluster, and whether its loops act. -/
def throttleOf (s : State) (c : Nat) : BitVec 5 × Bool := ((s.cluster c).throttle, (s.cluster c).acting)

/-- The bits of THROTTLE_WHY that a run of the loops sets. -/
def whyOf (thermal reliability : BitVec 32) (current slew cap : Bool) (c : Nat) : BitVec 5 :=
  BitVec.ofBool (reliability.getLsbD c) ++ BitVec.ofBool cap ++ BitVec.ofBool slew ++ BitVec.ofBool current ++
    BitVec.ofBool (thermal.getLsbD c)

theorem throttleOf_loopStep (s : State) (c m : Nat) :
    throttleOf (loopStep thermal reliability current slew cap step s c) m =
      throttleOf (loopCluster thermal current slew cap reliability step s c) m := by
  simp only [throttleOf, State.cluster, loopStep, lowerSupply_clusters]

/-- A run of the loops acts on each logical cluster once. -/
theorem throttleOf_loops (cs : List Nat) (s : State) (hn : cs.Nodup) {c : Nat} (hc : c ∈ cs) :
    throttleOf (cs.foldl (loopStep thermal reliability current slew cap step) s) c =
      ((s.cluster c).throttle ||| whyOf thermal reliability current slew cap c, whyOf thermal reliability current slew cap c != 0) := by
  have h := foldl_at throttleOf (f := loopStep thermal reliability current slew cap step)
    (g := fun c x => (x.1 ||| whyOf thermal reliability current slew cap c, whyOf thermal reliability current slew cap c != 0))
    (fun s c => ?_) (fun s c m hm => ?_) cs s hn c
  · rw [h, if_pos hc]
    rfl
  · rw [throttleOf_loopStep, throttleOf, loopCluster, State.setCluster_cluster_self]
    rfl
  · rw [throttleOf_loopStep, throttleOf, loopCluster, State.setCluster_cluster, if_neg hm]
    rfl

end

/-! ### Yarrow readings (R391, R393) -/

theorem showYarrow_eq (s : State) : ∃ cl, showYarrow s = { s with clusters := cl } :=
  foldl_clusters (fun _ _ => ⟨_, rfl⟩) _ s

theorem raiseGuard_eq (s : State) (c : Nat) : ∃ st, raiseGuard s c = { s with mc := { s.mc with steps := st } } := by
  unfold raiseGuard
  dsimp only
  split
  · exact ⟨_, rfl⟩
  · exact ⟨s.mc.steps, rfl⟩

/-- Readings raise GUARD alone. -/
theorem foldl_raiseGuard_eq : ∀ (cs : List Nat) (s : State), ∃ st, cs.foldl raiseGuard s = { s with mc := { s.mc with steps := st } }
  | [], s => ⟨s.mc.steps, rfl⟩
  | c :: cs, s => by
    obtain ⟨a, ha⟩ := raiseGuard_eq s c
    obtain ⟨b, hb⟩ := foldl_raiseGuard_eq cs { s with mc := { s.mc with steps := a } }
    exact ⟨b, by rw [List.foldl_cons, ha, hb]⟩

/-- The parts of the controller's store that decide of a step of GUARD. -/
structure SameLimits (s t : State) : Prop where
  delays : t.mc.delays = s.mc.delays
  retired : t.mc.retired = s.mc.retired

theorem pairsOf_same {s t : State} (h : SameLimits s t) (c : Nat) : pairsOf t c = pairsOf s c := by
  rw [pairsOf, pairsOf, livePairs, livePairs, h.retired]

/-- GUARD of each cluster of a list rises by a step where one of its pairs exceeds the limit. -/
theorem raiseGuard_steps (s : State) : ∀ (cs : List Nat) (t : State), SameLimits s t → cs.Nodup → ∀ m,
    look 0 (cs.foldl raiseGuard t).mc.steps m =
      if m ∈ cs then look 0 t.mc.steps m +
        (if (pairsOf s m).any (fun p => overLimit p (look 0 s.mc.delays p) (look 0 t.mc.steps m)) then 1 else 0)
      else look 0 t.mc.steps m
  | [], t, _, _, m => by simp
  | c :: cs, t, h, hn, m => by
    obtain ⟨hc, hn'⟩ := List.nodup_cons.1 hn
    obtain ⟨st, hst⟩ := raiseGuard_eq t c
    have h' : SameLimits s (raiseGuard t c) := by
      rw [hst]
      exact ⟨h.delays, h.retired⟩
    have hstep : ∀ m, look 0 (raiseGuard t c).mc.steps m = if m = c then look 0 t.mc.steps c +
        (if (pairsOf s c).any (fun p => overLimit p (look 0 s.mc.delays p) (look 0 t.mc.steps c)) then 1 else 0)
        else look 0 t.mc.steps m := by
      intro m
      unfold raiseGuard
      dsimp only
      rw [pairsOf_same h, h.delays]
      split
      · dsimp only
        rw [look_put]
      · split
        · next hm => rw [hm, Nat.add_zero]
        · rfl
    rw [List.foldl_cons, raiseGuard_steps s cs _ h' hn' m, hstep]
    by_cases hm : m = c
    · subst hm
      simp [hc]
    · simp [List.mem_cons, hm]

/-- The delays of a reading, by physical pair. -/
theorem look_delays : ∀ (ds : List Nat) (n : Nat) (m : List (Nat × Nat)) (p : Nat),
    look 0 ((ds.zipIdx n).foldl (fun m e => put 0 m e.2 e.1) m) p =
      if n ≤ p ∧ p < n + ds.length then ds.getD (p - n) 0 else look 0 m p
  | [], n, m, p => (if_neg fun h => Nat.not_lt.2 h.1 h.2).symm
  | d :: ds, n, m, p => by
    rw [List.zipIdx_cons, List.foldl_cons, look_delays ds (n + 1), look_put]
    by_cases h1 : p = n
    · subst h1
      rw [if_neg (by omega), if_pos rfl, if_pos (by rw [List.length_cons]; omega), Nat.sub_self, List.getD_cons_zero]
    · by_cases h2 : n + 1 ≤ p ∧ p < n + 1 + ds.length
      · have h3 : n ≤ p ∧ p < n + (d :: ds).length := by
          rw [List.length_cons]
          omega
        rw [if_pos h2, if_pos h3, show p - n = (p - (n + 1)) + 1 by omega, List.getD_cons_succ]
      · have h3 : ¬ (n ≤ p ∧ p < n + (d :: ds).length) := by
          rw [List.length_cons]
          omega
        rw [if_neg h2, if_neg h1, if_neg h3]

theorem liveClusters_nodup (s : State) : (liveClusters s).Nodup := List.nodup_range.filter _

/-- STRESS of each powered cluster grows by what the reading weighs. -/
theorem look_stress (s : State) (r : Reading) (cs : List Nat) (m : List (Nat × W32)) (hn : cs.Nodup) {c : Nat} (hc : c ∈ cs) :
    look 0 (cs.foldl (fun m c => upd 0 m c (fun h => h + stressAdded s r c)) m) c = look 0 m c + stressAdded s r c := by
  have h := foldl_at (look (0 : W32)) (f := fun m c => upd 0 m c (fun h => h + stressAdded s r c)) (g := fun c h => h + stressAdded s r c)
    (fun m c => look_put_self ..) (fun m c k hk => look_put_ne _ _ _ hk) cs m hn c
  rw [h, if_pos hc]

theorem yarrowReading_gives (delays : List Nat) (reading : Reading) (s : State) :
    ∃ t, execYarrowReading delays reading s = .next t ∧ t.w = s.w ∧ t.mem = s.mem ∧ t.mc.retired = s.mc.retired ∧
      (∀ p < delays.length, look 0 t.mc.delays p = delays.getD p 0) ∧
      (∀ c ∈ liveClusters s, look 0 t.mc.stress c = look 0 s.mc.stress c + stressAdded s reading c) ∧
      ∀ c ∈ liveClusters s, look 0 t.mc.steps c = look 0 s.mc.steps c +
        (if (pairsOf s c).any (fun p => overLimit p (look 0 t.mc.delays p) (look 0 s.mc.steps c)) then 1 else 0) := by
  have hsteps := raiseGuard_steps { s with mc := { s.mc with delays := delays.zipIdx.foldl (fun m e => put 0 m e.2 e.1) s.mc.delays } }
    (liveClusters s) _ ⟨rfl, rfl⟩ (liveClusters_nodup s)
  obtain ⟨st, hst⟩ := foldl_raiseGuard_eq (liveClusters s)
    { s with mc := { s.mc with delays := delays.zipIdx.foldl (fun m e => put 0 m e.2 e.1) s.mc.delays } }
  rw [hst] at hsteps
  unfold execYarrowReading
  dsimp only
  rw [hst]
  obtain ⟨cl, hcl⟩ := showYarrow_eq { s with mc := { s.mc with
    delays := delays.zipIdx.foldl (fun m e => put 0 m e.2 e.1) s.mc.delays, steps := st
    stress := (liveClusters s).foldl (fun m c => upd 0 m c (fun h => h + stressAdded s reading c)) s.mc.stress } }
  refine ⟨_, rfl, ?_⟩
  rw [hcl]
  refine ⟨rfl, rfl, rfl, fun p hp => ?_, fun c hc => look_stress s reading _ _ (liveClusters_nodup s) hc, fun c hc => ?_⟩
  · refine (look_delays delays 0 s.mc.delays p).trans (if_pos ⟨Nat.zero_le p, ?_⟩)
    rwa [Nat.zero_add]
  · exact (hsteps c).trans (if_pos hc)

/-! ### Reset (R16, R394) -/

theorem toRetire_getLsbD (s : State) (failed : BitVec 128) {p : Nat} (hp : p < 128)
    (h : failed.getLsbD p = true ∨ s.mc.asked.getLsbD p = true ∨ 16 < look 0 s.mc.pairUnc p) :
    (toRetire s failed).getLsbD p = true := by
  rw [toRetire, foldl_or_getLsbD (fun p => agedOut s p || decide (16 < look 0 s.mc.pairUnc p)), Bool.or_eq_true]
  rcases h with h | h | h
  · left
    rw [BitVec.getLsbD_or, h, Bool.true_or]
  · left
    rw [BitVec.getLsbD_or, h, Bool.or_true]
  · right
    refine List.any_eq_true.2 ⟨p, List.mem_range.2 hp, ?_⟩
    rw [decide_eq_true h, Bool.or_true, Bool.true_and]
    simp [hp]

/-- What a reset leaves. -/
theorem afterReset_gives (failed : BitVec 128) (expanders : List Nat) (s : State) :
    let t := afterReset failed expanders s
    t.w = {} ∧ t.others = [] ∧ t.ctxs = [] ∧ t.queues = [] ∧ t.mem = s.mem.filter (fun e => e.1 < 2 ^ 100) ∧
      t.images = s.images ∧ t.mc = mcAfterReset s failed expanders := by
  obtain ⟨cl, h⟩ := showYarrow_eq { State.reset with
    mc := mcAfterReset s failed expanders, mem := s.mem.filter (fun e => e.1 < 2 ^ 100)
    bad := s.bad.filter (fun e => 8 * e.1 < 2 ^ 100)
    images := s.images, nextImage := s.nextImage, nextKern := s.nextKern, free := s.free
    outs := (List.range 4).foldl (fun m n => put {} m n { attached := (s.out n).attached }) [] }
  intro t
  have ht : t = _ := h
  rw [ht]
  exact ⟨rfl, rfl, rfl, rfl, rfl, rfl, rfl⟩

/-! ### SPDM (R397) -/

theorem spdmAfter_answers {need kind n step : Nat} {s : State} (h : need ≤ s.mc.spdm) :
    spdmAfter need kind n step s = spdmAnswer kind n step s := if_pos h

theorem spdmAfter_refuses {need kind n step : Nat} {s : State} (h : s.mc.spdm < need) :
    spdmAfter need kind n step s = { s with mc := { s.mc with answers := s.mc.answers + 1, answer := [] } } :=
  if_neg (Nat.not_le.2 h)

/-- Settles O50. -/
theorem managementEventsComplete : Obligations.ManagementEventsComplete := by
  intro s thermal reliability current slew power delays expanders reading failed image nonce n
  refine ⟨?_, ?_, ?_, fun hf => ⟨?_, ?_⟩, fun hf => ?_, ?_⟩
  · refine ⟨_, rfl, ?_, ?_, fun c hc => ?_⟩
    · refine foldl_keeps State.w (fun u c => ?_) _ s
      exact (lowerSupply_wm (loopCluster ..) c).1
    · refine foldl_keeps State.mem (fun u c => ?_) _ s
      exact (lowerSupply_wm (loopCluster ..) c).2
    · have h := throttleOf_loops (thermal := thermal) (reliability := reliability) (current := current) (slew := slew)
        (cap := decide (s.mc.cap < power)) (step := Config.budgetStep s.mc.actions) (List.range (liveClusters s).length) s
        List.nodup_range (List.mem_range.2 hc)
      exact Prod.mk.inj h
  · exact yarrowReading_gives delays reading s
  · obtain ⟨h1, h2, h3, h4, h5, h6, h7⟩ := afterReset_gives failed expanders s
    refine ⟨_, rfl, h1, h2, h3, h4, h5, by rw [h7]; rfl, h6, by rw [h7]; rfl, by rw [h7]; rfl, fun p hp h => ?_, by rw [h7]; rfl⟩
    rw [h7, mcAfterReset, BitVec.getLsbD_or, toRetire_getLsbD s failed hp h, Bool.or_true]
  · exact congrArg Host.Outcome.next (if_pos hf)
  · obtain ⟨h1, -, -, -, h5, -, h7⟩ := afterReset_gives image.failed image.expanders { s with mc := { s.mc with flash := image.bytes } }
    exact ⟨_, congrArg Host.Outcome.next (if_pos hf), by rw [h7]; rfl, h1, h5, by rw [h7]; rfl, by rw [h7]; rfl⟩
  · exact congrArg Host.Outcome.next (if_neg (Bool.eq_false_iff.1 hf))
  · intro answers
    refine ⟨rfl, fun h => congrArg Host.Outcome.next (spdmAfter_answers h), fun h => congrArg Host.Outcome.next (spdmAfter_answers h),
      fun h => ⟨congrArg Host.Outcome.next (spdmAfter_answers h), congrArg Host.Outcome.next (spdmAfter_answers h),
        congrArg Host.Outcome.next (spdmAfter_answers h), fun h1 h2 => ?_⟩, fun h => congrArg Host.Outcome.next (spdmAfter_refuses h),
      fun h => congrArg Host.Outcome.next (spdmAfter_refuses h),
      fun h => ⟨congrArg Host.Outcome.next (spdmAfter_refuses h), congrArg Host.Outcome.next (spdmAfter_refuses h),
        congrArg Host.Outcome.next (spdmAfter_refuses h), ?_⟩⟩
    · exact congrArg Host.Outcome.next (if_pos ⟨h1, h2, h⟩)
    · exact congrArg Host.Outcome.next (if_neg (fun hc => Nat.not_le.2 h hc.2.2))

end Sys2Proof.Proofs
end

section
/-! SUPPORT. Errors: an uncorrectable error in an SRAM of a core is logged for its pair whether or not the word was issued
(R200, R394). -/

namespace Sys2Proof.Proofs
open Sys2Proof Sys2Proof.Machine

/-- An error on a word that was fetched ahead and never issued, at a place in a core's SRAM, is logged for the pair of the core
also (R360, R394). -/
theorem uncorrectableError_logsPair (cluster : Nat) {place : Nat} (h : 2 ^ 128 ≤ place) (s : State) :
    execUncorrectableError cluster place true s = .next { s.setCluster cluster { s.cluster cluster with
        fetchUnrep := bump (s.cluster cluster).fetchUnrep } with
      mc := { s.mc with pairUnc := upd 0 s.mc.pairUnc (physPair s (place % 2 ^ 124 / 2 ^ 104)) (· + 1) } } := by
  unfold execUncorrectableError coreOfPlace
  rw [if_pos h]
  rfl

/-- Refutes O49: an unreported error (`fetch`) in the instruction cache of a core, place 2^128 being its first word, changes the
pair's count in the controller's store also, where the statement says for every place that the cluster's count changes alone. At
reset that count lists no pair, and afterwards it lists one. -/
theorem not_memoryAndErrorEventsComplete : ¬ Obligations.MemoryAndErrorEventsComplete := by
  intro h
  obtain ⟨-, -, -, -, -, hfetch, -⟩ := h State.reset 0 0 0 (2 ^ 128) 0 0 0 0 0
  have hmodel := uncorrectableError_logsPair 0 (Nat.le_refl (2 ^ 128)) State.reset
  have heq := hmodel.symm.trans (hfetch : execUncorrectableError 0 (2 ^ 128) true State.reset = _)
  have hlist := congrArg (fun t => t.mc.pairUnc) (Host.Outcome.next.inj heq)
  exact absurd hlist (by decide +kernel)

end Sys2Proof.Proofs
end

section
/-! SUPPORT. The dispatchers and the DONE_SIG increment (R358, R374 to R378). -/

namespace Sys2Proof.Proofs
open Sys2Proof Sys2Proof.Machine

/-! ### Accesses over the fabric change no other state -/

theorem sendAll_out {ctx : Nat} {ks : List Nat} {s t : State} {taken : Bool} (h : sendAll ctx ks s = (t, taken)) :
    ∃ a b, t = { s with sent := a, free := b } := by
  obtain ⟨a, b, he⟩ := sendAll_eq ctx ks s
  rw [h] at he
  exact ⟨a, b, he⟩

/-! ### Heads (R374, R377) -/

section
variable {s : State} {die n : Nat}

/-- What the examination of a head that has not been found ready comes to. -/
theorem examineHead_open (hp : presents s n = true) (hk : (s.queue n).headKern = none) (hr : (s.queue n).ready = false)
    (hh : (n, (s.queue n).head.toNat) ∉ (s.die die).heldHeads) :
    (!presents s n || (s.queue n).headKern.isSome || (s.queue n).ready ||
      (s.die die).heldHeads.contains (n, (s.queue n).head.toNat)) = false := by
  rw [hp, hk, hr, Bool.eq_false_iff.2 (fun h => hh (List.contains_iff_mem.1 h))]
  rfl

/-- A head that its packet makes illegal is rejected once its record has room. -/
theorem examineHead_illegal (hp : presents s n = true) (hk : (s.queue n).headKern = none) (hr : (s.queue n).ready = false)
    (hh : (n, (s.queue n).head.toNat) ∉ (s.die die).heldHeads) {r : Nat} (h : (headPkt s n).reason s (s.queue n) = some r) :
    examineHead die n s = if (s.queue n).dl || ringReady s (s.queue n).cx 3 then rejectHead n r s else s := by
  unfold examineHead
  dsimp only
  rw [examineHead_open hp hk hr hh, if_neg Bool.false_ne_true, h]

/-- A legal head that no earlier packet keeps waiting. -/
theorem examineHead_legal (hp : presents s n = true) (hk : (s.queue n).headKern = none) (hr : (s.queue n).ready = false)
    (hh : (n, (s.queue n).head.toNat) ∉ (s.die die).heldHeads) (h : (headPkt s n).reason s (s.queue n) = none)
    (hb : (headPkt s n).barrier = true → earlierDone s n = true) :
    let p := headPkt s n
    (p.f 0x38 8 = 0 → examineHead die n s = s.setQueue n { s.queue n with ready := true }) ∧
    (p.f 0x38 8 ≠ 0 → ∀ e, checkPage s (s.queue n).cx die (w64 (p.f 0x30 8)) .read = .error e →
      examineHead die n s = if (s.queue n).dl || ringReady s (s.queue n).cx 3 then rejectHead n 10 s else s) ∧
    (p.f 0x38 8 ≠ 0 → ∀ e pa, checkPage s (s.queue n).cx die (w64 (p.f 0x30 8)) .read = .ok (e, pa) → pa.resident = true →
      ∀ t taken, sendAll (s.queue n).cx [pa.key] s = (t, taken) →
      (taken = false → examineHead die n s = t) ∧
      (taken = true → isBad t pa.key = false →
        (p.f 0x38 8 ≤ rdMem t.mem pa.key 8 → examineHead die n s = t.setQueue n { s.queue n with ready := true }) ∧
        (rdMem t.mem pa.key 8 < p.f 0x38 8 → examineHead die n s = t))) := by
  intro p
  have hbar : ¬ ((headPkt s n).barrier && !earlierDone s n) = true := by
    rw [Bool.and_eq_true, Bool.not_eq_true']
    rintro ⟨h1, h2⟩
    exact Bool.noConfusion (h2.symm.trans (hb h1))
  unfold examineHead
  dsimp only
  rw [examineHead_open hp hk hr hh, if_neg Bool.false_ne_true, h]
  dsimp only
  rw [if_neg hbar]
  refine ⟨fun h0 => if_pos h0, fun h0 e he => ?_, fun h0 e pa hpa hres t taken hs => ?_⟩
  · rw [if_neg h0, he]
  · rw [if_neg h0, hpa]
    dsimp only
    rw [hres, if_neg (by decide), hs]
    refine ⟨fun ht => ?_, fun ht hbad => ⟨fun hle => ?_, fun hlt => ?_⟩⟩
    · rw [ht]
      rfl
    · subst ht
      exact (if_neg Bool.false_ne_true).trans ((if_neg (Bool.eq_false_iff.1 hbad)).trans (if_pos hle))
    · subst ht
      exact (if_neg Bool.false_ne_true).trans ((if_neg (Bool.eq_false_iff.1 hbad)).trans (if_neg (Nat.not_le.2 hlt)))

/-! ### The choice of a head (R358, R375, R376) -/

/-- The first head that has room is placed, or halted at the breakpoint that it meets. -/
theorem chooseHead_first {asked cores rest : List Nat} (h : headPlace s die n asked = some cores) :
    ((toMatch s die n = true → matchBp s die n = none) → chooseHead die asked (n :: rest) s = placeHead n cores s) ∧
    (∀ bp, toMatch s die n = true → matchBp s die n = some bp → (s.die die).halt = false →
      chooseHead die asked (n :: rest) s = haltHead die n bp s) := by
  rw [chooseHead, h]
  dsimp only
  refine ⟨fun hm => ?_, fun bp ht hm hh => ?_⟩
  · have hn : (if toMatch s die n then matchBp s die n else none) = none := by
      split
      · exact hm ‹_›
      · rfl
    rw [hn]
  · rw [if_pos ht, hm]
    exact if_neg (Bool.eq_false_iff.1 hh)

/-- Where no launch of an image waits, a dispatch step chooses among the heads. -/
theorem dispatch_chooses {asked : List Nat} (hr : s.mc.recovery = false) (hu : s.resumes = []) :
    dispatch die asked s = chooseHead die asked (headsInOrder ((List.range 64).foldl (fun s n => examineHead die n s) s))
      ((List.range 64).foldl (fun s n => examineHead die n s) s) := by
  unfold dispatch
  rw [hr, hu, if_neg Bool.false_ne_true]
  rfl

end

/-! ### DONE_SIG (R378) -/

section
variable {s : State} {n : Nat}

theorem doneSig_none (hs : (s.kernel n).st = .signal) (h0 : (s.kernel n).pktField 0x40 8 = 0) :
    doneSig n s = s.setKernel n { s.kernel n with st := .done } := by
  unfold doneSig
  rw [if_neg (not_not_intro hs), if_pos h0]

/-- An increment that fails leaves its record, once that has room. -/
theorem doneSig_fails (hs : (s.kernel n).st = .signal) (h0 : (s.kernel n).pktField 0x40 8 ≠ 0) {e : Fail}
    (he : checkPage s (s.kernel n).ctx (s.kernel n).lastDie (w64 ((s.kernel n).pktField 0x40 8)) .rmw = .error e) :
    let k := s.kernel n
    let u := s.setKernel n { k with st := .done }
    doneSig n s = if ringReady s k.ctx 3 then
      doneFailed k e.cause (if e.cause = 0x15 then logUnc (logCluster u k.lastDie) u else u) else s := by
  intro k u
  unfold doneSig
  dsimp only
  rw [if_neg (not_not_intro hs), if_neg h0, he]
  rfl

/-- One that the fabric refuses is made again; another adds 1 to the word. -/
theorem doneSig_adds (hs : (s.kernel n).st = .signal) (h0 : (s.kernel n).pktField 0x40 8 ≠ 0) {e : Leaf} {pa : Pass}
    (he : checkPage s (s.kernel n).ctx (s.kernel n).lastDie (w64 ((s.kernel n).pktField 0x40 8)) .rmw = .ok (e, pa))
    (hres : pa.resident = true) {u : State} {taken : Bool} (hsend : sendAll (s.kernel n).ctx [pa.key] s = (u, taken)) :
    (taken = false → doneSig n s = u) ∧
    (taken = true → isBad u pa.key = false →
      let t := storeMem pa.key 8 (w64 (rdMem u.mem pa.key 8 + 1)) false u
      doneSig n s = t.setKernel n { t.kernel n with st := .done }) := by
  unfold doneSig
  dsimp only
  rw [if_neg (not_not_intro hs), if_neg h0, he]
  dsimp only
  rw [hres, if_neg (by decide), hsend]
  refine ⟨fun ht => ?_, fun ht hbad => ?_⟩
  · rw [ht]
    rfl
  · subst ht
    exact (if_neg Bool.false_ne_true).trans (if_neg (Bool.eq_false_iff.1 hbad))

end

/-- Settles O47. -/
theorem dispatchEventsComplete : Obligations.DispatchEventsComplete := by
  refine fun s die n => ⟨fun hn hp hk hr hh => ?_, fun asked cores rest hr hu => ?_, ?_⟩
  · intro p room
    refine ⟨fun r h => ?_, fun h hb => ?_⟩
    · exact congrArg Host.Outcome.next ((if_pos hn).trans (examineHead_illegal hp hk hr hh h))
    · obtain ⟨h1, h2, h3⟩ := examineHead_legal hp hk hr hh h hb
      refine ⟨fun h0 => ?_, fun h0 e he => ?_, fun h0 e pa hpa hres t taken hs => ?_⟩
      · exact congrArg Host.Outcome.next ((if_pos hn).trans (h1 h0))
      · exact congrArg Host.Outcome.next ((if_pos hn).trans (h2 h0 e he))
      · obtain ⟨h4, h5⟩ := h3 h0 e pa hpa hres t taken hs
        exact ⟨fun ht => congrArg Host.Outcome.next ((if_pos hn).trans (h4 ht)), fun ht hbad =>
          ⟨fun hle => congrArg Host.Outcome.next ((if_pos hn).trans ((h5 ht hbad).1 hle)),
            fun hlt => congrArg Host.Outcome.next ((if_pos hn).trans ((h5 ht hbad).2 hlt))⟩⟩
  · intro t ho hpl
    have hd : exec (.dispatchStep die asked) s = .next (chooseHead die asked (n :: rest) t) :=
      congrArg Host.Outcome.next ((dispatch_chooses hr hu).trans (congrArg (fun l => chooseHead die asked l t) ho))
    obtain ⟨h1, h2⟩ := chooseHead_first (rest := rest) hpl
    exact ⟨fun hm => hd.trans (congrArg Host.Outcome.next (h1 hm)),
      fun bp ht hm hh => hd.trans (congrArg Host.Outcome.next (h2 bp ht hm hh))⟩
  · intro k hk
    refine ⟨fun h0 => congrArg Host.Outcome.next (doneSig_none hk h0), fun h0 e he => ?_, fun h0 e pa he hres u taken hsend => ?_⟩
    · exact congrArg Host.Outcome.next (doneSig_fails hk h0 he)
    · obtain ⟨h1, h2⟩ := doneSig_adds hk h0 he hres hsend
      refine ⟨fun ht => congrArg Host.Outcome.next (h1 ht), fun ht hbad => ⟨_, congrArg Host.Outcome.next (h2 ht hbad), ?_⟩⟩
      obtain ⟨a, b, rfl⟩ := sendAll_out hsend
      refine ⟨rfl, State.setKernel_kernel_self .., ?_, fun x hx => ?_⟩
      · show rdMem (wrMem s.mem pa.key 8 (w64 (rdMem s.mem pa.key 8 + 1)).toNat) pa.key 8 = _
        rw [rdMem_wrMem, w64, BitVec.toNat_ofNat]
        exact Nat.mod_mod _ _
      · show look 0 (wrMem s.mem pa.key 8 _) x = _
        rw [look_wrMem, if_neg hx]

end Sys2Proof.Proofs
end

section
/-! SUPPORT. The host's commands (R185, R188, R345, R346, R368, R369, R371, R380, R386). -/

namespace Sys2Proof.Proofs
open Sys2Proof Sys2Proof.Machine

/-! ### Commands and their STATUS (R368, R371) -/

/-- The state in which the host has written a command's code and context to CMD. -/
def commanded (code n : Nat) (s : State) : State := { s with cmd := w32 (code + 256 * n) }

section
variable {s : State} {ctx : BitVec 24} {code : Nat} {f : Nat → State → State × Nat}

/-- A command that may begin ends in its own step. -/
theorem command_runs (hb : s.cmdbusy = false) (hr : s.mc.recovery = false) {t : State} {st : Nat}
    (h : f ctx.toNat (commanded code ctx.toNat s) = (t, st)) : command code ctx f s = { t with cmdstatus := st } := by
  unfold command
  refine (if_neg (Bool.eq_false_iff.1 hb)).trans ((if_neg (Bool.eq_false_iff.1 hr)).trans ?_)
  exact congrArg (fun r : State × Nat => ({ r.1 with cmdstatus := r.2 } : State)) h

theorem command_recovery (hb : s.cmdbusy = false) (hr : s.mc.recovery = true) :
    command code ctx f s = { commanded code ctx.toNat s with cmdstatus := 3 } := by
  unfold command
  exact (if_neg (Bool.eq_false_iff.1 hb)).trans (if_pos hr)

theorem command_busy (hb : s.cmdbusy = true) : command code ctx f s = s := if_pos hb

end

section
variable {s t : State} {n st : Nat} {f : Nat → State → State × Nat}

theorem onCtx_live (hl : (s.ctx n).live = true) (h : f n s = (t, st)) : onCtx f n s = (t, st) := (if_pos hl).trans h

theorem onCtx_unknown (hl : (s.ctx n).live = false) : onCtx f n s = (s, 2) := if_neg (Bool.eq_false_iff.1 hl)

/-! ### The commands one by one -/

theorem register_gives (h0 : n ≠ 0) (ha : s.cmdarg0.toNat % 256 = 0)
    (hr : (inRange s 0 s.cmdarg0.toNat 256 || inRange s 1 s.cmdarg0.toNat 256) = true)
    (hd : ctxDescOk (loadBytes s s.cmdarg0.toNat 256) = true) (hl : (s.ctx n).live = false)
    (hn : (s.ctxs.filter (fun e => e.2.live)).length < 1024) :
    let bs := loadBytes s s.cmdarg0.toNat 256
    register n s = (s.setCtx n { live := true, desc := s.cmdarg0.toNat, ptroot := field bs 0 8, fpool := w64 (field bs 8 8)
                                 fstride := field bs 0x10 4, gang := field bs 0x14 2, held := (s.ctx n).held }, 0) := by
  intro bs
  unfold register
  refine (if_neg ?_).trans (if_neg ?_)
  · rintro (h | h | h | h)
    · exact h0 h
    · exact h ha
    · rw [hr] at h
      exact absurd h (by decide)
    · rw [hd] at h
      exact absurd h (by decide)
  · rintro (h | h)
    · exact Bool.noConfusion (hl.symm.trans h)
    · exact Nat.not_le.2 hn h

theorem unregister_gives (hw : hasWork s n = false) (hq : s.queues.any (fun e => e.2.en && e.2.cx == n) = false) :
    unregister n s = (s.setCtx n { desc := (s.ctx n).desc, held := (s.ctx n).held }, 0) := by
  unfold unregister
  rw [hw, hq]
  rfl

/-- The translations of the range of CMDARG0 and CMDARG1 leave the TLB of every die. -/
def flushed (n : Nat) (s : State) : State :=
  { s with dies := s.dies.map (fun e =>
      (e.1, { e.2 with tlb := e.2.tlb.filter (fun t => !t.inRange n s.cmdarg0.toNat s.cmdarg1.toNat) })) }

theorem tlbInv_gives (hb : s.cmdbusy = false) (ha : s.cmdarg0.toNat % 65536 = 0) (hl : s.cmdarg1.toNat % 65536 = 0)
    (hf : inFlight s n = false) :
    tlbInv n s = (flushed n s, 0) := by
  unfold tlbInv
  refine (if_neg (fun h => h.elim (fun h => h ha) (fun h => h hl))).trans ?_
  exact congrArg (fun b => ({ flushed n s with cmdbusy := b }, 0)) (Eq.trans (b := inFlight s n) rfl (hf.trans hb.symm))

theorem preemptCmd_bad (ha : s.cmdarg0.toNat % 4096 ≠ 0) : preemptCmd n s = (s, 1) := if_pos ha

theorem preemptCmd_refused (ha : s.cmdarg0.toNat % 4096 = 0) (hq : s.queues.any (fun e => e.2.pe && e.2.cx == n) = false) :
    preemptCmd n s = (s, 3) := (if_neg (not_not_intro ha)).trans (if_pos (by rw [hq]; rfl))

theorem preemptCmd_gives (ha : s.cmdarg0.toNat % 4096 = 0) (hq : s.queues.any (fun e => e.2.pe && e.2.cx == n) = true) :
    preemptCmd n s = (if (s.ctx n).stop = 1 then deferred n none s.cmdarg0.toNat s else requestStop n s.cmdarg0.toNat s, 0) :=
  (if_neg (not_not_intro ha)).trans (if_neg (by rw [hq]; decide))

theorem resumeCmd_bad (ha : s.cmdarg0.toNat % 4096 ≠ 0) : resumeCmd n s = (s, 1) := if_pos ha

theorem resumeCmd_deferred (ha : s.cmdarg0.toNat % 4096 = 0) (hs : (s.ctx n).stop = 1) :
    resumeCmd n s = (deferred n (some (bits s.cmdarg1 5 0)) s.cmdarg0.toNat s, 0) := (if_neg (not_not_intro ha)).trans (if_pos hs)

/-- A RESUME places the images that it finds where all of them are of parts like this one. -/
theorem resumeCmd_images (ha : s.cmdarg0.toNat % 4096 = 0) (hs : (s.ctx n).stop ≠ 1) {is : List (Option Image × Bool)}
    (hi : imagesFrom s n (s.mem.length + 1) s.cmdarg0.toNat = is) :
    (is.all (fun x => x.2) = false → resumeCmd n s = (s, 1)) ∧
    (is.all (fun x => x.2) = true → resumeCmd n s = (resumeAt n (bits s.cmdarg1 5 0) is s, 0)) := by
  unfold resumeCmd
  dsimp only
  rw [if_neg (not_not_intro ha), if_neg hs, hi]
  exact ⟨fun h => if_neg (Bool.eq_false_iff.1 h), fun h => if_pos h⟩

theorem killCmd_gives :
    (((endKill n s).ctx n).killed = true → killCmd n s = (disableQueues n (endKill n s), 0)) ∧
    (((endKill n s).ctx n).killed = false → killCmd n s = (disableQueues n (killCtx n 3 0 (match firstWarp (endKill n s) n with
      | some w => killRecord (endKill n s) n 3 0 w.tlevel w.shownPath.1.pc 0 0 w
      | none => recordOf 256 [(0, 4, n), (4, 1, 3)]) (endKill n s)), 0)) := by
  unfold killCmd
  exact ⟨fun h => if_pos h, fun h => if_neg (Bool.eq_false_iff.1 h)⟩

theorem gstartCmd_gives (ha : s.cmdarg0.toNat % 4096 = 0) (h0 : bits s.cmdarg1 19 0 ≠ 0) (h1 : bits s.cmdarg1 19 0 ≤ 1000000)
    (hg : (s.ctx n).gang ≠ 0) :
    gstartCmd n s = (s.setCtx n { s.ctx n with
      gstart := some (s.cmdarg0.toNat, s.mc.us + bits s.cmdarg1 19 0), accepted := false }, 0) :=
  if_neg (fun h => h.elim (fun h => h ha) (fun h => h.elim h0 (fun h => h.elim (Nat.not_lt.2 h1) hg)))

/-- A code that the device has no command for. -/
theorem writeCmd_unknown {x : W64} (h : bits x 7 0 = 0 ∨ 8 < bits x 7 0) :
    writeCmd x s = command (bits x 7 0) (x.extractLsb' 8 24) (fun _ s => (s, stNoCode)) s := by
  unfold writeCmd
  generalize bits x 7 0 = k at h
  match k, h with
  | 0, _ => rfl
  | k + 9, _ => rfl
  | 1, h | 2, h | 3, h | 4, h | 5, h | 6, h | 7, h | 8, h => omega

end

/-- Settles O45: each command runs by `command_runs` with the outcome of its own rule. -/
theorem commandsComplete : Obligations.CommandsComplete := by
  intro s ctx n c a on ends
  refine ⟨fun hb hr => ⟨?_, fun hl hw hq => ?_, fun hl ha h1 hf => ?_, fun hl => ?_, fun hl => ⟨fun ha => ⟨?_, ?_⟩, fun ha hq => ?_,
    fun ha hq => ⟨fun hs => ?_, fun hs => ?_⟩⟩, ?_, ?_, fun hl ha h0 h1 hg => ?_, fun x hx => ?_, fun hl => ⟨?_, ?_, ?_, ?_, ?_, ?_, ?_⟩⟩,
    fun hb hr => ⟨?_, ?_⟩, fun hb => ⟨?_, ?_, ?_⟩, fun hb hc hf => ?_⟩
  · intro bs h0 ha hrange hd hl hn
    exact congrArg Host.Outcome.next (command_runs hb hr (register_gives (s := on 1) h0 ha hrange hd hl hn))
  · exact congrArg Host.Outcome.next (command_runs hb hr (onCtx_live hl (unregister_gives (s := on 2) hw hq)))
  · refine congrArg Host.Outcome.next ((if_neg (Bool.eq_false_iff.1 hb)).trans ?_)
    exact command_runs hb hr (onCtx_live hl (tlbInv_gives (s := on 3) hb ha h1 hf))
  · exact congrArg Host.Outcome.next (command_runs hb hr (onCtx_live hl rfl))
  · exact congrArg Host.Outcome.next (command_runs hb hr (onCtx_live hl (preemptCmd_bad (s := on 5) ha)))
  · exact congrArg Host.Outcome.next (command_runs hb hr (onCtx_live hl (resumeCmd_bad (s := on 6) ha)))
  · exact congrArg Host.Outcome.next (command_runs hb hr (onCtx_live hl (preemptCmd_refused (s := on 5) ha hq)))
  · refine congrArg Host.Outcome.next (command_runs hb hr (onCtx_live hl ((preemptCmd_gives (s := on 5) ha hq).trans ?_)))
    exact congrArg (fun t => (t, 0)) (if_neg hs)
  · refine congrArg Host.Outcome.next (command_runs hb hr (onCtx_live hl ((preemptCmd_gives (s := on 5) ha hq).trans ?_)))
    exact congrArg (fun t => (t, 0)) (if_pos hs)
  · intro q hl ha
    refine ⟨fun hs => ?_, fun hs is hi => ?_⟩
    · exact congrArg Host.Outcome.next (command_runs hb hr (onCtx_live hl (resumeCmd_deferred (s := on 6) ha hs)))
    · obtain ⟨h1, h2⟩ := resumeCmd_images (s := on 6) ha hs hi
      exact ⟨fun h => congrArg Host.Outcome.next (command_runs hb hr (onCtx_live hl (h1 h))),
        fun h => congrArg Host.Outcome.next (command_runs hb hr (onCtx_live hl (h2 h)))⟩
  · intro hl t quiet record
    obtain ⟨h1, h2⟩ := killCmd_gives (s := on 7) (n := n)
    exact ⟨fun h => congrArg Host.Outcome.next (command_runs hb hr (onCtx_live hl (h1 h))),
      fun h => congrArg Host.Outcome.next (command_runs hb hr (onCtx_live hl (h2 h)))⟩
  · exact congrArg Host.Outcome.next (command_runs hb hr (onCtx_live hl (gstartCmd_gives (s := on 8) ha h0 h1 hg)))
  · exact congrArg Host.Outcome.next ((writeCmd_unknown hx).trans (command_runs hb hr rfl))
  · exact congrArg Host.Outcome.next (command_runs hb hr (onCtx_unknown hl))
  · refine congrArg Host.Outcome.next ((if_neg (Bool.eq_false_iff.1 hb)).trans ?_)
    exact command_runs hb hr (onCtx_unknown hl)
  · exact congrArg Host.Outcome.next (command_runs hb hr (onCtx_unknown hl))
  · exact congrArg Host.Outcome.next (command_runs hb hr (onCtx_unknown hl))
  · exact congrArg Host.Outcome.next (command_runs hb hr (onCtx_unknown hl))
  · exact congrArg Host.Outcome.next (command_runs hb hr (onCtx_unknown hl))
  · exact congrArg Host.Outcome.next (command_runs hb hr (onCtx_unknown hl))
  · exact congrArg Host.Outcome.next (command_recovery hb hr)
  · exact congrArg Host.Outcome.next (command_recovery hb hr)
  · exact congrArg Host.Outcome.next (command_busy hb)
  · exact congrArg Host.Outcome.next (command_busy hb)
  · exact congrArg Host.Outcome.next (command_busy hb)
  · refine congrArg Host.Outcome.next ((if_pos hb).trans (if_pos ?_))
    rw [hb, show bits32 s.cmd 31 8 = ctx.toNat from hc, beq_self_eq_true, show inFlight s ctx.toNat = false from hf]
    rfl

end Sys2Proof.Proofs
end

section
/-! SUPPORT. Fault batches, held records, gangs, the stop of pre-emption and context images (R188, R351 to R353, R369, R370,
R386). -/

namespace Sys2Proof.Proofs
open Sys2Proof Sys2Proof.Machine

/-! ### Byte lists and their fields -/

theorem ofLe_leBytes_mod : ∀ n v : Nat, ofLe (leBytes n v) = v % 256 ^ n
  | 0, v => (Nat.mod_one v).symm
  | n + 1, v => by
    rw [leBytes, ofLe, ofLe_leBytes_mod n, Nat.pow_succ', Nat.mod_mul (a := 256)]
    rfl

/-- Byte `j` of the number that bytes hold is the byte at `j`. -/
theorem ofLe_byte : ∀ (bs : List Byte) (j : Nat), BitVec.ofNat 8 (ofLe bs / 256 ^ j) = bs.getD j 0
  | [], j => by simp [ofLe]
  | b :: bs, 0 => by
    apply BitVec.eq_of_toNat_eq
    simp [ofLe]
    omega
  | b :: bs, j + 1 => by
    have h : (b.toNat + 256 * ofLe bs) / 256 = ofLe bs := by have := b.isLt; omega
    rw [ofLe, Nat.pow_succ', ← Nat.div_div_eq_div_mul, h, ofLe_byte bs j, List.getD_cons_succ]

theorem patch_length {bs new : List Byte} {o : Nat} (h : o + new.length ≤ bs.length) : (patch bs o new).length = bs.length := by
  simp [patch]
  omega

theorem field_patch_same {bs new : List Byte} {o : Nat} (h : o ≤ bs.length) : field (patch bs o new) o new.length = ofLe new := by
  have ht : (bs.take o).length = o := by simp [h]
  rw [field, patch, List.append_assoc, List.drop_left' ht, List.take_left' rfl]

/-- A patch leaves the fields in front of it and behind it. -/
theorem field_patch_other {bs new : List Byte} {o f n : Nat} (h : o + new.length ≤ bs.length) (hf : f + n ≤ o ∨ o + new.length ≤ f) :
    field (patch bs o new) f n = field bs f n := by
  refine congrArg ofLe (List.ext_getElem? fun i => ?_)
  rcases Nat.lt_or_ge i n with hi | hi
  · rw [List.getElem?_take_of_lt hi, List.getElem?_take_of_lt hi, List.getElem?_drop, List.getElem?_drop, patch, List.append_assoc]
    rcases hf with hf | hf
    · rw [List.getElem?_append_left (by simp; omega), List.getElem?_take_of_lt (by omega)]
    · rw [List.getElem?_append_right (by simp; omega), List.getElem?_append_right (by simp; omega), List.getElem?_drop]
      congr 1
      simp
      omega
  · rw [List.getElem?_eq_none (by simp; omega), List.getElem?_eq_none (by simp; omega)]

theorem field_append {bs cs : List Byte} {f n : Nat} (h : f + n ≤ bs.length) : field (bs ++ cs) f n = field bs f n := by
  rw [field, field, List.drop_append_of_le_length (by omega), List.take_append_of_le_length (by simp; omega)]

/-! ### Bytes stored and read back -/

theorem byte_storeWords : ∀ (vs : List Nat) (s : State) (k j : Nat),
    (storeWords s k vs).byte j = if k ≤ j ∧ j < k + 8 * vs.length then BitVec.ofNat 8 (vs.getD ((j - k) / 8) 0 / 256 ^ ((j - k) % 8))
      else s.byte j
  | [], s, k, j => (if_neg (by simp)).symm
  | v :: vs, s, k, j => by
    rw [storeWords, byte_storeWords vs, byte_storeMem]
    by_cases h8 : k + 8 ≤ j
    · have e : (j - k) / 8 = (j - (k + 8)) / 8 + 1 := by omega
      have e' : (j - k) % 8 = (j - (k + 8)) % 8 := by omega
      rw [e, e', List.getD_cons_succ, if_neg (show ¬(k ≤ j ∧ j < k + 8) by omega), List.length_cons]
      exact ite_of_iff (by omega) rfl rfl
    · rw [if_neg (by omega)]
      by_cases hk : k ≤ j
      · have e : (j - k) / 8 = 0 := by omega
        have e' : (j - k) % 8 = j - k := by omega
        rw [if_pos (by omega), if_pos (by simp; omega), e, e', List.getD_cons_zero]
        apply BitVec.eq_of_toNat_eq
        have : j - k < 8 := by omega
        generalize j - k = i at this
        rw [BitVec.toNat_ofNat, BitVec.toNat_ofNat, w64, BitVec.toNat_ofNat]
        rcases i with _ | _ | _ | _ | _ | _ | _ | _ | i <;> omega
      · rw [if_neg (by omega), if_neg (by simp; omega)]

/-- Bytes whose number is a multiple of 8 are read back as they were stored. -/
theorem loadBytes_storeBytes (s : State) (k : Nat) {bs : List Byte} (h : 8 ∣ bs.length) : loadBytes (storeBytes s k bs) k bs.length = bs := by
  have hw : (wordsOf bs).length = bs.length / 8 := by simp [wordsOf]; omega
  refine List.ext_getElem (by simp [loadBytes]) fun i hi _ => ?_
  have hi : i < bs.length := by simpa [loadBytes] using hi
  have h8 : i / 8 < (bs.length + 7) / 8 := by omega
  simp only [loadBytes, List.getElem_map, List.getElem_range]
  rw [storeBytes, byte_storeWords, if_pos (by omega), Nat.add_sub_cancel_left]
  rw [getD_of_lt _ _ (by omega)]
  simp only [wordsOf, List.getElem_map, List.getElem_range]
  rw [field, ofLe_byte, getD_of_lt _ _ (by simp; omega), List.getElem_take, List.getElem_drop]
  congr 1
  omega

/-! ### Records in a context's rings (R369) -/

/-- What a write of memory leaves of the state: all but memory and its poison. -/
def Beside (t s : State) : Prop := ∃ m b, t = { s with mem := m, bad := b }

theorem Beside.trans {s t u : State} : Beside u t → Beside t s → Beside u s := by
  rintro ⟨m, b, rfl⟩ ⟨m', b', rfl⟩
  exact ⟨m, b, rfl⟩

theorem storeWords_beside : ∀ (vs : List Nat) (s : State) (k : Nat), Beside (storeWords s k vs) s
  | [], s, _ => ⟨s.mem, s.bad, rfl⟩
  | _ :: vs, _, _ => (storeWords_beside vs _ _).trans ⟨_, _, rfl⟩

theorem ringWrite_beside (n ring : Nat) (bs : List Byte) (s : State) : Beside (ringWrite n ring bs s) s :=
  Beside.trans ⟨_, _, rfl⟩ (storeWords_beside _ s _)

/-- A record that is written or held changes memory and the context's held records alone. -/
theorem ringOrHold_beside (n ring : Nat) (bs : List Byte) (s : State) :
    ∃ hs, Beside (ringOrHold n ring bs s) (s.setCtx n { s.ctx n with held := hs }) ∨ Beside (ringOrHold n ring bs s) s := by
  unfold ringOrHold
  split
  · split
    · exact ⟨_, .inl ⟨_, _, rfl⟩⟩
    · exact ⟨[], .inr (ringWrite_beside n ring bs s)⟩
  · exact ⟨[], .inr ⟨_, _, rfl⟩⟩

/-- So every other field of the context is as it was, and so are warps and images. -/
theorem ringOrHold_ctx (n ring : Nat) (bs : List Byte) (s : State) :
    ∃ hs, (ringOrHold n ring bs s).ctx n = { s.ctx n with held := hs } := by
  obtain ⟨hs, ⟨m, b, h⟩ | ⟨m, b, h⟩⟩ := ringOrHold_beside n ring bs s <;> rw [h]
  · exact ⟨hs, s.setCtx_ctx_self n _⟩
  · exact ⟨(s.ctx n).held, rfl⟩

theorem ringOrHold_warps (n ring : Nat) (bs : List Byte) (s : State) : (ringOrHold n ring bs s).warps = s.warps := by
  obtain ⟨hs, ⟨m, b, h⟩ | ⟨m, b, h⟩⟩ := ringOrHold_beside n ring bs s <;> exact (congrArg State.warps h).trans rfl

theorem ringOrHold_images (n ring : Nat) (bs : List Byte) (s : State) : (ringOrHold n ring bs s).images = s.images := by
  obtain ⟨hs, ⟨m, b, h⟩ | ⟨m, b, h⟩⟩ := ringOrHold_beside n ring bs s <;> exact (congrArg State.images h).trans rfl

theorem writeHeld_writes {n ring : Nat} {s : State} {h : Nat × List Byte} (hh : (s.ctx n).held.find? (fun h => h.1 == ring) = some h)
    (hr : ringFull s n ring = false) : writeHeld n ring s =
      ringWrite n ring h.2 (s.setCtx n { s.ctx n with held := dropFirst (fun x => x.1 == ring) (s.ctx n).held }) := by
  unfold writeHeld
  dsimp only
  rw [hh]
  exact if_neg (Bool.eq_false_iff.1 hr)

/-! ### Gangs (R386) -/

section
variable {s : State} {ctx : BitVec 24} {a due : Nat}

theorem gangAccept_eq (hg : (s.ctx ctx.toNat).gstart = some (a, due)) : execGangAccept ctx s =
    .next (if s.mc.us < due && mayAccept s ctx.toNat then s.setCtx ctx.toNat { s.ctx ctx.toNat with accepted := true } else s) := by
  unfold execGangAccept
  dsimp only
  rw [hg]

theorem gangTimeout_eq {n : Nat} (hg : (s.ctx n).gstart = some (a, due)) : gangTimeout n s =
    if (s.ctx n).accepted || s.mc.us < due then s
    else gangLate n 0 a { s with mc := { s.mc with aborts := s.mc.aborts ++ [(s.ctx n).gang] } } := by
  unfold gangTimeout
  rw [hg]

theorem gangAbort_eq {n : Nat} {gang : BitVec 16} {c : Ctx}
    (h : s.ctxs.filter (fun e => e.2.live && e.2.gang == gang.toNat && gang != 0) = [(n, c)]) (hg : (s.ctx n).gstart = some (a, due)) :
    execGangAbort gang s = .next (gangLate n 1 a s) := by
  unfold execGangAbort
  dsimp only
  rw [h]
  refine congrArg Host.Outcome.next (Eq.trans (List.foldl_cons ..) ?_)
  rw [hg]
  rfl

end

section
variable (n role a : Nat) (s : State)

/-- The record of KIND 3 (R370). -/
def gangRecord : List Byte := recordOf 256 [(0, 4, n), (4, 1, role), (7, 1, 3), (8, 8, (s.ctx n).gang)]

/-- A gang that is late stops its context at once, to the image address of its GSTART. -/
theorem gangLate_stops (h : (s.ctx n).stop ≠ 1) : gangLate n role a s =
    ringOrHold n 3 (gangRecord n role s) (requestStop n a (s.setCtx n { s.ctx n with gstart := none })) :=
  congrArg (ringOrHold n 3 _) (if_neg h)

/-- A stop in progress ends first (log 173). -/
theorem gangLate_waits (h : (s.ctx n).stop = 1) : gangLate n role a s =
    ringOrHold n 3 (gangRecord n role s) (deferred n none a (s.setCtx n { s.ctx n with gstart := none })) :=
  congrArg (ringOrHold n 3 _) (if_pos h)

theorem gangLate_stops_ctx (h : (s.ctx n).stop ≠ 1) :
    let d := (gangLate n role a s).ctx n
    d.stop = 1 ∧ d.gstart = none ∧ d.imageAt = a := by
  obtain ⟨hs, h2⟩ := ringOrHold_ctx n 3 (gangRecord n role s) (requestStop n a (s.setCtx n { s.ctx n with gstart := none }))
  rw [gangLate_stops n role a s h, h2, requestStop, State.setCtx_ctx_self]
  exact ⟨rfl, rfl, rfl⟩

theorem gangLate_waits_ctx (h : (s.ctx n).stop = 1) :
    let d := (gangLate n role a s).ctx n
    d.stop = 1 ∧ d.gstart = none ∧ d.later = (s.ctx n).later ++ [(none, a)] := by
  obtain ⟨hs, h2⟩ := ringOrHold_ctx n 3 (gangRecord n role s) (deferred n none a (s.setCtx n { s.ctx n with gstart := none }))
  rw [gangLate_waits n role a s h, h2, deferred, State.setCtx_ctx_self, State.setCtx_ctx_self]
  exact ⟨h, rfl, rfl⟩

end

/-! ### The stop of a context on a core (R351, R352) -/

/-- What the stop of a core's warps leaves alone: the warps and the contexts. -/
def kept (s : State) : Warp × List Warp × List (Nat × Ctx) := (s.w, s.others, s.ctxs)

section
variable {β : Type} {π : State → β}
  (hπ : ∀ (s : State) m b cl ti, π { s with mem := m, bad := b, clusters := cl, tiles := ti } = π s)
include hπ

/-- What neither memory nor the clusters' hand-in lists nor the tiles have part in, an initialised buffer leaves. -/
theorem clearBuffer_keeps (seg : Nat) (s : State) : π (clearBuffer seg s) = π s := by
  unfold clearBuffer
  refine foldl_keeps π (fun t n => ?_) _ s
  obtain ⟨m, b, h⟩ := storeWords_beside [0xFFFFFFFF3F800000, 0] t (scratchKey seg (16 * n))
  rw [h]
  exact hπ t m b t.clusters t.tiles

theorem placeOne_keeps (c : Nat) (s : State) : π (placeOne c s) = π s := by
  unfold placeOne
  dsimp only
  split
  · rfl
  · split
    · exact (hπ _ _ _ _ _).trans ((clearBuffer_keeps hπ _ _).trans (hπ s _ _ _ _))
    · rfl

theorem placeAll_keeps (s : State) : π (placeAll s) = π s :=
  foldl_keeps π (fun t c => foldl_keeps π (fun t _ => placeOne_keeps hπ c t) _ t) _ s

end

theorem placeAll_kept (s : State) : kept (placeAll s) = kept s := placeAll_keeps (fun _ _ _ _ _ => rfl) s

theorem stopWg_kept (g : Nat) (s : State) : kept (stopWg g s) = kept s := placeAll_kept _

theorem cancelArrivals_kept (w : Warp) (s : State) : kept (cancelArrivals w s) = kept s := by
  unfold cancelArrivals
  dsimp only
  split <;> rfl

theorem warps_mapWarps (s : State) (f : Warp → Warp) (hf : ∀ w, (f w).resident = w.resident) :
    (s.mapWarps f).warps = s.warps.map f := by
  unfold State.warps State.mapWarps
  by_cases h : s.w.resident = true
  · simp [h, hf]
  · simp [h]

theorem warps_of_kept {s t : State} (h : kept t = kept s) : t.warps = s.warps := by
  obtain ⟨hw, ho⟩ := Prod.mk.inj h
  rw [State.warps, State.warps, hw, (Prod.mk.inj ho).1]

theorem ctx_of_kept {s t : State} (h : kept t = kept s) (n : Nat) : t.ctx n = s.ctx n :=
  congrArg (fun l => look ({} : Ctx) l n) (Prod.mk.inj (Prod.mk.inj h).2).2

/-- What stands of a warp that stops: its identity. -/
theorem stopped_identity (j : Bool) (w : Warp) : (w.stopped j).ctx = w.ctx ∧ (w.stopped j).core = w.core ∧ (w.stopped j).wid = w.wid ∧
    (w.stopped j).wg = w.wg ∧ (w.stopped j).resident = w.resident ∧ (w.stopped j).grant = w.grant := by
  unfold Warp.stopped
  dsimp only
  split <;> exact ⟨rfl, rfl, rfl, rfl, rfl, rfl⟩

/-- A warp that stops holds no retry fault and no sleep; where no collective has granted it anything it is to reissue, but for
one whose TFREE all have joined. -/
theorem stopped_resets (j : Bool) (w : Warp) : (w.stopped j).retry = [] ∧ (w.stopped j).sleep = none ∧ (w.stopped j).txset = false ∧
    (w.grant = none → (w.stopped j).block = none ∨ j = true) := by
  unfold Warp.stopped
  dsimp only
  refine ⟨?_, ?_, ?_, fun hg => ?_⟩
  · split <;> rfl
  · split <;> rfl
  · split <;> rfl
  · cases j
    · rw [show w.grant.isSome = false by rw [hg]; rfl]
      exact .inl rfl
    · exact .inr rfl

/-- The stop of a core's warps, one by one. -/
def stopIf (s : State) (core n : Nat) (w : Warp) : Warp :=
  if w.ctx == n && w.core == core then w.stopped (freeJoined s (s.wg w.wg).launch w.wid) else w

theorem stopIf_resident (s : State) (core n : Nat) (w : Warp) : (stopIf s core n w).resident = w.resident := by
  unfold stopIf
  split
  · exact (stopped_identity _ w).2.2.2.2.1
  · rfl

theorem stopCore_gives {s : State} {core n : Nat} (h1 : (s.ctx n).stop = 1) (h2 : core ∉ (s.ctx n).stopped) :
    ((stopCore core n s).ctx n).stopped = (s.ctx n).stopped ++ [core] ∧ (stopCore core n s).warps = s.warps.map (stopIf s core n) := by
  unfold stopCore
  dsimp only
  rw [if_neg (by simp [h1, h2])]
  generalize hs1 : List.foldl _ s (s.warps.filter _) = s1
  have k1 : kept s1 = kept s := by
    rw [← hs1]
    refine foldl_keeps kept (fun t w => ?_) _ s
    split
    · exact cancelArrivals_kept w t
    · rfl
  generalize hs2 : List.foldl _ s1 (List.eraseDups (α := Nat) _) = s2
  have k2 : kept s2 = kept s := by
    rw [← hs2]
    exact (foldl_keeps kept (fun t g => stopWg_kept g t) _ s1).trans k1
  refine ⟨?_, ?_⟩
  · rw [ctx_of_kept (placeAll_kept _), State.setCtx_ctx_self]
    exact congrArg (fun c => c.stopped ++ [core]) (ctx_of_kept k2 n)
  · rw [warps_of_kept (placeAll_kept _), ← warps_of_kept k2]
    exact warps_mapWarps s2 (stopIf s core n) (stopIf_resident s core n)

/-! ### Context images (R353) -/

theorem recordOf_length (n : Nat) (fs : List (Nat × Nat × Nat)) (h : ∀ f ∈ fs, f.1 + f.2.1 ≤ n) : (recordOf n fs).length = n := by
  unfold recordOf
  have key : ∀ (fs : List (Nat × Nat × Nat)) (bs : List Byte), bs.length = n → (∀ f ∈ fs, f.1 + f.2.1 ≤ n) →
      (fs.foldl (fun bs f => patch bs f.1 (leBytes f.2.1 f.2.2)) bs).length = n := by
    intro fs
    induction fs with
    | nil => exact fun _ h _ => h
    | cons f fs ih =>
      intro bs hb hf
      refine ih _ ?_ (fun g hg => hf g (List.mem_cons_of_mem _ hg))
      rw [patch_length (by rw [leBytes_length, hb]; exact hf f List.mem_cons_self), hb]
  exact key fs _ (by simp [zeros]) h

/-- The fields of an image's header in front of the packet. -/
def headerFields (n gang flags size nwg : Nat) : List (Nat × Nat × Nat) :=
  [(0, 4, 1), (4, 4, n), (8, 8, size), (0x10, 4, nwg), (0x14, 1, Config.warpWidth), (0x15, 1, flags), (0x16, 1, gangField gang 0)
  , (0x17, 1, gangField gang 1), (0x18, 1, gangField gang 2), (0x19, 1, gangField gang 3)]

section
variable {k : Kernel} (n gang flags size nwg : Nat)

theorem imageHeader_eq : imageHeader k n gang flags size nwg = patch (recordOf 256 (headerFields n gang flags size nwg)) 0x20 k.pkt := rfl

theorem header_length (hk : k.pkt.length = 128) : (imageHeader k n gang flags size nwg).length = 256 := by
  have hr : (recordOf 256 (headerFields n gang flags size nwg)).length = 256 := recordOf_length 256 _ (by simp [headerFields])
  rw [imageHeader_eq, patch_length (by rw [hr, hk]; decide), hr]

theorem header_packet (hk : k.pkt.length = 128) : ((imageHeader k n gang flags size nwg).drop 0x20).take 128 = k.pkt := by
  have hr : (recordOf 256 (headerFields n gang flags size nwg)).length = 256 := recordOf_length 256 _ (by simp [headerFields])
  have ht : ((recordOf 256 (headerFields n gang flags size nwg)).take 0x20).length = 0x20 := by simp [hr]
  rw [imageHeader_eq, patch, List.append_assoc]
  exact (congrArg (List.take 128) (List.drop_left' ht)).trans (List.take_left' hk)

theorem header_field (hk : k.pkt.length = 128) {f m : Nat} (h : f + m ≤ 0x20) :
    field (imageHeader k n gang flags size nwg) f m = field (recordOf 256 (headerFields n gang flags size nwg)) f m := by
  have hr : (recordOf 256 (headerFields n gang flags size nwg)).length = 256 := recordOf_length 256 _ (by simp [headerFields])
  rw [imageHeader_eq, field_patch_other (by rw [hr, hk]; decide) (.inl h)]

end

/-- A field that no later one of a record overlaps reads as the record says. -/
theorem field_recordOf (n o m v : Nat) (fs gs : List (Nat × Nat × Nat)) (hf : ∀ f ∈ fs ++ (o, m, v) :: gs, f.1 + f.2.1 ≤ n)
    (hg : ∀ g ∈ gs, o + m ≤ g.1 ∨ g.1 + g.2.1 ≤ o) : field (recordOf n (fs ++ (o, m, v) :: gs)) o m = v % 256 ^ m := by
  induction gs using reverse_induct with
  | nil =>
    have hl : (recordOf n fs).length = n := recordOf_length n fs (fun f h => hf f (by simp [h]))
    have ho : o + m ≤ n := hf (o, m, v) (by simp)
    have h := field_patch_same (bs := recordOf n fs) (new := leBytes m v) (o := o) (by omega)
    rw [leBytes_length, ofLe_leBytes_mod] at h
    rw [recordOf, List.foldl_append]
    exact h
  | append_singleton gs g ih =>
    have hl : (recordOf n (fs ++ (o, m, v) :: gs)).length = n := recordOf_length n _ (fun f h => hf f (by
      rw [← List.cons_append, ← List.append_assoc]; exact List.mem_append_left _ h))
    have hgn : g.1 + g.2.1 ≤ n := hf g (by simp)
    rw [← ih (fun f h => hf f (by rw [← List.cons_append, ← List.append_assoc]; exact List.mem_append_left _ h))
      (fun x hx => hg x (List.mem_append_left _ hx)), ← List.cons_append, ← List.append_assoc, recordOf, List.foldl_append]
    exact field_patch_other (bs := recordOf n (fs ++ (o, m, v) :: gs)) (by rw [leBytes_length, hl]; exact hgn)
      (by rw [leBytes_length]; exact hg g (by simp))

theorem field_recordOf_at {n : Nat} {fs : List (Nat × Nat × Nat)} (i : Nat) (hi : i < fs.length)
    (hf : ∀ f ∈ fs, f.1 + f.2.1 ≤ n) (hg : ∀ g ∈ fs.drop (i + 1), fs[i].1 + fs[i].2.1 ≤ g.1 ∨ g.1 + g.2.1 ≤ fs[i].1) :
    field (recordOf n fs) fs[i].1 fs[i].2.1 = fs[i].2.2 % 256 ^ fs[i].2.1 := by
  have e : fs = fs.take i ++ fs[i] :: fs.drop (i + 1) := by simp
  have h := field_recordOf n fs[i].1 fs[i].2.1 fs[i].2.2 (fs.take i) (fs.drop (i + 1)) (by rw [← e]; exact hf) hg
  rw [← e] at h
  exact h

theorem gangField_lt (gang i : Nat) : gangField gang i < 256 := by
  unfold gangField
  split
  · split <;> decide
  · exact Nat.mod_lt _ (by decide)

theorem imageFlags_lt (k : Kernel) (gang : Nat) (d : W32) : imageFlags k gang d < 256 := by
  unfold imageFlags
  dsimp only
  split <;> split <;> split <;> decide

/-- Each field of a header's front. -/
theorem header_at {k : Kernel} {n gang flags size nwg : Nat} (hk : k.pkt.length = 128) (i : Nat) (hi : i < 10) {o m v : Nat}
    (he : (headerFields n gang flags size nwg)[i] = (o, m, v)) (ho : o + m ≤ 0x20) :
    field (imageHeader k n gang flags size nwg) o m = v % 256 ^ m := by
  have h := field_recordOf_at (n := 256) (fs := headerFields n gang flags size nwg) i hi (by simp [headerFields]) (by
    match i, hi with
    | 0, _ | 1, _ | 2, _ | 3, _ | 4, _ | 5, _ | 6, _ | 7, _ | 8, _ | 9, _ => simp [headerFields])
  rw [he] at h
  rw [header_field n gang flags size nwg hk ho]
  exact h

/-- SIZE is a multiple of 256, and more than 512 where there are sections. -/
theorem imageSize_cases (id : Nat) (us : List ResUnit) :
    imageSize id us = 256 ∨ ∃ j, imageSize id us = 512 + 256 * j := by
  unfold imageSize
  split
  · exact .inl rfl
  · exact .inr ⟨_, rfl⟩

/-- An image is its header and what follows it, in SIZE bytes. -/
theorem imageBytes_split {k : Kernel} (n gang flags id : Nat) (us : List ResUnit) (hk : k.pkt.length = 128) :
    ∃ rest, imageBytes k n gang flags id us = imageHeader k n gang flags (imageSize id us) (unitsWgs us) ++ rest ∧
      (imageBytes k n gang flags id us).length = imageSize id us := by
  have hl := header_length n gang flags (imageSize id us) (unitsWgs us) hk
  unfold imageBytes
  dsimp only
  split
  next h => exact ⟨[], (List.append_nil _).symm, by rw [hl, h]⟩
  next h =>
    refine ⟨_, rfl, ?_⟩
    obtain h' | ⟨j, h'⟩ := imageSize_cases id us
    · exact absurd h' h
    · rw [List.length_append, hl, imageSections, List.length_append, leBytes_length, List.length_map, List.length_range, h']
      omega

theorem imageSize_dvd (id : Nat) (us : List ResUnit) : 8 ∣ imageSize id us := by
  obtain h | ⟨j, h⟩ := imageSize_cases id us <;> rw [h] <;> omega

/-! What an image adds to the state. -/

section
variable (n : Nat) (s : State) (kern : Nat)

theorem writeImage_ctx :
    let c := s.ctx n
    let us := saveUnits s kern
    let flags := imageFlags (s.kernel kern) c.gang s.devpos
    let bs := imageBytes (s.kernel kern) n c.gang flags s.nextImage us
    let at_ := if c.nImg = 0 then c.imageAt else roundUp c.imageAt 4096
    (writeImage n s kern).ctx n = { c with
      imageAt := at_ + bs.length, nImg := c.nImg + 1, imgBytes := c.imgBytes + bs.length, imgFlags := flags
      saved := c.saved ++ (us.flatMap (·.warps)).map (·.fslot) } :=
  State.setCtx_ctx_self _ n _

theorem writeImage_images : (writeImage n s kern).images.length = s.images.length + 1 := by
  unfold writeImage
  dsimp only [State.setCtx]
  rw [List.length_append]
  obtain ⟨m, b, h⟩ := storeWords_beside (wordsOf (imageBytes (s.kernel kern) n (s.ctx n).gang
    (imageFlags (s.kernel kern) (s.ctx n).gang s.devpos) s.nextImage (saveUnits s kern))) s
    (if (s.ctx n).nImg = 0 then (s.ctx n).imageAt else roundUp (s.ctx n).imageAt 4096)
  exact congrArg (fun t => t.images.length + 1) h

end

/-- The images of several kernels: each counts, and the commands that wait stay. -/
theorem images_written (n : Nat) : ∀ (ks : List Nat) (s : State), let t := ks.foldl (writeImage n) s
    (t.ctx n).nImg = (s.ctx n).nImg + ks.length ∧ (t.ctx n).later = (s.ctx n).later ∧ t.images.length = s.images.length + ks.length
  | [], s => ⟨rfl, rfl, rfl⟩
  | k :: ks, s => by
    intro t
    obtain ⟨h1, h2, h3⟩ := images_written n ks (writeImage n s k)
    rw [writeImage_ctx] at h1 h2
    dsimp only at h1 h2
    rw [writeImage_images] at h3
    exact ⟨h1.trans (by rw [List.length_cons]; omega), h2, h3.trans (by rw [List.length_cons]; omega)⟩

/-- The context's work has left. -/
theorem clearStopped_warps {n : Nat} {s : State} : ∀ v ∈ (clearStopped n s).warps, v.ctx ≠ n := by
  intro v hv
  unfold State.warps clearStopped at hv
  dsimp only at hv
  rcases List.mem_append.1 hv with h | h
  · by_cases hc : (s.w.ctx == n) = true
    · rw [if_pos hc, if_neg Bool.false_ne_true] at h
      exact absurd h List.not_mem_nil
    · rw [if_neg hc] at h
      split at h
      · rw [List.mem_singleton.1 h]
        exact fun he => hc (by rw [he]; exact beq_self_eq_true n)
      · exact absurd h List.not_mem_nil
  · exact fun he => by simpa [he] using (List.mem_filter.1 h).2

/-- An image's bytes stand in memory, and its header says what R353 gives it. -/
theorem writeImage_gives (n : Nat) (s : State) (kern : Nat) (hn : n < 2 ^ 24) (hk : (s.kernel kern).pkt.length = 128) :
    let c := s.ctx n
    let us := saveUnits s kern
    let at_ := if c.nImg = 0 then c.imageAt else roundUp c.imageAt 4096
    let flags := imageFlags (s.kernel kern) c.gang s.devpos
    let bs := imageBytes (s.kernel kern) n c.gang flags s.nextImage us
    loadBytes (writeImage n s kern) at_ bs.length = bs ∧ bs.length = imageSize s.nextImage us ∧
    field bs 0x00 4 = 1 ∧ field bs 0x04 4 = n ∧ field bs 0x08 8 = bs.length % 2 ^ 64 ∧
    field bs 0x10 4 = unitsWgs us % 2 ^ 32 ∧ field bs 0x14 1 = Config.warpWidth ∧ field bs 0x15 1 = flags ∧
    (∀ i < 4, field bs (0x16 + i) 1 = gangField c.gang i) ∧ (bs.drop 0x20).take 128 = (s.kernel kern).pkt := by
  intro c us at_ flags bs
  obtain ⟨rest, hb, hl⟩ := imageBytes_split n c.gang flags s.nextImage us hk
  have hh := header_length n c.gang flags (imageSize s.nextImage us) (unitsWgs us) hk
  have front {o m : Nat} (h : o + m ≤ 256) :
      field bs o m = field (imageHeader (s.kernel kern) n c.gang flags (imageSize s.nextImage us) (unitsWgs us)) o m := by
    rw [show bs = _ from hb]
    exact field_append (by rw [hh]; exact h)
  refine ⟨loadBytes_storeBytes s at_ (by rw [hl]; exact imageSize_dvd _ _), hl, ?_, ?_, ?_, ?_, ?_, ?_, fun i hi => ?_, ?_⟩
  · exact (front (by decide)).trans ((header_at hk 0 (by decide) rfl (by decide)))
  · exact (front (by decide)).trans ((header_at hk 1 (by decide) rfl (by decide)).trans (Nat.mod_eq_of_lt (by omega)))
  · rw [hl]
    exact (front (by decide)).trans ((header_at hk 2 (by decide) rfl (by decide)))
  · exact (front (by decide)).trans ((header_at hk 3 (by decide) rfl (by decide)))
  · exact (front (by decide)).trans ((header_at hk 4 (by decide) rfl (by decide)))
  · exact (front (by decide)).trans ((header_at hk 5 (by decide) rfl (by decide)).trans (Nat.mod_eq_of_lt (imageFlags_lt _ _ _)))
  · have hg := Nat.mod_eq_of_lt (gangField_lt c.gang i)
    match i, hi with
    | 0, _ => exact (front (by decide)).trans ((header_at hk 6 (by decide) rfl (by decide)).trans hg)
    | 1, _ => exact (front (by decide)).trans ((header_at hk 7 (by decide) rfl (by decide)).trans hg)
    | 2, _ => exact (front (by decide)).trans ((header_at hk 8 (by decide) rfl (by decide)).trans hg)
    | 3, _ => exact (front (by decide)).trans ((header_at hk 9 (by decide) rfl (by decide)).trans hg)
  · rw [show bs = _ from hb, List.drop_append_of_le_length (by rw [hh]; decide),
      List.take_append_of_le_length (by rw [List.length_drop, hh]; decide)]
    exact header_packet n c.gang flags _ _ hk

/-- Settles O48: batches and held records as the rings take them, gangs by `gangLate`, the stop of a core by `stopCore_gives`, and
the images by `images_written` and `writeImage_gives`. -/
theorem contextEventsComplete : Obligations.ContextEventsComplete := by
  intro s die ring core ctx gang n c
  refine ⟨⟨rfl, fun h => congrArg Host.Outcome.next (if_pos h)⟩, fun h hh hr => congrArg Host.Outcome.next ?_,
    fun a due hg => ⟨fun h1 h2 => ?_, fun h1 => ?_,
      fun h1 h2 => congrArg Host.Outcome.next ?_, fun h1 => congrArg Host.Outcome.next ?_,
      fun h1 => ?_, fun role => ?_⟩, fun h1 h2 => ⟨_, rfl, ?_, ?_⟩, fun h1 h2 => ?_, ?_⟩
  · exact writeHeld_writes hh hr
  · exact (gangAccept_eq hg).trans (congrArg Host.Outcome.next (if_pos (by rw [decide_eq_true h1, h2]; rfl)))
  · exact (gangAccept_eq hg).trans (congrArg Host.Outcome.next (if_neg (by
      rw [decide_eq_false (Nat.not_lt.2 h1)]; exact Bool.false_ne_true)))
  · exact (gangTimeout_eq hg).trans (if_neg (by
      rw [show (s.ctx ctx.toNat).accepted = false from h1, decide_eq_false (Nat.not_lt.2 h2)]; exact Bool.false_ne_true))
  · exact (gangTimeout_eq hg).trans (if_pos (by simpa using h1))
  · exact gangAbort_eq h1 hg
  · intro record s0 d
    by_cases hs : c.stop = 1
    · obtain ⟨e1, e2, e3⟩ := gangLate_waits_ctx n role a s hs
      exact ⟨e1, e2, fun h => absurd hs h, fun _ => ⟨gangLate_waits n role a s hs, e3⟩⟩
    · obtain ⟨e1, e2, e3⟩ := gangLate_stops_ctx n role a s hs
      exact ⟨e1, e2, fun _ => ⟨gangLate_stops n role a s hs, e3⟩, fun h => absurd h hs⟩
  · exact (stopCore_gives h1 h2).1
  · intro v hv hvn hvc
    rw [(stopCore_gives h1 h2).2] at hv
    obtain ⟨w, _, rfl⟩ := List.mem_map.1 hv
    unfold stopIf at hvn hvc ⊢
    split at hvn
    next hw =>
      rw [if_pos hw]
      obtain ⟨_, _, e3, e4, _, e6⟩ := stopped_identity (freeJoined s (s.wg w.wg).launch w.wid) w
      obtain ⟨r1, r2, r3, r4⟩ := stopped_resets (freeJoined s (s.wg w.wg).launch w.wid) w
      exact ⟨r1, r2, r3, fun hg => (r4 (e6.symm.trans hg)).imp id (fun h => by rw [e3, e4]; exact h)⟩
    next hw =>
      rw [if_neg hw] at hvc
      exact absurd (by rw [hvn, hvc]; simp) hw
  · intro s0 c0
    have hw : writeImages n s = if drained s0 n then imagesOut n s0 else s0 := if_pos (by rw [h1, h2]; rfl)
    refine ⟨fun h => congrArg Host.Outcome.next (hw.trans (if_neg (Bool.eq_false_iff.1 h))), fun h => ?_⟩
    intro s1 d t
    obtain ⟨e1, e2, e3⟩ := images_written n c0.stopKerns (s0.setCtx n { c0 with nImg := 0, imgBytes := 0, imgFlags := 0 })
    rw [State.setCtx_ctx_self] at e1 e2
    have hks : ((s0.setCtx n { c0 with nImg := 0, imgBytes := 0, imgFlags := 0 }).ctx n).stopKerns = c0.stopKerns := by
      rw [State.setCtx_ctx_self]
    refine ⟨congrArg Host.Outcome.next (hw.trans ((if_pos h).trans ?_)), ?_, e1.trans (Nat.zero_add _), ?_, ?_⟩
    · unfold imagesOut
      dsimp only
      rw [hks]
      exact congrArg (fun l => runLater n l t) e2
    · obtain ⟨hs, hc⟩ := ringOrHold_ctx n 3 (recordOf 256 [(0, 4, n), (7, 1, 2), (8, 8, c0.imageAt), (0x10, 8, d.imgBytes)
        , (0x18, 8, d.nImg), (0x20, 8, d.imgFlags)]) (s1.setCtx n { d with stop := 2, stopKerns := [], stopped := [], later := [] })
      rw [State.setCtx_ctx_self] at hc
      exact congrArg Ctx.stop hc
    · rw [show t.warps = _ from ringOrHold_warps n 3 _ _]
      exact clearStopped_warps
    · exact (congrArg List.length (ringOrHold_images n 3 _ _)).trans e3
  · intro kern k us at_ flags bs t hk
    obtain ⟨e1, e2, rest⟩ := writeImage_gives n s kern ctx.isLt hk
    have hc := writeImage_ctx n s kern
    exact ⟨e1, e2, congrArg Ctx.imageAt hc, congrArg Ctx.nImg hc, rest⟩

end Sys2Proof.Proofs
end

section
/-! SUPPORT. The hardware barriers (R235, R236), FENCE and the barrier objects (R227 to R234). -/

namespace Sys2Proof.Proofs
open Sys2Proof Sys2Proof.Machine

/-! ### Hardware barriers -/

section
variable {s : State} {g cl arrive wait : Bool} {op : BitVec 7} {fn : BitVec 4}

/-- The gate of the hardware barriers. -/
def hwGate (op : BitVec 7) (fn : BitVec 4) (g : Bool) : Gate :=
  { word := wordA op 0 0 0 fn g false, guard := g, cls := .barrier, tx := false }

/-- The warp comes back to an instruction whose arrival it has made. -/
def hasArrived (wait : Bool) (w : Warp) : Bool := wait && w.block == some 7 && w.grant == some .done

theorem hasArrived_false {wait : Bool} {w : Warp} (h : w.block = some 7 → w.grant ≠ some .done) : hasArrived wait w = false := by
  unfold hasArrived
  by_cases hb : w.block = some 7
  · simp [h hb]
  · simp [hb]

theorem hwBar_run (hc : Clear s { guard := g, cls := .barrier }) (htx : NoTx s g) :
    hwBarOp op fn g cl arrive wait s = (hwGate op fn g).out (if !arrive || hasArrived wait s.w then barWait cl s
      else if (s.w.token cl).open_ (hwBar cl s) then .block 7 s
      else afterAll s (fun s =>
        if wait then barWait cl { barArrive cl s with w := { (barArrive cl s).w with grant := some .done } } else .fall (barArrive cl s))) := by
  have h := simple_run (o := hwBarOp op fn g cl arrive wait s) (gt := hwGate op fn g) rfl ⟨rfl, rfl, rfl, rfl, rfl, rfl⟩ hc htx
  exact h.trans (congrArg (hwGate op fn g).out (if_neg hc.lanes))

theorem barWait_closed (h : (s.w.token cl).open_ (hwBar cl s) = false) : barWait cl s = .fall (syncL1 s.w.core s) :=
  if_neg (Bool.eq_false_iff.1 h)

theorem barWait_open (h : (s.w.token cl).open_ (hwBar cl s) = true) : barWait cl s = .block 7 s := if_pos h

theorem afterAll_early {k : State → Res} (h : s.w.allPerformed = false ∨ s.tileBusy = true) : afterAll s k = .wait 3 s :=
  if_neg (by rcases h with h | h <;> simp [h])

variable (hc : Clear s { guard := g, cls := .barrier }) (htx : NoTx s g)
include hc htx

/-- A wait, or the return to one. -/
theorem hwBar_wait (h : (!arrive || hasArrived wait s.w) = true) :
    ((s.w.token cl).open_ (hwBar cl s) = false → hwBarOp op fn g cl arrive wait s = .next (fell 4 (syncL1 s.w.core s))) ∧
    ((s.w.token cl).open_ (hwBar cl s) = true → hwBarOp op fn g cl arrive wait s = .next (blocked 7 s)) := by
  rw [hwBar_run hc htx, if_pos h]
  exact ⟨fun h => congrArg _ (barWait_closed h), fun h => congrArg _ (barWait_open h)⟩

/-- A token of an incomplete phase keeps the warp from arriving. -/
theorem hwBar_again (h : hasArrived wait s.w = false) (ho : (s.w.token cl).open_ (hwBar cl s) = true) :
    hwBarOp op fn g cl true wait s = .next (blocked 7 s) := by
  rw [hwBar_run hc htx, if_neg (by rw [h]; exact Bool.false_ne_true), if_pos ho]
  rfl

theorem hwBar_early (h : hasArrived wait s.w = false) (ho : (s.w.token cl).open_ (hwBar cl s) = false)
    (hp : s.w.allPerformed = false ∨ s.tileBusy = true) : hwBarOp op fn g cl true wait s = .next (waits 3 s) := by
  rw [hwBar_run hc htx, if_neg (by rw [h]; exact Bool.false_ne_true), if_neg (Bool.eq_false_iff.1 ho), afterAll_early hp]
  rfl

theorem hwBar_arrives (ho : (s.w.token cl).open_ (hwBar cl s) = false) (hp : s.w.allPerformed = true) (ht : s.tileBusy = false) :
    hwBarOp op fn g cl true false s = .next (fell 4 (barArrive cl s)) := by
  rw [hwBar_run hc htx, if_neg (by exact Bool.false_ne_true), if_neg (Bool.eq_false_iff.1 ho), afterAll_done hp ht]
  rfl

theorem hwBar_both (h : hasArrived true s.w = false) (ho : (s.w.token cl).open_ (hwBar cl s) = false) (hp : s.w.allPerformed = true)
    (ht : s.tileBusy = false) :
    let t := barArrive cl s
    let u : State := { t with w := { t.w with grant := some .done } }
    hwBarOp op fn g cl true true s = .next (if (u.w.token cl).open_ (hwBar cl u) then blocked 7 u else fell 4 (syncL1 u.w.core u)) := by
  intro t u
  rw [hwBar_run hc htx, if_neg (by rw [h]; exact Bool.false_ne_true), if_neg (Bool.eq_false_iff.1 ho), afterAll_done hp ht]
  by_cases hu : (u.w.token cl).open_ (hwBar cl u) = true
  · rw [if_pos hu]
    exact congrArg _ (barWait_open hu)
  · rw [if_neg hu]
    exact congrArg _ (barWait_closed (Bool.eq_false_iff.2 hu))

end

/-- Settles O29: each instruction is one case of `hwBarOp`. -/
theorem hardwareBarriersComplete : Obligations.HardwareBarriersComplete := by
  intro s g w hc htx arrive early again wait both
  refine ⟨fun ho hp ht => hwBar_arrives hc htx ho hp ht, fun ho hp ht => hwBar_arrives hc htx ho hp ht, hwBar_wait hc htx rfl,
    hwBar_wait hc htx rfl, ⟨fun hb ho hp ht => hwBar_both hc htx (hasArrived_false hb) ho hp ht, fun hb hg => ?_⟩,
    ⟨fun hb ho hp ht => hwBar_both hc htx (hasArrived_false hb) ho hp ht, fun hb hg => ?_⟩,
    fun hb ho hp => hwBar_early hc htx (hasArrived_false hb) ho hp, fun hb ho hp => hwBar_early hc htx (hasArrived_false hb) ho hp,
    fun hb ho hp => hwBar_early hc htx (hasArrived_false hb) ho hp, fun hb ho hp => hwBar_early hc htx (hasArrived_false hb) ho hp,
    fun hb ho => hwBar_again hc htx (hasArrived_false hb) ho, fun hb ho => hwBar_again hc htx (hasArrived_false hb) ho,
    fun hb ho => hwBar_again hc htx (hasArrived_false hb) ho, fun hb ho => hwBar_again hc htx (hasArrived_false hb) ho⟩
  all_goals
    have h : hasArrived true s.w = true := by
      rw [hasArrived, show s.w.block = some 7 from hb, show s.w.grant = some .done from hg]
      rfl
    exact (hwBar_wait hc htx (by rw [h]; rfl)).1

end Sys2Proof.Proofs
end

section
/-! SUPPORT. FENCE and the barrier objects (R227 to R234). -/

namespace Sys2Proof.Proofs
open Sys2Proof Sys2Proof.Machine

/-- Whatever holds of the default and of every entry of a key holds of what is found at the key. -/
theorem look_all {α : Type} {P : α → Prop} {d : α} {k : Nat} (hd : P d) : ∀ {m : List (Nat × α)}, (∀ e ∈ m, e.1 = k → P e.2) →
    P (look d m k)
  | [], _ => hd
  | e :: m, h => by
    unfold look
    split
    next hk => exact h e List.mem_cons_self hk.symm
    · exact look_all hd (fun x hx => h x (List.mem_cons_of_mem e hx))

/-- An acquire of the scopes of a die or wider leaves no line in its core's L1 (R197). -/
theorem acquireL1_drops (core : Nat) (s : State) : ((acquireL1 core true true s).core core).l1 = [] := by
  refine look_all (P := fun c : Core => c.l1 = []) rfl fun e he hk => ?_
  obtain ⟨x, _, rfl⟩ := List.mem_map.1 he
  by_cases hx : (x.1 == core) = true
  · rw [if_pos hx]
  · rw [if_neg hx] at hk
    refine absurd ?_ hx
    rw [beq_iff_eq]
    split at hk <;> exact hk

section
variable {s : State} {g : Bool} {sc : BitVec 4}

/-- The gate of FENCE. -/
def fenceGate (sc : BitVec 4) (g : Bool) : Gate := { word := wordA 0x50 0 0 0 sc g false, guard := g, cls := .barrier, tx := false }

theorem fence_gives (hc : Clear s { guard := g, cls := .barrier }) (htx : NoTx s g) :
    (s.w.allPerformed = true ∧ s.tileBusy = false → execFence sc g s = .next (fell 4 (acquireL1 s.w.core (sc != 0) (4 ≤ sc.toNat) s))) ∧
    (¬(s.w.allPerformed = true ∧ s.tileBusy = false) → execFence sc g s = .next (blocked 14 s)) := by
  have h := simple_run (o := execFence sc g s) (gt := fenceGate sc g) rfl ⟨rfl, rfl, rfl, rfl, rfl, rfl⟩ hc htx
  rw [h.trans (congrArg (fenceGate sc g).out (if_neg hc.lanes))]
  refine ⟨fun hq => congrArg (fenceGate sc g).out (if_pos ?_), fun hq => congrArg (fenceGate sc g).out (if_neg ?_)⟩
  · rw [hq.1, hq.2]
    rfl
  · exact fun h => hq (by simpa using h)

end

/-! ### Barrier objects -/

section
variable {s : State} {op : BitVec 7} {fn : BitVec 4} {d : BitVec 3} {a b : BitVec 6} {g own two acq : Bool} {key : Nat}

/-- The gate of the instructions of barrier objects. -/
def barGate (op : BitVec 7) (fn : BitVec 4) (d : BitVec 3) (a b : BitVec 6) (g two : Bool) : Gate :=
  { word := wordA op (in6 d) a b fn g false, guard := g, cls := .barrier
    scals := a.toNat :: (if two then [b.toNat] else []), uses := useS a :: (if two then [useS b] else [])
    tx := false, sync := true }

/-- Nothing keeps an instruction from its step at the object at `key`. -/
structure AtObject (s : State) (g : Bool) (key : Nat) : Prop where
  noTx : NoTx s g
  tiles : s.tileBusy = false
  own : ownPending s.w key = false
  order : orderPending s.w false = false

theorem barOp_run {k : State → Mask → W64 → Nat → Res} (h : AtObject s g key) (hc : Clear s (barGate op fn d a b g two).demand)
    (hk : barCheck s s.w (s.w.sr a.toNat).bits own = .ok key) :
    barOp op fn d a b g own two acq k s = (barGate op fn d a b g two).out (if orderPending s.w acq then .wait 3 s
      else k s (s.w.active g) (s.w.sr a.toNat).bits key) := by
  refine gate_clear (gt := barGate op fn d a b g two) rfl hc rfl rfl rfl rfl (fun _ => h.tiles) (fun h => nomatch h) (.inr h.noTx) ?_
  refine congrArg (barGate op fn d a b g two).out ((if_neg hc.lanes).trans ?_)
  dsimp only
  rw [hk]
  refine ite_of_iff ?_ rfl rfl
  rw [h.own, Bool.false_or]

/-- One that waits for no earlier access of its warp takes its step. -/
theorem barOp_step {k : State → Mask → W64 → Nat → Res} (h : AtObject s g key) (hc : Clear s (barGate op fn d a b g two).demand)
    (hk : barCheck s s.w (s.w.sr a.toNat).bits own = .ok key) (ho : orderPending s.w acq = false) :
    barOp op fn d a b g own two acq k s = (barGate op fn d a b g two).out (k s (s.w.active g) (s.w.sr a.toNat).bits key) :=
  (barOp_run h hc hk).trans (congrArg (barGate op fn d a b g two).out (if_neg (Bool.eq_false_iff.1 ho)))

theorem barOp_waits {k : State → Mask → W64 → Nat → Res} (h : AtObject s g key) (hc : Clear s (barGate op fn d a b g two).demand)
    (hk : barCheck s s.w (s.w.sr a.toNat).bits own = .ok key) (ho : orderPending s.w acq = true) :
    barOp op fn d a b g own two acq k s = .next (waits 3 s) :=
  (barOp_run h hc hk).trans (congrArg (barGate op fn d a b g two).out (if_pos ho))

theorem arrive_eq {o : BarObj} {n : Nat} {drop : Bool} (hv : o.valid = true) (hr : o.retired = false) (hp : o.pend ≠ 0) :
    o.arrive n drop =
      some ({ o with txcnt := (o.txcnt + n) % 2 ^ 32, drop := o.drop + (if drop then 1 else 0), pend := o.pend - 1 } : BarObj).check :=
  if_neg (by simp [hv, hr, hp])

/-- An arrival: it waits for the warp's accesses, and is one step at the object (R225, R233). -/
theorem arriveOp_gives {drop : Bool} (h : AtObject s g key) (hc : Clear s (barGate 0x52 fn 0 a b g (fn == 1)).demand)
    (hk : barCheck s s.w (s.w.sr a.toNat).bits false = .ok key) (hdrop : (fn == 2) = drop) {n : Nat}
    (hn : (if fn = 1 then (s.w.sr b.toNat).bits else 0).toNat = n) (hm : n ≤ 0x7FFFFFFF) :
    (s.w.allPerformed = true → (readBar s key).valid = true → (readBar s key).retired = false → (readBar s key).pend ≠ 0 →
      arriveOp fn a b g s = .next (fell 4 (writeBar key ({ readBar s key with
        txcnt := ((readBar s key).txcnt + n) % 2 ^ 32, drop := (readBar s key).drop + (if drop then 1 else 0)
        pend := (readBar s key).pend - 1 } : BarObj).check s))) ∧
    (s.w.allPerformed = false → arriveOp fn a b g s = .next (waits 3 s)) := by
  unfold arriveOp
  rw [barOp_step h hc hk h.order]
  dsimp only
  rw [hn, if_neg (Nat.not_lt.2 hm), hdrop]
  refine ⟨fun hp hv hr hpend => ?_, fun hp => ?_⟩
  · rw [afterAll_done hp h.tiles, arrive_eq hv hr hpend]
    rfl
  · rw [afterAll_early (.inl hp)]
    rfl

theorem binit_gives (h : AtObject s g key) (hc : Clear s (barGate 0x51 0 0 a b g true).demand)
    (hk : barCheck s s.w (s.w.sr a.toNat).bits true = .ok key) (h1 : 1 ≤ (s.w.sr b.toNat).bits.toNat)
    (h2 : (s.w.sr b.toNat).bits.toNat ≤ 65535) :
    execBinit a b g s = .next (fell 4 (storeMem (key + 8) 8 0x080000#64 false (storeMem key 8
      (BitVec.ofNat 64 ((s.w.sr b.toNat).bits.toNat + (s.w.sr b.toNat).bits.toNat * 65536)) false s))) := by
  refine (barOp_step h hc hk h.order).trans (congrArg (barGate 0x51 0 0 a b g true).out (if_neg ?_))
  rintro (hz | hz)
  · rw [hz] at h1
    exact absurd h1 (by decide)
  · exact Nat.not_lt.2 h2 hz

/-! What a wait or a test sees of a phase (R234). -/

section
variable {o : BarObj} {p : Bool}

theorem observe_waiting (hv : o.valid = true) (hr : o.retired = true → o.phase ≠ p) (hp : o.phase = p) : o.observe p = .waiting := by
  have hr' : o.retired = false := Bool.eq_false_iff.2 (fun h => hr h hp)
  simp [BarObj.observe, hv, hr', hp]

theorem observe_done (hv : o.valid = true) (hp : o.phase ≠ p) : o.observe p = .done (o.poison p) := by
  simp [BarObj.observe, hv, hp]

end

variable (h : AtObject s g key) (hc : Clear s { guard := g, cls := .barrier, scals := [a.toNat, b.toNat], uses := [useS a, useS b] })
  (hk : barCheck s s.w (s.w.sr a.toNat).bits true = .ok key)
include h hc hk

/-- Both are acquires, and wait for the warp's earlier ones and its releases (R225). -/
theorem bwait_waits (ho : orderPending s.w true = true) : execBwait a b g s = .next (waits 3 s) := by
  have hc : Clear s (barGate 0x53 0 0 a b g true).demand := hc
  exact barOp_waits h hc hk ho

theorem btest_waits (d : BitVec 3) (ho : orderPending s.w true = true) : execBtest d a b g s = .next (waits 3 s) := by
  have hc : Clear s (barGate 0x53 1 d a b g true).demand := hc
  exact barOp_waits h hc hk ho

variable (ho : orderPending s.w true = false) {seen : BarSeen}
  (hs : (readBar s key).observe ((s.w.sr b.toNat).bits.getLsbD 0) = seen)
include ho hs

/-- BWAIT does as it sees. -/
theorem bwait_gives :
    (seen = .waiting → execBwait a b g s = .next (blocked 6 { s with w := { s.w with bwait := some key } })) ∧
    (seen = .done false → execBwait a b g s = .next (fell 4 (syncL1 s.w.core s))) ∧
    (seen = .done true →
      execBwait a b g s = .next (raise (trapOf 0x0E (s.w.sr a.toNat).bits (s.w.active g) false) (syncL1 s.w.core s))) := by
  have hc : Clear s (barGate 0x53 0 0 a b g true).demand := hc
  unfold execBwait
  rw [barOp_step h hc hk ho]
  dsimp only
  rw [hs]
  exact ⟨fun h => by rw [h]; rfl, fun h => by rw [h]; rfl, fun h => by rw [h]; rfl⟩

/-- BTEST does as it sees. -/
theorem btest_gives (d : BitVec 3) :
    (seen = .waiting → execBtest d a b g s = .next (fellW 4 s (s.w.setP d.toNat (s.w.active g) 0))) ∧
    (seen = .done false →
      execBtest d a b g s = .next (fell 4 (syncL1 s.w.core { s with w := s.w.setP d.toNat (s.w.active g) fullMask }))) ∧
    (seen = .done true →
      execBtest d a b g s = .next (raise (trapOf 0x0E (s.w.sr a.toNat).bits (s.w.active g) false) (syncL1 s.w.core s))) := by
  have hc : Clear s (barGate 0x53 1 d a b g true).demand := hc
  unfold execBtest
  rw [barOp_step h hc hk ho, hs]
  exact ⟨fun h => by rw [h]; rfl, fun h => by rw [h]; rfl, fun h => by rw [h]; rfl⟩

end

/-- Settles O28: FENCE by `fence_gives`, and the objects by what `barOp` makes of their instructions. -/
theorem fencesAndBarrierObjectsComplete : Obligations.FencesAndBarrierObjectsComplete := by
  intro s p3 a b sc g key w x y one two obj quiet arrives htx
  refine ⟨fun hc => fence_gives (sc := sc) hc htx, acquireL1_drops _ s, fun ht hown hord => ?_⟩
  have h : AtObject s g key := ⟨htx, ht, hown, hord⟩
  have busy {P : Prop} (hq : ¬quiet) (k : s.w.allPerformed = false → P) : P :=
    k (Bool.eq_false_iff.2 (fun hp => hq ⟨hp, ht⟩))
  refine ⟨fun hk => ⟨fun hc => ⟨⟨fun hq hn => ?_, fun hq hn => ?_⟩, fun hq hn => ?_, fun hq hn => ?_⟩, fun hc => ⟨fun hq hn => ?_,
    fun hq hn => ?_⟩⟩, fun hk hc => ⟨binit_gives h hc hk, fun ho => ⟨?_, ?_⟩,
      fun ho hv hr => ⟨fun hp => ?_, fun hp hn => ?_, fun hp hn => ?_⟩⟩⟩
  · exact (arriveOp_gives h hc hk (b := 0) (fn := 0) (n := 0) rfl rfl hn).1 hq.1
  · exact busy hq (arriveOp_gives h hc hk (b := 0) (fn := 0) (n := 0) rfl rfl hn).2
  · exact (arriveOp_gives h hc hk (b := 0) (fn := 2) (n := 0) rfl rfl hn).1 hq.1
  · exact busy hq (arriveOp_gives h hc hk (b := 0) (fn := 2) (n := 0) rfl rfl hn).2
  · exact (arriveOp_gives h hc hk (fn := 1) rfl rfl hn).1 hq.1
  · exact busy hq (arriveOp_gives h hc hk (fn := 1) rfl rfl hn).2
  · exact bwait_waits h hc hk ho
  · exact btest_waits h hc hk p3 ho
  · have hs := observe_waiting hv hr hp
    exact ⟨(bwait_gives h hc hk ho hs).1 rfl, (btest_gives h hc hk ho hs p3).1 rfl⟩
  · have hs := (observe_done hv hp).trans (congrArg BarSeen.done hn)
    exact ⟨(bwait_gives h hc hk ho hs).2.1 rfl, (btest_gives h hc hk ho hs p3).2.1 rfl⟩
  · have hs := (observe_done hv hp).trans (congrArg BarSeen.done hn)
    exact ⟨(bwait_gives h hc hk ho hs).2.2 rfl, (btest_gives h hc hk ho hs p3).2.2 rfl⟩

end Sys2Proof.Proofs
end

section
/-! SUPPORT. The issue of loads, stores and atomics (R203, R209 to R213). -/

namespace Sys2Proof.Proofs
open Sys2Proof Sys2Proof.Machine

theorem lanesOf_zero : lanesOf 0 = [] := by decide

theorem and_not_zero (m : Mask) : m &&& ~~~(0 : Mask) = m := by
  rw [show ~~~(0 : Mask) = BitVec.allOnes 32 from rfl, BitVec.and_allOnes]

theorem lowLane_mem {m : Mask} (h : m ≠ 0) : lowLane m ∈ lanesOf m := by
  unfold lowLane
  generalize hl : lanesOf m = ls
  cases ls with
  | cons x xs => exact List.mem_cons_self
  | nil =>
    refine absurd (BitVec.eq_of_getLsbD_eq fun l _ => ?_) h
    refine Eq.trans (b := false) (Bool.eq_false_iff.2 ?_) BitVec.getLsbD_zero.symm
    intro hm
    have := lane_mem hm
    rw [hl] at this
    exact List.not_mem_nil this

theorem noteLines_nil (s : State) : noteLines [] s = s := by
  unfold noteLines noteLinesOf
  simp

/-! ### Accesses after their checks (R203, R225) -/

/-- No lane of a mask has begun a transaction (R242). -/
def Outside (s : State) (act : Mask) : Prop := s.w.activeTx act = 0 ∧ s.w.irrTx act = 0

section
variable {s : State} {act : Mask} {m : MemSpec} {pass pass' : Nat → Pass}

/-- Lanes outside of transactions issue one operation of their accesses. -/
theorem perLane_outside (h : Outside s act) :
    perLane m s act pass = .fall (issueOp (m.op (lanesOf act) pass [] false) s) := by
  obtain ⟨ha, hi⟩ := h
  unfold perLane withLogs
  dsimp only
  rw [if_pos ha, ha, and_not_zero, hi, lanesOf_zero, logLanes, lanesOf_zero]
  exact congrArg (fun t => Res.fall (issueOp (m.op (lanesOf act) pass [] false) t)) (noteLines_nil s)

theorem uniform_outside (h : Outside s act) (h0 : act ≠ 0) :
    uniform m s act pass = .fall (issueOp (m.op [lowLane act] pass [] false) s) := by
  obtain ⟨ha, hi⟩ := h
  unfold uniform withLogs
  dsimp only
  rw [if_pos ha, ha, and_not_zero, hi, if_neg h0, if_pos rfl, logLanes, lanesOf_zero]
  exact congrArg (fun t => Res.fall (issueOp (m.op [lowLane act] pass [] false) t)) (noteLines_nil s)

theorem scratchOp_outside (h : Outside s act) :
    scratchOp m s act pass = .fall (issueOp (m.op (lanesOf act) pass [] false) s) := by
  unfold scratchOp
  rw [h.2]
  rfl

theorem op_congr {ls : List Nat} (h : ∀ l ∈ ls, pass' l = pass l) : m.op ls pass' [] false = m.op ls pass [] false := by
  unfold MemSpec.op
  rw [List.map_congr_left (fun l hl => by rw [h l hl])]

variable {kind : Nat} {va : Nat → W64} {chk : Nat → Except Fail Pass} {u : Bool}

/-- Where the checks of every lane pass, the lanes issue their accesses. -/
theorem passes_perLane (h0 : act ≠ 0) (h : Outside s act) (hp : Passes chk act pass) :
    withPasses kind u va chk s act (perLane m) = .fall (issueOp (m.op (lanesOf act) pass [] false) s) := by
  obtain ⟨pass', hl, e⟩ := withPasses_ok (kind := kind) (u := u) (va := va) (k := perLane m) h0 hp h.1
  rw [e, perLane_outside h, op_congr hl]

theorem passes_uniform (h0 : act ≠ 0) (h : Outside s act) (hp : Passes chk act pass) :
    withPasses kind u va chk s act (uniform m) = .fall (issueOp (m.op [lowLane act] pass [] false) s) := by
  obtain ⟨pass', hl, e⟩ := withPasses_ok (kind := kind) (u := u) (va := va) (k := uniform m) h0 hp h.1
  rw [e, uniform_outside h h0, op_congr (fun l hm => hl l (List.mem_singleton.1 hm ▸ lowLane_mem h0))]

theorem passes_scratchOp (h0 : act ≠ 0) (h : Outside s act) (hp : Passes chk act pass) :
    withPasses kind u va chk s act (scratchOp m) = .fall (issueOp (m.op (lanesOf act) pass [] false) s) := by
  obtain ⟨pass', hl, e⟩ := withPasses_ok (kind := kind) (u := u) (va := va) (k := scratchOp m) h0 hp h.1
  rw [e, scratchOp_outside h, op_congr hl]

end

/-! ### The gates of memory instructions -/

/-- What the gate of a memory instruction asks beside its demands, where no lane has begun a transaction. -/
structure Gate.Mem (gt : Gate) (s : State) : Prop where
  ok : gt.ok = true
  priv : gt.priv = true
  engine : gt.engine = true
  full : gt.full = false
  sync : gt.sync = true → s.tileBusy = false
  rel : gt.rel = true → s.w.raysOpen = false

section
variable {o : Host.Outcome State Fault Refusal} {gt : Gate} {s : State} {body : State → Mask → Res}

theorem mem_run (e : o = gt.run body s) (hp : Gate.Mem gt s) (hc : Clear s gt.demand) (hu : Untouched s gt.guard) {t : State}
    (hb : s.w.active gt.guard ≠ 0 → Outside s (s.w.active gt.guard) → body s (s.w.active gt.guard) = .fall t) :
    o = .next (fell gt.len t) :=
  gate_clear e hc hp.ok hp.priv hp.engine hp.full hp.sync hp.rel (.inr hu.1) (congrArg gt.out (hb hc.lanes hu))

end

theorem counterFull_ld {w : Warp} (h : w.ld < 63) : w.counterFull .ld = false := decide_eq_false (Nat.not_le.2 h)

theorem counterFull_st {w : Warp} (h : w.st < 63) : w.counterFull .st = false := decide_eq_false (Nat.not_le.2 h)

/-! ### Loads and stores -/

section
variable {s : State} {d a b : BitVec 6} {sc : BitVec 3} {o : BitVec 2} {g t : Bool} {pass : Nat → Pass}
  (ht : memType (s.w.p.typ t) = true) (hu : Untouched s g)
include ht hu

section
variable (hc : Clear s { guard := g, cls := .memory, regs := [vop d (s.w.p.typ t), vop1 b], scals := [a.toNat], uses := [useS a, useV1 b] })
include hc

theorem ld_issues (hl : s.w.ld < 63)
    (hp : Passes (globalChecks s a.toNat b.toNat (memBytes (s.w.p.typ t)) .read) (s.w.active g) pass) :
    execLd d a b sc o g t s = .next (fell 4 (issueOp
      { cls := .ld, acq := o == 1, drop := o == 1 && decide (4 ≤ sc.toNat)
        dst := .vec (s.w.p.wbase + d.toNat) (memBytes (s.w.p.typ t)) (isSigned (s.w.p.typ t))
        todo := (lanesOf (s.w.active g)).map (fun l =>
          { slot := l, key := (pass l).key, size := memBytes (s.w.p.typ t), l1 := (pass l).l1 }) } s)) :=
  mem_run (gt := { word := wordM 0x40 d a b sc o g t, guard := g, cls := .memory, ok := memType (s.w.p.typ t)
                   regs := [vop d (s.w.p.typ t), vop1 b], scals := [a.toNat], uses := [useS a, useV1 b], full := s.w.counterFull .ld
                   later := fun u l => failOf (globalChecks u a.toNat b.toNat (memBytes (s.w.p.typ t)) .read l) })
    rfl ⟨ht, rfl, rfl, counterFull_ld hl, (fun h => nomatch h), (fun h => nomatch h)⟩ hc hu (fun h0 h => passes_perLane h0 h hp)

theorem ldh_issues (hl : s.w.ld < 63) (hb : s.tileBusy = false)
    (hp : Passes (scratchChecks s a.toNat b.toNat (memBytes (s.w.p.typ t)) .read) (s.w.active g) pass) :
    execLdh d a b sc o g t s = .next (fell 4 (issueOp
      { cls := .ld, acq := o == 1, dst := .vec (s.w.p.wbase + d.toNat) (memBytes (s.w.p.typ t)) (isSigned (s.w.p.typ t))
        todo := (lanesOf (s.w.active g)).map (fun l =>
          { slot := l, key := (pass l).key, size := memBytes (s.w.p.typ t), l1 := false }) } s)) :=
  mem_run (gt := { word := wordM 0x44 d a b sc o g t, guard := g, cls := .memory, ok := memType (s.w.p.typ t)
                   regs := [vop d (s.w.p.typ t), vop1 b], scals := [a.toNat], uses := [useS a, useV1 b], full := s.w.counterFull .ld
                   sync := true
                   later := fun u l => failOf (scratchChecks u a.toNat b.toNat (memBytes (s.w.p.typ t)) .read l) })
    rfl ⟨ht, rfl, rfl, counterFull_ld hl, fun _ => hb, (fun h => nomatch h)⟩ hc hu (fun h0 h => passes_scratchOp h0 h hp)

theorem st_issues (hl : s.w.st < 63) (hr : o = 2 → s.tileBusy = false ∧ s.w.raysOpen = false)
    (hp : Passes (globalChecks s a.toNat b.toNat (memBytes (s.w.p.typ t)) .write) (s.w.active g) pass) :
    execSt d a b sc o g t s = .next (fell 4 (issueOp
      { cls := .st, rel := o == 2
        todo := (lanesOf (s.w.active g)).map (fun l =>
          { slot := l, kind := .write, key := (pass l).key, size := memBytes (s.w.p.typ t), l1 := (pass l).l1
            x := s.w.rawV (wideType (s.w.p.typ t)) d.toNat l, bad := s.w.badV (wideType (s.w.p.typ t)) d.toNat l }) } s)) :=
  mem_run (gt := { word := wordM 0x41 d a b sc o g t, guard := g, cls := .memory, ok := memType (s.w.p.typ t)
                   regs := [vop d (s.w.p.typ t), vop1 b], scals := [a.toNat], uses := [useS a, useV1 b], full := s.w.counterFull .st
                   sync := o == 2#2, rel := o == 2#2
                   later := fun u l => failOf (globalChecks u a.toNat b.toNat (memBytes (s.w.p.typ t)) .write l) })
    rfl ⟨ht, rfl, rfl, counterFull_st hl, fun h => (hr (eq_of_beq h)).1, fun h => (hr (eq_of_beq h)).2⟩ hc hu
    (fun h0 h => passes_perLane h0 h hp)

theorem sth_issues (hl : s.w.st < 63) (hr : o = 2 → s.tileBusy = false ∧ s.w.raysOpen = false) (hb : s.tileBusy = false)
    (hp : Passes (scratchChecks s a.toNat b.toNat (memBytes (s.w.p.typ t)) .write) (s.w.active g) pass) :
    execSth d a b sc o g t s = .next (fell 4 (issueOp
      { cls := .st, rel := o == 2
        todo := (lanesOf (s.w.active g)).map (fun l =>
          { slot := l, kind := .write, key := (pass l).key, size := memBytes (s.w.p.typ t), l1 := false
            x := s.w.rawV (wideType (s.w.p.typ t)) d.toNat l, bad := s.w.badV (wideType (s.w.p.typ t)) d.toNat l }) } s)) :=
  mem_run (gt := { word := wordM 0x45 d a b sc o g t, guard := g, cls := .memory, ok := memType (s.w.p.typ t)
                   regs := [vop d (s.w.p.typ t), vop1 b], scals := [a.toNat], uses := [useS a, useV1 b], full := s.w.counterFull .st
                   tx := false, sync := true, rel := o == 2#2 })
    rfl ⟨ht, rfl, rfl, counterFull_st hl, fun _ => hb, fun h => (hr (eq_of_beq h)).2⟩ hc hu
    (fun h0 h => passes_scratchOp h0 h hp)

end

variable (hc : Clear s { guard := g, cls := .memory, scals := [d.toNat, a.toNat, b.toNat], uses := [useS a, useS b] })
include hc

theorem ldu_issues (hl : s.w.ld < 63)
    (hp : Passes (fun _ => checkGlobal s s.w ((s.w.sr a.toNat).bits + (s.w.sr b.toNat).bits) (memBytes (s.w.p.typ t)) .read)
      (s.w.active g) pass) :
    execLdu d a b sc o g t s = .next (fell 4 (issueOp
      { cls := .ld, acq := o == 1, drop := o == 1 && decide (4 ≤ sc.toNat)
        dst := .scalar d.toNat (memBytes (s.w.p.typ t)) (isSigned (s.w.p.typ t))
        todo := [{ key := (pass (lowLane (s.w.active g))).key, size := memBytes (s.w.p.typ t)
                   l1 := (pass (lowLane (s.w.active g))).l1 }] } s)) :=
  mem_run (gt := { word := wordM 0x42 d a b sc o g t, guard := g, cls := .memory, ok := memType (s.w.p.typ t)
                   scals := [d.toNat, a.toNat, b.toNat], uses := [useS a, useS b], full := s.w.counterFull .ld })
    rfl ⟨ht, rfl, rfl, counterFull_ld hl, (fun h => nomatch h), (fun h => nomatch h)⟩ hc hu (fun h0 h => passes_uniform h0 h hp)

theorem stu_issues (hl : s.w.st < 63) (hr : o = 2 → s.tileBusy = false ∧ s.w.raysOpen = false)
    (hp : Passes (fun _ => checkGlobal s s.w ((s.w.sr a.toNat).bits + (s.w.sr b.toNat).bits) (memBytes (s.w.p.typ t)) .write)
      (s.w.active g) pass) :
    execStu d a b sc o g t s = .next (fell 4 (issueOp
      { cls := .st, rel := o == 2
        todo := [{ kind := .write, key := (pass (lowLane (s.w.active g))).key, size := memBytes (s.w.p.typ t)
                   l1 := (pass (lowLane (s.w.active g))).l1, x := (s.w.sr d.toNat).bits, bad := (s.w.sr d.toNat).bad }] } s)) :=
  mem_run (gt := { word := wordM 0x43 d a b sc o g t, guard := g, cls := .memory, ok := memType (s.w.p.typ t)
                   scals := [d.toNat, a.toNat, b.toNat], uses := [useS a, useS b], full := s.w.counterFull .st
                   sync := o == 2#2, rel := o == 2#2 })
    rfl ⟨ht, rfl, rfl, counterFull_st hl, fun h => (hr (eq_of_beq h)).1, fun h => (hr (eq_of_beq h)).2⟩ hc hu
    (fun h0 h => passes_uniform h0 h hp)

end

/-- Settles O23: each form issues by `mem_run`. -/
theorem loadsAndStoresIssue : Obligations.LoadsAndStoresIssue := by
  intro s d a b sc o g t pass w ty size wide act lanes base issues ht hu
  refine ⟨fun hc => ⟨fun hl => ⟨ld_issues ht hu hc hl, ldh_issues ht hu hc hl⟩,
    fun hl hr => ⟨st_issues ht hu hc hl hr, sth_issues ht hu hc hl hr⟩⟩, fun hc => ?_⟩
  intro ea p
  exact ⟨ldu_issues ht hu hc, stu_issues ht hu hc⟩

/-! ### Atomics -/

section
variable {s : State} {d a b : BitVec 6} {aop : BitVec 4} {sc : BitVec 3} {pass : Nat → Pass}

/-- The accesses of an atomic's lanes. -/
def atomTodo (s : State) (b : BitVec 6) (kind : AccKind) (pass : Nat → Pass) : List Acc :=
  (lanesOf (s.w.active false)).map (fun l => atomAcc s.w kind b.toNat (memBytes s.w.p.ta) (wideType s.w.p.ta) l (pass l))

variable (ht : atomLegal aop.toNat s.w.p.ta = true) (hu : Untouched s false)
include ht hu

/-- ATOM, ATOMA and RED. -/
theorem globalAtomic_issues {op : BitVec 7} {ret ar : Bool}
    (hp : Passes (globalChecks s a.toNat b.toNat (memBytes s.w.p.ta) .rmw) (s.w.active false) pass)
    (hc : Clear s { cls := .memory, regs := (if ret then [vop d s.w.p.ta] else []) ++ atomVops b aop.toNat (wideType s.w.p.ta)
                    scals := [a.toNat], uses := atomUses a b aop.toNat (wideType s.w.p.ta) })
    (hl : s.w.counterFull (if ret then .ld else .st) = false) (hb : ar = true → s.tileBusy = false) (hr : ar = true → s.w.raysOpen = false) :
    globalAtomic op ret ar d a b aop sc s = .next (fell 4 (issueOp
      { cls := if ret then .ld else .st, acq := ar, rel := ar, drop := ar && wideScope sc
        dst := if ret then .vec (s.w.p.wbase + d.toNat) (memBytes s.w.p.ta) false else .none
        todo := atomTodo s b (if ret then .atomic aop.toNat s.w.p.ta else .reduce aop.toNat s.w.p.ta) pass } s)) :=
  mem_run (gt := { word := wordQ op d a b aop sc, cls := .memory, ok := atomLegal aop.toNat s.w.p.ta
                   regs := (if ret then [vop d s.w.p.ta] else []) ++ atomVops b aop.toNat (wideType s.w.p.ta), scals := [a.toNat]
                   uses := atomUses a b aop.toNat (wideType s.w.p.ta), full := s.w.counterFull (if ret then .ld else .st)
                   sync := ar, rel := ar
                   later := fun u l => failOf (globalChecks u a.toNat b.toNat (memBytes s.w.p.ta) .rmw l) })
    rfl ⟨ht, rfl, rfl, hl, hb, hr⟩ hc hu (fun h0 h => passes_perLane h0 h hp)

theorem atomh_issues (hp : Passes (scratchChecks s a.toNat b.toNat (memBytes s.w.p.ta) .rmw) (s.w.active false) pass)
    (hc : Clear s { cls := .memory, regs := vop d s.w.p.ta :: atomVops b aop.toNat (wideType s.w.p.ta)
                    scals := [a.toNat], uses := atomUses a b aop.toNat (wideType s.w.p.ta) })
    (hl : s.w.ld < 63) (hb : s.tileBusy = false) :
    execAtomh d a b aop sc s = .next (fell 4 (issueOp
      { cls := .ld, dst := .vec (s.w.p.wbase + d.toNat) (memBytes s.w.p.ta) false
        todo := atomTodo s b (.atomic aop.toNat s.w.p.ta) pass } s)) :=
  mem_run (gt := { word := wordQ 0x49 d a b aop sc, cls := .memory, ok := atomLegal aop.toNat s.w.p.ta
                   regs := vop d s.w.p.ta :: atomVops b aop.toNat (wideType s.w.p.ta), scals := [a.toNat]
                   uses := atomUses a b aop.toNat (wideType s.w.p.ta), full := s.w.counterFull .ld, tx := false, sync := true })
    rfl ⟨ht, rfl, rfl, counterFull_ld hl, fun _ => hb, (fun h => nomatch h)⟩ hc hu (fun h0 h => passes_scratchOp h0 h hp)

end

/-- Settles O24: the global forms by `globalAtomic_issues`, and ATOMH by `atomh_issues`. -/
theorem atomicsIssue : Obligations.AtomicsIssue := by
  intro s d a b aop sc pass w ty size wide act n k base ops us todo dst issues ht hu
  refine ⟨fun hp => ⟨fun hc hl => ⟨?_, fun hb hr => ?_⟩, fun hc hl => ?_⟩, fun hp hc hl hb => atomh_issues ht hu hp hc hl hb⟩
  · exact globalAtomic_issues (op := 0x46) (ret := true) (ar := false) ht hu hp hc (counterFull_ld hl) (fun h => nomatch h) (fun h => nomatch h)
  · exact globalAtomic_issues (op := 0x47) (ret := true) (ar := true) ht hu hp hc (counterFull_ld hl) (fun _ => hb) (fun _ => hr)
  · exact globalAtomic_issues (op := 0x48) (ret := false) (ar := false) (d := 0) ht hu hp hc (counterFull_st hl) (fun h => nomatch h)
      (fun h => nomatch h)

end Sys2Proof.Proofs
end

section
/-! SUPPORT. The waits and cache control (R199, R206, R207, R289). -/

namespace Sys2Proof.Proofs
open Sys2Proof Sys2Proof.Machine

/-! ### Waits (R206, R207, R289) -/

section
variable {s : State} {a : BitVec 6} {g : Bool}

theorem reportCopies_none {report : Bool} {act : Mask} {k : Res} (h : report = true → s.w.cpFaults = []) :
    reportCopies report s act k = k := by
  unfold reportCopies
  split
  next f rest hf =>
    refine if_neg fun hr => ?_
    rw [h hr] at hf
    exact nomatch hf
  · rfl

theorem wait_gives {ld st cp tl : BitVec 6} (hc : Clear s { cls := .memory }) (hf : cp.toNat < 63 → s.w.cpFaults = []) :
    ((s.w.ld ≤ ld.toNat ∧ s.w.st ≤ st.toNat ∧ s.w.cp ≤ cp.toNat ∧ s.w.tl ≤ tl.toNat) →
      execWait ld st cp tl s = .next (fell 4 s)) ∧
    (¬(s.w.ld ≤ ld.toNat ∧ s.w.st ≤ st.toNat ∧ s.w.cp ≤ cp.toNat ∧ s.w.tl ≤ tl.toNat) →
      execWait ld st cp tl s = .next (blocked 5 s)) := by
  have h := plain_run (o := execWait ld st cp tl s) (gt := { word := zx (0x4B#7 ++ ld ++ st ++ cp ++ tl ++ 0#1), cls := .memory })
    rfl ⟨rfl, rfl, rfl, rfl, rfl, rfl, rfl⟩ hc
  rw [reportCopies_none (fun h => hf (of_decide_eq_true h))] at h
  exact ⟨fun hn => h.trans (congrArg _ (if_pos hn)), fun hn => h.trans (congrArg _ (if_neg hn))⟩

/-- A WAITR of any counter. -/
theorem waitReg_gives {fn : BitVec 4} {count : Warp → Nat}
    (hc : Clear s { guard := g, cls := .memory, scals := [a.toNat], uses := [useS a] })
    (hf : (fn == 2) = true → (s.w.sr a.toNat).bits.toNat < 63 → s.w.cpFaults = []) :
    (count s.w ≤ (s.w.sr a.toNat).bits.toNat → waitReg fn a g count s = .next (fell 4 s)) ∧
    ((s.w.sr a.toNat).bits.toNat < count s.w → waitReg fn a g count s = .next (blocked 5 s)) := by
  have h := plain_run (o := waitReg fn a g count s)
    (gt := { word := wordA 0x4C 0 a 0 fn g false, guard := g, cls := .memory, scals := [a.toNat], uses := [useS a] })
    rfl ⟨rfl, rfl, rfl, rfl, rfl, rfl, rfl⟩ hc
  rw [if_neg (show s.w.active g ≠ 0 from hc.lanes), reportCopies_none (fun h => by
    rw [Bool.and_eq_true, decide_eq_true_iff] at h
    exact hf h.1 h.2)] at h
  exact ⟨fun hn => h.trans (congrArg _ (if_pos hn)), fun hn => h.trans (congrArg _ (if_neg (Nat.not_le.2 hn)))⟩

end

/-! ### Lines of an L1 (R197, R199) -/

section
variable {s : State} {core : Nat}

/-- What changes in a state where lines of one core's L1 alone come or go. -/
def L1Only (core : Nat) (t s : State) : Prop :=
  (∃ cs, t = { s with cores := cs }) ∧ (∀ c, c ≠ core → t.core c = s.core c) ∧
  ({ t.core core with l1 := [] } : Core) = { s.core core with l1 := [] }

theorem l1Only_refl (core : Nat) (s : State) : L1Only core s s := ⟨⟨s.cores, rfl⟩, fun _ _ => rfl, rfl⟩

theorem L1Only.trans {t u : State} (h : L1Only core u t) (h' : L1Only core t s) : L1Only core u s := by
  obtain ⟨⟨cs, rfl⟩, hc, hl⟩ := h
  obtain ⟨⟨cs', rfl⟩, hc', hl'⟩ := h'
  exact ⟨⟨cs, rfl⟩, fun c h => (hc c h).trans (hc' c h), hl.trans hl'⟩

/-- A core with another L1. -/
theorem l1Only_setCore (l : List (Nat × Line)) : L1Only core (s.setCore core { s.core core with l1 := l }) s :=
  ⟨⟨_, rfl⟩, fun c h => look_put_ne _ _ _ h, by rw [State.setCore_core_self]⟩

theorem l1Only_foldl {α : Type} {f : State → α → State} (h : ∀ t x, L1Only core (f t x) t) : ∀ (xs : List α) (s : State),
    L1Only core (xs.foldl f s) s
  | [], s => l1Only_refl core s
  | x :: xs, s => (l1Only_foldl h xs (f s x)).trans (h s x)

theorem fillL1_l1Only (line : Nat) (s : State) : L1Only core (fillL1 core line s) s := by
  unfold fillL1
  dsimp only
  split
  · exact l1Only_refl core s
  · exact l1Only_setCore _

/-- Whether a core's L1 holds a line. -/
def holdsLine (s : State) (core line : Nat) : Bool := (look {} (s.core core).l1 line).live

theorem del_length {α : Type} (m : List (Nat × α)) (k : Nat) : (del m k).length ≤ m.length := by
  induction m with
  | nil => exact Nat.le_refl _
  | cons e m ih =>
    unfold del
    split <;> simp only [List.length_cons] <;> omega

theorem ins_length {α : Type} (m : List (Nat × α)) (k : Nat) (a : α) : (ins m k a).length ≤ m.length + 1 := by
  induction m with
  | nil => exact Nat.le_refl _
  | cons e m ih =>
    unfold ins
    split
    · exact Nat.le_refl _
    · split <;> simp only [List.length_cons] <;> omega

theorem put_length {α : Type} [DecidableEq α] (d : α) (m : List (Nat × α)) (k : Nat) (a : α) : (put d m k a).length ≤ m.length + 1 := by
  unfold put
  split
  · exact Nat.le_succ_of_le (del_length m k)
  · exact ins_length m k a

/-- A fill makes room for at most one line more, keeps those that the L1 holds, and takes the line in where there is room. -/
theorem fillL1_gives (line : Nat) :
    ((fillL1 core line s).core core).l1.length ≤ (s.core core).l1.length + 1 ∧
    (∀ j, holdsLine s core j = true → holdsLine (fillL1 core line s) core j = true) ∧
    ((s.core core).l1.length < 2048 → holdsLine (fillL1 core line s) core line = true) := by
  unfold fillL1
  dsimp only
  split
  next h =>
    refine ⟨Nat.le_succ _, fun _ h => h, fun hn => ?_⟩
    rcases Bool.or_eq_true_iff.1 h with h | h
    · exact h
    · exact absurd hn (Nat.not_lt.2 (of_decide_eq_true h))
  next h =>
    unfold holdsLine
    rw [State.setCore_core_self]
    dsimp only
    refine ⟨put_length _ _ _ _, fun j hj => ?_, fun _ => ?_⟩
    · rw [look_put]
      split
      · rfl
      · exact hj
    · rw [look_put_self]
      rfl

/-- Fills of several lines. -/
theorem fills_give : ∀ (ls : List (Nat × Bool)) (s : State),
    (∀ j, holdsLine s core j = true → holdsLine (ls.foldl (fun t x => fillL1 core x.1 t) s) core j = true) ∧
    ((s.core core).l1.length + ls.length ≤ 2048 → ∀ x ∈ ls, holdsLine (ls.foldl (fun t x => fillL1 core x.1 t) s) core x.1 = true)
  | [], s => ⟨fun _ h => h, fun _ x hx => absurd hx List.not_mem_nil⟩
  | y :: ls, s => by
    obtain ⟨h1, h2, h3⟩ := fillL1_gives (s := s) (core := core) y.1
    obtain ⟨k1, k2⟩ := fills_give ls (fillL1 core y.1 s)
    refine ⟨fun j hj => k1 j (h2 j hj), fun hn x hx => ?_⟩
    rw [List.length_cons] at hn
    rcases List.mem_cons.1 hx with rfl | hx
    · exact k1 _ (h3 (by omega))
    · exact k2 (by omega) x hx

/-- Drop a line of a core's L1. -/
def dropOwn (core line : Nat) (t : State) : State := t.setCore core { t.core core with l1 := del (t.core core).l1 line }

theorem dropOwn_holds (line j : Nat) : holdsLine (dropOwn core line s) core j = if j = line then false else holdsLine s core j := by
  unfold holdsLine dropOwn
  rw [State.setCore_core_self, look_del]
  split <;> rfl

theorem drops_give : ∀ (ls : List (Nat × Bool)) (s : State),
    (∀ j, holdsLine s core j = false → holdsLine (ls.foldl (fun t x => dropOwn core x.1 t) s) core j = false) ∧
    (∀ x ∈ ls, holdsLine (ls.foldl (fun t x => dropOwn core x.1 t) s) core x.1 = false)
  | [], s => ⟨fun _ h => h, fun x hx => absurd hx List.not_mem_nil⟩
  | y :: ls, s => by
    obtain ⟨k1, k2⟩ := drops_give ls (dropOwn core y.1 s)
    refine ⟨fun j hj => k1 j ?_, fun x hx => ?_⟩
    · rw [dropOwn_holds, hj, ite_self]
    · rcases List.mem_cons.1 hx with rfl | hx
      · exact k1 _ (by rw [dropOwn_holds, if_pos rfl])
      · exact k2 x hx

/-- A fold that reads the core of the warp on turn in each step, which leaves the warp. -/
theorem foldl_core {α : Type} {f : Nat → α → State → State} (h : ∀ c x t, (f c x t).w = t.w) : ∀ (xs : List α) (s : State),
    xs.foldl (fun t x => f t.w.core x t) s = xs.foldl (fun t x => f s.w.core x t) s
  | [], _ => rfl
  | x :: xs, s => by
    rw [List.foldl_cons, List.foldl_cons, foldl_core h xs, h]

theorem fillL1_w (line : Nat) : (fillL1 core line s).w = s.w := by
  obtain ⟨⟨cs, h⟩, _⟩ := fillL1_l1Only (core := core) line s
  rw [h]

end

/-! ### Cache control (R199) -/

section
variable {s : State} {a b n : BitVec 6} {g : Bool}

section
variable (hc : Clear s { guard := g, cls := .memory, regs := [vop1 b], scals := [a.toNat] })
include hc

theorem pfl1_gives : execPfl1 a b g s =
    .next (fell 4 ((hintLines s a.toNat b.toNat (s.w.active g)).foldl (fun t x => fillL1 s.w.core x.1 t) s)) := by
  have h := plain_run (o := execPfl1 a b g s) (gt := cctlGate 0 a b g) rfl ⟨rfl, rfl, rfl, rfl, rfl, rfl, rfl⟩ hc
  exact h.trans (congrArg (fun t => Host.Outcome.next (fell 4 t))
    (foldl_core (f := fun c (x : Nat × Bool) t => fillL1 c x.1 t) (fun c x t => fillL1_w x.1) _ s))

theorem cinv_gives : execCinv a b g s =
    .next (fell 4 ((hintLines s a.toNat b.toNat (s.w.active g)).foldl (fun t x => dropOwn s.w.core x.1 t) s)) := by
  have h := plain_run (o := execCinv a b g s) (gt := cctlGate 3 a b g) rfl ⟨rfl, rfl, rfl, rfl, rfl, rfl, rfl⟩ hc
  exact h.trans (congrArg (fun t => Host.Outcome.next (fell 4 t))
    (foldl_core (f := fun c (x : Nat × Bool) t => dropOwn c x.1 t) (fun c x t => rfl) _ s))

theorem pfllc_gives : execPfllc a b g s = .next (fell 4 s) :=
  plain_run (o := execPfllc a b g s) (gt := cctlGate 1 a b g) rfl ⟨rfl, rfl, rfl, rfl, rfl, rfl, rfl⟩ hc

end

theorem icinv_gives (hc : Clear s { guard := g, cls := .memory }) (htx : NoTx s g) : execIcinv n g s = .next (fell 4 { s with
    cores := s.cores.map (fun e => if inScope s n.toNat e.1 then (e.1, { e.2 with ic := [] }) else e) }) :=
  (simple_run (o := execIcinv n g s) (gt := { word := wordA 0x4D 0 0 n 4 g false, guard := g, cls := .memory, tx := false })
    rfl ⟨rfl, rfl, rfl, rfl, rfl, rfl⟩ hc htx).trans (congrArg (Gate.out _) (if_neg hc.lanes))

theorem lanesOf_maskOf_and (act : Mask) (f : Nat → Bool) : lanesOf (maskOf (fun l => act.getLsbD l && f l)) = (lanesOf act).filter f := by
  unfold lanesOf
  rw [List.filter_filter]
  refine List.filter_congr fun l hl => ?_
  rw [maskOf_getLsbD _ _ (by simpa [laneList, Config.warpWidth] using hl), Bool.and_comm]

theorem irrTx_sub {w : Warp} {act : Mask} (h : w.irrTx act = 0) (f : Nat → Bool) :
    w.irrTx (maskOf (fun l => act.getLsbD l && f l)) = 0 := by
  apply BitVec.eq_of_getLsbD_eq
  intro l hl
  have h1 : (w.irrTx act).getLsbD l = false := by rw [h]; simp
  simp only [Warp.irrTx, BitVec.getLsbD_and] at h1 ⊢
  rw [maskOf_getLsbD _ _ hl]
  cases ha : act.getLsbD l <;> simp_all

/-- CWB issues one write-back for each lane whose page is on the device. -/
theorem cwb_issues {pass : Nat → Pass}
    (hc : Clear s { guard := g, cls := .memory, regs := [vop1 b], scals := [a.toNat], uses := [useS a, useV1 b] })
    (hu : Untouched s g) (hl : s.w.st < 63) (hp : Passes (lineChecks s a.toNat b.toNat) (s.w.active g) pass) :
    execCwb a b g s = .next (fell 4 (issueOp
      { cls := .st, todo := ((lanesOf (s.w.active g)).filter (fun l => !isRemote (pass l).key)).map (fun l =>
        { slot := l, kind := .writeBack, key := lineOf (pass l).key * 128, size := 128 }) } s)) := by
  refine mem_run (gt := { cctlGate 2 a b g with uses := [useS a, useV1 b], full := s.w.counterFull .st, tx := false })
    rfl ⟨rfl, rfl, rfl, counterFull_st hl, (fun h => nomatch h), (fun h => nomatch h)⟩ hc hu (fun h0 h => ?_)
  obtain ⟨pass', hl, e⟩ := withPasses_ok (kind := 0) (u := false) (va := s.w.laneAddr a.toNat b.toNat)
    (k := fun s act pass => perLane
      { cls := .st, acc := fun l p => { slot := l, kind := .writeBack, key := lineOf p.key * 128, size := 128 } }
      s (localLanes act pass) pass) h0 hp h.1
  refine e.trans ((perLane_outside ⟨activeTx_sub h.1 _, irrTx_sub h.2 _⟩).trans ?_)
  refine congrArg (fun m => Res.fall (issueOp m s)) ?_
  rw [lanesOf_maskOf_and, List.filter_congr (fun l hm => by rw [hl l hm])]
  exact op_congr (fun l hm => hl l (List.mem_filter.1 hm).1)

end

/-- Settles O27: the waits by `wait_gives` and `waitReg_gives`, the L1 by `fills_give` and `drops_give`. -/
theorem waitsAndCacheControlComplete : Obligations.WaitsAndCacheControlComplete := by
  intro s a b ld st cp tl g pass w act
  refine ⟨fun hc hf => wait_gives hc hf, fun hc => ?_, fun hc => ?_, fun hc htx n => icinv_gives hc htx,
    fun hc hu hl hp => cwb_issues hc hu hl hp⟩
  · intro x waits'
    have no {fn : BitVec 4} (h : (fn == 2) = false) : (fn == 2) = true → x < 63 → s.w.cpFaults = [] :=
      fun h' => absurd (h.symm.trans h') Bool.false_ne_true
    exact ⟨waitReg_gives hc (no (fn := 0) rfl), waitReg_gives hc (no (fn := 1) rfl), waitReg_gives hc (no (fn := 3) rfl),
      fun hf => waitReg_gives (fn := 2) hc (fun _ => hf)⟩
  · intro lines filled cleared
    refine ⟨pfl1_gives hc, pfllc_gives hc, cinv_gives hc, fun t ht => ?_, fun x hx => ⟨?_, fun hn => ?_⟩⟩
    · rcases ht with rfl | rfl
      · exact l1Only_foldl (fun t x => fillL1_l1Only x.1 t) lines s
      · exact l1Only_foldl (fun t x => l1Only_setCore _) lines s
    · exact (drops_give lines s).2 x hx
    · exact (fills_give lines s).2 hn x hx

end Sys2Proof.Proofs
end

section
/-! SUPPORT. Scratch allocation and its information (R193 to R196). -/

namespace Sys2Proof.Proofs
open Sys2Proof Sys2Proof.Machine

section
variable {s : State} {d a : BitVec 6} {g : Bool}

theorem tinfo_gives (hc : Clear s { guard := g, cls := .memory, scals := [d.toNat] }) :
    execTinfo d g s = .next (fellW 4 s (s.w.setS d.toNat (BitVec.ofNat 64 ((s.wg s.w.wg).free + Config.coreScratch / 1024 * 2 ^ 32 +
      ((List.range 64).filter (fun n => !(look {} (s.wg s.w.wg).handles n).live)).length * 2 ^ 48)) false)) :=
  (plain_run (o := execTinfo d g s) (gt := { word := wordA 0x4A d 0 0 2 g false, guard := g, cls := .memory, scals := [d.toNat] })
    rfl ⟨rfl, rfl, rfl, rfl, rfl, rfl, rfl⟩ hc).trans (congrArg (Gate.out _) (if_neg hc.lanes))

theorem firstHandle_none {p : Nat → Bool} (h : ∀ n < 64, p n = false) : firstHandle p = none :=
  List.find?_eq_none.2 fun n hn => Bool.eq_false_iff.1 (h n (List.mem_range.1 hn))

/-! ### TALLOC -/

section
variable (hc : Clear s { guard := g, cls := .memory, scals := [d.toNat, a.toNat], uses := [useS a] }) (htx : NoTx s g)
include hc htx

/-- The gate of TALLOC. -/
def tallocGate (d a : BitVec 6) (g : Bool) : Gate :=
  { word := wordA 0x4A d a 0 0 g false, guard := g, cls := .memory, scals := [d.toNat, a.toNat], uses := [useS a], tx := false }

/-- A WORKGROUP-level allocation that is issued for the first time. -/
theorem talloc_first {h : Handle} (hb : s.w.block ≠ some 9) (hs : shapeOf (s.w.sr a.toNat).bits = some h) (hcl : h.cluster = false) :
    (∀ n, firstHandle (fun n => !(look {} (s.wg s.w.wg).handles n).live) = some n →
      (h.need ≤ (s.wg s.w.wg).free → execTalloc d a g s = .next (fell 4 { allocIn s.w.wg n h s with
        w := (allocIn s.w.wg n h s).w.setS d.toNat (BitVec.ofNat 64 ((s.wg s.w.wg).rank * 256 + n)) false })) ∧
      ((s.wg s.w.wg).free < h.need → execTalloc d a g s = .next (fellW 4 s (s.w.setS d.toNat (BitVec.allOnes 64) false)))) ∧
    (firstHandle (fun n => !(look {} (s.wg s.w.wg).handles n).live) = none →
      execTalloc d a g s = .next (fellW 4 s (s.w.setS d.toNat (BitVec.allOnes 64) false))) := by
  have hrun := simple_run (o := execTalloc d a g s) (gt := tallocGate d a g) rfl ⟨rfl, rfl, rfl, rfl, rfl, rfl⟩ hc htx
  dsimp only at hrun
  rw [if_neg (show ¬s.w.active (tallocGate d a g).guard = 0 from hc.lanes), if_neg hb, hs] at hrun
  dsimp only at hrun
  rw [hcl, if_neg Bool.false_ne_true] at hrun
  refine ⟨fun n hn => ⟨fun hr => ?_, fun hr => ?_⟩, fun hn => ?_⟩
  · rw [hn] at hrun
    exact hrun.trans (congrArg (Gate.out _) (if_neg (Nat.not_lt.2 hr)))
  · rw [hn] at hrun
    exact hrun.trans (congrArg (Gate.out _) (if_pos hr))
  · rw [hn] at hrun
    exact hrun

/-- A CLUSTER-level one whose collective has granted it. -/
theorem talloc_granted {v u : W64} (hb : s.w.block = some 9) (hg : s.w.grant = some (.value v u)) :
    execTalloc d a g s = .next (fellW 4 s (s.w.setS d.toNat v false)) := by
  have hrun := simple_run (o := execTalloc d a g s) (gt := tallocGate d a g) rfl ⟨rfl, rfl, rfl, rfl, rfl, rfl⟩ hc htx
  dsimp only at hrun
  rw [if_neg (show ¬s.w.active (tallocGate d a g).guard = 0 from hc.lanes), if_pos hb] at hrun
  unfold onGrant at hrun
  rw [hg] at hrun
  exact hrun

end

/-! ### TFREE -/

section
variable (hc : Clear s { guard := g, cls := .memory, scals := [a.toNat], uses := [useS a] }) (htx : NoTx s g)
include hc htx

/-- The gate of TFREE. -/
def tfreeGate (a : BitVec 6) (g : Bool) : Gate :=
  { word := wordA 0x4A 0 a 0 1 g false, guard := g, cls := .memory, scals := [a.toNat], uses := [useS a], tx := false }

theorem tfree_first {p : Nat × Handle} (hb : s.w.block ≠ some 9) (hh : handleOf s s.w (s.w.sr a.toNat).bits = some p)
    (hcl : (look {} (s.wg s.w.wg).handles (bits (s.w.sr a.toNat).bits 5 0)).cluster = false)
    (hq : segsBusy s s.w.wg [(look {} (s.wg s.w.wg).handles (bits (s.w.sr a.toNat).bits 5 0)).seg] = false) :
    execTfree a g s = .next (fell 4 (freeIn s.w.wg (bits (s.w.sr a.toNat).bits 5 0)
      (withdrawWg s.w.wg (some (bits (s.w.sr a.toNat).bits 5 0)) s))) := by
  have hrun := simple_run (o := execTfree a g s) (gt := tfreeGate a g) rfl ⟨rfl, rfl, rfl, rfl, rfl, rfl⟩ hc htx
  dsimp only at hrun
  rw [if_neg (show ¬s.w.active (tfreeGate a g).guard = 0 from hc.lanes), if_neg hb, hh] at hrun
  dsimp only at hrun
  rw [hcl, hq, if_neg Bool.false_ne_true, if_neg Bool.false_ne_true] at hrun
  exact hrun

theorem tfree_granted (hb : s.w.block = some 9) (hg : (clusterTry (s.wg s.w.wg).launch true s).w.grant = some .done) :
    execTfree a g s = .next (fell 4 (clusterTry (s.wg s.w.wg).launch true s)) := by
  have hrun := simple_run (o := execTfree a g s) (gt := tfreeGate a g) rfl ⟨rfl, rfl, rfl, rfl, rfl, rfl⟩ hc htx
  dsimp only at hrun
  rw [if_neg (show ¬s.w.active (tfreeGate a g).guard = 0 from hc.lanes), if_pos hb] at hrun
  unfold onGrant at hrun
  rw [hg] at hrun
  exact hrun

end

end

/-- Settles O26: each form by the lemma of its case. -/
theorem scratchAllocationAndInformation : Obligations.ScratchAllocationAndInformation := by
  refine ⟨fun s d g hc => tinfo_gives hc, fun s d a g => ?_⟩
  intro w wg x htx
  refine ⟨fun hc => ⟨fun hb h hs hcl => ⟨fun n hn hr => ((talloc_first hc htx hb hs hcl).1 n hn).1 hr, fun hno => ?_⟩,
    fun hb v u hg => talloc_granted hc htx hb hg⟩,
    fun hc => ⟨fun hb o h hh => ?_, fun hb t ht hg => ?_⟩⟩
  · obtain ⟨h1, h2⟩ := talloc_first hc htx hb hs hcl
    generalize hf : firstHandle (fun n => !(look {} (s.wg s.w.wg).handles n).live) = f at h1 h2
    rcases f with _ | n
    · exact h2 rfl
    · rcases hno with hno | hno
      · have hfull := firstHandle_none (p := fun n => !(look {} (s.wg s.w.wg).handles n).live)
          (fun n hn => by rw [show (look {} (s.wg s.w.wg).handles n).live = true from hno n hn]; rfl)
        exact nomatch hf.symm.trans hfull
      · exact (h1 n rfl).2 hno
  · intro n h' hcl hq
    exact tfree_first hc htx hb hh hcl hq
  · subst ht
    exact tfree_granted hc htx hb hg

end Sys2Proof.Proofs
end

section
/-! SUPPORT. The performance of an outstanding operation (R197, R199, R202 to R205, R208, R212, R213, R225). -/

namespace Sys2Proof.Proofs
open Sys2Proof Sys2Proof.Machine

/-! ### What accesses leave -/

/-- States that differ in what cores hold alone. -/
theorem acquireL1_cores (core : Nat) (acq drop : Bool) (s : State) : ∃ cs, acquireL1 core acq drop s = { s with cores := cs } := by
  unfold acquireL1
  split
  · exact ⟨_, rfl⟩
  · split
    · unfold syncL1
      split
      · exact ⟨_, rfl⟩
      · exact ⟨s.cores, rfl⟩
    · exact ⟨s.cores, rfl⟩

theorem writeVia_gives (s : State) (core cluster k n : Nat) (v : W64) (bad : Bool) :
    ∃ cs, writeVia s core cluster k n v bad = storeMem k n v bad { s with cores := cs } ∧
      ∀ c, c ≠ core → look {} cs c = (dropLine s cluster (lineOf k) (some core)).core c := by
  unfold writeVia
  dsimp only
  split
  · exact ⟨_, rfl, fun c hc => look_put_ne _ _ _ hc⟩
  · exact ⟨_, rfl, fun c _ => rfl⟩

theorem performAcc_w (core cluster : Nat) (a : Acc) (s : State) : (performAcc core cluster a s).1.w = s.w := by
  unfold performAcc
  split
  · rfl
  · obtain ⟨cs, h, _⟩ := writeVia_gives s core cluster a.key a.size a.x a.bad
    exact (congrArg State.w h).trans rfl
  · dsimp only
    split <;> rfl
  · dsimp only
    split <;> rfl
  · rfl

/-- An access neither reads nor changes the warp on turn. -/
theorem performAcc_withW (core cluster : Nat) (a : Acc) (s : State) (x : Warp) :
    performAcc core cluster a { s with w := x } =
      ({ (performAcc core cluster a s).1 with w := x }, (performAcc core cluster a s).2) := by
  obtain ⟨slot, kind, key, size, x', y, bad, l1⟩ := a
  cases kind with
  | read => rfl
  | writeBack => rfl
  | write =>
    refine congrArg (fun t => (t, none)) ?_
    let d := dropLine s cluster (lineOf key) (some core)
    let ln := look {} (d.core core).l1 (lineOf key)
    exact congrArg (storeMem key size x' bad) (apply_ite (fun t : State => ({ t with w := x } : State)) (ln.live = true)
      (d.setCore core { d.core core with l1 := put {} (d.core core).l1 (lineOf key) (lineWrite ln key size x' bad) }) d).symm
  | atomic n ty =>
    unfold performAcc
    dsimp only
    rw [show isBad { s with w := x } key = isBad s key from rfl]
    split <;> rfl
  | reduce n ty =>
    unfold performAcc
    dsimp only
    rw [show isBad { s with w := x } key = isBad s key from rfl]
    split <;> rfl

/-! ### An operation that is the only one of the warp on turn -/

section
variable {w : Warp} {choose : Nat → Bool}

/-- Its next access is performed: no other operation is before it. -/
theorem mayPerform_first {o : MemOp} {a : Acc} {as : List Acc} (h : o.todo = a :: as) : mayPerform [] o a = true := by
  simp [mayPerform, h]

theorem warp?_onTurn {s : State} (hr : s.w.resident = true) : s.warp? s.w.wid = some s.w := by
  unfold State.warp? State.warps
  rw [if_pos hr, List.cons_append, List.find?_cons_of_pos (by simp)]

theorem modWarp_onTurn {s : State} {f : Warp → Warp} (hr : s.w.resident = true) : s.modWarp s.w.wid f = { s with w := f s.w } := by
  unfold State.modWarp
  rw [if_pos (by rw [hr]; simp)]

/-- The accesses that nothing keeps from being performed. -/
def Ready (w : Warp) (seq : Nat) (choose : Nat → Bool) (a : Acc) : Prop :=
  choose a.slot = true ∧ isRemote a.key = false ∧ (isScratch a.key || !w.behindRay seq) = true

theorem performOp_step {s : State} {o : MemOp} {a : Acc} {as : List Acc} (hr : s.w.resident = true) (ho : s.w.ops = [o])
    (ht : o.todo = a :: as) (hready : Ready s.w o.seq choose a) :
    let r := performAcc s.w.core s.w.cluster a (acquireL1 s.w.core o.acq o.drop s)
    performOp s.w.wid o.seq false choose (a :: as) s =
      performOp s.w.wid o.seq false choose as { r.1 with w := { s.w with ops := [o.performed a r.2] } } := by
  obtain ⟨hch, hrem, hray⟩ := hready
  obtain ⟨cs, hcs⟩ := acquireL1_cores s.w.core o.acq o.drop s
  have hsend : sendOut s.w.ctx a.key s = s := if_neg (by rw [hrem]; exact Bool.false_ne_true)
  have hreach : reaches s a.key = true := by unfold reaches; rw [hrem]; rfl
  have hw : (performAcc s.w.core s.w.cluster a (acquireL1 s.w.core o.acq o.drop s)).1.w = s.w := by
    rw [performAcc_w, hcs]
  intro r
  rw [performOp, warp?_onTurn hr]
  dsimp only
  rw [ho, List.find?_cons_of_pos (by simp)]
  dsimp only
  rw [List.takeWhile_cons_of_neg (by simp), mayPerform_first ht, hch, hray, if_pos (by decide), hsend, hreach, if_pos (by simp)]
  refine congrArg (performOp s.w.wid o.seq false choose as) ?_
  have hm := modWarp_onTurn (s := r.1) (f := fun x => { x with ops := x.ops.map (fun e => if e.seq == o.seq then e.performed a r.2 else e) })
    (by rw [show r.1.w = s.w from hw]; exact hr)
  rw [show r.1.w = s.w from hw] at hm
  refine hm.trans ?_
  rw [ho, List.map_cons, List.map_nil, if_pos (by simp)]

/-- All of its accesses in turn, where none of them acquires. -/
theorem performOp_all : ∀ (as : List Acc) (s : State) (w : Warp) (o : MemOp), w.resident = true → w.ops = [o] → o.todo = as →
    o.acq = false → o.drop = false → (as.map (fun a => a.slot)).Nodup → (∀ a ∈ as, Ready w o.seq choose a) →
    let r := as.foldl (fun (x : State × List Got) a => ((performAcc w.core w.cluster a x.1).1,
      x.2 ++ (performAcc w.core w.cluster a x.1).2.toList)) (s, o.got)
    performOp w.wid o.seq false choose as { s with w := w } = { r.1 with w := { w with ops := [{ o with todo := [], got := r.2 }] } }
  | [], s, w, o, _, ho, ht, _, _, _, _ => by
    dsimp only [List.foldl_nil]
    rw [performOp, show ({ o with todo := [], got := o.got } : MemOp) = o by rw [← ht], ← ho]
  | a :: as, s, w, o, hr, ho, ht, ha, hd, hn, hready => by
    have hacq : acquireL1 w.core o.acq o.drop { s with w := w } = { s with w := w } := by rw [ha, hd]; rfl
    have hstep := performOp_step (s := { s with w := w }) hr ho ht (hready a List.mem_cons_self)
    dsimp only at hstep
    rw [hacq, performAcc_withW] at hstep
    obtain ⟨hna, hn'⟩ := List.nodup_cons.1 hn
    have hrest : (o.performed a (performAcc w.core w.cluster a s).2).todo = as := by
      unfold MemOp.performed
      dsimp only
      rw [ht, List.filter_cons_of_neg (by simp), List.filter_eq_self]
      intro b hb
      exact bne_iff_ne.2 (fun he => hna (List.mem_map.2 ⟨b, hb, he⟩))
    exact hstep.trans (performOp_all as (performAcc w.core w.cluster a s).1
      { w with ops := [o.performed a (performAcc w.core w.cluster a s).2] } _ hr rfl hrest ha hd hn'
      (fun b hb => hready b (List.mem_cons_of_mem a hb)))

/-! ### Completion (R203, R204) -/

/-- An operation's results write registers alone. -/
theorem writeDest_ops (w : Warp) (d : Dest) (got : List Got) (ops : List MemOp) :
    writeDest { w with ops := ops } d got = { writeDest w d got with ops := ops } := by
  cases d with
  | scalar d size sgn => cases got <;> rfl
  | none => rfl
  | vec => rfl
  | tex => rfl
  | vals => rfl

theorem writeDest_keeps (w : Warp) (d : Dest) (got : List Got) :
    (writeDest w d got).live = w.live ∧ (writeDest w d got).wid = w.wid ∧ (writeDest w d got).resident = w.resident := by
  cases d with
  | scalar d size sgn => cases got <;> exact ⟨rfl, rfl, rfl⟩
  | none => exact ⟨rfl, rfl, rfl⟩
  | vec => exact ⟨rfl, rfl, rfl⟩
  | tex => exact ⟨rfl, rfl, rfl⟩
  | vals => exact ⟨rfl, rfl, rfl⟩

theorem trimOps_done (o : MemOp) (h : o.done = true) : trimOps .st (trimOps .ld [o]) = [] := by
  obtain ⟨seq, cls, acq, rel, drop, wait, irr, todo, got, dst, done⟩ := o
  subst h
  cases cls <;> rfl

/-- The only operation completes: its results are written, and it is forgotten. -/
theorem complete_only {o : MemOp} (ht : o.todo = []) (hd : o.done = false) (hw : o.wait = false) :
    ({ w with ops := [o] } : Warp).complete = { writeDest w o.dst o.got with ops := [] } := by
  have h1 : (if o.todo.isEmpty && !o.done && !o.wait then writeDest { w with ops := [o] } o.dst o.got else { w with ops := [o] }) =
      writeDest { w with ops := [o] } o.dst o.got := if_pos (by rw [ht, hd, hw]; rfl)
  have h2 : (if o.todo.isEmpty && !o.wait then { o with done := true } else o) = { o with done := true } := if_pos (by rw [ht, hw]; rfl)
  refine (congr (congrArg (fun (x : Warp) (e : MemOp) => ({ x with ops := trimOps .st (trimOps .ld [e]) } : Warp)) h1) h2).trans ?_
  dsimp only
  rw [trimOps_done _ rfl, writeDest_ops]

variable {s t : State} {o : MemOp} {got : List Got} {lanes : BitVec 32}

/-- MEMORY_OP_COMPLETE, once the only operation of the warp on turn has performed its accesses. -/
theorem memoryOp_completes (hr : s.w.resident = true) (hl : s.w.live = true) (ho : s.w.ops = [o]) (hd : o.done = false)
    (hw : o.wait = false)
    (hp : performOp s.w.wid o.seq false (fun k => lanes.getLsbD (k % 32)) o.todo s =
      { t with w := { s.w with ops := [{ o with todo := [], got := got }] } }) :
    execMemoryOpComplete s.w.wid o.seq lanes s = .next { t with w := { writeDest s.w o.dst got with ops := [] } } := by
  obtain ⟨klive, kwid, kres⟩ := writeDest_keeps s.w o.dst got
  have hrun : runOp s.w.wid o.seq false (fun k => lanes.getLsbD (k % 32)) s =
      { t with w := { writeDest s.w o.dst got with ops := [] } } := by
    unfold runOp
    rw [warp?_onTurn hr]
    dsimp only
    rw [ho, List.find?_cons_of_pos (by simp)]
    dsimp only
    rw [hp]
    refine (modWarp_onTurn (s := { t with w := { s.w with ops := [{ o with todo := [], got := got }] } }) hr).trans ?_
    exact congrArg (fun x => ({ t with w := x } : State)) (complete_only rfl hd hw)
  unfold execMemoryOpComplete
  rw [hrun]
  refine congrArg Host.Outcome.next ?_
  have hw' := warp?_onTurn (s := { t with w := { writeDest s.w o.dst got with ops := [] } }) (kres.trans hr)
  unfold tryRetire
  rw [show s.w.wid = (writeDest s.w o.dst got).wid from kwid.symm, hw']
  exact if_neg (by
    have hg : ({ writeDest s.w o.dst got with ops := [] } : Warp).live = true := klive.trans hl
    unfold Warp.gone
    rw [hg]
    exact Bool.false_ne_true)

end

/-! ### One access (R197, R202, R208, R212, R213) -/

/-- What is read through an L1 that an acquire may have emptied. -/
theorem readVia_cores (s : State) (cs : List (Nat × Core)) (core : Nat) (l1 : Bool) (k n : Nat) :
    readVia { s with cores := cs } core l1 k n =
      if l1 && (look {} (look {} cs core : Core).l1 (lineOf k)).live then
        (BitVec.ofNat 64 (lineRead (look {} (look {} cs core : Core).l1 (lineOf k)) k n),
          (look {} (look {} cs core : Core).l1 (lineOf k)).bad.getD (k % 128 / 8) false)
      else (BitVec.ofNat 64 (rdMem s.mem k n), isBad s k) := rfl

/-- The other L1s of the cluster hold the line no more. -/
theorem dropLine_drops (s : State) (cluster line : Nat) (keep : Option Nat) {c : Nat} (hc : clusterOf s c = cluster) (hk : keep ≠ some c) :
    (look {} ((dropLine s cluster line keep).core c).l1 line).live = false := by
  refine look_all (P := fun x : Core => (look {} x.l1 line).live = false) rfl fun e he hec => ?_
  obtain ⟨x, _, rfl⟩ := List.mem_map.1 he
  by_cases hx : (clusterOf s x.1 == cluster && !(keep == some x.1)) = true
  · rw [if_pos hx]
    dsimp only
    rw [look_del, if_pos rfl]
  · rw [if_neg hx] at hec
    refine absurd ?_ hx
    rw [hec, hc]
    simpa using hk

theorem extract_byte (v : W64) (i : Nat) : BitVec.ofNat 8 (v.toNat / 256 ^ i) = v.extractLsb' (8 * i) 8 := by
  apply BitVec.eq_of_toNat_eq
  rw [BitVec.toNat_ofNat, BitVec.extractLsb'_toNat, Nat.shiftRight_eq_div_pow]
  exact congrArg (fun x => v.toNat / x % 2 ^ 8) (Nat.pow_mul 2 8 i).symm

/-- A store changes the bytes at its key, and no other. -/
theorem storeMem_stores {s t : State} {k n : Nat} {v : W64} {bad : Bool} (h : t.mem = s.mem) :
    (∀ j, (j < k ∨ k + n ≤ j) → (storeMem k n v bad t).byte j = s.byte j) ∧
    (∀ i < n, (storeMem k n v bad t).byte (k + i) = v.extractLsb' (8 * i) 8) := by
  refine ⟨fun j hj => ?_, fun i hi => ?_⟩
  · rw [byte_storeMem, if_neg (by omega)]
    exact congrArg (fun m => look 0 m j) h
  · rw [byte_storeMem, if_pos (by omega), Nat.add_sub_cancel_left, extract_byte]

/-- Settles O25: one access as `performAcc` performs it, several by `performOp_all`, and the end by `memoryOp_completes`. -/
theorem memoryOperationCompletes : Obligations.MemoryOperationCompletes := by
  intro s o lanes w completes hr hl ho hd hwt htodo hray
  have ready : ∀ a ∈ o.todo, Ready s.w o.seq (fun k => lanes.getLsbD (k % 32)) a := by
    intro a ha
    obtain ⟨h1, h2⟩ := htodo a ha
    refine ⟨h1, h2, ?_⟩
    by_cases hb : s.w.behindRay o.seq = true
    · obtain ⟨b, hb, hq⟩ := List.any_eq_true.1 hb
      rw [Bool.and_eq_true, Bool.not_eq_true', decide_eq_true_iff] at hq
      rw [show isScratch a.key = true from decide_eq_true (hray b hb hq.1 hq.2 a ha)]
      rfl
    · rw [Bool.eq_false_iff.2 hb, Bool.not_false, Bool.or_true]
  refine ⟨fun a ha hg hs1 hs8 => ?_, fun hne ha _ hdr hn => ?_⟩
  · intro u line cached x bad dropped stores
    have one : completes { (performAcc w.core w.cluster a u).1 with
        w := { writeDest w o.dst (performAcc w.core w.cluster a u).2.toList with ops := [] } } := by
      refine memoryOp_completes hr hl ho hd hwt ?_
      rw [ha]
      refine (performOp_step hr ho ha (ready a (by rw [ha]; exact List.mem_cons_self))).trans ?_
      rw [performOp]
      have hp : ∀ r, o.performed a r = { o with todo := [], got := r.toList } := by
        intro r
        unfold MemOp.performed
        rw [ha, hg, List.filter_cons_of_neg (by simp), List.filter_nil, List.nil_append]
      rw [hp]
    obtain ⟨cs, hcs⟩ := acquireL1_cores w.core o.acq o.drop s
    have hmem : u.mem = s.mem := (congrArg State.mem hcs).trans rfl
    have hbad : isBad u a.key = isBad s a.key := (congrArg (fun t => isBad t a.key) hcs).trans rfl
    have hcl : ∀ c, clusterOf u c = clusterOf s c := fun c => (congrArg (fun t => clusterOf t c) hcs).trans rfl
    have hrd : readVia u w.core a.l1 a.key a.size = (x, bad) := by
      have h := readVia_cores s cs w.core a.l1 a.key a.size
      rw [← hcs] at h
      refine h.trans ?_
      have hline : line = look {} (look {} cs w.core : Core).l1 (lineOf a.key) :=
        congrArg (fun t : State => look {} (t.core w.core).l1 (lineOf a.key)) hcs
      rw [← hline]
      by_cases hc : cached = true
      · rw [show (a.l1 && line.live) = true from hc, if_pos rfl, show x = _ from if_pos hc, show bad = _ from if_pos hc]
      · rw [show (a.l1 && line.live) = false from Bool.eq_false_iff.2 hc, if_neg Bool.false_ne_true, show x = _ from if_neg hc,
          show bad = _ from if_neg hc]
    refine ⟨fun hk => ⟨fun d sgn hdst => ?_, fun d sgn hdst => ?_⟩, fun hk hdst => ?_, fun n ty => ?_, fun hk hdst => ?_⟩
    · have hp : performAcc w.core w.cluster a u = (u, some ⟨a.slot, x, bad⟩) := by
        unfold performAcc
        rw [hk]
        dsimp only
        rw [hrd]
      rw [hp, hdst] at one
      exact one
    · have hp : performAcc w.core w.cluster a u = (u, some ⟨a.slot, x, bad⟩) := by
        unfold performAcc
        rw [hk]
        dsimp only
        rw [hrd]
      rw [hp, hdst] at one
      exact one
    · have hp : performAcc w.core w.cluster a u = (writeVia u w.core w.cluster a.key a.size a.x a.bad, none) := by
        unfold performAcc
        rw [hk]
      obtain ⟨ds, hv, hds⟩ := writeVia_gives u w.core w.cluster a.key a.size a.x a.bad
      rw [hp, hdst, hv] at one
      refine ⟨_, one, rfl, storeMem_stores (bad := a.bad) (t := { u with cores := ds }) hmem, fun c hc hnc => ?_⟩
      exact (congrArg (fun y : Core => (look {} y.l1 (lineOf a.key)).live) (hds c hnc)).trans
        (dropLine_drops u w.cluster _ _ ((hcl c).trans hc) (fun h => hnc (Option.some.inj h).symm))
    · intro old
      have hold : BitVec.ofNat 64 (rdMem u.mem a.key a.size) = old := congrArg (fun m => BitVec.ofNat 64 (rdMem m a.key a.size)) hmem
      have hrmw : rmwMem w.cluster n ty a u =
          storeMem a.key a.size (atomicNew n ty old a.x a.y) a.bad (dropLine u w.cluster (lineOf a.key) none) :=
        congrArg (fun y => storeMem a.key a.size (atomicNew n ty y a.x a.y) a.bad (dropLine u w.cluster (lineOf a.key) none)) hold
      have drops : ∀ c, clusterOf s c = w.cluster →
          (look {} ((dropLine u w.cluster (lineOf a.key) none).core c).l1 (lineOf a.key)).live = false :=
        fun c hc => dropLine_drops u w.cluster _ none ((hcl c).trans hc) (fun h => nomatch h)
      refine ⟨fun hk d sgn hdst => ⟨fun hb => ?_, fun hb => ?_⟩, fun hk hdst => ⟨fun hb => ?_, fun hb => ?_⟩⟩
      · have hp : performAcc w.core w.cluster a u = (rmwMem w.cluster n ty a u, some ⟨a.slot, old, false⟩) := by
          unfold performAcc
          rw [hk]
          exact (if_neg (by rw [hbad, hb]; exact Bool.false_ne_true)).trans (congrArg (fun y => (_, some (Got.mk a.slot y false))) hold)
        rw [hp, hdst, hrmw] at one
        exact ⟨_, one, rfl, storeMem_stores (bad := a.bad) (t := dropLine u w.cluster (lineOf a.key) none) hmem, fun c hc _ => drops c hc⟩
      · have hp : performAcc w.core w.cluster a u = (dropLine u w.cluster (lineOf a.key) none, some ⟨a.slot, old, true⟩) := by
          unfold performAcc
          rw [hk]
          exact (if_pos (by rw [hbad, hb])).trans (congrArg (fun y => (_, some (Got.mk a.slot y true))) hold)
        rw [hp, hdst] at one
        exact one
      · have hp : performAcc w.core w.cluster a u = (rmwMem w.cluster n ty a u, none) := by
          unfold performAcc
          rw [hk]
          exact congrArg (fun t => (t, none)) (if_neg (by rw [hbad, hb]; exact Bool.false_ne_true))
        rw [hp, hdst, hrmw] at one
        exact ⟨_, one, rfl, storeMem_stores (bad := a.bad) (t := dropLine u w.cluster (lineOf a.key) none) hmem, fun c hc _ => drops c hc⟩
      · have hp : performAcc w.core w.cluster a u = (logUnc w.cluster (dropLine u w.cluster (lineOf a.key) none), none) := by
          unfold performAcc
          rw [hk]
          exact congrArg (fun t => (t, none)) (if_pos (by rw [hbad, hb]))
        rw [hp, hdst] at one
        exact one
    · have hp : performAcc w.core w.cluster a u = (u, none) := by
        unfold performAcc
        rw [hk]
      rw [hp, hdst] at one
      exact one
  · intro r
    refine memoryOp_completes hr hl ho hd hwt ?_
    exact performOp_all o.todo s w o hr ho rfl ha hdr hn ready

end Sys2Proof.Proofs
end

section
/-! SUPPORT. Transactions (R242, R245, R250, R253 to R257, R259, R260). -/

namespace Sys2Proof.Proofs
open Sys2Proof Sys2Proof.Machine

/-- An offset in words is four times its value. -/
theorem offset_eq_mul {n : Nat} (x : BitVec n) : offset x = 4 * x.signExtend 64 := by
  rw [offset, BitVec.shiftLeft_eq_mul_twoPow, BitVec.mul_comm]
  rfl

/-! ### TXBEGIN (R245) -/

section
variable {s : State} {sc : BitVec 3} {off : BitVec 21}

/-- The gate of TXBEGIN. -/
def txbeginGate (sc : BitVec 3) (fb : Bool) (off : BitVec 21) : Gate :=
  { word := zx (0x58#7 ++ sc ++ BitVec.ofBool fb ++ off), cls := .memory }

variable (hc : Clear s { cls := .memory }) (hl : s.w.tlevel = 0) (hg : s.w.group = none) (hr : s.w.resvOk s.w.txResv = true)
include hc hl hg hr

theorem txbegin_logged :
    (txSetFree s = true → execTxbegin sc false off s =
      .next (fell 4 (openGroup sc.toNat false (s.w.p.pc + offset off) s.w.txResv s))) ∧
    (txSetFree s = false → execTxbegin sc false off s = .next (waits 15 s)) := by
  have h := plain_run (o := execTxbegin sc false off s) (gt := txbeginGate sc false off) rfl ⟨rfl, rfl, rfl, rfl, rfl, rfl, rfl⟩ hc
  dsimp only at h
  rw [if_neg (not_not_intro hl), hg, if_neg (show ¬(none : Option TxGroup).isSome = true from Bool.false_ne_true), hr, if_neg (by decide), if_pos (by decide)] at h
  exact ⟨fun hf => h.trans (congrArg (Gate.out _) (if_pos hf)), fun hf => h.trans (congrArg (Gate.out _) (if_neg (Bool.eq_false_iff.1 hf)))⟩

theorem txbegin_fallback {t : State} (ht : t = grantTabards (askTabard (domainOf s sc.toNat) s)) :
    ((tabardOf t (domainOf s sc.toNat)).holder = some s.w.wid → execTxbegin sc true off s =
      .next (fell 4 (openGroup sc.toNat true (s.w.p.pc + offset off) s.w.txResv t))) ∧
    ((tabardOf t (domainOf s sc.toNat)).holder ≠ some s.w.wid → execTxbegin sc true off s = .next (blocked 15 t)) := by
  subst ht
  have h := plain_run (o := execTxbegin sc true off s) (gt := txbeginGate sc true off) rfl ⟨rfl, rfl, rfl, rfl, rfl, rfl, rfl⟩ hc
  dsimp only at h
  rw [if_neg (not_not_intro hl), hg, if_neg (show ¬(none : Option TxGroup).isSome = true from Bool.false_ne_true), hr, if_neg (by decide), if_neg (by decide)] at h
  exact ⟨fun hf => h.trans (congrArg (Gate.out _) (if_pos (beq_iff_eq.2 hf))),
    fun hf => h.trans (congrArg (Gate.out _) (if_neg (fun hb => hf (eq_of_beq hb))))⟩

end

/-! ### TXEND (R250, R253) -/

/-- The lanes of a warp that a transaction has begun and not ended. -/
def inTx (w : Warp) : Mask := w.txMask .active ||| w.txMask .aborted ||| w.txMask .irrevocable

theorem and_activeTx (w : Warp) (m : Mask) :
    m &&& (w.activeTx m ||| w.txMask .aborted ||| w.txMask .irrevocable) = m &&& inTx w := by
  unfold Warp.activeTx inTx
  apply BitVec.eq_of_getLsbD_eq
  intro l hl
  simp only [BitVec.getLsbD_and, BitVec.getLsbD_or]
  cases m.getLsbD l <;> simp

/-- A lane outside of transactions is in none of the states. -/
theorem txMask_getLsbD_none {w : Warp} {l : Nat} (h : (w.txl l).st = .none) {st : TxSt} (hst : st ≠ .none) :
    (w.txMask st).getLsbD l = false := by
  unfold Warp.txMask
  split
  · exact BitVec.getLsbD_zero
  · by_cases hl : l < 32
    · rw [maskOf_getLsbD _ _ hl]
      exact beq_false_of_ne (fun he => hst (he.symm.trans h))
    · exact BitVec.getLsbD_of_ge _ _ (Nat.not_lt.1 hl)

theorem inTx_none {w : Warp} {m : Mask} (h : ∀ l, m.getLsbD l = true → (w.txl l).st = .none) : m &&& inTx w = 0 := by
  apply BitVec.eq_of_getLsbD_eq
  intro l hl
  rw [BitVec.getLsbD_and]
  refine Eq.trans ?_ BitVec.getLsbD_zero.symm
  cases hm : m.getLsbD l
  · rfl
  · unfold inTx
    rw [BitVec.getLsbD_or, BitVec.getLsbD_or, txMask_getLsbD_none (h l hm) (by decide), txMask_getLsbD_none (h l hm) (by decide),
      txMask_getLsbD_none (h l hm) (by decide)]
    rfl

section
variable {s : State}

/-- What the ABORTED lanes and the others do once the commits are made (R250). -/
theorem routeAt_gives (s : State) :
    let routed := s.w.p.mask &&& s.w.txMask .aborted
    let left := s.w.p.mask &&& ~~~routed
    let w1 := s.w.unTx routed
    (routed = 0 → routeAt s = .fall (closeGroup s)) ∧
    (routed ≠ 0 → left = 0 → routeAt s = .jump (closeGroup { s with w := { w1 with p := { w1.p with pc := s.w.abortTarget } } })) ∧
    (routed ≠ 0 → left ≠ 0 → routeAt s = .jump (closeGroup { s with
      w := w1.splitTo ({ s.w.p with mask := routed, pc := s.w.abortTarget, age := 0 }) (({ s.w.p with mask := left, age := 0 } : Path).fall 4) })) :=
  ⟨fun h => if_pos h, fun h hl => (if_neg h).trans (if_pos hl), fun h hl => (if_neg h).trans (if_neg hl)⟩

/-- The gate of TXEND. -/
def txendGate : Gate := { word := wordN 0x59 false, cls := .memory }

variable (hc : Clear s { cls := .memory })
include hc

theorem txend_falls (h : ∀ l, s.w.p.mask.getLsbD l = true → (s.w.txl l).st = .none) : execTxend s = .next (fell 4 s) := by
  have hrun := plain_run (o := execTxend s) (gt := txendGate) rfl ⟨rfl, rfl, rfl, rfl, rfl, rfl, rfl⟩ hc
  exact hrun.trans (congrArg txendGate.out (if_pos (.inr ((and_activeTx s.w s.w.p.mask).trans (inTx_none h)))))

variable (hl : s.w.tlevel = 0) (hin : s.w.p.mask &&& inTx s.w ≠ 0) {gr : TxGroup} (hg : s.w.group = some gr)
include hl hin hg

theorem txend_elsewhere (hd : s.w.p.fdepth ≠ gr.depth) : execTxend s = .next (fellW 4 s (s.w.abort s.w.p.mask 10 0)) := by
  have hrun := plain_run (o := execTxend s) (gt := txendGate) rfl ⟨rfl, rfl, rfl, rfl, rfl, rfl, rfl⟩ hc
  dsimp only at hrun
  rw [if_neg (by rw [and_activeTx]; exact fun h => h.elim (fun h => h hl) hin), hg] at hrun
  exact hrun.trans (congrArg txendGate.out (if_pos hd))

/-- The commits, in ascending order, and what their lanes hold then. -/
def committed (s : State) (gr : TxGroup) : State :=
  let s1 := (lanesOf (s.w.activeTx s.w.p.mask)).foldl (fun t l => commitLane l t) s
  let ok := s1.w.activeTx s.w.p.mask
  let s2 := acquireL1 s.w.core (ok != 0) (ok != 0 && decide (4 ≤ gr.sc)) s1
  { s2 with w := s2.w.commitTx s.w.p.mask }

theorem txend_commits (hd : s.w.p.fdepth = gr.depth) (hp : s.w.allPerformed = true) (ht : s.tileBusy = false) :
    execTxend s = txendGate.out (routeAt (committed s gr)) := by
  have hrun := plain_run (o := execTxend s) (gt := txendGate) rfl ⟨rfl, rfl, rfl, rfl, rfl, rfl, rfl⟩ hc
  dsimp only at hrun
  rw [if_neg (by rw [and_activeTx]; exact fun h => h.elim (fun h => h hl) hin), hg] at hrun
  exact hrun.trans (congrArg txendGate.out ((if_neg (not_not_intro hd)).trans (afterAll_done hp ht)))

end

/-! ### The commit of a lane (R254) -/

section
variable {s : State} {l : Nat}

/-- The state in which the free value of a slice has been taken. -/
def tookFree (s : State) (l : Nat) : State := if maySliceFill s (s.w.txl l) then { s with free := s.free + 1 } else s

theorem commitLane_busy (h : (maySliceFill s (s.w.txl l) && Config.sliceBusy s.free) = true) :
    commitLane l s = abortLane l 8 (tookFree s l) := if_pos h

theorem invalid_iff (s : State) (t : TxLane) : (meetsTabard s t || t.rlog.any (fun e => !stillSame s e)) = true ↔
    (meetsTabard s t = true ∨ ∃ e ∈ t.rlog, BitVec.ofNat 64 (rdMem s.mem e.key 8) ≠ e.val) := by
  rw [Bool.or_eq_true, List.any_eq_true]
  refine or_congr Iff.rfl (exists_congr fun e => and_congr Iff.rfl ?_)
  rw [Bool.not_eq_true', ← Bool.not_eq_true]
  exact not_congr beq_iff_eq

variable (h : (maySliceFill s (s.w.txl l) && Config.sliceBusy s.free) = false)
include h

theorem commitLane_fails (hi : (meetsTabard s (s.w.txl l) || (s.w.txl l).rlog.any (fun e => !stillSame s e)) = true) :
    commitLane l s = abortLane l 1 (tookFree s l) := (if_neg (Bool.eq_false_iff.1 h)).trans (if_pos hi)

theorem commitLane_writes (hi : ¬(meetsTabard s (s.w.txl l) || (s.w.txl l).rlog.any (fun e => !stillSame s e)) = true) :
    let u := (s.w.txl l).wlog.foldl (commitWord s.w.cluster) (tookFree s l)
    commitLane l s = { u with w := u.w.setTxl l { s.w.txl l with rlog := [], wlog := [] } } :=
  (if_neg (Bool.eq_false_iff.1 h)).trans (if_neg hi)

end

/-! ### TXABORT, TXSTAT and TXCAUSE (R256, R257) -/

section
variable {s : State} {code : BitVec 4} {d : BitVec 6} {g : Bool}

theorem txabort_gives (hc : Clear s { guard := g, cls := .memory }) :
    execTxabort code g s = .next (fellW 4 s (if s.w.tlevel = 0 then s.w.abort (s.w.active g) 6 code.toNat else s.w)) :=
  plain_onWarp (o := execTxabort code g s) (gt := { word := wordA 0x5A 0 0 0 code g false, guard := g, cls := .memory })
    rfl ⟨rfl, rfl, rfl, rfl, rfl, rfl, rfl⟩ hc

theorem txstat_gives (hc : Clear s { guard := g, cls := .memory, scals := [d.toNat] }) :
    execTxstat d g s = .next (fellW 4 s (s.w.setS d.toNat (zx (maskOf (fun l => (s.w.txl l).stat))) false)) :=
  (plain_onWarp (o := execTxstat d g s) (gt := { word := wordA 0x5B d 0 0 0 g false, guard := g, cls := .memory, scals := [d.toNat] })
    rfl ⟨rfl, rfl, rfl, rfl, rfl, rfl, rfl⟩ hc).trans (congrArg (fun w => Host.Outcome.next (fellW 4 s w)) (if_neg hc.lanes))

theorem txcause_gives (hc : Clear s { guard := g, cls := .memory, regs := [vop1 d] }) :
    execTxcause d g s = .next (fellW 4 s (s.w.lanesTo false d.toNat (s.w.active g) (fun l => (w64 (s.w.txl l).word, false)))) :=
  plain_onWarp (o := execTxcause d g s) (gt := { word := wordA 0x5B d 0 0 1 g false, guard := g, cls := .memory, regs := [vop1 d] })
    rfl ⟨rfl, rfl, rfl, rfl, rfl, rfl, rfl⟩ hc

end

/-- Settles O30: TXEND by `txend_commits` and `routeAt_gives`, the commit of a lane by its three cases. -/
theorem transactionsComplete : Obligations.TransactionsComplete := by
  intro s sc off code d g w
  refine ⟨fun hc hl => ⟨fun hg hr => ?_, txend_falls hc, fun gr hg hd hin => txend_elsewhere hc hl hin hg hd,
    fun gr hg hd hin hp ht => ?_⟩, fun l _ => ?_, txabort_gives, txstat_gives, txcause_gives⟩
  · intro target
    have e : s.w.p.pc + offset off = target := congrArg (s.w.p.pc + ·) (offset_eq_mul off)
    obtain ⟨h1, h2⟩ := txbegin_logged (sc := sc) (off := off) hc hl hg hr
    rw [e] at h1
    refine ⟨h1, h2, fun t ht => ?_⟩
    have h := txbegin_fallback (sc := sc) (off := off) hc hl hg hr ht
    rw [e] at h
    exact h
  · intro s1 ok s2 w3 routed left w4 tgt
    have hrun := txend_commits hc hl hin hg hd hp ht
    obtain ⟨h1, h2, h3⟩ := routeAt_gives (committed s gr)
    exact ⟨fun h => hrun.trans (congrArg txendGate.out (h1 h)), fun h hl => hrun.trans (congrArg txendGate.out (h2 h hl)),
      fun h hl => hrun.trans (congrArg txendGate.out (h3 h hl))⟩
  · intro t may busy s0 invalid
    exact ⟨commitLane_busy, fun hb hi => commitLane_fails hb ((invalid_iff s t).2 hi),
      fun hb hi => commitLane_writes hb (fun h => hi ((invalid_iff s t).1 h))⟩

end Sys2Proof.Proofs
end

section
/-! SUPPORT. The issue of copies, CPQ and CPCAN (R237, R239, R280 to R285, R287, R290). -/

namespace Sys2Proof.Proofs
open Sys2Proof Sys2Proof.Machine

/-! ### The gate of a copy -/

section
variable {s : State} {a b : BitVec 6} {g : Bool} {f : CopyForm} {op : BitVec 7} {fn : BitVec 4}

/-- The demands of a copy whose operand block begins at `s[n]`. -/
def copyDemand (a : BitVec 6) (n : Nat) (g : Bool) : Demand :=
  { guard := g, cls := .copy, scals := [a.toNat, n, n + 1, n + 2, n + 3]
    uses := [useS a, { sc := true, n := n }, { sc := true, n := n, off := 1 }, { sc := true, n := n, off := 2 }
      , { sc := true, n := n, off := 3 }] }

theorem afterAllHeld_done {k : State → Res} (hp : s.w.allPerformed = true) (ht : s.tileBusy = false) : afterAllHeld s k = k s :=
  if_pos (by rw [hp, ht]; rfl)

theorem afterAllHeld_early {k : State → Res} (h : s.w.allPerformed = false ∨ s.tileBusy = true) : afterAllHeld s k = .block 3 s :=
  if_neg (by rcases h with h | h <;> simp [h])

/-- What follows the gate of a copy. -/
theorem copyGate_run {o : Host.Outcome State Fault Refusal} {body : State → Mask → Res}
    (e : o = (copyGate op fn a b g s).run body s) (hc : Clear s (copyDemand a b.toNat g)) (htx : NoTx s g) (hcp : s.w.cp < 63)
    (hb : b.toNat % 4 = 0) : o = (copyGate op fn a b g s).out (body s (s.w.active g)) :=
  simple_run (gt := copyGate op fn a b g s) e ⟨beq_iff_eq.2 hb, rfl, rfl, decide_eq_false (Nat.not_le.2 hcp), rfl, rfl⟩ hc htx

/-- A copy of one warp, after its gate and its release. -/
def copyBody (f : CopyForm) (a b : BitVec 6) (s : State) (act : Mask) : Res :=
  match prepare f s s.w (s.w.sr a.toNat).bits b.toNat with
  | .trap c v => trapAct c v act s
  | .retry va => parkAt 0 [va] s
  | .ok p =>
    if !locksFree s p.locks then .block 18 s
    else match startCopy f (s.w.sr a.toNat).bits [p] s with
      | none => trapAct 0x07 p.desc.bar act s
      | some s1 => .fall (noteReads act (issueReads f s.w a.toNat b.toNat) s1)

variable (hc : Clear s (copyDemand a b.toNat g)) (htx : NoTx s g) (hcp : s.w.cp < 63) (hb : b.toNat % 4 = 0)
include hc htx hcp hb

theorem copyOp_run : copyOp f op fn a b g s = (copyGate op fn a b g s).out
    (afterAllHeld s (fun s' => overFabric (issueReads f s'.w a.toNat b.toNat) s' (fun t => copyBody f a b t (s.w.active g)))) :=
  (copyGate_run (o := copyOp f op fn a b g s) rfl hc htx hcp hb).trans (congrArg (Gate.out _) ((if_neg hc.lanes).trans rfl))

theorem copyOp_early (h : s.w.allPerformed = false ∨ s.tileBusy = true) : copyOp f op fn a b g s = .next (blocked 3 s) := by
  rw [copyOp_run hc htx hcp hb, afterAllHeld_early h]
  rfl

variable (hp : s.w.allPerformed = true) (ht : s.tileBusy = false)
include hp ht

theorem copyOp_refused {s0 : State} (h : readsOut s (issueReads f s.w a.toNat b.toNat) = (s0, false)) :
    copyOp f op fn a b g s = .next (blocked 3 s0) := by
  rw [copyOp_run hc htx hcp hb, afterAllHeld_done hp ht, overFabric_refused h]
  rfl

theorem copyOp_reads {s0 : State} (h : readsOut s (issueReads f s.w a.toNat b.toNat) = (s0, true)) :
    copyOp f op fn a b g s = (copyGate op fn a b g s).out (copyBody f a b s0 (s.w.active g)) := by
  rw [copyOp_run hc htx hcp hb, afterAllHeld_done hp ht, overFabric_made h]

end

/-! ### The start of a copy (R281, R286) -/

/-- Range-lock entries stand at cores alone. -/
theorem takeLocks_cores (id : Nat) : ∀ (ls : List (Nat × RLock)) (s : State), ∃ cs, takeLocks id ls s = { s with cores := cs }
  | [], s => ⟨s.cores, rfl⟩
  | l :: ls, s => by
    obtain ⟨cs, h⟩ := takeLocks_cores id ls (s.setCore l.1 { s.core l.1 with locks := (s.core l.1).locks ++ [{ l.2 with copy := id }] })
    exact ⟨cs, h.trans rfl⟩

theorem noteReads_tabards (act : Mask) (vas : List W64) (s : State) : ∃ ts, noteReads act vas s = { s with tabards := ts } := by
  unfold noteReads
  split
  · exact ⟨s.tabards, rfl⟩
  · exact ⟨_, rfl⟩

/-- The new copy of a prepared slice. -/
def copyOf (f : CopyForm) (da : W64) (p : Prep) (s : State) : Copy :=
  let w := (s.warp? p.slice.wid).getD {}
  { id := s.nextCopy, form := f, ctx := w.ctx, core := w.core, wg := w.wg, descAddr := da, desc := p.desc
    shape := p.shape, slices := [p.slice], size := p.size, barKey := p.barKey }

/-- The barrier object once a copy of BMODE 2 or 3 has added its size (R281). -/
def barAdded (p : Prep) (s : State) : State :=
  if 2 ≤ p.desc.bmode then
    writeBar p.barKey ({ readBar s p.barKey with txcnt := ((readBar s p.barKey).txcnt + p.size) % 2 ^ 32 } : BarObj).check s
  else s

theorem startCopy_one {f : CopyForm} {da : W64} {p : Prep} {s : State}
    (h : p.desc.bmode ≤ 1 ∨ ((readBar s p.barKey).valid = true ∧ (readBar s p.barKey).retired = false)) :
    startCopy f da [p] s = some ((takeLocks s.nextCopy (p.locks ++ []) { barAdded p s with
      nextCopy := s.nextCopy + 1, copies := (barAdded p s).copies ++ [copyOf f da p s] }).modWarp p.slice.wid
        (fun w => w.copyStarts s.nextCopy)) := by
  have hz : [p].foldl (fun n q => n + q.size) 0 = p.size := Nat.zero_add _
  unfold startCopy
  dsimp only
  rw [hz, if_neg]
  · rfl
  · rcases h with h | ⟨hv, hr⟩
    · rw [decide_eq_false (by omega)]
      exact Bool.false_ne_true
    · rw [hv, hr]
      simp

theorem storeMem_beside (k n : Nat) (v : W64) (bad : Bool) (s : State) : Beside (storeMem k n v bad s) s := ⟨_, _, rfl⟩

theorem writeBar_beside (k : Nat) (b : BarObj) (s : State) : Beside (writeBar k b s) s :=
  (storeMem_beside _ _ _ _ _).trans ((storeMem_beside _ _ _ _ _).trans (storeMem_beside _ _ _ _ _))

theorem barAdded_beside (p : Prep) (s : State) : Beside (barAdded p s) s := by
  unfold barAdded
  split
  · exact writeBar_beside _ _ _
  · exact ⟨s.mem, s.bad, rfl⟩

theorem barAdded_keeps (p : Prep) (s : State) : (barAdded p s).w = s.w ∧ (barAdded p s).copies = s.copies := by
  obtain ⟨m, b, h⟩ := barAdded_beside p s
  rw [h]
  exact ⟨rfl, rfl⟩

/-- What the start of a copy leaves. -/
structure Started (f : CopyForm) (da : W64) (p : Prep) (s t : State) : Prop where
  w : t.w = s.w.copyStarts s.nextCopy
  next : t.nextCopy = s.nextCopy + 1
  copies : t.copies = s.copies ++ [copyOf f da p s]
  mem : t.mem = (barAdded p s).mem

theorem startCopy_started {f : CopyForm} {da : W64} {p : Prep} {s : State} (hr : s.w.resident = true) (hp : p.slice.wid = s.w.wid)
    (act : Mask) (vas : List W64)
    (h : p.desc.bmode ≤ 1 ∨ ((readBar s p.barKey).valid = true ∧ (readBar s p.barKey).retired = false)) :
    ∃ t, startCopy f da [p] s = some t ∧ Started f da p s (noteReads act vas t) := by
  obtain ⟨kw, kc⟩ := barAdded_keeps p s
  refine ⟨_, startCopy_one h, ?_⟩
  obtain ⟨cs, hcs⟩ := takeLocks_cores s.nextCopy (p.locks ++ []) { barAdded p s with
    nextCopy := s.nextCopy + 1, copies := (barAdded p s).copies ++ [copyOf f da p s] }
  have hm := modWarp_onTurn (s := { barAdded p s with
    nextCopy := s.nextCopy + 1, copies := (barAdded p s).copies ++ [copyOf f da p s], cores := cs })
    (f := fun w => w.copyStarts s.nextCopy) (by rw [kw]; exact hr)
  rw [hp, hcs, show s.w.wid = (barAdded p s).w.wid by rw [kw], hm]
  obtain ⟨ts, hts⟩ := noteReads_tabards act vas { barAdded p s with
    w := (barAdded p s).w.copyStarts s.nextCopy, nextCopy := s.nextCopy + 1
    copies := (barAdded p s).copies ++ [copyOf f da p s], cores := cs }
  rw [hts]
  exact ⟨congrArg (fun w => w.copyStarts s.nextCopy) kw, rfl, congrArg (· ++ [copyOf f da p s]) kc, rfl⟩

theorem writeBar_mem {k : Nat} {b : BarObj} {s t : State} (h : t.mem = s.mem) : (writeBar k b t).mem = (writeBar k b s).mem := by
  unfold writeBar storeMem
  dsimp only
  rw [h]

section
variable {s s0 : State} {a b : BitVec 6} {g : Bool} {f : CopyForm} {op : BitVec 7} {fn : BitVec 4} {p : Prep}

theorem copyBody_crowded {act : Mask} (h : prepare f s s.w (s.w.sr a.toNat).bits b.toNat = .ok p) (hl : locksFree s p.locks = false) :
    copyBody f a b s act = .block 18 s := by
  unfold copyBody
  rw [h]
  exact if_pos (by rw [hl]; rfl)

theorem copyBody_issues {act : Mask} (h : prepare f s s.w (s.w.sr a.toNat).bits b.toNat = .ok p) (hl : locksFree s p.locks = true)
    (ho : p.desc.bmode ≤ 1 ∨ ((readBar s p.barKey).valid = true ∧ (readBar s p.barKey).retired = false))
    (hr : s.w.resident = true) (hw : p.slice.wid = s.w.wid) :
    ∃ t, copyBody f a b s act = .fall t ∧ Started f (s.w.sr a.toNat).bits p s t := by
  obtain ⟨u, hu, hst⟩ := startCopy_started (f := f) (da := (s.w.sr a.toNat).bits) hr hw act (issueReads f s.w a.toNat b.toNat) ho
  refine ⟨_, ?_, hst⟩
  unfold copyBody
  rw [h]
  refine (if_neg (by rw [hl]; decide)).trans ?_
  rw [hu]

variable (hc : Clear s (copyDemand a b.toNat g)) (htx : NoTx s g) (hcp : s.w.cp < 63) (hb : b.toNat % 4 = 0)
  (hp : s.w.allPerformed = true) (ht : s.tileBusy = false)
include hc htx hcp hb hp ht

/-- What the start of a copy gives, in the words of the state in which the instruction issued. -/
theorem copyOp_issues (h0 : readsOut s (issueReads f s.w a.toNat b.toNat) = (s0, true))
    (h : prepare f s0 s.w (s.w.sr a.toNat).bits b.toNat = .ok p) (hl : locksFree s p.locks = true)
    (ho : p.desc.bmode ≤ 1 ∨ ((readBar s p.barKey).valid = true ∧ (readBar s p.barKey).retired = false))
    (hr : s.w.resident = true) (hw : p.slice.wid = s.w.wid) :
    ∃ t, copyOp f op fn a b g s = .next (fell 4 t) ∧ t.w = s.w.copyStarts s.nextCopy ∧ t.nextCopy = s.nextCopy + 1 ∧
      (∃ c, t.copies = s.copies ++ [c] ∧ c.id = s.nextCopy ∧ c.form = f ∧ c.descAddr = (s.w.sr a.toNat).bits ∧ c.desc = p.desc ∧
        c.slices = [p.slice] ∧ c.size = p.size ∧ c.done = 0 ∧ c.ending = 0) ∧
      (p.desc.bmode ≤ 1 → t.mem = s.mem) ∧
      (2 ≤ p.desc.bmode → t.mem = (writeBar p.barKey
        ({ readBar s p.barKey with txcnt := ((readBar s p.barKey).txcnt + p.size) % 2 ^ 32 } : BarObj).check s).mem) := by
  obtain ⟨x, y, hs0⟩ := readsOut_eq s (issueReads f s.w a.toNat b.toNat)
  rw [h0] at hs0
  dsimp only at hs0
  have hrun := copyOp_reads (op := op) (fn := fn) hc htx hcp hb hp ht h0
  subst hs0
  obtain ⟨t, hbody, hst⟩ := copyBody_issues (s := { s with sent := x, free := y }) (act := s.w.active g) h hl ho hr hw
  refine ⟨t, hrun.trans (congrArg (Gate.out _) hbody), hst.w, hst.next, ⟨_, hst.copies, rfl, rfl, rfl, rfl, rfl, rfl, rfl, rfl⟩,
    fun hm => hst.mem.trans ?_, fun hm => hst.mem.trans ?_⟩
  · unfold barAdded
    rw [if_neg (by omega)]
  · unfold barAdded
    rw [if_pos hm]
    exact writeBar_mem rfl

theorem copyOp_crowded (h0 : readsOut s (issueReads f s.w a.toNat b.toNat) = (s0, true))
    (h : prepare f s0 s.w (s.w.sr a.toNat).bits b.toNat = .ok p) (hl : locksFree s p.locks = false) :
    copyOp f op fn a b g s = .next (blocked 18 s0) := by
  obtain ⟨x, y, hs0⟩ := readsOut_eq s (issueReads f s.w a.toNat b.toNat)
  rw [h0] at hs0
  dsimp only at hs0
  have hrun := copyOp_reads (op := op) (fn := fn) hc htx hcp hb hp ht h0
  subst hs0
  exact hrun.trans (congrArg (Gate.out _) (copyBody_crowded (s := { s with sent := x, free := y }) h hl))

end

/-! ### CPC (R283) -/

section
variable {s : State} {a : BitVec 6} {b : BitVec 4} {g : Bool}

/-- The warp takes part in its workgroup's collective. -/
def joinedCpc (s : State) : Bool := s.w.grant.isSome || (s.wg s.w.wg).cpc.any (fun x => x.wid == s.w.wid)

/-- The state in which the warp has joined. -/
def cpcJoins (a : BitVec 6) (b : BitVec 4) (act : Mask) (s : State) : State :=
  s.setWg s.w.wg { s.wg s.w.wg with
    cpc := (s.wg s.w.wg).cpc ++ [{ wid := s.w.wid, desc := (s.w.sr a.toNat).bits, blk := 4 * b.toNat, act := act }] }

/-- What the collective has granted the warp. -/
def cpcEnds (a : BitVec 6) (act : Mask) (s t : State) : Res :=
  onGrantValue 9 t act (fun _ _ u => .fall (noteReads act [(s.w.sr a.toNat).bits] u))

theorem not_joinedCpc (hg : s.w.grant = none) (hx : ∀ x ∈ (s.wg s.w.wg).cpc, x.wid ≠ s.w.wid) : joinedCpc s = false := by
  rw [joinedCpc, hg]
  exact List.any_eq_false.2 fun x h => by simpa using hx x h

variable (hc : Clear s (copyDemand a (b ++ 0#2).toNat g)) (htx : NoTx s g) (hcp : s.w.cp < 63)
include hc htx hcp

theorem cpc_run : execCpc a b g s = (copyGate 0x5D 0 a (b ++ 0#2) g s).out
    (afterAllHeld s (fun s' => overFabric (if joinedCpc s then [] else issueReads .cpc s'.w a.toNat 0) s' (fun u =>
      let s1 := if joinedCpc s then u else cpcJoins a b (s.w.active g) u
      cpcEnds a (s.w.active g) u (if s1.w.grant.isSome then s1 else cpcTry s1.w.wg s1)))) :=
  (copyGate_run (o := execCpc a b g s) (body := fun s act =>
      if act = 0 then .fall s
      else afterAllHeld s (fun s' => overFabric (if joinedCpc s then [] else issueReads .cpc s'.w a.toNat 0) s' (fun u =>
        let s1 := if joinedCpc s then u else cpcJoins a b act u
        cpcEnds a act u (if s1.w.grant.isSome then s1 else cpcTry s1.w.wg s1)))) rfl hc htx hcp
    (by rw [BitVec.toNat_append]; simp; omega)).trans (congrArg (Gate.out _) (if_neg hc.lanes))

theorem cpc_early (h : s.w.allPerformed = false ∨ s.tileBusy = true) : execCpc a b g s = .next (blocked 3 s) := by
  rw [cpc_run hc htx hcp, afterAllHeld_early h]
  rfl

variable (hp : s.w.allPerformed = true) (ht : s.tileBusy = false)
include hp ht

/-- Once the collective has run, the instruction completes. -/
theorem cpc_granted (hg : s.w.grant = some .done) :
    execCpc a b g s = .next (fell 4 (noteReads (s.w.active g) [(s.w.sr a.toNat).bits] s)) := by
  have hj : joinedCpc s = true := by rw [joinedCpc, hg]; rfl
  rw [cpc_run hc htx hcp, afterAllHeld_done hp ht, hj, if_pos rfl, overFabric_made (s := s) (vas := []) rfl]
  dsimp only
  rw [if_pos rfl, if_pos (by rw [hg]; rfl), cpcEnds, onGrantValue, hg]
  rfl

variable (hg : s.w.grant = none) (hx : ∀ x ∈ (s.wg s.w.wg).cpc, x.wid ≠ s.w.wid)
include hg hx

theorem cpc_refused {s0 : State} (h : readsOut s [(s.w.sr a.toNat).bits] = (s0, false)) : execCpc a b g s = .next (blocked 3 s0) := by
  rw [cpc_run hc htx hcp, afterAllHeld_done hp ht, not_joinedCpc hg hx, if_neg Bool.false_ne_true,
    show issueReads .cpc s.w a.toNat 0 = [(s.w.sr a.toNat).bits] from rfl, overFabric_refused h]
  rfl

/-- The first time it joins the collective, which may run. -/
theorem cpc_joins {s0 : State} (h : readsOut s [(s.w.sr a.toNat).bits] = (s0, true)) :
    let t := cpcTry s.w.wg (cpcJoins a b (s.w.active g) s0)
    (t.w.grant = some .done → execCpc a b g s = .next (fell 4 (noteReads (s.w.active g) [(s.w.sr a.toNat).bits] t))) ∧
    (t.w.grant = none → execCpc a b g s = .next (blocked 9 t)) := by
  have hw : s0.w = s.w := readsOut_w h
  have hg0 : (cpcJoins a b (s.w.active g) s0).w.grant.isSome = false := by
    rw [show (cpcJoins a b (s.w.active g) s0).w = s0.w from rfl, hw, hg]
    rfl
  rw [cpc_run hc htx hcp, afterAllHeld_done hp ht, not_joinedCpc hg hx, if_neg Bool.false_ne_true,
    show issueReads .cpc s.w a.toNat 0 = [(s.w.sr a.toNat).bits] from rfl, overFabric_made h]
  dsimp only
  rw [if_neg Bool.false_ne_true, hg0, if_neg Bool.false_ne_true, show (cpcJoins a b (s.w.active g) s0).w.wg = s.w.wg from
    congrArg Warp.wg hw, cpcEnds, onGrantValue, hw]
  exact ⟨fun hd => by rw [hd]; rfl, fun hn => by rw [hn]; rfl⟩

end

/-! ### CPQ and CPCAN (R290) -/

section
variable {s : State} {d a : BitVec 6} {g : Bool}

theorem cpq_gives (hc : Clear s { guard := g, cls := .copy, scals := [d.toNat, a.toNat] }) (htx : NoTx s g) :
    (∀ t, s.w.track (bits (s.w.sr a.toNat).bits 15 0) = some t → execCpq d a g s = .next (fellW 4 s (s.w.setS d.toNat
      (BitVec.ofNat 64 (s.w.cpseq + (t.state * 2 ^ 16 + min (deliveredBy s t) 0xFFFFFFFF * 2 ^ 32))) (s.w.sr a.toNat).bad))) ∧
    (s.w.track (bits (s.w.sr a.toNat).bits 15 0) = none →
      execCpq d a g s = .next (fellW 4 s (s.w.setS d.toNat (BitVec.ofNat 64 (s.w.cpseq + 0)) (s.w.sr a.toNat).bad))) := by
  have hrun := simple_run (o := execCpq d a g s)
    (gt := { word := wordA 0x5F d a 0 0 g false, guard := g, cls := .copy, scals := [d.toNat, a.toNat], tx := false })
    rfl ⟨rfl, rfl, rfl, rfl, rfl, rfl⟩ hc htx
  dsimp only at hrun
  rw [if_neg (show s.w.active g ≠ 0 from hc.lanes)] at hrun
  refine ⟨fun t ht => ?_, fun ht => ?_⟩
  · rw [ht] at hrun
    rw [show (2 : Nat) ^ 16 = 65536 from rfl]
    exact hrun
  · rw [ht] at hrun
    exact hrun

theorem cpcan_gives (hc : Clear s { guard := g, cls := .copy, scals := [a.toNat] }) (htx : NoTx s g) :
    (∀ t, s.w.track (bits (s.w.sr a.toNat).bits 15 0) = some t →
      (t.state = 1 → execCpcan a g s = .next (fell 4 { s with
        copies := s.copies.map (fun c => if c.id == t.copy then { c with cancel := true } else c) })) ∧
      (t.state ≠ 1 → execCpcan a g s = .next (fell 4 s))) ∧
    (s.w.track (bits (s.w.sr a.toNat).bits 15 0) = none → execCpcan a g s = .next (fell 4 s)) := by
  have hrun := simple_run (o := execCpcan a g s)
    (gt := { word := wordA 0x5F 0 a 0 1 g false, guard := g, cls := .copy, scals := [a.toNat], tx := false })
    rfl ⟨rfl, rfl, rfl, rfl, rfl, rfl⟩ hc htx
  refine ⟨fun t ht => ⟨fun h1 => ?_, fun h1 => ?_⟩, fun ht => ?_⟩
  · rw [ht] at hrun
    exact hrun.trans (congrArg (Gate.out _) (if_neg (fun h => h.elim hc.lanes (fun h => h h1))))
  · rw [ht] at hrun
    exact hrun.trans (congrArg (Gate.out _) (if_pos (.inr h1)))
  · rw [ht] at hrun
    exact hrun

end

/-- Settles O32: the copies of one warp by `copyOp_issues`, CPC by `cpc_joins`. -/
theorem copiesIssue : Obligations.CopiesIssue := by
  intro s d a b g w blk da issues crowded early note htx
  have e : (b ++ 0#2).toNat = blk := by rw [BitVec.toNat_append]; simp; omega
  have hb : (b ++ 0#2).toNat % 4 = 0 := by omega
  refine ⟨fun hc hcp => ?_, fun hc => ?_, fun hc => ?_⟩
  · have hc' : Clear s (copyDemand a (b ++ 0#2).toNat g) := by rw [e]; exact hc
    refine ⟨⟨copyOp_early hc' htx hcp hb, copyOp_early hc' htx hcp hb, copyOp_early hc' htx hcp hb, copyOp_early hc' htx hcp hb,
      copyOp_early hc' htx hcp hb, cpc_early hc' htx hcp⟩, fun hp ht => ?_⟩
    have one {f : CopyForm} {op : BitVec 7} {fn : BitVec 4} {i : Instr} (hi : exec i s = copyOp f op fn a (b ++ 0#2) g s) : issues f i := by
      intro s0 h0 p h hl ho hr hw _
      rw [← e] at h0 h
      rw [hi]
      exact copyOp_issues hc' htx hcp hb hp ht h0 h hl ho hr hw
    have full {f : CopyForm} {op : BitVec 7} {fn : BitVec 4} {i : Instr} (hi : exec i s = copyOp f op fn a (b ++ 0#2) g s) : crowded f i := by
      refine ⟨fun s0 h0 => ?_, fun s0 h0 p h hl => ?_⟩
      · rw [← e] at h0
        exact hi.trans (copyOp_refused hc' htx hcp hb hp ht h0)
      · rw [← e] at h0 h
        exact hi.trans (copyOp_crowded hc' htx hcp hb hp ht h0 h hl)
    refine ⟨one (op := 0x5C) (fn := 0) rfl, one (op := 0x5C) (fn := 1) rfl, one (op := 0x5C) (fn := 2) rfl,
      one (op := 0x5C) (fn := 3) rfl, one (op := 0x5E) (fn := 0) rfl, full (op := 0x5C) (fn := 0) rfl, full (op := 0x5C) (fn := 1) rfl,
      full (op := 0x5C) (fn := 2) rfl, full (op := 0x5C) (fn := 3) rfl, full (op := 0x5E) (fn := 0) rfl,
      cpc_granted hc' htx hcp hp ht, fun hg hx => ⟨fun s0 h => cpc_refused hc' htx hcp hp ht hg hx h, fun s0 h => ?_⟩⟩
    intro t _
    have h' := cpc_joins hc' htx hcp hp ht hg hx h
    unfold cpcJoins at h'
    rw [readsOut_w h] at h'
    obtain ⟨u, v, hs0⟩ := readsOut_eq s [da]
    rw [show readsOut s [da] = (s0, true) from h] at hs0
    dsimp only at hs0
    subst hs0
    exact h'
  · obtain ⟨h1, h2⟩ := cpq_gives (d := d) hc htx
    cases hk : s.w.track (bits (s.w.sr a.toNat).bits 15 0) with
    | some t => exact h1 t hk
    | none => exact h2 hk
  · obtain ⟨h1, h2⟩ := cpcan_gives hc htx
    cases hk : s.w.track (bits (s.w.sr a.toNat).bits 15 0) with
    | none => exact h2 hk
    | some t =>
      by_cases hs : t.state = 1
      · exact ((h1 t hk).1 hs).trans (congrArg (fun u => Host.Outcome.next (fell 4 u)) (if_pos hs).symm)
      · exact ((h1 t hk).2 hs).trans (congrArg (fun u => Host.Outcome.next (fell 4 u)) (if_neg hs).symm)

end Sys2Proof.Proofs
end

section
/-! SUPPORT. The issue of the tile and matrix instructions (R265, R269, R292 to R302). -/

namespace Sys2Proof.Proofs
open Sys2Proof Sys2Proof.Machine

/-- What the gate of a tile instruction asks beside its demands: the array and a counter that is not full. -/
structure Gate.Tile (gt : Gate) : Prop where
  ok : gt.ok = true
  priv : gt.priv = true
  engine : gt.engine = true
  full : gt.full = false
  sync : gt.sync = false
  rel : gt.rel = false
  tx : gt.tx = true

theorem tile_run {o : Host.Outcome State Fault Refusal} {gt : Gate} {s : State} {body : State → Mask → Res} (e : o = gt.run body s)
    (hp : Gate.Tile gt) (hc : Clear s gt.demand) : o = gt.out (body s (s.w.active gt.guard)) :=
  gate_clear e hc hp.ok hp.priv hp.engine hp.full (by simp [hp.sync]) (by simp [hp.rel]) (.inl hp.tx) rfl

theorem onGrantValue_done {code : Nat} {s : State} {act : Mask} {done : W64 → W64 → State → Res} (h : s.w.grant = some .done) :
    onGrantValue code s act done = done 0 0 s := by
  unfold onGrantValue
  rw [h]

theorem onGrantValue_none {code : Nat} {s : State} {act : Mask} {done : W64 → W64 → State → Res} (h : s.w.grant = none) :
    onGrantValue code s act done = .block code s := by
  unfold onGrantValue
  rw [h]

section
variable {s : State} {d3 a3 b3 : BitVec 3} {d2 a2 : BitVec 2} {d a b : BitVec 6} {g : Bool} (ho : ownsArray s = true) (hl : s.w.tl < 63)
include hl

theorem full_tl : decide (63 ≤ s.w.tl) = false := decide_eq_false (Nat.not_le.2 hl)

include ho

theorem tcfg_gives (hc : Clear s { guard := g, cls := .tile, scals := [a.toNat], uses := [useS a] }) :
    (cfgOk (s.w.sr a.toNat).bits = true → execTcfg d3 a g s = .next (fell 4 (queueTile s.w.wid
      (.cfg d3.toNat ((s.w.sr a.toNat).bits.extractLsb' 0 21)) (setIssuedCfg s.w.core d3.toNat ((s.w.sr a.toNat).bits.extractLsb' 0 21) s)))) ∧
    (cfgOk (s.w.sr a.toNat).bits = false →
      execTcfg d3 a g s = .next (raise (trapOf 0x01 (s.w.sr a.toNat).bits (s.w.active g) false) s)) := by
  have h := tile_run (o := execTcfg d3 a g s)
    (gt := { tileGate (wordA 0x60 (in6 d3) a 0 0 g false) g s with scals := [a.toNat], uses := [useS a] })
    rfl ⟨rfl, rfl, ho, full_tl hl, rfl, rfl, rfl⟩ hc
  refine ⟨fun hk => h.trans (congrArg (Gate.out _) ((if_neg hc.lanes).trans (if_neg ?_))),
    fun hk => h.trans (congrArg (Gate.out _) ((if_neg hc.lanes).trans (if_pos ?_)))⟩
  · rw [hk]
    decide
  · rw [hk]
    rfl

section
variable (hc : Clear s { guard := g, cls := .tile })
include hc

theorem tzero_gives : execTzero d3 g s = .next (fell 4 (queueTile s.w.wid (.tzero d3.toNat) s)) :=
  (tile_run (o := execTzero d3 g s) (gt := tileGate (wordA 0x63 (in6 d3) 0 0 0 g false) g s)
    rfl ⟨rfl, rfl, ho, full_tl hl, rfl, rfl, rfl⟩ hc).trans (congrArg (Gate.out _) (if_neg hc.lanes))

theorem azero_gives : execAzero d2 g s = .next (fell 4 (queueTile s.w.wid (.azero d2.toNat) (setIssuedTag s.w.core d2.toNat 0 s))) :=
  (tile_run (o := execAzero d2 g s) (gt := tileGate (wordA 0x63 (in6 d2) 0 0 1 g false) g s)
    rfl ⟨rfl, rfl, ho, full_tl hl, rfl, rfl, rfl⟩ hc).trans (congrArg (Gate.out _) (if_neg hc.lanes))

theorem mma_gives :
    (mmaOk s d2.toNat a3.toNat b3.toNat = true → execMma d2 a3 b3 g s = .next (fell 4 (queueTile s.w.wid
      (.mma d2.toNat a3.toNat b3.toNat s.w.p.sat) (tagAfter a3.toNat d2.toNat s)))) ∧
    (mmaOk s d2.toNat a3.toNat b3.toNat = false → execMma d2 a3 b3 g s =
      .next (raise (trapOf 0x01 (wordA 0x64 (in6 d2) (in6 a3) (in6 b3) 0 g false) (s.w.active g) false) s)) := by
  have h := tile_run (o := execMma d2 a3 b3 g s) (gt := tileGate (wordA 0x64 (in6 d2) (in6 a3) (in6 b3) 0 g false) g s)
    rfl ⟨rfl, rfl, ho, full_tl hl, rfl, rfl, rfl⟩ hc
  refine ⟨fun hk => h.trans (congrArg (Gate.out _) ((if_neg hc.lanes).trans (if_neg ?_))),
    fun hk => h.trans (congrArg (Gate.out _) ((if_neg hc.lanes).trans (if_pos ?_)))⟩
  · rw [hk]
    decide
  · rw [hk]
    rfl

theorem tcvt_gives (hk : tcvtOk (issuedTag s a2.toNat) (cfgType (issuedCfg s d3.toNat)) = true)
    (hn : cfgCols (issuedCfg s d3.toNat) ≤ (if issuedTag s a2.toNat = 3 then 32 else 64)) :
    execTcvt d3 a2 g s = .next (fell 4 (queueTile s.w.wid (.cvt d3.toNat a2.toNat s.w.p.rm s.w.p.sat) s)) := by
  have h := tile_run (o := execTcvt d3 a2 g s) (gt := tileGate (wordA 0x68 (in6 d3) (in6 a2) 0 0 g false) g s)
    rfl ⟨rfl, rfl, ho, full_tl hl, rfl, rfl, rfl⟩ hc
  refine h.trans (congrArg (Gate.out _) ((if_neg hc.lanes).trans (if_neg ?_)))
  rintro (h | h)
  · rw [hk] at h
    exact absurd h (by decide)
  · exact Nat.not_lt.2 hn h

/-! #### Paired operations (R299, R300) -/

/-- The state in which the warp waits in its workgroup's list, the oldest waits of the pair matched. -/
def pairJoined (lead : Bool) (d a b p : Nat) (s : State) : State :=
  let t := s.setWg s.w.wg { s.wg s.w.wg with
    pairWait := (s.wg s.w.wg).pairWait ++ [{ wid := s.w.wid, d := d, a := a, b := b, sat := s.w.p.sat }] }
  if lead then pairTry s.w.wg p t else pairTry p s.w.wg t

variable {lead : Bool} {fn : BitVec 4} (hpair : (s.wg s.w.wg).pair = true) (hlead : (s.w.core % 2 == 0) = lead)
include hpair hlead

/-- The gate of MMAP and MMAP.F. -/
def pairGate (fn : BitVec 4) (leader : Bool) (d : BitVec 2) (a b : BitVec 3) (g : Bool) (s : State) : Gate :=
  { tileGate (wordA 0x65 (in6 d) (in6 a) (in6 b) fn g false) g s with
    engine := ownsArray s && (s.wg s.w.wg).pair && (s.w.core % 2 == 0) == leader }

omit hl hc in
theorem pairGate_engine : (pairGate fn lead d2 a3 b3 g s).engine = true := by
  unfold pairGate
  dsimp only
  rw [ho, hpair, hlead]
  exact beq_self_eq_true lead

theorem pairOp_resumes (hb : s.w.block = some 16) (hg : s.w.grant = some .done) :
    pairOp fn lead d2 a3 b3 g s = .next (fell 4 s) := by
  have h := tile_run (o := pairOp fn lead d2 a3 b3 g s) (gt := pairGate fn lead d2 a3 b3 g s)
    rfl ⟨rfl, rfl, pairGate_engine ho hpair hlead, full_tl hl, rfl, rfl, rfl⟩ hc
  exact h.trans (congrArg (Gate.out _) ((if_neg hc.lanes).trans ((if_pos hb).trans (onGrantValue_done hg))))

theorem pairOp_joins {p : Nat} (hb : s.w.block ≠ some 16) (hk : mmaOk s d2.toNat a3.toNat b3.toNat = true)
    (hp : partnerOf s s.w.wg = some p) (hn : pairNow s p = none) :
    let u := pairJoined lead d2.toNat a3.toNat b3.toNat p s
    (u.w.grant = some .done → pairOp fn lead d2 a3 b3 g s = .next (fell 4 u)) ∧
    (u.w.grant = none → pairOp fn lead d2 a3 b3 g s = .next (blocked 16 u)) := by
  have h := tile_run (o := pairOp fn lead d2 a3 b3 g s) (gt := pairGate fn lead d2 a3 b3 g s)
    rfl ⟨rfl, rfl, pairGate_engine ho hpair hlead, full_tl hl, rfl, rfl, rfl⟩ hc
  dsimp only at h
  rw [if_neg (show ¬s.w.active (pairGate fn lead d2 a3 b3 g s).guard = 0 from hc.lanes), if_neg hb,
    if_neg (by rw [hk]; decide), hp] at h
  dsimp only at h
  rw [hn] at h
  unfold pairJoined
  dsimp only
  refine ⟨fun hg => ?_, fun hg => ?_⟩
  · rw [hg] at h
    exact h.trans (congrArg (Gate.out _) (onGrantValue_done hg))
  · rw [hg] at h
    exact h.trans (congrArg (Gate.out _) (onGrantValue_none hg))

end

theorem mmag_gives (hc : Clear s { guard := g, cls := .tile, scals := [b.toNat], uses := [useS b] })
    (h3 : (s.w.sr b.toNat).bits.getLsbD 3 = false) (h7 : bits (s.w.sr b.toNat).bits 63 7 = 0)
    (hi : indexTileOk (issuedCfg s (bits (s.w.sr b.toNat).bits 6 4)) = true)
    (hk : mmaOk s d2.toNat a3.toNat (bits (s.w.sr b.toNat).bits 2 0) = true) :
    execMmag d2 a3 b g s = .next (fell 4 (queueTile s.w.wid (.mmag d2.toNat a3.toNat (bits (s.w.sr b.toNat).bits 2 0)
      (bits (s.w.sr b.toNat).bits 6 4) s.w.p.sat) (tagAfter a3.toNat d2.toNat s))) := by
  have h := tile_run (o := execMmag d2 a3 b g s)
    (gt := { tileGate (wordA 0x66 (in6 d2) (in6 a3) b 0 g false) g s with scals := [b.toNat], uses := [useS b] })
    rfl ⟨rfl, rfl, ho, full_tl hl, rfl, rfl, rfl⟩ hc
  refine h.trans (congrArg (Gate.out _) ((if_neg hc.lanes).trans ((if_neg ?_).trans (if_neg ?_))))
  · rintro (h | h)
    · exact absurd (h3.symm.trans h) Bool.false_ne_true
    · exact h h7
  · rw [hi, hk]
    decide

theorem tmovv_gives (hc : Clear s { guard := g, cls := .tile, regs := [{ n := d.toNat, cnt := 8 }], scals := [b.toNat], uses := [useS b] })
    (h7 : bits (s.w.sr b.toNat).bits 7 6 = 0) (h14 : bits (s.w.sr b.toNat).bits 63 14 = 0)
    (hd : issuedTag s a2.toNat = 3 → d.toNat % 2 = 0) :
    execTmovv d a2 b g s = .next (fell 4 (queueTile s.w.wid (.movv (s.w.p.wbase + d.toNat) a2.toNat (bits (s.w.sr b.toNat).bits 5 0)
      (bits (s.w.sr b.toNat).bits 13 8) (s.w.active g)) s)) := by
  have h := tile_run (o := execTmovv d a2 b g s) (gt := { tileGate (wordA 0x67 d (in6 a2) b 0 g false) g s with
    regs := [{ n := d.toNat, cnt := 8 }], scals := [b.toNat], uses := [useS b] })
    rfl ⟨rfl, rfl, ho, full_tl hl, rfl, rfl, rfl⟩ hc
  refine h.trans (congrArg (Gate.out _) ((if_neg hc.lanes).trans ((if_neg ?_).trans (if_neg ?_))))
  · exact fun h => h.elim (fun h => h h7) (fun h => h h14)
  · exact fun h => h.2 (hd h.1)

section
variable (hc : Clear s { guard := g, cls := .tile, scals := [a.toNat, b.toNat], uses := [useS a, useS b] })
include hc

theorem tileMove_gives {op : BitVec 7} {need : Need} {f : Nat → Nat → Nat → TileOp} {key : Nat}
    (h16 : bits (s.w.sr b.toNat).bits 63 16 = 0) (h0 : bits (s.w.sr b.toNat).bits 15 0 ≠ 0)
    (h32 : bits (s.w.sr b.toNat).bits 15 0 % 32 = 0) (hrow : rowLen (issuedCfg s d3.toNat) ≤ bits (s.w.sr b.toNat).bits 15 0)
    (hr : tileRange s (s.w.sr a.toNat).bits 32 (((scratchRows (issuedCfg s d3.toNat)).1 - 1) * bits (s.w.sr b.toNat).bits 15 0 +
      rowLen (issuedCfg s d3.toNat)) need = .ok key) :
    tileMove op d3 a b g need f s = .next (fell 4 (queueTile s.w.wid (f d3.toNat key (bits (s.w.sr b.toNat).bits 15 0)) s)) := by
  have h := tile_run (o := tileMove op d3 a b g need f s)
    (gt := { tileGate (wordA op (in6 d3) a b 0 g false) g s with scals := [a.toNat, b.toNat], uses := [useS a, useS b] })
    rfl ⟨rfl, rfl, ho, full_tl hl, rfl, rfl, rfl⟩ hc
  refine h.trans (congrArg (Gate.out _) (a₂ := queued (f d3.toNat key (bits (s.w.sr b.toNat).bits 15 0)) s)
    ((if_neg hc.lanes).trans ((if_neg ?_).trans ?_)))
  · rintro (h | h | h | h)
    · exact h h16
    · exact h0 h
    · exact h h32
    · exact Nat.not_lt.2 hrow h
  · rw [hr]

theorem tlds_gives {key : Nat} (hb : isBlock (cfgType (issuedCfg s d3.toNat)) = true) (h16 : bits (s.w.sr b.toNat).bits 31 16 = 0)
    (hz : (if cfgType (issuedCfg s d3.toNat) = 25 then bits (s.w.sr b.toNat).bits 63 40 else bits (s.w.sr b.toNat).bits 63 32) = 0)
    (hp : bits (s.w.sr b.toNat).bits 15 0 % 16 = 0) (hrow : cfgCols (issuedCfg s d3.toNat) / 32 ≤ bits (s.w.sr b.toNat).bits 15 0)
    (hr : tileRange s (s.w.sr a.toNat).bits 16 ((cfgRows (issuedCfg s d3.toNat) - 1) * bits (s.w.sr b.toNat).bits 15 0 +
      cfgCols (issuedCfg s d3.toNat) / 32) .read = .ok key) :
    execTlds d3 a b g s = .next (fell 4 (queueTile s.w.wid
      (.scales d3.toNat key (bits (s.w.sr b.toNat).bits 15 0) ((s.w.sr b.toNat).bits.extractLsb' 32 8)) s)) := by
  have h := tile_run (o := execTlds d3 a b g s)
    (gt := { tileGate (wordA 0x69 (in6 d3) a b 0 g false) g s with scals := [a.toNat, b.toNat], uses := [useS a, useS b] })
    rfl ⟨rfl, rfl, ho, full_tl hl, rfl, rfl, rfl⟩ hc
  refine h.trans (congrArg (Gate.out _) (a₂ := queued (.scales d3.toNat key (bits (s.w.sr b.toNat).bits 15 0)
    ((s.w.sr b.toNat).bits.extractLsb' 32 8)) s) ((if_neg hc.lanes).trans ((if_neg ?_).trans ((if_neg ?_).trans ?_))))
  · rw [hb]
    decide
  · rintro (h | h | h | h)
    · exact h h16
    · exact h hz
    · exact h hp
    · exact Nat.not_lt.2 hrow h
  · rw [hr]

end

end

/-- Settles O33: each instruction queues its operation by the lemma of its form. -/
theorem tileInstructionsIssue : Obligations.TileInstructionsIssue := by
  intro s d3 a3 b3 d2 a2 d a b g w act x y queues word traps ho hl
  refine ⟨fun hc => tcfg_gives ho hl hc, fun hc => ⟨tzero_gives ho hl hc, azero_gives ho hl hc, (mma_gives ho hl hc).1,
    (mma_gives ho hl hc).2, ?_, fun p lead _ hpair hlead => ?_⟩, fun hc h3 h7 hi hk => mmag_gives ho hl hc h3 h7 hi hk,
    fun hc h7 h14 hd => tmovv_gives ho hl hc h7 h14 hd, fun hc => ?_⟩
  · rintro tag rfl hk hn
    exact tcvt_gives ho hl hc hk hn
  · cases lead with
    | true => exact ⟨pairOp_resumes (fn := 0) ho hl hc hpair hlead, pairOp_joins (fn := 0) ho hl hc hpair hlead⟩
    | false => exact ⟨pairOp_resumes (fn := 1) ho hl hc hpair hlead, pairOp_joins (fn := 1) ho hl hc hpair hlead⟩
  · intro c pitch
    refine ⟨fun h16 h0 h32 hrow key => ⟨fun hr => ?_, fun hr => ?_⟩, fun hb h16 hz hp hrow key hr => tlds_gives ho hl hc hb h16 hz hp hrow hr⟩
    · exact tileMove_gives (op := 0x61) ho hl hc h16 h0 h32 hrow hr
    · exact tileMove_gives (op := 0x62) ho hl hc h16 h0 h32 hrow hr

end Sys2Proof.Proofs
end

section
/-! SUPPORT. The geometry and tile instructions of the graphics units (R312 to R320). -/

namespace Sys2Proof.Proofs
open Sys2Proof Sys2Proof.Machine

section
variable {s : State} {d a b : BitVec 6} {g : Bool} (htx : NoTx s g)
include htx

/-! ### Emission and VAMP (R312, R313, R315) -/

theorem msemit_gives {fn : BitVec 4} {n : Nat} {emit : Nat → Nat → State → Nat → State}
    (hc : Clear s { guard := g, cls := .graphics, regs := [{ n := a.toNat, cnt := n }, vop1 b], uses := [{ n := a.toNat, cnt := n }, useV1 b] }) :
    (vamFull s s.w.cluster = true → msemit fn n a b g emit s = .next (blocked 19 s)) ∧
    (vamFull s s.w.cluster = false → ¬(viewsOf s.w.vmask).any (viewStalled s) = false → msemit fn n a b g emit s = .next (waits 19 s)) ∧
    (vamFull s s.w.cluster = false → (viewsOf s.w.vmask).any (viewStalled s) = false →
      msemit fn n a b g emit s = .next (fell 4 ((lanesOf (s.w.active g)).foldl (emit a.toNat b.toNat) s))) := by
  have h := simple_run (o := msemit fn n a b g emit s) (gt := {
    word := wordA 0x6C 0 a b fn g false, guard := g, cls := .graphics, regs := [{ n := a.toNat, cnt := n }, vop1 b]
    uses := [{ n := a.toNat, cnt := n }, useV1 b], tx := false }) rfl ⟨rfl, rfl, rfl, rfl, rfl, rfl⟩ hc htx
  refine ⟨fun hf => h.trans (congrArg (Gate.out _) ((if_neg hc.lanes).trans (if_pos hf))), fun hf hv => ?_, fun hf hv => ?_⟩
  · exact h.trans (congrArg (Gate.out _) ((if_neg hc.lanes).trans
      ((if_neg (Bool.not_eq_true _ ▸ hf)).trans (if_pos (eq_true_of_ne_false hv)))))
  · exact h.trans (congrArg (Gate.out _) ((if_neg hc.lanes).trans
      ((if_neg (Bool.not_eq_true _ ▸ hf)).trans (if_neg (Bool.not_eq_true _ ▸ hv)))))

omit htx in
theorem closeArrival_w (n : Nat) : (closeArrival s n).w = s.w := by
  unfold closeArrival
  dsimp only
  split
  · split
    · split
      · rfl
      · rfl
    · rfl
  · rfl

omit htx in
theorem closeArrivals_w (ns : List Nat) : (ns.foldl closeArrival s).w = s.w :=
  foldl_keeps State.w (fun _ _ => closeArrival_w _) ns s

omit htx in
theorem vamDrain_nil {c : Nat} (h : (s.cluster c).vamq = []) : vamDrain c s = s := by
  rw [vamDrain, h]
  rfl

theorem vamp_gives (hc : Clear s { guard := g, cls := .graphics, scals := [a.toNat], uses := [useS a] })
    (hz : bits (s.w.sr a.toNat).bits 63 17 = 0)
    (hv : (viewsOf ((s.w.sr a.toNat).bits.extractLsb' 0 16)).any (viewStalled s) = false) :
    let m : BitVec 16 := (s.w.sr a.toNat).bits.extractLsb' 0 16
    ((s.w.sr a.toNat).bits.getLsbD 16 = false →
      execVamp a g s = .next (fellW 4 s { s.w with vmask := m, verts := [], prims := 0 })) ∧
    ((s.w.sr a.toNat).bits.getLsbD 16 = true → (s.cluster s.w.cluster).vamq = [] →
      execVamp a g s = .next (fell 4 { (viewsOf m).foldl closeArrival s with
        w := { s.w with vmask := m, verts := [], prims := 0 } })) := by
  intro m
  have h := simple_run (o := execVamp a g s) (gt := {
    word := wordA 0x6D 0 a 0 0 g false, guard := g, cls := .graphics, scals := [a.toNat], uses := [useS a], tx := false })
    rfl ⟨rfl, rfl, rfl, rfl, rfl, rfl⟩ hc htx
  refine ⟨fun h16 => h.trans (congrArg (Gate.out _) (a₂ := .fall { s with w := { s.w with vmask := m, verts := [], prims := 0 } }) ?_),
    fun h16 hq => h.trans (congrArg (Gate.out _)
      (a₂ := .fall { (viewsOf m).foldl closeArrival s with w := { s.w with vmask := m, verts := [], prims := 0 } }) ?_)⟩
  · exact (if_neg hc.lanes).trans ((if_neg (not_not_intro hz)).trans
      ((if_neg (Bool.not_eq_true _ ▸ hv)).trans (if_neg (Bool.not_eq_true _ ▸ h16))))
  · refine (if_neg hc.lanes).trans ((if_neg (not_not_intro hz)).trans ((if_neg (Bool.not_eq_true _ ▸ hv)).trans ((if_pos h16).trans ?_)))
    dsimp only
    rw [vamDrain_nil hq, hq]
    exact (if_pos rfl).trans (by rw [closeArrivals_w])

/-! ### GAZE (R320) -/

theorem gaze_gives (hc : Clear s { guard := g, cls := .graphics, scals := [d.toNat, a.toNat], uses := [useS a] })
    (hz : bits (s.w.sr a.toNat).bits 63 9 = 0) :
    let x := (s.w.sr a.toNat).bits
    let l := look {} (s.view (bits x 3 0)).lat (bits x 7 4)
    execGaze d a g s = .next (fellW 4 s (s.w.setS d.toNat
      (if x.getLsbD 8 then BitVec.ofNat 64 (l.frame % 2 ^ 24 + (if l.valid then 2 ^ 24 else 0)) else l.gy ++ l.gx) false)) :=
  (simple_run (o := execGaze d a g s) (gt := {
    word := wordA 0x6E d a 0 0 g false, guard := g, cls := .graphics, scals := [d.toNat, a.toNat], uses := [useS a], tx := false }) rfl ⟨rfl, rfl, rfl, rfl, rfl, rfl⟩ hc htx).trans
    (congrArg (Gate.out _) ((if_neg hc.lanes).trans (if_neg (not_not_intro hz))))

/-! ### RTFETCH (R318) -/

/-- The gate of RTFETCH. -/
def fetchGate (d a : BitVec 6) (g : Bool) : Gate :=
  { word := wordA 0x6F d a 0 0 g false, guard := g, cls := .graphics, scals := [d.toNat, d.toNat + 1, a.toNat], uses := [useS a], tx := false }

omit htx in
/-- The outcomes of the fetch of a tile, in the order of the oldest tile and NOWAIT. -/
theorem fetchTile_gives {n : Nat} {nowait : Bool} :
    let pair (w : Warp) (k : W64 × W64) : Warp := (({ w with handed := none } : Warp).setS n k.1 false).setS (n + 1) k.2 false
    (∀ y, oldestTile s s.w.wg = some y → fetchTile n nowait s = .fall { s with
      tiles := updFirst y.same (fun z => { z with st := .fetched, bound := false }) s.tiles
      w := pair s.w (tokenOf y (s.wg s.w.wg).rank) }) ∧
    (oldestTile s s.w.wg = none → nowait = true →
      fetchTile n nowait s = .fall { s with w := pair s.w (BitVec.allOnes 64, BitVec.allOnes 64) }) ∧
    (oldestTile s s.w.wg = none → nowait = false → fetchTile n nowait s = .block 20 s) := by
  unfold fetchTile
  refine ⟨fun y h => ?_, fun h hn => ?_, fun h hn => ?_⟩
  · rw [h]
    rfl
  · rw [h, hn]
    rfl
  · rw [h, hn]
    rfl

section
variable (hc : Clear s { guard := g, cls := .graphics, scals := [d.toNat, d.toNat + 1, a.toNat], uses := [useS a] })
include hc

theorem rtfetch_fetches (h : s.w.block ≠ some 20 → bits (s.w.sr a.toNat).bits 63 8 = 0 ∧ (s.w.sr a.toNat).bits.getLsbD 6 = false) :
    execRtfetch d a g s = (fetchGate d a g).out (fetchTile d.toNat ((s.w.sr a.toNat).bits.getLsbD 7) s) := by
  refine (simple_run (o := execRtfetch d a g s) (gt := fetchGate d a g) rfl ⟨rfl, rfl, rfl, rfl, rfl, rfl⟩ hc htx).trans
    (congrArg (Gate.out _) ((if_neg hc.lanes).trans ?_))
  by_cases hb : s.w.block = some 20
  · exact if_pos hb
  · exact (if_neg hb).trans ((if_neg (not_not_intro (h hb).1)).trans (if_neg (Bool.not_eq_true _ ▸ (h hb).2)))

/-- The state after a hand-in, with the tiles that it places (R317, R318). -/
def handsIn (h : Nat) (s : State) : State :=
  let s1 := ({ s with w := { s.w with handed := some h } } : State).setWg s.w.wg { s.wg s.w.wg with
    handOrder := (s.wg s.w.wg).handOrder.erase h ++ [h] }
  placeTiles s.w.cluster (s1.setCluster s.w.cluster
    { s.cluster s.w.cluster with hand := (s.cluster s.w.cluster).hand ++ [({ wg := s.w.wg, h := h } : HandIn)] })

section
variable (hb : s.w.block ≠ some 20) (hz : bits (s.w.sr a.toNat).bits 63 8 = 0) (h6 : (s.w.sr a.toNat).bits.getLsbD 6 = true)
include hb hz h6

theorem rtfetch_hands (hm : mayHandIn s (bits (s.w.sr a.toNat).bits 5 0) = true) (hp : s.w.allPerformed = true) (ht : s.tileBusy = false) :
    execRtfetch d a g s =
      (fetchGate d a g).out (fetchTile d.toNat ((s.w.sr a.toNat).bits.getLsbD 7) (handsIn (bits (s.w.sr a.toNat).bits 5 0) s)) :=
  (simple_run (o := execRtfetch d a g s) (gt := fetchGate d a g) rfl ⟨rfl, rfl, rfl, rfl, rfl, rfl⟩ hc htx).trans
    (congrArg (Gate.out _) ((if_neg hc.lanes).trans ((if_neg hb).trans ((if_neg (not_not_intro hz)).trans
      ((if_pos h6).trans ((if_pos hm).trans (afterAll_done hp ht)))))))

theorem rtfetch_unhanded (hm : mayHandIn s (bits (s.w.sr a.toNat).bits 5 0) = false) :
    execRtfetch d a g s = .next (raise (trapOf 0x07 (s.w.sr a.toNat).bits (s.w.active g) false) s) :=
  (simple_run (o := execRtfetch d a g s) (gt := fetchGate d a g) rfl ⟨rfl, rfl, rfl, rfl, rfl, rfl⟩ hc htx).trans
    (congrArg (Gate.out _) ((if_neg hc.lanes).trans ((if_neg hb).trans ((if_neg (not_not_intro hz)).trans
      ((if_pos h6).trans (if_neg (Bool.not_eq_true _ ▸ hm)))))))

end

end

/-! ### VTDONE (R319) -/

/-- The gate of VTDONE. -/
def doneGate (d a : BitVec 6) (g : Bool) : Gate :=
  { word := wordA 0x73 d a 0 0 g false, guard := g, cls := .graphics, scals := [d.toNat, a.toNat, a.toNat + 1], uses := [useS a]
    tx := false, sync := true }

section
variable (hc : Clear s { guard := g, cls := .graphics, scals := [d.toNat, a.toNat, a.toNat + 1], uses := [useS a] }) (ht : s.tileBusy = false)
include hc ht

theorem vtdone_invalid (hn : tileNamed s (s.w.sr a.toNat).bits = none) :
    execVtdone d a g s = .next (fellW 4 s (s.w.setS d.toNat 3 false)) := by
  refine gate_clear (o := execVtdone d a g s) (gt := doneGate d a g) rfl hc rfl rfl rfl rfl (fun _ => ht) (fun h => nomatch h) (.inr htx)
    (congrArg (Gate.out _) (a₂ := .fall { s with w := s.w.setS d.toNat 3 false }) ((if_neg hc.lanes).trans ?_))
  rw [hn]

theorem vtdone_named {t : VTile} {seg off : Nat} (hn : tileNamed s (s.w.sr a.toNat).bits = some t) (hp : (s.w.sr (a.toNat + 1)).bad = false)
    (hx : pixelBlock s t (s.w.sr (a.toNat + 1)).bits = .ok (seg, off)) (ha : s.w.allPerformed = true) :
    execVtdone d a g s =
      (doneGate d a g).out (tileDone d.toNat t (scratchKey seg off) (4 * bits (s.w.sr (a.toNat + 1)).bits 47 36) s) := by
  refine gate_clear (o := execVtdone d a g s) (gt := doneGate d a g) rfl hc rfl rfl rfl rfl (fun _ => ht) (fun h => nomatch h) (.inr htx)
    (congrArg (Gate.out _) ((if_neg hc.lanes).trans ?_))
  rw [hn]
  dsimp only
  rw [if_neg (by rw [hp]; decide), hx]
  exact afterAll_done ha ht

end

omit htx in
theorem tileDone_gives {n base pitch : Nat} {t : VTile} :
    (t.named = true ∨ t.st = .done → tileDone n t base pitch s = .fall { s with w := s.w.setS n 2 false }) ∧
    (t.named = false → t.st ≠ .done → (t.st = .substituted ∨ overdue s t = true) →
      let v := s.setView t.view { s.view t.view with late := bumpBy 1 (s.view t.view).late }
      tileDone n t base pitch s = .fall { v with
        tiles := updFirst t.same (fun z => { z with named := true }) v.tiles, w := s.w.setS n 1 false }) ∧
    (t.named = false → t.st ≠ .done → t.st ≠ .substituted → overdue s t = false →
      let u := returnBuffers t.same s
      let v := placeTiles t.cluster { u with tiles := updFirst t.same (fun z => { z with st := .done, bound := false, named := true }) u.tiles }
      let r := readPixels t ((s.view t.view).recOk.getD {}) base pitch v
      tileDone n t base pitch s = .fall { r with w := r.w.setS n 0 false }) := by
  refine ⟨fun h => if_pos ?_, fun hn hd h => (if_neg ?_).trans (if_pos ?_), fun hn hd hs ho => (if_neg ?_).trans (if_neg ?_)⟩
  · simpa using h
  · simpa [hn] using hd
  · simpa using h
  · simpa [hn] using hd
  · simpa [ho] using hs

end

/-- Settles O36: each instruction by the lemma of its form. -/
theorem graphicsInstructionsComplete : Obligations.GraphicsInstructionsComplete := by
  intro s d a b g w act x calm emits htx
  refine ⟨⟨fun hc => msemit_gives htx hc, fun hc => msemit_gives htx hc⟩, fun hc hz hv => vamp_gives htx hc hz hv,
    fun hc hz => gaze_gives htx hc hz, fun hc => ⟨fun u h hu => ?_, fun hb hz h6 hm hp ht => ?_, fun hb hz h6 hm => ?_⟩,
    fun hc ht => ⟨fun hn => vtdone_invalid htx hc ht hn, fun t seg off hn hp hx ha => ?_⟩⟩
  · obtain ⟨takes, empty, waits⟩ := fetchTile_gives (s := s) (n := d.toNat) (nowait := x.getLsbD 7)
    have run := rtfetch_fetches htx hc h
    exact ⟨fun y hy => run.trans (congrArg (Gate.out _) (takes y (hu.trans hy))),
      fun hn h7 => run.trans (congrArg (Gate.out _) (empty (hu.trans hn) h7)),
      fun hn h7 => run.trans (congrArg (Gate.out _) (waits (hu.trans hn) h7))⟩
  · intro s1 t ho h7
    exact (rtfetch_hands htx hc hb hz h6 hm hp ht).trans (congrArg (Gate.out _) (fetchTile_gives.2.2 ho h7))
  · exact rtfetch_unhanded htx hc hb hz h6 hm
  · obtain ⟨again, late, onTime⟩ := tileDone_gives (s := s) (n := d.toNat) (base := scratchKey seg off)
      (pitch := 4 * bits (w.sr (a.toNat + 1)).bits 47 36) (t := t)
    have run := vtdone_named htx hc ht hn hp hx ha
    exact ⟨fun h => run.trans (congrArg (Gate.out _) (again h)), fun h1 h2 h3 => run.trans (congrArg (Gate.out _) (late h1 h2 h3)),
      fun h1 h2 h3 h4 => run.trans (congrArg (Gate.out _) (onTime h1 h2 h3 h4))⟩

end Sys2Proof.Proofs
end

section
/-! SUPPORT. The texture and ray instructions (R328 to R334). -/

namespace Sys2Proof.Proofs
open Sys2Proof Sys2Proof.Machine

/-! ### Performing a warp's accesses leaves its transactions (R225) -/

theorem modWarp_tx {wid : Nat} {f : Warp → Warp} (hf : ∀ w, (f w).tx = w.tx) (s : State) : (s.modWarp wid f).w.tx = s.w.tx := by
  unfold State.modWarp
  split
  · exact hf s.w
  · rfl

theorem writeDest_tx (w : Warp) (d : Dest) (got : List Got) : (writeDest w d got).tx = w.tx := by
  cases d with
  | scalar d size sgn => cases got <;> rfl
  | _ => rfl

theorem complete_tx (w : Warp) : w.complete.tx = w.tx := by
  refine foldl_keeps Warp.tx (fun w o => ?_) w.ops w
  split
  · exact writeDest_tx w o.dst o.got
  · rfl

theorem performOp_tx (wid seq : Nat) (sure : Bool) (choose : Nat → Bool) :
    ∀ (as : List Acc) (s : State), (performOp wid seq sure choose as s).w.tx = s.w.tx
  | [], _ => rfl
  | a :: as, s => by
    have ih := performOp_tx wid seq sure choose as
    unfold performOp
    split
    · rfl
    · rename_i w _
      split
      · rfl
      · rename_i o _
        obtain ⟨sent, free, hs⟩ := sendOut_eq w.ctx a.key s
        dsimp only
        split
        · split
          · obtain ⟨cs, hc⟩ := acquireL1_cores w.core o.acq o.drop (sendOut w.ctx a.key s)
            refine (ih _).trans ((modWarp_tx ?_ _).trans ((congrArg Warp.tx (performAcc_w ..)).trans ?_))
            · exact fun _ => rfl
            · rw [hc, hs]
          · exact (ih _).trans (by rw [hs])
        · exact ih s

theorem runOp_tx (wid seq : Nat) (sure : Bool) (choose : Nat → Bool) (s : State) : (runOp wid seq sure choose s).w.tx = s.w.tx := by
  unfold runOp
  split
  · rfl
  · split
    · rfl
    · exact (modWarp_tx complete_tx _).trans (performOp_tx ..)

theorem runAllOps_tx (wid : Nat) (s : State) : (runAllOps wid s).w.tx = s.w.tx := by
  unfold runAllOps
  split
  · rfl
  · exact foldl_keeps (fun s : State => s.w.tx) (fun s (o : MemOp) => runOp_tx wid o.seq true (fun _ => true) s) _ s

theorem irrTx_tx {w v : Warp} (h : w.tx = v.tx) (m : Mask) : w.irrTx m = v.irrTx m := by
  unfold Warp.irrTx Warp.txMask
  rw [h]

theorem noteReads_outside {s : State} {act : Mask} (h : s.w.irrTx act = 0) (vas : List W64) : noteReads act vas s = s := if_pos h

/-! ### After the warp's accesses (R225, R328) -/

section
variable {s : State} {k : State → Res}

/-- The accesses that the warp has issued, those of its ray batches among them, are performed. -/
def OpsDone (s : State) : Prop := s.w.raysOpen = false ∧ ∀ o ∈ (runAllOps s.w.wid s).w.ops, o.todo = []

theorem afterOps_done (h : OpsDone s) : afterOps s k = k (runAllOps s.w.wid s) :=
  (if_neg (Bool.not_eq_true _ ▸ h.1)).trans (if_pos (List.all_eq_true.2 fun o ho => List.isEmpty_iff.2 (h.2 o ho)))

theorem afterOps_rays (h : s.w.raysOpen = true) : afterOps s k = .wait 3 s := if_pos h

theorem afterOps_pending (h : s.w.raysOpen = false) (hp : ∃ o ∈ (runAllOps s.w.wid s).w.ops, o.todo ≠ []) :
    afterOps s k = .wait 3 (runAllOps s.w.wid s) := by
  refine (if_neg (Bool.not_eq_true _ ▸ h)).trans (if_neg fun ha => ?_)
  obtain ⟨o, ho, ht⟩ := hp
  exact ht (List.isEmpty_iff.1 (List.all_eq_true.1 ha o ho))

end

/-! ### Demands on fewer registers -/

theorem clear_fewer {s : State} {g : Bool} {d a b : BitVec 6} {n m : Nat} (hm : m ≤ n)
    (h : Clear s { guard := g, cls := .graphics, regs := [{ n := d.toNat, cnt := 4 }, { n := a.toNat, cnt := n }], scals := [b.toNat]
                   uses := [useS b, { n := a.toNat, cnt := n }] }) :
    Clear s { guard := g, cls := .graphics, regs := [{ n := d.toNat, cnt := 4 }, { n := a.toNat, cnt := m }], scals := [b.toNat]
              uses := [useS b, { n := a.toNat, cnt := m }] } := by
  obtain ⟨lanes, entered, regs, aligned, role, vquiet, oquiet, squiet, clean⟩ := h
  refine ⟨lanes, entered, fun r hr => ?_, aligned, role, fun r hr x hx => ?_, oquiet, squiet, fun u hu l hl => ?_⟩
  · rcases List.mem_cons.1 hr with rfl | hr
    · exact regs _ List.mem_cons_self
    · cases List.mem_singleton.1 hr
      have := regs _ (List.mem_cons_of_mem _ List.mem_cons_self)
      simp [VOp.legal] at this ⊢
      omega
  · rcases List.mem_cons.1 hr with rfl | hr
    · exact vquiet _ List.mem_cons_self x hx
    · cases List.mem_singleton.1 hr
      have := vquiet _ (List.mem_cons_of_mem _ List.mem_cons_self) x hx
      simp [rangesMeet] at this ⊢
      omega
  · rcases List.mem_cons.1 hu with rfl | hu
    · exact clean _ List.mem_cons_self l hl
    · cases List.mem_singleton.1 hu
      have := clean _ (List.mem_cons_of_mem _ List.mem_cons_self) l hl
      simp [Use.bad] at this ⊢
      exact fun i hi => this i (Nat.lt_of_lt_of_le hi hm)

section
variable {s : State} {d a b : BitVec 6} {g : Bool} (hu : Untouched s g) (hld : s.w.ld < 63)
include hu hld

/-! ### Texture (R332 to R334) -/

/-- The gate of a texture form of `n` registers from a. -/
def texGate (fn : BitVec 4) (d a b : BitVec 6) (n : Nat) (g : Bool) (s : State) : Gate :=
  { word := wordA 0x70 d a b fn g false, guard := g, cls := .graphics
    regs := [{ n := d.toNat, cnt := 4 }, { n := a.toNat, cnt := n }], scals := [b.toNat]
    uses := [useS b, { n := a.toNat, cnt := n }], full := s.w.counterFull .ld, tx := false }

section
variable {fn : BitVec 4} {n : Nat} {k : Mask → State → TexDesc → Res} {o : Host.Outcome State Fault Refusal}
  (e : o = (texGate fn d a b n g s).run (fun s act => withDesc b.toNat s act (k act)) s)
  (hc : Clear s { guard := g, cls := .graphics, regs := [{ n := d.toNat, cnt := 4 }, { n := a.toNat, cnt := n }], scals := [b.toNat]
                  uses := [useS b, { n := a.toNat, cnt := n }] })
include e hc

theorem tex_run : o = (texGate fn d a b n g s).out (withDesc b.toNat s (s.w.active g) (k (s.w.active g))) :=
  simple_run e ⟨rfl, rfl, rfl, counterFull_ld hld, rfl, rfl⟩ hc hu.1

theorem tex_early : (s.w.raysOpen = true → o = .next (waits 3 s)) ∧
    (s.w.raysOpen = false → (∃ x ∈ (runAllOps s.w.wid s).w.ops, x.todo ≠ []) → o = .next (waits 3 (runAllOps s.w.wid s))) := by
  have h := tex_run hu hld e hc
  exact ⟨fun hr => h.trans (congrArg (Gate.out _) ((if_neg hc.lanes).trans (afterOps_rays hr))),
    fun hr hp => h.trans (congrArg (Gate.out _) ((if_neg hc.lanes).trans (afterOps_pending hr hp)))⟩

theorem tex_refused {t : State} (hr : OpsDone s) (ht : readsOut (runAllOps s.w.wid s) [(s.w.sr b.toNat).bits] = (t, false)) :
    o = .next (blocked 3 t) :=
  (tex_run hu hld e hc).trans (congrArg (Gate.out _) (a₂ := .block 3 t)
    ((if_neg hc.lanes).trans ((afterOps_done hr).trans (overFabric_refused ht))))

theorem tex_described {t : State} {bs : List Byte} (hr : OpsDone s)
    (ht : readsOut (runAllOps s.w.wid s) [(s.w.sr b.toNat).bits] = (t, true))
    (hp : peek t t.w (s.w.sr b.toNat).bits 64 64 = .bytes bs) (hok : texDescOk bs (texDescOf bs) = true) :
    o = (texGate fn d a b n g s).out (k (s.w.active g) t (texDescOf bs)) := by
  refine (tex_run hu hld e hc).trans (congrArg (Gate.out _) ((if_neg hc.lanes).trans ((afterOps_done hr).trans ((overFabric_made ht).trans ?_))))
  have hi : t.w.irrTx (s.w.active g) = 0 :=
    (irrTx_tx ((congrArg Warp.tx (readsOut_w ht)).trans (runAllOps_tx ..)) _).trans hu.2
  rw [hp]
  dsimp only
  rw [if_pos hok, noteReads_outside hi]

end

/-- What a lane's sample comes to, where each active lane's can be read: one operation of the accesses of all of them. -/
theorem texOp_reads {fn : BitVec 4} {n : Nat} {form : TexForm} {t t2 : State} {bs : List Byte} {accs : Nat → List Acc}
    {outs : Nat → List (Nat × List Tap)} (hr : OpsDone s) (ht : readsOut (runAllOps s.w.wid s) [(s.w.sr b.toNat).bits] = (t, true))
    (hp : peek t t.w (s.w.sr b.toNat).bits 64 64 = .bytes bs) (hok : texDescOk bs (texDescOf bs) = true)
    (hc : Clear s { guard := g, cls := .graphics, regs := [{ n := d.toNat, cnt := 4 }, { n := a.toNat, cnt := n }], scals := [b.toNat]
                    uses := [useS b, { n := a.toNat, cnt := n }] })
    (ht2 : readsOut t ((lanesOf (s.w.active g)).filterMap (mapByte t (texDescOf bs) form a.toNat)) = (t2, true))
    (hl : ∀ l, (s.w.active g).getLsbD l = true → texLane t2 (texDescOf bs) form a.toNat l = .ok (accs l) (outs l)) :
    texOp fn n form d a b g s = .next (fell 4 (issueOp
      { cls := .ld, dst := .tex (t2.w.p.wbase + d.toNat) (texDescOf bs).fmt ((lanesOf (s.w.active g)).map (fun l => (l, outs l)))
        todo := (lanesOf (s.w.active g)).flatMap accs } t2)) := by
  have hi : t2.w.irrTx (s.w.active g) = 0 := (irrTx_tx ((congrArg Warp.tx ((readsOut_w ht2).trans (readsOut_w ht))).trans (runAllOps_tx ..)) _).trans hu.2
  refine (tex_described hu hld (o := texOp fn n form d a b g s) rfl hc hr ht hp hok).trans (congrArg (Gate.out _) (a₂ := .fall (issueOp
      { cls := .ld, dst := .tex (t2.w.p.wbase + d.toNat) (texDescOf bs).fmt ((lanesOf (s.w.active g)).map (fun l => (l, outs l)))
        todo := (lanesOf (s.w.active g)).flatMap accs } t2)) ?_)
  refine (overFabric_made ht2).trans ((failLanes_none _ _ _ _ fun l hm => ?_).trans ?_)
  · rw [hl l hm]
  · have hmap : (lanesOf (s.w.active g)).map (fun l => (l, texLane t2 (texDescOf bs) form a.toNat l)) =
        (lanesOf (s.w.active g)).map (fun l => (l, TexLane.ok (accs l) (outs l))) :=
      List.map_congr_left fun l hm => by rw [hl l (mem_lanesOf hm)]
    dsimp only
    rw [hmap, hi]
    simp only [List.flatMap_map, List.filterMap_map, Function.comp_def]
    have hnil : (lanesOf (s.w.active g)).flatMap (fun _ => ([] : List Nat)) = [] := List.flatMap_eq_nil_iff.2 fun _ _ => rfl
    rw [noteReads_outside hi]
    simp [hnil, noteLines_nil]

/-- The registers of TEXQ are those of one operation without accesses. -/
theorem texq_gives {t : State} {bs : List Byte} (hr : OpsDone s)
    (ht : readsOut (runAllOps s.w.wid s) [(s.w.sr b.toNat).bits] = (t, true))
    (hp : peek t t.w (s.w.sr b.toNat).bits 64 64 = .bytes bs) (hok : texDescOk bs (texDescOf bs) = true)
    (hc : Clear s { guard := g, cls := .graphics, regs := [{ n := d.toNat, cnt := 4 }, vop1 a], scals := [b.toNat], uses := [useS b, useV1 a] }) :
    execTexq d a b g s = .next (fell 4 (issueOp { cls := .ld, dst := .vals (t.w.p.wbase + d.toNat) ((lanesOf (s.w.active g)).map (fun l =>
      let k := (t.w.vl a.toNat l).bits.toNat
      (l, [(texDescOf bs).lw k, (texDescOf bs).lh k, (texDescOf bs).levels, if (texDescOf bs).park then 1 else 0].map
        (fun n => ({ bits := BitVec.ofNat 32 n } : LW))))) } t)) :=
  tex_described (n := 1) hu hld (o := execTexq d a b g s) rfl hc hr ht hp hok

/-! ### RAYR (R330) -/

theorem rayr_gives (hc : Clear s { guard := g, cls := .graphics, regs := [{ n := d.toNat, cnt := 4 }], scals := [a.toNat], uses := [useS a] })
    (h22 : bits (s.w.sr a.toNat).bits 30 22 = 0) (h32 : bits (s.w.sr a.toNat).bits 63 32 = 0) {y : Batch}
    (hy : s.w.batches.find? (fun z => z.id == bits (s.w.sr a.toNat).bits 15 0) = some y)
    (hk : if y.warped then bits (s.w.sr a.toNat).bits 21 16 < 32 else bits (s.w.sr a.toNat).bits 21 16 = 0) :
    (y.done = false → execRayr d a g s = .next (waits 3 s)) ∧
    (y.done = true → (∀ l, (s.w.active g).getLsbD l = true → (rayFor y (bits (s.w.sr a.toNat).bits 21 16) l).bad = false) →
      execRayr d a g s = .next (fell 4 (issueOp { cls := .ld, dst := .vals (s.w.p.wbase + d.toNat) ((lanesOf (s.w.active g)).map (fun l =>
          let r := rayFor y (bits (s.w.sr a.toNat).bits 21 16) l
          (l, [r.t, r.prim, r.u, r.v].map (fun v => ({ bits := v } : LW))))) }
        (if (s.w.sr a.toNat).bits.getLsbD 31 then { s with w := { s.w with batches := s.w.batches.filter (fun z => z.id != y.id) } } else s)))) := by
  have h := simple_run (o := execRayr d a g s) (gt := {
    word := wordA 0x72 d a 0 0 g false, guard := g, cls := .graphics, regs := [{ n := d.toNat, cnt := 4 }]
    scals := [a.toNat], uses := [useS a], full := s.w.counterFull .ld, tx := false })
    rfl ⟨rfl, rfl, rfl, counterFull_ld hld, rfl, rfl⟩ hc hu.1
  have hw : ((y.warped && 32 ≤ bits (s.w.sr a.toNat).bits 21 16) || (!y.warped && bits (s.w.sr a.toNat).bits 21 16 != 0)) = false := by
    cases hy : y.warped with
    | true => simpa [hy] using hk
    | false => simpa [hy] using hk
  dsimp only at h
  rw [if_neg (show ¬s.w.active g = 0 from hc.lanes), if_neg (by simp [h22, h32]), hy] at h
  dsimp only at h
  rw [if_neg (show ¬_ = true from Bool.not_eq_true _ ▸ hw)] at h
  refine ⟨fun hd => ?_, fun hd hl => ?_⟩
  · exact h.trans (congrArg (Gate.out _) (if_pos (by rw [hd]; rfl)))
  · rw [if_neg (by rw [hd]; decide), failLanes_none _ _ _ _ (fun l hm => if_neg (by rw [hl l hm]; decide))] at h
    refine h.trans ?_
    cases (s.w.sr a.toNat).bits.getLsbD 31 with
    | true => rfl
    | false => rfl

end

section
variable {s : State} {d a b : BitVec 6} {g : Bool} (hu : Untouched s g)
include hu

/-! ### RAYL and RAYLW (R328, R329) -/

/-- The state after the launch of a batch of rays in lanes outside of transactions. -/
def raysStart (d : Nat) (base : W64) (t : State) (warped : Bool) (rays : List Ray) : State :=
  fell 4 { t with w := { t.w.setS d (BitVec.ofNat 64 t.w.rseq) false with
    rseq := (t.w.rseq + 1) % 65536
    batches := t.w.batches ++ [{ id := t.w.rseq, warped := warped, base := base, seq := t.w.opSeq, level := t.w.tlevel, rays := rays }] } }

omit hu in
theorem launchRays_outside {n : Nat} {warped : Bool} {base : W64} {rays : List Ray} {act : Mask} (hi : s.w.irrTx act = 0) {gt : Gate} (hl : gt.len = 4) :
    gt.out (launchRays n warped base rays act s) = .next (raysStart n base s warped rays) := by
  unfold launchRays
  rw [hi, out_fall, hl]
  rfl

variable (hbase : bits (s.w.sr b.toNat).bits 5 0 = 0)
include hbase

theorem rayl_gives (hc : Clear s { guard := g, cls := .graphics, regs := [{ n := a.toNat, cnt := 8 }], scals := [d.toNat, b.toNat]
                                   uses := [useS b, { n := a.toNat, cnt := 8 }] }) :
    (s.w.batches.length < 8 →
      execRayl d a b g s = .next (raysStart d.toNat (s.w.sr b.toNat).bits s false ((lanesOf (s.w.active g)).map (laneRay s.w a.toNat)))) ∧
    (8 ≤ s.w.batches.length → execRayl d a b g s = .next (waits 21 s)) := by
  have h := simple_run (o := execRayl d a b g s) (gt := {
    word := wordA 0x71 d a b 0 g false, guard := g, cls := .graphics, regs := [{ n := a.toNat, cnt := 8 }]
    scals := [d.toNat, b.toNat], uses := [useS b, { n := a.toNat, cnt := 8 }], tx := false })
    rfl ⟨rfl, rfl, rfl, rfl, rfl, rfl⟩ hc hu.1
  refine ⟨fun hn => ?_, fun hn => ?_⟩
  · exact h.trans ((congrArg (Gate.out _) ((if_neg hc.lanes).trans ((if_neg (not_not_intro hbase)).trans (if_neg (Nat.not_le.2 hn))))).trans
      (launchRays_outside hu.2 rfl))
  · exact h.trans (congrArg (Gate.out _) ((if_neg hc.lanes).trans ((if_neg (not_not_intro hbase)).trans (if_pos hn))))

/-- The gate of RAYLW. -/
def raylwGate (d a b : BitVec 6) (g : Bool) : Gate :=
  { word := wordA 0x71 d a b 1 g false, guard := g, cls := .graphics, scals := [d.toNat, a.toNat, b.toNat]
    uses := [useS a, useS b], tx := false }

section
variable (hc : Clear s { guard := g, cls := .graphics, scals := [d.toNat, a.toNat, b.toNat], uses := [useS a, useS b] })
include hc

theorem raylw_early : (s.w.raysOpen = true → execRaylw d a b g s = .next (waits 3 s)) ∧
    (s.w.raysOpen = false → (∃ x ∈ (runAllOps s.w.wid s).w.ops, x.todo ≠ []) →
      execRaylw d a b g s = .next (waits 3 (runAllOps s.w.wid s))) := by
  have h := simple_run (o := execRaylw d a b g s) (gt := raylwGate d a b g) rfl ⟨rfl, rfl, rfl, rfl, rfl, rfl⟩ hc hu.1
  exact ⟨fun hr => h.trans (congrArg (Gate.out _) ((if_neg hc.lanes).trans ((if_neg (not_not_intro hbase)).trans (afterOps_rays hr)))),
    fun hr hp => h.trans (congrArg (Gate.out _) ((if_neg hc.lanes).trans ((if_neg (not_not_intro hbase)).trans (afterOps_pending hr hp))))⟩

theorem raylw_refused {t : State} (hr : OpsDone s) (ht : readsOut (runAllOps s.w.wid s) [(s.w.sr a.toNat).bits] = (t, false)) :
    execRaylw d a b g s = .next (blocked 3 t) :=
  (simple_run (o := execRaylw d a b g s) (gt := raylwGate d a b g) rfl ⟨rfl, rfl, rfl, rfl, rfl, rfl⟩ hc hu.1).trans
    (congrArg (Gate.out _) (a₂ := .block 3 t) ((if_neg hc.lanes).trans ((if_neg (not_not_intro hbase)).trans
      ((afterOps_done hr).trans (overFabric_refused ht)))))

theorem raylw_starts {t : State} {bs : List Byte} {gr : Grid} (hr : OpsDone s)
    (ht : readsOut (runAllOps s.w.wid s) [(s.w.sr a.toNat).bits] = (t, true))
    (hp : peek t t.w (s.w.sr a.toNat).bits 64 64 = .bytes bs) (hg : gridNamed t (w64 (field bs 0 8)) = some gr) (hn : t.w.batches.length < 8) :
    execRaylw d a b g s = .next (raysStart d.toNat (s.w.sr b.toNat).bits t true (warpedRays bs gr)) := by
  have hi : t.w.irrTx (s.w.active g) = 0 := (irrTx_tx ((congrArg Warp.tx (readsOut_w ht)).trans (runAllOps_tx ..)) _).trans hu.2
  refine (simple_run (o := execRaylw d a b g s) (gt := raylwGate d a b g) rfl ⟨rfl, rfl, rfl, rfl, rfl, rfl⟩ hc hu.1).trans
    ((congrArg (Gate.out _) (a₂ := launchRays d.toNat true (s.w.sr b.toNat).bits (warpedRays bs gr) (s.w.active g) t)
      ((if_neg hc.lanes).trans ((if_neg (not_not_intro hbase)).trans ((afterOps_done hr).trans ((overFabric_made ht).trans ?_))))).trans
      (launchRays_outside hi rfl))
  rw [hp]
  dsimp only
  rw [hg]
  dsimp only
  rw [if_neg (Nat.not_le.2 hn), noteReads_outside (act := s.w.active (raylwGate d a b g).guard) hi]
  rfl

end

end

/-- Settles O37: each instruction by the lemma of its form. -/
theorem textureAndRayInstructionsComplete : Obligations.TextureAndRayInstructionsComplete := by
  intro s d a b g w act issues u ready early hu
  refine ⟨fun hc hld => ?_, fun hld hr t ht bs hp hok => ?_, fun hbase => ⟨fun hc => rayl_gives hu hbase hc, fun hc => ⟨?_, ?_, ?_⟩⟩,
    fun hc hld h22 h32 y hy hk => rayr_gives hu hld hc h22 h32 hy hk⟩
  · have h2 := clear_fewer (m := 2) (by decide) hc
    have h1 := clear_fewer (m := 1) (by decide) hc
    refine ⟨⟨tex_early hu hld (o := execTex d a b g s) rfl h2, tex_early hu hld (o := execTexl d a b g s) rfl hc,
      tex_early hu hld (o := execTexg d a b g s) rfl hc, tex_early hu hld (o := execTexf d a b g s) rfl hc,
      tex_early hu hld (o := execTexq d a b g s) rfl h1⟩, fun t ht hr => ?_⟩
    exact ⟨tex_refused hu hld (o := execTex d a b g s) rfl h2 hr ht, tex_refused hu hld (o := execTexl d a b g s) rfl hc hr ht,
      tex_refused hu hld (o := execTexg d a b g s) rfl hc hr ht, tex_refused hu hld (o := execTexf d a b g s) rfl hc hr ht,
      tex_refused hu hld (o := execTexq d a b g s) rfl h1 hr ht⟩
  · exact ⟨fun hc t2 h2 accs outs hl => texOp_reads hu hld hr ht hp hok hc h2 hl,
      fun hc t2 h2 accs outs hl => texOp_reads hu hld hr ht hp hok hc h2 hl,
      fun hc t2 h2 accs outs hl => texOp_reads hu hld hr ht hp hok hc h2 hl,
      fun hc t2 h2 accs outs hl => texOp_reads hu hld hr ht hp hok hc h2 hl,
      fun hc => texq_gives hu hld hr ht hp hok hc⟩
  · exact raylw_early hu hbase hc
  · exact fun t hr ht => raylw_refused hu hbase hc hr ht
  · exact fun t hr ht bs gr hp hg hn => raylw_starts hu hbase hc hr ht hp hg hn

end Sys2Proof.Proofs
end

section
/-! SUPPORT. The steps of the matrix arrays (R269, R294 to R302). -/

namespace Sys2Proof.Proofs
open Sys2Proof Sys2Proof.Machine

theorem live_gone {w : Warp} (h : w.live = true) : w.gone = false := by
  unfold Warp.gone
  rw [h]
  rfl

theorem retireGone_live {s : State} (h : ∀ w ∈ s.warps, w.live = true) : retireGone s = s := by
  have hn : s.warps.filter Warp.gone = [] :=
    List.filter_eq_nil_iff.2 fun w hw hg => Bool.false_ne_true ((live_gone (h w hw)).symm.trans hg)
  rw [retireGone, hn]
  rfl

/-- A property that holds at the start and is kept by each step of a fold over a range holds at its end. -/
theorem foldl_range_induct {σ : Type} {f : σ → Nat → σ} {P : Nat → σ → Prop} (n : Nat) {a : σ} (h0 : P 0 a)
    (hs : ∀ i < n, ∀ b, P i b → P (i + 1) (f b i)) : P n ((List.range n).foldl f a) := by
  induction n with
  | zero => exact h0
  | succ n ih =>
    rw [List.range_succ, List.foldl_append]
    exact hs n (Nat.lt_succ_self n) _ (ih fun i hi => hs i (Nat.lt_succ_of_lt hi))

/-! ### The oldest operation of an array (R269) -/

section
variable {s : State} {core : Nat} {j : TileJob} {rest : List TileJob} (hall : ∀ v ∈ s.warps, v.live = true)
  (hm : (s.core core).mxa = j :: rest) (hready : tileReady s j = true)
include hall hm hready

theorem mxa_waits (hp : performTile core j s = none) : execMxaOperation core s = .next s := by
  have h : mxaStep core s = s := by
    unfold mxaStep
    rw [hm]
    dsimp only
    rw [if_pos hready, hp]
  unfold execMxaOperation
  rw [h, retireGone_live hall]

/-- An operation that leaves the other warps and this one's lanes is performed, and TL falls. -/
theorem mxa_performs (hid : s.w.wid = j.wid) (hr : s.w.resident = true) {t : State} (hp : performTile core j s = some t)
    (ho : t.others = s.others) (hw : t.w.wid = s.w.wid ∧ t.w.resident = s.w.resident ∧ t.w.live = s.w.live) :
    execMxaOperation core s = .next { t.setCore core { t.core core with mxa := rest } with
      w := { t.w with tls := markDone t.w.tls j.id } } := by
  obtain ⟨hwid, hres, hlive⟩ := hw
  have h : mxaStep core s = { t.setCore core { t.core core with mxa := rest } with w := { t.w with tls := markDone t.w.tls j.id } } := by
    unfold mxaStep
    rw [hm]
    dsimp only
    rw [if_pos hready, hp]
    refine if_pos (?_ : (t.w.resident && t.w.wid == j.wid) = true)
    rw [hres, hr, hwid, hid, beq_self_eq_true]
    rfl
  unfold execMxaOperation
  rw [h, retireGone_live]
  intro v hv
  simp only [State.warps, hres, hr, if_true, List.singleton_append, List.mem_cons] at hv
  rcases hv with rfl | hv
  · exact hlive.trans (hall _ (by simp [State.warps, hr]))
  · exact hall v (List.mem_append_right _ (ho ▸ hv))

/-- The operations that change the array's own core alone. -/
theorem mxa_does (hid : s.w.wid = j.wid) (hr : s.w.resident = true) {c : Core} (hp : performTile core j s = some (s.setCore core c)) :
    execMxaOperation core s = .next { (s.setCore core c).setCore core { (s.setCore core c).core core with mxa := rest } with
      w := { s.w with tls := markDone s.w.tls j.id } } :=
  mxa_performs hall hm hready hid hr hp rfl ⟨rfl, rfl, rfl⟩

end

/-! ### Tiles in scratch (R268, R294) -/

theorem tileIdx_inj {c : BitVec 21} {q q' e e' : Nat} (hq : q < (scratchRows c).1) (hq' : q' < (scratchRows c).1)
    (he : e < (scratchRows c).2) (he' : e' < (scratchRows c).2) (h : tileIdx c q e = tileIdx c q' e') : q = q' ∧ e = e' := by
  have hc : cfgCols c ≤ 256 := Nat.mod_lt _ (by decide)
  unfold tileIdx at h
  unfold scratchRows at hq hq' he he'
  cases hk : cfgCol c with
  | true =>
    rw [hk] at h hq hq' he he'
    simp only [if_true] at h hq hq' he he'
    omega
  | false =>
    rw [hk] at h hq hq' he he'
    simp only [Bool.false_eq_true, if_false] at h hq hq' he he'
    omega

/-- The first `q` rows of a tile, and `e` elements of the next, hold the values that `val` names. -/
def Loaded (t : Tile) (val : Nat → Nat → W64) (q e : Nat) (u : Tile) : Prop :=
  u.cfg = t.cfg ∧ u.scale = t.scale ∧
    ∀ i < (scratchRows t.cfg).1, ∀ k < (scratchRows t.cfg).2, (i < q ∨ i = q ∧ k < e) → look 0 u.el (tileIdx t.cfg i k) = val i k

theorem Loaded.row {t u : Tile} {val : Nat → Nat → W64} {q : Nat} (h : Loaded t val q (scratchRows t.cfg).2 u) : Loaded t val (q + 1) 0 u :=
  ⟨h.1, h.2.1, fun i hi k hk hx => h.2.2 i hi k hk (by omega)⟩

theorem Loaded.put {t u : Tile} {val : Nat → Nat → W64} {q e : Nat} {bad : List (Nat × Bool)} (hq : q < (scratchRows t.cfg).1)
    (he : e < (scratchRows t.cfg).2) (h : Loaded t val q e u) :
    Loaded t val q (e + 1) { u with el := put 0 u.el (tileIdx u.cfg q e) (val q e), bad := bad } := by
  obtain ⟨hc, hs, hv⟩ := h
  refine ⟨hc, hs, fun i hi k hk h => ?_⟩
  dsimp only
  rw [hc, look_put]
  by_cases hx : tileIdx t.cfg i k = tileIdx t.cfg q e
  · obtain ⟨rfl, rfl⟩ := tileIdx_inj hi hq hk he hx
    rw [if_pos rfl]
  · rw [if_neg hx]
    have hne : ¬(i = q ∧ k = e) := fun hh => hx (by rw [hh.1, hh.2])
    exact hv i hi k hk (by omega)

/-- The element of scratch that a tile's load reads. -/
def scratchElem (s : State) (key pitch : Nat) (c : BitVec 21) (q e : Nat) : W64 :=
  BitVec.ofNat 64 (elemAt (cfgType c) (loadBytes s (key + q * pitch) (rowLen c)) e)

theorem loadTile_loaded (s : State) (key pitch : Nat) (t : Tile) :
    Loaded t (scratchElem s key pitch t.cfg) (scratchRows t.cfg).1 0 (loadTile s key pitch t) := by
  refine foldl_range_induct (P := fun q u => Loaded t _ q 0 u) _ ⟨rfl, rfl, fun i _ k _ h => by omega⟩ fun q hq u hu => Loaded.row ?_
  have hcfg := hu.1
  dsimp only
  rw [hcfg]
  exact foldl_range_induct (P := fun e v => Loaded t _ q e v) _ hu fun e he v hv => hv.put hq he

/-! ### Stores of bytes with their poison (R197, R202) -/

theorem storeCells_frame (cl : Nat) : ∀ (n : Nat) (cs : List (Nat × Byte × Bool)) (s : State),
    (storeCells cl n cs s).w = s.w ∧ (storeCells cl n cs s).others = s.others
  | 0, _, _ => ⟨rfl, rfl⟩
  | _ + 1, [], _ => ⟨rfl, rfl⟩
  | n + 1, c :: cs, s => by
    unfold storeCells
    dsimp only
    split
    · exact storeCells_frame cl n _ _
    · exact storeCells_frame cl n cs _

/-- A run of bytes at consecutive keys. -/
def runAt (key : Nat) (bs : List Byte) (bad : Nat → Bool) : List (Nat × Byte × Bool) := bs.mapIdx (fun i x => (key + i, x, bad i))

theorem runAt_cons (key : Nat) (b : Byte) (bs : List Byte) (bad : Nat → Bool) :
    runAt key (b :: bs) bad = (key, b, bad 0) :: runAt (key + 1) bs (fun i => bad (i + 1)) := by
  unfold runAt
  rw [List.mapIdx_cons]
  refine congrArg _ (List.ext_getElem (by simp) fun i h _ => ?_)
  simp
  omega

theorem runAt_drop (key : Nat) (bs : List Byte) (bad : Nat → Bool) (n : Nat) :
    (runAt key bs bad).drop n = runAt (key + n) (bs.drop n) (fun i => bad (i + n)) := by
  refine List.ext_getElem (by simp [runAt]) fun i h _ => ?_
  simp [runAt]
  constructor
  · omega
  · rw [Nat.add_comm]

theorem runAt_take_bytes (key : Nat) (bs : List Byte) (bad : Nat → Bool) (n : Nat) : ((runAt key bs bad).take n).map (·.2.1) = bs.take n := by
  refine List.ext_getElem (by simp [runAt]) fun i h _ => ?_
  simp [runAt]

/-- A word of bytes in their order stands at its key. -/
theorem byte_storeWord (k : Nat) (bs : List Byte) (bad : Bool) (s : State) (a : Nat) :
    (storeMem k 8 (w64 (ofLe bs)) bad s).byte a = if k ≤ a ∧ a < k + 8 then bs.getD (a - k) 0 else s.byte a := by
  refine (byte_storeWords [ofLe bs] s k a).trans ?_
  by_cases h : k ≤ a ∧ a < k + 8
  · have e : (a - k) / 8 = 0 := by omega
    have e' : (a - k) % 8 = a - k := by omega
    rw [if_pos h, if_pos (by simpa using h), e, e', List.getD_cons_zero, ofLe_byte]
  · rw [if_neg h, if_neg (by simpa using h)]

/-- The bytes of a run stand at its keys, and every other byte of memory is as it was. -/
theorem storeCells_byte (cl : Nat) : ∀ (n : Nat) (bs : List Byte) (key : Nat) (bad : Nat → Bool) (s : State) (a : Nat), bs.length ≤ n →
    (storeCells cl n (runAt key bs bad) s).byte a = if key ≤ a ∧ a < key + bs.length then bs.getD (a - key) 0 else s.byte a
  | 0, bs, key, bad, s, a, h => by
    rw [List.length_eq_zero_iff.1 (Nat.le_zero.1 h), storeCells]
    exact (if_neg (by simp)).symm
  | n + 1, [], key, bad, s, a, _ => by
    exact (if_neg (by simp)).symm
  | n + 1, b :: bs, key, bad, s, a, h => by
    have h : bs.length ≤ n := Nat.le_of_succ_le_succ h
    have hcons := runAt_cons key b bs bad
    rw [hcons]
    unfold storeCells
    dsimp only
    rw [← hcons]
    split
    · next hw =>
      have h8 : 8 ≤ (b :: bs).length := by
        have hl : ((runAt key (b :: bs) bad).take 8).length = 8 := by simp only [Bool.and_eq_true, beq_iff_eq] at hw; exact hw.1.2
        simp [runAt] at hl ⊢
        omega
      rw [runAt_drop, runAt_take_bytes, storeCells_byte cl n _ _ _ _ a (by simp; omega), byte_storeWord, List.length_drop]
      rw [List.length_cons] at h8 ⊢
      by_cases ha : key + 8 ≤ a
      · rw [if_neg (show ¬(key ≤ a ∧ a < key + 8) by omega)]
        refine ite_of_iff (by omega) ?_ rfl
        rw [List.getD_eq_getElem?_getD, List.getD_eq_getElem?_getD, List.getElem?_drop, show 8 + (a - (key + 8)) = a - key by omega]
      · rw [if_neg (by omega)]
        refine ite_of_iff_ctx (by omega) (fun hk => ?_) fun _ => rfl
        rw [List.getD_eq_getElem?_getD, List.getD_eq_getElem?_getD, List.getElem?_take_of_lt (by omega)]
    · rw [storeCells_byte cl n _ _ _ _ a h, byte_storeMem, List.length_cons]
      rcases Nat.lt_trichotomy a key with ha | rfl | ha
      · rw [if_neg (by omega), if_neg (by omega), if_neg (by omega)]
        rfl
      · rw [if_neg (by omega), if_pos (by omega), if_pos (by omega), Nat.sub_self]
        apply BitVec.eq_of_toNat_eq
        have := b.isLt
        simp
        omega
      · rw [if_neg (show ¬(key ≤ a ∧ a < key + 1) by omega)]
        refine ite_of_iff (by omega) ?_ rfl
        rw [show a - key = a - (key + 1) + 1 by omega, List.getD_cons_succ]

/-- The bytes of scratch row q of a tile. -/
def tileRow (t : Tile) (q : Nat) : List Byte :=
  packElems (cfgType t.cfg) ((List.range (scratchRows t.cfg).2).map (fun e => (look 0 t.el (tileIdx t.cfg q e)).toNat))

/-- A tile is stored row by row. -/
theorem storeTile_rows (key pitch : Nat) (t : Tile) (s : State) : ∃ bad : Nat → Nat → Bool, storeTile key pitch t s =
    (List.range (scratchRows t.cfg).1).foldl (fun s q => storeCells 0 (tileRow t q).length (runAt (key + q * pitch) (tileRow t q) (bad q)) s) s := by
  refine ⟨fun q i => !t.bad.isEmpty && ((List.range (scratchRows t.cfg).2).map (fun e => tileIdx t.cfg q e)).zipIdx.any (fun x =>
    look false t.bad x.1 && decide (x.2 * typeBits (cfgType t.cfg) < 8 * i + 8) && decide (8 * i < (x.2 + 1) * typeBits (cfgType t.cfg))), ?_⟩
  unfold storeTile tileRow runAt
  simp only [List.map_map]
  rfl

theorem storeTile_frame (key pitch : Nat) (t : Tile) (s : State) :
    (storeTile key pitch t s).w = s.w ∧ (storeTile key pitch t s).others = s.others := by
  obtain ⟨bad, h⟩ := storeTile_rows key pitch t s
  rw [h]
  exact ⟨foldl_keeps State.w (fun _ _ => (storeCells_frame ..).1) _ s, foldl_keeps State.others (fun _ _ => (storeCells_frame ..).2) _ s⟩

/-- Bytes outside of the rows of a stored tile are as they were. -/
theorem storeTile_outside {key pitch a : Nat} {t : Tile} {s : State}
    (ha : ∀ q < (scratchRows t.cfg).1, ¬(key + q * pitch ≤ a ∧ a < key + q * pitch + (tileRow t q).length)) :
    (storeTile key pitch t s).byte a = s.byte a := by
  obtain ⟨bad, h⟩ := storeTile_rows key pitch t s
  rw [h]
  refine foldl_range_induct (P := fun _ (u : State) => u.byte a = s.byte a) _ rfl fun q hq u hu => ?_
  rw [storeCells_byte _ _ _ _ _ _ _ (Nat.le_refl _), if_neg (ha q hq), hu]

/-- Rows of a stored tile that do not meet hold its bytes. -/
theorem storeTile_inside {key pitch : Nat} {t : Tile} {s : State} (hp : ∀ q < (scratchRows t.cfg).1, (tileRow t q).length ≤ pitch) :
    ∀ q < (scratchRows t.cfg).1, ∀ i < (tileRow t q).length,
      (storeTile key pitch t s).byte (key + q * pitch + i) = (tileRow t q).getD i 0 := by
  obtain ⟨bad, h⟩ := storeTile_rows key pitch t s
  rw [h]
  refine foldl_range_induct (P := fun m (u : State) => ∀ q < m, ∀ i < (tileRow t q).length, u.byte (key + q * pitch + i) = (tileRow t q).getD i 0)
    _ (fun q hq => absurd hq (Nat.not_lt_zero q)) fun m hm u hu q hq i hi => ?_
  rw [storeCells_byte _ _ _ _ _ _ _ (Nat.le_refl _)]
  rcases Nat.lt_succ_iff_lt_or_eq.1 hq with hlt | rfl
  · have hlen := hp q (Nat.lt_trans hlt hm)
    have hrow : (q + 1) * pitch ≤ m * pitch := Nat.mul_le_mul_right pitch hlt
    rw [Nat.succ_mul] at hrow
    rw [if_neg (by omega), hu q hlt i hi]
  · rw [if_pos (by omega), Nat.add_sub_cancel_left]

/-! ### Each operation (R294 to R302) -/

/-- The state after an operation that gives `t`, with this warp as `w`. -/
def mxaDone (core : Nat) (j : TileJob) (rest : List TileJob) (t : State) (w : Warp) : State :=
  { t.setCore core { t.core core with mxa := rest } with w := { w with tls := markDone w.tls j.id } }

section
variable {s : State} {core : Nat} {j : TileJob} {rest : List TileJob} (hall : ∀ v ∈ s.warps, v.live = true)
  (hm : (s.core core).mxa = j :: rest) (hready : tileReady s j = true) (hid : s.w.wid = j.wid) (hr : s.w.resident = true)
include hall hm hready hid hr

theorem mxa_stores {n key pitch : Nat} (h : j.op = .store n key pitch) :
    execMxaOperation core s = .next (mxaDone core j rest (storeTile key pitch ((s.core core).tile n) s) s.w) := by
  obtain ⟨hw, ho⟩ := storeTile_frame key pitch ((s.core core).tile n) s
  have hp : performTile core j s = some (storeTile key pitch ((s.core core).tile n) s) := by
    unfold performTile
    rw [h]
  refine (mxa_performs hall hm hready hid hr hp ho (by rw [hw]; exact ⟨rfl, rfl, rfl⟩)).trans ?_
  rw [hw]
  rfl

theorem mxa_follows {d a b : Nat} {sat : Bool} {pair : Nat} {sent : Tile} (h : j.op = .follow d a b sat pair)
    (hf : (s.core core).fromLeader.find? (fun x => x.1 == pair) = some (pair, sent)) :
    let c1 := { s.core core with fromLeader := (s.core core).fromLeader.filter (fun x => x.1 != pair) }.setTile b sent
    execMxaOperation core s = .next (mxaDone core j rest (s.setCore core (c1.setAcc d (mmaInto (c1.tile a) sent sat (c1.acc d)))) s.w) := by
  intro c1
  refine mxa_does hall hm hready hid hr ?_
  have hb : c1.tile b = sent := look_put_self _ _ _ _
  unfold performTile
  rw [h]
  dsimp only
  rw [hf]
  exact congrArg (fun x => some (s.setCore core (c1.setAcc d (mmaInto (c1.tile a) x sat (c1.acc d))))) hb

theorem mxa_moves {x a row col : Nat} {act : Mask} (h : j.op = .movv x a row col act) :
    execMxaOperation core s = .next (mxaDone core j rest s { s.w with v := (lanesOf act).foldl (fun v l =>
      ((movvWords ((s.core core).acc a) row col l).zipIdx).foldl (fun v y => put {} v (32 * (x + y.2) + l) y.1) v) s.w.v }) := by
  have hmod : (s.w.resident && s.w.wid == j.wid) = true := by
    rw [hr, hid, beq_self_eq_true]
    rfl
  refine mxa_performs hall hm hready hid hr (t := { s with w := { s.w with v := (lanesOf act).foldl (fun v l =>
      ((movvWords ((s.core core).acc a) row col l).zipIdx).foldl (fun v y => put {} v (32 * (x + y.2) + l) y.1) v) s.w.v } })
    ?_ rfl ⟨rfl, rfl, rfl⟩
  unfold performTile
  rw [h]
  exact congrArg some (if_pos hmod)

theorem mxa_leads {d a b : Nat} {sat : Bool} {pair : Nat} (h : j.op = .lead d a b sat pair) :
    let c := s.core core
    let t := s.setCore core (c.setAcc d (mmaInto (c.tile a) (c.tile b) sat (c.acc d)))
    execMxaOperation core s = .next (mxaDone core j rest (t.setCore (core + 1) { t.core (core + 1) with
      fromLeader := (t.core (core + 1)).fromLeader ++ [(pair, c.tile b)] }) s.w) := by
  intro c t
  refine mxa_performs hall hm hready hid hr (t := t.setCore (core + 1) { t.core (core + 1) with
      fromLeader := (t.core (core + 1)).fromLeader ++ [(pair, c.tile b)] }) ?_ rfl ⟨rfl, rfl, rfl⟩
  unfold performTile
  rw [h]

end

end Sys2Proof.Proofs
end

section
/-! SUPPORT. The rows and the end of a copy (R239, R286 to R288). -/

namespace Sys2Proof.Proofs
open Sys2Proof Sys2Proof.Machine

/-! ### What the steps of a copy leave of the warps -/

/-- The warps of a state: the one on turn and the others. -/
def crew (s : State) : Warp × List Warp := (s.w, s.others)

theorem crew_warps {s t : State} (h : crew t = crew s) : t.warps = s.warps := by
  obtain ⟨hw, ho⟩ := Prod.mk.inj h
  rw [State.warps, State.warps, hw, ho]

theorem crew_beside {s t : State} (h : Beside t s) : crew t = crew s := by
  obtain ⟨m, b, rfl⟩ := h
  rfl

theorem crew_setCopy (c : Copy) (s : State) : crew (setCopy c s) = crew s := rfl

theorem crew_storeCells (cl n : Nat) (cs : List (Nat × Byte × Bool)) (s : State) : crew (storeCells cl n cs s) = crew s := by
  obtain ⟨hw, ho⟩ := storeCells_frame cl n cs s
  exact Prod.ext hw ho

theorem crew_reduceElem (cl t key size x : Nat) (bad : Bool) (s : State) : crew (reduceElem cl t key size x bad s) = crew s := by
  unfold reduceElem
  dsimp only
  split
  · rfl
  · split
    · rfl
    · exact (crew_beside (storeMem_beside _ _ _ _ (dropLine s cl (lineOf key) none))).trans rfl

theorem crew_moveRow (c : Copy) (sl : Slice) (n : Nat) (pages : List (Nat × Nat)) (s : State) :
    crew (c.moveRow sl n pages s) = crew s := by
  unfold Copy.moveRow
  dsimp only
  split
  · exact crew_storeCells ..
  · refine foldl_keeps crew (fun t x => ?_) _ s
    split
    · exact crew_reduceElem ..
    · rfl
  · exact crew_storeCells ..

theorem updFirst_all {α : Type} {P : α → Prop} {p : α → Bool} {f : α → α} (hf : ∀ x, P x → P (f x)) :
    ∀ {xs : List α}, (∀ x ∈ xs, P x) → ∀ x ∈ updFirst p f xs, P x
  | [], h => h
  | y :: ys, h => by
    obtain ⟨hy, hys⟩ := List.forall_mem_cons.1 h
    unfold updFirst
    split
    · exact List.forall_mem_cons.2 ⟨hf y hy, hys⟩
    · exact List.forall_mem_cons.2 ⟨hy, updFirst_all hf hys⟩

theorem modWarp_all {P : Warp → Prop} {wid : Nat} {f : Warp → Warp} (hf : ∀ w, P w → P (f w)) {s : State} (h : ∀ w ∈ s.warps, P w) :
    ∀ w ∈ (s.modWarp wid f).warps, P w := by
  obtain ⟨hturn, hothers⟩ := List.forall_mem_append.1 h
  unfold State.modWarp
  split
  · next hw =>
    rw [Bool.and_eq_true] at hw
    refine List.forall_mem_append.2 ⟨fun w hmem => ?_, hothers⟩
    have hP : P (f s.w) := hf s.w (hturn s.w (by rw [if_pos hw.1]; exact List.mem_singleton_self _))
    split at hmem
    · exact List.mem_singleton.1 hmem ▸ hP
    · exact absurd hmem List.not_mem_nil
  · exact List.forall_mem_append.2 ⟨hturn, updFirst_all hf hothers⟩

theorem modWarps_all {α : Type} {P : Warp → Prop} {g : α → Nat} {f : α → Warp → Warp} (hf : ∀ x w, P w → P (f x w)) :
    ∀ (xs : List α) {s : State}, (∀ w ∈ s.warps, P w) → ∀ w ∈ (xs.foldl (fun s x => s.modWarp (g x) (f x)) s).warps, P w
  | [], _, h => h
  | x :: xs, _, h => modWarps_all hf xs (modWarp_all (hf x) h)

/-! ### Steps at the barrier object (R286) -/

/-- A copy's step at its object can be made. -/
def Steps (b : BarObj) (bmode : Nat) : Prop := b.valid = true ∧ b.retired = false ∧ (bmode = 3 → b.pend ≠ 0)

theorem copyStep_made {b : BarObj} {bmode bytes : Nat} {arrive : Bool} (h : Steps b bmode) :
    b.copyStep bmode bytes arrive false = some ({ b with txcnt := (b.txcnt + 2 ^ 32 - bytes % 2 ^ 32) % 2 ^ 32
                                                         pend := if arrive then b.pend - 1 else b.pend } : BarObj).check := by
  obtain ⟨hv, hr, hp⟩ := h
  refine if_neg ?_
  simpa [hv, hr] using hp

theorem copyStep_unmade {b : BarObj} {bmode bytes : Nat} {arrive poison : Bool} (h : ¬Steps b bmode) :
    b.copyStep bmode bytes arrive poison = none := by
  refine if_pos ?_
  refine Classical.byContradiction fun hn => ?_
  refine h ?_
  simpa [Steps, and_assoc] using hn

theorem subtract_gives {c : Copy} {bytes : Nat} {s : State} :
    (c.desc.bmode = 0 → c.subtract bytes s = setCopy c s) ∧
    (c.desc.bmode ≠ 0 → Steps (readBar s c.barKey) c.desc.bmode → c.subtract bytes s =
      setCopy { c with subtracted := c.subtracted + bytes } (writeBar c.barKey ({ readBar s c.barKey with
        txcnt := ((readBar s c.barKey).txcnt + 2 ^ 32 - bytes % 2 ^ 32) % 2 ^ 32 } : BarObj).check s)) ∧
    (c.desc.bmode ≠ 0 → ¬Steps (readBar s c.barKey) c.desc.bmode → c.subtract bytes s =
      setCopy { c with cause := if c.cause = 0 then 0x07 else c.cause, subtracted := c.subtracted + bytes } s) := by
  refine ⟨fun h => if_pos h, fun h hs => (if_neg h).trans ?_, fun h hs => (if_neg h).trans ?_⟩
  · rw [copyStep_made hs]
    rfl
  · rw [copyStep_unmade hs]

/-- The state after the last step of a completed copy at its barrier object. -/
def barEnds (c : Copy) (b : BarObj) (s : State) : State :=
  if c.desc.bmode = 0 then s
  else writeBar c.barKey ({ b with
    txcnt := (b.txcnt + 2 ^ 32 - (c.size - c.subtracted) % 2 ^ 32) % 2 ^ 32
    pend := if c.desc.bmode = 3 then b.pend - 1 else b.pend } : BarObj).check s

/-- The state after the record of a completed copy. -/
def recordEnds (c : Copy) (b : BarObj) (s : State) : State :=
  if c.desc.stat then ringWrite c.ctx 2 (c.record s 1) (barEnds c b s) else barEnds c b s

/-- The state after the end of a completed copy. -/
def copyDone (c : Copy) (b : BarObj) (s : State) : State :=
  setCopy { c with ending := 1, stop := 0 } (c.slices.foldl (fun s x => s.modWarp x.wid (fun w => w.copyEnds c 1)) (recordEnds c b s))

/-- The last step at the object is made where the copy has one. -/
theorem endStep_made {c : Copy} {b : BarObj} {s : State} (hs : c.desc.bmode = 0 ∨ Steps b c.desc.bmode) :
    ∃ st : Option BarObj, (if c.desc.bmode = 0 then none else b.copyStep c.desc.bmode (c.size - c.subtracted)
      (c.desc.bmode == 3) (1 == 2)) = st ∧ (c.desc.bmode != 0 && st.isNone) = false ∧
      (st.elim s fun b => writeBar c.barKey b s) = barEnds c b s := by
  unfold barEnds
  by_cases h0 : c.desc.bmode = 0
  · exact ⟨none, if_pos h0, by rw [h0]; rfl, (if_pos h0).symm⟩
  · refine ⟨_, (if_neg h0).trans (copyStep_made (hs.resolve_left h0)), Bool.and_false _, ?_⟩
    rw [if_neg h0]
    by_cases h3 : c.desc.bmode = 3
    · rw [h3]
      rfl
    · rw [if_neg h3, beq_false_of_ne h3]
      rfl

theorem endCopy_gives {c : Copy} {b : BarObj} {s : State} (hb : readBar s c.barKey = b) (hc : c.cause ≠ 0x07)
    (hs : c.desc.bmode = 0 ∨ Steps b c.desc.bmode) :
    (c.desc.stat = true → ringFull s c.ctx 2 = true → endCopy c 1 s = setCopy { c with stop := 1 } s) ∧
    (c.desc.stat = false ∨ ringFull s c.ctx 2 = false → endCopy c 1 s = copyDone c b s) := by
  obtain ⟨st, hst, hfailed, hbar⟩ := endStep_made (s := s) hs
  unfold endCopy copyDone recordEnds
  dsimp only
  rw [if_neg hc, hb, hst, hfailed, ← hbar]
  refine ⟨fun h1 h2 => if_pos (by rw [h1, h2]; rfl), fun h => (if_neg ?_).trans ?_⟩
  · rcases h with h | h <;> rw [h] <;> simp
  · cases st <;> rfl

theorem readBar_setCopy (c : Copy) (s : State) (k : Nat) : readBar (setCopy c s) k = readBar s k := rfl

/-! ### A row whose accesses have set out (R287, R384, R385) -/

section
variable {s t : State} {c : Copy} {sl : Slice} {pages : List (Nat × Nat)} {taken : Bool}

theorem sent_crew (hsend : c.sendRow sl sl.nextRow pages s = (t, taken)) : crew t = crew s := by
  obtain ⟨a, b, h⟩ := sendAll_out hsend
  rw [h]
  rfl

theorem moved_live (hsend : c.sendRow sl sl.nextRow pages s = (t, taken)) (hall : ∀ v ∈ s.warps, v.live = true) :
    ∀ v ∈ (c.moveRow sl sl.nextRow pages t).warps, v.live = true := by
  rw [crew_warps ((crew_moveRow ..).trans (sent_crew hsend))]
  exact hall

theorem execCopyRow_gives {u : State} (h : copyRow c.id s = u) (hu : ∀ v ∈ u.warps, v.live = true) : execCopyRow c.id s = .next u := by
  unfold execCopyRow
  rw [h, retireGone_live hu]

variable (hfind : s.copies.find? (fun x => x.id == c.id && x.ending == 0) = some c) (hstop : c.stop = 0) (hcancel : c.cancel = false)
  (hheld : c.held = false) (hblocked : c.blocked s = false) (hsl : c.slices.find? (fun x => x.nextRow < x.rows) = some sl)
  (hcheck : c.checkRow sl s sl.nextRow = .ok pages) (hsend : c.sendRow sl sl.nextRow pages s = (t, taken))

/-- The copy after a row of slice `sl`. -/
def rowDone (c : Copy) (sl : Slice) : Copy :=
  { c with done := c.done + c.desc.rowBytes
           slices := c.slices.map (fun x => if x.wid == sl.wid then { x with nextRow := x.nextRow + 1 } else x) }

include hfind hstop hcancel hheld hblocked hsl hcheck hsend

theorem copyRow_goes : copyRow c.id s =
    if taken = true then
      if (rowDone c sl).slices.all (fun x => x.rows ≤ x.nextRow) then
        endCopy (rowDone c sl) 1 (setCopy (rowDone c sl) (c.moveRow sl sl.nextRow pages t))
      else (rowDone c sl).subtract c.desc.rowBytes (c.moveRow sl sl.nextRow pages t)
    else t := by
  unfold copyRow
  rw [hfind]
  dsimp only
  rw [if_neg (not_not_intro hstop), if_neg (by rw [hcancel]; decide), if_neg (by rw [hheld, hblocked]; decide), hsl]
  dsimp only
  rw [hcheck]
  dsimp only
  rw [hsend]
  cases taken <;> rfl

variable (hall : ∀ v ∈ s.warps, v.live = true)
include hall

theorem copyRow_refused (ht : taken = false) : execCopyRow c.id s = .next t := by
  refine execCopyRow_gives ?_ ?_
  · rw [copyRow_goes hfind hstop hcancel hheld hblocked hsl hcheck hsend, ht]
    exact if_neg Bool.false_ne_true
  · rw [crew_warps (sent_crew hsend)]
    exact hall

/-- A row that is not the last: the object's step follows the move. -/
theorem copyRow_moves (ht : taken = true) (hmore : ∃ x ∈ (rowDone c sl).slices, x.nextRow < x.rows) {u : State}
    (hu : (rowDone c sl).subtract c.desc.rowBytes (c.moveRow sl sl.nextRow pages t) = u)
    (hcrew : crew u = crew (c.moveRow sl sl.nextRow pages t)) : execCopyRow c.id s = .next u := by
  obtain ⟨x, hx, hlt⟩ := hmore
  refine execCopyRow_gives ?_ ?_
  · rw [copyRow_goes hfind hstop hcancel hheld hblocked hsl hcheck hsend, if_pos ht, ← hu]
    exact if_neg fun h => Nat.not_le.2 hlt (of_decide_eq_true (List.all_eq_true.1 h x hx))
  · rw [crew_warps hcrew]
    exact moved_live hsend hall

omit hall in
/-- The last row: the copy ends. -/
theorem copyRow_ends (ht : taken = true) (hdone : ∀ x ∈ (rowDone c sl).slices, x.rows ≤ x.nextRow) {u : State}
    (hu : endCopy (rowDone c sl) 1 (setCopy (rowDone c sl) (c.moveRow sl sl.nextRow pages t)) = u)
    (hlive : ∀ v ∈ u.warps, v.live = true) : execCopyRow c.id s = .next u := by
  refine execCopyRow_gives ?_ hlive
  rw [copyRow_goes hfind hstop hcancel hheld hblocked hsl hcheck hsend, if_pos ht, ← hu]
  exact if_pos (List.all_eq_true.2 fun x hx => decide_eq_true (hdone x hx))

end

theorem copyDone_live {c : Copy} {b : BarObj} {s : State} (h : ∀ v ∈ s.warps, v.live = true) : ∀ v ∈ (copyDone c b s).warps, v.live = true := by
  have hbar : crew (barEnds c b s) = crew s := by
    unfold barEnds
    split
    · rfl
    · exact crew_beside (writeBar_beside ..)
  have hrec : crew (recordEnds c b s) = crew s := by
    unfold recordEnds
    split
    · exact (crew_beside (ringWrite_beside ..)).trans hbar
    · exact hbar
  refine modWarps_all (P := fun w => w.live = true) (f := fun _ w => w.copyEnds c 1) (g := Slice.wid) (fun _ w hw => hw) c.slices ?_
  rw [crew_warps hrec]
  exact h

/-! ### The release of range locks (R239, R241) -/

theorem releaseLocks_gives {id : Nat} {s : State} (h : s.copies.any (fun c => c.id == id && c.ending != 0 && c.ripe) = true) :
    ∃ t, execRangeLockRelease id s = .next t ∧ t.mem = s.mem ∧ t.copies = s.copies.filter (fun c => c.id != id) ∧
      ∀ e ∈ t.cores, ∀ l ∈ e.2.locks, l.copy ≠ id := by
  refine ⟨_, congrArg Host.Outcome.next (if_pos h), rfl, rfl, fun e he l hl => ?_⟩
  obtain ⟨x, _, rfl⟩ := List.mem_map.1 he
  have := (List.mem_filter.1 hl).2
  simpa using this

/-- Settles O34: the array's operations by `mxa_performs` and what each gives, a copy's rows by `copyRow_goes`. -/
theorem engineEventsComplete : Obligations.EngineEventsComplete := by
  intro s hall
  refine ⟨?_, ?_, fun id h => releaseLocks_gives h, fun id h => congrArg Host.Outcome.next (if_neg (Bool.not_eq_true _ ▸ h))⟩
  · intro core j rest hm hready _ hid hr c performs does
    refine ⟨fun d h => mxa_does hall hm hready hid hr (by rw [performTile, h]; rfl), fun d h => mxa_does hall hm hready hid hr (by rw [performTile, h]),
      fun d cfg h => mxa_does hall hm hready hid hr (by rw [performTile, h]; rfl), fun d key pitch h => ?_, fun n key pitch h => ?_,
      fun d key pitch bias h => mxa_does hall hm hready hid hr (by rw [performTile, h]),
      fun d a b sat h => mxa_does hall hm hready hid hr (by rw [performTile, h]),
      fun d a b x sat h => mxa_does hall hm hready hid hr (by rw [performTile, h]),
      fun d a b sat pair h => mxa_leads hall hm hready hid hr h,
      fun d a b sat pair sent h hf => mxa_follows hall hm hready hid hr h hf, fun d a b sat pair h hf => ?_,
      fun x a row col act h => mxa_moves hall hm hready hid hr h,
      fun d a rm sat h => mxa_does hall hm hready hid hr (by rw [performTile, h])⟩
    · obtain ⟨hc, hs, hv⟩ := loadTile_loaded s key pitch (c.tile d)
      refine ⟨loadTile s key pitch (c.tile d), mxa_does hall hm hready hid hr (by rw [performTile, h]), hc, hs, ?_⟩
      rw [hc]
      exact fun q hq e he => hv q hq e he (.inl hq)
    · exact ⟨mxa_stores hall hm hready hid hr h, fun hp => storeTile_inside hp, fun a ha => storeTile_outside ha⟩
    · exact mxa_waits hall hm hready (by rw [performTile, h]; dsimp only; rw [hf])
  · intro c sl pages t taken hfind hstop hcancel hheld hblocked hsl hcheck hsend becomes row moved c1 b steps minus
    have hmoved := moved_live hsend hall
    obtain ⟨plain, made, unmade⟩ := subtract_gives (c := c1) (bytes := row) (s := moved)
    refine ⟨copyRow_refused hfind hstop hcancel hheld hblocked hsl hcheck hsend hall, fun ht hmore => ⟨fun h0 => ?_, fun h0 hs => ?_, fun h0 hs => ?_⟩,
      fun ht hdone hc hs => ⟨fun hstat hfull => ?_, fun hroom => ?_⟩⟩
    · exact copyRow_moves hfind hstop hcancel hheld hblocked hsl hcheck hsend hall ht hmore (plain h0) (crew_setCopy ..)
    · exact copyRow_moves hfind hstop hcancel hheld hblocked hsl hcheck hsend hall ht hmore (made h0 hs)
        ((crew_setCopy ..).trans (crew_beside (writeBar_beside ..)))
    · exact copyRow_moves hfind hstop hcancel hheld hblocked hsl hcheck hsend hall ht hmore (unmade h0 hs) (crew_setCopy ..)
    · exact copyRow_ends hfind hstop hcancel hheld hblocked hsl hcheck hsend ht hdone
        ((endCopy_gives (c := c1) (b := b) (readBar_setCopy ..) hc hs).1 hstat hfull) hmoved
    · exact copyRow_ends hfind hstop hcancel hheld hblocked hsl hcheck hsend ht hdone
        ((endCopy_gives (c := c1) (b := b) (readBar_setCopy ..) hc hs).2 hroom)
        (copyDone_live (c := c1) (b := b) ((crew_warps (crew_setCopy c1 moved)).symm ▸ hmoved))

end Sys2Proof.Proofs
end
